-- ==== Sys2Proof/Word.lean ====
section
/-! DEFINITION. The word types of Camette (R5): bytes, 32-bit edge words, 64-bit record and register words. -/

namespace Sys2Proof

/-- One byte of a window write. -/
abbrev Byte := BitVec 8

/-- One 32-bit edge word (R46). -/
abbrev Word32 := BitVec 32

/-- One 64-bit word of a record or register (R5). -/
abbrev Word64 := BitVec 64

end Sys2Proof
end

