-- ==== Sys2Proof/Syntax.lean ====
section
/-! DEFINITION. The commands of the block (spec/opcode_table.json, one constructor a row) and the types of their operands. -/

namespace Sys2Proof

/-- Twin 0 or Twin 1 (00_scope, "Twins, the pair and the Bridge"). -/
inductive TwinId where
  | t0 | t1
  deriving DecidableEq, Repr

/-- A context number (R284). -/
abbrev CtxId := BitVec 8

/-- An ENGINE_ID (R18). -/
abbrev EngineId := BitVec 14

/-- An engine port (R17): 128 cluster ports, 16 matrix-group ports and 6 pool ports. -/
inductive Port where
  | cluster (c : BitVec 7)
  | matrix (g : BitVec 4)
  | dma (q : BitVec 2)
  | gather
  | scatter
  deriving DecidableEq, Repr

/-- The fields of an accept-and-complete word (R97); TYPE is the command itself. -/
structure Report where
  engine : EngineId
  node   : BitVec 20
  gen    : BitVec 8
  maxExp : BitVec 8
  expV   : Bool
  code   : BitVec 8
  cycles : Word32
  deriving DecidableEq, Repr

/-- A bank that fails in a full self-test (R358, R400): its group, its logical place (the number of data banks names the
spare), and the failing rows that each march found, in turn, until one found none or the bank was given up. -/
structure BankFail where
  group : BitVec 8
  bank  : BitVec 8
  rows  : List (BitVec 16)
  deriving DecidableEq, Repr

/-- One lane: rack group, class, LEVEL and lane 0 COMPUTE, 1 MEMORY, 2 BALANCED, 3 proxy (R86, R113). -/
structure LaneId where
  group : BitVec 8
  lc    : Bool
  level : BitVec 3
  lane  : BitVec 2
  deriving DecidableEq, Repr

/-- Who issues a write or a read (R284, R287): a host function, a twin's Archivist, task code whose NoC
writes are tagged with a context, or a system thread whose writes carry no tag (R315). -/
inductive Requester where
  | host (port : BitVec 3) (fn : BitVec 8)
  | archivist (t : TwinId)
  | task (tag : CtxId)
  | untagged
  deriving DecidableEq, Repr

/-- The address of a register: an offset from CTS_BASE (R408), or an offset in the block of a send or receive slot of a tile's
Tube endpoints, which the tile's own address map places (R280). -/
inductive RegAddr where
  | cts (offset : BitVec 26)
  | slot (eng : EngineId) (receive : Bool) (slot : BitVec 3) (offset : BitVec 6)
  deriving DecidableEq, Repr

/-- The part of a register an access covers: 8 B, or the low or high 4 B (R9). -/
inductive Access where
  | full | lo | hi
  deriving DecidableEq, Repr

/-- A page of the register window (R408, R420): pair pages, the 16 pages of a twin by page offset / 0x1000,
and context pages. -/
inductive PageId where
  | blk | pwr | time | fmt
  | twin (t : TwinId) (p : BitVec 4)
  | ctx (k : CtxId)
  deriving DecidableEq, Repr

/-- What is read again when RETRY_GAP has passed (R155, R158). -/
inductive RetryOf where
  | flush (cluster : BitVec 7)
  | drain (t : TwinId)
  deriving DecidableEq, Repr

/-- The two points a system drain reads (R158). -/
inductive DrainPoint where
  | host | link
  deriving DecidableEq, Repr

/-- The NoC access of a batch that fails (R236). -/
inductive RouteAccess where
  | header | score | selection
  deriving DecidableEq, Repr

/-- A unit a teardown scrubs (R305). -/
inductive ScrubUnit where
  | hbm (h : BitVec 5)
  | cluster (c : BitVec 7)
  | matrix (g : BitVec 4)
  deriving DecidableEq, Repr

/-- The AVSBus rails the Proofer writes (R342). -/
inductive Rail where
  | engineA | engineB | matrix | cts | sram
  deriving DecidableEq, Repr

/-- What the correction stage finds in a word read (R349). -/
inductive ReadError where
  | clean | single | double
  deriving DecidableEq, Repr

/-- The islands with a switched supply (R13, R399). -/
inductive Island where
  | twin0 | twin1 | pair
  deriving DecidableEq, Repr

/-- The register pages with an HW_CLR field (R119, R209). -/
inductive HwClrPage where
  | desk | lard
  deriving DecidableEq, Repr

/-- The IEEE 1687 segments Camette adds (R33). -/
inductive Segment where
  | twin (t : TwinId)
  | pairAon
  deriving DecidableEq, Repr

/-- Who may own a segment (R33): the TAP, or the Archivist of the twin. -/
inductive SegmentParty where
  | tap
  | archivist (t : TwinId)
  deriving DecidableEq, Repr

/-- The commands of the block. Each docstring opens with the rule that governs the row. -/
inductive Instr where
  /-- R94. A valid claim word from an engine is sampled at its port by the primary twin, which checks it and then grants it locally, forwards it or holds it. -/
  | claim (port : Port) (word : Word32)
  /-- R100. A held claim is treated as sampled anew when a task is appended to its group, a completion frees depth, or a decline or accept arrives. -/
  | claimResample (eng : EngineId)
  /-- R98. An engine reports ACCEPT for a granted task; the record goes to ACCEPTED and the engine's next claim may be admitted. -/
  | accept (port : Port) (r : Report)
  /-- R99. An engine reports COMPLETE; the task stops counting against the engine and the completion passes to Returns of the home twin for matching and crediting. -/
  | complete (port : Port) (r : Report)
  /-- R160. An engine reports a completion of TYPE FAULT; the record closes, the node goes to FAULTED and the context takes TASK_FAULT. -/
  | fault (port : Port) (r : Report)
  /-- R98. A grant stays unaccepted for ACCEPT_LIMIT x 16 dc, so the engine is taken out of service. -/
  | acceptTimeout (eng : EngineId)
  /-- R88. A lane-cache refill step completes 24 dc after it starts, and the next entry becomes available to grant. -/
  | laneRefill (t : TwinId) (lane : LaneId)
  /-- R103. A forwarded claim arrives at the partner, which grants it from its own racks or declines it. -/
  | fwdClaim (t : TwinId)
  /-- R103. A decline returns a forwarded claim to the primary twin, which treats the claim as newly sampled. -/
  | decline (t : TwinId)
  /-- R104. The partner's GRANT items arrive; the primary twin sets SCRUB, updates D and drives the grant, or returns it. -/
  | grant (t : TwinId)
  /-- R104. A returned grant reaches the partner, which closes the record and re-places the node or leaves it to teardown. -/
  | grantReturn (t : TwinId)
  /-- R104. An ACCEPT of a partner-homed node arrives over the claim channel and is applied to its record. -/
  | acceptItem (t : TwinId)
  /-- R104. The second COMPLETE item of a partner-homed node arrives, and its completion enters Returns at stage 0. -/
  | completeItem (t : TwinId)
  /-- R87. A pool task handed over by its home twin arrives; the pool's primary twin racks a copy in its proxy lane or answers PROXY_REFUSED. -/
  | proxy (t : TwinId)
  /-- R104. The home twin learns that a proxy copy was granted and opens the reserved record, incrementing GEN. -/
  | proxyGrant (t : TwinId)
  /-- R87. The home twin releases the reservation and keeps the node in its own pool group. -/
  | proxyRefused (t : TwinId)
  /-- R87. A copy that left its proxy lane without a grant returns; the home twin releases the reservation and places the node again. -/
  | proxyBack (t : TwinId)
  /-- R101. A rack-head summary entry from the partner arrives, and held claims of the group may be forwarded. -/
  | summaryEntry (t : TwinId) (entry : BitVec 7)
  /-- R157. A cross-twin CREDIT item arrives on the edge channel and is applied at its target's Catalogue. -/
  | credit (t : TwinId)
  /-- R157. A cross-twin credit with the skip attribute arrives and is applied, setting SKIP_PEND. -/
  | skipCredit (t : TwinId)
  /-- R53. Global time crosses a multiple of 1,024 ns, and the Catalogue walks one timing-wheel bucket, readying TIMED nodes whose target is reached. -/
  | wheelWalk (t : TwinId)
  /-- R68. A write to the node area of an accession window creates, fills or seals node records. -/
  | nodeWrite (src : Requester) (ctx : CtxId) (off : BitVec 16) (data : List Byte)
  /-- R73. A write to the edge area stores forward edge words, subject to locks and ranges. -/
  | edgeWrite (src : Requester) (ctx : CtxId) (off : BitVec 16) (data : List Byte)
  /-- R65. A write to the reserved area of a window has no effect and is counted as discarded. -/
  | reservedAreaWrite (src : Requester) (ctx : CtxId) (off : BitVec 16)
  /-- R66. The NODE_BANK command selects the twin and bank for the node area. -/
  | nodeBank (src : Requester) (ctx : CtxId) (whole : Bool) (operand : Word64)
  /-- R66. The EDGE_BANK command selects the twin and bank for the edge area. -/
  | edgeBank (src : Requester) (ctx : CtxId) (whole : Bool) (operand : Word64)
  /-- R80. The REARM command sweeps the fixed region of the context in both twins and rearms DONE, SKIPPED and WAITING nodes. -/
  | rearm (src : Requester) (ctx : CtxId) (whole : Bool)
  /-- R78. The MIRROR_CLOSE command starts the close in the NODE_BANK twin and sends a close marker. -/
  | mirrorClose (src : Requester) (ctx : CtxId) (whole : Bool)
  /-- R78. Once its pending mirror work has ended, a twin writes word 2 of and seals every pending mirror node of the context. -/
  | mirrorCloseEffect (t : TwinId) (ctx : CtxId)
  /-- R81. The RELEASE command sweeps every node of the context to FREE and clears its locks and allocation pointers. -/
  | release (src : Requester) (ctx : CtxId) (whole : Bool)
  /-- R82. The MARK command writes its operand to ACC_STAT.MARK once every earlier effect has landed in both twins. -/
  | mark (src : Requester) (ctx : CtxId) (whole : Bool) (operand : Word64)
  /-- R72. A parked window write takes effect in its turn once its cause has cleared. -/
  | parkedWrite (ctx : CtxId)
  /-- R80. A REARM or RELEASE sweep ends in a twin, unparking writes and, for REARM, raising REARM_BUSY where needed. -/
  | sweepEnd (t : TwinId) (ctx : CtxId)
  /-- R76. A mirror request arrives at G(F)'s twin, which writes G(F)'s word 0, reserves its list and sends an acknowledgement. -/
  | mirrorRequest (t : TwinId)
  /-- R75. A mirror-edge append arrives and is written to G(S)'s list, kept, or faulted. -/
  | mirrorAppend (t : TwinId)
  /-- R76. The acknowledgement of a mirror request arrives, and F may be evaluated. -/
  | mirrorAck (t : TwinId)
  /-- R78. The close marker from the partner arrives and lets MIRROR_CLOSE take effect in the receiving twin. -/
  | closeMarker (t : TwinId)
  /-- R76. A read of a target's record arrives in the partner, which answers with MIRROR_EN and MIRROR_NODE. -/
  | targetRead (t : TwinId)
  /-- R76. The answer to a target read arrives, and after the last one the mirror steps proceed. -/
  | targetAnswer (t : TwinId)
  /-- R135. A partner's move request arrives at a shard's owner, which starts the move or answers with LOC. -/
  | moveReq (t : TwinId)
  /-- R135. A shard location update arrives; the partner updates its mirror, answers LOC_ACK for 0xA0, or releases its waiting nodes. -/
  | loc (t : TwinId)
  /-- R136. The partner's acknowledgement of a MOVING location arrives at the owner. -/
  | locAck (t : TwinId)
  /-- R134. The owner adds 1 to WRITERS of a shard. -/
  | writerInc (t : TwinId)
  /-- R136. The owner subtracts 1 from WRITERS, crediting the COPY node of a move in progress. -/
  | writerDec (t : TwinId)
  /-- R143. The partner learns that a rack group has lost or regained its last engine in service, and sweeps or restores it as a candidate. -/
  | service (t : TwinId)
  /-- R136. The NoC acknowledges a copy descriptor; once LOC_ACK has also arrived, the COPY node is sealed with count WRITERS. -/
  | descWriteAck (shard : BitVec 18)
  /-- R141. The NoC answers a descriptor write with an error; the shard goes to FAULTED and the context takes MOVE_FAILED. -/
  | descWriteError (shard : BitVec 18)
  /-- R128. The SHARD_CMD ALLOC command allocates a shard entry after its checks. -/
  | shardAlloc (src : Requester) (ctx : CtxId) (cluster : BitVec 7) (toCluster pin : Bool)
  /-- R128. The SHARD_CMD FREE command frees a shard with WRITERS = 0. -/
  | shardFree (src : Requester) (ctx : CtxId)
  /-- R128. The SHARD_CMD MOVE command starts a move of a shard to a cluster or to HBM. -/
  | shardMove (src : Requester) (ctx : CtxId) (cluster : BitVec 7) (toCluster : Bool)
  /-- R128. The SHARD_CMD QUERY command copies a shard entry into SHARD_DATA0 to SHARD_DATA2. -/
  | shardQuery (src : Requester) (ctx : CtxId)
  /-- R143. SHLF.ENGINE_CTL REMOVE takes an engine or a port out of service, returning its tasks and sweeping its group where needed. -/
  | engineRemove (src : Requester) (t : TwinId) (wholePort : Bool) (eng : EngineId)
  /-- R143. SHLF.ENGINE_CTL RESTORE puts an engine back in service, and its next grant carries SCRUB. -/
  | engineRestore (src : Requester) (t : TwinId) (wholePort : Bool) (eng : EngineId)
  /-- R157. A flush request from the home twin arrives and is met as a flush need under R156. -/
  | flushReq (t : TwinId)
  /-- R157. The flush-done report arrives, and the deferred credits waiting on it resume. -/
  | flushDone (t : TwinId)
  /-- R155. The flush ack read is answered; a matching TAG ends the flush and clears DIRTY, any other answer schedules a retry. -/
  | flushAckRead (cluster : BitVec 7) (answer : Option Word64)
  /-- R155. RETRY_GAP expires and the flush ack read or drain read is issued again. -/
  | flushRetry (what : RetryOf)
  /-- R159. A flush exceeds LIMIT x 64 dc; the port's engines leave service and the waiting completions are discarded with FLUSH_LOST. -/
  | flushTimeout (cluster : BitVec 7)
  /-- R158. A system-drain read is answered, and the drain ends when both reads have been answered. -/
  | drainReadAnswer (t : TwinId) (point : DrainPoint) (ok : Bool)
  /-- R159. A drain exceeds the limit; its waiting completions are discarded with FLUSH_LOST. -/
  | drainTimeout (t : TwinId)
  /-- R186. A stash offer arrives at the context's home Larder, which decides to keep, spill, re-bake or exhaust. -/
  | offer (t : TwinId)
  /-- R185. The Larder's SEND or WITHHOLD answer arrives at Returns, which sends the stash credit and any consumer credits. -/
  | answer (t : TwinId)
  /-- R188. A Larder read of G(F)'s AFFINITY, counter or mirror-list targets arrives at G(F)'s Catalogue. -/
  | gRead (t : TwinId)
  /-- R188. G(F)'s data returns to the Larder, which completes the decision. -/
  | gData (t : TwinId)
  /-- R196. The STASH, SPILLED and REBAKE_PEND fields are written to G(F). -/
  | gMark (t : TwinId)
  /-- R194. A TRIGGER reaches the Larder; a DORMANT entry becomes TRIGGERED, credits R(F) and passes TRIGGER to its inputs. -/
  | trigger (t : TwinId)
  /-- R197. A stash release reaches the Larder, which subtracts the charge and clears G(F)'s fields. -/
  | releaseItem (t : TwinId)
  /-- R202. The Recipe sweep of a context ends, and the STEP_MARK completion enters Returns. -/
  | recipeSweepEnd
  /-- R219. The route header arrives, is checked, and the score reads begin once the flush has ended. -/
  | headerReadDone (t : TwinId) (slot : BitVec 6) (header : List Word64)
  /-- R220. Scores arrive; after the last one the selection is settled and the selection area is written. -/
  | scoreReadDone (t : TwinId) (slot : BitVec 6) (line : Nat) (scores : List (BitVec 16))
  /-- R221. Selection-area writes are acknowledged; after the last one the batch's conditions are resolved. -/
  | selectionWriteAck (t : TwinId) (slot : BitVec 6)
  /-- R218. A batch-slot state change arrives and updates the partner's batch mirror. -/
  | batch (t : TwinId)
  /-- R228. A write of SORT_CTL.CANCEL bumps the epoch and sends EPOCH_BUMP. -/
  | sortCancel (src : Requester) (ctx : CtxId)
  /-- R228. The epoch bump arrives in the partner and cancels the context's open slots there. -/
  | epochBump (t : TwinId)
  /-- R228. 16 dc after the cancel write, both twins cancel the context's open slots. -/
  | cancelPoint (ctx : CtxId)
  /-- R236. A header read, score read or selection write returns an error; the slot is freed and the context takes ROUTE_IO. -/
  | routeIo (t : TwinId) (slot : BitVec 6) (which : RouteAccess)
  /-- R239. A tally packet reaches the arrival port and is buffered to be applied at a tally tick, or is dropped. -/
  | tallyPacket (packet : BitVec 128)
  /-- R241. At a tally tick the Tally Bank applies commands and increments and evaluates entries, and the always-on island does its per-tick work. -/
  | tallyTick
  /-- R247. The TALLY_CMD ALLOC command allocates a tally entry. -/
  | tallyAlloc (src : Requester) (ctx : CtxId)
  /-- R247. The TALLY_CMD FREE command frees a tally entry and unlocks its watch slots. -/
  | tallyFree (src : Requester) (ctx : CtxId)
  /-- R248. The TALLY_CMD ARM command checks and locks a watch list and arms the entry. -/
  | tallyArm (src : Requester) (ctx : CtxId)
  /-- R247. The TALLY_CMD DISARM command returns an entry to IDLE. -/
  | tallyDisarm (src : Requester) (ctx : CtxId)
  /-- R247. The TALLY_CMD RESUME command takes a WRAPPED entry back to ARMED. -/
  | tallyResume (src : Requester) (ctx : CtxId)
  /-- R247. The TALLY_CMD RESET command lowers COUNT by AMOUNT and re-arms a WRAPPED or SPENT entry. -/
  | tallyReset (src : Requester) (ctx : CtxId)
  /-- R247. The TALLY_CMD ADD command adds AMOUNT as one increment. -/
  | tallyAdd (src : Requester) (ctx : CtxId)
  /-- R247. The TALLY_CMD QUERY command copies an entry into TALLY_DATA0 to TALLY_DATA2. -/
  | tallyQuery (src : Requester) (ctx : CtxId)
  /-- R262. The Tube OPEN command checks the entry and programs the receive and then the send endpoint. -/
  | tubeOpen (src : Requester) (ctx : CtxId)
  /-- R262. The Tube CLOSE command stops sends, waits for every beat to land, disables the receiver and frees the slots. -/
  | tubeClose (src : Requester) (ctx : CtxId)
  /-- R278. The Tube QUERY command reads the endpoints into TUBE_DATA0 to TUBE_DATA4. -/
  | tubeQuery (src : Requester) (ctx : CtxId)
  /-- R262. An endpoint configuration write is acknowledged and the OPEN or CLOSE sequence continues. -/
  | epWriteAck (tube : BitVec 16)
  /-- R262. An endpoint read made during CLOSE or QUERY returns its pointers. -/
  | epReadAnswer (tube : BitVec 16)
  /-- R262. A NoC access of a Tube sequence returns an error; the Tube is treated as closed and the context faults. -/
  | tubeIo (tube : BitVec 16)
  /-- R264. Task code writes TX_SEND; the send endpoint checks credits and places the message, with a pad if needed, or refuses it. -/
  | txSend (tag : CtxId) (eng : EngineId) (slot : BitVec 3) (len : BitVec 4) (srcOff : BitVec 18) (beats : List Word64)
  /-- R266. A message beat lands in the receiving ring and advances RX_ARR. -/
  | beatArrival (eng : EngineId) (slot : BitVec 3)
  /-- R268. A read of RX_MBOX takes the next available message and frees the previous one, or sets UNDERRUN. -/
  | rxMbox (tag : CtxId) (eng : EngineId) (slot : BitVec 3)
  /-- R268. RX_CMD DONE frees the current message. -/
  | rxDone (tag : CtxId) (eng : EngineId) (slot : BitVec 3)
  /-- R268. RX_CMD DROP frees the landed beats of the current message and discards the rest as they arrive. -/
  | rxDrop (tag : CtxId) (eng : EngineId) (slot : BitVec 3)
  /-- R265. A credit return reaches the send endpoint and raises TX_CREDITS. -/
  | creditReturn (eng : EngineId) (slot : BitVec 3)
  /-- R278. The Bowl OPEN command allocates a Mixing Bowl and reserves its pending entries. -/
  | bowlOpen (src : Requester) (ctx : CtxId)
  /-- R276. The Bowl CLOSE command frees a Bowl and drops its pending contributions. -/
  | bowlClose (src : Requester) (ctx : CtxId)
  /-- R278. The Bowl QUERY command copies a Bowl entry into BOWL_DATA0 to BOWL_DATA3. -/
  | bowlQuery (src : Requester) (ctx : CtxId)
  /-- R276. The Bowl RESET command abandons the running round. -/
  | bowlReset (src : Requester) (ctx : CtxId)
  /-- R272. A put announces a block; a flush is raised for a tile putter and the header read follows. -/
  | bowlPut (src : Requester) (t : TwinId) (put : Word64)
  /-- R273. A block header arrives and is processed as a START, a commit, a held contribution, a drop or a fault. -/
  | blockHeaderRead (bowl : BitVec 10) (header : List Word64)
  /-- R274. The selection area's header and count lines arrive, and the expected lanes of a SELECTED round are fixed. -/
  | selectionRead (bowl : BitVec 10) (header : List Word64) (counts : List (BitVec 16))
  /-- R274. The Bowl's last result write is acknowledged; the round ends and DONE_NODE is credited. -/
  | resultWriteAck (bowl : BitVec 10)
  /-- R283. A Bowl NoC read or write returns an error, and the context takes BOWL_IO. -/
  | bowlIo (bowl : BitVec 10)
  /-- R290. BLK.CTX_CMD OPEN checks and opens a context. -/
  | ctxOpen (src : Requester) (home : TwinId)
  /-- R290. 320 dc after an accepted OPEN, the context's state is cleared and set to OPEN. -/
  | openEffect (ctx : CtxId)
  /-- R289. BLK.CTX_CMD CLOSE fences an OPEN context for teardown, or takes a DOWN context to CLOSED. -/
  | ctxClose (src : Requester)
  /-- R307. BLK.CTX_CMD FAULT raises the FORCED fault on an OPEN context. -/
  | ctxFault (src : Requester)
  /-- R291. The owner writes CTX_CTL.CLOSE, with the effect of a BLK CLOSE. -/
  | ctxCtlClose (src : Requester) (ctx : CtxId)
  /-- R303. A FENCE item from the partner arrives, and the context is fenced 8 dc later. -/
  | fenceItem (t : TwinId)
  /-- R303. 8 dc after a fault, or after the FENCE item, the context is fenced in that twin. -/
  | fenceEffect (t : TwinId) (ctx : CtxId)
  /-- R305. The home Archivist takes up a fault-queue entry, sends TEAR and sweeps its own twin. -/
  | teardownStart (t : TwinId)
  /-- R305. TEAR arrives in the partner, which sweeps the context and reports SWEPT. -/
  | tear (t : TwinId)
  /-- R305. The partner's SWEPT report arrives and the engine-wait step begins. -/
  | swept (t : TwinId)
  /-- R305. No task of the context is counted any longer in either twin, and the scrubs are started. -/
  | engineWaitEnd (t : TwinId)
  /-- R305. TEARDOWN_LIMIT.WAIT expires and the engines still counting tasks are taken out of service. -/
  | engineWaitLimit (t : TwinId)
  /-- R305. A scrub word is polled at its period; when all read 0 the teardown is reported. -/
  | scrubPoll (t : TwinId) (what : ScrubUnit) (answer : Option Word64)
  /-- R305. The scrub limit expires; SCRUB_FAIL is set and the step ends. -/
  | scrubLimit (t : TwinId)
  /-- R295. At a Bake tick boundary shadows are applied, LEFT values are loaded, holding racks are released and a slot walk starts. -/
  | bakeTick
  /-- R297. A BAKE.SLOT_DATA write sets a slot, or is ignored with SLOT_BAD. -/
  | bakeSlotWrite (src : Requester) (t : TwinId) (acc : Access) (value : Word64)
  /-- R299. The notifier serves a NOTIFY request once ring room exists, writing the record and signalling MSI-X. -/
  | notifyRequest (ctx : CtxId)
  /-- R302. Clearing MASK sends the pending message. -/
  | msixUnmask (src : Requester) (ctx : CtxId) (vec : BitVec 4) (acc : Access) (value : Word64)
  /-- R301. The host writes NOTIFY_TAIL, which is checked and frees ring room. -/
  | notifyTailWrite (src : Requester) (ctx : CtxId) (acc : Access) (value : Word64)
  /-- R285. A host access by a function that may not reach the target completes with zero or no effect and is counted. -/
  | hostAccessDenied (port : BitVec 3) (fn : BitVec 8) (addr : BitVec 26) (isRead : Bool)
  /-- R313. A management core asks for a thread on the thread port. -/
  | ask (core : BitVec 3)
  /-- R312. A core reports YIELD; the thread goes to READY at the tail of its level. -/
  | reportYield (core : BitVec 3) (thread : BitVec 12) (asks : Bool)
  /-- R312. A core reports WAIT; the thread goes to WAITING, or to READY when WAKE_PEND is set. -/
  | reportWait (core : BitVec 3) (thread : BitVec 12) (asks : Bool) (arg : Word32)
  /-- R312. A core reports DELAY; the thread goes to DELAYED until DUE. -/
  | reportDelay (core : BitVec 3) (thread : BitVec 12) (asks : Bool) (arg : Word32)
  /-- R312. A core reports PREEMPTED; the thread goes to READY at the head or tail of its level. -/
  | reportPreempted (core : BitVec 3) (thread : BitVec 12) (asks : Bool)
  /-- R312. A core reports EXIT; the thread goes to WAITING with SAVED 0. -/
  | reportExit (core : BitVec 3) (thread : BitVec 12) (asks : Bool)
  /-- R312. A core reports FAULT; the thread goes to FAULTED. -/
  | reportFault (core : BitVec 3) (thread : BitVec 12) (asks : Bool)
  /-- R322. A running thread's WAKE word wakes another thread, or is refused. -/
  | wake (core : BitVec 3) (thread : BitVec 12)
  /-- R322. A wake from the partner arrives on the edge channel and is applied. -/
  | wakeItem (t : TwinId)
  /-- R318. The arbiter's ASK reaches a Thread Desk, which reserves and offers a thread or answers NONE. -/
  | deskAsk (t : TwinId)
  /-- R318. A Desk's offer, asked or unasked, reaches the arbiter, which decides and drives the grant. -/
  | threadOffer (t : TwinId)
  /-- R318. A Desk answers NONE, and the ask is held when both Desks answer so. -/
  | noneAnswer (t : TwinId)
  /-- R318. TAKE reaches the winning Desk; the thread goes to RUNNING with its slice. -/
  | takeThread (t : TwinId)
  /-- R318. RELEASE reaches the losing Desk, which frees its reserved thread. -/
  | threadRelease (t : TwinId)
  /-- R318. The 8 dc wait for the other Desk's offer expires, and the arbiter decides among the offers received. -/
  | offerWindow (core : BitVec 3)
  /-- R317. A Desk's READY summary arrives at the arbiter, which may pre-empt a core. -/
  | threadSummary (t : TwinId)
  /-- R320. No REPORT PREEMPTED arrives within PREEMPT_LIMIT; the core leaves service and the thread faults. -/
  | preemptLimit (core : BitVec 3)
  /-- R323. At a 50 µs delay tick, slices are decremented and due threads move to READY. -/
  | delayTick
  /-- R330. The THRD.CMD CREATE command creates a thread. -/
  | threadCreate (src : Requester) (t : TwinId) (start : Bool)
  /-- R327. The THRD.CMD DESTROY command frees a thread, pre-empting it first when it runs. -/
  | threadDestroy (src : Requester) (t : TwinId)
  /-- R330. The THRD.CMD SET command replaces LEVEL, AFFINITY and SLICE. -/
  | threadSet (src : Requester) (t : TwinId)
  /-- R322. The THRD.CMD WAKE command wakes a thread. -/
  | threadCmdWake (src : Requester) (t : TwinId)
  /-- R330. The THRD.CMD QUERY command copies a thread entry into DATA0 to DATA2. -/
  | threadQuery (src : Requester) (t : TwinId)
  /-- R331. THRD.CORE_CTL REMOVE takes a core out of service, pre-empting its thread first. -/
  | coreRemove (src : Requester) (t : TwinId) (core : BitVec 3)
  /-- R331. THRD.CORE_CTL RESTORE puts a core back in service. -/
  | coreRestore (src : Requester) (t : TwinId) (core : BitVec 3)
  /-- R335. A domain has been idle for IDLE_US; the Proofer sets it to STOPPING and sends HOLD. -/
  | idleExpiry (dom : BitVec 8)
  /-- R336. HOLD reaches the driving twin, which holds the port's claims, repeats the idle tests and answers. -/
  | hold (dom : BitVec 8)
  /-- R336. The driving twin's ABORT returns the domain to RUN. -/
  | abort (dom : BitVec 8)
  /-- R336. The port's claims have been withdrawn, and the stop proceeds. -/
  | withdrawn (dom : BitVec 8)
  /-- R336. The cluster interface asserts OB_EMPTY; the clock is stopped, the domain is STOPPED and DIRTY is cleared. -/
  | obEmpty (dom : BitVec 8)
  /-- R336. OB_EMPTY does not come within 1,000 tally ticks; the port's engines leave service and the domain returns to RUN. -/
  | stopTimeout (dom : BitVec 8)
  /-- R337. A domain has been STOPPED for GATE_US and meets the conditions, so it is GATED. -/
  | gateExpiry (dom : BitVec 8)
  /-- R338. A cluster interface raises ACCESS_WAKE for a stopped cluster. -/
  | accessWake (cluster : BitVec 7)
  /-- R338. A starting domain's clock reports CLK_OK, and the domain is RUN from the next tally tick, releasing the hold. -/
  | clkOk (dom : BitVec 8)
  /-- R334. A newly powered bank reports power good, and the held claims of the port are released. -/
  | bankPowerGood (cluster : BitVec 7) (bank : BitVec 4)
  /-- R338. A write of CLU_CTL.POLICY changes a domain's policy, and ALWAYS_ON starts the domain. -/
  | cluCtlWrite (src : Requester) (acc : Access) (value : Word64)
  /-- R344. A domain reports a clock stretch on its sideband line, and STRETCHED is set. -/
  | clockStretch (dom : BitVec 8)
  /-- R339. Each millisecond the cap loop reads P and may change the voltage-frequency step. -/
  | capPeriod
  /-- R341. A PMBus reading completes and gives P. -/
  | pmbusReading (w1 w2 : BitVec 16)
  /-- R341. A reading is NACKed, fails PEC or times out; after three lost periods in a row the step goes to SAFE_STEP. -/
  | pmbusReadingLost
  /-- R341. PMB_ALERT_N is asserted; STATUS_WORD is read, the step may fall by 2 and CLEAR_FAULTS is sent. -/
  | pmbAlert (statusWord : BitVec 16)
  /-- R340. A rail acknowledges an AVSBus Voltage command. -/
  | avsAck (rail : Rail)
  /-- R340. A Voltage command goes unacknowledged twice; AVS_FAIL is set and an upward change is abandoned. -/
  | avsFail (rail : Rail)
  /-- R340. SETTLE_US passes after the rail acknowledgements, and the frequencies are switched up. -/
  | settleExpiry
  /-- R340. The domain clocks have switched to a lower frequency, and the Voltage command is sent. -/
  | clockSwitched
  /-- R345. BLOCK_CTL.GATE stops every domain and gates the twin and pair islands, or is refused. -/
  | blockGate (src : Requester)
  /-- R343. TIME.LOAD replaces global time at the next tally tick, or is refused. -/
  | timeLoad (src : Requester) (value : Word64)
  /-- R343. A write of TIME.SLEW replaces the slew remainder. -/
  | timeSlew (src : Requester) (value : Word32)
  /-- R350. The patrol reads an SRAM word through the maintenance port and writes corrected words back. -/
  | patrolRead (t : TwinId) (group : BitVec 8) (bank : BitVec 8) (word : BitVec 16) (err : ReadError)
  /-- R357. A bank copy into the spare ends, and the spare is swapped into the bank's logical place. -/
  | bankCopyEnd (t : TwinId)
  /-- R358. A march test of an offline bank ends with TRANSIENT, REPAIRED or RETIRED. -/
  | marchTestEnd (t : TwinId) (failingRows : Nat)
  /-- R355. A write of ERR_INJECT arms an injection for the next read of a group. -/
  | errInjectWrite (src : Requester) (page : PageId) (acc : Access) (value : Word64)
  /-- R361. A heartbeat from the partner arrives. -/
  | heartbeat (t : TwinId)
  /-- R361. 4,096 dc pass without a heartbeat, and the twin asks for the takeover latch. -/
  | heartbeatTimeout (t : TwinId)
  /-- R360. The Archivist watchdog expires, and the twin becomes fatal. -/
  | watchdog (t : TwinId)
  /-- R373. A write of REL.WDOG_KICK restarts the watchdog. -/
  | wdogKick (src : Requester) (t : TwinId) (value : Word64)
  /-- R361. The partner's FATAL notice arrives, and the twin asks for the takeover latch. -/
  | fatal (t : TwinId)
  /-- R361. The takeover latch answers; the winner takes over and a loser becomes fatal. -/
  | latchAnswer
  /-- R362. The takeover sweep of circulation records ends, and the archive dump may start. -/
  | recordSweepEnd (t : TwinId)
  /-- R370. The archive dump ends and its header is written. -/
  | dumpEnd (t : TwinId) (sections : BitVec 9) (poison : List (BitVec 8 × BitVec 32))
  /-- R365. BLK.PAIR_CTL DETACH begins withdrawing a twin from service, or is refused. -/
  | detach (src : Requester) (t : TwinId)
  /-- R366. A detaching twin has no task counted, no forwarded claim and no flush outstanding, and sends HANDOVER. -/
  | detachDrained (t : TwinId)
  /-- R366. HANDOVER arrives; ports, the DIRTY mask and held claims pass to the receiving twin. -/
  | handover (t : TwinId)
  /-- R366. A twin's full self-test ends; the twin is zeroed and goes to DETACHED, or to FATAL on failure. -/
  | fullSelfTestEnd (t : TwinId) (fails : List BankFail) (logicOk : Bool)
  /-- R367. BLK.PAIR_CTL REJOIN returns a DETACHED twin to service, or is refused. -/
  | rejoin (src : Requester) (t : TwinId)
  /-- R367. RESYNC is exchanged and every Bridge channel restarts empty. -/
  | resync (t : TwinId)
  /-- R360. BLK.PAIR_CTL FAIL makes a twin fatal with cause FORCED. -/
  | fail (src : Requester) (t : TwinId)
  /-- R368. BLK.PAIR_CTL RECOVER resets a fatal twin and runs its full self-test. -/
  | recover (src : Requester) (t : TwinId)
  /-- R381. A write of FREEZE_CTL.FREEZE raises a freeze and sends FREEZE carrying tick k. -/
  | freeze (src : Requester)
  /-- R392. FREEZE_CTL.HALT asks for a halt of a twin with the freeze, or is refused. -/
  | freezeHalt (src : Requester) (twins : BitVec 2)
  /-- R381. The FREEZE item arrives in the partner. -/
  | freezeItem (t : TwinId)
  /-- R382. Both twins take the frozen counter view, and any halt, at tick k + 2. -/
  | freezeApply
  /-- R383. A write of FREEZE_CTL.THAW asks to end the view and any halt. -/
  | thaw (src : Requester)
  /-- R383. The view and any halt end at the next tally tick. -/
  | thawApply
  /-- R393. HALT_LIMIT passes and the halted twin resumes. -/
  | haltLimit (t : TwinId)
  /-- R379. The OPT_CMD START command starts optional counters from zero. -/
  | optStart (src : Requester) (t : TwinId) (first last : BitVec 12)
  /-- R379. The OPT_CMD STOP command halts optional counters. -/
  | optStop (src : Requester) (t : TwinId) (first last : BitVec 12)
  /-- R385. A Day Book ring write is acknowledged and WR advances. -/
  | ringWriteAck (t : TwinId)
  /-- R389. A ring write returns an error; RING_IO is set and EN cleared. -/
  | ringIo (t : TwinId)
  /-- R385. The host writes DAYB.RD, which is accepted only between RD and WR. -/
  | daybRdWrite (src : Requester) (t : TwinId) (acc : Access) (value : Word64)
  /-- R390. WFG_CTL.GO starts assembly of the wait-for graph. -/
  | wfgGo (src : Requester) (t : TwinId) (all : Bool) (ctx : CtxId)
  /-- R390. Wait-for graph assembly ends and WFG_STAT is set. -/
  | wfgEnd (t : TwinId)
  /-- R391. A write of INV.SEL starts a read of one object through the maintenance port. -/
  | invSel (src : Requester) (t : TwinId) (acc : Access) (value : Word64)
  /-- R391. The object's words have landed and BUSY clears. -/
  | invReadDone (t : TwinId)
  /-- R119. A write of HW_CLR sets a high-water mark to the current in-use count. -/
  | hwClr (src : Requester) (t : TwinId) (page : HwClrPage)
  /-- R395. VDD_AON reaches power good and bring-up starts from step 1, clearing global time. -/
  | coldReset
  /-- R395. CTS_RST_N resets the block, keeping global time. -/
  | pinReset
  /-- R396. An accepted BLK.RESET_CTL write resets the block. -/
  | softReset (src : Requester) (value : Word64)
  /-- R406. HOST_WAKE while the block is gated starts a WAKE from step 2. -/
  | hostWake
  /-- R399. The desk clock reports locked after step 1, and the island switches close. -/
  | deskClockLocked
  /-- R399. An island reaches power good and its reset is released. -/
  | islandPowerGood (island : Island)
  /-- R399. Fuse-shadow loading and SRAM zeroing end. -/
  | zeroEnd
  /-- R398. Every 10 µs the ROM reads boot-area word 7 until READY is 1. -/
  | bootPoll (t : TwinId) (answer : Option Word64)
  /-- R398. The image copy ends; the CRC is checked and the Archivist starts, or bring-up fails. -/
  | imageLoadEnd (t : TwinId) (header : List Word64) (image : List Byte) (ioError : Bool)
  /-- R401. The join pattern check ends and the twins go to IN_SERVICE or FATAL. -/
  | patternCheckEnd (ok0 ok1 : Bool)
  /-- R403. Engine management asserts PORT_READY and the port's engines enter service. -/
  | portReady (port : Port)
  /-- R402. Every 2,000 tally ticks the Proofer starts the next 16 domains at bring-up. -/
  | domainGroupStart
  /-- R402. Firmware sets BLK.MANAGER, and PHASE becomes READY. -/
  | managerSet (port : BitVec 3) (fn : BitVec 8)
  /-- R404. BOOT_CTL.RUN declares service after its checks. -/
  | bootRun (src : Requester) (value : Word64)
  /-- R407. Firmware burns a spare-row replacement into the fuses. -/
  | fuseBurn (t : TwinId) (group : BitVec 8) (bank : BitVec 8) (ok : Bool)
  /-- R411. A write of PAGE_CTRL.ENABLE enables a page's unit, and clearing it is ignored in service except on PWR. -/
  | pageEnable (src : Requester) (page : PageId) (value : Bool)
  /-- R416. PAGE_CTRL.COMMIT applies the page's pending shadows. -/
  | commit (src : Requester) (page : PageId)
  /-- R416. 17 dc after a context-page COMMIT, both twins apply its shadows. -/
  | shadowApply (ctx : CtxId)
  /-- R415. SHADOW_CTRL.DISCARD drops the page's pending shadows. -/
  | discard (src : Requester) (page : PageId)
  /-- R7. A write to a register with no row of its own applies under its access code and lock rules. -/
  | registerWrite (src : Requester) (addr : RegAddr) (size : Nat) (value : BitVec 512)
  /-- R33. The TAP or a twin's Archivist opens an IEEE 1687 segment, which is granted to the first opener or refused when owned or out of its window. -/
  | segmentOpen (who : SegmentParty) (seg : Segment)
  /-- R33. The owner closes a segment, releasing it and letting a bring-up step 4 that waits on a TAP-held segment proceed. -/
  | segmentClose (who : SegmentParty) (seg : Segment)
  /-- R280. The send endpoint finishes copying a message's source beats, and TX_STAT.BUSY returns to 0 so the next send is no longer refused with BUSY. -/
  | sourceCopyEnd (eng : EngineId) (slot : BitVec 3)
  /-- R275. A Bowl's NoC read of contribution block data or of result lines returns, and the elements are added and the result lines written back. -/
  | blockDataRead (bowl : BitVec 10) (block : List Word32) (result : List Word32)
  /-- R9. A host read of a register page at an unsupported size or alignment is answered with an unsupported-request completion, or a CAT.PEEK_DATA read of an out-of-range selection sets PEEK_RANGE. -/
  | registerRead (src : Requester) (addr : RegAddr) (size : Nat)
  deriving DecidableEq, Repr

end Sys2Proof
end

