-- ==== Sys2Proof/Decode.lean ====
section
/-! DEFINITION. Commands as words: the opcode table gives no row any bits, so no word of the table spells a command. The words
of the accept-and-complete bus and of the ask bus, which the spec lays out, are taken apart here. -/

namespace Sys2Proof

/-- The command that a word spells by the table's bits: none, since the table gives its rows no bits. -/
def decodeTableWord (_nbits _w : Nat) : Option Instr := none

/-- The fields of a word on the accept-and-complete bus (R97). -/
def reportFields (w : BitVec 128) : Report :=
  { engine := w.extractLsb' 112 14, node := w.extractLsb' 92 20, gen := w.extractLsb' 84 8, maxExp := w.extractLsb' 76 8,
    expV := w.getLsbD 75, code := w.extractLsb' 67 8, cycles := w.extractLsb' 35 32 }

/-- The command that a word on the accept-and-complete bus of a port is: none on an idle bus (R97). -/
def reportCommand (port : Port) (w : BitVec 128) : Option Instr :=
  match (w.extractLsb' 126 2).toNat with
  | 1 => some (.accept port (reportFields w))
  | 2 => some (.complete port (reportFields w))
  | 3 => some (.fault port (reportFields w))
  | _ => none

/-- The command that a word on the ask bus of the thread port is (R313): none for an idle bus or a TYPE that is ignored; an
OUTCOME of 6 or 7 is taken as FAULT. -/
def askCommand (w : BitVec 64) : Option Instr :=
  let core := w.extractLsb' 57 3
  let asks := w.getLsbD 56
  let thread := w.extractLsb' 44 12
  match (w.extractLsb' 60 4).toNat with
  | 1 => some (.ask core)
  | 2 => some (match (w.extractLsb' 41 3).toNat with
    | 0 => .reportYield core thread asks
    | 1 => .reportWait core thread asks (w.extractLsb' 0 32)
    | 2 => .reportDelay core thread asks (w.extractLsb' 0 32)
    | 3 => .reportPreempted core thread asks
    | 4 => .reportExit core thread asks
    | _ => .reportFault core thread asks)
  | 3 => some (.wake core thread)
  | _ => none

end Sys2Proof
end

