-- ==== Sys2Proof/Machine/Bits.lean ====
section
/-! DEFINITION. Bit-field helpers (R5: bit 0 is the least significant bit) and the numbers of twins, ports and engines. -/

namespace Sys2Proof.Machine

/-- Bits [hi:lo] of a number. -/
def fld (w hi lo : Nat) : Nat := (w >>> lo) % 2 ^ (hi + 1 - lo)

/-- Bit n of a number. -/
def bitOf (w n : Nat) : Bool := w.testBit n

/-- A Boolean as a bit. -/
def b2n (b : Bool) : Nat := if b then 1 else 0

/-- The number with bits [hi:lo] replaced. -/
def setFld (w hi lo v : Nat) : Nat :=
  w - (fld w hi lo) * 2 ^ lo + (v % 2 ^ (hi + 1 - lo)) * 2 ^ lo

/-- Addition that saturates at a limit. -/
def satAdd (limit a b : Nat) : Nat := if a + b > limit then limit else a + b

/-- One bit of CRC-32C, least significant bit first. -/
def crcBit (c : Nat) : Nat := if c % 2 = 1 then (c >>> 1) ^^^ 0x82F63B78 else c >>> 1

/-- CRC-32C of bytes (R397). PRESUMED (log entry 95): the Castagnoli polynomial, bits reflected, from and to all ones. -/
def crc32c (bytes : List Byte) : Nat :=
  bytes.foldl (fun c b => Nat.repeat crcBit 8 (c ^^^ b.toNat)) 0xFFFFFFFF ^^^ 0xFFFFFFFF

/-- The largest value of an always-on counter (R377). -/
def ctrMax : Nat := 2 ^ 48 - 1

/-- The other twin (00_scope: the partner). -/
def partner : TwinId → TwinId
  | .t0 => .t1
  | .t1 => .t0

/-- The twin's number. -/
def twinNum : TwinId → Nat
  | .t0 => 0
  | .t1 => 1

/-- The twin a bit names. -/
def twinOf (n : Nat) : TwinId := if n % 2 = 0 then .t0 else .t1

/-- The home twin of a NODE_ID: bit 19 (R2, R34). -/
def homeOf (node : Nat) : TwinId := twinOf (node >>> 19)

/-- The slot of a NODE_ID (R34). -/
def slotOf (node : Nat) : Nat := node % 524288

/-- The NODE_ID of a slot of a twin (R34). -/
def nodeIdOf (t : TwinId) (slot : Nat) : Nat := twinNum t * 524288 + slot % 524288

/-- The kinds of engine (R18). -/
inductive EngKind where
  | tile | matrix | gather | scatter | dma | core
  deriving DecidableEq, Repr

/-- The kind of engine an ENGINE_ID names; none where R18 does not list it. -/
def engKind (e : Nat) : Option EngKind :=
  if e ≤ 0x1FFF then some .tile
  else if e ≤ 0x207F then some .matrix
  else if 0x2100 ≤ e ∧ e ≤ 0x213F then some .gather
  else if 0x2200 ≤ e ∧ e ≤ 0x223F then some .scatter
  else if 0x2400 ≤ e ∧ e ≤ 0x24FF then some .dma
  else if 0x3F00 ≤ e ∧ e ≤ 0x3F07 then some .core
  else none

/-- The rack group an engine claims from (R86, R131): a pool engine by its half or quadrant. -/
def groupOf (e : Nat) : Option Nat :=
  match engKind e with
  | some .tile => some (e / 64)
  | some .matrix => some (128 + (e - 0x2000) / 8)
  | some .dma => some (144 + (e - 0x2400) / 64)
  | some .gather => some (148 + (e - 0x2100) / 32)
  | some .scatter => some (150 + (e - 0x2200) / 32)
  | _ => none

/-- The number of a port: its first rack group (R86, R378). -/
def portNum : Port → Nat
  | .cluster c => c.toNat
  | .matrix g => 128 + g.toNat
  | .dma q => 144 + q.toNat
  | .gather => 148
  | .scatter => 150

/-- The port that serves a rack group. -/
def portOfGroup (g : Nat) : Nat := if g = 149 then 148 else if g = 151 then 150 else g

/-- The primary twin of a rack group's port (R2, R19, R86). -/
def primaryOfGroup (g : Nat) : TwinId :=
  if g < 128 then twinOf g
  else if g < 144 then twinOf (g - 128)
  else if g < 148 then twinOf (g - 144)
  else if g < 150 then .t0
  else .t1

/-- The engines of a port, as a first ENGINE_ID and a count (R18). -/
def portEngines (p : Nat) : Nat × Nat :=
  if p < 128 then (p * 64, 64)
  else if p < 144 then (0x2000 + (p - 128) * 8, 8)
  else if p < 148 then (0x2400 + (p - 144) * 64, 64)
  else if p < 150 then (0x2100, 64)
  else (0x2200, 64)

/-- The engines of a rack group, as a first ENGINE_ID and a count. -/
def groupEngines (g : Nat) : Nat × Nat :=
  if g < 148 then portEngines g
  else if g < 150 then (0x2100 + (g - 148) * 32, 32)
  else (0x2200 + (g - 150) * 32, 32)

/-- The queue depth of an engine kind (R25). -/
def queueDepth : EngKind → Nat
  | .tile => 4
  | .matrix => 8
  | .gather => 16
  | .scatter => 16
  | .dma => 32
  | .core => 0

/-- The Bake domain of a rack group (R292). -/
def domainOfGroup (g : Nat) : Nat :=
  if g < 128 then g / 8
  else if g < 144 then 16
  else if g < 148 then 17
  else if g < 150 then 18
  else 19

/-- The bytes of a number, least significant first (R5). -/
def bytesToNat : List Byte → Nat
  | [] => 0
  | b :: bs => b.toNat + 256 * bytesToNat bs

/-- The key of a lane in the Inventory's numbering (R391, class 3). -/
def laneKey (group : Nat) (lc : Bool) (level lane : Nat) : Nat :=
  group * 64 + b2n lc * 32 + level * 4 + lane

end Sys2Proof.Machine
end

