-- ==== Sys2Proof/Machine/Float.lean ====
section
/-! DEFINITION. The element addition of a Mixing Bowl (R275): exact conversion to fp32, exact sum, one rounding to
nearest with ties to even. A finite value is held as a whole number of units of 2 ^ -149. -/

namespace Sys2Proof.Machine

/-- An element as fp32 bits: a bfloat16 is the upper half of an fp32 (R275). -/
def elemBits (bf16 : Bool) (v : Nat) : Nat := if bf16 then v % 65536 * 65536 else v % 2 ^ 32

def fExp (v : Nat) : Nat := fld v 30 23
def fMan (v : Nat) : Nat := fld v 22 0
def fSign (v : Nat) : Bool := bitOf v 31
def fNan (v : Nat) : Bool := fExp v == 255 && fMan v != 0
def fInf (v : Nat) : Bool := fExp v == 255 && fMan v == 0

/-- The magnitude of a finite fp32 value in units of 2 ^ -149. -/
def fUnits (v : Nat) : Nat :=
  if fExp v = 0 then fMan v else (2 ^ 23 + fMan v) * 2 ^ (fExp v - 1)

/-- The signed value of a finite fp32 in units of 2 ^ -149. -/
def fInt (v : Nat) : Int := if fSign v then -(fUnits v : Int) else (fUnits v : Int)

/-- A magnitude divided by 2 ^ sh, rounded to nearest, ties to even. -/
def roundShift (m sh : Nat) : Nat :=
  let q := m / 2 ^ sh
  let r := m % 2 ^ sh
  if 2 * r > 2 ^ sh ∨ (2 * r = 2 ^ sh ∧ q % 2 = 1) then q + 1 else q

/-- A magnitude in units of 2 ^ -149 rounded to p bits of precision, as the bits of exponent and fraction of a format
with a fraction of p - 1 bits; an exponent beyond the range gives infinity. -/
def roundMag (p m : Nat) : Nat :=
  let low := 24 - p
  let sh := max low (Nat.log2 m + 1 - p)
  let q := roundShift m sh
  -- q has at most p bits, or is 2 ^ p after a carry; the biased exponent follows from the shift.
  let bits := if q < 2 ^ (p - 1) then q else (sh - low) * 2 ^ (p - 1) + q
  min bits (255 * 2 ^ (p - 1))

/-- The canonical NaN of a format (R275). -/
def canonNan (bf16 : Bool) : Nat := if bf16 then 0x7FC0 else 0x7FC00000

/-- A sign, and exponent and fraction, in a format. -/
def withSign (bf16 : Bool) (neg : Bool) (bits : Nat) : Nat :=
  bits + (if neg then (if bf16 then 2 ^ 15 else 2 ^ 31) else 0)

/-- Infinity of a format, less its sign. -/
def infBits (bf16 : Bool) : Nat := if bf16 then 0x7F80 else 0x7F800000

/-- The sum of two fp32 values rounded to FORMAT (R275). -/
def mixAdd (bf16 : Bool) (a b : Nat) : Nat :=
  if fNan a || fNan b then canonNan bf16
  else if fInf a || fInf b then
    if fInf a && fInf b && fSign a != fSign b then canonNan bf16
    else withSign bf16 (if fInf a then fSign a else fSign b) (infBits bf16)
  else
    let x := fInt a + fInt b
    let neg := if x = 0 then fSign a && fSign b else decide (x < 0)
    if x = 0 then withSign bf16 neg 0
    else withSign bf16 neg (roundMag (if bf16 then 8 else 24) x.natAbs)

end Sys2Proof.Machine
end

