-- ==== Sys2Proof/Config.lean ====
section
/-! DEFINITION. What the spec leaves open as a value: free values, constants with no body. -/

namespace Sys2Proof.Config

/-- Whether P is rounded up (1) or down (0) to the unit of CAP_STAT.PIN, for a reading whose P is not a whole
number of 0.25 W (R347 gives no rounding). Free value; log entry 20. -/
opaque freePinRound : Nat → BitVec 1

/-- P, in units of 0.25 W, of a LINEAR11 reading with a negative mantissa (R341 states none). Free value; log entry 20. -/
opaque freePinNegative : Nat → BitVec 16

/-- What the rest of the last mask line of a selection area is written with, by byte address: R221 says which lines are
written and no value for these words. Free value; log entry 21. -/
opaque freeAreaPad : Nat → BitVec 64

/-- STATUS of a Tube command whose sequence ended with TUBE_IO (R262, R278 state none), by Tube index. Free value; log
entry 22. -/
opaque freeTubeStatus : Nat → BitVec 8

/-- What a core of the Archivist holds as the dump copies it (R371), by twin and word: its pc, registers and CSRs are no
state of the block. Free value; log entry 53. -/
opaque freeArchivist : Nat → BitVec 64

end Sys2Proof.Config
end

