-- ==== Sys2Proof/Machine/Maps.lean ====
section
/-! DEFINITION. Sparse stores by index: a list of (index, entry) pairs in one canonical form, keys strictly
rising and no entry equal to what an unlisted index reads as. Every SRAM store of the block is held so. -/

namespace Sys2Proof.Machine

/-- A store by index. What an unlisted index reads as is given to each operation. -/
abbrev SMap (α : Type) := List (Nat × α)

/-- The entry at an index; `d` where none is listed. -/
def mapGet {α : Type} (d : α) : SMap α → Nat → α
  | [], _ => d
  | (j, v) :: m, k => if k = j then v else mapGet d m k

/-- The store with one entry replaced, kept in canonical form. -/
def mapSet {α : Type} [DecidableEq α] (d : α) : SMap α → Nat → α → SMap α
  | [], k, v => if v = d then [] else [(k, v)]
  | (j, w) :: m, k, v =>
    if k < j then (if v = d then (j, w) :: m else (k, v) :: (j, w) :: m)
    else if k = j then (if v = d then m else (k, v) :: m)
    else (j, w) :: mapSet d m k v

/-- The keys of a store are strictly rising from a lower bound, and no entry is the default. -/
def mapWfFrom {α : Type} [DecidableEq α] (d : α) : Nat → SMap α → Bool
  | _, [] => true
  | lo, (j, v) :: m => decide (lo ≤ j) && decide (v ≠ d) && mapWfFrom d (j + 1) m

/-- The canonical form of a store. -/
def mapWf {α : Type} [DecidableEq α] (d : α) (m : SMap α) : Bool := mapWfFrom d 0 m

/-- The store with every listed entry replaced by a function of its index and entry. -/
def mapAll {α : Type} [DecidableEq α] (d : α) (f : Nat → α → α) (m : SMap α) : SMap α :=
  m.filterMap fun p => if f p.1 p.2 = d then none else some (p.1, f p.1 p.2)

/-- The lowest index from `lo` on, below `hi`, that no entry lists. -/
def firstFree {α : Type} : SMap α → Nat → Nat → Option Nat
  | [], lo, hi => if lo < hi then some lo else none
  | (j, _) :: m, lo, hi =>
    if j < lo then firstFree m lo hi
    else if j = lo then firstFree m (lo + 1) hi
    else if lo < hi then some lo else none

/-- An element put into its place in a list kept in order. -/
def insOne {α : Type} (le : α → α → Bool) (a : α) : List α → List α
  | [] => [a]
  | b :: l => if le a b then a :: b :: l else b :: insOne le a l

/-- A list put into order; elements of equal rank keep theirs. -/
def insSort {α : Type} (le : α → α → Bool) : List α → List α
  | [] => []
  | a :: l => insOne le a (insSort le l)

/-- A list cut into parts of n elements, in order (R49: the edge words of one desk cycle); the fuel is its length. -/
def chunksFuel {α : Type} (n : Nat) : Nat → List α → List (List α)
  | 0, _ => []
  | _, [] => []
  | f + 1, l => l.take n :: chunksFuel n f (l.drop n)

def chunks {α : Type} (n : Nat) (l : List α) : List (List α) := chunksFuel n l.length l

end Sys2Proof.Machine
end

