-- ==== Sys2Proof/Machine/State.lean ====
section
/-! DEFINITION. The state of the block: every register, store, queue, counter and mode the spec names, as plain
data, and the commands that wait. A field of a record or register that the spec numbers is a natural number below
its width; a store by index is a sparse map (Maps.lean). -/

namespace Sys2Proof.Machine

/-! ### The Catalogue and the Stacks (02) -/

/-- The STATE of a node (R38). -/
inductive NState where
  | free | loading | waiting | ready | granted | done | skipped | faulted
  deriving DecidableEq, Repr

/-- A node record (R36, R40 to R42) with its side entry (R44), and what Accession keeps for a backward node's
mirror list (R75) and for a seal in progress (R73, R76). -/
structure Node where
  st : NState := .free
  mode : Nat := 0
  kind : Nat := 0
  lc : Bool := false
  level : Nat := 0
  ctx : Nat := 0
  gen : Nat := 0
  sealBit : Bool := false
  mirrorEn : Bool := false
  larder : Nat := 0
  cf : Nat := 0
  mask : Nat := 0
  scope : Nat := 0
  load : Nat := 0
  affinity : Nat := 0
  stash : Nat := 0
  succBase : Nat := 0
  succLen : Nat := 0
  mirror : Nat := 0
  rsv2 : Nat := 0
  desc : Nat := 0
  layer : Nat := 0
  rsv3 : Nat := 0
  skipPend : Bool := false
  region : Bool := false
  backward : Bool := false
  inserted : Bool := false
  cfSet : Bool := false
  origKind : Nat := 0
  wcount : Bool := false
  initCount : Nat := 0
  /-- The node's seal holds the lock bits of its list (R73). -/
  locked : Bool := false
  /-- Step 2 of R75 has not taken effect for this forward node, so it is not evaluated (R76). -/
  mirHold : Bool := false
  /-- A mirror list is reserved for this backward node: its base, length and edges appended (R75). -/
  mRes : Bool := false
  mBase : Nat := 0
  mCap : Nat := 0
  mLen : Nat := 0
  /-- Global time at which the node turned READY (for the GRANT record, R387). -/
  readyAt : Nat := 0
  /-- Global time at which the node was racked (R390). -/
  rackedAt : Nat := 0
  /-- While a holding rack has the node (R92): the rack group that it left, and whether for a spent cap (R390). -/
  heldIn : Nat := 0
  heldCap : Bool := false
  deriving DecidableEq, Repr

/-- A credit as it travels to its target (R47, R157): the edge word, the sending context, EPOCH_SEL, the skip
attribute, the completing node, and what a READY record names as its source (R387). -/
structure Credit where
  word : Nat := 0
  ctx : Nat := 0
  epoch : Nat := 0
  skip : Bool := false
  src : Nat := 0
  org : Nat := 0
  orgId : Nat := 0
  deriving DecidableEq, Repr

/-- The Catalogue and the Stacks of a twin. -/
structure Cat where
  nodes : SMap Node := []
  fwd : SMap Nat := []
  mir : SMap Nat := []
  /-- The timing wheel: the slots linked in each bucket, in order (R53). -/
  wheel : SMap (List Nat) := []
  /-- The last multiple of 1,024 ns whose bucket was walked. -/
  walked : Nat := 0
  bucket : Nat := 0
  lastFault : Nat := 0
  deriving DecidableEq, Repr

/-! ### Accession (03) -/

/-- A sweep of a context in a twin (R80, R81). -/
inductive Sweep where
  | none | rearm | release
  deriving DecidableEq, Repr

/-- Mirror work of a sealed forward node F (R75, R76): the edges of its list with the answers that have arrived
for targets in the partner, and whether the request has been sent and awaits its acknowledgement. -/
structure MirWork where
  f : Nat := 0
  ctx : Nat := 0
  bank : Nat := 0
  off : Nat := 0
  edges : List (Nat × Option (Bool × Nat)) := []
  acking : Bool := false
  deriving DecidableEq, Repr

/-- A part of an accession-window write (R65 to R68): the bytes of the node or the edge area, the reserved area, a command
with its operand, or a command word covered in part. -/
inductive WinCmd where
  | node (off : Nat) (data : List Byte)
  | edge (off : Nat) (data : List Byte)
  | reserved
  | nodeBank (v : Nat)
  | edgeBank (v : Nat)
  | rearm
  | mirrorClose
  | release
  | mark (v : Nat)
  | partial_ (off : Nat)
  deriving DecidableEq, Repr

/-- A window write that is parked (R72): the twin in whose park buffer it lies, the twin that NODE_BANK named when it
arrived (R65), the selectors in effect for it once a part of it was applied, and the parts still to be applied. -/
structure ParkedWrite where
  buffer : TwinId := .t0
  named : TwinId := .t0
  banks : Option (Nat × Nat) := none
  parts : List WinCmd := []
  /-- Its bytes of the reserved area have been counted as discarded, so the write is counted no more (R65). -/
  discarded : Bool := false
  deriving DecidableEq, Repr

/-- A window write that the host-side port or the NoC holds while a park buffer is full (R72). -/
structure HeldWrite where
  src : Requester
  ctx : Nat
  parts : List WinCmd
  deriving DecidableEq, Repr

/-- Accession of a twin. -/
structure Acc where
  locks : SMap Bool := []
  work : List MirWork := []
  lastRefusal : Nat := 0
  deriving DecidableEq, Repr

/-! ### Racks and the Circulation Desk (04) -/

/-- A proxy copy: the grant fields of a pool task homed in the partner (R87). -/
structure Copy where
  node : Nat := 0
  gen : Nat := 0
  ctx : Nat := 0
  desc : Nat := 0
  layer : Nat := 0
  kind : Nat := 0
  lc : Bool := false
  level : Nat := 0
  bwd : Bool := false
  rebake : Bool := false
  group : Nat := 0
  readyAt : Nat := 0
  deriving DecidableEq, Repr

/-- A lane: node slots in order, or copies in a proxy lane, and the refill steps in flight (R86 to R88). -/
structure Lane where
  slots : List Nat := []
  copies : List Copy := []
  refills : Nat := 0
  deriving DecidableEq, Repr

/-- The Racks of a twin. -/
structure Rack where
  lanes : SMap Lane := []
  /-- The proxy-out list of each pool group (R87). -/
  proxyOut : SMap (List Nat) := []
  /-- Nodes kept in a pool group for want of a record in the home twin (R87). -/
  keptNoRec : List Nat := []
  /-- The round-robin pointer of each rack (R90). -/
  rr : SMap Nat := []
  /-- The mix value D of each cluster group (R91). -/
  mix : SMap Int := []
  /-- Summary entries on their way to the partner: the value as it was sent, and how many of the entry were sent before it
  (R101, R103). -/
  sumTx : SMap (Nat × Nat) := []
  /-- Summary entries received, and the tally tick after which each arrived, plus one (R101, R115). -/
  sumRx : SMap Nat := []
  sumAt : SMap Nat := []
  deriving DecidableEq, Repr

/-- The state of a circulation record (R106): STATE FREE for `free`, for a reservation (R87) and for a slot held
while credits are deferred (R161). -/
inductive RecState where
  | free | issued | accepted | reserved | held
  deriving DecidableEq, Repr

/-- A circulation record (R106). -/
structure CircRec where
  st : RecState := .free
  node : Nat := 0
  gen : Nat := 0
  ctx : Nat := 0
  time : Nat := 0
  epoch : Nat := 0
  via : Bool := false
  bwd : Bool := false
  eng : Nat := 0
  deriving DecidableEq, Repr

/-- A claim forwarded by the partner that waits for a lane refill (R100, R105). -/
structure FwdClaim where
  eng : Nat := 0
  group : Nat := 0
  d : Int := 0
  tag : Nat := 0
  lane : Nat := 0
  deriving DecidableEq, Repr

/-- The grant fields of a GRANT (R95, R104): the word less SCRUB, the lane and the change of D. -/
structure GrantWord where
  node : Nat := 0
  gen : Nat := 0
  ctx : Nat := 0
  desc : Nat := 0
  layer : Nat := 0
  kind : Nat := 0
  fmt : Nat := 0
  tmask : Nat := 0
  bwd : Bool := false
  rebake : Bool := false
  eng : Nat := 0
  epoch : Nat := 0
  deriving DecidableEq, Repr

/-- A grant that the partner gave a forwarded claim, and that is not driven while a bank of the cluster is being powered up
(R104, R334): the word, the claim, and the claim's change of D and load. -/
structure HeldGrant where
  word : GrantWord := {}
  tag : Nat := 0
  dd : Int := 0
  load : Nat := 0
  deriving DecidableEq, Repr

/-- The Circulation Desk of a twin: with the forwarded claims that wait for a lane, and the grants that wait for the hold of
their port to end. -/
structure Desk where
  recs : SMap CircRec := []
  high : Nat := 0
  lastErr : Nat := 0
  fwdWait : List FwdClaim := []
  heldGrants : List HeldGrant := []
  deriving DecidableEq, Repr

/-- A task counted against an engine (R25), with the accept timer's state (R98). -/
structure Task where
  node : Nat := 0
  gen : Nat := 0
  ctx : Nat := 0
  accepted : Bool := false
  deriving DecidableEq, Repr

/-- A claim held by a primary twin (R94, R103): its age, whether it is forwarded, the number of the summary entry before
which it may not be forwarded again (0 for none), and the lane whose refill it waits for (R100). -/
structure Claim where
  seq : Nat := 0
  fwd : Bool := false
  noFwd : Nat := 0
  lane : Option Nat := none
  deriving DecidableEq, Repr

/-- What the primary twin keeps for an engine (R94, R96, R98). -/
structure Engine where
  inService : Bool := false
  lastV : Bool := false
  lastCtx : Nat := 0
  tasks : List Task := []
  claims : List Claim := []
  deriving DecidableEq, Repr

/-! ### The Shelf List (05) -/

/-- The STATE of a shard entry (R124). -/
inductive ShardState where
  | free | home | cluster | moving | faulted
  deriving DecidableEq, Repr

/-- A shard entry (R124). -/
structure Shard where
  st : ShardState := .free
  pin : Bool := false
  ctx : Nat := 0
  cluster : Nat := 0
  destHbm : Bool := false
  writers : Nat := 0
  moveEntry : Nat := 0
  w1 : Nat := 0
  w2 : Nat := 0
  deriving DecidableEq, Repr

/-- A move decided by a shard's owner (R135, R136, R140): the destination (128 for HBM), CLASS and LEVEL, the mirror node
whose stash credit the Larder owes at its end (R190), whether it evacuates a cluster whose last engine left (R143), and whether
it is a move for load (R132, R147). -/
structure MoveWant where
  shard : Nat := 0
  dest : Nat := 0
  lc : Bool := false
  level : Nat := 0
  stashG : Option Nat := none
  evac : Bool := false
  load : Bool := false
  /-- A placement asked for the move (R379). -/
  placed : Bool := false
  deriving DecidableEq, Repr

/-- A move in progress (R136): its wants, the location code it began at, its COPY slot, and the two answers. -/
structure Move where
  want : MoveWant := {}
  src : Nat := 0
  copy : Nat := 0
  locAck : Bool := false
  descAck : Bool := false
  deriving DecidableEq, Repr

/-- A wait-table entry (R139). -/
structure WaitEnt where
  valid : Bool := false
  shard : Nat := 0
  nodes : List Nat := []
  moving : Bool := false
  copy : Nat := 0
  deriving DecidableEq, Repr

/-- The Shelf List of a twin. -/
structure Shelf where
  shards : SMap Shard := []
  /-- The location mirror of the pair's shards (R126); an unlisted shard is FREE, 0xFF. -/
  locs : SMap Nat := []
  moves : List Move := []
  pendMoves : List MoveWant := []
  waits : SMap WaitEnt := []
  insWait : List Nat := []
  /-- Rack groups that the partner has reported with an engine in service (R143). -/
  served : SMap Bool := []
  /-- The owner table of the insertion pool (R352): the context, plus one, that a pool slot's node belongs to. -/
  owners : SMap Nat := []
  lastFault : Nat := 0
  deriving DecidableEq, Repr

/-! ### Returns (06) -/

/-- A COMPLETE or FAULT report as it travels to the node's home twin (R97, R99, R144). -/
structure Completion where
  isFault : Bool := false
  eng : Nat := 0
  node : Nat := 0
  gen : Nat := 0
  maxExp : Nat := 0
  expV : Bool := false
  code : Nat := 0
  cycles : Nat := 0
  /-- Global time at the sampling (R308). -/
  time : Nat := 0
  /-- The engine was out of service when the report was sampled (R144). -/
  stale : Bool := false
  deriving DecidableEq, Repr

/-- A narrow-credit entry (R154). -/
structure Narrow where
  valid : Bool := false
  node : Nat := 0
  cluster : Nat := 0
  ctx : Nat := 0
  /-- The append of the node waits for a flush: the number of its wait, and the rack group chosen (R154). -/
  wait : Option (Nat × Nat) := none
  /-- Global time at which that need was raised (R390). -/
  since : Nat := 0
  deriving DecidableEq, Repr

/-- Who waits on a flush or a drain (R153, R154, R157, R167, R219, R272). A wait is named by a number of its own. -/
inductive Waiter where
  | completion (t : TwinId) (id : Nat)
  | fence (t : TwinId) (id : Nat)
  | append (t : TwinId) (id : Nat)
  | remote (t : TwinId) (tag : Nat)
  | remoteAll (t : TwinId) (tag : Nat)
  | batch (t : TwinId) (id : Nat)
  | bowl (bowl : Nat) (id : Nat)
  deriving DecidableEq, Repr

/-- What the credits of a completion wait for (R153). -/
inductive DefStage where
  | ready | flush | drain
  deriving DecidableEq, Repr

/-- A completion with credits outstanding (R153, R161, R185): the record slot it holds while it has credits deferred
or its batch opening is parked (R219). -/
structure Deferred where
  id : Nat := 0
  node : Nat := 0
  gen : Nat := 0
  ctx : Nat := 0
  eng : Nat := 0
  epoch : Nat := 0
  recIdx : Nat := 0
  holds : Bool := false
  parked : Bool := false
  stage : DefStage := .ready
  /-- A drain follows the flush (R153). -/
  drain : Bool := false
  /-- The widening has ended, so a credit that needed it is sent at once. -/
  widened : Bool := false
  credits : List Credit := []
  /-- The Larder has not answered the node's offer yet (R185). -/
  offered : Bool := false
  /-- Global time at which the need was raised (R390). -/
  since : Nat := 0
  deriving DecidableEq, Repr

/-- The release scope of a credit's sender: none, a tile of a cluster, or DIE (R151). -/
inductive Rel where
  | none | tile (cluster : Nat) | die
  deriving DecidableEq, Repr

/-- What credits must wait for (R153). -/
structure Need where
  flush : Bool := false
  drain : Bool := false
  deriving DecidableEq, Repr

/-- What follows once Returns has walked the list of a completion to its end (R163): of a task, with its record, its report and
the need it shares with its batch (R219); of the Larder's answer to a completion with credits outstanding (R185); and of
credits whose widening has ended, with the list that they end (R153, R222). -/
inductive HandEnd where
  | plain
  | task (i : Nat) (r : CircRec) (c : Completion) (share : Option Nat)
  | answer (d : Deferred)
  | widened (id node gen : Nat) (lists : Bool)
  deriving DecidableEq, Repr

/-- The completion that Returns has in hand (R15, R163): the credits still to be walked, of each desk cycle, and what the walk has
deferred so far. -/
structure Hand where
  ctx : Nat := 0
  gen : Nat := 0
  rel : Rel := .none
  scope : Nat := 0
  chunks : List (List Credit) := []
  later : List Credit := []
  need : Need := {}
  ends : HandEnd := .plain
  deriving DecidableEq, Repr

/-- What waits behind the completion in hand (R163): a report, a skip, the completion of a node that Camette serves, the Larder's
answer, and credits whose widening has ended. -/
inductive RetLater where
  | report (c : Completion)
  | skip (node : Nat)
  | internal (node : Nat)
  | answer (node : Nat) (send : Bool) (consumers : List Nat)
  | widened (id : Nat)
  deriving DecidableEq, Repr

/-- A FENCE node that waits (R167): flushes still to end, and whether a drain follows. -/
structure FenceWait where
  id : Nat := 0
  node : Nat := 0
  left : Nat := 0
  drain : Bool := false
  /-- Global time at which the need was raised (R390). -/
  since : Nat := 0
  deriving DecidableEq, Repr

/-- A system drain (R158). -/
structure Drain where
  out : Bool := false
  host : Bool := false
  link : Bool := false
  retryHost : Bool := false
  retryLink : Bool := false
  cur : List Waiter := []
  next : List Waiter := []
  deriving DecidableEq, Repr

/-- Returns of a twin. -/
structure Ret where
  narrow : SMap Narrow := []
  deferred : List Deferred := []
  fences : List FenceWait := []
  /-- FLUSH_REQ items sent and not answered: request tag, cluster or none for ALL, and waiter (R157). -/
  reqs : List (Nat × Option Nat × Waiter) := []
  /-- The next request tag. -/
  nextTag : Nat := 0
  /-- FLUSH_REQ items with ALL that were received: tag, flushes still to end, timed out. -/
  allReqs : List (Nat × Nat × Bool) := []
  drain : Drain := {}
  /-- The completion whose list stands for want of room in the edge channel, and what waits behind it (R15, R163). -/
  hand : Option Hand := none
  waiting : List RetLater := []
  lastFault : Nat := 0
  deriving DecidableEq, Repr

/-- The flush state of a cluster, kept by its primary twin (R155, R156). -/
structure Flush where
  tag : Nat := 0
  dirty : Bool := false
  out : Bool := false
  /-- A tile COMPLETE was sampled since the flush outstanding was driven. -/
  fresh : Bool := false
  retry : Bool := false
  cur : List Waiter := []
  next : List Waiter := []
  since : Nat := 0
  deriving DecidableEq, Repr

/-! ### The Larder and the Recipe Table (07) -/

/-- A stash offer (R185). `declared` is the Larder's own: the stash shard was declared when the offer was decided (R187). -/
structure Offer where
  f : Nat := 0
  ctx : Nat := 0
  stash : Nat := 0
  cls : Nat := 0
  kind : Nat := 0
  cluster : Nat := 0
  g : Nat := 0
  rebake : Bool := false
  declared : Bool := false
  deriving DecidableEq, Repr

/-- What the Larder reads of G(F) (R185, R188): AFFINITY, counter, CLASS, LEVEL, whether it is sealed, and with
the second read the targets of its mirror list. -/
structure GInfo where
  g : Nat := 0
  affinity : Nat := 0
  counter : Nat := 0
  lc : Bool := false
  level : Nat := 0
  isSealed : Bool := false
  targets : Option (List Nat) := none
  deriving DecidableEq, Repr

/-- The STATE of a re-bake entry (R192). -/
inductive RebakeState where
  | dormant | triggered | running
  deriving DecidableEq, Repr

/-- A re-bake entry (R192). -/
structure Rebake where
  valid : Bool := false
  st : RebakeState := .dormant
  ctx : Nat := 0
  g : Nat := 0
  r : Nat := 0
  depth : Nat := 0
  inputs : List Nat := []
  consumers : List Nat := []
  deriving DecidableEq, Repr

/-- The Larder of a twin: the re-bake table, and for each context the offers that wait, the first of them being
the one in hand (R185). The flag says that its over-budget WITHHOLD has been answered (R186). -/
structure Lard where
  table : SMap Rebake := []
  offers : SMap (List (Offer × Bool)) := []
  /-- R(F) nodes whose credits are still to be applied: the node and their number (R195). -/
  leaving : List (Nat × Nat) := []
  high : Nat := 0
  lastFault : Nat := 0
  deriving DecidableEq, Repr

/-- A Recipe entry (R203, R214). -/
structure Recipe where
  hist : List Nat := []
  stepMax : Nat := 0
  stepV : Bool := false
  format : Nat := 4
  force : Nat := 0
  train : Nat := 0
  rows : Nat := 0
  deriving DecidableEq, Repr

/-- The Recipe Table and its sweep (R200, R202): the STEP_MARK nodes that wait, the first being swept, and those
that found the queue full. -/
structure Fmt where
  entries : SMap Recipe := []
  queue : List Nat := []
  overflow : List Nat := []
  lastCtx : Nat := 0
  deriving DecidableEq, Repr


/-! ### The Sorter (08) -/

/-- The STATE of a batch slot (R234). -/
inductive BatchState where
  | free | opened | reading | writing | resolved | cancelled
  deriving DecidableEq, Repr

/-- A batch (R218 to R230): what it took at its opening, its header, the scores that have arrived, the counts, and
the edges that wait on it. A parked opening (R219) is one in state FREE. -/
structure Batch where
  st : BatchState := .free
  id : Nat := 0
  listEnd : Bool := false
  ctx : Nat := 0
  epoch : Nat := 0
  route : Nat := 0
  gen : Nat := 0
  cluster : Nat := 0
  flushed : Bool := false
  header : Option (List Nat) := none
  scores : SMap Nat := []
  lines : SMap Bool := []
  counts : List Nat := []
  nans : Nat := 0
  unpicked : Nat := 0
  acks : Nat := 0
  edges : List Credit := []
  deriving DecidableEq, Repr

/-- The new state of a batch slot that a BATCH item carries (R218). -/
inductive SlotNews where
  | opened | cancelled | freed
  deriving DecidableEq, Repr

/-- An entry of the batch mirror (R218). -/
structure BatchMir where
  ctx : Nat := 0
  current : Bool := false
  deriving DecidableEq, Repr

/-- The Sorter of a twin: slots, parked openings, the batch mirror of the pair's 128 slots, and the binding table:
EPOCH_SEL of each bound EXPERT node, by node slot (R224). -/
structure Sorter where
  slots : SMap Batch := []
  parked : List Batch := []
  mir : SMap BatchMir := []
  bind : SMap Nat := []
  lastFault : Nat := 0
  deriving DecidableEq, Repr

/-! ### The Tally Bank (09) -/

/-- The STATE of a tally entry (R237). -/
inductive TallyState where
  | free | idle | armed | wrapped | spent
  deriving DecidableEq, Repr

/-- A tally entry (R237). -/
structure Tally where
  st : TallyState := .free
  packets : Bool := false
  level : Bool := false
  sat : Bool := false
  ctx : Nat := 0
  count : Nat := 0
  key : Nat := 0
  cursor : Nat := 0
  step : Nat := 0
  watchBase : Nat := 0
  watchLen : Nat := 0
  deriving DecidableEq, Repr

/-- A command of R247 on its way to its tick: OP, index, and the data registers as written. -/
structure TallyCmd where
  ctx : Nat := 0
  op : Nat := 0
  sel : Nat := 0
  d0 : Nat := 0
  d1 : Nat := 0
  d2 : Nat := 0
  deriving DecidableEq, Repr

/-- The Tally Bank of a twin: entries, packets in the arrival buffer, credits that the arrival port withholds (R31), commands
that wait for the tick, edges deferred past their tick, as entries with a number each, in the order in which they have waited
(R243), and contexts whose WRAPPED entries the next tick releases (R238). -/
structure Bank where
  ents : SMap Tally := []
  buf : List Nat := []
  owed : Nat := 0
  cmds : List TallyCmd := []
  late : List (Nat × Nat) := []
  rearmed : List Nat := []
  lastDrop : Nat := 0
  lastFault : Nat := 0
  /-- Events of the TALY page's counters since the last tally tick, by offset: those counters change at ticks only (R377). -/
  events : SMap Nat := []
  deriving DecidableEq, Repr

/-! ### Tubes and Mixing Bowls (10) -/

/-- The STATE of a Tube (R261). -/
inductive TubeState where
  | free | opening | opened | closing
  deriving DecidableEq, Repr

/-- A NoC access of a Tube sequence that has not been answered (R262, R278): writes of the receive or the send endpoint
at OPEN, the closing write of the send endpoint, reads of CLOSE (the send read carries the RX_ARR read before it), the
disabling write of the receive endpoint, reads of QUERY for a context, and reads of the Inventory (R260). -/
inductive TubeOp where
  | wrRx | wrTx | wrClose | rdRx | rdTx (arr : Nat) | wrDis | queryRx (k : Nat) | queryTx (k : Nat) | invRx | invTx
  deriving DecidableEq, Repr

/-- A Tube entry (R261). `busy` says that its sequence is a command of the context, whose BUSY it clears. -/
structure Tube where
  st : TubeState := .free
  ctx : Nat := 0
  tx : Nat := 0
  rx : Nat := 0
  txSlot : Nat := 0
  rxSlot : Nat := 0
  cut : Nat := 0
  ringLog : Nat := 0
  ringOff : Nat := 0
  busy : Bool := false
  ops : List TubeOp := []
  deriving DecidableEq, Repr

/-- The send endpoint of a slot (R264, R265, R280), with the credit returns on their way to it. -/
structure SendEp where
  live : Bool := false
  ctx : Nat := 0
  rxKey : Nat := 0
  ringLog : Nat := 0
  wr : Nat := 0
  credits : Nat := 0
  result : Nat := 0
  busy : Bool := false
  sent : Nat := 0
  returns : List Nat := []
  deriving DecidableEq, Repr

/-- A beat on its way to a receiving ring: its words, and the ring beats it stands for (more than one for a pad). -/
structure Beat where
  words : List Nat := []
  span : Nat := 1
  deriving DecidableEq, Repr

/-- The receive endpoint of a slot (R265, R268, R269, R280): the ring, the pointers, the next message to take, the
current message (first beat, beats, locator), beats still to be freed or discarded as they land, and the beats on
their way. -/
structure RecvEp where
  live : Bool := false
  ctx : Nat := 0
  txKey : Nat := 0
  cut : Nat := 0
  ringLog : Nat := 0
  ringOff : Nat := 0
  ring : SMap (List Nat) := []
  arr : Nat := 0
  rd : Nat := 0
  next : Nat := 0
  seq : Nat := 0
  cur : Option (Nat × Nat × Nat) := none
  last : Nat := 0
  freeing : Nat := 0
  dropping : Nat := 0
  underrun : Bool := false
  flight : List Beat := []
  deriving DecidableEq, Repr

/-- The STATE of a Bowl (R279). -/
inductive BowlState where
  | free | idle | starting | mixing | faulted
  deriving DecidableEq, Repr

/-- A contribution of a Bowl (R271): its block, lane, LAST, epoch, IN_FMT, ELEM_OFF and COUNT. -/
structure Contrib where
  block : Nat := 0
  lane : Nat := 0
  isLast : Bool := false
  epoch : Nat := 0
  bf16 : Bool := false
  off : Nat := 0
  count : Nat := 0
  deriving DecidableEq, Repr

/-- A Mixing Bowl (R279): its entry, the puts that wait with the first in hand, the lanes still expected, contributions
held, contributions to be added in order, whether the reads of the first of them are out, and whether result writes are
unacknowledged. -/
structure Bowl where
  st : BowlState := .free
  bf16 : Bool := false
  keep : Bool := false
  selected : Bool := false
  epochChk : Bool := false
  doneEn : Bool := false
  ctx : Nat := 0
  epoch : Nat := 0
  lanes : Nat := 0
  next : Nat := 0
  elems : Nat := 0
  result : Nat := 0
  pendMax : Nat := 0
  blockBase : Nat := 0
  qmask : Nat := 0
  quarter : Nat := 0
  doneNode : Nat := 0
  puts : List Nat := []
  /-- The put in hand waits for a flush, by the number of the wait (R272). -/
  flushId : Option Nat := none
  /-- The header read of the put in hand is out. -/
  reading : Bool := false
  expected : List Nat := []
  pend : List Contrib := []
  commits : List Contrib := []
  adding : Bool := false
  writing : Bool := false
  deriving DecidableEq, Repr

/-- The Tube Office of a twin. -/
structure Office where
  tubes : SMap Tube := []
  bowls : SMap Bowl := []
  lastFault : Nat := 0
  deriving DecidableEq, Repr
/-- The source of a wake (R313, R322, R324): the core that drove it, whether it passes whatever the target (a privileged
thread or a command), and the context it belongs to. -/
structure WakeSrc where
  core : Nat := 0
  free : Bool := false
  ctxV : Bool := false
  ctx : Nat := 0
  deriving DecidableEq, Repr

/-! ### The Bridge (01 R15) -/

/-- An item of the edge channel (R76, R126, R157, R188), or the same step taken inside one twin. -/
inductive EdgeItem where
  /-- R157: CREDIT, and SKIP_CREDIT when the credit carries the skip attribute. -/
  | credit (c : Credit)
  /-- R76: the request for step 2 of R75: F, G(F), KIND, CLASS, LEVEL, LARDER_CLASS, d, INIT_COUNT. -/
  | mirrorReq (f g ctx kind : Nat) (lc : Bool) (level larder d cap : Nat)
  | mirrorAck (f : Nat)
  /-- R75: an append of the mirror edge word to the list of G(S): F, S, G(S). -/
  | append (f s g ctx word : Nat)
  | closeMarker (ctx : Nat)
  | targetRead (f k target : Nat)
  | targetAns (f k : Nat) (en : Bool) (mirror : Nat)
  /-- R126. -/
  | loc (shard code ctx : Nat) (hi : Option Nat)
  | locAck (shard : Nat)
  | moveReq (shard base dest : Nat) (lc : Bool) (level : Nat) (load : Bool)
  | writerInc (shard : Nat)
  | writerDec (shard : Nat)
  | service (group : Nat) (up : Bool)
  /-- R157: the cluster, or none for ALL. -/
  | flushReq (what : Option Nat) (tag : Nat)
  | flushDone (tag : Nat) (timeout : Bool)
  /-- R188. -/
  | offer (o : Offer)
  | answer (f : Nat) (send : Bool) (consumers : List Nat)
  | gRead (g ctx : Nat) (list : Bool)
  | gData (ctx : Nat) (i : GInfo)
  | gMark (g stash : Nat) (spilled pend : Bool)
  | trigger (g ctx : Nat)
  | release (g ctx stash : Nat) (spilled : Bool) (cls : Nat)
  /-- R218: a batch-slot state change: the mirror index, CONTEXT, the new state, the epoch. -/
  | batch (slot ctx : Nat) (news : SlotNews) (epoch : Nat)
  /-- R228. -/
  | epochBump (ctx epoch : Nat)
  /-- R322. -/
  | wake (thread : Nat) (w : WakeSrc)
  deriving DecidableEq, Repr

/-- An item of the claim channel (R104). -/
inductive ClaimItem where
  | fwdClaim (eng group : Nat) (d : Int) (tag : Nat)
  /-- The claim; and, for the rule that it waits for a newer summary, the number of the first entry sent after (R103). -/
  | decline (eng tag newer : Nat)
  /-- R91: the change of D with the grant, and the LOAD of the task granted (R111). -/
  | grant (w : GrantWord) (tag : Nat) (dd : Int) (load : Nat)
  /-- The reason (R104): the context is fenced, or else the engine is out of service. -/
  | grantReturn (node gen : Nat) (fenced : Bool)
  /-- R98; and whether the engine was out of service at the sampling, which makes the ACCEPT stale (R144). -/
  | acceptItem (node gen eng : Nat) (stale : Bool)
  | complete (c : Completion)
  | proxy (c : Copy)
  | proxyGrant (node gen eng claim : Nat)
  | proxyRefused (node : Nat)
  | proxyBack (node : Nat)
  deriving DecidableEq, Repr

/-- What HANDOVER carries (R366): the clusters that are DIRTY. The claims held stay in the engines' records. -/
structure Handover where
  dirty : List Nat := []
  deriving DecidableEq, Repr

/-- An item of the control channel (R15, R303, R305, R361, R366, R381). -/
inductive ControlItem where
  | freeze (k : Nat)
  | fence (ctx : Nat) (isClose : Bool)
  | tear (ctx : Nat)
  | swept (ctx : Nat)
  | fatal
  | heartbeat
  | handover (h : Handover)
  | resync
  deriving DecidableEq, Repr

/-! ### Contexts (11) -/

/-- The state of a context (R289). -/
inductive CtxState where
  | closed | opened | fenced | tearing | down
  deriving DecidableEq, Repr

/-- A request to the notifier (R299): the NOTIFY node, its twin, its DESC_PTR and LAYER. -/
structure NotifyReq where
  node : Nat := 0
  desc : Nat := 0
  layer : Nat := 0
  deriving DecidableEq, Repr

/-- What a context keeps in one twin. -/
structure CtxTw where
  /-- The range registers (R70, R127, R256, R282), as written. -/
  nodeRange : Nat := 0
  fwdRange : Nat := 0
  mirRange : Nat := 0
  varRange : Nat := 0
  shardRange : Nat := 0
  tallyRange : Nat := 0
  tubeRange : Nat := 0
  bowlRange : Nat := 0
  /-- Mirror slots reserved in the fixed and variable parts (R70, R75). -/
  fixUsed : Nat := 0
  varUsed : Nat := 0
  sweep : Sweep := .none
  sweepBusy : Bool := false
  /-- Pending mirror nodes, in the order their requests were applied (R78). -/
  pendMir : List Nat := []
  /-- A MIRROR_CLOSE waits to take effect in this twin; this twin is the one NODE_BANK named, which is first; and the
  marker of the first twin has arrived (R78). -/
  closing : Bool := false
  closeFirst : Bool := false
  marker : Bool := false
  /-- The fence (R303): raised and not yet in effect; in effect. -/
  fencePend : Bool := false
  fenced : Bool := false
  /-- The holding rack (R92), with the copies kept with it, and what it waits for. -/
  holdNodes : List Nat := []
  holdCopies : List Copy := []
  capHeld : Bool := false
  inflHeld : Bool := false
  /-- The unplaceable rack (R145). -/
  unplace : List Nat := []
  /-- The rotating pointer (R132). -/
  rot : Nat := 0
  /-- The cap of the current tick and LEFT, by Bake domain (R295). -/
  loaded : SMap Nat := []
  left : SMap Nat := []
  deriving DecidableEq, Repr

/-- What a teardown or a CLOSE is for (R289, R305). -/
inductive TearKind where
  | fault | close
  deriving DecidableEq, Repr

/-- A context (R284 to R307), pair-wide. -/
structure Ctx where
  st : CtxState := .closed
  home : TwinId := .t0
  /-- CTX_OWNER (R288) as written. -/
  owner : Nat := 0
  scrubFail : Bool := false
  openPend : Bool := false
  openHome : TwinId := .t0
  tear : TearKind := .fault
  faultStat : Nat := 0
  faultTime : Nat := 0
  /-- The window's selectors and state (R65, R66, R71, R72, R79, R82). -/
  nodeBank : Nat := 0
  edgeBank : Nat := 0
  refused : Bool := false
  fixedLoaded : Bool := false
  fixedClosed : Bool := false
  parked : List ParkedWrite := []
  mark : Nat := 0
  /-- Stash classes (R184): KEPT and SPILLED by class; LEAK and KEPT_HW (R207). -/
  kept : SMap Nat := []
  spilled : SMap Nat := []
  leak : Bool := false
  keptHw : Nat := 0
  /-- FMT.WINDOW and SELECT_CFG of the context (R212, R213). -/
  window : Nat := 0
  selCfg : Nat := 0x1004000C0602
  selShadow : Option Nat := none
  /-- The batch epoch and a cancel in progress (R228, R232). -/
  epoch : Nat := 0
  cancelBusy : Bool := false
  /-- The notifier (R299, R301). -/
  notifyQ : List NotifyReq := []
  head : Nat := 0
  tail : Nat := 0
  /-- LAST_USE (R298). -/
  lastUse : Nat := 0
  /-- STATUS and BUSY of the context page's command registers. -/
  shardStat : Nat := 0
  tallyStat : Nat := 0
  tallyBusy : Bool := false
  tubeStat : Nat := 0
  tubeBusy : Bool := false
  bowlStat : Nat := 0
  bowlBusy : Bool := false
  /-- Context-page COMMITs whose applications are due (R416). -/
  commitPend : Nat := 0
  /-- Global time spent outside CLOSED since OPEN, in ns (R308). -/
  openNs : Nat := 0
  deriving DecidableEq, Repr

/-- The common registers of a page and its own read-write registers (R409, R415): values in effect by offset
(an unlisted register holds its reset value), pending shadows, and the always-on counters by offset. -/
structure Page where
  enable : Bool := false
  errStat : Nat := 0
  errMask : Nat := 0
  inj : Nat := 0
  applied : Nat := 0
  regs : SMap (Option Nat) := []
  shadow : SMap (Option Nat) := []
  ctrs : SMap Nat := []
  deriving DecidableEq, Repr

/-! ### Observation (15) -/

/-- A trace record (R386, R387), without its sequence number. -/
structure TraceRec where
  w0 : Nat := 0
  time : Nat := 0
  w2 : Nat := 0
  hi3 : Nat := 0
  deriving DecidableEq, Repr

/-- An optional counter (R379). -/
structure OptCtr where
  cfg : Nat := 0x8040000000
  run : Bool := false
  value : Nat := 0
  deriving DecidableEq, Repr

/-- The counters of a port (R378). -/
structure PortCtr where
  grants : Nat := 0
  busy : Nat := 0
  deriving DecidableEq, Repr

/-- A wait as its record gives it (R390): the waiter (a node, or a Tube), what it waits on, and the waiter's COUNT_FLAGS. -/
structure Wait where
  tube : Bool := false
  waiter : Nat := 0
  kind : Nat := 0
  on : Nat := 0
  detail : Nat := 0
  cf : Nat := 0
  deriving DecidableEq, Repr

/-- The Day Book, the counter bank and the Inventory of a twin. -/
structure Obs where
  staged : List TraceRec := []
  /-- The write of the oldest staged record has been driven and is not acknowledged (R385). -/
  ringOut : Bool := false
  /-- Records dropped since the last LOST record (R384). -/
  lostSince : Nat := 0
  /-- Desk cycles in which staging held a record since edge delivery was last given up (R376). -/
  stall : Nat := 0
  wr : Nat := 0
  rd : Nat := 0
  wfgBusy : Bool := false
  wfgAll : Bool := false
  wfgCtx : Nat := 0
  wfgStat : Nat := 0
  /-- The waits that the assembly in progress has found, by context (R390). -/
  wfgWaits : List (Nat × List Wait) := []
  /-- WAIT records of an assembly that has ended for which staging has had no room yet (R384, R390). -/
  wfgOut : List TraceRec := []
  ports : SMap PortCtr := []
  opts : SMap OptCtr := []
  invBusy : Bool := false
  invData : List Nat := []
  /-- Words 2 to 4 of the Tube that INV.SEL names, as its endpoints were read (R282). -/
  invEp : List Nat := []
  deriving DecidableEq, Repr

/-- The counters of the pair as a freeze takes them (R382, R383): pages by key, ports and optional counters. -/
structure Frozen where
  pages : SMap (SMap Nat) := []
  ports0 : SMap PortCtr := []
  ports1 : SMap PortCtr := []
  opts0 : SMap OptCtr := []
  opts1 : SMap OptCtr := []
  deriving DecidableEq, Repr

/-- The freeze (R381 to R383, R392, R393). -/
structure FreezeSt where
  pending : Bool := false
  tick : Nat := 0
  frozen : Option Frozen := none
  thawing : Bool := false
  /-- The tally tick within which THAW was written (R383). -/
  thawTick : Nat := 0
  haltReq : Nat := 0
  haltStatus : Nat := 0
  ignored : Nat := 0
  tickNs : Nat := 0
  deriving DecidableEq, Repr


/-! ### The Bake Table (11) -/

/-- The Bake Table of a twin (R294, R295, R297): the slots as written, the walk for the next tick (the next slot to be
read, the frame position it walks for, and the caps it has computed by context × 32 + domain), and the position of the
current tick. -/
structure Bake where
  slots : SMap Nat := []
  walking : Bool := false
  next : Nat := 0
  frame : Nat := 0
  caps : SMap Nat := []
  position : Nat := 0
  deriving DecidableEq, Repr

/-! ### The Thread Desk and the thread arbiter (12) -/

/-- The STATE of a thread (R311). -/
inductive ThreadState where
  | free | waiting | delayed | ready | running | faulted
  deriving DecidableEq, Repr

/-- A thread entry (R311). -/
structure Thread where
  st : ThreadState := .free
  priv : Bool := false
  ctxV : Bool := false
  saved : Bool := false
  wakePend : Bool := false
  level : Nat := 0
  aff : Nat := 0
  ctx : Nat := 0
  core : Nat := 0
  slice : Nat := 0
  left : Nat := 0
  due : Nat := 0
  readyAt : Nat := 0
  deriving DecidableEq, Repr

/-- A word from the arbiter to a Thread Desk (R318): ASK of a core, TAKE or RELEASE of a thread for a core. -/
inductive DeskMsg where
  | ask (core : Nat)
  | take (core thread : Nat)
  | release (core thread : Nat)
  deriving DecidableEq, Repr

/-- An offer of a Thread Desk (R318): the thread (of the pair), its LEVEL and READY_TIME. -/
structure ThreadOffer where
  thread : Nat := 0
  level : Nat := 0
  readyAt : Nat := 0
  /-- The offer answers an ASK (R318). -/
  asked : Bool := false
  deriving DecidableEq, Repr

/-- A word from a Thread Desk to the arbiter (R318): an offer, asked or unasked, or NONE. -/
inductive ArbMsg where
  | offer (core : Nat) (o : ThreadOffer)
  | none (core : Nat)
  deriving DecidableEq, Repr

/-- The Thread Desk of a twin (R310 to R332): entries by index, READY threads in list order, the delay list, reserved
threads with the core each is offered for, the cores known to hold an ask, the words on their way to and from the
arbiter, a DESTROY in progress, STATUS of the last command, and LAST_ERR. -/
structure ThreadDesk where
  ents : SMap Thread := []
  ready : List Nat := []
  delays : List Nat := []
  reserved : List (Nat × Nat) := []
  asks : List Nat := []
  deskIn : List DeskMsg := []
  arbIn : List ArbMsg := []
  destroy : Option Nat := none
  stat : Nat := 0
  lastErr : Nat := 0
  deriving DecidableEq, Repr

/-- Why a PREEMPT was driven (R320, R321, R326, R327, R331, R353). -/
inductive PreemptWhy where
  | level | slice | destroy | remove | lostTwin | poison
  deriving DecidableEq, Repr

/-- What the arbiter awaits from one Desk for an ask in progress (R318). -/
inductive Reply where
  | idle | awaited | none | offered (o : ThreadOffer)
  deriving DecidableEq, Repr

/-- The arbiter's record of a core (R331), with the answers to its ask; `window` says that the wait of 8 dc for the
other Desk's offer runs (R318). -/
structure Core where
  inService : Bool := false
  running : Option Nat := none
  asking : Bool := false
  preempt : Option (Nat × PreemptWhy) := none
  expired : Bool := false
  given : Bool := false
  lastV : Bool := false
  lastCtx : Nat := 0
  runLevel : Nat := 0
  reply0 : Reply := .idle
  reply1 : Reply := .idle
  window : Bool := false
  deriving DecidableEq, Repr

/-- The thread arbiter (R317, R318, R331): its records of the cores, the summary entries received from each Desk by
class (level + 1, 0 for none), and the core whose removal is in progress. -/
structure Arb where
  cores : SMap Core := []
  sum0 : SMap Nat := []
  sum1 : SMap Nat := []
  removing : Option Nat := none
  deriving DecidableEq, Repr

/-! ### The Proofer (13) -/

/-- The state of a power domain (R333). -/
inductive DomState where
  | run | stopping | stopped | starting | gated
  deriving DecidableEq, Repr

/-- The exchange of a stop with the driving twin (R336). -/
inductive StopMsg where
  | none | hold | abort | withdrawn | draining
  deriving DecidableEq, Repr

/-- A power domain (R333 to R338, R347): ticks idle without a break, ACCESS_WAKE, the exchange of a stop, whether OB_EMPTY
and CLK_OK have come, whether the start is from GATED, and whether PORT_READY is asserted and its engines were put in
service (R403). -/
structure Dom where
  st : DomState := .run
  policy : Nat := 0
  stretched : Bool := false
  idle : Nat := 0
  accWake : Bool := false
  msg : StopMsg := .none
  obEmpty : Bool := false
  clkOk : Bool := false
  fromGated : Bool := false
  portReady : Bool := false
  serviced : Bool := false
  deriving DecidableEq, Repr

/-- The step of a voltage-frequency change (R340). -/
inductive ChangeStage where
  | switching | volts | settling
  deriving DecidableEq, Repr

/-- A change of step in progress (R340): its target, direction, stage, the rails unacknowledged, and those sent a second
time. -/
structure StepChange where
  target : Nat := 7
  up : Bool := false
  stage : ChangeStage := .switching
  rails : List Rail := []
  resent : List Rail := []
  deriving DecidableEq, Repr

/-- The Proofer's initialisation (R402). -/
inductive InitStage where
  | idle | rails | settling | starting | done
  deriving DecidableEq, Repr

/-- The Proofer (R333 to R347): domains, the domain groups started since reset, banks powered and banks being powered by
cluster, the step in force and its change, the power readings, and whether STATUS_WORD was read in this period. -/
structure Proofer where
  doms : SMap Dom := []
  begun : Nat := 0
  init : InitStage := .idle
  initRails : List Rail := []
  initResent : List Rail := []
  banks : SMap Nat := []
  rising : SMap Nat := []
  step : Nat := 7
  change : Option StepChange := none
  reading : Bool := false
  lost : Nat := 0
  failsafe : Bool := false
  pin : Nat := 0
  alertWord : Nat := 0
  alerted : Bool := false
  gateStat : Nat := 0
  /-- TIME.SLEW (R343), and a LOAD that takes effect at the next tally tick. -/
  slew : Int := 0
  load : Option Nat := none
  /-- Events of the PWR page's counters since the last tally tick, by offset: those counters change at ticks only (R377). -/
  events : SMap Nat := []
  deriving DecidableEq, Repr

/-! ### Reliability (14) -/

/-- An SRAM group of a twin (R352, R357, R358): whether its spare bank is out (retired, or in use for a test), the
physical bank (plus one) in the place of each logical bank that was swapped, the physical bank (plus one) that is the
spare, the rows replaced by physical bank, and the banks retired. -/
structure SramGroup where
  noSpare : Bool := false
  place : SMap Nat := []
  spare : Nat := 0
  rows : SMap Nat := []
  retired : Nat := 0
  deriving DecidableEq, Repr

/-- The step of a targeted self-test (R357, R358). -/
inductive TestStage where
  | copying | marching | again
  deriving DecidableEq, Repr

/-- A targeted self-test (R356, R357): the group, the logical bank (the number of data banks names the spare), the
physical bank under test, and the number of the log entry that takes the outcome. -/
structure BankTest where
  group : Nat := 0
  bank : Nat := 0
  phys : Nat := 0
  logNo : Nat := 0
  stage : TestStage := .copying
  deriving DecidableEq, Repr

/-- The REL unit of a twin (R356, R372, R373): the log's words by entry, the errors logged, the SRAM groups, the test
queue with the first being served, TEST_STAT, and counters that read 2^48 − 1 since a double-bit error (R353), by page key
× 4096 + offset. -/
structure RelUnit where
  log : SMap (Nat × Nat) := []
  count : Nat := 0
  groups : SMap SramGroup := []
  queue : List (Nat × Nat × Nat) := []
  test : Option BankTest := none
  testStat : Nat := 0
  /-- The tally ticks at which the last heartbeat arrived (R361) and the watchdog was last restarted (R373). -/
  beatAt : Nat := 0
  kickAt : Nat := 0
  /-- The Archivist's local memory from address 0, as the image was loaded, and ENTRY, where it started (R397, R398). -/
  image : List Byte := []
  entry : Option Nat := none
  deriving DecidableEq, Repr

/-- The command of BLK.PAIR_CTL in progress (R365 to R368). -/
inductive PairOp where
  | detach | rejoin | recover
  deriving DecidableEq, Repr

/-- The pair's registers and the takeover latch (R361, R366, R369, R374): the holder and the requests unanswered in
order, the twin that drives every port (none: each its own), the command in progress with its twin and whether its
handover has been sent, the fatal causes and the time of the last, the takeover sweep, and the dump. -/
structure PairSt where
  latch : Option TwinId := none
  asks : List TwinId := []
  driver : Option TwinId := none
  isFatal : Bool := false
  op : Option (PairOp × TwinId) := none
  handed : Bool := false
  status : Nat := 0
  cause0 : Nat := 0
  cause1 : Nat := 0
  causeTime : Nat := 0
  /-- The takeover sweep of the circulation records is in progress (R362). -/
  sweeping : Bool := false
  dumpBusy : Bool := false
  dumpDone : Bool := false
  dumpPartial : Bool := false
  dumpTwin : TwinId := .t0
  dumpStatus : Nat := 0
  /-- The banks of the pair island's SRAM groups (R352, R357, R358), which no twin's loss resets. -/
  groups : SMap SramGroup := []
  deriving DecidableEq, Repr

/-! ### Start-up and the pair's own registers (11, 16, 01 R33) -/

/-- Bring-up (R398 to R406): ERROR, CAUSE and TESTED of BOOT_STAT, READY_US; whether the desk clock is locked, the
islands with power good, the boot polls answered READY, the images loaded, the header read, the results of the full
self-test, and whether the block is gated. -/
structure Boot where
  error : Nat := 0
  cause : Nat := 0
  tested : Bool := false
  readyUs : Nat := 0
  locked : Bool := false
  good : List Island := []
  polled0 : Bool := false
  polled1 : Bool := false
  loaded0 : Bool := false
  loaded1 : Bool := false
  header : List Nat := []
  test0 : Option Bool := none
  test1 : Option Bool := none
  gated : Bool := false
  deriving DecidableEq, Repr

/-- The registers of the BLK page that name requesters and contexts (R284 to R298), and the owners of the test segments
(R33). -/
structure Mgmt where
  manager : Nat := 0
  denied : Nat := 0
  cmdBusy : Bool := false
  cmdStat : Nat := 0
  victim : Nat := 0
  seg0 : Option SegmentParty := none
  seg1 : Option SegmentParty := none
  segAon : Option SegmentParty := none
  deriving DecidableEq, Repr
/-! ### The whole -/

/-- What the block drives at its boundary in one step (R17): words on its buses, accesses of its NoC masters, posted
host writes, sideband traffic and the answer of a host read. -/
inductive Output where
  /-- A grant word of R95 on the port of a rack group. -/
  | grant (port word : Nat)
  /-- A 16-bit flush word on a cluster port (R155). -/
  | flush (cluster word : Nat)
  /-- A word on the thread port's grant bus (R313). -/
  | threadWord (word : Nat)
  /-- Credit return of the arrival port (R31). -/
  | linkCredit (t : TwinId) (n : Nat)
  /-- A posted write to host memory: address and bytes as words of 64 bits, or a 4 B message (R299, R302). -/
  | hostWrite (addr : Nat) (words : List Nat)
  | hostMsg (addr data : Nat)
  | nocRead (t : TwinId) (addr len : Nat)
  | nocWrite (t : TwinId) (addr : Nat) (words : List Nat)
  /-- A write of `len` bytes: what the last word holds beyond them is not written. -/
  | nocWriteBytes (t : TwinId) (addr len : Nat) (words : List Nat)
  /-- The way mask of a context to the matrix groups (R130). -/
  | wayMask (ctx ways : Nat)
  /-- Clock and power controls of a domain (R333): started, stopped, gated; and of a scratchpad bank (R334). -/
  | domClock (dom : Nat) (on : Bool)
  | domPower (dom : Nat) (on : Bool)
  | bankPower (cluster bank : Nat) (on : Bool)
  | islandPower (i : Island) (on : Bool)
  | domFreq (mhz : Nat)
  | avs (rail : Rail) (mv : Nat)
  /-- A PMBus transaction: the slave's address, the command code, and whether it carries a packet error code (R341). -/
  | pmbus (addr cmd : Nat) (pec : Bool)
  /-- The value of a host read, or an unsupported-request completion (R9). -/
  | reply (value : Nat)
  | unsupported
  deriving DecidableEq, Repr

/-- A step of a command's own cascade, taken in order (R54, R84, R162). -/
inductive Work where
  /-- An item applied in a twin (R126, R157, R188). -/
  | item (t : TwinId) (i : EdgeItem)
  /-- Credits that reach the Catalogue of a twin in one desk cycle (R55). -/
  | credits (t : TwinId) (cs : List Credit)
  | evaluate (node org orgId : Nat)
  /-- A Camette-served node is carried out (R39). -/
  | internal (node : Nat)
  /-- A node is taken to FREE (R56). -/
  | freeNode (node : Nat)
  | place (node : Nat) (released again : Bool)
  /-- The completion of a Camette-served node enters Returns (R39, R166). -/
  | internalDone (node : Nat)
  | skipDone (node : Nat)
  /-- Returns goes on with the completion in hand, or with one that waited behind it (R163). -/
  | sendOn (t : TwinId)
  | retLater (t : TwinId) (l : RetLater)
  /-- A binding of a batch has been freed (R224, R230). -/
  | unbound (sel : Nat)
  /-- A waiter's flush or drain has ended, or timed out (R153, R159). -/
  | flushEnd (w : Waiter) (ok : Bool)
  | drainEnd (w : Waiter) (ok : Bool)
  /-- Pending moves and insertion waits are tried again (R140). -/
  | retryMoves (t : TwinId)
  | retryWaits (t : TwinId)
  | retryProxy (t : TwinId) (group : Nat)
  | holdRelease (t : TwinId) (ctx : Nat)
  /-- The Larder takes the next offer of a context (R185). -/
  | decide (t : TwinId) (ctx : Nat)
  /-- The twin becomes fatal with a cause (R360). -/
  | twinFatal (t : TwinId) (cause : Nat)
  /-- A word that waited in the crossing of a halted or lost twin is taken (R21, R393). -/
  | crossing (i : Instr)
  /-- A window write that was held for want of room in a park buffer is taken (R72). -/
  | heldWrite (w : HeldWrite)
  deriving DecidableEq, Repr

/-- The state of a twin (R359). -/
inductive TwinSt where
  | inService | detaching | detached | rejoining | fatal | recovering
  deriving DecidableEq, Repr

/-- The step of a teardown (R305). -/
inductive TearStep where
  | queued | sweep | wait | scrub
  deriving DecidableEq, Repr

/-- An entry of a fault queue (R304) with the progress of its teardown (R305, R363): the further contexts of a combined
teardown, whether it is that of a takeover, which takes no place of the queue, whether the partner's SWEPT has arrived, and
the scrub units not yet read as 0. -/
structure FaultEnt where
  ctx : Nat := 0
  others : List Nat := []
  lost : Bool := false
  step : TearStep := .queued
  swept : Bool := false
  scrubs : List ScrubUnit := []
  deriving DecidableEq, Repr

/-- A twin: the units of R13 that exist once in each twin. -/
structure Twin where
  cat : Cat := {}
  acc : Acc := {}
  rack : Rack := {}
  desk : Desk := {}
  shelf : Shelf := {}
  ret : Ret := {}
  lard : Lard := {}
  obs : Obs := {}
  ctxs : SMap CtxTw := []
  sort : Sorter := {}
  bank : Bank := {}
  office : Office := {}
  bake : Bake := {}
  thrd : ThreadDesk := {}
  rel : RelUnit := {}
  /-- The Archivist's fault queue, the first entry in hand (R304), and the contexts fenced by a takeover that await their
  combined teardown (R363). -/
  faultQ : List FaultEnt := []
  combined : List Nat := []
  /-- Words that wait in the port crossings while the twin samples none (R21, R393). -/
  crossing : List Instr := []
  /-- Bridge channels toward this twin (R15). -/
  edgeIn : List EdgeItem := []
  claimIn : List ClaimItem := []
  ctrlIn : List ControlItem := []
  svc : TwinSt := .inService
  /-- Halted by a freeze (R393). -/
  halted : Bool := false
  deriving DecidableEq, Repr

/-- The block, but for the commands that wait. -/
structure Block where
  tw0 : Twin := {}
  tw1 : Twin := {}
  ctxs : SMap Ctx := []
  pages : SMap Page := []
  engines : SMap Engine := []
  flushes : SMap Flush := []
  /-- Ports whose claims the driving twin holds back for the Proofer, by first rack group (R336). -/
  holds : SMap Bool := []
  /-- Tube endpoints of the tiles, by ENGINE_ID × 8 + slot (R263). -/
  sendEps : SMap SendEp := []
  recvEps : SMap RecvEp := []
  /-- Window writes held at their writers while a park buffer is full (R72), in order. -/
  heldWrites : List HeldWrite := []
  fmt : Fmt := {}
  freeze : FreezeSt := {}
  arb : Arb := {}
  proof : Proofer := {}
  pair : PairSt := {}
  boot : Boot := {}
  mgmt : Mgmt := {}
  /-- Fuses burned, by (twin × 256 + group) × 256 + physical bank (R407). -/
  fuses : SMap Nat := []
  /-- Bank replacements burned (R407), by twin × 256 + group: the logical bank that the spare stands in for, plus one. -/
  fuseBanks : SMap Nat := []
  /-- BOOT_STAT.PHASE (R405). -/
  phase : Nat := 0
  /-- The age stamp of the next claim (R94). -/
  claimSeq : Nat := 0
  /-- The number of the next wait on a flush or a drain. -/
  serial : Nat := 0
  /-- Tally ticks since reset (R16). -/
  ticks : Nat := 0
  /-- Global time (R3, R343), and its copy on the desk side. -/
  time : Nat := 0
  work : List Work := []
  /-- Credits that fell to a halted twin inside it, which applies none until it resumes (R393). -/
  heldSteps : List Work := []
  out : List Output := []
  deriving DecidableEq, Repr

/-- The state of the machine: the block, and the queue of the commands that wait, first in, first out. -/
structure State where
  blk : Block
  pending : List Instr
  deriving DecidableEq, Repr

/-- The reasons a step can end in a fault. No meaning raises one: the spec gives every command an effect. -/
inductive Fault where
  /-- Raised by no meaning. Safe. -/
  | none
  deriving DecidableEq, Repr

/-- The reasons a step can be refused. -/
inductive Refusal where
  /-- Raised only by a dispatch arm whose command has no meaning yet. Safe: nothing is claimed of such a command. -/
  | notModelled (mnemonic : String)
  deriving DecidableEq, Repr

/-- The machine right after reset: every register at its reset value, every store empty, no command waiting. -/
def State.reset : State := { blk := {}, pending := [] }

end Sys2Proof.Machine
end

