-- ==== Sys2Proof/Machine/Ops.lean ====
section
/-! DEFINITION. The named operations over the state that every unit shares: reading and replacing its parts,
counters and error bits, the Bridge, trace records, the freeze, and a context fault. -/

namespace Sys2Proof.Machine

/-! ### Parts of the state -/

def tw (s : Block) : TwinId → Twin
  | .t0 => s.tw0
  | .t1 => s.tw1

def upTw (t : TwinId) (f : Twin → Twin) (s : Block) : Block :=
  match t with
  | .t0 => { s with tw0 := f s.tw0 }
  | .t1 => { s with tw1 := f s.tw1 }

def ctxOf (s : Block) (k : Nat) : Ctx := mapGet {} s.ctxs k

def upCtx (k : Nat) (f : Ctx → Ctx) (s : Block) : Block :=
  { s with ctxs := mapSet {} s.ctxs k (f (ctxOf s k)) }

def ctxTw (s : Block) (t : TwinId) (k : Nat) : CtxTw := mapGet {} (tw s t).ctxs k

def upCtxTw (t : TwinId) (k : Nat) (f : CtxTw → CtxTw) (s : Block) : Block :=
  upTw t (fun w => { w with ctxs := mapSet {} w.ctxs k (f (mapGet {} w.ctxs k)) }) s

def nodeOf (s : Block) (id : Nat) : Node := mapGet {} (tw s (homeOf id)).cat.nodes (slotOf id)

def setNode (id : Nat) (n : Node) (s : Block) : Block :=
  upTw (homeOf id) (fun w => { w with cat := { w.cat with nodes := mapSet {} w.cat.nodes (slotOf id) n } }) s

/-- The owner of a slot of the insertion pool (R352): its context plus one, or 0 for none. -/
def setOwner (t : TwinId) (x v : Nat) (s : Block) : Block :=
  upTw t (fun w => { w with shelf := { w.shelf with owners := mapSet 0 w.shelf.owners x v } }) s

def upNode (id : Nat) (f : Node → Node) (s : Block) : Block := setNode id (f (nodeOf s id)) s

def engOf (s : Block) (e : Nat) : Engine := mapGet {} s.engines e

def upEng (e : Nat) (f : Engine → Engine) (s : Block) : Block :=
  { s with engines := mapSet {} s.engines e (f (engOf s e)) }

def flushOf (s : Block) (c : Nat) : Flush := mapGet {} s.flushes c

def upFlush (c : Nat) (f : Flush → Flush) (s : Block) : Block :=
  { s with flushes := mapSet {} s.flushes c (f (flushOf s c)) }

def recOf (s : Block) (t : TwinId) (i : Nat) : CircRec := mapGet {} (tw s t).desk.recs i

def setRec (t : TwinId) (i : Nat) (r : CircRec) (s : Block) : Block :=
  upTw t (fun w => { w with desk := { w.desk with recs := mapSet {} w.desk.recs i r } }) s

/-- The steps of a command's cascade still to be taken grow at the tail. -/
def pushWork (ws : List Work) (s : Block) : Block := { s with work := s.work ++ ws }

/-- The CREDIT and SKIP_CREDIT items of R157. -/
def isCredit : EdgeItem → Bool
  | .credit _ => true
  | _ => false

/-- The twin to which a step falls that waits while the twin is halted (R393): it applies no credit, completes and places no
node, and releases no holding rack. -/
def stepTwin : Work → Option TwinId
  | .item t i => if isCredit i then some t else none
  | .credits t _ => some t
  | .internalDone n => some (homeOf n)
  | .skipDone n => some (homeOf n)
  | .place n _ _ => some (homeOf n)
  | .holdRelease t _ => some t
  | _ => none

/-- A step that places nodes again (R133). -/
def isAgain (w : Work) : Bool := match w with
  | .place _ _ b => b
  | .retryWaits _ => true
  | _ => false

/-- A step is taken ahead of every re-placement that waits, behind the placements of nodes that turned READY before (R133). -/
def beforeAgain (x : Work) (s : Block) : Block :=
  { s with work := s.work.takeWhile (fun w => !(isAgain w)) ++ x :: s.work.dropWhile (fun w => !(isAgain w)) }

/-- Each time a pool slot or a wait-table entry of a twin is freed, its pending moves are tried first, and then the nodes of its
insertion wait rack (R140), which are re-placements and take their turn behind those that arose before (R133). -/
def retryFirst (t : TwinId) (s : Block) : Block :=
  let s1 := pushWork [.retryWaits t] s
  { s1 with work := .retryMoves t :: s1.work }

/-- A node that has just turned READY is placed ahead of every re-placement that waits (R133). -/
def placeFirst (id : Nat) (s : Block) : Block := beforeAgain (.place id false false) s

def emit (o : Output) (s : Block) : Block := { s with out := s.out ++ [o] }

/-- A function applied for each element of a list, in order. -/
def forEach {α : Type} (xs : List α) (f : α → Block → Block) (s : Block) : Block :=
  xs.foldl (fun s x => f x s) s

/-! ### Pages, registers, counters and error bits (R409, R412, R377) -/

def blkKey : Nat := 0
def pwrKey : Nat := 1
def timeKey : Nat := 2
def fmtKey : Nat := 3
/-- The key of a twin page: its page offset divided by 0x1000 is p (R410, R420). -/
def twKey (t : TwinId) (p : Nat) : Nat := 16 + 16 * twinNum t + p
def ctxKey (k : Nat) : Nat := 256 + k

def accP : Nat := 0
def catP : Nat := 1
def rackP : Nat := 2
def deskP : Nat := 3
def shlfP : Nat := 4
def retP : Nat := 5
def lardP : Nat := 6
def sortP : Nat := 7
def talyP : Nat := 8
def tubeP : Nat := 9
def bakeP : Nat := 10
def thrdP : Nat := 11
def relP : Nat := 12
def cntP : Nat := 13
def daybP : Nat := 14
def invP : Nat := 15

/-- The page type of R410 for a page key. -/
def pageType (key : Nat) : Nat :=
  if key < 4 then key + 1 else if key < 256 then 0x10 + key % 16 else 0x20

/-- The reset value of a read-write register by page type and offset, where it is not zero. -/
def regReset (ty off : Nat) : Nat :=
  match ty, off with
  | 0x01, 0x230 => 1000 * 2 ^ 16 + 5000
  | 0x01, 0x238 => 100
  | 0x01, 0x250 => 0x10
  | 0x01, 0x260 => 100
  | 0x02, 0x118 => 1000 * 2 ^ 16 + 50
  | 0x02, 0x120 => 3 * 2 ^ 56 + 50 * 2 ^ 32
  | 0x02, 0x138 => 20 * 2 ^ 40 + 800 * 2 ^ 16 + 750
  | 0x02, 0x140 => 400 * 2 ^ 16 + 620
  | 0x02, 0x148 => 550 * 2 ^ 16 + 650
  | 0x02, 0x150 => 700 * 2 ^ 16 + 680
  | 0x02, 0x158 => 800 * 2 ^ 16 + 700
  | 0x02, 0x160 => 900 * 2 ^ 16 + 730
  | 0x02, 0x168 => 1000 * 2 ^ 16 + 760
  | 0x02, 0x170 => 1125 * 2 ^ 16 + 800
  | 0x02, 0x178 => 1250 * 2 ^ 16 + 850
  | 0x03, 0x180 => 10 * 2 ^ 16 + 1024
  | 0x13, 0x100 => 256 * 2 ^ 16 + 16 * 2 ^ 8 + 4
  | 0x15, 0x108 => 128 * 2 ^ 16 + 16
  | 0x1B, 0x108 => 100
  | 0x1C, 0x130 => 2 ^ 63 + 100
  | 0x1C, 0x138 => 2 ^ 63 + 1000
  | 0x1E, 0x100 => 11
  | 0x20, 0x100 => 2
  | 0x20, 0x120 => 0x40
  | 0x20, 0x208 => 8
  | 0x20, 0x218 => 0x21000
  | 0x20, _ => if 0x388 ≤ off ∧ off ≤ 0x478 ∧ off % 16 = 8 then 2 ^ 63 else 0
  | _, _ => 0

def pageOf (s : Block) (key : Nat) : Page := mapGet {} s.pages key

def upPage (key : Nat) (f : Page → Page) (s : Block) : Block :=
  { s with pages := mapSet {} s.pages key (f (pageOf s key)) }

/-- The value of a register in effect (R7). -/
def reg (s : Block) (key off : Nat) : Nat :=
  (mapGet none (pageOf s key).regs off).getD (regReset (pageType key) off)

/-- A register takes a value; at its reset value it is not listed. -/
def setReg (key off v : Nat) (s : Block) : Block :=
  upPage key (fun p => { p with
    regs := mapSet none p.regs off (if v = regReset (pageType key) off then none else some v) }) s

def setErr (key bit : Nat) (s : Block) : Block :=
  upPage key (fun p => { p with errStat := p.errStat ||| 2 ^ bit }) s

/-- An always-on counter of a page grows, saturating (R377). -/
def bump (key off n : Nat) (s : Block) : Block :=
  upPage key (fun p => { p with ctrs := mapSet 0 p.ctrs off (satAdd ctrMax (mapGet 0 p.ctrs off) n) }) s

def ctr (s : Block) (key off : Nat) : Nat := mapGet 0 (pageOf s key).ctrs off

/-- An accounting counter of a context (R308). -/
def bumpCtx (k off n : Nat) (s : Block) : Block := bump (ctxKey k) off n s

/-- A LAST_FAULT word in the layout that CAT, ACC, LARD, SORT and TALY share: VALID, CODE, CONTEXT. -/
def lastWord (code k : Nat) : Nat := 2 ^ 63 + (code % 256) * 2 ^ 48 + (k % 256) * 2 ^ 40

/-! ### Window writes discarded, and writes held at their writers (R65, R72) -/

/-- A discarded window write is counted in the twin that NODE_BANK named at its arrival (R65). -/
def discardIn (t : TwinId) (s : Block) : Block := bump (twKey t accP) 0x70 1 s

/-- The window writes held at their writers are offered again, in order (R72). -/
def offerHeld (s : Block) : Block := pushWork (s.heldWrites.map .heldWrite) { s with heldWrites := [] }

/-! ### Ranges (R70) -/

def rangeEn (r : Nat) : Bool := bitOf r 63

/-- A slot lies in a range given by bank fields [8:0] and [24:16] of 1,024 slots. -/
def inNodeRange (r slot : Nat) : Bool :=
  rangeEn r && decide (fld r 8 0 ≤ slot / 1024) && decide (slot / 1024 ≤ fld r 24 16)

/-- A slot lies in a range given by bank fields [9:0] and [25:16] of 4,096 slots. -/
def inFwdRange (r slot : Nat) : Bool :=
  rangeEn r && decide (fld r 9 0 ≤ slot / 4096) && decide (slot / 4096 ≤ fld r 25 16)

/-- A slot lies in the variable region of VAR_RANGE (R70). -/
def inVarRange (r slot : Nat) : Bool :=
  rangeEn r && decide (fld r 18 0 ≤ slot) && decide (slot ≤ fld r 50 32)

/-- VAR_FIRST of MIR_RANGE as it acts (R70): held between FIRST and LAST + 1. -/
def varFirst (r : Nat) : Nat :=
  let v := fld r 41 32
  if v < fld r 9 0 then fld r 9 0 else if v > fld r 25 16 + 1 then fld r 25 16 + 1 else v

/-! ### Service of the twins and the engines -/

/-- The twin drives ports and takes part on the Bridge (R359). -/
def serves (s : Block) (t : TwinId) : Bool := (tw s t).svc == .inService || (tw s t).svc == .detaching

/-- Service is declared: PHASE is RUN (R404, R405). -/
def declared (s : Block) : Bool := s.phase == 9

/-- The twin acts: it serves, is not halted, and has power, and the pair is not fatal (R14, R359, R369, R393). -/
def live (s : Block) (t : TwinId) : Bool := serves s t && !(tw s t).halted && !s.boot.gated && !s.pair.isFatal

/-- The twin that is primary for a rack group: the group's own (R2, R86), or the twin that drives every port after a
takeover or a handover (R336, R362, R366). -/
def primary (s : Block) (g : Nat) : TwinId := s.pair.driver.getD (primaryOfGroup g)

/-- Some engine of a rack group is in service. -/
def groupServed (s : Block) (g : Nat) : Bool :=
  let r := groupEngines g
  (List.range r.2).any fun i => (engOf s (r.1 + i)).inService

/-- A rack group is a candidate's group in a twin (R131, R143): in its primary twin at once, in the partner as the
SERVICE items it has received say. -/
def groupUp (s : Block) (t : TwinId) (g : Nat) : Bool :=
  if primary s g = t then groupServed s g else mapGet false (tw s t).shelf.served g

/-! ### Trace records and optional counters (R379, R384 to R388) -/

/-- The context of an event that belongs to none: no filter of R379 on a context names it. -/
def noCtx : Nat := 256

/-- The event counts in every running optional counter of the twin whose filters it passes; `useCtx` is false for an event
that ignores the filter on context (R379). -/
def optEvent (t : TwinId) (code k : Nat) (useCtx : Bool) (group : Option Nat) (n : Nat) (s : Block) : Block :=
  upTw t (fun w => { w with obs := { w.obs with opts := mapAll {} (fun _ o =>
    if o.run && decide (fld o.cfg 47 40 = code)
      && (!useCtx || bitOf o.cfg 39 || decide (fld o.cfg 38 31 = k))
      && (match group with
          | none => true
          | some g => bitOf o.cfg 30 || decide (fld o.cfg 29 22 = g))
    then { o with value := satAdd ctrMax o.value n } else o) w.obs.opts } }) s

def upObs (t : TwinId) (f : Obs → Obs) (s : Block) : Block := upTw t (fun w => { w with obs := f w.obs }) s

/-- The Day Book's ring is enabled (R389). -/
def bookOn (s : Block) (t : TwinId) : Bool := bitOf (reg s (twKey t daybP) 0x100) 63

/-- The ring's size in records. -/
def bookSize (s : Block) (t : TwinId) : Nat := 2 ^ max 11 (min 27 (fld (reg s (twKey t daybP) 0x100) 4 0))

/-- The oldest staged record is driven to the ring: on a full ring RD advances and LOST counts first (R385). DESIGN CHOICE
(log entry 54): one write at a time. -/
def driveRing (t : TwinId) (s : Block) : Block :=
  let key := twKey t daybP
  let o := (tw s t).obs
  match o.staged with
  | [] => s
  | r :: _ =>
    if o.ringOut || !(bookOn s t) then s
    else
      let full := decide (o.wr - o.rd ≥ bookSize s t)
      let addr := fld (reg s key 0x100) 47 16 * 2 ^ 16 + (o.wr % bookSize s t) * 32
      let s1 := upObs t (fun o => { o with ringOut := true, rd := if full then o.rd + 1 else o.rd }) s
      emit (.nocWrite t addr [r.w0, r.time, r.w2, r.hi3 * 2 ^ 32 + o.wr % 2 ^ 32])
        (if full then bump key 0x48 1 s1 else s1)

/-- Records that a staging buffer holds (R384). -/
def stageRoom : Nat := 2048

/-- A trace record is staged, or dropped and counted when staging is full (R384). -/
def stageRec (t : TwinId) (r : TraceRec) (s : Block) : Block :=
  if (tw s t).obs.staged.length ≥ stageRoom then
    bump (twKey t daybP) 0x50 1 (upObs t (fun o => { o with lostSince := o.lostSince + 1 }) s)
  else driveRing t (upObs t (fun o => { o with staged := o.staged ++ [r] }) s)

/-- With room in staging again, one LOST record carries the number of records dropped since the last (R384). -/
def stageLost (t : TwinId) (s : Block) : Block :=
  let o := (tw s t).obs
  if o.lostSince = 0 ∨ o.staged.length ≥ stageRoom ∨ bookOn s t = false then s
  else
    stageRec t { w0 := 0x0E * 2 ^ 56 + twinNum t * 2 ^ 47, time := s.time, w2 := o.lostSince % 2 ^ 32 }
      (upObs t (fun o => { o with lostSince := 0 }) s)

/-- A record in the layout of R387. -/
def traceWord (time : Nat) (t : TwinId) (ty : Nat) (k : Option Nat) (node aux w2 hi3 : Nat) : TraceRec :=
  { w0 := ty * 2 ^ 56 + (k.getD 0 % 256) * 2 ^ 48 + twinNum t * 2 ^ 47 + (node % 2 ^ 20) * 2 ^ 20 + aux % 2 ^ 20,
    time := time, w2 := w2, hi3 := hi3 % 2 ^ 32 }

/-- A record of R387, stamped with a time (R386), is made when the ring is enabled and, for the types of TYPE_MASK, its type
and context pass TYPE_MASK and CTX_FILTER (R388). `k` is none for a record that names no context. -/
def traceAt (time : Nat) (t : TwinId) (ty : Nat) (k : Option Nat) (node aux w2 hi3 : Nat) (s : Block) : Block :=
  let key := twKey t daybP
  let filt := reg s key 0x120
  let pass := (if ty ≤ 10 then bitOf (reg s key 0x118) ty else true)
    && (match k with
        | none => true
        | some c => !(bitOf filt 63) || decide (fld filt 7 0 = c) || decide (ty > 10))
  if bookOn s t && pass then stageRec t (traceWord time t ty k node aux w2 hi3) s else s

/-- WAIT records are staged while staging has room; the rest waits for it (R384, R390). -/
def stageWaits (t : TwinId) : List TraceRec → Block → Block
  | [], s => s
  | r :: rs, s =>
    if (tw s t).obs.staged.length ≥ stageRoom then upObs t (fun o => { o with wfgOut := o.wfgOut ++ r :: rs }) s
    else stageWaits t rs (stageRec t r s)

/-- A record of an event of this desk cycle. -/
def trace (t : TwinId) (ty : Nat) (k : Option Nat) (node aux w2 hi3 : Nat) (s : Block) : Block :=
  traceAt s.time t ty k node aux w2 hi3 s

/-- A time difference as a record's word 3 holds it, saturating (R387). -/
def sat32 (n : Nat) : Nat := if n ≥ 2 ^ 32 then 2 ^ 32 - 1 else n

/-! ### The Bridge (R15) -/

/-- An item is sent to a twin: applied in the same step when sender and receiver are one twin, and otherwise put on the edge
channel, where RET.CROSS_CREDITS counts each CREDIT and SKIP_CREDIT item (R15, R174). Nothing is sent to a twin that does not
serve. -/
def sendItem (frm dst : TwinId) (i : EdgeItem) (s : Block) : Block :=
  if frm = dst then pushWork [.item dst i] s
  else if serves s dst then
    let s1 := upTw dst (fun w => { w with edgeIn := w.edgeIn ++ [i] }) s
    if isCredit i then bump (twKey frm retP) 0x70 1 s1 else s1
  else s

def sendClaim (dst : TwinId) (i : ClaimItem) (s : Block) : Block :=
  if serves s dst then upTw dst (fun w => { w with claimIn := w.claimIn ++ [i] }) s else s

def sendCtrl (dst : TwinId) (i : ControlItem) (s : Block) : Block :=
  upTw dst (fun w => { w with ctrlIn := w.ctrlIn ++ [i] }) s

/-- The head of the edge channel toward a twin, when it is of the kind asked for. -/
def takeEdge (t : TwinId) (p : EdgeItem → Bool) (s : Block) : Option (EdgeItem × Block) :=
  match (tw s t).edgeIn with
  | i :: rest => if p i then some (i, upTw t (fun w => { w with edgeIn := rest }) s) else none
  | [] => none

def takeClaim (t : TwinId) (p : ClaimItem → Bool) (s : Block) : Option (ClaimItem × Block) :=
  match (tw s t).claimIn with
  | i :: rest => if p i then some (i, upTw t (fun w => { w with claimIn := rest }) s) else none
  | [] => none

def takeCtrl (t : TwinId) (p : ControlItem → Bool) (s : Block) : Option (ControlItem × Block) :=
  match (tw s t).ctrlIn with
  | i :: rest => if p i then some (i, upTw t (fun w => { w with ctrlIn := rest }) s) else none
  | [] => none

/-! ### The freeze and context faults (R381, R303, R304, R306) -/

/-- A freeze is raised (R381): ignored and counted while one is pending or in effect. -/
def raiseFreeze (t : TwinId) (s : Block) : Block :=
  if s.freeze.pending || s.freeze.frozen.isSome then
    { s with freeze := { s.freeze with ignored := satAdd 255 s.freeze.ignored 1 } }
  else
    sendCtrl (partner t) (.freeze s.ticks)
      { s with freeze := { s.freeze with pending := true, tick := s.ticks } }

/-- The fence of a context is raised in a twin; FENCE_EFFECT follows 8 dc later (R303). -/
def raiseFence (t : TwinId) (k : Nat) (s : Block) : Block :=
  if (ctxTw s t k).fenced then s else upCtxTw t k (fun c => { c with fencePend := true }) s

/-- The context has an entry in the twin's fault queue, or awaits the combined teardown of a takeover (R304, R363). -/
def hasEntry (s : Block) (t : TwinId) (k : Nat) : Bool :=
  (tw s t).faultQ.any (fun e => e.ctx == k || e.others.contains k) || (tw s t).combined.contains k

/-- Entries that a fault queue holds: the contexts of a takeover take none (R304, R363). -/
def entriesHeld (s : Block) (t : TwinId) : Nat := ((tw s t).faultQ.filter fun e => !e.lost).length

/-- An entry of the home twin's fault queue; with 64 entries held the twin becomes fatal (R304, R360). -/
def queueFault (t : TwinId) (k : Nat) (s : Block) : Block :=
  if hasEntry s t k then s
  else if entriesHeld s t ≥ 64 then pushWork [.twinFatal t 3] (setErr (twKey t relP) 1 s)
  else upTw t (fun w => { w with faultQ := w.faultQ ++ [{ ctx := k }] }) s

/-- FAULT_STAT of a fault, with MORE 0 (R306). -/
def faultWord (t : TwinId) (code node : Nat) : Nat :=
  2 ^ 63 + twinNum t * 2 ^ 62 + (code % 256) * 2 ^ 48 + node % 2 ^ 20

/-- A further fault of a context (R304): MORE grows; of two faults with one time Twin 0's is kept. -/
def addMore (t : TwinId) (code node time : Nat) (c : Ctx) : Ctx :=
  if !(bitOf c.faultStat 63) then { c with faultStat := faultWord t code node, faultTime := time }
  else
    let more := satAdd 255 (fld c.faultStat 47 40) 1
    let kept := if c.faultTime = time && bitOf c.faultStat 62 && t = .t0 then faultWord t code node
                else c.faultStat
    { c with faultStat := setFld kept 47 40 more }

/-- A unit of twin t raises a context fault (R289, R303, R304, R306). -/
def raiseFault (t : TwinId) (k code node : Nat) (s : Block) : Block :=
  let c := ctxOf s k
  if c.st = .closed then s
  else
    let s1 := trace t 0x0A (some k) node (code % 256) 0 0 s
    let s2 := if bitOf (reg s blkKey 0x250) 5 then raiseFreeze t s1 else s1
    let s3 := raiseFence t k s2
    if c.st = .opened then
      let s4 := upCtx k (fun c => { c with
        st := .fenced, tear := .fault, nodeBank := 0, edgeBank := 0,
        faultStat := faultWord t code node, faultTime := s.time }) s3
      let s5 := sendCtrl (partner t) (.fence k false) s4
      if c.home = t then queueFault t k s5 else s5
    else
      let s4 := upCtx k (addMore t code node s.time) s3
      if c.st = .fenced ∧ c.home = t then queueFault t k s4 else s4

/-- The context is open and not fenced in the twin, so the twin still acts for it (R303). -/
def unfenced (s : Block) (t : TwinId) (k : Nat) : Bool := !(ctxTw s t k).fenced

/-- A CLASS as it acts: LC only in an LC context (R291). -/
def actLc (s : Block) (k : Nat) (lc : Bool) : Bool := lc && bitOf (reg s (ctxKey k) 0x100) 0

end Sys2Proof.Machine
end

