-- ==== Sys2Proof/Machine/Catalogue.lean ====
section
/-! DEFINITION. The Catalogue (02): readiness, evaluation, credits, the seal checks and the timing wheel. -/

namespace Sys2Proof.Machine

/-! ### Kinds (R39) -/

def kTile : Nat := 0
def kMatrix : Nat := 1
def kGather : Nat := 2
def kScatter : Nat := 3
def kCopy : Nat := 4
def kRoute : Nat := 5
def kExpert : Nat := 6
def kRebake : Nat := 7
def kFence : Nat := 8
def kJoin : Nat := 9
def kNotify : Nat := 10
def kStepMark : Nat := 11
def kThreadWake : Nat := 12

/-- An engine serves the kind (R39). -/
def engineServed (kind : Nat) : Bool := decide (kind ≤ 7)

/-- The kind whose engine serves the node: ORIG_KIND of a REBAKE (R39, R131). -/
def servedKind (n : Node) : Nat := if n.kind = kRebake then n.origKind else n.kind

/-- A forward node of KIND TILE or ROUTE, or a REBAKE of one, runs on a tile. -/
def tileLike (n : Node) : Bool := servedKind n = kTile || servedKind n = kRoute

/-! ### Readiness (R50, R53) -/

/-- The time target of a TIMED node, in units of 1,024 ns (R53). -/
def timeTarget (n : Node) : Nat := n.mask * 2 ^ 24 + n.cf

/-- Global time has reached a time target (R53). -/
def reached (time target : Nat) : Bool :=
  decide (((time / 1024) % 2 ^ 48 + 2 ^ 48 - target % 2 ^ 48) % 2 ^ 48 < 2 ^ 47)

/-- The node is ready (R50): MODE 0 COUNT, 1 ALL, 2 ANY, 3 TIMED. -/
def isReady (time : Nat) (n : Node) : Bool :=
  match n.mode with
  | 0 => n.cf == 0
  | 1 => n.cf &&& n.mask == n.mask
  | 2 => n.cf &&& n.mask != 0
  | _ => reached time (timeTarget n)

/-! ### Lists a node can be linked into (R44) -/

def bucketOf (n : Node) : Nat := n.cf % 4096

def wheelUnlink (id : Nat) (n : Node) (s : Block) : Block :=
  upTw (homeOf id) (fun w => { w with cat := { w.cat with
    wheel := mapSet [] w.cat.wheel (bucketOf n) ((mapGet [] w.cat.wheel (bucketOf n)).erase (slotOf id)) } }) s

/-- The node enters its bucket of the wheel. DESIGN CHOICE (log entry 97): at the tail, as R53 does not say where. -/
def wheelLink (id : Nat) (n : Node) (s : Block) : Block :=
  let b := mapGet [] (tw s (homeOf id)).cat.wheel (bucketOf n)
  if b.contains (slotOf id) then s
  else upTw (homeOf id) (fun w => { w with cat := { w.cat with
    wheel := mapSet [] w.cat.wheel (bucketOf n) (b ++ [slotOf id]) } }) s

/-- A lane after a sweep has taken slots out of it: the rest keep their order, and the cache refills (R87, R88). -/
def laneSweep (gone : Nat → Bool) (l : Lane) : Lane :=
  if l.slots.any gone then
    let rest := l.slots.filter (fun x => !(gone x))
    { l with slots := rest, refills := min 2 rest.length }
  else l

/-- A wait-table entry without a node; it is free when it holds no move (R139). -/
def waitWithout (x : Nat) (e : WaitEnt) : WaitEnt :=
  if (e.nodes.erase x).isEmpty && !e.moving then {} else { e with nodes := e.nodes.erase x }

/-- A slot is taken out of every rack of its twin: lanes, the proxy-out list, holding, unplaceable, move and
insertion wait racks (R44); a wait-table entry that this leaves empty is freed (R139, R140). -/
def rackUnlink (id : Nat) (s : Block) : Block :=
  let x := slotOf id
  let freed := (tw s (homeOf id)).shelf.waits.any fun p => p.2.nodes == [x] && !p.2.moving
  (if freed then retryFirst (homeOf id) else (fun s => s)) <| upTw (homeOf id) (fun w => { w with
    rack := { w.rack with
      lanes := mapAll {} (fun _ l => laneSweep (fun y => y == x) l) w.rack.lanes
      proxyOut := mapAll [] (fun _ l => l.erase x) w.rack.proxyOut
      keptNoRec := w.rack.keptNoRec.erase x }
    shelf := { w.shelf with
      waits := mapAll {} (fun _ e => waitWithout x e) w.shelf.waits
      insWait := w.shelf.insWait.erase x }
    ctxs := mapAll {} (fun _ c => { c with
      holdNodes := c.holdNodes.erase x
      unplace := c.unplace.erase x }) w.ctxs }) s

/-- The narrow-credit entry of a node is freed (R154). -/
def narrowFree (id : Nat) (s : Block) : Block :=
  upTw (homeOf id) (fun w => { w with ret := { w.ret with
    narrow := mapAll {} (fun _ e => if e.valid && e.node == id then {} else e) w.ret.narrow } }) s

/-- The node's binding is freed, which may free its batch's slot (R224, R230). -/
def unbind (id : Nat) (s : Block) : Block :=
  let sel := mapGet 0 (tw s (homeOf id)).sort.bind (slotOf id)
  if sel = 0 then s
  else pushWork [.unbound sel] (upTw (homeOf id) (fun w => { w with sort := { w.sort with
    bind := mapSet 0 w.sort.bind (slotOf id) 0 } }) s)

/-! ### The queues of Camette's own units -/

/-- The queue of the Recipe sweep (R202): the STEP_MARK being swept, at most 16 that wait, and those that stay READY until
the queue has room; SWEEP_STAT.CTX follows the one being swept (R215). -/
def setSweep (q rest : List Nat) (s : Block) : Block :=
  let q1 := q ++ rest.take (17 - q.length)
  { s with fmt := { s.fmt with
      queue := q1, overflow := rest.drop (17 - q.length),
      lastCtx := match q1 with
        | j :: _ => (nodeOf s j).ctx
        | [] => s.fmt.lastCtx } }

/-- A Camette-served node that waits for its unit leaves that unit's queue. -/
def unitUnlink (id : Nat) (s : Block) : Block :=
  let n := nodeOf s id
  upCtx n.ctx (fun c => { c with notifyQ := c.notifyQ.filter fun q => q.node != id })
    (upTw (homeOf id) (fun w => { w with ret := { w.ret with fences := w.ret.fences.filter fun f => f.node != id } })
      (setSweep (s.fmt.queue.erase id) (s.fmt.overflow.erase id) s))

/-! ### Faults of the Catalogue (R56, R62, R63) -/

/-- The node goes to FAULTED and leaves every list, a unit's queue too (R44, R56, R202). -/
def faultNode (id : Nat) (s : Block) : Block :=
  let n := nodeOf s id
  if n.st = .free then s
  else
    let s1 := if n.st = .waiting ∧ n.mode = 3 then wheelUnlink id n s else s
    let s2 := if n.st = .ready then rackUnlink id (unitUnlink id s1) else s1
    unbind id (narrowFree id (upNode id (fun n => { n with st := .faulted }) s2))

/-- The Catalogue of a twin raises a context fault and records it (R62). -/
def catFault (t : TwinId) (k code src node : Nat) (s : Block) : Block :=
  raiseFault t k code node
    (bump (twKey t catP) 0x78 1
      (upTw t (fun w => { w with cat := { w.cat with
          lastFault := lastWord code k + (src % 2 ^ 20) * 2 ^ 20 + node % 2 ^ 20 } })
        (setErr (twKey t catP) 1 s)))

/-! ### Evaluation (R54) -/

/-- A transition to READY is counted (R59, R379). -/
def countReady (t : TwinId) (k : Nat) (s : Block) : Block := optEvent t 6 k true none 1 (bump (twKey t catP) 0x48 1 s)

/-- The READY record of a node, with what its turn came from (R387). -/
def readyTrace (id org orgId : Nat) (s : Block) : Block :=
  trace (homeOf id) 0x03 (some (nodeOf s id).ctx) id ((org % 4) * 2 ^ 18) (orgId * 2 ^ 44) 0 s

/-- The node turns READY: it is placed, or carried out inside Camette (R54). -/
def makeReady (id org orgId : Nat) (s : Block) : Block :=
  let t := homeOf id
  let n := nodeOf s id
  let s1 := upNode id (fun n => { n with st := .ready, readyAt := s.time }) s
  let s2 := countReady t n.ctx s1
  let s3 := readyTrace id org orgId s2
  if engineServed n.kind then placeFirst id s3 else pushWork [.internal id] s3

/-- The node goes to SKIPPED: its completion enters Returns as a skip completion (R54, R166). -/
def makeSkipped (id org orgId : Nat) (s : Block) : Block :=
  let t := homeOf id
  let n := nodeOf s id
  let s1 := upNode id (fun n => { n with st := .skipped }) s
  let s2 := optEvent t 7 n.ctx true none 1 (bump (twKey t catP) 0x50 1 s1)
  let s3 := trace t 0x03 (some n.ctx) id ((org % 4) * 2 ^ 18 + 1) (orgId * 2 ^ 44) 0 s2
  pushWork [.skipDone id] (unbind id s3)

/-- A WAITING node is judged (R54); one whose mirror step 2 is outstanding is not judged yet (R76). -/
def evaluate (id org orgId : Nat) (s : Block) : Block :=
  let n := nodeOf s id
  if n.st ≠ .waiting ∨ n.mirHold = true then s
  else if isReady s.time n then
    let s1 := if n.mode = 3 then wheelUnlink id n s else s
    if n.skipPend then makeSkipped id org orgId s1 else makeReady id org orgId s1
  else if n.mode = 3 then wheelLink id n s
  else s

/-! ### Credits (R47, R48, R51, R52, R55) -/

def edgeKind (w : Nat) : Nat := fld w 31 30
def edgeScope (w : Nat) : Nat := fld w 29 28
def edgeAux (w : Nat) : Nat := fld w 27 20
def edgeTarget (w : Nat) : Nat := fld w 19 0

/-- The edge may credit a target of this MODE (R47). -/
def creditAllowed (word mode : Nat) : Bool :=
  match mode with
  | 0 => edgeKind word != 2
  | 1 => edgeKind word == 2 && decide (edgeAux word ≤ 23)
  | 2 => edgeKind word == 2 && decide (edgeAux word ≤ 23)
  | _ => false

/-- The credit finds no target it may reach (R51). -/
def badTarget (n : Node) (c : Credit) : Bool :=
  n.st == .free || (n.st == .loading && !n.cfSet) || n.ctx != c.ctx

/-- A flag is set; a flag already set is an overrun (R52). -/
def setFlag (t : TwinId) (id : Nat) (c : Credit) (s : Block) : Block :=
  let n := nodeOf s id
  let s1 := if bitOf n.cf (edgeAux c.word) then
      bumpCtx n.ctx 0x40 1 (bump (twKey t catP) 0x60 1 s) else s
  upNode id (fun n => { n with cf := n.cf ||| 2 ^ edgeAux c.word }) s1

/-- The backward node's counter falls to 1 with REBAKE_PEND set, so the Larder is sent TRIGGER (R194). -/
def triggerCheck (id before : Nat) (s : Block) : Block :=
  let n := nodeOf s id
  if n.backward && bitOf n.larder 6 && decide (before > 1) && n.cf == 1 && n.mode == 0 then
    sendItem (homeOf id) (ctxOf s n.ctx).home (.trigger id n.ctx) s
  else s

/-- The Sorter of a twin raises a context fault and records it (R235). -/
def sortFault (t : TwinId) (k code reason node : Nat) (s : Block) : Block :=
  raiseFault t k code node
    (upTw t (fun w => { w with sort := { w.sort with
        lastFault := lastWord code k + reason * 2 ^ 36 + node % 2 ^ 20 } })
      (setErr (twKey t sortP) 1 s))

/-- Entries of a twin's binding table (R224). -/
def bindRoom : Nat := 16384

/-- Credits on their way to a twin's Catalogue: on the edge channel, or already handed over within the twin. -/
def creditsToward (s : Block) (t : TwinId) : List Credit :=
  ((tw s t).edgeIn.filterMap fun i => match i with
    | .credit c => some c
    | _ => none)
  ++ (s.work ++ s.heldSteps).flatMap fun w => match w with
    | .credits _ cs => cs
    | .item _ (.credit c) => [c]
    | _ => []

/-- A credit would bind a node that holds no binding (R224). -/
def wantsBinding (s : Block) (c : Credit) : Bool :=
  let g := edgeTarget c.word
  c.epoch != 0 && (nodeOf s g).kind == kExpert && mapGet 0 (tw s (homeOf g)).sort.bind (slotOf g) == 0

/-- Entries of a twin's binding table in use, or kept for the resolutions on their way to nodes other than one (R224; log
entry 27). -/
def bindTaken (s : Block) (t : TwinId) (id : Nat) : Nat :=
  let coming := (creditsToward s t).filter fun c =>
    c.org == 1 && wantsBinding s c && homeOf (edgeTarget c.word) == t && edgeTarget c.word != id
  (tw s t).sort.bind.length + (coming.map fun c => edgeTarget c.word).eraseDups.length

/-- A credit that carries an EPOCH_SEL binds an EXPERT node to its batch; a second batch is refused, and the credit is not
applied (R224). DESIGN CHOICE (log entry 27): of a full table R224 says only that a resolution waits; another credit, one of
an EXPERT task's own, takes no entry kept for a resolution, and where it finds none it is applied and leaves its target
unbound. The credits that go on, and the state. -/
def bindCredit (id : Nat) (c : Credit) (r : List Credit × Block) : List Credit × Block :=
  let t := homeOf id
  let held := mapGet 0 (tw r.2 t).sort.bind (slotOf id)
  if (nodeOf r.2 id).kind ≠ kExpert ∨ c.epoch = 0 ∨ held = c.epoch then (r.1 ++ [c], r.2)
  else if held ≠ 0 then (r.1, sortFault t c.ctx 0x61 0 id r.2)
  else if (if c.org = 1 then (tw r.2 t).sort.bind.length else bindTaken r.2 t id) ≥ bindRoom then (r.1 ++ [c], r.2)
  else (r.1 ++ [c], upTw t (fun w => { w with sort := { w.sort with
    bind := mapSet 0 w.sort.bind (slotOf id) c.epoch } }) r.2)

/-- The credits that have reached one node in one desk cycle are applied together (R55), and the node is judged
once after them. DESIGN CHOICE (log entry 70): of a sum that exceeds the counter, LAST_FAULT.SOURCE names the first credit
past the counter (R62 names no one of them); and with a BAD_EDGE credit among them the first such is raised, before any sum,
and none of the others is applied. -/
def creditNode (id : Nat) (cs : List Credit) (s : Block) : Block :=
  let t := homeOf id
  let n := nodeOf s id
  let cs := cs.filter fun c => unfenced s t c.ctx
  if n.st = .faulted then s
  else
    let sb := forEach (cs.filter (badTarget n)) (fun c s => catFault t c.ctx 0x13 c.src id s) s
    let r := (cs.filter fun c => !(badTarget n c)).foldl (fun r c => bindCredit id c r) ([], sb)
    let good := r.1
    let s0 := r.2
    match good.find? (fun c => !(creditAllowed c.word n.mode)), good with
    | some c, _ => faultNode id (catFault t c.ctx 0x12 c.src id s0)
    | none, [] => s0
    | none, c0 :: rest =>
      if n.mode = 0 ∧ n.cf < rest.length + 1 then
        let c := good.getD n.cf c0
        faultNode id (catFault t c.ctx 0x11 c.src id s0)
      else
        let s1 := if n.mode = 0 then upNode id (fun n => { n with cf := n.cf - (rest.length + 1) }) s0
                  else forEach good (setFlag t id) s0
        let s2 := if good.any (·.skip) then upNode id (fun n => { n with skipPend := true }) s1 else s1
        let s3 := optEvent t 4 n.ctx true none good.length (bump (twKey t catP) 0x40 good.length s2)
        let l := rest.getLastD c0
        if n.st = .waiting then evaluate id l.org l.orgId s3 else s3

/-- R(F) goes to FREE once the last of its credits has been applied or discarded (R195). -/
def leaveCount (c : Credit) (s : Block) : Block :=
  let t := homeOf c.src
  match (tw s t).lard.leaving.find? (fun p => p.1 == c.src && c.org == 0) with
  | none => s
  | some (r, k) =>
    let rest := (tw s t).lard.leaving.filter (fun p => p.1 != r)
    if k ≤ 1 then
      pushWork [.freeNode r] (upTw t (fun w => { w with lard := { w.lard with leaving := rest } }) s)
    else upTw t (fun w => { w with lard := { w.lard with leaving := rest ++ [(r, k - 1)] } }) s

/-- The credits that reach a twin's Catalogue in one desk cycle (R55); the TRIGGERs that follow go in ascending NODE_ID
(R194). -/
def applyCredits (cs : List Credit) (s : Block) : Block :=
  let targets := (cs.map fun c => edgeTarget c.word).eraseDups
  let s1 := forEach targets (fun id s => creditNode id (cs.filter fun c => edgeTarget c.word == id) s) s
  let s2 := forEach (insSort (fun a b => decide (a ≤ b)) targets) (fun id => triggerCheck id (nodeOf s id).cf) s1
  forEach cs leaveCount s2

/-! ### The seal (R43) -/

/-- The seal checks of R43, for software and for mirror nodes. -/
def sealOk (s : Block) (id : Nat) (n : Node) : Bool :=
  let t := homeOf id
  let mt := homeOf n.mirror
  decide (n.mode ≤ 3) && decide (n.load ≤ 2) && decide (n.kind ≤ 12) && n.kind != kRebake
    && n.succBase / 2 ^ 22 == twinNum t
    && decide (n.succBase % 2 ^ 22 + n.succLen ≤ 2 ^ 22)
    && (n.mode != 2 || n.mask != 0)
    && (!n.mirrorEn || (!n.backward && inNodeRange (ctxTw s mt n.ctx).nodeRange (slotOf n.mirror)))

/-- The node goes to WAITING with SEAL set (R56), counted. DESIGN CHOICE (log entry 71): a mirror node, COPY or REBAKE that
Camette seals reads SEAL 1 too. -/
def sealed (id : Nat) (s : Block) : Block :=
  bump (twKey (homeOf id) catP) 0x68 1 (upNode id (fun n => { n with st := .waiting, sealBit := true }) s)

/-! ### The timing wheel (R53) -/

/-- The walk of the bucket of one multiple of 1,024 ns: every node whose target is reached turns ready. -/
def walkBucket (t : TwinId) (b : Nat) (s : Block) : Block :=
  forEach (mapGet [] (tw s t).cat.wheel b) (fun x s =>
    let id := nodeIdOf t x
    let n := nodeOf s id
    if n.st = .waiting ∧ n.mode = 3 ∧ isReady s.time n = true ∧ n.mirHold = false then
      evaluate id 3 0 (if n.skipPend then s else bump (twKey t catP) 0x58 1 s)
    else s) s

/-- WHEEL_WALK: the next multiple of 1,024 ns that global time has crossed and no walk has served. -/
def wheelWalk (t : TwinId) (s : Block) : Block :=
  let c := (tw s t).cat
  if (tw s t).halted = true ∨ s.time / 1024 ≤ c.walked then s
  else
    let k := c.walked + 1
    walkBucket t (k % 4096) (upTw t (fun w => { w with cat := { w.cat with walked := k, bucket := k % 4096 } }) s)

end Sys2Proof.Machine
end

