-- ==== Sys2Proof/Machine/Accession.lean ====
section
/-! DEFINITION. Accession (03): the accession windows, seals, mirror construction, MIRROR_CLOSE, REARM and MARK. -/

namespace Sys2Proof.Machine

/-! ### Refusals (R71) -/

/-- A refusal or a failed seal: recorded in the twin addressed, and the context faults; every later write of the
window is discarded (R71). -/
def refuse (t : TwinId) (k code bank off : Nat) (s : Block) : Block :=
  raiseFault t k code 0
    (upCtx k (fun c => { c with refused := true })
      (bump (twKey t accP) 0x68 1 (setErr (twKey t accP) 1
        (upTw t (fun w => { w with acc := { w.acc with
          lastRefusal := lastWord code k + (bank % 2 ^ 11) * 2 ^ 24 + off % 2 ^ 16 } }) s))))

/-- A seal that fails: the node goes to FAULTED too (R73, R74, R75). -/
def sealFail (t : TwinId) (id k code bank off : Nat) (s : Block) : Block :=
  refuse t k code bank off (faultNode id s)

/-! ### Lists, locks and regions (R41, R70, R73) -/

/-- The forward edge words of a node's list. -/
def fwdList (s : Block) (id : Nat) (n : Node) : List Nat :=
  (List.range n.succLen).map fun i => mapGet 0 (tw s (homeOf id)).cat.fwd (n.succBase % 2 ^ 22 + i)

def lockList (v : Bool) (id : Nat) (n : Node) (s : Block) : Block :=
  upTw (homeOf id) (fun w => { w with acc := { w.acc with
    locks := (List.range n.succLen).foldl
      (fun m i => mapSet false m (n.succBase % 2 ^ 22 + i) v) w.acc.locks } }) s

def anyLocked (s : Block) (id : Nat) (n : Node) : Bool :=
  (List.range n.succLen).any fun i => mapGet false (tw s (homeOf id)).acc.locks (n.succBase % 2 ^ 22 + i)

/-- The node lies in the variable region of its context (R44, R70). -/
def nodeRegion (s : Block) (k id : Nat) : Bool := inVarRange (ctxTw s (homeOf id) k).varRange (slotOf id)

/-- Mirror slots of a twin's part for a region: the first slot, and how many there are (R70). -/
def mirPart (s : Block) (t : TwinId) (k : Nat) (var : Bool) : Nat × Nat :=
  let r := (ctxTw s t k).mirRange
  if !(rangeEn r) then (0, 0)
  else if var then (varFirst r * 4096, (fld r 25 16 + 1 - varFirst r) * 4096)
  else (fld r 9 0 * 4096, (varFirst r - fld r 9 0) * 4096)

/-- Mirror slots that requests still on the way to a twin will take. -/
def mirComing (s : Block) (t : TwinId) (k : Nat) (var : Bool) : Nat :=
  let inChan := (tw s t).edgeIn.foldl (fun a i => match i with
    | .mirrorReq _ g c _ _ _ _ _ cap => if c = k ∧ nodeRegion s k g = var then a + cap else a
    | _ => a) 0
  let inWork (u : TwinId) := (tw s u).acc.work.foldl (fun a w =>
    let n := nodeOf s w.f
    if w.ctx = k ∧ w.acking = false ∧ homeOf n.mirror = t ∧ nodeRegion s k n.mirror = var
    then a + n.initCount else a) 0
  inChan + inWork .t0 + inWork .t1

/-! ### Entering LOADING (R37, R56) -/

/-- The first accepted write after FREE, DONE or SKIPPED takes the node to LOADING. -/
def enterLoading (k id : Nat) (s : Block) : Block :=
  let n := nodeOf s id
  match n.st with
  | .free => setNode id { st := .loading, ctx := k, region := nodeRegion s k id } s
  | .done | .skipped =>
    let s1 := if n.locked then lockList false id n s else s
    upNode id (fun n => { n with st := .loading, cfSet := false, skipPend := false, locked := false,
                                 mRes := false }) s1
  | _ => s

/-! ### Mirror construction (R74 to R76) -/

/-- The list of a mirror node is open: reserved, and the node not yet sealed (R75). -/
def mirrorOpen (n : Node) : Bool := n.mRes && n.st == .loading

/-- An append of step 3 of R75 meets G(S) in its twin. DESIGN CHOICE (log entry 88): where two rows of the outcome table hold,
as for an open list of a node S that is LOADING again, the first is taken; a G(S) of another context has no list that is
reserved for this one. -/
def applyAppend (f sNode g k word : Nat) (s : Block) : Block :=
  let t := homeOf g
  let n := nodeOf s g
  if n.st = .free ∨ n.ctx ≠ k then sealFail t f k 0x22 0 0 s
  else if mirrorOpen n then
    if n.mLen ≥ n.mCap then sealFail t f k 0x26 0 0 s
    else
      bump (twKey t accP) 0x50 1
        (upNode g (fun n => { n with mLen := n.mLen + 1 })
          (upTw t (fun w => { w with cat := { w.cat with
            mir := mapSet 0 w.cat.mir (n.mBase + n.mLen) word } }) s))
  else if n.region = false ∧ n.sealBit = true ∧ n.st ≠ .loading ∧ (nodeOf s sNode).st ≠ .loading then
    bump (twKey t accP) 0x58 1 s
  else sealFail t f k 0x22 0 0 s

/-- Step 2 of R75 in G(F)'s twin: the list is reserved and word 0 written. DESIGN CHOICE (log entry 98): a G(F) that software has
sealed since the tests of R74 keeps its STATE, for which R56 has no transition to LOADING here. -/
def applyMirrorReq (g k kind : Nat) (lc : Bool) (level larder d cap : Nat) (s : Block) : Block :=
  let t := homeOf g
  let s1 := enterLoading k g s
  let var := nodeRegion s k g
  let c := ctxTw s1 t k
  let base := (mirPart s1 t k var).1 + (if var then c.varUsed else c.fixUsed)
  let s2 := upCtxTw t k (fun c =>
    { (if var then { c with varUsed := c.varUsed + cap } else { c with fixUsed := c.fixUsed + cap }) with
      pendMir := c.pendMir.erase (slotOf g) ++ [slotOf g] }) s1
  let cf := if d = 0 then 2 else d + 1
  upNode g (fun n => { n with
    mode := 0, kind := if kind = kRoute then kTile else kind, lc := lc, level := level,
    larder := larder % 4, sealBit := false, mirrorEn := false, cf := cf, initCount := cf,
    cfSet := true, backward := true, succBase := 0, succLen := 0, mirror := 0, rsv2 := 0,
    mRes := true, mBase := base, mCap := cap, mLen := 0, skipPend := false }) s2

/-- What the list of F asks of the mirror: each NORMAL or CONDITIONAL edge whose target carries MIRROR_EN (R75),
as edge word, target and the target's MIRROR_NODE. -/
def mirrorEdges (w : MirWork) : List (Nat × Nat) :=
  w.edges.filterMap fun p => match p with
    | (e, some (true, m)) => if edgeKind e ≤ 1 then some (e, m) else none
    | _ => none

/-- The mirror edge appended for a forward edge (R75): NORMAL, the same ESCOPE, AUX 0, TARGET G(F). -/
def mirrorWord (e g : Nat) : Nat := edgeScope e * 2 ^ 28 + g % 2 ^ 20

/-- Steps 2 and 3 of R75 once every target has been read (R76). -/
def mirrorSteps (w : MirWork) (s : Block) : Block :=
  let n := nodeOf s w.f
  let tF := homeOf w.f
  let tG := homeOf n.mirror
  let es := mirrorEdges w
  let req : EdgeItem := .mirrorReq w.f n.mirror w.ctx n.kind n.lc n.level n.larder es.length n.initCount
  let appends : List EdgeItem := es.map fun p =>
    .append w.f (edgeTarget p.1) p.2 w.ctx (mirrorWord p.1 n.mirror)
  let s1 := if tF = tG then
      applyMirrorReq n.mirror w.ctx n.kind n.lc n.level n.larder es.length n.initCount
        (upTw tF (fun x => { x with acc := { x.acc with work := x.acc.work.filter (fun y => y.f != w.f) } }) s)
    else sendItem tF tG req
      (upTw tF (fun x => { x with acc := { x.acc with
        work := x.acc.work.map (fun y => if y.f == w.f then { y with acking := true } else y) } }) s)
  let s2 := forEach appends (fun i s => match i with
    | .append f sN g k word =>
      if homeOf g = tF then applyAppend f sN g k word s else sendItem tF (homeOf g) i s
    | _ => s) s1
  if tF = tG then pushWork [.evaluate w.f 3 0] (upNode w.f (fun n => { n with mirHold := false }) s2) else s2

/-- The mirror work of a sealed forward node starts (R76): partner targets are read first. -/
def startMirror (f k bank off : Nat) (s : Block) : Block :=
  let t := homeOf f
  let n := nodeOf s f
  let edges : List (Nat × Option (Bool × Nat)) := (fwdList s f n).map fun e =>
    if homeOf (edgeTarget e) = t then
      let m := nodeOf s (edgeTarget e)
      (e, some (m.mirrorEn, m.mirror))
    else (e, none)
  let w : MirWork := { f := f, ctx := k, bank := bank, off := off, edges := edges }
  let s1 := upNode f (fun n => { n with mirHold := true })
    (upTw t (fun x => { x with acc := { x.acc with work := x.acc.work ++ [w] } }) s)
  if edges.all (fun p => p.2.isSome) then mirrorSteps w s1
  else forEach edges.zipIdx (fun p s => match p with
    | ((e, none), i) => sendItem t (partner t) (.targetRead f i (edgeTarget e)) s
    | _ => s) s1

/-- An answer to a target read (R76). -/
def applyTargetAns (t : TwinId) (f i : Nat) (en : Bool) (m : Nat) (s : Block) : Block :=
  match (tw s t).acc.work.find? (fun w => w.f == f) with
  | none => s
  | some w =>
    let w' := { w with edges := w.edges.zipIdx.map fun p => if p.2 = i then (p.1.1, some (en, m)) else p.1 }
    let s1 := upTw t (fun x => { x with acc := { x.acc with
      work := x.acc.work.map (fun y => if y.f == f then w' else y) } }) s
    if w'.edges.all (fun p => p.2.isSome) then mirrorSteps w' s1 else s1

/-- The acknowledgement of a mirror request: step 2 has taken effect, and F is judged (R76). -/
def applyMirrorAck (t : TwinId) (f : Nat) (s : Block) : Block :=
  pushWork [.evaluate f 3 0] (upNode f (fun n => { n with mirHold := false })
    (upTw t (fun x => { x with acc := { x.acc with work := x.acc.work.filter (fun y => y.f != f) } }) s))

/-! ### Seals (R43, R73, R74) -/

/-- The seal of a node by software, with the checks in the order of R74. -/
def sealNode (k id bank off : Nat) (s : Block) : Block :=
  let t := homeOf id
  let n := nodeOf s id
  let m := nodeOf s n.mirror
  let tG := homeOf n.mirror
  if !(sealOk s id n) then catFault t k 0x10 0 id (faultNode id s)
  else if n.mirrorEn && (n.mode != 0 || decide (n.initCount > 4095)) then sealFail t id k 0x25 bank off s
  else if anyLocked s id n then sealFail t id k 0x24 bank off s
  else
    let s1 := upNode id (fun n => { n with locked := true }) (lockList true id n s)
    if !n.mirrorEn then pushWork [.evaluate id 3 0] (sealed id s1)
    else
      let var := nodeRegion s k n.mirror
      let freeG := m.st == .free || m.st == .done || m.st == .skipped || (m.st == .loading && !m.cfSet)
      if var != n.region || !freeG || (m.st != .free && m.ctx != k) then sealFail t id k 0x25 bank off s1
      else
        let c := ctxTw s tG k
        let used := (if var then c.varUsed else c.fixUsed) + mirComing s tG k var
        if used + n.initCount > (mirPart s tG k var).2 then sealFail t id k 0x26 bank off s1
        else startMirror id k bank off (sealed id s1)

/-! ### The node and edge areas (R65, R68, R70, R71) -/

/-- How a write covers an aligned word of the window. -/
inductive Cover where
  | none | part | whole
  deriving DecidableEq, Repr

/-- How the bytes [off, off + len) cover the word [at_, at_ + size). -/
def cover (off len at_ size : Nat) : Cover :=
  if at_ + size ≤ off ∨ off + len ≤ at_ then .none
  else if off ≤ at_ ∧ at_ + size ≤ off + len then .whole
  else .part

/-- The value of an aligned word that a write covers whole. -/
def wordAt (off : Nat) (data : List Byte) (at_ size : Nat) : Nat := bytesToNat ((data.drop (at_ - off)).take size)

/-- The fields that a write of node word j takes (R36, R40 to R42). -/
def putWord (j v : Nat) (n : Node) : Node :=
  match j with
  | 0 =>
    let n1 := { n with kind := fld v 58 54, lc := bitOf v 53, level := fld v 52 50,
                       sealBit := bitOf v 33, mirrorEn := bitOf v 32, larder := fld v 31 24 }
    if n.cfSet then n1
    else { n1 with mode := fld v 60 59, cf := fld v 23 0, initCount := fld v 23 0, cfSet := true }
  | 1 => { n with mask := fld v 63 40, scope := fld v 39 38, load := fld v 37 36, affinity := fld v 35 18,
                  stash := fld v 17 0 }
  | 2 => { n with succBase := fld v 63 41, succLen := fld v 40 29, mirror := fld v 28 9, rsv2 := fld v 8 0 }
  | _ => { n with desc := fld v 63 22, layer := fld v 21 10, rsv3 := fld v 9 0 }

/-- One word of a node-area write (R68, R71). Word 2 of a backward node belongs to Accession (R77): a write of it leaves the
word as it is (log entry 16). -/
def nodeWord (k bank off : Nat) (data : List Byte) (slot j : Nat) (s : Block) : Block :=
  let t := twinOf (bank >>> 9)
  let at_ := (slot % 1024) * 32 + j * 8
  let id := nodeIdOf t slot
  match cover off data.length at_ 8 with
  | .none => s
  | cv =>
    let n := nodeOf s id
    if !(inNodeRange (ctxTw s t k).nodeRange slot) then refuse t k 0x20 bank at_ s
    else if cv = .part then refuse t k 0x23 bank at_ s
    else if (ctxOf s k).fixedClosed && !(nodeRegion s k id) then refuse t k 0x28 bank at_ s
    else if n.st == .waiting || n.st == .ready || n.st == .granted || n.st == .faulted
        || (j == 0 && n.backward) then refuse t k 0x21 bank at_ s
    else
      let v := wordAt off data at_ 8
      let s1 := enterLoading k id s
      let s2 := if nodeRegion s k id then s1 else upCtx k (fun c => { c with fixedLoaded := true }) s1
      let s3 := if n.backward && j == 2 then s2 else upNode id (putWord j v) s2
      if j = 0 ∧ bitOf v 33 = true then sealNode k id bank at_ s3 else s3

/-- A node-area part with its NODE_BANK: nodes in ascending slot order, and for each words 1, 2, 3 before word 0 (R68). -/
def nodePart (k bank off : Nat) (data : List Byte) (s : Block) : Block :=
  let first := off / 32
  let count := (off + data.length + 31) / 32 - first
  forEach (List.range count) (fun i s =>
    let slot := (bank % 512) * 1024 + first + i
    forEach [1, 2, 3, 0] (fun j s => nodeWord k bank off data slot j s) s) s

/-- The slot lies in the list of a fixed-region node of the context (R79): a forward list, of a node that is not FREE. -/
def inFixedList (s : Block) (t : TwinId) (k slot : Nat) : Bool :=
  (tw s t).cat.nodes.any fun p =>
    p.2.ctx == k && p.2.st != .free && !p.2.region && !p.2.backward
      && decide (p.2.succBase % 2 ^ 22 ≤ slot) && decide (slot < p.2.succBase % 2 ^ 22 + p.2.succLen)

/-- One word of an edge-area write (R68, R73, R79). -/
def edgeWord (k bank off : Nat) (data : List Byte) (slot : Nat) (s : Block) : Block :=
  let t := twinOf (bank >>> 10)
  let at_ := 0x8000 + (slot % 4096) * 4
  match cover off data.length at_ 4 with
  | .none => s
  | cv =>
    if !(inFwdRange (ctxTw s t k).fwdRange slot) then refuse t k 0x20 bank at_ s
    else if cv = .part then refuse t k 0x23 bank at_ s
    else if (ctxOf s k).fixedClosed && inFixedList s t k slot then refuse t k 0x28 bank at_ s
    else if mapGet false (tw s t).acc.locks slot then refuse t k 0x22 bank at_ s
    else bump (twKey t accP) 0x48 1
      (upTw t (fun w => { w with cat := { w.cat with
        fwd := mapSet 0 w.cat.fwd slot (wordAt off data at_ 4) } }) s)

/-- An edge-area part with its EDGE_BANK: its words in ascending order; the area starts at 0x8000, a multiple of its 4,096
words (R65). -/
def edgePart (k bank off : Nat) (data : List Byte) (s : Block) : Block :=
  let first := off / 4
  let count := (off + data.length + 3) / 4 - first
  forEach (List.range count) (fun i s => edgeWord k bank off data ((bank % 1024) * 4096 + first % 4096 + i) s) s

/-! ### REARM (R45, R80) -/

def rearmNode (n : Node) : Node :=
  { n with st := .waiting, cf := n.initCount, skipPend := false, rsv2 := 0, rsv3 := 0 }

/-- The sweep of REARM in one twin: fixed-region nodes in DONE, SKIPPED or WAITING are rearmed and judged. -/
def rearmTwin (t : TwinId) (k : Nat) (s : Block) : Block :=
  let c := ctxTw s t k
  let mine := (tw s t).cat.nodes.filter fun p =>
    p.2.ctx == k && p.2.st != .free && !p.2.region && inNodeRange c.nodeRange p.1
  let fit := mine.filter fun p => p.2.st == .done || p.2.st == .skipped || p.2.st == .waiting
  let busy := decide (fit.length < mine.length)
  let s1 := forEach fit (fun p s =>
    unbind (nodeIdOf t p.1) (narrowFree (nodeIdOf t p.1) (upNode (nodeIdOf t p.1) rearmNode s))) s
  let s2 := bump (twKey t catP) 0x70 fit.length
    (upCtxTw t k (fun c => { c with sweep := .rearm, sweepBusy := busy, varUsed := 0 }) s1)
  pushWork (fit.map fun p => .evaluate (nodeIdOf t p.1) 3 0) s2

/-! ### MIRROR_CLOSE (R78) -/

/-- Mirror work of the context that a close in twin t still waits for: targets being read in either twin, and
requests or appends on the way to t. -/
def closeBlocked (s : Block) (t : TwinId) (k : Nat) : Bool :=
  (tw s .t0).acc.work.any (fun w => w.ctx == k && !w.acking)
  || (tw s .t1).acc.work.any (fun w => w.ctx == k && !w.acking)
  || (tw s t).edgeIn.any (fun i => match i with
      | .mirrorReq _ _ c _ _ _ _ _ _ => c == k
      | .append _ _ _ c _ => c == k
      | _ => false)

/-- A pending mirror node takes its word 2 and is sealed with the checks of R43. -/
def closeNode (t : TwinId) (k x : Nat) (s : Block) : Block :=
  let id := nodeIdOf t x
  let s1 := upNode id (fun n => { n with
    succBase := twinNum t * 2 ^ 22 + n.mBase % 2 ^ 22, succLen := n.mLen, mirror := 0, rsv2 := 0 }) s
  let n := nodeOf s1 id
  if n.st ≠ .loading ∨ n.ctx ≠ k then s
  else if sealOk s1 id n then pushWork [.evaluate id 3 0] (sealed id s1)
  else catFault t k 0x10 0 id (faultNode id s1)

/-- The twin's close marker goes to the partner (R78). -/
def sendMarker (t : TwinId) (k : Nat) (s : Block) : Block :=
  sendItem t (partner t) (.closeMarker k) s

/-- MIRROR_CLOSE reaches the window: the close waits in both twins that serve, first in the one its NODE_BANK names (R78). -/
def mirrorClose (k : Nat) (t : TwinId) (s : Block) : Block :=
  let wait (first : Bool) (u : TwinId) (s : Block) : Block :=
    upCtxTw u k (fun c => { c with closing := serves s u, closeFirst := first, marker := !(serves s (partner u)) }) s
  wait false (partner t) (wait true t s)

/-- MIRROR_CLOSE_EFFECT: the twin seals every pending mirror node of the context, once what R78 names has taken effect
there. The first twin then sends the close marker, which the other waits for. -/
def mirrorCloseEffect (t : TwinId) (k : Nat) (s : Block) : Block :=
  let c := ctxTw s t k
  if c.closing = false ∨ closeBlocked s t k = true ∨ (c.closeFirst = false ∧ c.marker = false) then s
  else
    let s1 := forEach c.pendMir (fun x s => closeNode t k x s) s
    let s2 := upCtx k (fun x => if x.fixedLoaded then { x with fixedClosed := true } else x)
      (upCtxTw t k (fun c => { c with pendMir := [], closing := false, closeFirst := false, marker := false }) s1)
    if c.closeFirst then sendMarker t k s2 else s2

/-! ### The window (R65, R67, R72, R82, R287) -/

/-- Mirror work of earlier seals, or a close, of the context is still outstanding in either twin (R82). -/
def mirrorWork (s : Block) (k : Nat) : Bool :=
  [TwinId.t0, TwinId.t1].any fun t =>
    (tw s t).acc.work.any (fun w => w.ctx == k) || (ctxTw s t k).closing
    || (tw s t).edgeIn.any (fun i => match i with
      | .append _ _ _ c _ => c == k
      | _ => false)

/-- Seals of the context await a MIRROR_CLOSE, or mirror work is pending (R82). -/
def mirrorPend (s : Block) (k : Nat) : Bool :=
  mirrorWork s k || [TwinId.t0, TwinId.t1].any fun t => !(ctxTw s t k).pendMir.isEmpty

def sweeping (s : Block) (t : TwinId) (k : Nat) : Bool := (ctxTw s t k).sweep != .none

def rearming (s : Block) (t : TwinId) (k : Nat) : Bool := (ctxTw s t k).sweep == .rearm

/-- The mirror queue of a twin holds its 1,024 requests (R72). DESIGN CHOICE (log entry 89): those of the window's own context
are counted, until they are acknowledged. -/
def mirrorFull (s : Block) (t : TwinId) (k : Nat) : Bool :=
  decide (((tw s t).acc.work.filter (fun w => w.ctx == k)).length > 1024)

/-- The selectors of a window: NODE_BANK and EDGE_BANK. -/
def selectors (s : Block) (k : Nat) : Nat × Nat := ((ctxOf s k).nodeBank, (ctxOf s k).edgeBank)

def nodeTwin (banks : Nat × Nat) : TwinId := twinOf (banks.1 >>> 9)

def edgeTwin (banks : Nat × Nat) : TwinId := twinOf (banks.2 >>> 10)

/-- The twin a part addresses (R67); for a part that addresses none or both, the twin that NODE_BANK names. -/
def partTwin (banks : Nat × Nat) : WinCmd → TwinId
  | .edge _ _ => edgeTwin banks
  | _ => nodeTwin banks

/-- A cause of parking a part (R67, R72, R80 to R82, R393), other than an earlier parked write: a REARM parks what is
behind it until both sweeps end, and a MIRROR_CLOSE until it has taken effect in both twins. DESIGN CHOICE (log entry 87): a
RELEASE parks the parts that address a twin which still sweeps (R72). -/
def mustPark (s : Block) (k : Nat) (banks : Nat × Nat) (c : WinCmd) : Bool :=
  let busy (t : TwinId) : Bool := sweeping s t k || (tw s t).halted || mirrorFull s t k
  rearming s .t0 k || rearming s .t1 k || (ctxTw s .t0 k).closing || (ctxTw s .t1 k).closing
  || (match c with
    | .node _ _ => busy (nodeTwin banks)
    | .edge _ _ => busy (edgeTwin banks)
    | .rearm | .release | .mirrorClose => busy .t0 || busy .t1
    | .mark _ => busy .t0 || busy .t1 || mirrorWork s k
    | _ => false)

/-- A write that reaches a window which takes none. -/
def discardWrite (k : Nat) (s : Block) : Block := discardIn (nodeTwin (selectors s k)) s

/-- The window takes writes: the context is OPEN, service is declared, and no write was refused (R65, R71). -/
def windowOpen (s : Block) (k : Nat) : Bool :=
  (ctxOf s k).st == .opened && declared s && !(ctxOf s k).refused

end Sys2Proof.Machine
end

