-- ==== Sys2Proof/Machine/Racks.lean ====
section
/-! DEFINITION. The Racks and the Circulation Desk (04): lanes, the order of reading, claims, grants, circulation
records, holding racks, proxy lanes, claim forwarding and summaries. -/

namespace Sys2Proof.Machine

/-! ### Lanes (R86 to R88) -/

def laneOf (s : Block) (t : TwinId) (key : Nat) : Lane := mapGet {} (tw s t).rack.lanes key

def upLane (t : TwinId) (key : Nat) (f : Lane → Lane) (s : Block) : Block :=
  upTw t (fun w => { w with rack := { w.rack with
    lanes := mapSet {} w.rack.lanes key (f (mapGet {} w.rack.lanes key)) } }) s

def laneCount (l : Lane) : Nat := l.slots.length + l.copies.length

/-- Entries of the lane cache (R88): of the first two entries, those no refill step is still fetching. -/
def laneCached (l : Lane) : Nat := min 2 (laneCount l) - l.refills

/-- The refill steps in flight after a head has left (R88). -/
def laneAfterPop (l : Lane) : Lane :=
  { l with refills := if laneCount l ≥ 2 then min (l.refills + 1) (min 2 (laneCount l)) else min l.refills (laneCount l) }

def popSlot (l : Lane) : Lane := laneAfterPop { l with slots := l.slots.tail }
def popCopy (l : Lane) : Lane := laneAfterPop { l with copies := l.copies.tail }

/-- The groups of the pools (R86). -/
def isPool (g : Nat) : Bool := decide (144 ≤ g)
def isCluster (g : Nat) : Bool := decide (g < 128)

/-- The lane key of a node in a rack group, with its class as it acts (R291). -/
def nodeLane (s : Block) (g : Nat) (n : Node) : Nat := laneKey g (actLc s n.ctx n.lc) n.level n.load

/-- The keys of a group's lanes in the order of R89, lanes of one rack taken COMPUTE, MEMORY, BALANCED, proxy. -/
def groupLanes (g : Nat) : List Nat :=
  ([true, false].flatMap fun lc => ([7, 6, 5, 4, 3, 2, 1, 0] : List Nat).flatMap fun lv =>
    ([0, 1, 2, 3] : List Nat).map fun la => laneKey g lc lv la)

/-- The lanes of a group that hold something. -/
def groupHeld (s : Block) (t : TwinId) (g : Nat) : List (Nat × Lane) :=
  (tw s t).rack.lanes.filter fun p => p.1 / 64 == g

/-- Tasks in a twin's racks of a group (R131). DESIGN CHOICE (log entry 79): the proxy-out list is not counted. -/
def groupCount (s : Block) (t : TwinId) (g : Nat) : Nat :=
  (groupHeld s t g).foldl (fun a p => a + laneCount p.2) 0

/-! ### Records (R106 to R108, R122) -/

def recOpen (r : CircRec) : Bool := r.st != .free

/-- Records in use: open, reserved, or held while credits are deferred (R119, R161). -/
def recsInUse (s : Block) (t : TwinId) : Nat := (tw s t).desk.recs.length

/-- Open records of a context in a twin (R89, R108, R161). -/
def inflight (s : Block) (t : TwinId) (k : Nat) : Nat :=
  ((tw s t).desk.recs.filter fun p => p.2.ctx == k).length

/-- INFLIGHT_MAX in records; none for no limit (R122). -/
def inflightMax (s : Block) (k : Nat) : Option Nat :=
  let v := fld (reg s (ctxKey k) 0x208) 40 32
  if v = 0 then none else some (min v 256 * 256)

def inflightRoom (s : Block) (t : TwinId) (k : Nat) : Bool :=
  match inflightMax s k with
  | none => true
  | some m => decide (inflight s t k < m)

/-- The record that holds a node, in a given state of R107. -/
def findRec (s : Block) (t : TwinId) (p : CircRec → Bool) : Option (Nat × CircRec) :=
  (tw s t).desk.recs.find? fun q => p q.2

def openRecOf (s : Block) (node gen : Nat) : Option (Nat × CircRec) :=
  findRec s (homeOf node) fun r => (r.st == .issued || r.st == .accepted) && r.node == node && r.gen == gen

def highWater (t : TwinId) (s : Block) : Block :=
  upTw t (fun w => { w with desk := { w.desk with high := max w.desk.high w.desk.recs.length } }) s

/-- A record is opened at the lowest free index. -/
def openRec (t : TwinId) (r : CircRec) (s : Block) : Block :=
  match firstFree (tw s t).desk.recs 0 65536 with
  | some i => highWater t (setRec t i r s)
  | none => s

/-- The rack group in one of whose lanes a slot lies. -/
def laneHolding (s : Block) (t : TwinId) (x : Nat) : Option Nat :=
  ((tw s t).rack.lanes.find? fun p => p.2.slots.contains x).map fun p => p.1 / 64

/-- A record closes: what waits for records or for the in-flight count is tried again (R87, R92). DESIGN CHOICE (log entry 99): of
the pool groups with nodes kept for want of a record, that of the node kept longest is retried. -/
def closeRec (t : TwinId) (i : Nat) (s : Block) : Block :=
  let r := recOf s t i
  let s1 := setRec t i {} s
  let s2 := match (tw s1 t).rack.keptNoRec with
    | x :: _ => match laneHolding s1 t x with
      | some g => pushWork [.retryProxy t g] s1
      | none => s1
    | [] => s1
  if (ctxTw s2 t r.ctx).inflHeld && inflightRoom s2 t r.ctx then pushWork [.holdRelease t r.ctx] s2 else s2

/-! ### WRITERS (R134) -/

/-- The location mirror of a shard in a twin (R126). -/
def locOf (s : Block) (t : TwinId) (shard : Nat) : Nat := mapGet 0xFF (tw s t).shelf.locs shard

def locCode (w : Nat) : Nat := w % 256
def locCtx (w : Nat) : Nat := fld w 15 8

/-- The node's affinity shard is allocated to its context, so placement reads it (R132). -/
def affinityHolds (s : Block) (t : TwinId) (n : Node) : Bool :=
  let w := locOf s t n.affinity
  locCtx w == n.ctx && locCode w != 0xFF && locCode w != 0xFE

/-- The node is counted in WRITERS of its affinity shard at an append. -/
def writersInc (id : Nat) (s : Block) : Block :=
  let n := nodeOf s id
  if (n.inserted && n.kind == kCopy) || n.wcount || !(affinityHolds s (homeOf id) n) then s
  else sendItem (homeOf id) (twinOf (n.affinity >>> 17)) (.writerInc n.affinity)
    (upNode id (fun n => { n with wcount := true }) s)

/-- A − 1 of R134: made only when WCOUNT is 1, which it clears. -/
def writersDec (id : Nat) (s : Block) : Block :=
  let n := nodeOf s id
  if n.wcount then
    sendItem (homeOf id) (twinOf (n.affinity >>> 17)) (.writerDec n.affinity)
      (upNode id (fun n => { n with wcount := false }) s)
  else s

/-! ### Eligibility (R89, R108) -/

/-- LEFT of a context in a Bake domain in a twin (R295). -/
def leftOf (s : Block) (t : TwinId) (k d : Nat) : Nat := mapGet 0 (ctxTw s t k).left d

/-- Why a lane head is not eligible. -/
inductive Why where
  | ok | gone | cap | inflight
  deriving DecidableEq, Repr

/-- DESIGN CHOICE (log entry 99): a lane head whose context has both its cap spent and its in-flight limit reached is held for the
cap. -/
def nodeWhy (s : Block) (t : TwinId) (g x : Nat) : Why :=
  let n := nodeOf s (nodeIdOf t x)
  if n.st ≠ .ready ∨ unfenced s t n.ctx = false then .gone
  else if actLc s n.ctx n.lc && leftOf s t n.ctx (domainOfGroup g) == 0 then .cap
  else if !(inflightRoom s t n.ctx) then .inflight
  else .ok

def copyWhy (s : Block) (t : TwinId) (c : Copy) : Why :=
  if unfenced s t c.ctx = false then .gone
  else if c.lc && actLc s c.ctx true && leftOf s t c.ctx (domainOfGroup c.group) == 0 then .cap
  else .ok

/-- Every record of the twin is open (R108). -/
def recordsFull (s : Block) (t : TwinId) : Bool := decide (recsInUse s t ≥ 65536)

/-- The twin may grant from the group: a pool group only as its primary (R86). -/
def mayGrant (s : Block) (t : TwinId) (g : Nat) : Bool := !(isPool g) || primary s g == t

/-- The rank of a task by its CLASS and LEVEL (R101). -/
def taskRank (lc : Bool) (level : Nat) : Nat := if lc then level + 9 else level + 1

/-- The ranks of the eligible tasks of a lane of a level, by the class as which each is treated, which its lane was chosen by when
it was racked (R291). -/
def laneRanks (s : Block) (t : TwinId) (g level : Nat) (l : Lane) : List Nat :=
  ((l.slots.filter fun x => nodeWhy s t g x == .ok).map fun x =>
    let n := nodeOf s (nodeIdOf t x)
    taskRank (actLc s n.ctx n.lc) level)
  ++ (l.copies.filter fun c => copyWhy s t c == .ok).map fun c => taskRank (actLc s c.ctx c.lc) level

/-- The best eligible task of a group in a twin, as rank (R101), and how many are eligible. -/
def groupBest (s : Block) (t : TwinId) (g : Nat) : Nat × Nat :=
  let ranks := (groupHeld s t g).flatMap fun p => laneRanks s t g (p.1 % 32 / 4) p.2
  (ranks.foldl max 0, ranks.length)

/-! ### Holding racks (R92) -/

def heldTrace (t : TwinId) (k node g : Nat) (why : Why) (s : Block) : Block :=
  trace t 0x04 (some k) node (if why = .cap then 0 else 1) 0 0
    (optEvent t 8 k true (some g) 1 (bump (twKey t rackP) 0x48 1 s))

/-- A node goes to its context's holding rack. -/
def holdNode (t : TwinId) (g x : Nat) (why : Why) (s : Block) : Block :=
  let n := nodeOf s (nodeIdOf t x)
  heldTrace t n.ctx (nodeIdOf t x) g why
    (upCtxTw t n.ctx (fun c => { c with
      holdNodes := c.holdNodes ++ [x]
      capHeld := c.capHeld || why == .cap
      inflHeld := c.inflHeld || why == .inflight })
      (upNode (nodeIdOf t x) (fun n => { n with heldIn := g, heldCap := why == .cap }) s))

def holdCopy (t : TwinId) (c : Copy) (s : Block) : Block :=
  heldTrace t c.ctx c.node c.group .cap
    (upCtxTw t c.ctx (fun x => { x with holdCopies := x.holdCopies ++ [c], capHeld := true }) s)

/-- A head that is not eligible leaves its lane: to the holding rack, or dropped when fenced (R92). -/
def dropHead (t : TwinId) (key : Nat) (s : Block) : Block :=
  let l := laneOf s t key
  let g := key / 64
  match l.slots, l.copies with
  | x :: _, _ =>
    let why := nodeWhy s t g x
    let s1 := upLane t key popSlot s
    if why = .gone then s1 else holdNode t g x why s1
  | [], c :: _ =>
    let why := copyWhy s t c
    let s1 := upLane t key popCopy s
    if why = .gone then s1 else holdCopy t c s1
  | [], [] => s

def headWhy (s : Block) (t : TwinId) (key : Nat) : Option Why :=
  let l := laneOf s t key
  match l.slots, l.copies with
  | x :: _, _ => some (nodeWhy s t (key / 64) x)
  | [], c :: _ => some (copyWhy s t c)
  | [], [] => none

/-- Heads that are not eligible are taken off a lane until its head is eligible or it is empty; the fuel is the
length of the lane. -/
def clearHeads (t : TwinId) (key : Nat) : Nat → Block → Block
  | 0, s => s
  | f + 1, s =>
    match headWhy s t key with
    | some .ok => s
    | none => s
    | some _ => clearHeads t key f (dropHead t key s)

/-! ### The order in which racks are read (R89 to R91) -/

def mixTol (s : Block) (t : TwinId) : Nat := max 1 (fld (reg s (twKey t deskP) 0x100) 15 8)

/-- The lanes of one rack in the order they are tried. DESIGN CHOICE (log entry 73): for a forwarded claim MIX_TOL is that of
the twin that decides (R91 names no twin). -/
def laneOrder (s : Block) (t : TwinId) (g : Nat) (lc : Bool) (lv : Nat) (d : Int) : List Nat :=
  let rackKey := g * 16 + b2n lc * 8 + lv
  if isCluster g then
    let pref := if d ≤ 0 then 0 else 1
    if d.natAbs < mixTol s t then [2, pref, 1 - pref] else [pref, 2, 1 - pref]
  else
    let m := if isPool g && primary s g == t then 4 else 3
    let p := mapGet 0 (tw s t).rack.rr rackKey
    (List.range m).map fun i => (p + i) % m

/-- The first lane whose head is eligible, after heads that are not have been moved (R89, R92). -/
def pickLanes (t : TwinId) : List Nat → Block → Option Nat × Block
  | [], s => (none, s)
  | key :: rest, s =>
    let s1 := clearHeads t key (laneCount (laneOf s t key)) s
    if laneCount (laneOf s1 t key) > 0 then (some key, s1) else pickLanes t rest s1

/-- The lane of the task that the Desk chooses in a rack group (R89). -/
def pick (t : TwinId) (g : Nat) (d : Int) (s : Block) : Option Nat × Block :=
  if !(mayGrant s t g) || recordsFull s t then (none, s)
  else
    let keys := [true, false].flatMap fun lc => ([7, 6, 5, 4, 3, 2, 1, 0] : List Nat).flatMap fun lv =>
      (laneOrder s t g lc lv d).map fun la => laneKey g lc lv la
    pickLanes t keys s

/-- The round-robin pointer moves to the lane after the one granted (R90). -/
def rrAdvance (t : TwinId) (key : Nat) (s : Block) : Block :=
  let g := key / 64
  if isCluster g then s
  else
    let m := if isPool g && primary s g == t then 4 else 3
    upTw t (fun w => { w with rack := { w.rack with
      rr := mapSet 0 w.rack.rr (key / 4) ((key % 4 + 1) % m) } }) s

/-- MIX_TARGET of a context (R122). -/
def mixTarget (s : Block) (k : Nat) : Nat := min 16 (fld (reg s (ctxKey k) 0x208) 4 0)

/-- The change of D that a grant makes (R91). -/
def mixChange (s : Block) (g : Nat) (n : Node) : Int :=
  if !(isCluster g) then 0
  else if n.load = 0 then 16 - (mixTarget s n.ctx : Int)
  else if n.load = 1 then -(mixTarget s n.ctx : Int)
  else 0

def mixApply (t : TwinId) (g : Nat) (dd : Int) (s : Block) : Block :=
  if isCluster g then
    upTw t (fun w => { w with rack := { w.rack with
      mix := mapSet 0 w.rack.mix g (max (-511) (min 511 (mapGet 0 w.rack.mix g + dd))) } }) s
  else s

/-! ### What a grant carries (R95, R182, R199, R205) -/

/-- The Recipe entry of a LAYER in the context's window; none outside it (R205, R212). -/
def recipeIdx (s : Block) (k layer : Nat) : Option Nat :=
  let w := (ctxOf s k).window
  if rangeEn w ∧ layer < min 4096 (fld w 44 32) then some (fld w 15 0 + layer) else none

def recipeOf (s : Block) (i : Nat) : Recipe := mapGet {} s.fmt.entries i

/-- FMT and TMASK of a grant (R182, R199, R205). -/
def grantFmt (s : Block) (k layer : Nat) (bwd : Bool) : Nat × Nat :=
  if !bwd then (0, 0)
  else match recipeIdx s k layer with
    | none => (4, 0)
    | some i =>
      let e := recipeOf s i
      let blks := fld (ctxOf s k).selCfg 47 40
      (e.format, if e.train = 0 then 0 else if e.rows < blks then 1 else 2)

def nodeGrant (s : Block) (id eng epoch : Nat) : GrantWord :=
  let n := nodeOf s id
  let f := grantFmt s n.ctx n.layer n.backward
  { node := id, gen := n.gen, ctx := n.ctx, desc := n.desc, layer := n.layer, kind := servedKind n,
    fmt := f.1, tmask := f.2, bwd := n.backward, rebake := n.kind == kRebake, eng := eng, epoch := epoch }

def copyGrant (s : Block) (c : Copy) (eng : Nat) : GrantWord :=
  let f := grantFmt s c.ctx c.layer c.bwd
  { node := c.node, gen := (c.gen + 1) % 256, ctx := c.ctx, desc := c.desc, layer := c.layer, kind := c.kind,
    fmt := f.1, tmask := f.2, bwd := c.bwd, rebake := c.rebake, eng := eng, epoch := 0 }

/-- The grant word of R95. -/
def grantBits (w : GrantWord) (scrub : Bool) : Nat :=
  w.node * 2 ^ 108 + w.gen * 2 ^ 100 + w.ctx * 2 ^ 92 + w.desc * 2 ^ 50 + w.layer * 2 ^ 38 + w.kind * 2 ^ 33
    + w.fmt * 2 ^ 29 + w.tmask * 2 ^ 27 + b2n w.bwd * 2 ^ 26 + b2n w.rebake * 2 ^ 25 + b2n scrub * 2 ^ 24
    + w.eng * 2 ^ 10 + w.epoch * 2 ^ 2 + 1

/-- LAST_USE of a context follows every grant decided for it (R298). -/
def useCtx (k : Nat) (s : Block) : Block := upCtx k (fun c => { c with lastUse := s.time }) s

/-- A grant decided for an LC task is charged against LEFT (R295); every grant is accounted (R308). -/
def chargeGrant (t : TwinId) (k g : Nat) (lc : Bool) (s : Block) : Block :=
  if lc then
    let d := domainOfGroup g
    let l := leftOf s t k d
    let s1 := upCtxTw t k (fun c => { c with left := mapSet 0 c.left d (l - 1) }) s
    let s2 := bumpCtx k 0x48 1 (bump (twKey t bakeP) 0x50 1 s1)
    if l = 1 then bump (twKey t bakeP) 0x58 1 s2 else s2
  else bumpCtx k 0x50 1 s

/-- The grant record of R387. -/
def grantTrace (t : TwinId) (w : GrantWord) (via : Bool) (key : Nat) (readyAt : Nat) (s : Block) : Block :=
  trace t 0x01 (some w.ctx) w.node (b2n via * 2 ^ 16 + (key / 64) * 2 ^ 8 + w.gen)
    (w.eng * 2 ^ 50 + ((key % 64) / 32) * 2 ^ 49 + ((key % 32) / 4) * 2 ^ 46 + (key % 4) * 2 ^ 44 + w.desc)
    (sat32 (s.time - readyAt)) s

/-- EPOCH_SEL of an EXPERT node's binding (R224): the Sorter's binding table of the node's home twin; 0 without one. -/
def epochSel (s : Block) (id : Nat) : Nat :=
  if (nodeOf s id).kind = kExpert then mapGet 0 (tw s (homeOf id)).sort.bind (slotOf id) else 0

/-- The entry of a re-bake node becomes RUNNING when the node is granted (R194). -/
def rebakeRuns (id : Nat) (s : Block) : Block :=
  let n := nodeOf s id
  if n.kind = kRebake then
    upTw (ctxOf s n.ctx).home (fun w => { w with lard := { w.lard with
      table := mapAll {} (fun _ e => if e.valid && e.r == id then { e with st := .running } else e) w.lard.table } }) s
  else s

/-- A grant is decided for the head node of a lane (R100): the head is unlinked, the node goes to GRANTED with GEN + 1,
a record opens, and LEFT and the counters follow. -/
def grantNode (t : TwinId) (key x eng : Nat) (via : Bool) (s : Block) : GrantWord × Int × Block :=
  let id := nodeIdOf t x
  let n := nodeOf s id
  let g := key / 64
  let ep := epochSel s id
  let s1 := rrAdvance t key (upLane t key popSlot s)
  let s2 := upNode id (fun n => { n with st := .granted, gen := (n.gen + 1) % 256 }) s1
  let s3 := openRec t { st := .issued, node := id, gen := (n.gen + 1) % 256, ctx := n.ctx,
                        time := s.time % 2 ^ 32, epoch := ep, via := via, bwd := n.backward, eng := eng } s2
  let s5 := rebakeRuns id (narrowFree id s3)
  let s6 := useCtx n.ctx (chargeGrant t n.ctx g (actLc s n.ctx n.lc) s5)
  let s7 := optEvent t 1 n.ctx true (some g) 1 (if via then optEvent t 2 n.ctx true (some g) 1 s6 else s6)
  let w := nodeGrant s7 id eng ep
  (w, mixChange s g n, grantTrace t w via key n.readyAt s7)

/-- A proxy copy is granted (R87, R104): PROXY_GRANT goes to its home twin. -/
def grantCopy (t : TwinId) (key : Nat) (c : Copy) (eng seq : Nat) (s : Block) : GrantWord × Block :=
  let s1 := rrAdvance t key (upLane t key popCopy s)
  let w := copyGrant s1 c eng
  let s2 := sendClaim (homeOf c.node) (.proxyGrant c.node w.gen eng seq) s1
  let s3 := useCtx c.ctx (chargeGrant t c.ctx c.group (actLc s c.ctx c.lc) s2)
  (w, grantTrace t w true key c.readyAt (optEvent t 1 c.ctx true (some c.group) 1 s3))

/-! ### Driving a grant (R96, R98) -/

/-- The primary twin drives a grant: SCRUB is set, and the task counts against the engine until its completion. -/
def drive (t : TwinId) (w : GrantWord) (s : Block) : Block :=
  let e := engOf s w.eng
  let g := (groupOf w.eng).getD 0
  let port := portOfGroup g
  let scrub := !e.lastV || e.lastCtx != w.ctx
  let s1 := upEng w.eng (fun e => { e with
    lastV := true, lastCtx := w.ctx,
    tasks := e.tasks ++ [{ node := w.node, gen := w.gen, ctx := w.ctx, accepted := false }] }) s
  let s2 := if scrub then bumpCtx w.ctx 0xB0 1 (bump (twKey t deskP) 0x90 1 s1) else s1
  let s3 := upTw t (fun x => { x with obs := { x.obs with
    ports := mapSet {} x.obs.ports port
      { mapGet {} x.obs.ports port with grants := satAdd ctrMax (mapGet {} x.obs.ports port).grants 1 } } }) s2
  emit (.grant port (grantBits w scrub)) s3

/-! ### Claims at the primary twin (R94, R98, R100, R102) -/

/-- The rank of a summary value (R101). -/
def rankOf (v cls lv : Nat) : Nat := if v = 0 then 0 else if cls = 1 then lv + 9 else lv + 1

/-- The summary entry of a group at its primary twin: rank and DEPTH (R101); empty while the partner is not IN_SERVICE,
which is forwarded nothing (R359). -/
def summaryOf (s : Block) (g : Nat) : Nat × Nat :=
  let t := primary s g
  if (tw s (partner t)).svc != .inService then (0, 0)
  else if g < 128 then
    let w := mapGet 0 (tw s t).rack.sumRx (g / 2)
    (rankOf (fld w 15 15) (fld w 14 14) (fld w 13 11), fld w 10 0)
  else if g < 144 then
    let i := 64 + (g - 128) / 2
    let w := mapGet 0 (tw s t).rack.sumRx i
    if i < 68 then (rankOf (fld w 15 15) (fld w 14 14) (fld w 13 11), fld w 10 0)
    else
      let c := fld w 10 8
      (rankOf (fld w 15 15) (fld w 14 14) (fld w 13 11), if c = 0 then 0 else 2 ^ (c - 1))
  else (0, 0)

/-- The summary entry that covers a group, by its number (R101). -/
def entryOf (g : Nat) : Nat := if g < 128 then g / 2 else 64 + (g - 128) / 2

def portHeld (s : Block) (g : Nat) : Bool := mapGet false s.holds (portOfGroup g)

/-- The claims held for a group, oldest first: engine and claim. -/
def groupClaims (s : Block) (g : Nat) : List (Nat × Claim) :=
  let r := groupEngines g
  let all := (s.engines.filter fun p => decide (r.1 ≤ p.1) && decide (p.1 < r.1 + r.2)).flatMap
    fun p => p.2.claims.map fun c => (p.1, c)
  insSort (fun a b => decide (a.2.seq ≤ b.2.seq)) all

def forwardedCount (s : Block) (g : Nat) : Nat := ((groupClaims s g).filter fun p => p.2.fwd).length

/-- The ports of a twin being detached, or handed back to one rejoining, hold every claim until the handover (R366,
R367). -/
def draining (s : Block) (g : Nat) : Bool :=
  match s.pair.op with
  | some (.detach, d) => primaryOfGroup g == d && s.pair.driver == none
  | some (.rejoin, d) => primaryOfGroup g == d && s.pair.driver != none
  | _ => false

/-- A claim waits for a refill step that is in flight (R88, R100). -/
def claimWaits (s : Block) (e : Nat) (c : Claim) : Bool :=
  match c.lane with
  | some key => decide (0 < (laneOf s (primary s ((groupOf e).getD 0)) key).refills)
  | none => false

/-- An engine's claim may be admitted to stage 1 (R25, R94, R98, R336, R366): the engine is in service, has no other
claim admitted, awaits no ACCEPT and has depth left, and its port is neither held nor being handed over. -/
def admissible (s : Block) (e : Nat) : Bool :=
  let x := engOf s e
  x.inService && !(x.claims.any fun c => c.fwd || claimWaits s e c) && !(x.tasks.any fun t => !t.accepted)
    && (match engKind e with
        | some k => decide (x.tasks.length < queueDepth k)
        | none => false)
    && !(portHeld s ((groupOf e).getD 0)) && !(draining s ((groupOf e).getD 0))

def upClaim (e seq : Nat) (f : Claim → Claim) (s : Block) : Block :=
  upEng e (fun x => { x with claims := x.claims.map fun c => if c.seq = seq then f c else c }) s

def dropClaim (e seq : Nat) (s : Block) : Block :=
  upEng e (fun x => { x with claims := x.claims.filter fun c => c.seq != seq }) s

/-- The MIX counters of a cluster group's primary twin (R111). -/
def countMix (t : TwinId) (g load : Nat) (s : Block) : Block :=
  if isCluster g ∧ load = 0 then bump (twKey t rackP) 0x60 1 s
  else if isCluster g ∧ load = 1 then bump (twKey t rackP) 0x68 1 s
  else s

/-- The head of a lane is granted to a claim of the primary twin itself. -/
def grantLocal (t : TwinId) (key e seq : Nat) (s : Block) : Block :=
  let l := laneOf s t key
  let g := key / 64
  match l.slots, l.copies with
  | x :: _, _ =>
    let n := nodeOf s (nodeIdOf t x)
    let r := grantNode t key x e false s
    let s1 := countMix t g n.load (mixApply t g r.2.1 (bump (twKey t deskP) 0x48 1 r.2.2))
    drive t r.1 (dropClaim e seq s1)
  | [], c :: _ =>
    let r := grantCopy t key c e seq s
    drive t r.1 (dropClaim e seq (bump (twKey t deskP) 0x48 1 r.2))
  | [], [] => s

/-- A lane chosen for a claim is granted from, or its refill is waited for (R88, R100). -/
def grantOrWait (t : TwinId) (key e seq : Nat) (s : Block) : Block :=
  if laneCached (laneOf s t key) = 0 then upClaim e seq (fun c => { c with lane := some key }) s
  else grantLocal t key e seq (upClaim e seq (fun c => { c with lane := none }) s)

/-- The depth limit of forwarding (R102, R118). -/
def fwdDepth (s : Block) (t : TwinId) : Nat :=
  let d := fld (reg s (twKey t deskP) 0x100) 3 0
  if d = 0 then 1 else if d > 8 then 8 else d

/-- A claim may be forwarded (R102, R103, R359, R393), with room in the claim channel (R15; log entry 75). -/
def mayForward (s : Block) (t : TwinId) (g : Nat) (c : Claim) : Bool :=
  c.noFwd == 0 && !(isPool g) && !(bitOf (reg s (twKey t deskP) 0x100) 4) && decide ((tw s (partner t)).claimIn.length < 64)
    && (tw s (partner t)).svc == .inService && (tw s t).svc == .inService && !(tw s (partner t)).halted
    && decide (forwardedCount s g < min (fwdDepth s t) (summaryOf s g).2)

/-- An admitted claim is served: granted from the twin's own racks, forwarded to more urgent work, or held (R102); while
every record is open it is held (R108). -/
def tryServe (t : TwinId) (e seq : Nat) (c : Claim) (s : Block) : Block :=
  let g := (groupOf e).getD 0
  let own := groupBest s t g
  let sm := summaryOf s g
  let d := mapGet 0 (tw s t).rack.mix g
  if recordsFull s t then s
  else if sm.1 ≤ own.1 ∧ 0 < own.1 then
    match pick t g d s with
    | (some key, s1) => grantOrWait t key e seq s1
    | (none, s1) => s1
  else if own.1 < sm.1 ∧ mayForward s t g c = true then
    bump (twKey t deskP) 0x58 1 (sendClaim (partner t) (.fwdClaim e g d seq)
      (upClaim e seq (fun c => { c with fwd := true, lane := none }) s))
  else if own.1 = 0 then (pick t g d s).2 -- heads that are not eligible leave their lanes at this read (R92)
  else s

/-- An engine's oldest held claim is tried once, where R98 admits it. -/
def tryOldest (e : Nat) (s : Block) : Block :=
  let t := primary s ((groupOf e).getD 0)
  match (engOf s e).claims with
  | c :: _ => if admissible s e && live s t then tryServe t e c.seq c s else s
  | [] => s

/-- The engine's oldest held claim is treated as sampled anew (R98, R100). Held claims of one rack group are served
oldest first (R94): the older ones of the group are tried before it. -/
def resample (e : Nat) (s : Block) : Block :=
  match (engOf s e).claims with
  | c :: _ =>
    let older := (groupClaims s ((groupOf e).getD 0)).filter fun p => decide (p.2.seq < c.seq)
    tryOldest e (forEach (older.map (·.1)) tryOldest s)
  | [] => s

/-- A claim is held: neither forwarded nor waiting for a lane (R102). -/
def claimHeld (s : Block) (e seq : Nat) : Bool :=
  (engOf s e).claims.any fun c => c.seq == seq && !c.fwd && !(claimWaits s e c)

/-- A claim that is held now, and was not before, counts in HELD_CLAIMS (R379). -/
def countHeld (e seq : Nat) (s : Block) : Block :=
  if claimHeld s e seq then optEvent (primary s ((groupOf e).getD 0)) 12 0 false (groupOf e) 1 s else s

/-- An engine-naming error of the DESK page (R116, R121). -/
def deskErr (t : TwinId) (bit e node : Nat) (s : Block) : Block :=
  upTw t (fun w => { w with desk := { w.desk with
      lastErr := 2 ^ 63 + bit * 2 ^ 48 + e * 2 ^ 34 + node % 2 ^ 20 } })
    (setErr (twKey t deskP) bit s)

/-- The engine is listed in R18 and belongs to the port. -/
def onPort (p e : Nat) : Bool :=
  match groupOf e with
  | some g => portOfGroup g == p
  | none => false

/-- CLAIM: a valid claim word is sampled (R18, R94). An engine out of service is granted nothing; its claim is
discarded. -/
def claimWord (p w : Nat) (s : Block) : Block :=
  let t := primary s p
  let e := fld w 30 17
  if !(bitOf w 31) then s
  else
    let s0 := bump (twKey t deskP) 0x40 1 s
    if !(onPort p e) then deskErr t 1 e 0 s0
    else
      let x := engOf s e
      let depth := (engKind e).elim 0 queueDepth
      if !x.inService then s0
      else if x.claims.length ≥ depth then deskErr t 2 e 0 s0
      else
        let q := s.claimSeq
        let s1 := upEng e (fun x => { x with claims := x.claims ++ [{ seq := q }] }) { s0 with claimSeq := q + 1 }
        countHeld e q (if (engOf s1 e).claims.length = 1 then resample e s1 else s1)

/-! ### Forwarded claims at the partner (R103) -/

/-- A forwarded claim is answered with the head of a lane. -/
def grantForwarded (t : TwinId) (key e tag : Nat) (s : Block) : Block :=
  match (laneOf s t key).slots with
  | x :: _ =>
    let load := (nodeOf s (nodeIdOf t x)).load
    let r := grantNode t key x e true s
    sendClaim (partner t) (.grant r.1 tag r.2.1 load) (bump (twKey t deskP) 0x50 1 r.2.2)
  | [] => s

/-- A forwarded claim is declined (R103): the summary entry of its group that is on the way was sent before, and the one
behind it will be sent after. -/
def decline (t : TwinId) (e tag : Nat) (s : Block) : Block :=
  let sent := (mapGet (0, 0) (tw s t).rack.sumTx (entryOf ((groupOf e).getD 0))).2
  sendClaim (partner t) (.decline e tag (sent + 1)) (bump (twKey t deskP) 0x60 1 s)

/-- FWD_CLAIM arrives: granted from the twin's own racks, or declined (R103, R108). -/
def fwdClaimAt (t : TwinId) (e g : Nat) (d : Int) (tag : Nat) (s : Block) : Block :=
  match pick t g d s with
  | (some key, s1) =>
    if laneCached (laneOf s1 t key) = 0 then
      upTw t (fun w => { w with desk := { w.desk with
        fwdWait := w.desk.fwdWait ++ [{ eng := e, group := g, d := d, tag := tag, lane := key }] } }) s1
    else grantForwarded t key e tag s1
  | (none, s1) => decline t e tag s1

/-- A claim of the primary twin that waited for a lane goes on: its lane's head is granted, or the claim is treated as sampled
anew. -/
def claimGoesOn (t : TwinId) (key e seq : Nat) (s : Block) : Block :=
  let s1 := upClaim e seq (fun c => { c with lane := none }) s
  match (engOf s1 e).claims.find? (fun c => c.seq == seq) with
  | none => s1
  | some c =>
    countHeld e seq
      (if !(admissible s1 e) then s1
       else match headWhy s1 t key with
         | some .ok => if recordsFull s1 t then s1 else grantOrWait t key e seq s1
         | _ => tryServe t e seq c s1)

/-- A forwarded claim that waited for a lane goes on: it is answered, or waits for a further refill (R103, R108). -/
def forwardedGoesOn (t : TwinId) (key : Nat) (f : FwdClaim) (s : Block) : Block :=
  let s1 := upTw t (fun w => { w with desk := { w.desk with
    fwdWait := w.desk.fwdWait.filter (fun x => x.tag != f.tag) } }) s
  if headWhy s1 t key = some .ok ∧ recordsFull s1 t = false ∧ 0 < laneCached (laneOf s1 t key) then
    grantForwarded t key f.eng f.tag s1
  else fwdClaimAt t f.eng f.group f.d f.tag s1

/-- LANE_REFILL: a refill step ends, and the claims that wait for the lane go on, oldest first: one is granted the entry, and
the others wait for the next step, or find the lane empty (R88, R100, R103). -/
def laneRefill (t : TwinId) (key : Nat) (s : Block) : Block :=
  let s1 := upLane t key (fun l => { l with refills := l.refills - 1 }) s
  let own := if primary s1 (key / 64) = t then
    (groupClaims s1 (key / 64)).filter fun p => p.2.lane == some key else []
  forEach ((tw s1 t).desk.fwdWait.filter fun f => f.lane == key) (forwardedGoesOn t key)
    (forEach own (fun p s => claimGoesOn t key p.1 p.2.seq s) s1)

/-! ### The primary twin's side of the Bridge (R103, R104) -/

/-- The claim belongs to the primary twin again and is not forwarded before the entry `newer` (R103). -/
def declineAt (t : TwinId) (e tag newer : Nat) (s : Block) : Block :=
  match (engOf s e).claims.find? (fun c => c.seq == tag) with
  | none => s
  | some c =>
    let s1 := upClaim e tag (fun c => { c with fwd := false, noFwd := newer }) s
    countHeld e tag (if admissible s1 e && live s1 t then tryServe t e tag { c with fwd := false, noFwd := newer } s1 else s1)

/-- A GRANT_RETURN is sent to a node's home twin with its reason (R104, R117). -/
def sendReturn (t : TwinId) (node gen : Nat) (fenced : Bool) (s : Block) : Block :=
  sendClaim (homeOf node) (.grantReturn node gen fenced) (bump (twKey t deskP) 0x68 1 s)

/-- GRANT items arrive: driven, kept until the hold of the port ends (R334), or returned when the engine has left service or
the context is fenced (R104). A claim whose grant is returned for a fence is still held, and is treated as sampled anew
(R94). -/
def grantAt (t : TwinId) (w : GrantWord) (tag : Nat) (dd : Int) (load : Nat) (s : Block) : Block :=
  let e := engOf s w.eng
  let waited := e.claims.any fun c => c.seq == tag
  let fenced := (ctxTw s t w.ctx).fenced
  if !waited || !e.inService then sendReturn t w.node w.gen fenced (dropClaim w.eng tag s)
  else if fenced then
    countHeld w.eng tag
      (resample w.eng (sendReturn t w.node w.gen true (upClaim w.eng tag (fun c => { c with fwd := false }) s)))
  else
    let g := (groupOf w.eng).getD 0
    if portHeld s g then
      upTw t (fun x => { x with desk := { x.desk with
        heldGrants := x.desk.heldGrants ++ [{ word := w, tag := tag, dd := dd, load := load }] } }) s
    else drive t w (mixApply t g dd (countMix t g load (dropClaim w.eng tag s)))

/-- The record of a node closes and the node is READY again, counted (R59), to be placed afresh, or left to
the teardown when its grant was returned for a fence (R56, R104, R107, R134, R142, R143). -/
def returnNode (node gen : Nat) (fenced : Bool) (s : Block) : Block :=
  match openRecOf s node gen with
  | none => s
  | some (i, r) =>
    let t := homeOf node
    let s1 := writersDec node (closeRec t i s)
    if !fenced && unfenced s1 t r.ctx && (nodeOf s1 node).st == .granted then
      pushWork [.place node false true] (readyTrace node 3 0 (countReady t r.ctx
        (upNode node (fun n => { n with st := .ready, readyAt := s.time }) s1)))
    else s1

/-! ### Accepts (R98, R107) -/

/-- An ACCEPT reaches the record of its node; one that was stale at the sampling, or whose record has closed meanwhile, is
counted as stale (R144, R160). -/
def acceptRec (node gen : Nat) (stale : Bool) (s : Block) : Block :=
  match (if stale then none else openRecOf s node gen) with
  | some (i, r) =>
    let t := homeOf node
    if r.st = .issued then setRec t i { r with st := .accepted } s else deskErr t 3 r.eng node s
  | none => bump (twKey (homeOf node) retP) 0x40 1 s

/-- ACCEPT is sampled at the primary twin (R98); one of an engine out of service is stale, and is counted in the home twin of
its node, to which the result travels with it (R144, R160). -/
def acceptWord (p : Nat) (e node gen : Nat) (s : Block) : Block :=
  let t := primary s p
  let s0 := bump (twKey t deskP) 0x70 1 s
  if !(onPort p e) then deskErr t 1 e 0 s0
  else
    let x := engOf s e
    if !x.inService then
      if homeOf node = t ∨ serves s0 (homeOf node) = false then bump (twKey t retP) 0x40 1 s0
      else sendClaim (homeOf node) (.acceptItem node gen e true) s0
    else match x.tasks.find? (fun k => k.node == node && k.gen == gen && !k.accepted) with
      | none => deskErr t 3 e node s0
      | some _ =>
        let s1 := upEng e (fun x => { x with tasks := x.tasks.map fun k =>
          if k.node = node ∧ k.gen = gen then { k with accepted := true } else k }) s0
        if homeOf node = t then acceptRec node gen false s1
        else sendClaim (homeOf node) (.acceptItem node gen e false) s1

/-! ### Summaries (R101, R102) -/

/-- The DEPTH code of entries 68 to 71 (R101). -/
def depthCode (n : Nat) : Nat := if n = 0 then 0 else min 7 (Nat.log2 n + 1)

/-- V, CLASS and LEVEL of a rank, as five bits. -/
def rankBits (r : Nat) : Nat := if r = 0 then 0 else if r ≥ 9 then 0x18 + (r - 9) else 0x10 + (r - 1)

/-- The pool group merged into entries 68 to 71 for a primary twin numbered p (R101). -/
def poolOfEntry (i p : Nat) : Nat :=
  match i with
  | 68 => 144 + p
  | 69 => 146 + p
  | 70 => 148 + 2 * p
  | _ => 149 + 2 * p

/-- A summary entry as twin t's racks give it, for its partner (R101). -/
def summaryValue (s : Block) (t : TwinId) (i : Nat) : Nat :=
  let p := twinNum (partner t)
  if i < 64 then
    let b := groupBest s t (2 * i + p)
    rankBits b.1 * 2 ^ 11 + min 2047 b.2
  else
    let b := groupBest s t (128 + 2 * (i - 64) + p)
    if i < 68 then rankBits b.1 * 2 ^ 11 + min 2047 b.2
    else
      let q := groupBest s t (poolOfEntry i p)
      (rankBits b.1 * 8 + depthCode b.2) * 2 ^ 8 + rankBits q.1 * 8 + depthCode q.2

/-- SUMMARY_ENTRY: an entry arrives at twin t as its partner sent it, the partner sends the next (log entry 66), and held
claims of its group may be forwarded (R101, R102), those that were declined before the entry was sent among them
(R103). -/
def summaryEntry (t : TwinId) (i : Nat) (s : Block) : Block :=
  let u := partner t
  if i > 71 ∨ serves s u = false then s
  else
    let g := if i < 64 then 2 * i + twinNum t else 128 + 2 * (i - 64) + twinNum t
    let sent := mapGet (0, 0) (tw s u).rack.sumTx i
    let s1 := upTw u (fun w => { w with rack := { w.rack with
      sumTx := mapSet (0, 0) w.rack.sumTx i (summaryValue s u i, sent.2 + 1) } }) s
    let s2 := bump (twKey t rackP) 0x78 1 (bump (twKey u rackP) 0x70 1
      (upTw t (fun w => { w with rack := { w.rack with
        sumRx := mapSet 0 w.rack.sumRx i sent.1, sumAt := mapSet 0 w.rack.sumAt i (s.ticks + 1) } }) s1))
    let claims := (groupClaims s2 g).map fun p => (p.1, p.2.seq)
    let s3 := forEach claims (fun p s =>
      upClaim p.1 p.2 (fun c => if c.noFwd ≤ sent.2 then { c with noFwd := 0 } else c) s) s2
    forEach claims (fun p s =>
      match (engOf s p.1).claims with
      | c :: _ => if c.seq = p.2 ∧ admissible s p.1 = true then tryServe t p.1 c.seq c s else s
      | [] => s) s3

/-! ### Appends and proxy handover (R87) -/

/-- A group reads the node's affinity shard where it lies (step 4 of R132). -/
def readsHome (s : Block) (n : Node) (t : TwinId) (g : Nat) : Bool :=
  let code := locCode (locOf s t n.affinity)
  let kind := servedKind n
  affinityHolds s t n && !(n.inserted && kind == kCopy)
    && (if tileLike n then code == g && decide (g < 128)
        else kind == kCopy || (decide (0x80 ≤ code) && decide (code ≤ 0x9F)))

/-- A placement appends a node: PLACEMENTS, and AFFINITY_HITS where the group is the home of its shard (R147). -/
def countPlaced (t : TwinId) (n : Node) (g : Nat) (s : Block) : Block :=
  let s1 := bump (twKey t shlfP) 0x40 1 s
  if readsHome s n t g then bump (twKey t shlfP) 0x48 1 s1 else s1

/-- A task is appended at the tail of its lane in a rack group, and counted in WRITERS (R87, R134). -/
def appendLane (id g : Nat) (s : Block) : Block :=
  let t := homeOf id
  let n := nodeOf s id
  let s1 := writersInc id (upLane t (nodeLane s g n) (fun l => { l with slots := l.slots ++ [slotOf id] }) s)
  optEvent t 14 n.ctx false (some g) 1 (bump (twKey t rackP) 0x40 1 (countPlaced t n g s1))

/-- The copy of a pool task's grant fields (R87). -/
def copyOf (id g : Nat) (n : Node) : Copy :=
  { node := id, gen := n.gen, ctx := n.ctx, desc := n.desc, layer := n.layer, kind := servedKind n, lc := n.lc,
    level := n.level, bwd := n.backward, rebake := n.kind == kRebake, group := g, readyAt := n.readyAt }

/-- A pool task is kept at the tail of its lane in its home twin's own group, which never grants it (R87). -/
def keepOwn (id g : Nat) (s : Block) : Block :=
  let t := homeOf id
  let n := nodeOf s id
  optEvent t 14 n.ctx false (some g) 1 (bump (twKey t rackP) 0x40 1
    (upLane t (nodeLane s g n) (fun l => { l with slots := l.slots ++ [slotOf id] }) s))

/-- A pool task goes to a group of which its home twin is not primary (R87): handed over under a reservation, or held
for its in-flight limit, or kept for want of a record. DESIGN CHOICE (log entry 99): the limit is tested before the record. -/
def handOver (id g : Nat) (s : Block) : Block :=
  let t := homeOf id
  let n := nodeOf s id
  let x := slotOf id
  if !(inflightRoom s t n.ctx) then holdNode t g x .inflight s
  else if recordsFull s t then
    upTw t (fun w => { w with rack := { w.rack with keptNoRec := w.rack.keptNoRec.erase x ++ [x] } })
      (keepOwn id g (writersInc id s))
  else
    let s1 := openRec t { st := .reserved, node := id, ctx := n.ctx } (writersInc id s)
    let s2 := upTw t (fun w => { w with rack := { w.rack with
      proxyOut := mapSet [] w.rack.proxyOut g (mapGet [] w.rack.proxyOut g ++ [x]) } }) s1
    sendClaim (partner t) (.proxy (copyOf id g n)) s2

/-- Placement racks a task in a group: in its lane, or by a handover (R87, R133), which PLACEMENTS counts unless the node is
held for its in-flight limit (R147; log entry 80). -/
def rackIn (id g : Nat) (s : Block) : Block :=
  let t := homeOf id
  let s := upNode id (fun n => { n with rackedAt := s.time }) s
  if isPool g && primary s g != t then
    let n := nodeOf s id
    handOver id g (if inflightRoom s t n.ctx then countPlaced t n g s else s)
  else appendLane id g s

/-- Copies a twin holds for its proxy lanes, those in holding racks included (R87). DESIGN CHOICE (log entry 72): the 4,096
are counted over all the proxy lanes of the twin. -/
def copiesHeld (s : Block) (t : TwinId) : Nat :=
  (tw s t).rack.lanes.foldl (fun a p => a + p.2.copies.length) 0
    + (tw s t).ctxs.foldl (fun a p => a + p.2.holdCopies.length) 0

def copyLane (s : Block) (c : Copy) : Nat := laneKey c.group (actLc s c.ctx c.lc) c.level 3

/-- A copy is appended at the tail of its proxy lane (R87, R92, R111). -/
def appendCopy (t : TwinId) (c : Copy) (s : Block) : Block :=
  optEvent t 14 c.ctx false (some c.group) 1 (bump (twKey t rackP) 0x40 1
    (upLane t (copyLane s c) (fun l => { l with copies := l.copies ++ [c] }) s))

/-- Copies leave a twin's proxy lanes, or its holding racks too, otherwise than by a grant: each goes back to its home twin
(R87). -/
def sendBack (t : TwinId) (heldToo : Bool) (p : Copy → Bool) (s : Block) : Block :=
  let gone := ((tw s t).rack.lanes.flatMap fun q => q.2.copies.filter p)
    ++ (if heldToo then (tw s t).ctxs.flatMap fun q => q.2.holdCopies.filter p else [])
  let clean (l : Lane) : Lane :=
    if l.copies.any p then
      { l with copies := l.copies.filter (fun c => !(p c)), refills := min 2 (l.copies.filter (fun c => !(p c))).length }
    else l
  forEach gone (fun c s => sendClaim (homeOf c.node) (.proxyBack c.node) s)
    (upTw t (fun w => { w with
      rack := { w.rack with lanes := mapAll {} (fun _ l => clean l) w.rack.lanes }
      ctxs := if heldToo then mapAll {} (fun _ c => { c with holdCopies := c.holdCopies.filter (fun c => !(p c)) }) w.ctxs
        else w.ctxs }) s)

/-- PROXY arrives at the pool's primary twin (R87); a twin that detaches sends the copy back (R366). -/
def proxyAt (t : TwinId) (c : Copy) (s : Block) : Block :=
  if copiesHeld s t ≥ 4096 then
    sendClaim (partner t) (.proxyRefused c.node) (setErr (twKey t rackP) 2 s)
  else if !(groupUp s t c.group) || (tw s t).svc == .detaching then sendClaim (partner t) (.proxyBack c.node) s
  else bump (twKey t rackP) 0x58 1 (appendCopy t c s)

/-- The pool group in whose proxy-out list a node lies. -/
def proxyGroup (s : Block) (node : Nat) : Option Nat :=
  ((tw s (homeOf node)).rack.proxyOut.find? fun p => p.2.contains (slotOf node)).map (·.1)

/-- The node leaves the proxy-out list. -/
def proxyLeave (node g : Nat) (s : Block) : Block :=
  upTw (homeOf node) (fun w => { w with rack := { w.rack with
    proxyOut := mapSet [] w.rack.proxyOut g ((mapGet [] w.rack.proxyOut g).erase (slotOf node)) } }) s

def reservationOf (s : Block) (node : Nat) : Option (Nat × CircRec) :=
  findRec s (homeOf node) fun r => r.st == .reserved && r.node == node

def releaseReservation (node : Nat) (s : Block) : Block :=
  match reservationOf s node with
  | some (i, _) => closeRec (homeOf node) i s
  | none => s

/-- PROXY_GRANT arrives: the reserved record opens and GEN is incremented (R104). -/
def proxyGrantAt (node gen eng : Nat) (s : Block) : Block :=
  let t := homeOf node
  match proxyGroup s node, reservationOf s node with
  | some g, some (i, _) =>
    let n := nodeOf s node
    let s1 := proxyLeave node g s
    let s2 := upNode node (fun n => { n with st := .granted, gen := gen }) s1
    let s3 := setRec t i { st := .issued, node := node, gen := gen, ctx := n.ctx, time := s.time % 2 ^ 32,
                           epoch := 0, via := true, bwd := n.backward, eng := eng } s2
    pushWork [.retryProxy t g] (rebakeRuns node (narrowFree node s3))
  | some g, none => pushWork [.retryProxy t g] s
  | none, _ => s

/-- PROXY_REFUSED arrives: the reservation is released and the node kept at the tail of its lane (R87). -/
def proxyRefusedAt (node : Nat) (s : Block) : Block :=
  match proxyGroup s node with
  | none => s
  | some g => keepOwn node g (releaseReservation node (proxyLeave node g s))

/-- PROXY_BACK arrives: the node leaves the proxy-out list and is placed again (R87, R142). -/
def proxyBackAt (node : Nat) (s : Block) : Block :=
  match proxyGroup s node with
  | none => s
  | some g =>
    pushWork [.place node false true, .retryProxy (homeOf node) g]
      (writersDec node (releaseReservation node (proxyLeave node g s)))

/-- One kept node of a pool group is handed over again: the head of the first non-empty lane of R89 (R87). -/
def retryProxy (t : TwinId) (g : Nat) (s : Block) : Block :=
  if primary s g = t then s
  else match (groupLanes g).find? (fun key => !(laneOf s t key).slots.isEmpty) with
    | none => s
    | some key =>
      match (laneOf s t key).slots with
      | x :: _ =>
        handOver (nodeIdOf t x) g (upTw t (fun w => { w with rack := { w.rack with
          keptNoRec := w.rack.keptNoRec.erase x } }) (upLane t key popSlot s))
      | [] => s

/-- A holding rack is released: its nodes are placed again, its copies go to the tail of their proxy lanes (R92). -/
def holdRelease (t : TwinId) (k : Nat) (s : Block) : Block :=
  let c := ctxTw s t k
  let s1 := upCtxTw t k (fun c => { c with holdNodes := [], holdCopies := [], capHeld := false, inflHeld := false }) s
  let s2 := bump (twKey t rackP) 0x50 (c.holdNodes.length + c.holdCopies.length) s1
  let s3 := forEach c.holdCopies (appendCopy t) s2
  pushWork (c.holdNodes.map fun x => .place (nodeIdOf t x) false true)
    (forEach c.holdNodes (fun x s => writersDec (nodeIdOf t x) s) s3)

end Sys2Proof.Machine
end

