-- ==== Sys2Proof/Machine/Flush.lean ====
section
/-! DEFINITION. Widening flushes and system drains (06, R155 to R159): needs, and their issue. -/

namespace Sys2Proof.Machine

/-- The byte address held by a base register with BASE in [47:6] (R175). -/
def baseAddr (r : Nat) : Nat := fld r 47 6 * 64

/-- A flush is driven on a cluster port and its ack read issued (R155). -/
def driveFlush (c : Nat) (ws : List Waiter) (s : Block) : Block :=
  let p := primary s c
  let tag := ((flushOf s c).tag + 1) % 256
  let s1 := upFlush c (fun f => { f with
    tag := tag, out := true, fresh := false, retry := false, cur := ws, next := [], since := s.time }) s
  let s2 := optEvent p 10 noCtx true (some c) 1 (bump (twKey p retP) 0x78 1 s1)
  emit (.nocRead p (baseAddr (reg s (twKey p retP) 0x100) + c * 64) 8) (emit (.flush c (0x8000 + tag)) s2)

/-- A need for a flush reaches the cluster's primary twin (R156, R159). -/
def localNeed (c : Nat) (w : Waiter) (s : Block) : Block :=
  let p := primary s c
  let f := flushOf s c
  if !f.dirty then pushWork [.flushEnd w true] s
  else if !(bitOf (reg s (twKey p retP) 0x100) 63) then
    pushWork [.flushEnd w false] (setErr (twKey p retP) 2 s)
  else if f.out then upFlush c (fun f => { f with next := f.next ++ [w] }) s
  else driveFlush c [w] s

/-- A FLUSH_REQ is sent and its waiter kept under a tag (R157). -/
def askFlush (t : TwinId) (what : Option Nat) (w : Waiter) (s : Block) : Block :=
  let tag := (tw s t).ret.nextTag
  sendItem t (partner t) (.flushReq what tag)
    (upTw t (fun x => { x with ret := { x.ret with
      nextTag := (tag + 1) % 65536, reqs := x.ret.reqs ++ [(tag, what, w)] } }) s)

/-- A twin needs a flush of a cluster: met by the primary twin, itself or the partner (R156, R157). -/
def needFlush (t : TwinId) (c : Nat) (w : Waiter) (s : Block) : Block :=
  if primary s c = t then localNeed c w s else askFlush t (some c) w s

/-- The clusters of which a twin is primary and that are DIRTY. -/
def dirtyClusters (s : Block) (t : TwinId) : List Nat :=
  (s.flushes.filter fun p => p.2.dirty && primary s p.1 == t).map (·.1)

/-- A drain's reads are issued to the points that are enabled (R158, R175). DESIGN CHOICE (log entry 93): SYS_DRAINS (R174) also
counts a drain with neither point enabled, which ends at once. -/
def issueDrain (t : TwinId) (ws : List Waiter) (s : Block) : Block :=
  let h := reg s (twKey t retP) 0x110
  let l := reg s (twKey t retP) 0x118
  let s1 := bump (twKey t retP) 0x90 1 s
  let s2 := upTw t (fun w => { w with ret := { w.ret with drain :=
    { out := true, host := bitOf h 63, link := bitOf l 63, cur := ws, next := [] } } }) s1
  let s3 := if bitOf h 63 then emit (.nocRead t (baseAddr h) 8) s2 else s2
  let s4 := if bitOf l 63 then emit (.nocRead t (baseAddr l) 8) s3 else s3
  if bitOf h 63 || bitOf l 63 then s4
  else
    pushWork (ws.map fun w => .drainEnd w true)
      (upTw t (fun w => { w with ret := { w.ret with drain := {} } }) s4)

/-- A need for a system drain: it shares the next drain when one is outstanding (R158). -/
def needDrain (t : TwinId) (w : Waiter) (s : Block) : Block :=
  if (tw s t).ret.drain.out then
    upTw t (fun x => { x with ret := { x.ret with drain := { x.ret.drain with next := x.ret.drain.next ++ [w] } } }) s
  else issueDrain t [w] s

/-- A drain has ended, or timed out; the needs that waited share a new one (R158, R159). -/
def endDrain (t : TwinId) (ok : Bool) (s : Block) : Block :=
  let d := (tw s t).ret.drain
  let s1 := pushWork (d.cur.map fun w => .drainEnd w ok)
    (upTw t (fun w => { w with ret := { w.ret with drain := {} } }) s)
  if d.next.isEmpty then s1 else issueDrain t d.next s1

/-- A flush has ended, or timed out: DIRTY is cleared only by an end, and only when no COMPLETE was sampled since the
flush was driven; the needs that waited share a new flush (R156, R159). -/
def endFlush (c : Nat) (ok : Bool) (s : Block) : Block :=
  let f := flushOf s c
  let p := primary s c
  let s1 := trace p 0x06 none 0 f.tag c (sat32 (s.time - f.since)) s
  let s2 := upFlush c (fun f => { f with
    dirty := if ok then f.fresh else f.dirty, out := false, fresh := false, retry := false, cur := [], next := [] }) s1
  let s3 := pushWork (f.cur.map fun w => .flushEnd w ok) s2
  if f.next.isEmpty then s3
  else if bitOf (reg s3 (twKey p retP) 0x100) 63 then driveFlush c f.next s3
  else forEach f.next (localNeed c) s3

/-- FLUSH_ACK_READ: the ack read of a cluster's flush is answered (R155). DESIGN CHOICE (log entry 100): an answer that comes
while the twin is halted has no effect. -/
def flushAckRead (c : Nat) (answer : Option Nat) (s : Block) : Block :=
  let f := flushOf s c
  if f.out = false ∨ f.retry = true ∨ live s (primary s c) = false then s
  else
    match answer with
    | some v => if v % 256 = f.tag then endFlush c true s else upFlush c (fun f => { f with retry := true }) s
    | none => upFlush c (fun f => { f with retry := true }) s

/-- FLUSH_RETRY of a flush: RETRY_GAP has passed and the read is issued again (R155). -/
def flushRetry (c : Nat) (s : Block) : Block :=
  let p := primary s c
  if (flushOf s c).retry && live s p then
    emit (.nocRead p (baseAddr (reg s (twKey p retP) 0x100) + c * 64) 8) (upFlush c (fun f => { f with retry := false }) s)
  else s

/-- FLUSH_RETRY of a drain: the reads answered with an error are issued again (R158). -/
def drainRetry (t : TwinId) (s : Block) : Block :=
  let d := (tw s t).ret.drain
  if !(live s t) then s
  else
    let s1 := if d.retryHost then emit (.nocRead t (baseAddr (reg s (twKey t retP) 0x110)) 8) s else s
    let s2 := if d.retryLink then emit (.nocRead t (baseAddr (reg s (twKey t retP) 0x118)) 8) s1 else s1
    upTw t (fun w => { w with ret := { w.ret with drain := { w.ret.drain with retryHost := false, retryLink := false } } }) s2

/-- DRAIN_READ_ANSWER (R158). DESIGN CHOICE (log entry 100): an answer that comes while the twin is halted has no effect. -/
def drainAnswer (t : TwinId) (point : DrainPoint) (ok : Bool) (s : Block) : Block :=
  let d := (tw s t).ret.drain
  let up (f : Drain → Drain) (s : Block) : Block :=
    upTw t (fun w => { w with ret := { w.ret with drain := f w.ret.drain } }) s
  if !(live s t) then s
  else
    let s1 := match point with
      | .host => if d.host && !d.retryHost then
          up (fun d => if ok then { d with host := false } else { d with retryHost := true }) s else s
      | .link => if d.link && !d.retryLink then
          up (fun d => if ok then { d with link := false } else { d with retryLink := true }) s else s
    let d1 := (tw s1 t).ret.drain
    if d1.out && !d1.host && !d1.link then endDrain t true s1 else s1

/-- FLUSH_REQ arrives: a need of the receiver's own, or one for every DIRTY cluster of which it is primary (R157). -/
def flushReqAt (t : TwinId) (what : Option Nat) (tag : Nat) (s : Block) : Block :=
  match what with
  | some c => localNeed c (.remote t tag) s
  | none =>
    let cs := dirtyClusters s t
    if cs.isEmpty then sendItem t (partner t) (.flushDone tag false) s
    else forEach cs (fun c s => localNeed c (.remoteAll t tag) s)
      (upTw t (fun x => { x with ret := { x.ret with allReqs := x.ret.allReqs ++ [(tag, cs.length, false)] } }) s)

/-- FLUSH_DONE arrives: the waiter kept under its tag goes on (R157). -/
def flushDoneAt (t : TwinId) (tag : Nat) (timeout : Bool) (s : Block) : Block :=
  match (tw s t).ret.reqs.find? (fun p => p.1 == tag) with
  | none => s
  | some (_, _, w) =>
    pushWork [.flushEnd w (!timeout)]
      (upTw t (fun x => { x with ret := { x.ret with reqs := x.ret.reqs.filter (fun p => p.1 != tag) } }) s)

/-- A flush need of a FLUSH_REQ with ALL ends; the last one answers it (R157, R167). -/
def remoteAllEnd (t : TwinId) (tag : Nat) (ok : Bool) (s : Block) : Block :=
  match (tw s t).ret.allReqs.find? (fun p => p.1 == tag) with
  | none => s
  | some (_, n, bad) =>
    let rest := (tw s t).ret.allReqs.filter (fun p => p.1 != tag)
    if n ≤ 1 then
      sendItem t (partner t) (.flushDone tag (bad || !ok))
        (upTw t (fun x => { x with ret := { x.ret with allReqs := rest } }) s)
    else upTw t (fun x => { x with ret := { x.ret with allReqs := rest ++ [(tag, n - 1, bad || !ok)] } }) s

end Sys2Proof.Machine
end

