-- ==== Sys2Proof/Machine/Shelf.lean ====
section
/-! DEFINITION. The Shelf List (05): shards, placement, moves, and engines leaving and entering service. -/

namespace Sys2Proof.Machine

/-! ### Shards and locations (R124, R126) -/

def ownerOf (shard : Nat) : TwinId := twinOf (shard >>> 17)

def shardOf (s : Block) (shard : Nat) : Shard := mapGet {} (tw s (ownerOf shard)).shelf.shards (shard % 131072)

def upShard (shard : Nat) (f : Shard → Shard) (s : Block) : Block :=
  upTw (ownerOf shard) (fun w => { w with shelf := { w.shelf with
    shards := mapSet {} w.shelf.shards (shard % 131072) (f (mapGet {} w.shelf.shards (shard % 131072))) } }) s

def setLoc (t : TwinId) (shard w : Nat) (s : Block) : Block :=
  upTw t (fun x => { x with shelf := { x.shelf with locs := mapSet 0xFF x.shelf.locs shard w } }) s

/-- Bits [31:17] of a mirror entry as an ALLOC takes them (R126). -/
def locHi (e : Shard) : Nat :=
  let spadV := bitOf e.w2 16
  let off := fld e.w2 9 0
  let size := fld e.w1 15 0
  b2n e.pin * 2 ^ 31 + b2n spadV * 2 ^ 30 + fld e.w1 23 19 * 2 ^ 25
    + (if spadV then (off / 64) % 16 * 2 ^ 21 + ((off + size - 1) / 64) % 16 * 2 ^ 17 else 0)

/-- The location code of a shard entry (R126). -/
def entryCode (e : Shard) : Nat :=
  match e.st with
  | .free => 0xFF
  | .home => 0x80 + fld e.w1 23 19
  | .cluster => e.cluster
  | .moving => 0xA0
  | .faulted => 0xFE

/-- The owner's mirror takes the entry's location, and LOC is sent to the partner (R126). -/
def publish (shard : Nat) (alloc : Bool) (s : Block) : Block :=
  let t := ownerOf shard
  let e := shardOf s shard
  let hi := if alloc then locHi e else (locOf s t shard / 2 ^ 17) * 2 ^ 17
  let code := entryCode e
  let k := if e.st = .free then locCtx (locOf s t shard) else e.ctx
  let s1 := setLoc t shard (if code = 0xFF then 0xFF else hi + k * 2 ^ 8 + code) s
  if serves s (partner t) then
    sendItem t (partner t) (.loc shard code k (if alloc then some hi else none)) s1
  else s1

/-- A shard lies in its context's range in its twin (R127). -/
def inShardRange (s : Block) (k shard : Nat) : Bool :=
  let r := (ctxTw s (ownerOf shard) k).shardRange
  let b := (shard % 131072) / 1024
  rangeEn r && decide (fld r 6 0 ≤ b) && decide (b ≤ fld r 22 16)

/-! ### The partition (R129) -/

def inClusterMask (s : Block) (k c : Nat) : Bool :=
  if c < 64 then bitOf (reg s (ctxKey k) 0x220) c else bitOf (reg s (ctxKey k) 0x228) (c - 64)

def inMatrixMask (s : Block) (k g : Nat) : Bool := bitOf (fld (reg s (ctxKey k) 0x218) 39 24) g

def spadBanks (s : Block) (k : Nat) : Nat := fld (reg s (ctxKey k) 0x230) 8 0

/-- Every bank from the first to the last lies in SPAD_BANKS. -/
def banksFit (s : Block) (k first last : Nat) : Bool :=
  (List.range (last + 1 - first)).all fun i => bitOf (spadBanks s k) (first + i)

/-! ### Candidates and depth (R131) -/

def candidates (s : Block) (t : TwinId) (n : Node) : List Nat :=
  let kind := servedKind n
  let gs :=
    if kind = kTile ∨ kind = kRoute then (List.range 128).filter (inClusterMask s n.ctx)
    else if kind = kMatrix ∨ kind = kExpert then
      ((List.range 16).filter (inMatrixMask s n.ctx)).map (fun g => 128 + g)
    else if kind = kGather then [148, 149]
    else if kind = kScatter then [150, 151]
    else [144, 145, 146, 147]
  gs.filter (groupUp s t)

def twinBias (s : Block) (k : Nat) : Nat := fld (reg s (ctxKey k) 0x218) 19 16
def moveGain (s : Block) (k : Nat) : Nat := fld (reg s (ctxKey k) 0x218) 15 8

/-- The depth of a group as a twin sees it for a context's node (R131). -/
def depthOf (s : Block) (t : TwinId) (k g : Nat) : Nat :=
  groupCount s t g + (if primary s g = t then (summaryOf s g).2 else twinBias s k)

/-- The candidate of least depth, ties as R132 gives. -/
def leastDepth (s : Block) (t : TwinId) (k : Nat) (cs : List Nat) : Option Nat :=
  let rot := (ctxTw s t k).rot
  let rank (g : Nat) : Nat :=
    depthOf s t k g * 512 + (if primary s g = t then 0 else 256) + (g + 152 - rot) % 152
  cs.foldl (fun b g => match b with
    | none => some g
    | some h => if rank g < rank h then some g else some h) none

/-- The near quadrant of a location code (R131). -/
def nearQuadrant (code : Nat) : Nat := if code < 0x80 then 144 + code / 32 else 144 + (code - 0x80) / 8

/-- The candidate that reads the shard at its location (step 4 of R132). -/
def homeGroup (s : Block) (t : TwinId) (n : Node) (code : Nat) (cs : List Nat) : Option Nat :=
  let kind := servedKind n
  let hbm := decide (0x80 ≤ code) && decide (code ≤ 0x9F)
  if tileLike n then (if code < 0x80 ∧ cs.contains code then some code else none)
  else if kind = kGather ∨ kind = kScatter then
    if !hbm then none
    else
      let base := if kind = kGather then 148 else 150
      let near := base + (code - 0x80) / 16
      if cs.contains near then some near else cs.head?
  else if kind = kCopy then
    if cs.contains (nearQuadrant code) then some (nearQuadrant code) else leastDepth s t n.ctx cs
  else if hbm then leastDepth s t n.ctx cs else none

/-! ### Faults of the Shelf List (R148, R149) -/

def shelfFault (t : TwinId) (k code shard node : Nat) (s : Block) : Block :=
  raiseFault t k code node
    (upTw t (fun w => { w with shelf := { w.shelf with
        lastFault := lastWord code k + (shard % 2 ^ 18) * 2 ^ 20 + node % 2 ^ 20 } })
      (setErr (twKey t shlfP) 2 s))

/-! ### The insertion pool (R137) -/

/-- The lowest free slot of the insertion pool: no node in it, and no owner. -/
def poolSlot (s : Block) (t : TwinId) : Option Nat :=
  let r := reg s (twKey t shlfP) 0x100
  let used := insSort (fun a b => decide (a.1 ≤ b.1))
    ((tw s t).cat.nodes.map (fun p => (p.1, ())) ++ (tw s t).shelf.owners.map fun p => (p.1, ()))
  if rangeEn r then firstFree used (fld r 8 0 * 1024) ((fld r 24 16 + 1) * 1024) else none


/-- DESC_PTR of a pool slot, in units of 64 B. -/
def poolDesc (s : Block) (t : TwinId) (slot : Nat) : Nat :=
  fld (reg s (twKey t shlfP) 0x108) 47 6 + (slot - fld (reg s (twKey t shlfP) 0x100) 8 0 * 1024)

/-! ### Waiting on a shard (R139, R140) -/

def waitIdx (s : Block) (t : TwinId) (shard : Nat) : Option Nat :=
  ((tw s t).shelf.waits.find? fun p => p.2.shard == shard).map (·.1)

/-- The wait entry tagged with a shard, or a free one. -/
def waitRoom (s : Block) (t : TwinId) (shard : Nat) : Option Nat :=
  match waitIdx s t shard with
  | some i => some i
  | none => firstFree (tw s t).shelf.waits 0 2048

def upWait (t : TwinId) (i : Nat) (f : WaitEnt → WaitEnt) (s : Block) : Block :=
  upTw t (fun w => { w with shelf := { w.shelf with
    waits := mapSet {} w.shelf.waits i (f (mapGet {} w.shelf.waits i)) } }) s

/-- The node waits in the insertion wait rack (R140), on a move of its own shard (R387). -/
def linkInsWait (id : Nat) (s : Block) : Block :=
  let t := homeOf id
  let n := nodeOf s id
  trace t 0x04 (some n.ctx) id 3 (n.affinity * 2 ^ 46) 0 <| bump (twKey t shlfP) 0x70 1
    (upTw t (fun w => { w with shelf := { w.shelf with insWait := w.shelf.insWait ++ [slotOf id] } }) s)

/-- The node waits on a shard, or in the insertion wait rack for want of an entry. -/
def waitOn (id shard : Nat) (s : Block) : Block :=
  let t := homeOf id
  match waitRoom s t shard with
  | none => linkInsWait id s
  | some i =>
    trace t 0x04 (some (nodeOf s id).ctx) id 3 (shard * 2 ^ 46) 0
      (upWait t i (fun e => { e with valid := true, shard := shard, nodes := e.nodes ++ [slotOf id] }) s)

/-! ### Moves (R135 to R141) -/

/-- The copy descriptor of R138. -/
def copyDesc (e : Shard) (shard src dest : Nat) : List Nat :=
  let srcSpad := decide (src < 0x80)
  let dstSpad := decide (dest < 128)
  let hbm := fld e.w1 63 24 * 256
  let spad := fld e.w2 9 0 * 256
  [0xA1 * 2 ^ 56 + e.ctx * 2 ^ 48 + shard * 2 ^ 22,
   if srcSpad then spad else hbm,
   if dstSpad then spad else hbm,
   fld e.w1 15 0 * 256,
   fld e.w2 15 10 * 2 ^ 18 + (if dstSpad then dest * 2 ^ 11 else 0) + (if srcSpad then src * 2 ^ 4 else 0)
     + b2n dstSpad * 8 + b2n srcSpad * 4, 0, 0, 0]

/-- The move may start now: the shard is idle, and a wait entry and a pool slot are free. -/
def moveRoom (s : Block) (shard : Nat) : Option (Nat × Nat) :=
  match waitRoom s (ownerOf shard) shard, poolSlot s (ownerOf shard) with
  | some i, some x => some (i, x)
  | _, _ => none

/-- The location code of a move's destination, 128 for HBM (R126). -/
def moveCode (e : Shard) (dest : Nat) : Nat := if dest < 128 then dest else 0x80 + fld e.w1 23 19

/-- The MOVE record of a move's start or end (R387). -/
def moveTrace (t : TwinId) (k : Nat) (ends : Bool) (shard src code copy : Nat) (s : Block) : Block :=
  trace t 0x05 (some k) 0 (b2n ends) (shard * 2 ^ 46 + src * 2 ^ 38 + code * 2 ^ 30 + copy) 0 s

/-- The owner starts a move (R136, R137); a move for load counts in LOAD_MOVES of the owner (R147; log entry 80), and one that a
placement asked for in PLACE_MOVES (R379). -/
def startMove (m : MoveWant) (i x : Nat) (s : Block) : Block :=
  let t := ownerOf m.shard
  let e := shardOf s m.shard
  let src := entryCode e
  let copy := nodeIdOf t x
  let node : Node := {
    st := .loading, kind := kCopy, load := 1, scope := 2, lc := m.lc, level := m.level,
    ctx := e.ctx, affinity := m.shard, desc := poolDesc s t x, inserted := true, mode := 0,
    succBase := twinNum t * 2 ^ 22 }
  let s1 := upWait t i (fun w => { w with valid := true, shard := m.shard, moving := true, copy := copy }) s
  let s2 := setNode copy node (setOwner t x (e.ctx + 1) s1)
  let s3 := upShard m.shard (fun e => { e with
    st := .moving, cluster := if m.dest < 128 then m.dest else 0, destHbm := decide (m.dest = 128),
    moveEntry := i }) s2
  let s4 := upTw t (fun w => { w with shelf := { w.shelf with
    moves := w.shelf.moves ++ [{ want := m, src := src, copy := copy, locAck := !(serves s (partner t)) }] } }) s3
  let s5 := emit (.nocWrite t (poolDesc s t x * 64) (copyDesc e m.shard src m.dest)) (publish m.shard false s4)
  moveTrace t e.ctx false m.shard src (moveCode e m.dest) copy
    (bump (twKey t shlfP) 0x50 1
      (if m.placed then optEvent t 9 e.ctx true none 1 (if m.load then bump (twKey t shlfP) 0x60 1 s5 else s5) else s5))

/-- The shard already lies at a destination (128 for HBM). -/
def atDest (e : Shard) (dest : Nat) : Bool :=
  if dest < 128 then e.st == .cluster && e.cluster == dest else e.st == .home

def movable (e : Shard) : Bool := e.st == .home || e.st == .cluster

/-- A COPY node leaves, and its slot returns to the insertion pool (R137). -/
def freeCopy (t : TwinId) (copy : Nat) (s : Block) : Block := setNode copy {} (setOwner t (slotOf copy) 0 s)

/-- A move that the owner has decided: started, or kept pending for want of room (R140). -/
def decideMove (m : MoveWant) (s : Block) : Block :=
  let t := ownerOf m.shard
  match (if movable (shardOf s m.shard) then moveRoom s m.shard else none) with
  | some (i, x) => startMove m i x s
  | none => upTw t (fun w => { w with shelf := { w.shelf with pendMoves := w.shelf.pendMoves ++ [m] } }) s

/-- The COPY node is sealed once LOC_ACK and the descriptor's acknowledgement have arrived (R136). -/
def sealCopy (shard : Nat) (s : Block) : Block :=
  let t := ownerOf shard
  match (tw s t).shelf.moves.find? (fun m => m.want.shard == shard) with
  | none => s
  | some m =>
    if m.locAck && m.descAck && (nodeOf s m.copy).st == .loading then
      let w := (shardOf s shard).writers
      pushWork [.evaluate m.copy 3 0]
        (sealed m.copy (upNode m.copy (fun n => { n with cf := w, initCount := w, cfSet := true }) s))
    else s

def upMove (shard : Nat) (f : Move → Move) (s : Block) : Block :=
  upTw (ownerOf shard) (fun w => { w with shelf := { w.shelf with
    moves := w.shelf.moves.map fun m => if m.want.shard = shard then f m else m } }) s

def dropMove (shard : Nat) (s : Block) : Block :=
  upTw (ownerOf shard) (fun w => { w with shelf := { w.shelf with
    moves := w.shelf.moves.filter fun m => m.want.shard != shard } }) s

/-- The waiting nodes of a shard in a twin are placed again, and its entry there is freed (R139). -/
def releaseWaiters (t : TwinId) (shard : Nat) (s : Block) : Block :=
  match waitIdx s t shard with
  | none => s
  | some i =>
    let e := mapGet {} (tw s t).shelf.waits i
    let s1 := upWait t i (fun e => if e.moving && ownerOf shard == t then { e with nodes := [] } else {}) s
    retryFirst t (pushWork (e.nodes.map (fun x => .place (nodeIdOf t x) true true)) s1)

/-- A stash credit that the Larder sends itself (R190): a NORMAL credit to G(F) at TILE scope. -/
def larderCredit (t : TwinId) (k g src : Nat) (s : Block) : Block :=
  sendItem t (homeOf g) (.credit { word := g % 2 ^ 20, ctx := k, src := src, org := 3 }) s

/-- The move's COPY completes (R139): the shard takes its destination, LOC is sent, the COPY node is released, and the
Larder sends the stash credit it owes (R190). -/
def endMove (shard : Nat) (s : Block) : Block :=
  let t := ownerOf shard
  match (tw s t).shelf.moves.find? (fun m => m.want.shard == shard) with
  | none => s
  | some m =>
    let e := shardOf s shard
    let s1 := upShard shard (fun e => { e with
      st := if m.want.dest < 128 then .cluster else .home,
      cluster := if m.want.dest < 128 then m.want.dest else 0, destHbm := false, moveEntry := 0 }) s
    let s2 := publish shard false s1
    let s3 := freeCopy t m.copy (dropMove shard s2)
    let s4 := match waitIdx s3 t shard with
      | some i => upWait t i (fun e => { e with moving := false, copy := 0 }) s3
      | none => s3
    let s5 := moveTrace t e.ctx true shard m.src (moveCode e m.want.dest) m.copy
      (bump (twKey t shlfP) 0x58 1 s4)
    let s6 := match m.want.stashG with
      | some g => larderCredit t e.ctx g m.copy s5
      | none => s5
    retryFirst t (releaseWaiters t shard s6)

/-- A move fails (R141): the shard goes to FAULTED and its context takes MOVE_FAILED. -/
def failMove (shard : Nat) (unsealed : Bool) (s : Block) : Block :=
  let t := ownerOf shard
  match (tw s t).shelf.moves.find? (fun m => m.want.shard == shard) with
  | none => s
  | some m =>
    let e := shardOf s shard
    let s1 := moveTrace t e.ctx true shard m.src (moveCode e m.want.dest) m.copy
      (publish shard false (upShard shard (fun e => { e with st := .faulted, destHbm := false }) s))
    let s2 := if unsealed then freeCopy t m.copy s1 else s1
    let s3 := match waitIdx s2 t shard with
      | some i => upWait t i (fun e => if e.nodes.isEmpty then {} else { e with moving := false, copy := 0 }) s2
      | none => s2
    shelfFault t e.ctx 0x31 shard m.copy (retryFirst t (dropMove shard s3))

/-- DESC_WRITE_ACK and DESC_WRITE_ERROR: the NoC answers the descriptor write of a move (R136, R141). -/
def descAnswer (shard : Nat) (ok : Bool) (s : Block) : Block :=
  match (tw s (ownerOf shard)).shelf.moves.find? (fun m => m.want.shard == shard) with
  | none => s
  | some m =>
    if m.descAck then s
    else if ok then sealCopy shard (upMove shard (fun m => { m with descAck := true }) s)
    else failMove shard true s

/-- MOVE_REQ arrives at the owner (R135). -/
def moveReqAt (shard base dest : Nat) (lc : Bool) (level : Nat) (load : Bool) (s : Block) : Block :=
  let t := ownerOf shard
  let e := shardOf s shard
  if e.st = .moving then s
  else if entryCode e ≠ base ∨ atDest e dest = true ∨ e.st = .faulted then
    sendItem t (partner t) (.loc shard (entryCode e) e.ctx none) s
  else decideMove { shard := shard, dest := dest, lc := lc, level := level, load := load, placed := true } s

/-- LOC arrives at the partner (R126, R135, R139). -/
def locAt (t : TwinId) (shard code k : Nat) (hi : Option Nat) (s : Block) : Block :=
  let h := hi.getD ((locOf s t shard / 2 ^ 17) * 2 ^ 17)
  let s1 := setLoc t shard (if code = 0xFF then 0xFF else h + k * 2 ^ 8 + code) s
  if code = 0xA0 then sendItem t (partner t) (.locAck shard) s1
  else if code = 0xFE then s1
  else releaseWaiters t shard s1

/-- WRITER_INC at the owner (R134). -/
def writerIncAt (shard : Nat) (s : Block) : Block :=
  if movable (shardOf s shard) || (shardOf s shard).st == .moving then
    upShard shard (fun e => { e with writers := e.writers + 1 }) s
  else s

/-- WRITER_DEC at the owner (R134, R136): while the shard is MOVING and its COPY sealed, the COPY node is credited. -/
def writerDecAt (shard : Nat) (s : Block) : Block :=
  let e := shardOf s shard
  if e.writers = 0 ∨ e.st = .free ∨ e.st = .faulted then s
  else
    let s1 := upShard shard (fun e => { e with writers := e.writers - 1 }) s
    match (tw s1 (ownerOf shard)).shelf.moves.find? (fun m => m.want.shard == shard) with
    | some m =>
      if (nodeOf s1 m.copy).st = .waiting then
        pushWork [.credits (ownerOf shard) [{ word := m.copy, ctx := e.ctx, org := 3 }]] s1
      else s1
    | none => s1

/-! ### Placement (R132, R154) -/

/-- The narrow-credit entry of a node. -/
def narrowOf (s : Block) (id : Nat) : Option Narrow :=
  ((tw s (homeOf id)).ret.narrow.find? fun p => p.2.node == id).map (·.2)

/-- The node is racked in a group; an append that leaves the cluster of its narrow credits waits for a flush (R154). -/
def appendTo (id g : Nat) (s : Block) : Block :=
  let t := homeOf id
  match narrowOf s id with
  | some e =>
    if g = e.cluster then rackIn id g s
    else
      needFlush t e.cluster (.append t s.serial)
        (bump (twKey t retP) 0x80 1
          (upTw t (fun w => { w with ret := { w.ret with
            narrow := mapAll {} (fun _ x => if x.node == id then { x with wait := some (s.serial, g), since := s.time } else x)
              w.ret.narrow } }) { s with serial := s.serial + 1 }))
  | none => rackIn id g s

/-- A shard can be made readable for the node (step 6 of R132). -/
def canMove (s : Block) (n : Node) (w : Nat) : Bool :=
  !(bitOf w 31) && (!(tileLike n) || (bitOf w 30 && banksFit s n.ctx (fld w 24 21) (fld w 20 17)))

/-- A placement asks for a move and the node waits on it (R132, R135, R140). -/
def requestMove (id shard dest : Nat) (forLoad : Bool) (s : Block) : Block :=
  let t := homeOf id
  let n := nodeOf s id
  let w := locOf s t shard
  if (waitRoom s t shard).isNone then linkInsWait id s
  else if ownerOf shard = t then
    if (moveRoom s shard).isNone then linkInsWait id s
    else waitOn id shard (decideMove
      { shard := shard, dest := dest, lc := actLc s n.ctx n.lc, level := n.level, load := forLoad,
        placed := true } s)
  else
    sendItem t (partner t) (.moveReq shard (locCode w) dest (actLc s n.ctx n.lc) n.level forLoad) (waitOn id shard s)

/-- Placement of a READY node (R132). `released` marks a node released from a move wait; `again` a re-placement. DESIGN CHOICE
(log entry 9): the rotating pointer advances at every placement that has a candidate, one that then waits for a move included. -/
def place (id : Nat) (released again : Bool) (s : Block) : Block :=
  let t := homeOf id
  let n := nodeOf s id
  if n.st ≠ .ready ∨ unfenced s t n.ctx = false then s
  else
    let s0 := if again then bump (twKey t shlfP) 0x68 1 s else s
    let cs := candidates s0 t n
    match leastDepth s0 t n.ctx cs with
    | none =>
      trace t 0x04 (some n.ctx) id 2 0 0
        (upCtxTw t n.ctx (fun c => { c with unplace := c.unplace ++ [slotOf id] }) s0)
    | some b =>
      let s1 := upCtxTw t n.ctx (fun c => { c with rot := (c.rot + 1) % 152 }) s0
      let w := locOf s0 t n.affinity
      if n.inserted && n.kind == kCopy then
        let e := shardOf s1 n.affinity
        let q := if e.destHbm then nearQuadrant (0x80 + fld e.w1 23 19) else nearQuadrant e.cluster
        appendTo id (if cs.contains q then q else b) s1
      else if !(affinityHolds s0 t n) then appendTo id b s1
      else if locCode w = 0xA0 then waitOn id n.affinity s1
      else match homeGroup s0 t n (locCode w) cs with
        | some h =>
          let gain := moveGain s0 n.ctx
          let limit := if n.load = 0 then gain else 2 * gain
          let stays := !(tileLike n) || bitOf w 31 || gain == 0 || n.load == 1 || released
            || decide (depthOf s0 t n.ctx h < depthOf s0 t n.ctx b + limit)
          if stays then appendTo id h s1
          else requestMove id n.affinity b true s1
        | none =>
          if canMove s0 n w then requestMove id n.affinity (if tileLike n then b else 128) false s1
          else shelfFault t n.ctx 0x30 n.affinity id s1

/-- A pending move is tried again: dropped with its shard, ended when its shard lies at its destination (log entry 78), with
the stash credit it owes (R190), for which there is no COPY node to name (log entry 86), or decided afresh. -/
def retryMove (m : MoveWant) (s : Block) : Block :=
  let e := shardOf s m.shard
  if e.st = .free ∨ e.st = .faulted then s
  else if atDest e m.dest then
    match m.stashG with
    | some g => larderCredit (ownerOf m.shard) e.ctx g 0 s
    | none => s
  else decideMove m s

/-- The pending moves of a twin are tried again, oldest first; what finds no room keeps its place (R140). -/
def retryMoves (t : TwinId) (s : Block) : Block :=
  forEach (tw s t).shelf.pendMoves retryMove (upTw t (fun w => { w with shelf := { w.shelf with pendMoves := [] } }) s)

/-- Every node of a twin's insertion wait rack is placed again, oldest first; what finds no room keeps its place (R140). -/
def retryWaits (t : TwinId) (s : Block) : Block :=
  forEach (tw s t).shelf.insWait (fun x => place (nodeIdOf t x) false true)
    (upTw t (fun w => { w with shelf := { w.shelf with insWait := [] } }) s)

/-! ### SHARD commands (R128) -/

def hbmMask (s : Block) (k : Nat) : Nat := fld (reg s (ctxKey k) 0x230) 63 32

/-- ALLOC's checks, in order; 0 when all pass. -/
def allocStatus (s : Block) (k shard cluster : Nat) (toCluster : Bool) : Nat :=
  let w1 := reg s (ctxKey k) 0x248
  let w2 := reg s (ctxKey k) 0x250
  let size := fld w1 15 0
  let off := fld w2 9 0
  let spadV := bitOf w2 16
  if !(inShardRange s k shard) then 1
  else if (shardOf s shard).st ≠ .free then 2
  else if size = 0 then 3
  else if !(bitOf (hbmMask s k) (fld w1 23 19)) then 4
  else if spadV && (decide (off + size > 576) || !(banksFit s k (off / 64) ((off + size - 1) / 64))) then 5
  else if toCluster && (!spadV || !(inClusterMask s k cluster)) then 7
  else 0

def setShardStat (k st : Nat) (s : Block) : Block := upCtx k (fun c => { c with shardStat := st }) s

/-- A context-page command acts: its context is not fenced in the twin that carries it out (R303). -/
def cmdServed (s : Block) (t : TwinId) (k : Nat) : Bool := unfenced s t k && serves s t

def shardSel (s : Block) (k : Nat) : Nat := fld (reg s (ctxKey k) 0x238) 17 0

/-- A command on the shard of SHARD_SEL: the index lies in the context's range, or STATUS is 1 (R128). DESIGN CHOICE (log entry
102): an index in the range of a twin that serves nothing has no effect. -/
def shardCmd (k : Nat) (f : Nat → Block → Block) (s : Block) : Block :=
  let x := shardSel s k
  if !(inShardRange s k x) then setShardStat k 1 s
  else if !(serves s (ownerOf x)) then s
  else f x s

/-- A command that changes the shard is ignored while the context is fenced (R303). -/
def shardChange (k : Nat) (f : Nat → Block → Block) (s : Block) : Block :=
  if unfenced s (ownerOf (shardSel s k)) k then shardCmd k f s else s

def shardAlloc (k cluster : Nat) (toCluster pin : Bool) : Block → Block :=
  shardChange k fun x s =>
    let st := allocStatus s k x cluster toCluster
    if st ≠ 0 then setShardStat k st s
    else
      let e : Shard := {
        st := if toCluster then .cluster else .home, pin := pin, ctx := k,
        cluster := if toCluster then cluster else 0,
        w1 := reg s (ctxKey k) 0x248 - fld (reg s (ctxKey k) 0x248) 18 16 * 2 ^ 16,
        w2 := fld (reg s (ctxKey k) 0x250) 16 0 }
      setShardStat k 0 (publish x true (upShard x (fun _ => e) s))

def ownedBy (s : Block) (k x : Nat) : Bool := (shardOf s x).st != .free && (shardOf s x).ctx == k

/-- SHARD_CMD FREE (R128). DESIGN CHOICE (log entry 78): a move of the shard that is kept pending is dropped. -/
def shardFree (k : Nat) : Block → Block :=
  shardChange k fun x s =>
  if !(ownedBy s k x) then setShardStat k 2 s
  else if (shardOf s x).writers ≠ 0 ∨ movable (shardOf s x) = false then setShardStat k 6 s
  else
    setShardStat k 0 (publish x false (upShard x (fun _ => {})
      (upTw (ownerOf x) (fun w => { w with shelf := { w.shelf with
        pendMoves := w.shelf.pendMoves.filter fun m => m.shard != x } }) s)))

/-- SHARD_CMD MOVE (R128). DESIGN CHOICE (log entry 77): a MOVE to where the shard lies answers STATUS 0 and starts none. -/
def shardMove (k cluster : Nat) (toCluster : Bool) : Block → Block :=
  shardChange k fun x s =>
  let e := shardOf s x
  if !(ownedBy s k x) then setShardStat k 2 s
  else if toCluster && (!(bitOf e.w2 16) || !(inClusterMask s k cluster)) then setShardStat k 7 s
  else if !(movable e) then setShardStat k 6 s
  else
    let dest := if toCluster then cluster else 128
    let s1 := setShardStat k 0 s
    if atDest e dest then s1 else decideMove { shard := x, dest := dest, lc := false, level := 7 } s1

def shardStCode : ShardState → Nat
  | .free => 0
  | .home => 1
  | .cluster => 2
  | .moving => 3
  | .faulted => 4

/-- Word 0 of a shard entry (R124). -/
def shardWord0 (e : Shard) : Nat :=
  shardStCode e.st * 2 ^ 61 + b2n e.pin * 2 ^ 60 + e.ctx * 2 ^ 52 + e.cluster * 2 ^ 45 + b2n e.destHbm * 2 ^ 44
    + e.writers * 2 ^ 17 + e.moveEntry * 2 ^ 6

def shardQuery (k : Nat) : Block → Block :=
  shardCmd k fun x s =>
    let e := shardOf s x
    setShardStat k 0 (setReg (ctxKey k) 0x250 e.w2 (setReg (ctxKey k) 0x248 e.w1
      (setReg (ctxKey k) 0x240 (shardWord0 e) s)))

/-! ### Partition changes (R130, R142) -/

/-- The nodes of a twin racked in lanes whose key passes a test are swept out and placed again (R87, R142). -/
def sweepLanes (t : TwinId) (p : Nat → Bool) (mine : Nat → Bool) (s : Block) : Block :=
  let xs := ((tw s t).rack.lanes.filter fun q => p (q.1 / 64)).flatMap fun q => q.2.slots.filter mine
  let s1 := upTw t (fun w => { w with rack := { w.rack with
    lanes := mapAll {} (fun key l => if p (key / 64) then laneSweep mine l else l) w.rack.lanes,
    keptNoRec := w.rack.keptNoRec.filter fun x => !(xs.contains x) } }) s
  pushWork (xs.map fun x => .place (nodeIdOf t x) false true)
    (forEach xs (fun x s => writersDec (nodeIdOf t x) s) s1)

/-- Shards of a twin that pass a test are moved to HBM, for a change of partition or out of a cluster whose last engine left
(R130, R143). -/
def evacuate (t : TwinId) (evac : Bool) (p : Shard → Bool) (s : Block) : Block :=
  forEach ((tw s t).shelf.shards.filter fun q => q.2.st == .cluster && p q.2) (fun q s =>
    decideMove { shard := twinNum t * 131072 + q.1, dest := 128, lc := false, level := 7, evac := evac } s) s

/-- Every unplaceable node of a context in a twin is placed again (R142). -/
def replaceUnplaced (t : TwinId) (k : Nat) (s : Block) : Block :=
  let xs := (ctxTw s t k).unplace
  pushWork (xs.map fun x => .place (nodeIdOf t x) false true)
    (upCtxTw t k (fun c => { c with unplace := [] }) s)

/-- A group of tiles or matrix engines lies in the context's partition. -/
def inPartition (s : Block) (k g : Nat) : Bool :=
  if g < 128 then inClusterMask s k g else if g < 144 then inMatrixMask s k (g - 128) else true

/-- The extent of a shard covers a bank outside SPAD_BANKS. -/
def outsideBanks (s : Block) (e : Shard) : Bool :=
  bitOf e.w2 16 && !(banksFit s e.ctx (fld e.w2 9 0 / 64) ((fld e.w2 9 0 + fld e.w1 15 0 - 1) / 64))

/-- A change of the partition fields of a context has taken effect, which gained a rack group or not (R130, R142). -/
def partitionChange (k : Nat) (gained : Bool) (s : Block) : Block :=
  let one (t : TwinId) (s : Block) : Block :=
    let s1 := sweepLanes t (fun g => !(inPartition s k g)) (fun x => (nodeOf s (nodeIdOf t x)).ctx == k) s
    let s2 := evacuate t false (fun e => e.ctx == k && (!(inClusterMask s k e.cluster) || outsideBanks s e)) s1
    if gained then replaceUnplaced t k s2 else s2
  emit (.wayMask k (fld (reg s (ctxKey k) 0x230) 31 16)) (one .t1 (one .t0 s))

/-! ### Engines leaving and entering service (R143) -/

/-- A group that has lost its last engine is swept in a twin; its copies go back, and a cluster's shards are moved. -/
def sweepGroup (t : TwinId) (g : Nat) (s : Block) : Block :=
  let s1 := sweepLanes t (fun h => h == g) (fun _ => true) (sendBack t false (fun c => c.group == g) s)
  if isCluster g then evacuate t true (fun e => e.cluster == g) s1 else s1

/-- One engine leaves service (R143). -/
def removeEngine (e : Nat) (s : Block) : Block :=
  let g := (groupOf e).getD 0
  let t := primary s g
  let x := engOf s e
  if !x.inService then s
  else
    let s1 := upEng e (fun x => { x with inService := false, claims := [], tasks := [] }) s
    let s2 := bump (twKey t shlfP) 0x78 1 s1
    let s3 := forEach x.tasks (fun k s =>
      if homeOf k.node = t then returnNode k.node k.gen false s
      else sendReturn t k.node k.gen false s) s2
    if groupServed s3 g then s3 else sweepGroup t g (sendItem t (partner t) (.service g false) s3)

/-- An engine of a group returns to service: the unplaceable racks of the contexts whose partition holds the group (R142). -/
def replaceFor (t : TwinId) (g : Nat) (s : Block) : Block :=
  forEach (((tw s t).ctxs.filter fun p => !p.2.unplace.isEmpty && inPartition s p.1 g).map (·.1)) (replaceUnplaced t) s

/-- A rack group has its first engine in service again (R90, R91, R142). DESIGN CHOICE (log entry 74): this is what R90 and
R91 call the group being enabled, so its pointers and D start afresh. -/
def groupUpAt (t : TwinId) (g : Nat) (s : Block) : Block :=
  replaceFor t g (upTw t (fun w => { w with rack := { w.rack with
    mix := mapSet 0 w.rack.mix g 0,
    rr := w.rack.rr.filter fun p => p.1 / 16 != g } }) s)

/-- One engine enters service; its next grant carries SCRUB (R96, R143). -/
def restoreEngine (e : Nat) (s : Block) : Block :=
  let g := (groupOf e).getD 0
  let t := primary s g
  if (engOf s e).inService then s
  else
    let was := groupServed s g
    let s1 := upEng e (fun x => { x with inService := true, lastV := false, tasks := [], claims := [] }) s
    if was then replaceFor t g s1
    else groupUpAt t g (sendItem t (partner t) (.service g true) s1)

/-- SERVICE arrives (R143). -/
def serviceAt (t : TwinId) (g : Nat) (up : Bool) (s : Block) : Block :=
  let s1 := upTw t (fun w => { w with shelf := { w.shelf with served := mapSet false w.shelf.served g up } }) s
  if up then groupUpAt t g s1 else sweepGroup t g s1

/-- The engines an ENGINE_CTL write names: one, or every engine of its port. -/
def namedEngines (e : Nat) (wholePort : Bool) : List Nat :=
  if wholePort then
    let r := portEngines (portOfGroup ((groupOf e).getD 0))
    (List.range r.2).map fun i => r.1 + i
  else [e]

/-- A move that evacuates a cluster of a port that a twin drives is decided and has not ended (R143). -/
def evacuating (s : Block) (t : TwinId) : Bool :=
  [TwinId.t0, TwinId.t1].any fun u =>
    ((tw s u).shelf.moves.any fun m => m.want.evac && primary s m.src == t)
    || ((tw s u).shelf.pendMoves.any fun m => m.evac && primary s (shardOf s m.shard).cluster == t)

/-- ENGINE_CTL.BUSY (R143): the partner has not yet swept or taken back what a removal concerns, its proxy copies among it, or
a cluster is still being evacuated. -/
def removalBusy (s : Block) (t : TwinId) : Bool :=
  let u := tw s (partner t)
  (u.edgeIn.any fun i => match i with
    | .service _ up => !up
    | _ => false)
  || (u.claimIn.any fun i => match i with
    | .grantReturn _ _ fenced => !fenced
    | .proxyBack n => (proxyGroup s n).any fun g => !(groupServed s g)
    | _ => false)
  || evacuating s t

/-- SHLF.ENGINE_CTL (R143): REMOVE or RESTORE; ignored while a removal is in progress, and for an engine that is not on the
twin's ports. -/
def engineCtl (t : TwinId) (restore wholePort : Bool) (e : Nat) (s : Block) : Block :=
  match groupOf e with
  | none => setErr (twKey t shlfP) 3 s
  | some g =>
    if primary s g ≠ t ∨ removalBusy s t = true then setErr (twKey t shlfP) 3 s
    else forEach (namedEngines e wholePort) (if restore then restoreEngine else removeEngine) s

/-- ACCEPT_TIMEOUT: the engine's grant has stayed unaccepted for the accept limit (R98). -/
def acceptTimeout (e : Nat) (s : Block) : Block :=
  let t := primary s ((groupOf e).getD 0)
  match (engOf s e).tasks.find? (fun k => !k.accepted) with
  | some k =>
    if live s t then removeEngine e (bump (twKey t deskP) 0x98 1 (deskErr t 4 e k.node s)) else s
  | none => s

end Sys2Proof.Machine
end

