-- ==== Sys2Proof/Machine/Sorter.lean ====
section
/-! DEFINITION. The Sorter (08): batches, the selection, resolution of conditional edges, bindings and cancellation. -/

namespace Sys2Proof.Machine

/-! ### Slots and the batch mirror (R218) -/

def upSort (t : TwinId) (f : Sorter → Sorter) (s : Block) : Block := upTw t (fun w => { w with sort := f w.sort }) s

def batchOf (s : Block) (t : TwinId) (x : Nat) : Batch := mapGet {} (tw s t).sort.slots x

def setBatch (t : TwinId) (x : Nat) (b : Batch) (s : Block) : Block :=
  upSort t (fun w => { w with slots := mapSet {} w.slots x b }) s

/-- EPOCH_SEL of a slot: bit 7 is 1, bit 6 the twin, bits [5:0] the slot (R218). -/
def epochSelOf (t : TwinId) (x : Nat) : Nat := 128 + 64 * twinNum t + x

/-- A change of a slot is entered in a twin's mirror: a CANCELLED slot still belongs to its context (R218). A BATCH item has
this effect on its arrival. -/
def batchAt (t : TwinId) (i k : Nat) (news : SlotNews) (s : Block) : Block :=
  let m : BatchMir := { ctx := if news = .freed then 0 else k, current := news == .opened }
  upSort t (fun w => { w with mir := mapSet {} w.mir i m }) s

/-- A change of a slot reaches the twin's own mirror, and the partner's by a BATCH item (R218). -/
def mirrorBatch (t : TwinId) (x k : Nat) (news : SlotNews) (epoch : Nat) (s : Block) : Block :=
  let i := 64 * twinNum t + x
  sendItem t (partner t) (.batch i k news epoch) (batchAt t i k news s)

/-- The batch is current in the twin that tests it (R228). -/
def isCurrent (s : Block) (t : TwinId) (sel : Nat) : Bool :=
  sel == 0 || (mapGet {} (tw s t).sort.mir (sel % 128)).current

/-! ### Deferred completions (R161) -/

def upDeferred (t : TwinId) (p : Deferred → Bool) (f : Deferred → Deferred) (s : Block) : Block :=
  upTw t (fun w => { w with ret := { w.ret with deferred := w.ret.deferred.map fun d => if p d then f d else d } }) s

def deferredOf (s : Block) (t : TwinId) (id : Nat) : Option Deferred :=
  (tw s t).ret.deferred.find? fun d => d.id == id

/-- The slot that an EPOCH_SEL names is looked at again (R230). -/
def recheckSlot (sel : Nat) (s : Block) : Block := if sel = 0 then s else pushWork [.unbound sel] s

/-- A completion with nothing outstanding any longer is forgotten, and the record slot it held is reopened (R161). -/
def finishDeferred (t : TwinId) (id : Nat) (s : Block) : Block :=
  match deferredOf s t id with
  | none => s
  | some d =>
    if d.stage = .ready ∧ d.credits = [] ∧ d.offered = false ∧ d.parked = false then
      let s1 := upTw t (fun w => { w with ret := { w.ret with
        deferred := w.ret.deferred.filter fun x => x.id != id } }) s
      recheckSlot d.epoch (if d.holds then closeRec t d.recIdx s1 else s1)
    else s

/-- A parked opening has taken its slot: its completion is no longer held for it (R219). -/
def unpark (t : TwinId) (node gen : Nat) (s : Block) : Block :=
  match (tw s t).ret.deferred.find? (fun d => d.parked && d.node == node && d.gen == gen) with
  | none => s
  | some d => finishDeferred t d.id (upDeferred t (fun x => x.id == d.id) (fun x => { x with parked := false }) s)

/-! ### Opening (R219) -/

/-- A batch takes a slot: the header read is issued and a flush need raised for the ROUTE tile's cluster. The need bears the
serial number of the block, by which the credits deferred for the same completion share it. -/
def openSlot (t : TwinId) (x : Nat) (b : Batch) (s : Block) : Block :=
  let e := (ctxOf s b.ctx).epoch
  let s1 := setBatch t x { b with st := .opened, id := s.serial, epoch := e } { s with serial := s.serial + 1 }
  let s2 := mirrorBatch t x b.ctx .opened e (bump (twKey t sortP) 0x40 1 s1)
  needFlush t b.cluster (.batch t s.serial) (emit (.nocRead t ((nodeOf s b.route).desc * 64) 64) s2)

/-- The Sorter opens a batch for a ROUTE completion, or parks the opening. -/
def openBatch (t : TwinId) (route gen k cluster : Nat) (s : Block) : Block :=
  let b : Batch := { ctx := k, route := route, gen := gen, cluster := cluster }
  match firstFree (tw s t).sort.slots 0 64 with
  | some x => openSlot t x b s
  | none => upSort t (fun w => { w with parked := w.parked ++ [b] }) s

/-- The opening of a ROUTE completion is parked. -/
def isParked (s : Block) (t : TwinId) (route gen : Nat) : Bool :=
  (tw s t).sort.parked.any fun b => b.route == route && b.gen == gen

/-- The oldest parked opening takes a free slot (R219). -/
def takeParked (t : TwinId) (s : Block) : Block :=
  match (tw s t).sort.parked, firstFree (tw s t).sort.slots 0 64 with
  | b :: rest, some x => unpark t b.route b.gen (openSlot t x b (upSort t (fun w => { w with parked := rest }) s))
  | _, _ => s

/-- A slot goes to FREE; a BATCH item says so (R230). -/
def freeSlot (t : TwinId) (x : Nat) (s : Block) : Block :=
  let b := batchOf s t x
  takeParked t (mirrorBatch t x b.ctx .freed b.epoch (setBatch t x {} s))

/-! ### Freeing (R230) -/

/-- Bindings that name a batch, in both twins (R234). -/
def bindings (s : Block) (sel : Nat) : Nat :=
  ((s.tw0.sort.bind ++ s.tw1.sort.bind).filter fun p => p.2 == sel).length

/-- A completion in hand has credits of its own batch still to send. -/
def creditsHeld (s : Block) (t : TwinId) (sel : Nat) : Bool :=
  ((tw s t).ret.deferred.any fun d => d.epoch == sel && (!d.credits.isEmpty || d.offered))
  || (tw s t).ret.hand.any fun h => (h.later ++ h.chunks.flatten).any (fun c => c.epoch == sel)
    || (match h.ends with
        | .task _ r _ _ => r.epoch == sel
        | _ => false)

/-- A credit that carries the batch's EPOCH_SEL may yet bind a node: it crosses the Bridge or waits in a twin. -/
def creditCrossing (s : Block) (sel : Nat) : Bool :=
  [TwinId.t0, .t1].any fun t => (creditsToward s t).any (fun c => c.epoch == sel) || creditsHeld s t sel

/-- A slot is freed where R230 allows it. DEDUCED (log entry 27): not before the last credit that carries its EPOCH_SEL has
been applied, although no binding names the slot for it yet, since by R230 no record carries the EPOCH_SEL of a slot in new
use. -/
def freeCheck (t : TwinId) (x : Nat) (s : Block) : Block :=
  let b := batchOf s t x
  let ended := (b.st == .resolved && b.edges.isEmpty) || b.st == .cancelled
  if ended && b.listEnd && bindings s (epochSelOf t x) == 0 && !(creditCrossing s (epochSelOf t x))
  then freeSlot t x s else s

/-! ### The header and the scores (R216, R217, R219, R220) -/

def hdrWord (b : Batch) (i : Nat) : Nat := (b.header.getD []).getD i 0
def hFloor (b : Batch) : Nat := fld (hdrWord b 0) 55 40
def hCap (b : Batch) : Nat := fld (hdrWord b 0) 39 29
def hExperts (b : Batch) : Nat := fld (hdrWord b 0) 28 22
def hTokens (b : Batch) : Nat := fld (hdrWord b 0) 21 8
def hScores (b : Batch) : Nat := fld (hdrWord b 1) 47 0
def hArea (b : Batch) : Nat := fld (hdrWord b 2) 47 0

/-- A bfloat16 value is a NaN. -/
def bfNan (v : Nat) : Bool := decide (v % 32768 > 0x7F80)

/-- The order of bfloat16 values as real numbers; −0 equals +0. -/
def bfKey (v : Nat) : Int := if v ≥ 32768 then -((v - 32768 : Nat) : Int) else (v : Int)

/-- The header checks of R217. -/
def headerBad (b : Batch) : Bool :=
  fld (hdrWord b 0) 63 56 != 0xB1 || hExperts b == 0 || decide (hExperts b > 64) || hTokens b == 0
    || decide (hTokens b > 8192) || hCap b == 0 || decide (hCap b > 1024) || hScores b % 64 != 0
    || hArea b % 4096 != 0 || bfNan (hFloor b)

/-- Lines of 64 B that hold a number of bytes. -/
def lines64 (bytes : Nat) : Nat := (bytes + 63) / 64

def scoreLines (b : Batch) : Nat := lines64 (2 * hTokens b * hExperts b)

/-- Score reads begin once both the header has arrived and the flush has ended (R219). -/
def startScores (t : TwinId) (x : Nat) (s : Block) : Block :=
  let b := batchOf s t x
  if b.st = .opened ∧ b.flushed = true ∧ b.header.isSome = true then
    forEach (List.range (scoreLines b)) (fun i s => emit (.nocRead t (hScores b + 64 * i) 64) s)
      (setBatch t x { b with st := .reading } s)
  else s

/-- HEADER_READ_DONE: the header is tested (R217). DEDUCED (log entry 32): REASON 1 before 2, in the order of the table of R235. -/
def headerReadDone (t : TwinId) (x : Nat) (header : List Nat) (s : Block) : Block :=
  let b := batchOf s t x
  if !(live s t) || b.st != .opened || b.header.isSome then s
  else
    let b1 := { b with header := some header }
    if headerBad b1 then sortFault t b.ctx 0x60 1 b.route (freeSlot t x s)
    else if (nodeOf s b.route).scope < 2 then sortFault t b.ctx 0x60 2 b.route (freeSlot t x s)
    else startScores t x (setBatch t x b1 s)

/-- The slot of the batch that a flush wait belongs to. -/
def batchSlot (s : Block) (t : TwinId) (id : Nat) : Option Nat :=
  ((tw s t).sort.slots.find? fun p => p.2.id == id && p.2.st == .opened).map (·.1)

/-- The flush that the batch needed has ended (R219). -/
def batchFlushed (t : TwinId) (id : Nat) (s : Block) : Block :=
  match batchSlot s t id with
  | none => s
  | some x => startScores t x (setBatch t x { batchOf s t x with flushed := true } s)

/-! ### The selection (R220, R221) -/

def scoreAt (b : Batch) (t e : Nat) : Nat := mapGet 0 b.scores (t * hExperts b + e)

/-- The tokens that expert e picks, in ascending order (R220). -/
def picks (b : Batch) (e : Nat) : List Nat :=
  let elig := (List.range (hTokens b)).filter fun t =>
    !(bfNan (scoreAt b t e)) && decide (bfKey (scoreAt b t e) ≥ bfKey (hFloor b))
  let best := insSort (fun t u => decide (bfKey (scoreAt b t e) > bfKey (scoreAt b u e)
    ∨ (bfKey (scoreAt b t e) = bfKey (scoreAt b u e) ∧ t ≤ u))) elig
  insSort (fun t u => decide (t ≤ u)) (best.take (hCap b))

/-- The mask of a token: bit e is set when expert e picked it (R221). -/
def tokenMask (ps : List (List Nat)) (t : Nat) : Nat :=
  ps.zipIdx.foldl (fun m p => if p.1.contains t then m + 2 ^ p.2 else m) 0

/-- Entries of 16 bits as words of 64 bits. -/
def pack16 (es : List Nat) : List Nat :=
  (chunks 4 es).map fun c => c.foldr (fun e a => e % 65536 + 65536 * a) 0

/-- A list of entries filled to whole lines. -/
def padTo (n : Nat) (pad : Nat → Nat) (es : List Nat) : List Nat :=
  es ++ (List.range ((n - es.length % n) % n)).map fun i => pad (es.length + i)

/-- Lines written at an address, one 64 B access each (R231). -/
def writeLines (t : TwinId) (addr : Nat) (words : List Nat) (s : Block) : Block :=
  forEach (chunks 8 words).zipIdx (fun p s => emit (.nocWrite t (addr + 64 * p.2) p.1) s) s

/-- The parts of the selection area, in the order of R221: address and words. -/
def areaParts (b : Batch) (sel : Nat) (ps : List (List Nat)) (nans unpicked : Nat) : List (Nat × List Nat) :=
  let a := hArea b
  let head := [b.epoch * 2 ^ 48 + b.ctx * 2 ^ 40 + sel * 2 ^ 32 + b.route * 2 ^ 12,
    nans * 2 ^ 32 + unpicked, 0, 0, 0, 0, 0, 0]
  let counts := pack16 (padTo 32 (fun _ => 0) (ps.map List.length))
  let lists := ps.zipIdx.map fun p => (a + 0x1000 + p.2 * 0x800, pack16 (padTo 32 (fun _ => 0xFFFF) p.1))
  let masks := padTo 8 (fun i => (Config.freeAreaPad (a + 0x21000 + 8 * i)).toNat)
    ((List.range (hTokens b)).map (tokenMask ps))
  [(a, head), (a + 0x40, counts)] ++ lists ++ [(a + 0x21000, masks)]

/-- The selection is settled and the area written (R220, R221). -/
def settleSelection (t : TwinId) (x : Nat) (s : Block) : Block :=
  let b := batchOf s t x
  let ps := (List.range (hExperts b)).map (picks b)
  let nans := ((List.range (hTokens b * hExperts b)).filter fun i => bfNan (mapGet 0 b.scores i)).length
  let unpicked := ((List.range (hTokens b)).filter fun k => tokenMask ps k == 0).length
  let parts := areaParts b (epochSelOf t x) ps nans unpicked
  let n := parts.foldl (fun a p => a + (p.2.length + 7) / 8) 0
  forEach parts (fun p s => writeLines t p.1 p.2 s)
    (setBatch t x { b with
      st := .writing, counts := ps.map List.length, nans := nans, unpicked := unpicked,
      acks := n, scores := [], lines := [] } s)

/-- SCORE_READ_DONE: a line of scores; after the last one the selection is settled. -/
def scoreReadDone (t : TwinId) (x line : Nat) (scores : List Nat) (s : Block) : Block :=
  let b := batchOf s t x
  let n := min 32 (hTokens b * hExperts b - line * 32)
  if !(live s t) || b.st != .reading || decide (line ≥ scoreLines b) || mapGet false b.lines line
      || decide (scores.length < n) then s
  else
    let b1 := { b with
      lines := mapSet false b.lines line true,
      scores := (scores.take n).zipIdx.foldl (fun m p => mapSet 0 m (line * 32 + p.2) p.1) b.scores }
    let s1 := bump (twKey t sortP) 0x58 n (setBatch t x b1 s)
    if b1.lines.length = scoreLines b then settleSelection t x s1 else s1

/-! ### Resolution (R222 to R225) -/

/-- The condition of an edge holds (R223). -/
def condHolds (b : Batch) (word : Nat) : Bool :=
  decide (b.counts.getD (edgeAux word % 64) 0 > edgeAux word / 64 * ((hCap b + 3) / 4))

/-- The credit that resolves an edge (R223). -/
def resolved (b : Batch) (sel : Nat) (c : Credit) : Credit :=
  if condHolds b c.word then { c with epoch := sel, skip := false, org := 1, orgId := sel }
  else { c with epoch := 0, skip := true, org := 1, orgId := sel }

/-- Entries of a twin's binding table in use or on their way, each node once (R224). -/
def bindLoad (s : Block) (t : TwinId) (sent : List Credit) : Nat :=
  (tw s t).sort.bind.length
    + (((sent ++ creditsToward s t).filter fun c =>
        wantsBinding s c && homeOf (edgeTarget c.word) == t).map fun c => edgeTarget c.word).eraseDups.length

/-- The Sorter sends the credits it has resolved (R223). -/
def sendResolved (t : TwinId) (cs : List Credit) (s : Block) : Block :=
  let n := (cs.filter (·.skip)).length
  let s1 := bump (twKey t sortP) 0x60 (cs.length - n) (bump (twKey t sortP) 0x68 n s)
  forEach (chunks 8 cs) (fun p s =>
    forEach (p.filter fun c => homeOf (edgeTarget c.word) != t) (fun c s =>
        sendItem t (partner t) (.credit c) s)
      (pushWork [.credits t (p.filter fun c => homeOf (edgeTarget c.word) == t)] s)) s1

/-- What the resolution of a batch's edges, in order, comes to: credits sent, edges kept for want of a binding entry,
and whether an expert index was bad. -/
def resolveEdges (s : Block) (b : Batch) (sel : Nat) : List Credit → List Credit → List Credit × List Credit × Bool
  | sent, [] => (sent, [], false)
  | sent, c :: rest =>
    if edgeAux c.word % 64 ≥ hExperts b then
      let r := resolveEdges s b sel sent rest
      (r.1, r.2.1, true)
    else
      let q := resolved b sel c
      if wantsBinding s q && decide (bindLoad s (homeOf (edgeTarget q.word)) (sent ++ [q]) > bindRoom) then
        (sent, c :: rest, false)
      else resolveEdges s b sel (sent ++ [q]) rest

/-- The waiting edges of a resolved batch are resolved (R223). -/
def resolveBatch (t : TwinId) (x : Nat) (s : Block) : Block :=
  let b := batchOf s t x
  if b.st ≠ .resolved then s
  else
    let r := resolveEdges s b (epochSelOf t x) [] b.edges
    if r.2.1.length = b.edges.length then s
    else
    let s1 := sendResolved t r.1 (setBatch t x { b with edges := r.2.1 } s)
    let s2 := if r.2.2 then sortFault t b.ctx 0x60 4 b.route s1 else s1
    pushWork [.unbound (epochSelOf t x)] s2

/-- SELECTION_WRITE_ACK: after the last one the batch is resolved (R221). -/
def selectionWriteAck (t : TwinId) (x : Nat) (s : Block) : Block :=
  let b := batchOf s t x
  if !(live s t) || b.st != .writing || b.acks == 0 then s
  else if b.acks > 1 then setBatch t x { b with acks := b.acks - 1 } s
  else
    let key := twKey t sortP
    pushWork [.unbound (epochSelOf t x)] (resolveBatch t x
      (bump key 0x48 1 (bump key 0x70 b.unpicked (bump key 0x78 b.nans
        (setBatch t x { b with st := .resolved, acks := 0 } s)))))

/-- Returns hands the Sorter a conditional edge (R222, R225). -/
def handEdge (t : TwinId) (gen : Nat) (c : Credit) (s : Block) : Block :=
  if (nodeOf s c.src).kind ≠ kRoute then sortFault t c.ctx 0x60 3 c.src s
  else if c.skip then sendResolved t [{ c with epoch := 0, org := 1, orgId := 0 }] s
  else
    match (tw s t).sort.slots.find? (fun p => p.2.route == c.src && p.2.gen == gen && p.2.st != .free) with
    | some (x, b) =>
      if b.st = .cancelled then s
      else
        let s1 := setBatch t x { b with edges := b.edges ++ [c] } s
        if b.st = .resolved then resolveBatch t x s1 else s1
    | none => upSort t (fun w => { w with parked := w.parked.map fun b =>
        if b.route = c.src ∧ b.gen = gen then { b with edges := b.edges ++ [c] } else b }) s

/-- LIST_END of a ROUTE's list reaches the Sorter (R222, R230). -/
def listEnd (t : TwinId) (route gen : Nat) (s : Block) : Block :=
  match (tw s t).sort.slots.find? (fun p => p.2.route == route && p.2.gen == gen && p.2.st != .free) with
  | some (x, b) => pushWork [.unbound (epochSelOf t x)] (setBatch t x { b with listEnd := true } s)
  | none => upSort t (fun w => { w with parked := w.parked.map fun b =>
      if b.route = route ∧ b.gen = gen then { b with listEnd := true } else b }) s

/-- A binding of a batch has been freed, or its edges have been dealt with: resolutions that wait for an entry go on in a twin
that acts (R393), and the slot is freed where R230 allows it. -/
def unboundAt (sel : Nat) (s : Block) : Block :=
  let waiting (t : TwinId) :=
    if !(live s t) then []
    else ((tw s t).sort.slots.filter fun p => p.2.st == .resolved && !p.2.edges.isEmpty).map (·.1)
  let s1 := forEach (waiting .t1) (resolveBatch .t1) (forEach (waiting .t0) (resolveBatch .t0) s)
  if sel < 128 then s1 else freeCheck (twinOf (sel / 64)) (sel % 64) s1

/-! ### Cancellation, fences and errors (R228, R230, R236) -/

/-- Every open slot of a context in a twin is cancelled at the cancel point, from which no batch of the context is CURRENT in
the twin's mirror, the partner's slots included (R228). -/
def cancelSlots (t : TwinId) (k : Nat) (s : Block) : Block :=
  forEach ((tw s t).sort.slots.filter fun p => p.2.ctx == k && p.2.st != .free && p.2.st != .cancelled)
    (fun p s => pushWork [.unbound (epochSelOf t p.1)]
      (mirrorBatch t p.1 k .cancelled p.2.epoch (bump (twKey t sortP) 0x50 1
        (setBatch t p.1 { p.2 with st := .cancelled, edges := [], scores := [], lines := [] } s))))
    (upSort t (fun w => { w with
      mir := mapAll {} (fun _ m => if m.ctx = k then { m with current := false } else m) w.mir }) s)

/-- SORT_CTL.CANCEL is written: the epoch is bumped once, and EPOCH_BUMP sent (R228); ignored behind the fence (R303). -/
def sortCancel (k : Nat) (s : Block) : Block :=
  let c := ctxOf s k
  if c.cancelBusy || !(unfenced s c.home k) then s
  else
    let e := (c.epoch + 1) % 65536
    sendItem c.home (partner c.home) (.epochBump k e) (upCtx k (fun c => { c with epoch := e, cancelBusy := true }) s)

/-- The Sorter of a twin cancels at the cancel point, and an EPOCH_BUMP that waits for it there is consumed (R228). -/
def cancelIn (t : TwinId) (k : Nat) (s : Block) : Block :=
  cancelSlots t k (upTw t (fun w => { w with
    edgeIn := w.edgeIn.filter fun i => match i with
      | .epochBump c _ => c != k
      | _ => true }) s)

/-- The Sorters of both twins cancel in the desk cycle of the cancel point (R228); a halted partner has not taken its
EPOCH_BUMP yet, which waits for it in the Bridge (R393). -/
def cancelBatches (k : Nat) (s : Block) : Block :=
  let h := (ctxOf s k).home
  if !(ctxOf s k).cancelBusy then s
  else
    let s1 := cancelIn h k (upCtx k (fun c => { c with cancelBusy := false }) s)
    if (tw s1 (partner h)).halted then s1 else cancelIn (partner h) k s1

/-- The fence of a context reaches the Sorter of a twin (R230). -/
def sortFence (t : TwinId) (k : Nat) (s : Block) : Block :=
  let mine := ((tw s t).sort.slots.filter fun p => p.2.ctx == k).map (·.1)
  let bound := (tw s t).sort.bind.filter fun p => (mapGet {} (tw s t).cat.nodes p.1).ctx == k
  let s1 := upSort t (fun w => { w with
    parked := w.parked.filter (fun b => b.ctx != k),
    bind := w.bind.filter fun p => (mapGet {} (tw s t).cat.nodes p.1).ctx != k }) s
  pushWork (bound.map fun p => .unbound p.2) (forEach mine (freeSlot t) s1)

/-- ROUTE_IO: an access of the batch returns an error (R236). -/
def routeIo (t : TwinId) (x : Nat) (which : RouteAccess) (s : Block) : Block :=
  let b := batchOf s t x
  let hit := match which with
    | .header => b.st == .opened && b.header.isNone
    | .score => b.st == .reading
    | .selection => b.st == .writing
  let reason := match which with
    | .header => 1
    | .score => 2
    | .selection => 3
  if live s t && hit then sortFault t b.ctx 0x62 reason b.route (freeSlot t x s) else s

/-- Slots of a context in use in a twin (R232). -/
def slotsUsed (s : Block) (t : TwinId) (k : Nat) : Nat :=
  ((tw s t).sort.slots.filter fun p => p.2.st != .free && p.2.ctx == k).length

end Sys2Proof.Machine
end

