-- ==== Sys2Proof/Machine/Larder.lean ====
section
/-! DEFINITION. A node going to FREE (R56), the Larder and the Recipe Table (07). -/

namespace Sys2Proof.Machine

/-! ### A node goes to FREE (R56, R81) -/

/-- The node goes to FREE from any state: it leaves every list, its record or reservation closes, and what it held is
given back, a slot of the insertion pool too (R56, R81, R107, R134, R140); the credits of a re-bake node are counted no
longer (R195). -/
def freeNode (id : Nat) (s : Block) : Block :=
  let n := nodeOf s id
  let t := homeOf id
  if n.st = .free then s
  else
    let s1 := if n.st = .waiting ∧ n.mode = 3 then wheelUnlink id n s else s
    let s2 := if n.st = .ready then rackUnlink id (releaseReservation id (unitUnlink id s1)) else s1
    let s3 := if n.st = .granted then (match openRecOf s2 id n.gen with
      | some (i, _) => closeRec t i s2
      | none => s2) else s2
    let s4 := unbind id (narrowFree id (writersDec id s3))
    let s5 := if n.locked then lockList false id n s4 else s4
    let s6 := upTw t (fun w => { w with
      acc := { w.acc with work := w.acc.work.filter fun m => m.f != id },
      lard := { w.lard with leaving := w.lard.leaving.filter fun p => p.1 != id } }) s5
    let s7 := setNode id {} (upCtxTw t n.ctx (fun c => { c with pendMir := c.pendMir.erase (slotOf id) }) s6)
    if n.inserted then retryFirst t (setOwner t (slotOf id) 0 s7) else s7

/-! ### Stash classes (R184, R206, R207) -/

def classReg (s : Block) (k cls : Nat) : Nat := reg s (ctxKey k) (0x268 + 8 * (cls % 4))

/-- The policy in force: 0 UNLIMITED, 1 SPILL, 2 REBAKE; 3 is taken as SPILL. -/
def policyOf (s : Block) (k cls : Nat) : Nat :=
  let p := fld (classReg s k cls) 63 62
  if p = 3 then 1 else p

def budgetOf (s : Block) (k cls : Nat) : Nat := fld (classReg s k cls) 29 0
def allowOf (s : Block) (k cls : Nat) : Nat := fld (classReg s k cls) 59 30
def keptOf (s : Block) (k cls : Nat) : Nat := mapGet 0 (ctxOf s k).kept (cls % 4)
def spilledOf (s : Block) (k cls : Nat) : Nat := mapGet 0 (ctxOf s k).spilled (cls % 4)

def stashMax : Nat := 2 ^ 30 - 1

/-- KEPT of a class grows; KEPT_HW follows the sum over the classes (R207). -/
def chargeKept (k cls n : Nat) (s : Block) : Block :=
  upCtx k (fun c =>
    let kept := mapSet 0 c.kept (cls % 4) (satAdd stashMax (mapGet 0 c.kept (cls % 4)) n)
    { c with kept := kept, keptHw := max c.keptHw (min stashMax (kept.foldl (fun a p => a + p.2) 0)) }) s

def chargeSpilled (k cls n : Nat) (s : Block) : Block :=
  upCtx k (fun c => { c with
    spilled := mapSet 0 c.spilled (cls % 4) (satAdd stashMax (mapGet 0 c.spilled (cls % 4)) n) }) s

/-- The Larder of a twin raises a context fault and records it (R209). -/
def lardFault (t : TwinId) (k code reason node : Nat) (s : Block) : Block :=
  raiseFault t k code node
    (upTw t (fun w => { w with lard := { w.lard with
        lastFault := lastWord code k + reason * 2 ^ 36 + node % 2 ^ 20 } })
      (setErr (twKey t lardP) 1 s))

/-! ### What the Larder reads of G(F) (R185, R188) -/

/-- The targets of a mirror list. -/
def mirrorTargets (s : Block) (g : Nat) : List Nat :=
  let n := nodeOf s g
  (List.range n.succLen).map fun i => edgeTarget (mapGet 0 (tw s (homeOf g)).cat.mir (n.succBase % 2 ^ 22 + i))

def readG (s : Block) (g : Nat) (list : Bool) : GInfo :=
  let n := nodeOf s g
  { g := g, affinity := n.affinity, counter := n.cf, lc := n.lc, level := n.level, isSealed := n.sealBit,
    targets := if list then some (mirrorTargets s g) else none }

/-- G_MARK is applied (R194, R196): STASH, SPILLED and REBAKE_PEND of G(F). -/
def gMarkAt (g stash : Nat) (spilled pend : Bool) (s : Block) : Block :=
  let n := nodeOf s g
  if n.st = .free ∨ n.backward = false then s
  else
    let s1 := upNode g (fun n => { n with
      stash := stash, larder := n.larder % 4 + b2n spilled * 128 + b2n pend * 64 }) s
    if pend ∧ n.cf = 1 ∧ n.mode = 0 then sendItem (homeOf g) (ctxOf s n.ctx).home (.trigger g n.ctx) s1 else s1

/-! ### Re-bake entries (R192 to R195) -/

def entryOfG (s : Block) (t : TwinId) (k g : Nat) : Option (Nat × Rebake) :=
  (tw s t).lard.table.find? fun p => p.2.valid && p.2.ctx == k && p.2.g == g

def upEntry (t : TwinId) (i : Nat) (f : Rebake → Rebake) (s : Block) : Block :=
  upTw t (fun w => { w with lard := { w.lard with
    table := mapSet {} w.lard.table i (f (mapGet {} w.lard.table i)) } }) s

/-- The live inputs of a re-bake, each once: entry numbers (R193). -/
def liveInputs (s : Block) (t : TwinId) (k : Nat) (targets : List Nat) : List Nat :=
  (targets.filterMap fun g => (entryOfG s t k g).map (·.1)).eraseDups

def depthOfInputs (s : Block) (t : TwinId) (ins : List Nat) : Nat :=
  1 + ins.foldl (fun a i => max a (mapGet {} (tw s t).lard.table i).depth) 0

/-- The conditions of R193 but for the last. -/
def rebakeFits (s : Block) (t : TwinId) (g : GInfo) (ins : List Nat) : Bool :=
  g.isSealed && decide (depthOfInputs s t ins ≤ 4) && decide (ins.length ≤ 8)
    && ins.all fun i => decide ((mapGet {} (tw s t).lard.table i).consumers.length < 4)

/-- R(F) is created in the insertion pool, and its entry made (R194). -/
def makeRebake (t : TwinId) (o : Offer) (g : GInfo) (ins : List Nat) (i x : Nat) (s : Block) : Block :=
  let f := nodeOf s o.f
  let r := nodeIdOf t x
  let c := 1 + ins.length
  let n : Node := {
    st := .waiting, kind := kRebake, origKind := f.kind, mode := 0, cf := c, initCount := c, cfSet := true,
    load := f.load, scope := f.scope, affinity := f.affinity, layer := f.layer, desc := f.desc,
    lc := g.lc, level := g.level, stash := f.stash, mirrorEn := true, mirror := g.g, larder := f.larder % 4,
    ctx := o.ctx, inserted := true, succBase := twinNum t * 2 ^ 22 }
  let e : Rebake := { valid := true, ctx := o.ctx, g := g.g, r := r, depth := depthOfInputs s t ins, inputs := ins }
  let s1 := upEntry t i (fun _ => e) (sealed r (setNode r n (setOwner t x (o.ctx + 1) s)))
  let s2 := forEach ins (fun j s => upEntry t j (fun x => { x with consumers := x.consumers ++ [i] }) s) s1
  upTw t (fun w => { w with lard := { w.lard with high := max w.lard.high w.lard.table.length } })
    (bump (twKey t lardP) 0x58 1 s2)

/-- TRIGGER reaches the Larder (R194). -/
def triggerAt (t : TwinId) (g k : Nat) (s : Block) : Block :=
  match entryOfG s t k g with
  | none => s
  | some (i, e) =>
    if e.st ≠ .dormant ∨ unfenced s t k = false then s
    else
      let s1 := bump (twKey t lardP) 0x68 1 (upEntry t i (fun e => { e with st := .triggered }) s)
      let next := e.inputs.filterMap fun j =>
        let d := mapGet {} (tw s t).lard.table j
        if d.valid && d.st == .dormant then some (Work.item t (.trigger d.g k)) else none
      pushWork (next ++ [.credits t [{ word := e.r, ctx := k, org := 3 }]]) s1

/-- The entry of a re-bake node is freed (R192): it is an input of no other entry any longer. -/
def dropEntry (t : TwinId) (i : Nat) (s : Block) : Block :=
  upTw t (fun w => { w with lard := { w.lard with
    table := mapAll {} (fun _ e => { e with inputs := e.inputs.erase i, consumers := e.consumers.erase i })
      (mapSet {} w.lard.table i {}) } }) s

/-! ### The decision (R185 to R190, R196) -/

def sendMark (t : TwinId) (g stash : Nat) (spilled pend : Bool) (s : Block) : Block :=
  sendItem t (homeOf g) (.gMark g stash spilled pend) s

def sendAnswer (t : TwinId) (o : Offer) (send : Bool) (consumers : List Nat) (s : Block) : Block :=
  sendItem t (homeOf o.f) (.answer o.f send consumers) s

def lardTrace (t : TwinId) (o : Offer) (code : Nat) (s : Block) : Block :=
  trace t 0x08 (some o.ctx) o.f code o.stash 0 s

/-- The stash shard of an offer: allocated to the context and owned by the Larder's twin (R187). DESIGN CHOICE (log entry 101): a
FAULTED shard is none. -/
def stashShard (s : Block) (t : TwinId) (o : Offer) (g : GInfo) : Bool :=
  let e := shardOf s g.affinity
  decide (ownerOf g.affinity = t) && e.st != .free && e.st != .faulted && e.ctx == o.ctx

/-- The stash shard cannot be declared while it is MOVING or has writers: the context takes STASH_SHARD (R187). -/
def stashBusy (s : Block) (t : TwinId) (o : Offer) (g : GInfo) : Bool :=
  let e := shardOf s g.affinity
  stashShard s t o g && (e.st == .moving || e.writers != 0)

/-- The stash shard is declared where there is one (R187). -/
def declareStash (t : TwinId) (o : Offer) (g : GInfo) (s : Block) : Bool × Block :=
  if !(stashShard s t o g) then (false, s)
  else
    let onTile := o.kind = kTile ∨ o.kind = kRoute
    (true, publish g.affinity false (upShard g.affinity (fun e => { e with
      st := if onTile then .cluster else .home,
      cluster := if onTile then o.cluster else 0 }) s))

/-- A stash that is kept (R186). -/
def keepStash (t : TwinId) (o : Offer) (consumers : List Nat) (s : Block) : Block :=
  lardTrace t o 0 (sendAnswer t o true consumers
    (sendMark t o.g o.stash false false (bump (twKey t lardP) 0x48 1 (chargeKept o.ctx o.cls o.stash s))))

/-- A stash that cannot be kept is spilled, or the context takes LARDER_EXHAUSTED (R189, R190, R209). `answered` says that
WITHHOLD has been answered, `forced` that R193 forbade a re-bake. DESIGN CHOICE (log entry 32): of several REASONs that hold, 2
is recorded before 3, and 3 before 1. -/
def spillStash (t : TwinId) (o : Offer) (g : GInfo) (declared answered forced : Bool) (s : Block) : Block :=
  let e := shardOf s g.affinity
  let fits := decide (spilledOf s o.ctx o.cls + o.stash ≤ allowOf s o.ctx o.cls)
  if !(declared && fits && !e.pin) then
    lardTrace t o 5 (lardFault t o.ctx 0x50 (if !declared then 2 else if e.pin then 3 else 1) o.f s)
  else
    let s1 := bump (twKey t lardP) 0x50 1 (chargeSpilled o.ctx o.cls o.stash s)
    let s2 := sendMark t o.g o.stash true false (if forced then bump (twKey t lardP) 0x60 1 s1 else s1)
    if e.st = .home then
      lardTrace t o (if forced then 4 else 1)
        (if answered then larderCredit t o.ctx o.g 0 s2 else sendAnswer t o true [] s2)
    else
      lardTrace t o (if forced then 4 else 2)
        (decideMove { shard := g.affinity, dest := 128, lc := actLc s o.ctx g.lc, level := g.level, stashG := some o.g }
          (if answered then s2 else sendAnswer t o false [] s2))

/-- A re-bake completion is always kept; its entry is freed (R186, R192, R195). -/
def keepRebake (t : TwinId) (o : Offer) (s : Block) : Block :=
  let entry := (tw s t).lard.table.find? fun p => p.2.valid && p.2.r == o.f
  let rs := match entry with
    | some (_, e) => e.consumers.map fun j => (mapGet {} (tw s t).lard.table j).r
    | none => []
  let s1 := keepStash t o rs s
  let s2 := if keptOf s1 o.ctx o.cls > budgetOf s o.ctx o.cls then bump (twKey t lardP) 0x70 1 s1 else s1
  match entry with
  | some (i, _) => dropEntry t i s2
  | none => s2

/-- The list of G(F) is known: the re-bake is made, or the stash is spilled (R193). -/
def decideRebake (t : TwinId) (o : Offer) (g : GInfo) (declared : Bool) (s : Block) : Block :=
  let ins := liveInputs s t o.ctx (g.targets.getD [])
  if !(rebakeFits s t g ins) then spillStash t o g declared true true s
  else match firstFree (tw s t).lard.table 0 4096, poolSlot s t with
    | some i, some x =>
      lardTrace t o 3 (sendMark t o.g 0 false true (makeRebake t o g ins i x s))
    | _, _ => spillStash t o g declared true true (setErr (twKey t lardP) 2 s)

/-- The offer in hand has been decided; the next one of the context is taken up (R185). -/
def nextOffer (t : TwinId) (k : Nat) (s : Block) : Block :=
  let rest := (mapGet [] (tw s t).lard.offers k).tail
  let s1 := upTw t (fun w => { w with lard := { w.lard with offers := mapSet [] w.lard.offers k rest } }) s
  if rest.isEmpty then s1 else pushWork [.decide t k] s1

/-- The decision of an offer, with what was read of G(F) (R186). -/
def decideOffer (t : TwinId) (k : Nat) (o : Offer) (answered : Bool) (g : GInfo) (s : Block) : Block :=
  if answered then
    -- The list read of an over-budget offer has ended; the shard was declared when the offer was decided, and is still there.
    nextOffer t k (decideRebake t o g (o.declared && stashShard s t o g) s)
  else
    let s0 := bump (twKey t lardP) 0x40 1 s
    if o.stash = 0 then nextOffer t k (lardTrace t o 0 (sendAnswer t o true [] s0))
    else if stashBusy s0 t o g then nextOffer t k (lardFault t o.ctx 0x51 0 o.f s0)
    else
      let d := declareStash t o g s0
      let above := keptOf s k o.cls + o.stash > budgetOf s k o.cls
      if o.rebake then nextOffer t k (keepRebake t o d.2)
      else if policyOf s k o.cls = 0 ∨ ¬ above then nextOffer t k (keepStash t o [] d.2)
      else if policyOf s k o.cls = 2 then
        let s1 := sendAnswer t o false [] d.2
        if homeOf o.g = t then nextOffer t k (decideRebake t o (readG s1 o.g true) d.1 s1)
        else
          sendItem t (partner t) (.gRead o.g k true)
            (upTw t (fun w => { w with lard := { w.lard with
              offers := mapSet [] w.lard.offers k
                (({ o with declared := d.1 }, true) :: (mapGet [] w.lard.offers k).tail) } }) s1)
      else nextOffer t k (spillStash t o g d.1 false false d.2)

/-- The Larder takes up the first waiting offer of a context: G(F) is read (R185). -/
def takeOffer (t : TwinId) (k : Nat) (s : Block) : Block :=
  match mapGet [] (tw s t).lard.offers k with
  | [] => s
  | (o, a) :: _ =>
    if homeOf o.g = t then decideOffer t k o a (readG s o.g false) s
    else sendItem t (partner t) (.gRead o.g k false) s

/-- OFFER arrives at the context's home Larder (R185). -/
def offerAt (t : TwinId) (o : Offer) (s : Block) : Block :=
  if !(unfenced s t o.ctx) then s
  else
    let q := mapGet [] (tw s t).lard.offers o.ctx
    let s1 := upTw t (fun w => { w with lard := { w.lard with
      offers := mapSet [] w.lard.offers o.ctx (q ++ [(o, false)]) } }) s
    if q.isEmpty then takeOffer t o.ctx s1 else s1

/-- G_DATA arrives (R188). -/
def gDataAt (t : TwinId) (k : Nat) (g : GInfo) (s : Block) : Block :=
  match mapGet [] (tw s t).lard.offers k with
  | (o, a) :: _ => if o.g = g.g ∧ a = g.targets.isSome then decideOffer t k o a g s else s
  | [] => s

/-! ### Release (R197) -/

/-- A counter of a class falls; one that would fall below zero is cleared, and LEAK is set. -/
def takeBack (m : SMap Nat) (cls n : Nat) : SMap Nat × Bool :=
  let v := mapGet 0 m (cls % 4)
  (mapSet 0 m (cls % 4) (v - n), decide (n > v))

/-- RELEASE reaches the Larder (R197). -/
def releaseAt (t : TwinId) (g k stash : Nat) (spilled : Bool) (cls : Nat) (s : Block) : Block :=
  let s1 := bump (twKey t lardP) 0x78 1 s
  if stash = 0 then s1
  else
    sendMark t g 0 false false
      (upCtx k (fun c =>
        if spilled then
          let r := takeBack c.spilled cls stash
          { c with spilled := r.1, leak := c.leak || r.2 }
        else
          let r := takeBack c.kept cls stash
          { c with kept := r.1, leak := c.leak || r.2 }) s1)

/-- Re-bake entries of a context (R207). -/
def liveEntries (s : Block) (t : TwinId) (k : Nat) : Nat :=
  ((tw s t).lard.table.filter fun p => p.2.valid && p.2.ctx == k).length

/-- A CLOSE or a teardown clears the context's counters, entries and re-bake nodes (R198). -/
def lardClear (t : TwinId) (k : Nat) (s : Block) : Block :=
  let rs := ((tw s t).lard.table.filter fun p => p.2.valid && p.2.ctx == k).map (·.2.r)
  let s1 := forEach rs freeNode s
  upCtx k (fun c => { c with kept := [], spilled := [] })
    (upTw t (fun w => { w with lard := { w.lard with
      table := w.lard.table.filter (fun p => p.2.ctx != k),
      offers := mapSet [] w.lard.offers k [] } }) s1)

/-! ### The Recipe Table (R200 to R205) -/

def upRecipe (i : Nat) (f : Recipe → Recipe) (s : Block) : Block :=
  { s with fmt := { s.fmt with entries := mapSet {} s.fmt.entries i (f (mapGet {} s.fmt.entries i)) } }

/-- A backward completion's MAX_EXP reaches its entry (R201). -/
def expReport (k layer e : Nat) (s : Block) : Block :=
  match recipeIdx s k layer with
  | none => bump fmtKey 0x48 1 s
  | some i =>
    let s1 := bump fmtKey 0x40 1 (upRecipe i (fun r => { r with stepMax := max r.stepMax e, stepV := true }) s)
    if e = 255 then bump fmtKey 0x68 1 s1 else s1

/-- MIN_HIST as it acts (R213). -/
def minHist (cfg : Nat) : Nat :=
  let v := fld cfg 36 32
  if v = 0 then 1 else min v 16

/-- The format that R203 selects. -/
def selectFormat (cfg force : Nat) (hist : List Nat) : Nat :=
  let h := hist.filter fun v => v != 0
  if 1 ≤ force ∧ force ≤ 4 then force
  else if h.contains 255 ∨ h.length < minHist cfg then 4
  else
    let d := h.foldl max 0 - h.foldl min 255
    if d ≤ fld cfg 7 0 then 1
    else if d ≤ fld cfg 15 8 then 2
    else if d ≤ fld cfg 23 16 then 3
    else 4

/-- The sweep of one entry (R203). -/
def sweepRecipe (cfg : Nat) (r : Recipe) : Recipe :=
  let hist := ((if r.stepV then r.stepMax else 0) :: r.hist).take 16
  { r with hist := hist, stepMax := 0, stepV := false, format := selectFormat cfg r.force hist }

/-- The window of a context as it acts (R212). -/
def windowEntries (s : Block) (k : Nat) : List Nat :=
  let w := (ctxOf s k).window
  if rangeEn w then (List.range (min 4096 (fld w 44 32))).map fun i => fld w 15 0 + i else []

/-- A STEP_MARK turns READY (R202): it is swept, waits, or stays READY until the queue has room. -/
def stepMarkReady (id : Nat) (s : Block) : Block :=
  setSweep s.fmt.queue (s.fmt.overflow ++ [id]) s

/-- RECIPE_SWEEP_END: the sweep of the first STEP_MARK ends, and its completion enters Returns (R198, R202, R203). -/
def recipeSweepEnd (s : Block) : Block :=
  match s.fmt.queue with
  | [] => s
  | id :: rest =>
    let k := (nodeOf s id).ctx
    let es := windowEntries s k
    let cfg := (ctxOf s k).selCfg
    let changed := (es.filter fun i =>
      (sweepRecipe cfg (mapGet {} s.fmt.entries i)).format != (mapGet {} s.fmt.entries i).format).length
    let s1 := forEach es (fun i s => upRecipe i (sweepRecipe cfg) s) s
    let s2 := bump fmtKey 0x50 1 (bump fmtKey 0x58 es.length (bump fmtKey 0x60 changed s1))
    let live := liveEntries s2 (ctxOf s2 k).home k
    let s3 := upCtx k (fun c => { c with
      leak := c.leak || c.kept.any (fun p => p.2 != 0) || c.spilled.any (fun p => p.2 != 0) || live != 0,
      keptHw := 0 }) s2
    pushWork [.internalDone id] (setSweep rest s3.fmt.overflow s3)

/-- OPEN sets every entry of the context's window (R200). -/
def recipeOpen (k : Nat) (s : Block) : Block := forEach (windowEntries s k) (fun i s => upRecipe i (fun _ => {}) s) s

end Sys2Proof.Machine
end

