-- ==== Sys2Proof/Machine/Returns.lean ====
section
/-! DEFINITION. Returns (06): scopes, narrow credits, completions and their credits, FENCE nodes, and what follows the
end of a flush or a drain. -/

namespace Sys2Proof.Machine

/-! ### Faults (R179, R180) -/

def retFault (t : TwinId) (k code engCode eng node : Nat) (s : Block) : Block :=
  raiseFault t k code node
    (upTw t (fun w => { w with ret := { w.ret with
        lastFault := 2 ^ 63 + (engCode % 256) * 2 ^ 54 + (code % 256) * 2 ^ 46 + (k % 256) * 2 ^ 38
          + (eng % 2 ^ 14) * 2 ^ 20 + node % 2 ^ 20 } })
      (setErr (twKey t retP) 1 s))

/-! ### Scopes (R150 to R153) -/

/-- The release scope of an engine (R151). -/
def releaseOf (eng : Nat) : Rel := if engKind eng = some .tile then .tile (eng / 64) else .die

def Need.any (n : Need) : Bool := n.flush || n.drain

/-- The widening that a needed scope asks of a sender, by the scopes alone. -/
def scopeNeed (rel : Rel) (need : Nat) : Need :=
  match rel with
  | .none => {}
  | .tile _ => { flush := decide (need ≥ 2), drain := decide (need ≥ 3) }
  | .die => { flush := false, drain := decide (need ≥ 3) }

/-- The narrow-credit table of the consumer's twin takes a credit from a cluster, or not (R154); an entry holds the
consumer's context. -/
def narrowAccept (t : TwinId) (target cluster : Nat) (s : Block) : Bool × Block :=
  match (tw s t).ret.narrow.find? (fun p => p.2.valid && p.2.node == target) with
  | some (_, e) => (e.cluster == cluster, s)
  | none =>
    match firstFree (tw s t).ret.narrow 0 4096 with
    | some i => (true, upTw t (fun w => { w with ret := { w.ret with
        narrow := mapSet {} w.ret.narrow i {
          valid := true, node := target, cluster := cluster, ctx := (nodeOf s target).ctx } } }) s)
    | none => (false, s)

/-- What a credit waits for: R153 with the narrow case. -/
def creditNeed (t : TwinId) (rel : Rel) (need : Nat) (c : Credit) (s : Block) : Need × Block :=
  let n := scopeNeed rel need
  match rel with
  | .tile cl =>
    if n.any then (n, s)
    else
      let g := edgeTarget c.word
      if homeOf g = t ∧ engineServed (nodeOf s g).kind = true then
        let r := narrowAccept t g cl s
        (if r.1 then {} else { flush := true }, r.2)
      else ({ flush := true }, s)
  | _ => (n, s)

/-! ### Sending credits (R157, R163) -/

/-- Credits sent in one desk cycle: conditional edges go to the Sorter, the rest to their targets' Catalogues. -/
def sendChunk (t : TwinId) (gen : Nat) (cs : List Credit) (s : Block) : Block :=
  let cond := cs.filter fun c => edgeKind c.word == 1
  let plain := cs.filter fun c => edgeKind c.word != 1
  let here := plain.filter fun c => homeOf (edgeTarget c.word) == t
  let there := plain.filter fun c => homeOf (edgeTarget c.word) != t
  let s1 := forEach cond (handEdge t gen) s
  let s2 := if here.isEmpty then s1 else pushWork [.credits t here] s1
  forEach there (fun c s => sendItem t (partner t) (.credit c) s) s2

/-- The edge channel toward the partner has no room for an item behind n that are to be sent before it (R15). -/
def edgeFull (s : Block) (t : TwinId) (n : Nat) : Bool :=
  serves s (partner t) && decide (256 ≤ (tw s (partner t)).edgeIn.length + n)

/-- A credit crosses the Bridge (R157); that of a conditional edge goes to the Sorter of its own twin (R163). -/
def crosses (t : TwinId) (c : Credit) : Bool := edgeKind c.word != 1 && homeOf (edgeTarget c.word) != t

/-- The walk of one desk cycle's credits: those to be sent, and those that stay in hand from the first for which the edge channel
has no room (R163). -/
structure Walk where
  sent : List Credit := []
  rest : List Credit := []
  hand : Hand
  st : Block

/-- One credit of a list: a TALLY edge faults, a credit that waits is deferred, and the others are sent (R163). DESIGN
CHOICE (log entry 69): the BAD_EDGE of a TALLY edge in a list (R47) is recorded in the completing node's twin, with the
completing node as SOURCE, and the target is left as it is. -/
def walkCredit (t : TwinId) (full : Nat → Bool) (a : Walk) (c : Credit) : Walk :=
  if !a.rest.isEmpty then { a with rest := a.rest ++ [c] }
  else if edgeKind c.word = 3 then { a with st := catFault t c.ctx 0x12 c.src (edgeTarget c.word) a.st }
  else
    let q := creditNeed t a.hand.rel (max a.hand.scope (edgeScope c.word)) c a.st
    if q.1.any then
      { a with
        st := q.2,
        hand := { a.hand with
          later := a.hand.later ++ [c],
          need := { flush := a.hand.need.flush || q.1.flush, drain := a.hand.need.drain || q.1.drain } } }
    else if crosses t c && full (a.sent.countP (crosses t)) then { a with rest := [c] }
    else { a with sent := a.sent ++ [c], st := q.2 }

/-- The credits of one desk cycle are walked, and what may be sent is sent. -/
def walkChunk (t : TwinId) (h : Hand) (cs : List Credit) (s : Block) : Walk :=
  let a := cs.foldl (walkCredit t (edgeFull s t)) { hand := h, st := s }
  { a with st := sendChunk t h.gen a.sent a.st }

def upRet (t : TwinId) (f : Ret → Ret) (s : Block) : Block := upTw t (fun w => { w with ret := f w.ret }) s

/-! ### Lists (R41, R46, R181) -/

/-- The successor list of a node: forward edges, or the mirror list of a backward node. -/
def listOf (s : Block) (id : Nat) : List Nat :=
  let n := nodeOf s id
  if n.backward then
    (List.range n.succLen).map fun i => mapGet 0 (tw s (homeOf id)).cat.mir (n.succBase % 2 ^ 22 + i)
  else fwdList s id n

/-- The completion of a forward mirrored node sends a stash credit, or offers its stash. -/
def isMirrored (n : Node) : Bool := n.mirrorEn && !n.backward

/-- A credit of a completing node to MIRROR_NODE: a NORMAL edge at the node's SCOPE (R157, R181). -/
def mirrorCredit (n : Node) (id epoch : Nat) (skip : Bool) : Credit :=
  { word := n.scope * 2 ^ 28 + n.mirror % 2 ^ 20, ctx := n.ctx, epoch := epoch, skip := skip, src := id, orgId := id }

/-- The credits of the edges, then the loss seed (R163, R181). -/
def listCredits (s : Block) (id epoch : Nat) (skip seedSkip : Bool) : List Credit :=
  let n := nodeOf s id
  let edges := (listOf s id).map fun w =>
    ({ word := w, ctx := n.ctx, epoch := epoch, skip := skip, src := id, orgId := id } : Credit)
  let seed := if isMirrored n && n.succLen == 0 && n.kind != kRebake then [mirrorCredit n id epoch seedSkip] else []
  edges ++ seed

def walked (t : TwinId) (id : Nat) (s : Block) : Block :=
  let n := nodeOf s id
  optEvent t 5 n.ctx true none n.succLen (bump (twKey t retP) 0x68 n.succLen s)

/-- Returns reports a backward completion or skip to the Larder (R197). -/
def reportRelease (t : TwinId) (id : Nat) (s : Block) : Block :=
  let n := nodeOf s id
  if n.backward then
    sendItem t (ctxOf s n.ctx).home (.release id n.ctx n.stash (bitOf n.larder 7) (n.larder % 4)) s
  else s

/-! ### Deferred credits (R153, R161, R185) -/

/-- A widening need of a completion is raised: a flush of the producer's cluster first, then a drain (R153, R158). -/
def raiseNeed (t : TwinId) (d : Deferred) (s : Block) : Block :=
  match d.stage with
  | .flush => needFlush t (d.eng / 64) (.completion t d.id) s
  | .drain => needDrain t (.completion t d.id) s
  | .ready => s

def stageOf (n : Need) : DefStage := if n.flush then .flush else if n.drain then .drain else .ready

/-- The list of a ROUTE has been handled, deferred edges included, so LIST_END is sent (R222). -/
def endList (t : TwinId) (node gen : Nat) (s : Block) : Block :=
  if (nodeOf s node).kind = kRoute then listEnd t node gen s else s

/-- A flush or drain that a completion waited for was lost: it is discarded (R159). -/
def loseDeferred (t : TwinId) (id : Nat) (s : Block) : Block :=
  match deferredOf s t id with
  | none => s
  | some d =>
    let s1 := upTw t (fun w => { w with ret := { w.ret with deferred := w.ret.deferred.filter fun x => x.id != id } }) s
    retFault t d.ctx 0x41 0 d.eng d.node (recheckSlot d.epoch (if d.holds then closeRec t d.recIdx s1 else s1))

/-- The Larder's credits of an ANSWER with SEND: consumer credits in list order, then the stash credit (R185, R195). -/
def answerCredits (n : Node) (d : Deferred) (consumers : List Nat) : List Credit :=
  (consumers.map fun r => ({
    word := n.scope * 2 ^ 28 + r % 2 ^ 20, ctx := d.ctx, epoch := d.epoch, skip := false,
    src := d.node, orgId := d.node } : Credit)) ++ [mirrorCredit n d.node d.epoch false]

/-! ### Completions (R160, R163 to R166) -/

/-- The COMPLETE record of a report (R387), stamped with the time at which its word left the crossing of its port (R386). -/
def completeTrace (t : TwinId) (k : Option Nat) (outcome : Nat) (c : Completion) (ns : Nat) (s : Block) : Block :=
  traceAt c.time t 0x02 k c.node (outcome * 2 ^ 16 + c.gen) (c.eng * 2 ^ 50 + (c.cycles % 2 ^ 32) * 2 ^ 18) (sat32 ns) s

/-- The COMPLETE record of a completion that no engine reports (R387). -/
def plainTrace (t : TwinId) (k node outcome gen : Nat) (s : Block) : Block :=
  trace t 0x02 (some k) node (outcome * 2 ^ 16 + gen) 0 0 s

/-- The time from the grant to the report, in ns (R308, R387). -/
def heldFor (r : CircRec) (c : Completion) : Nat := (c.time % 2 ^ 32 + 2 ^ 32 - r.time) % 2 ^ 32

/-- A stale report (R144, R160). -/
def staleReport (t : TwinId) (c : Completion) (s : Block) : Block :=
  completeTrace t none 2 c 0
    (optEvent t 16 noCtx true ((groupOf c.eng).map portOfGroup) 1 (bump (twKey t retP) 0x40 1 s))

/-- The accounting of a completion that passes R160 (R165, R174, R308). -/
def account (t : TwinId) (k : Nat) (r : CircRec) (c : Completion) (s : Block) : Block :=
  let off := match engKind c.eng with
    | some .tile => 0x70
    | some .matrix => 0x78
    | _ => 0x80
  let held := heldFor r c
  completeTrace t (some k) (b2n c.isFault) c held
    (optEvent t 3 k true ((groupOf c.eng).map portOfGroup) 1
      (bumpCtx k 0x88 held (bumpCtx k off c.cycles (bumpCtx k 0x58 1 (bump (twKey t retP) 0x48 1 s)))))

/-- What a completion leaves behind in hand: the credits deferred, an unanswered offer, a parked opening. The slot of its
record stays counted while credits are deferred or the opening is parked (R161, R219), and while the Larder has yet to
answer for a stash credit that may still be deferred, which is DEDUCED (log entry 81). A flush that the batch of the same
completion needs is shared: the batch's need, `share`, names both (R219). -/
def keepDeferred (t : TwinId) (i : Nat) (r : CircRec) (d : Deferred) (share : Option Nat) (s : Block) : Block :=
  let s1 := { s with serial := s.serial + 1 }
  let d1 := { d with
    id := share.getD s.serial, recIdx := i, since := s.time,
    holds := d.stage != .ready || d.parked || (d.offered && releaseOf d.eng != .die) }
  let s2 := if d1.holds then setRec t i { r with st := .held } s1 else closeRec t i s1
  let s3 := upTw t (fun w => { w with ret := { w.ret with deferred := w.ret.deferred ++ [d1] } }) s2
  if share.isSome && d1.stage == .flush then s3 else raiseNeed t d1 s3

/-- The offer of a completion's stash to the Larder of its context's home twin (R164). -/
def offerStash (t : TwinId) (id cluster : Nat) (s : Block) : Block :=
  let n := nodeOf s id
  sendItem t (ctxOf s n.ctx).home (.offer {
    f := id, ctx := n.ctx, stash := n.stash, cls := n.larder % 4, kind := servedKind n,
    cluster := cluster, g := n.mirror, rebake := n.kind == kRebake }) s

/-- A completion takes a GRANTED node to DONE; a node that a credit has faulted stays so (R56). -/
def grantedDone (id : Nat) (s : Block) : Block :=
  upNode id (fun n => if n.st = .granted then { n with st := .done } else n) s

/-! ### The list in hand (R15, R153, R163) -/

/-- What a task leaves once its list has been walked: its stash offered, its own credits deferred, an opening parked (R161, R164,
R185, R219), or its record closed. -/
def taskEnds (t : TwinId) (i : Nat) (r : CircRec) (c : Completion) (share : Option Nat) (h : Hand) (s : Block) : Block :=
  let id := c.node
  let n := nodeOf s id
  let offered := isMirrored n
  -- The stash credit's own widening need is raised with the others (R162, stage 8).
  let sn : Need := if offered then scopeNeed h.rel n.scope else {}
  let need : Need := { flush := h.need.flush || sn.flush, drain := h.need.drain || sn.drain }
  let parked := n.kind == kRoute && isParked s t id c.gen
  let d : Deferred := {
    node := id, gen := c.gen, ctx := n.ctx, eng := c.eng, epoch := r.epoch,
    stage := stageOf need, drain := need.drain, credits := h.later, offered := offered, parked := parked }
  let s1 := if need.any || offered || parked then keepDeferred t i r d share s else closeRec t i s
  if h.later.isEmpty then endList t id c.gen s1 else s1

/-- What the Larder's answer leaves once its credits have been walked (R185). -/
def answerEnds (t : TwinId) (d : Deferred) (h : Hand) (s : Block) : Block :=
  let done := upDeferred t (fun x => x.id == d.id) (fun x => { x with offered := false }) s
  if h.later.isEmpty then finishDeferred t d.id done
  else
    let d1 := { d with offered := false, stage := stageOf h.need, drain := h.need.drain, credits := h.later }
    raiseNeed t d1 (upDeferred t (fun x => x.id == d.id) (fun _ => d1) s)

/-- A list has been walked to its end. -/
def handEnds (t : TwinId) (h : Hand) (s : Block) : Block :=
  match h.ends with
  | .plain => s
  | .task i r c share => taskEnds t i r c share h s
  | .answer d => answerEnds t d h s
  | .widened id node gen lists =>
    let s1 := upDeferred t (fun x => x.id == id) (fun x => { x with offered := false, credits := [] }) s
    finishDeferred t id (if lists then endList t node gen s1 else s1)

/-- A list is walked, 32 credits in a desk cycle, to its end or to the first credit for which the edge channel has no room: the
rest of the completion then stays in hand (R15, R163). -/
def walkList (t : TwinId) : List (List Credit) → Hand → Block → Block
  | [], h, s => handEnds t h s
  | cs :: more, h, s =>
    let a := walkChunk t h cs s
    if a.rest.isEmpty then walkList t more a.hand a.st
    else upRet t (fun r => { r with hand := some { a.hand with chunks := a.rest :: more } }) a.st

/-- A completion's list is walked from its start. -/
def startHand (t : TwinId) (h : Hand) (s : Block) : Block := walkList t h.chunks h s

/-- Returns goes on with the completion in hand; once there is none, what waited behind it is taken, in order (R163). -/
def sendOn (t : TwinId) (s : Block) : Block :=
  match (tw s t).ret.hand with
  | some h => startHand t h (upRet t (fun r => { r with hand := none }) s)
  | none =>
    let s1 := upRet t (fun r => { r with waiting := [] }) s
    { s1 with work := (tw s t).ret.waiting.map (.retLater t) ++ s1.work }

/-- Returns has a completion in hand, or others behind it. -/
def handBusy (s : Block) (t : TwinId) : Bool := (tw s t).ret.hand.isSome || !(tw s t).ret.waiting.isEmpty

/-- Returns can go on in a twin: the channel has room for the completion in hand, or there is none and others wait. -/
def canSendOn (s : Block) (t : TwinId) : Bool :=
  live s t && (if (tw s t).ret.hand.isSome then !(edgeFull s t 0) else !(tw s t).ret.waiting.isEmpty)

/-- The widening of a completion has ended: its deferred credits are sent, in slot order (R153). -/
def widenedNow (t : TwinId) (id : Nat) (s : Block) : Block :=
  match deferredOf s t id with
  | none => s
  | some d =>
    startHand t {
        ctx := d.ctx, gen := d.gen, chunks := chunks 32 d.credits, ends := .widened id d.node d.gen true }
      (upDeferred t (fun x => x.id == id) (fun x => { x with stage := .ready, widened := true }) s)

/-- ANSWER reaches Returns (R185). -/
def answerNow (t : TwinId) (node : Nat) (send : Bool) (consumers : List Nat) (s : Block) : Block :=
  match (tw s t).ret.deferred.find? (fun d => d.offered && d.node == node) with
  | none => s
  | some d =>
    let n := nodeOf s node
    let mine (x : Deferred) : Bool := x.id == d.id
    if !send then finishDeferred t d.id (upDeferred t mine (fun x => { x with offered := false }) s)
    else
      let cs := answerCredits n d consumers
      let s1 := if n.kind = kRebake then
          upTw t (fun w => { w with lard := { w.lard with leaving := w.lard.leaving ++ [(node, cs.length)] } }) s
        else s
      let h : Hand := { ctx := d.ctx, gen := d.gen, chunks := chunks 32 cs }
      if d.stage ≠ .ready ∨ d.credits ≠ [] then
        upDeferred t mine (fun x => { x with offered := false, credits := x.credits ++ cs }) s1
      else if d.widened then startHand t { h with ends := .widened d.id node d.gen false } s1
      else startHand t { h with rel := releaseOf d.eng, scope := n.scope, ends := .answer d } s1

/-- The credits of a task completion (R153, R163, R164): the offer goes before any credit. -/
def taskCredits (t : TwinId) (i : Nat) (r : CircRec) (c : Completion) (share : Option Nat) (s : Block) : Block :=
  let id := c.node
  let n := nodeOf s id
  let s0 := if isMirrored n then offerStash t id (c.eng / 64) s else s
  startHand t {
      ctx := n.ctx, gen := c.gen, rel := releaseOf c.eng, scope := n.scope,
      chunks := chunks 32 (listCredits s0 id r.epoch false false), ends := .task i r c share } (walked t id s0)

/-- A completion that counts: the node is DONE, and what it reports and credits follows. -/
def taskDone (t : TwinId) (i : Nat) (r : CircRec) (c : Completion) (s : Block) : Block :=
  let id := c.node
  let n := nodeOf s id
  let s1 := unbind id (grantedDone id s)
  if n.inserted && n.kind == kCopy then endMove n.affinity (closeRec t i s1)
  else
    let s2 := if n.backward && c.expV then expReport n.ctx n.layer c.maxExp s1 else s1
    let s3 := reportRelease t id s2
    if n.kind = kRoute then
      let share := (firstFree (tw s3 t).sort.slots 0 64).map fun _ => s3.serial
      taskCredits t i r c share (openBatch t id c.gen n.ctx (c.eng / 64) s3)
    else taskCredits t i r c none s3

/-- A report is tested and takes its outcome (R160). DESIGN CHOICE (log entry 76): when an inserted COPY reports FAULT,
its context takes TASK_FAULT first, which FAULT_STAT keeps, and then MOVE_FAILED (R141), which MORE counts. -/
def completionNow (t : TwinId) (c : Completion) (s : Block) : Block :=
  match (if c.stale then none else openRecOf s c.node c.gen) with
  | none => staleReport t c s
  | some (i, r) =>
    let n := nodeOf s c.node
    let s1 := writersDec c.node s
    if !(unfenced s t r.ctx) then
      completeTrace t (some r.ctx) 3 c (heldFor r c)
        (bumpCtx r.ctx 0x68 1 (bump (twKey t retP) 0x60 1 (closeRec t i s1)))
    else if n.kind = kExpert ∧ isCurrent s t r.epoch = false then
      completeTrace t (some r.ctx) 4 c (heldFor r c)
        (bumpCtx r.ctx 0x68 1 (bump (twKey t retP) 0x58 1
          (unbind c.node (grantedDone c.node (closeRec t i s1)))))
    else
      let s2 := account t r.ctx r c s1
      if c.isFault then
        let s3 := retFault t r.ctx 0x40 c.code c.eng c.node (faultNode c.node (closeRec t i s2))
        if n.inserted && n.kind == kCopy then failMove n.affinity false s3 else s3
      else taskDone t i r c s2

/-- The list of a node that no engine ran, with the credit to MIRROR_NODE last (R166, R181). -/
def ownList (n : Node) (id : Nat) (skip : Bool) (cs : List Credit) : Hand :=
  { ctx := n.ctx, gen := n.gen,
    chunks := chunks 32 cs ++ (if isMirrored n then [[mirrorCredit n id 0 skip]] else []) }

/-- A skip completion is taken (R166, R181, R225, R226). -/
def skipNow (id : Nat) (s : Block) : Block :=
  let t := homeOf id
  let n := nodeOf s id
  if n.st ≠ .skipped ∨ unfenced s t n.ctx = false then s
  else
    let s1 := walked t id (bumpCtx n.ctx 0x60 1 (bump (twKey t retP) 0x50 1 s))
    let s2 := plainTrace t n.ctx id 5 n.gen s1
    let cs := listCredits s id 0 (n.kind != kExpert) true
    let cs := cs.map fun c => if edgeKind c.word = 1 then { c with skip := true } else c
    startHand t (ownList n id true cs) (reportRelease t id s2)

/-- The completion of a Camette-served node is taken (R39, R166). -/
def internalNow (id : Nat) (s : Block) : Block :=
  let t := homeOf id
  let n := nodeOf s id
  if n.st ≠ .ready ∨ unfenced s t n.ctx = false then s
  else
    let s1 := plainTrace t n.ctx id 0 n.gen (walked t id (upNode id (fun n => { n with st := .done }) s))
    startHand t (ownList n id false (listCredits s id 0 false false)) (reportRelease t id s1)

/-- Something that waited behind the completion in hand is taken. -/
def laterNow (t : TwinId) (l : RetLater) (s : Block) : Block :=
  match l with
  | .report c => completionNow t c s
  | .skip id => skipNow id s
  | .internal id => internalNow id s
  | .answer node send consumers => answerNow t node send consumers s
  | .widened id => widenedNow t id s

/-- A completion, an answer or the end of a widening enters Returns: taken, or behind the completion in hand (R163). -/
def enter (t : TwinId) (l : RetLater) (s : Block) : Block :=
  if handBusy s t then upRet t (fun r => { r with waiting := r.waiting ++ [l] }) s else laterNow t l s

/-- A report enters Returns of the node's home twin (R160, R163). -/
def completionAt (t : TwinId) (c : Completion) (s : Block) : Block := enter t (.report c) s

/-- A skip completion enters Returns. -/
def skipDone (id : Nat) (s : Block) : Block := enter (homeOf id) (.skip id) s

/-- The completion of a Camette-served node enters Returns. -/
def internalDone (id : Nat) (s : Block) : Block := enter (homeOf id) (.internal id) s

/-- ANSWER enters Returns. -/
def answerAt (t : TwinId) (node : Nat) (send : Bool) (consumers : List Nat) (s : Block) : Block :=
  enter t (.answer node send consumers) s

/-- The end of a completion's widening enters Returns. -/
def resumeDeferred (t : TwinId) (id : Nat) (s : Block) : Block := enter t (.widened id) s

/-- COMPLETE or FAULT is sampled at the primary twin (R97 to R99, R144, R156); one of a node
homed in a lost twin is stale (R362). -/
def completeWord (p : Nat) (c : Completion) (s : Block) : Block :=
  let t := primary s p
  let s0 := bump (twKey t deskP) 0x78 1 s
  if !(onPort p c.eng) then deskErr t 1 c.eng 0 s0
  else
    let x := engOf s c.eng
    let c1 := { c with stale := !x.inService, time := s.time }
    let s1 := upEng c.eng (fun x => { x with tasks := x.tasks.filter fun k =>
      !(k.node == c.node && k.gen == c.gen) }) s0
    let s2 := if engKind c.eng = some .tile then
        upFlush (c.eng / 64) (fun f => { f with dirty := true, fresh := f.fresh || f.out }) s1
      else s1
    if homeOf c.node = t then completionAt t c1 s2
    else if serves s (homeOf c.node) then sendClaim (homeOf c.node) (.complete c1) s2
    else staleReport t c1 s2

/-! ### FENCE nodes (R167) -/

/-- One of the flushes that a FENCE waits for has ended; after the last comes the drain, or the completion. -/
def fenceStep (t : TwinId) (id : Nat) (s : Block) : Block :=
  match (tw s t).ret.fences.find? (fun f => f.id == id) with
  | none => s
  | some f =>
    let up (g : FenceWait → FenceWait) (s : Block) : Block := upTw t (fun w => { w with ret := { w.ret with
      fences := w.ret.fences.map fun x => if x.id = id then g x else x } }) s
    if f.left > 1 then up (fun x => { x with left := x.left - 1 }) s
    else if f.drain then needDrain t (.fence t id) (up (fun x => { x with left := 1, drain := false }) s)
    else
      pushWork [.internalDone f.node] (upTw t (fun w => { w with ret := { w.ret with
        fences := w.ret.fences.filter fun x => x.id != id } }) s)

/-- A FENCE turns READY (R167). -/
def fenceReady (id : Nat) (s : Block) : Block :=
  let t := homeOf id
  let n := nodeOf s id
  if n.scope < 2 then pushWork [.internalDone id] s
  else
    let f := s.serial
    let cs := dirtyClusters s t
    let two := serves s (partner t)
    let w : FenceWait := { id := f, node := id, left := cs.length + b2n two + 1, drain := decide (n.scope = 3), since := s.time }
    let s1 := upTw t (fun x => { x with ret := { x.ret with fences := x.ret.fences ++ [w] } })
      { s with serial := f + 1 }
    let s2 := forEach cs (fun c s => localNeed c (.fence t f) s) s1
    fenceStep t f (if two then askFlush t none (.fence t f) s2 else s2)

/-- A FENCE whose flush or drain was lost: its completion is discarded, and its context takes FLUSH_LOST (R159). DESIGN CHOICE
(log entry 92): the fault names the FENCE and engine 0 (R179). -/
def loseFence (t : TwinId) (id : Nat) (s : Block) : Block :=
  match (tw s t).ret.fences.find? (fun f => f.id == id) with
  | none => s
  | some f =>
    retFault t (nodeOf s f.node).ctx 0x41 0 0 f.node (upTw t (fun w => { w with ret := { w.ret with
      fences := w.ret.fences.filter fun x => x.id != id } }) s)

/-! ### Appends that waited for a flush (R154) -/

def narrowWait (s : Block) (t : TwinId) (id : Nat) : Option (Narrow × Nat) :=
  ((tw s t).ret.narrow.filterMap fun p => match p.2.wait with
    | some (i, g) => if i = id then some (p.2, g) else none
    | none => none).head?

/-- The flush an append waited for has ended: the entry is freed and the node appended to the group chosen, or it waits for a move
of its shard that started meanwhile (R136). -/
def appendFlushed (t : TwinId) (id : Nat) (s : Block) : Block :=
  match narrowWait s t id with
  | none => s
  | some (e, g) =>
    let n := nodeOf s e.node
    let s1 := narrowFree e.node s
    if n.st ≠ .ready ∨ unfenced s t n.ctx = false then s1
    else if affinityHolds s1 t n && locCode (locOf s1 t n.affinity) == 0xA0 then waitOn e.node n.affinity s1
    else if (candidates s1 t n).contains g then rackIn e.node g s1
    else pushWork [.place e.node false true] s1

/-- A narrow-credit entry whose flush was lost: its node's context takes FLUSH_LOST (R159). DESIGN CHOICE (log entry 92): the
fault names the entry's node and engine 0 (R179). -/
def loseAppend (t : TwinId) (id : Nat) (s : Block) : Block :=
  match narrowWait s t id with
  | none => s
  | some (e, _) => retFault t e.ctx 0x41 0 0 e.node (narrowFree e.node s)

/-! ### The end of a flush or a drain (R153, R157 to R159) -/

/-- The flush that a completion's deferred credits waited for has ended, or was lost. -/
def deferredFlushed (t : TwinId) (id : Nat) (ok : Bool) (s : Block) : Block :=
  match (deferredOf s t id).filter (·.stage == .flush) with
  | none => s
  | some d =>
    if !ok then loseDeferred t id s
    else if d.drain then
      needDrain t (.completion t id) (upDeferred t (fun x => x.id == id) (fun x => { x with stage := .drain }) s)
    else resumeDeferred t id s

/-- The flush that a batch needed has ended, or was lost (R219). DESIGN CHOICE (log entry 91): a lost one is a FLUSH_LOST of the
ROUTE with engine 0, as a completion's is (R159). -/
def batchFlushEnded (t : TwinId) (id : Nat) (ok : Bool) (s : Block) : Block :=
  if ok then batchFlushed t id s
  else match batchSlot s t id with
    | none => s
    | some x => retFault t (batchOf s t x).ctx 0x41 0 0 (batchOf s t x).route s

/-- A flush need has been met, or lost; that of a batch may be shared with its ROUTE's credits (R219). Needs of Mixing Bowls
are served by Bowls.lean. -/
def flushEnded (w : Waiter) (ok : Bool) (s : Block) : Block :=
  match w with
  | .completion t id => deferredFlushed t id ok s
  | .fence t id => if ok then fenceStep t id s else loseFence t id s
  | .append t id => if ok then appendFlushed t id s else loseAppend t id s
  | .batch t id => deferredFlushed t id ok (batchFlushEnded t id ok s)
  | .remote t tag => sendItem t (partner t) (.flushDone tag (!ok)) s
  | .remoteAll t tag => remoteAllEnd t tag ok s
  | .bowl _ _ => s

def drainEnded (w : Waiter) (ok : Bool) (s : Block) : Block :=
  match w with
  | .completion t id => if ok then resumeDeferred t id s else loseDeferred t id s
  | .fence t id => if ok then fenceStep t id s else loseFence t id s
  | _ => s

/-- FLUSH_TIMEOUT: the limit has passed; the port's engines leave service and the flush ends as lost (R159). -/
def flushTimeout (c : Nat) (s : Block) : Block :=
  let p := primary s c
  if (flushOf s c).out = false ∨ live s p = false then s
  else
    let s1 := forEach (namedEngines (c * 64) true) removeEngine (setErr (twKey p retP) 2 s)
    endFlush c false s1

/-- DRAIN_TIMEOUT (R159). -/
def drainTimeout (t : TwinId) (s : Block) : Block :=
  if (tw s t).ret.drain.out = false ∨ live s t = false then s
  else endDrain t false (setErr (twKey t retP) 3 s)

/-- The completion in hand is dropped when it is the context's, and its record with it (R163). -/
def dropHand (t : TwinId) (k : Nat) (s : Block) : Block :=
  match (tw s t).ret.hand.filter (·.ctx == k) with
  | none => s
  | some h =>
    let s1 := upRet t (fun r => { r with hand := none }) s
    match h.ends with
    | .task i _ _ _ => closeRec t i s1
    | _ => s1

/-- The fence of a context reaches Returns of a twin: its credits and its waits are dropped (R163). A narrow entry is freed
with its node, by the sweep (R154, R305). -/
def retFence (t : TwinId) (k : Nat) (s : Block) : Block :=
  let mine := (tw s t).ret.deferred.filter fun d => d.ctx == k
  let s1 := upRet t (fun r => { r with deferred := r.deferred.filter fun d => d.ctx != k }) (dropHand t k s)
  let s2 := forEach (mine.filter (·.holds)) (fun d s => closeRec t d.recIdx s) s1
  upRet t (fun r => { r with fences := r.fences.filter fun f => (nodeOf s f.node).ctx != k }) s2

end Sys2Proof.Machine
end

