-- ==== Sys2Proof/Machine/Tallies.lean ====
section
/-! DEFINITION. The Tally Banks (09): packets, commands, evaluation at a tally tick, and firing. -/

namespace Sys2Proof.Machine

def upBank (t : TwinId) (f : Bank → Bank) (s : Block) : Block := upTw t (fun w => { w with bank := f w.bank }) s

def tallyOf (s : Block) (t : TwinId) (i : Nat) : Tally := mapGet {} (tw s t).bank.ents i

def setTally (t : TwinId) (i : Nat) (e : Tally) (s : Block) : Block :=
  upBank t (fun b => { b with ents := mapSet {} b.ents i e }) s

/-- The owning twin of a pair-wide tally index: bit 17 (09, "Tally entries"). -/
def tallyTwin (x : Nat) : TwinId := twinOf (x >>> 17)

def countMax : Nat := 2 ^ 48 - 1

/-! ### The entry as words (R237) -/

def tallyStCode : TallyState → Nat
  | .free => 0
  | .idle => 1
  | .armed => 2
  | .wrapped => 3
  | .spent => 4

def tallyWords (e : Tally) : List Nat :=
  [tallyStCode e.st * 2 ^ 61 + b2n e.packets * 2 ^ 60 + b2n e.level * 2 ^ 59 + b2n e.sat * 2 ^ 58
     + e.ctx * 2 ^ 48 + e.count,
   e.key * 2 ^ 48 + e.cursor * 2 ^ 40 + e.step,
   e.watchBase * 2 ^ 41 + e.watchLen * 2 ^ 33]

/-! ### The counters of the TALY page (R255, R377) -/

/-- An event of the TALY page is counted at the next tally tick. -/
def countTaly (t : TwinId) (off n : Nat) (s : Block) : Block :=
  upBank t (fun b => { b with events := mapSet 0 b.events off (mapGet 0 b.events off + n) }) s

/-- The events counted since the last tally tick reach the counters of the TALY page. -/
def talyTick (t : TwinId) (s : Block) : Block :=
  forEach (tw s t).bank.events (fun p s => bump (twKey t talyP) p.1 p.2 s) (upBank t (fun b => { b with events := [] }) s)

/-! ### Packets (R239, R249, R251) -/

def pktTally (p : Nat) : Nat := fld p 107 90
def pktCtx (p : Nat) : Nat := fld p 89 82
def pktKey (p : Nat) : Nat := fld p 81 66

/-- The test of R251 that a packet fails: its reason and its counter; none when it is counted. Its VC and its DST_CHIP steer
nothing: it is counted whatever virtual channel it came on, and its SRC_CHIP is kept for diagnosis alone (R250). -/
def dropReason (s : Block) (p : Nat) : Option (Nat × Nat) :=
  let t := tallyTwin (pktTally p)
  let e := tallyOf s t (pktTally p % 131072)
  if fld p 127 124 ≠ 0xA then some (1, 0x58)
  else if e.st = .free then some (2, 0x60)
  else if pktCtx p ≠ e.ctx then some (3, 0x68)
  else if pktKey p ≠ e.key then some (4, 0x70)
  else if unfenced s t e.ctx = false then some (5, 0x78)
  else none

/-- A packet is dropped, counted and recorded, SRC_CHIP with it, on the TALY page of a twin (R250, R251, R257). -/
def dropPacket (t : TwinId) (p reason off : Nat) (s : Block) : Block :=
  let key := twKey t talyP
  upBank t (fun b => { b with
      lastDrop := 2 ^ 63 + reason * 2 ^ 56 + fld p 123 118 * 2 ^ 50 + pktCtx p * 2 ^ 42 + pktTally p })
    (setErr key 3 (countTaly t off 1 s))

/-- The arrival port returns credit for packets it has dealt with; while either twin's buffer is full it returns none, for any
virtual channel, and owes it (R31). -/
def returnLink (t : TwinId) (n : Nat) (s : Block) : Block :=
  let s1 := upBank t (fun b => { b with owed := b.owed + n }) s
  let pay (t : TwinId) (s : Block) : Block :=
    if (tw s t).bank.owed = 0 then s
    else emit (.linkCredit t (tw s t).bank.owed) (upBank t (fun b => { b with owed := 0 }) s)
  if (tw s1 .t0).bank.buf.length ≥ 256 ∨ (tw s1 .t1).bank.buf.length ≥ 256 then s1 else pay .t1 (pay .t0 s1)

/-- TALLY_PACKET: a packet reaches the arrival port: idle, dropped, or buffered for a tally tick, whatever state the twin it
names is in (R13, R251). With a buffer full no credit is out, so no packet arrives (R31). After a takeover the survivor drops
and records the tally packets that come for the lost twin (R362). -/
def tallyPacket (p : Nat) (s : Block) : Block :=
  let t := tallyTwin (pktTally p)
  if fld p 127 124 = 0 then s
  else if fld p 127 124 = 0xA ∧ s.pair.latch = some (partner t) then returnLink t 1 (dropPacket (partner t) p 5 0x78 s)
  else match dropReason s p with
    | some (r, off) => returnLink t 1 (dropPacket t p r off s)
    | none =>
      if (tw s t).bank.buf.length ≥ 256 then s
      else upBank t (fun b => { b with buf := b.buf ++ [p] }) s

/-- The packets that wait in the buffer of a lost twin are dropped and recorded by the survivor (R362). -/
def dropBuffered (sv : TwinId) (s : Block) : Block :=
  let ps := (tw s (partner sv)).bank.buf
  returnLink (partner sv) ps.length
    (forEach ps (fun p => dropPacket sv p 5 0x78) (upBank (partner sv) (fun b => { b with buf := [] }) s))

/-! ### Watch lists (R241, R242, R248) -/

/-- The word of a forward edge slot of a twin. -/
def fwdWord (s : Block) (t : TwinId) (slot : Nat) : Nat := mapGet 0 (tw s t).cat.fwd (slot % 2 ^ 22)

def watchWords (s : Block) (t : TwinId) (base len : Nat) : List Nat :=
  (List.range len).map fun i => fwdWord s t (base % 2 ^ 22 + i)

def setLocks (t : TwinId) (base len : Nat) (v : Bool) (s : Block) : Block :=
  upTw t (fun w => { w with acc := { w.acc with
    locks := (List.range len).foldl (fun m i => mapSet false m (base % 2 ^ 22 + i) v) w.acc.locks } }) s

/-- The AUX values never decrease along a list. -/
def risingAux : List Nat → Bool
  | a :: b :: l => decide (edgeAux a ≤ edgeAux b) && risingAux (b :: l)
  | _ => true

/-- The watch checks of R248. -/
def watchOk (s : Block) (t : TwinId) (k base len : Nat) (level : Bool) : Bool :=
  let ws := watchWords s t base len
  base / 2 ^ 22 == twinNum t && len != 0
    && (List.range len).all (fun i => inFwdRange (ctxTw s t k).fwdRange (base % 2 ^ 22 + i))
    && ws.all (fun w => edgeKind w == 3 && edgeAux w != 0
        && inNodeRange (ctxTw s (homeOf (edgeTarget w)) k).nodeRange (slotOf (edgeTarget w)))
    && (!level || risingAux ws)

def watchLocked (s : Block) (t : TwinId) (base len : Nat) : Bool :=
  (List.range len).any fun i => mapGet false (tw s t).acc.locks (base % 2 ^ 22 + i)

/-! ### Commands (R246, R247) -/

/-- No edge of the entry waits past its tick any longer. -/
def dropLate (t : TwinId) (i : Nat) (s : Block) : Block :=
  upBank t (fun b => { b with late := b.late.filter fun p => p.1 != i }) s

/-- The entry leaves ARMED, WRAPPED or SPENT for IDLE (R238). DESIGN CHOICE (log entry 94): its watch word reads as zero. -/
def disarm (t : TwinId) (i : Nat) (s : Block) : Block :=
  let e := tallyOf s t i
  if e.st = .armed ∨ e.st = .wrapped ∨ e.st = .spent then
    setTally t i { e with st := .idle, cursor := 0, watchBase := 0, watchLen := 0 }
      (dropLate t i (setLocks t e.watchBase e.watchLen false s))
  else s

def freeTally (t : TwinId) (i : Nat) (s : Block) : Block :=
  let e := tallyOf s t i
  setTally t i {} (dropLate t i (if e.watchLen = 0 then s else setLocks t e.watchBase e.watchLen false s))

def inTallyRange (s : Block) (t : TwinId) (k i : Nat) : Bool :=
  let r := (ctxTw s t k).tallyRange
  rangeEn r && decide (fld r 6 0 ≤ i / 1024) && decide (i / 1024 ≤ fld r 22 16)

/-- The effect of a command once its checks have passed; ADD is applied with the increments. -/
def tallyEffect (c : TallyCmd) (t : TwinId) (i : Nat) (e : Tally) (s : Block) : Block :=
  match c.op with
  | 1 => setTally t i { st := .idle, packets := bitOf c.d0 60, level := bitOf c.d0 59, ctx := c.ctx,
                        key := fld c.d1 63 48, step := fld c.d1 31 0 } s
  | 2 => freeTally t i s
  | 3 =>
    let base := fld c.d2 63 41
    let len := fld c.d2 40 33
    setTally t i { e with st := .armed, cursor := 0, watchBase := base, watchLen := len } (setLocks t base len true s)
  | 4 => disarm t i s
  | 5 => setTally t i { e with st := .armed, cursor := 0 } s
  | 6 =>
    let a := fld c.d0 47 0
    setTally t i { e with
      count := if a = 0 then 0 else e.count - a, cursor := 0, sat := false,
      st := if e.st = .wrapped ∨ e.st = .spent then .armed else e.st } (dropLate t i s)
  | _ => s

/-- The checks of R247, in order; 0 when all pass. -/
def tallyStatus (s : Block) (c : TallyCmd) : Nat :=
  let t := tallyTwin c.sel
  let i := c.sel % 131072
  let e := tallyOf s t i
  if !(inTallyRange s t c.ctx i) then 1
  else if c.op = 8 then 0
  else if c.op = 1 then (if e.st ≠ .free then 2 else if fld c.d1 31 0 = 0 then 7 else 0)
  else if e.st = .free ∨ e.ctx ≠ c.ctx then 2
  else match c.op with
    | 3 =>
      if e.st ≠ .idle then 3
      else if !(watchOk s t c.ctx (fld c.d2 63 41) (fld c.d2 40 33) e.level) then 4
      else if watchLocked s t (fld c.d2 63 41) (fld c.d2 40 33) then 5
      else 0
    | 4 => if e.st = .idle then 3 else 0
    | 5 => if e.st ≠ .wrapped then 3 else 0
    | _ => 0

/-- TALLY_CMD is written: the command waits for the tick; one written while BUSY is 1 is ignored (R246). DESIGN CHOICE (log
entry 102): where the twin that owns the index serves nothing and so ticks no more, an index outside the context's ranges
is refused at once, and one inside has no effect. -/
def tallyCommand (k op : Nat) (s : Block) : Block :=
  let sel := fld (reg s (ctxKey k) 0x2C0) 17 0
  let t := tallyTwin sel
  if (ctxOf s k).tallyBusy ∨ (op ≠ 8 ∧ unfenced s t k = false) then s
  else if !(serves s t) then
    if inTallyRange s t k (sel % 131072) then s else upCtx k (fun c => { c with tallyStat := 1 }) s
  else
    upBank t (fun b => { b with cmds := b.cmds ++ [{
        ctx := k, op := op, sel := sel,
        d0 := reg s (ctxKey k) 0x2C8, d1 := reg s (ctxKey k) 0x2D0, d2 := reg s (ctxKey k) 0x2D8 }] })
      (upCtx k (fun c => { c with tallyBusy := true }) s)

/-- Commands that wait for a tick are given up, with the BUSY of their contexts (R246). -/
def dropCmds (t : TwinId) (p : TallyCmd → Bool) (s : Block) : Block :=
  forEach ((tw s t).bank.cmds.filter p) (fun c => upCtx c.ctx (fun x => { x with tallyBusy := false }))
    (upBank t (fun b => { b with cmds := b.cmds.filter fun c => !(p c) }) s)

/-- A command takes effect, or is refused, at its tick (step 2 of R245). -/
def applyTallyCmd (t : TwinId) (c : TallyCmd) (s : Block) : Block :=
  let st := tallyStatus s c
  let s1 := upCtx c.ctx (fun x => { x with tallyStat := st, tallyBusy := false }) (bump (twKey t talyP) 0x88 1 s)
  if st = 0 then tallyEffect c t (c.sel % 131072) (tallyOf s t (c.sel % 131072)) s1 else s1

/-! ### The tick (R241 to R245, R252) -/

/-- The Tally Bank raises TALLY_SATURATED (R240, R257). -/
def saturate (t : TwinId) (i k : Nat) (s : Block) : Block :=
  raiseFault t k 0x70 0
    (upBank t (fun b => { b with lastFault := lastWord 0x70 k + twinNum t * 131072 + i })
      (setErr (twKey t talyP) 2 s))

/-- The increments of the tick are added, summed (R239, R240). -/
def addCount (t : TwinId) (i n : Nat) (s : Block) : Block :=
  let e := tallyOf s t i
  if e.st = .free then s
  else if e.count + n > countMax then
    saturate t i e.ctx (setTally t i { e with count := countMax, sat := true } s)
  else setTally t i { e with count := e.count + n } s

/-- The increment of a packet in an entry's units (R239). -/
def pktAmount (e : Tally) (p : Nat) : Nat := if e.packets then fld p 31 20 else fld p 63 32

/-- The increments of the tick by entry, packets first; those that fail a test now are dropped. -/
def incOf (m : SMap Nat) (i n : Nat) : SMap Nat := mapSet 0 m i (mapGet 0 m i + n)

/-- One packet leaves the buffer at the tick, counted whatever its VC, its SRC_CHIP and its DST_CHIP (R250). -/
def takePacket (t : TwinId) (p : Nat) (r : SMap Nat × Block) : SMap Nat × Block :=
  match dropReason r.2 p with
  | some (why, off) => (r.1, dropPacket t p why off r.2)
  | none =>
    let i := pktTally p % 131072
    (incOf r.1 i (pktAmount (tallyOf r.2 t i) p), bump (twKey t talyP) 0x40 1 r.2)

/-- The next watch edge of an armed entry is due (R241, R242). -/
def dueEdge (s : Block) (t : TwinId) (e : Tally) : Option Nat :=
  if e.st ≠ .armed ∨ e.cursor ≥ e.watchLen ∨ unfenced s t e.ctx = false then none
  else
    let w := fwdWord s t (e.watchBase % 2 ^ 22 + e.cursor)
    if edgeAux w * e.step ≤ e.count then some w else none

/-- The entry after its next edge has fired. -/
def afterFire (e : Tally) (w : Nat) : Tally :=
  let c := e.cursor + 1
  let e1 := { e with count := if e.level then e.count else e.count - edgeAux w * e.step, cursor := c }
  if c = e.watchLen then (if e.level then { e1 with st := .spent } else { e1 with st := .wrapped, cursor := 0 })
  else e1

/-- A watch edge fires: one credit to its target, from the tally's context (R243). -/
def fireEdge (t : TwinId) (i w : Nat) (s : Block) : Block :=
  let e := tallyOf s t i
  let x := twinNum t * 131072 + i
  let c : Credit := { word := w, ctx := e.ctx, org := 2, orgId := x }
  let s1 := bump (twKey t talyP) 0x48 1 (setTally t i (afterFire e w) s)
  let s2 := trace t 0x07 (some e.ctx) 0 e.cursor x 0 (optEvent t 17 e.ctx true none 1 s1)
  sendItem t (homeOf (edgeTarget w)) (.credit c) s2

/-- Due edges of one entry fire while the tick's budget and its own limit last. -/
def fireEntry (t : TwinId) (i : Nat) : Nat → Block → Nat × Block
  | 0, s => (0, s)
  | n + 1, s =>
    match dueEdge s t (tallyOf s t i) with
    | none => (n + 1, s)
    | some w => fireEntry t i n (fireEdge t i w s)

/-- Entries fire in turn, each up to its limit, within the budget of the tick: what is left of each limit, the budget left,
and the state. -/
def fireAll (t : TwinId) : List (Nat × Nat) → Nat → Block → List (Nat × Nat) × Nat × Block
  | [], b, s => ([], b, s)
  | (i, n) :: rest, b, s =>
    let r := fireEntry t i (min n b) s
    let fired := min n b - r.1
    let q := fireAll t rest (b - fired) r.2
    ((i, n - fired) :: q.1, q.2)

/-- How many edges of an entry are due, one after the other. -/
def dueCount (s : Block) (t : TwinId) : Nat → Tally → Nat
  | 0, _ => 0
  | n + 1, e =>
    match dueEdge s t e with
    | none => 0
    | some w => 1 + dueCount s t n (afterFire e w)

/-- Edges that have waited already and are still due keep their order (R243). -/
def stillLate (s : Block) (t : TwinId) (waited : List (Nat × Nat)) : List (Nat × Nat) :=
  (waited.map fun p => (p.1, min p.2 (dueCount s t 256 (tallyOf s t p.1)))).filter fun p => p.2 != 0

def lateOf (l : List (Nat × Nat)) (i : Nat) : Nat := l.foldl (fun a p => if p.1 = i then a + p.2 else a) 0

/-- Edges that became due at this tick and have not fired: they wait behind the others, in ascending index order (R243). -/
def newlyLate (s : Block) (t : TwinId) (late : List (Nat × Nat)) : List (Nat × Nat) :=
  (tw s t).bank.ents.filterMap fun p =>
    let n := dueCount s t 256 p.2 - lateOf late p.1
    if n = 0 then none else some (p.1, n)

def total (l : List (Nat × Nat)) : Nat := l.foldl (fun a p => a + p.2) 0

/-- The watch edges that fire at a tick: those deferred first, in the order in which they have waited, then those of each
entry in ascending index order, 16 in all (R243). Each edge is counted as deferred at the tick past which it first waits
(R255). -/
def fireTick (t : TwinId) (s : Block) : Block :=
  let f := fireAll t (tw s t).bank.late 16 s
  let g := fireAll t ((tw f.2.2 t).bank.ents.map fun p => (p.1, 16)) f.2.1 f.2.2
  let old := stillLate g.2.2 t f.1
  let new := newlyLate g.2.2 t old
  bump (twKey t talyP) 0x50 (total new) (upBank t (fun b => { b with late := old ++ new }) g.2.2)

/-- The twin's tallies fire: it serves and is not halted, and the pair is not fatal (R360, R369, R393). -/
def tallyFires (s : Block) (t : TwinId) : Bool := serves s t && !(tw s t).halted && !s.pair.isFatal

/-- The Tally Bank of a twin at a tally-tick boundary (R245): fences have taken effect; commands and releases; the
increments of at most 16 packets and of ADD commands; evaluation. A halted or a fatal twin fires nothing, and goes on
counting (R360, R393). -/
def bankTick (t : TwinId) (s : Block) : Block :=
  let b := (tw s t).bank
  let s0 := if b.buf.length ≥ 256 then bump (twKey t talyP) 0x80 1 s else s
  let s1 := upBank t (fun b => { b with
    cmds := [], rearmed := [], buf := b.buf.drop 16,
    ents := mapAll {} (fun _ e => if e.st = .wrapped ∧ b.rearmed.contains e.ctx then
      { e with st := .armed, cursor := 0 } else e) b.ents }) s0
  let adds := b.cmds.filterMap fun c => if c.op = 7 ∧ tallyStatus s1 c = 0 then some (c.sel % 131072, fld c.d0 47 0) else none
  let s2 := forEach b.cmds (applyTallyCmd t) s1
  let r := (b.buf.take 16).foldl (fun r p => takePacket t p r) (adds.foldl (fun m p => incOf m p.1 p.2) [], s2)
  let s3 := forEach r.1 (fun p s => addCount t p.1 p.2 s) r.2
  let n := (b.buf.take 16).length
  let s4 := if n = 0 then s3 else returnLink t n s3
  let s5 := if tallyFires s t then fireTick t s4 else s4
  -- QUERY copies the words as they stand after the tick (R247).
  talyTick t <| forEach (b.cmds.filter fun c => c.op == 8 && (ctxOf s5 c.ctx).tallyStat == 0) (fun c s =>
    let w := tallyWords (tallyOf s t (c.sel % 131072))
    setReg (ctxKey c.ctx) 0x2D8 (w.getD 2 0) (setReg (ctxKey c.ctx) 0x2D0 (w.getD 1 0)
      (setReg (ctxKey c.ctx) 0x2C8 (w.getD 0 0) s))) s5

/-! ### Sweeps and gating (R238) -/

def entriesOf (s : Block) (t : TwinId) (k : Nat) : List Nat :=
  ((tw s t).bank.ents.filter fun p => p.2.ctx == k).map (·.1)

/-- A RELEASE sweep of the context in the twin takes its entries to IDLE. -/
def tallyRelease (t : TwinId) (k : Nat) (s : Block) : Block := forEach (entriesOf s t k) (disarm t) s

/-- A CLOSE or teardown of the context frees its entries and drops its command. -/
def tallyTear (t : TwinId) (k : Nat) (s : Block) : Block :=
  forEach (entriesOf s t k) (freeTally t)
    (upBank t (fun b => { b with rearmed := b.rearmed.filter (· != k) }) (dropCmds t (fun c => c.ctx == k) s))

/-- The gating of the desk side takes every entry to IDLE, and its watch word reads as zero. -/
def tallyGate (t : TwinId) (s : Block) : Block :=
  upBank t (fun b => { b with
    late := [],
    ents := mapAll {} (fun _ e => if e.st = .free then e else
      { e with st := .idle, cursor := 0, watchBase := 0, watchLen := 0 }) b.ents }) s

end Sys2Proof.Machine
end

