-- ==== Sys2Proof/Machine/Tubes.lean ====
section
/-! DEFINITION. Tubes (10): entries, the OPEN and CLOSE sequences, and the send and receive endpoints. -/

namespace Sys2Proof.Machine

def upOffice (t : TwinId) (f : Office → Office) (s : Block) : Block := upTw t (fun w => { w with office := f w.office }) s

/-- The twin of a pair-wide Tube index: bit 15 (R259). -/
def tubeTwin (x : Nat) : TwinId := twinOf (x >>> 15)

def tubeOf (s : Block) (x : Nat) : Tube := mapGet {} (tw s (tubeTwin x)).office.tubes (x % 32768)

def setTube (x : Nat) (e : Tube) (s : Block) : Block :=
  upOffice (tubeTwin x) (fun o => { o with tubes := mapSet {} o.tubes (x % 32768) e }) s

def epKey (eng slot : Nat) : Nat := eng * 8 + slot

def sendOf (s : Block) (key : Nat) : SendEp := mapGet {} s.sendEps key
def recvOf (s : Block) (key : Nat) : RecvEp := mapGet {} s.recvEps key
def setSend (key : Nat) (e : SendEp) (s : Block) : Block := { s with sendEps := mapSet {} s.sendEps key e }
def setRecv (key : Nat) (e : RecvEp) (s : Block) : Block := { s with recvEps := mapSet {} s.recvEps key e }

def txKeyOf (e : Tube) : Nat := epKey e.tx e.txSlot
def rxKeyOf (e : Tube) : Nat := epKey e.rx e.rxSlot

/-! ### Entry words (R261) -/

def tubeStCode : TubeState → Nat
  | .free => 0
  | .opening => 1
  | .opened => 2
  | .closing => 3

def tubeWord0 (e : Tube) : Nat :=
  tubeStCode e.st * 2 ^ 61 + e.ctx * 2 ^ 48 + e.tx * 2 ^ 32 + e.rx * 2 ^ 16 + e.txSlot * 2 ^ 8 + e.rxSlot

def tubeWord1 (e : Tube) : Nat := e.cut * 2 ^ 16 + e.ringLog * 2 ^ 12 + e.ringOff

/-! ### The ring (R265, R268, R269). Pointers are kept whole; registers show them modulo twice the ring. -/

def ringWord (r : RecvEp) (p : Nat) : Nat := (mapGet [] r.ring (p % 2 ^ r.ringLog)).getD 0 0

/-- The beats of a pad whose marker has landed at a pointer; 0 where there is none (R264). -/
def padAt (r : RecvEp) (p : Nat) : Nat :=
  if p < r.arr ∧ fld (ringWord r p) 63 60 = 0xF then fld (ringWord r p) 59 56 + 1 else 0

/-- The message at a pointer: its first beat after a pad, and its beats, when it is available (R268). -/
def msgAt (r : RecvEp) (p : Nat) : Option (Nat × Nat) :=
  let st := p + padAt r p
  let m := fld (ringWord r st) 59 56 + 1
  if st < r.arr ∧ r.arr - st ≥ min r.cut m then some (st, m) else none

/-- Messages available and not yet taken; the fuel bounds their number. -/
def waitingFrom (r : RecvEp) : Nat → Nat → Nat
  | 0, _ => 0
  | n + 1, p =>
    match msgAt r p with
    | some (st, m) => 1 + waitingFrom r n (st + m)
    | none => 0

def rxWaiting (r : RecvEp) : Nat := waitingFrom r 4095 r.next

/-- The locator of a message (R269). -/
def locator (r : RecvEp) (st m : Nat) : Nat :=
  let i := st % 2 ^ r.ringLog
  (r.seq % 65536) * 2 ^ 48 + (m - 1) * 2 ^ 44 + i * 2 ^ 28 + (r.ringOff * 256 + i * 32)

/-- A pad that has reached the head is freed (R268); the beats freed with it. -/
def freePad (r : RecvEp) : Nat × RecvEp :=
  let k := padAt r r.rd
  if k = 0 ∨ r.cur.isSome then (0, r)
  else (k, { r with rd := r.rd + k, next := max r.next (r.rd + k) })

/-- Credits of freed beats go back to the sender (R265). -/
def returnCredits (txKey k : Nat) (s : Block) : Block :=
  if k = 0 then s else setSend txKey { sendOf s txKey with returns := (sendOf s txKey).returns ++ [k] } s

/-- A receive endpoint after beats have been freed. -/
def freed (key k : Nat) (r : RecvEp) (s : Block) : Block :=
  let p := freePad r
  returnCredits r.txKey (k + p.1) (setRecv key p.2 s)

/-! ### Words 2 to 4 (R261) -/

def tubeWord2 (x : SendEp) (r : RecvEp) : Nat :=
  let n := 2 ^ (r.ringLog + 1)
  (x.wr % n) * 2 ^ 51 + (r.arr % n) * 2 ^ 38 + (r.rd % n) * 2 ^ 25 + x.credits * 2 ^ 12 + min 4095 (rxWaiting r)

def tubeHead (r : RecvEp) : Nat := if r.rd = r.arr then 0 else ringWord r r.rd

def tubeCurrent (r : RecvEp) : Nat :=
  match r.cur with
  | some (_, _, l) => l
  | none => 0

/-! ### Checks of OPEN (R278) -/

def inTubeRange (s : Block) (k x : Nat) : Bool :=
  let h := (ctxOf s k).home
  let r := (ctxTw s h k).tubeRange
  decide (tubeTwin x = h) && rangeEn r && decide (fld r 6 0 ≤ x % 32768 / 256) && decide (x % 32768 / 256 ≤ fld r 22 16)

def tileOk (s : Block) (k e : Nat) : Bool := decide (e ≤ 0x1FFF) && inClusterMask s k (e / 64)

/-- A send or receive slot is held by some Tube of the pair. -/
def slotBusy (s : Block) (txKey rxKey : Nat) : Bool :=
  (s.tw0.office.tubes ++ s.tw1.office.tubes).any fun p =>
    p.2.st != .free && (txKeyOf p.2 == txKey || rxKeyOf p.2 == rxKey)

/-- The ring's scratchpad banks, first and last: a bank is 16 KiB, 64 units of 256 B (R128). -/
def ringBanks (ringOff ringLog : Nat) : Nat × Nat :=
  (ringOff / 64, (ringOff * 256 + 2 ^ ringLog * 32 - 1) / 16384)

def newTube (k d0 d1 : Nat) : Tube :=
  { st := .opening, ctx := k, tx := fld d0 45 32, rx := fld d0 29 16, txSlot := fld d0 10 8, rxSlot := fld d0 2 0,
    cut := fld d1 20 16, ringLog := fld d1 15 12, ringOff := fld d1 9 0, busy := true, ops := [.wrRx] }

def tubeOpenStatus (s : Block) (k x : Nat) (e : Tube) : Nat :=
  let b := ringBanks e.ringOff e.ringLog
  if !(inTubeRange s k x) then 1
  else if (tubeOf s x).st ≠ .free then 2
  else if !(tileOk s k e.tx && tileOk s k e.rx) then 3
  else if slotBusy s (txKeyOf e) (rxKeyOf e) then 4
  else if e.ringLog < 5 ∨ e.ringLog > 12 ∨ e.cut < 1 ∨ e.cut > 16 ∨ e.ringOff * 256 + 2 ^ e.ringLog * 32 > 147456
      ∨ banksFit s k b.1 b.2 = false then 5
  else if !(bitOf (reg s (twKey (tubeTwin x) tubeP) 0x130) 63) then 7
  else 0

/-! ### Sequences (R262) -/

/-- The configuration block of an endpoint: direction 0 for send, 1 for receive (R261). -/
def epAddr (s : Block) (t : TwinId) (eng slot dir : Nat) : Nat :=
  baseAddr (reg s (twKey t tubeP) 0x130) + eng * 1024 + (slot + 8 * dir) * 64

def writeEp (x : Nat) (e : Tube) (dir : Nat) (s : Block) : Block :=
  let t := tubeTwin x
  emit (.nocWrite t (if dir = 0 then epAddr s t e.tx e.txSlot 0 else epAddr s t e.rx e.rxSlot 1)
    [tubeWord0 e, tubeWord1 e]) s

def readEp (x : Nat) (e : Tube) (dir : Nat) (s : Block) : Block :=
  let t := tubeTwin x
  emit (.nocRead t (if dir = 0 then epAddr s t e.tx e.txSlot 0 else epAddr s t e.rx e.rxSlot 1) 64) s

def tubeDone (k st : Nat) (s : Block) : Block := upCtx k (fun c => { c with tubeStat := st, tubeBusy := false }) s

/-- The Tube Office raises a context fault and records it (R282). -/
def officeFault (t : TwinId) (k code : Nat) (isBowl : Bool) (x : Nat) (s : Block) : Block :=
  raiseFault t k code 0
    (upOffice t (fun o => { o with lastFault := lastWord code k + b2n isBowl * 2 ^ 16 + x % 65536 })
      (setErr (twKey t tubeP) 2 s))

/-- A command of the context page is taken: it is not fenced, unless it is a QUERY, and no other is in progress. -/
def officeTakes (s : Block) (k : Nat) (query busy : Bool) : Bool :=
  let h := (ctxOf s k).home
  !busy && serves s h && (query || unfenced s h k)

def tubeSelOf (s : Block) (k : Nat) : Nat := fld (reg s (ctxKey k) 0x2F0) 15 0

/-- TUBE_CMD OPEN. -/
def tubeOpen (k : Nat) (s : Block) : Block :=
  if !(officeTakes s k false (ctxOf s k).tubeBusy) then s
  else
    let x := tubeSelOf s k
    let e := newTube k (reg s (ctxKey k) 0x2F8) (reg s (ctxKey k) 0x300)
    let st := tubeOpenStatus s k x e
    if st ≠ 0 then tubeDone k st s
    else upCtx k (fun c => { c with tubeBusy := true }) (writeEp x e 1 (setTube x e s))

/-- A CLOSE starts: for a command, a partition change, or the end of its context. -/
def startClose (x : Nat) (busy : Bool) (s : Block) : Block :=
  let e := tubeOf s x
  if e.st = .free ∨ e.st = .closing then s
  else
    let c : Tube := { e with st := .closing, busy := e.busy || busy, ops := e.ops ++ [.wrClose] }
    writeEp x c 0 (setTube x c s)

/-- TUBE_CMD CLOSE. -/
def tubeClose (k : Nat) (s : Block) : Block :=
  if !(officeTakes s k false (ctxOf s k).tubeBusy) then s
  else
    let x := tubeSelOf s k
    if !(inTubeRange s k x) then tubeDone k 1 s
    else if (tubeOf s x).st ≠ .opened ∨ (tubeOf s x).ctx ≠ k then tubeDone k 6 s
    else upCtx k (fun c => { c with tubeBusy := true }) (startClose x true s)

def setTubeData (k : Nat) (i v : Nat) (s : Block) : Block := setReg (ctxKey k) (0x2F8 + 8 * i) v s

/-- TUBE_CMD QUERY: the endpoints of an open or closing Tube are read, the receive endpoint first (R278, R282). -/
def tubeQuery (k : Nat) (s : Block) : Block :=
  if !(officeTakes s k true (ctxOf s k).tubeBusy) then s
  else
    let x := tubeSelOf s k
    let e := tubeOf s x
    if !(inTubeRange s k x) then tubeDone k 1 s
    else
      let s1 := setTubeData k 1 (tubeWord1 e) (setTubeData k 0 (tubeWord0 e) s)
      if e.st = .opened ∨ e.st = .closing then
        readEp x e 1 (upCtx k (fun c => { c with tubeBusy := true }) (setTube x { e with ops := e.ops ++ [.queryRx k] } s1))
      else tubeDone k 0 (setTubeData k 4 0 (setTubeData k 3 0 (setTubeData k 2 0 s1)))

/-- What the read of the receive endpoint gives QUERY and the Inventory: words 2 to 4, TX_WR and TX_CREDITS open. -/
def receiveWords (r : RecvEp) : List Nat := [tubeWord2 {} r, tubeHead r, tubeCurrent r]

/-- Word 2 with the send endpoint's fields, the receive endpoint's being those read before it. -/
def withSend (ringLog : Nat) (a : SendEp) (w2 : Nat) : Nat :=
  (a.wr % 2 ^ (ringLog + 1)) * 2 ^ 51 + fld w2 50 25 * 2 ^ 25 + a.credits * 2 ^ 12 + fld w2 11 0

/-- INV.SEL names the Tube (R391). -/
def invNames (s : Block) (x : Nat) : Bool :=
  reg s (twKey (tubeTwin x) invP) 0x100 == 8 * 2 ^ 56 + x % 32768

/-- The receive endpoint has been read for a QUERY or for the Inventory; the send endpoint is read next (R282). -/
def midRead (x : Nat) (e : Tube) (o : TubeOp) (s : Block) : Block :=
  let w := receiveWords (recvOf s (rxKeyOf e))
  match o with
  | .queryRx k =>
    setTubeData k 4 (w.getD 2 0) (setTubeData k 3 (w.getD 1 0) (setTubeData k 2 (w.getD 0 0) s))
  | .invRx => if invNames s x then upTw (tubeTwin x) (fun t => { t with obs := { t.obs with invEp := w } }) s else s
  | _ => s

/-- The send endpoint has been read for a QUERY or for the Inventory. -/
def lastRead (x : Nat) (e : Tube) (o : TubeOp) (s : Block) : Block :=
  let a := sendOf s (txKeyOf e)
  match o with
  | .queryTx k => tubeDone k 0 (setTubeData k 2 (withSend e.ringLog a (reg s (ctxKey k) 0x308)) s)
  | .invTx =>
    if invNames s x then
      upTw (tubeTwin x) (fun t => { t with obs := { t.obs with
        invEp := withSend e.ringLog a (t.obs.invEp.getD 0 0) :: t.obs.invEp.tail } }) s
    else s
  | _ => s

/-- The Inventory reads the endpoints of an open or closing Tube through the NoC master, the receive endpoint first, and anew
where SEL is written while the send endpoint is being read (R260, R282, R391). -/
def invReadTube (x : Nat) (s : Block) : Block :=
  let e := tubeOf s x
  if (e.st = .opened ∨ e.st = .closing) ∧ e.ops.contains .invRx = false then
    readEp x e 1 (setTube x { e with ops := e.ops ++ [.invRx] } s)
  else s

/-- The Inventory still waits for an endpoint of a Tube. -/
def invReading (s : Block) (x : Nat) : Bool := (tubeOf s x).ops.contains .invRx || (tubeOf s x).ops.contains .invTx

/-- The reads of a QUERY or of the Inventory that are out as a Tube's sequence ends are answered with the endpoints as they
then stand. DESIGN CHOICE (log entry 82). -/
def answerReads (x : Nat) (e : Tube) (s : Block) : Block :=
  forEach e.ops (fun o s => match o with
    | .queryRx k => lastRead x e (.queryTx k) (midRead x e o s)
    | .invRx => lastRead x e .invTx (midRead x e o s)
    | o => lastRead x e o s) s

def isTubeWrite : TubeOp → Bool
  | .wrRx => true
  | .wrTx => true
  | .wrClose => true
  | .wrDis => true
  | _ => false

/-- The first outstanding access that passes a test is taken off, with another in its place. -/
def nextOp (p : TubeOp → Bool) (e : Tube) : Option (TubeOp × List TubeOp × List TubeOp) :=
  match e.ops.find? p with
  | none => none
  | some o => some (o, e.ops.takeWhile (fun q => !(p q)), (e.ops.dropWhile (fun q => !(p q))).tail)

/-- The Tube is free again, its command, if it has one, is over, and the pointers of its slots are gone. -/
def endTube (x st : Nat) (s : Block) : Block :=
  let e := tubeOf s x
  let s1 := answerReads x e (if e.busy then tubeDone e.ctx st s else s)
  setTube x {} (setRecv (rxKeyOf e) {} (setSend (txKeyOf e) { sendOf s1 (txKeyOf e) with wr := 0 } s1))

/-- EP_WRITE_ACK: a configuration write is acknowledged (R262). -/
def epWriteAck (x : Nat) (s : Block) : Block :=
  let t := tubeTwin x
  let e := tubeOf s x
  match (if live s t then nextOp isTubeWrite e else none) with
  | none => s
  | some (o, pre, post) =>
    let put (mid : List TubeOp) (st : TubeState) (s : Block) : Block :=
      setTube x { e with st := st, ops := pre ++ mid ++ post } s
    match o with
    | .wrRx =>
      let s1 := setRecv (rxKeyOf e) { live := true, ctx := e.ctx, txKey := txKeyOf e, cut := e.cut,
                                      ringLog := e.ringLog, ringOff := e.ringOff } s
      if e.st = .opening then writeEp x e 0 (put [.wrTx] .opening s1) else put [] e.st s1
    | .wrTx =>
      let s1 := setSend (txKeyOf e) { live := true, ctx := e.ctx, rxKey := rxKeyOf e, ringLog := e.ringLog,
                                      credits := 2 ^ e.ringLog } s
      if e.st = .opening then
        tubeDone e.ctx 0 (bump (twKey t tubeP) 0x40 1 (setTube x { e with
          st := .opened, busy := false, ops := pre ++ post } s1))
      else put [] e.st s1
    | .wrClose =>
      readEp x e 1 (put [.rdRx] e.st (setSend (txKeyOf e) { sendOf s (txKeyOf e) with live := false } s))
    | _ => bump (twKey t tubeP) 0x48 1 (endTube x 0 s)

/-- A read of the Inventory (R391). -/
def isInvRead (o : TubeOp) : Bool := o == .invRx || o == .invTx

/-- The answer of a read is taken in a twin: of any read while the twin acts, and of one of the Inventory while it has power,
halted or not (R391, R393). -/
def takesRead (s : Block) (t : TwinId) (o : TubeOp) : Bool :=
  !(isTubeWrite o) && (live s t || (isInvRead o && !s.boot.gated))

/-- EP_READ_ANSWER: an endpoint read of CLOSE, of QUERY or of the Inventory returns (R262, R278, R282). -/
def epReadAnswer (x : Nat) (s : Block) : Block :=
  let t := tubeTwin x
  let e := tubeOf s x
  match nextOp (takesRead s t) e with
  | none => s
  | some (o, pre, post) =>
    let r := recvOf s (rxKeyOf e)
    let a := sendOf s (txKeyOf e)
    let put (mid : List TubeOp) (s : Block) : Block := setTube x { e with ops := pre ++ mid ++ post } s
    match o with
    | .rdRx => readEp x e 0 (put [.rdTx r.arr] s)
    | .rdTx arr => if a.wr = arr then writeEp x e 1 (put [.wrDis] s) else readEp x e 1 (put [.rdRx] s)
    | .queryRx k => readEp x e 0 (put [.queryTx k] (midRead x e o s))
    | .invRx => readEp x e 0 (put [.invTx] (midRead x e o s))
    | o => put [] (lastRead x e o s)

/-- TUBE_IO: an access of a Tube sequence returns an error; the Tube is treated as closed (R262), and counted so (R281). -/
def tubeIo (x : Nat) (s : Block) : Block :=
  let t := tubeTwin x
  let e := tubeOf s x
  if e.ops.all isInvRead ∨ live s t = false then s
  else
    let st := (Config.freeTubeStatus x).toNat
    let asks := e.ops.filterMap fun o => match o with
      | .queryRx k => some k
      | .queryTx k => some k
      | _ => none
    let s1 := endTube x st (setSend (txKeyOf e) { sendOf s (txKeyOf e) with live := false } s)
    officeFault t e.ctx 0x80 false x
      (bump (twKey t tubeP) 0x48 1 (forEach asks (fun k s => tubeDone k st s) s1))

/-- A partition change closes the Tubes whose cluster or ring bank has gone (R262). -/
def tubePartition (t : TwinId) (k : Nat) (s : Block) : Block :=
  let gone (e : Tube) : Bool :=
    let b := ringBanks e.ringOff e.ringLog
    e.st == .opened && e.ctx == k && !(tileOk s k e.tx && tileOk s k e.rx && banksFit s k b.1 b.2)
  forEach ((tw s t).office.tubes.filter fun p => gone p.2) (fun p s =>
    startClose (twinNum t * 32768 + p.1) false (bump (twKey t tubeP) 0x50 1 s)) s

/-- The Tubes of a context are closed at its CLOSE or teardown (R262). -/
def tubeTear (t : TwinId) (k : Nat) (s : Block) : Block :=
  forEach ((tw s t).office.tubes.filter fun p => p.2.ctx == k && p.2.st != .free) (fun p s =>
    startClose (twinNum t * 32768 + p.1) false s) s

/-- A cluster holds an endpoint of an open Tube, so the Proofer never gates it (R263). -/
def tubeInCluster (s : Block) (c : Nat) : Bool :=
  (s.tw0.office.tubes ++ s.tw1.office.tubes).any fun p =>
    p.2.st != .free && (p.2.tx / 64 == c || p.2.rx / 64 == c)

/-! ### Sending (R264) -/

/-- Beats of a pad before a message of m beats: to the end of the ring when it does not fit there (R264). -/
def padBefore (e : SendEp) (m : Nat) : Nat :=
  let n := 2 ^ e.ringLog
  if n - e.wr % n ≥ m then 0 else n - e.wr % n

/-- The RESULT of a send (R264, R270, R280). A slot of no open Tube answers CLOSED. -/
def sendResult (e : SendEp) (tag m src : Nat) : Nat :=
  if !e.live then 2
  else if e.ctx ≠ tag then 3
  else if e.busy then 4
  else if src % 32 ≠ 0 ∨ src + m * 32 > 147456 then 5
  else if e.credits < padBefore e m + m then 1
  else 0

/-- The beats of a message: TYPE 1 and the beat count less one stand in bits [63:56] of the first word (R264). -/
def messageBeats (m : Nat) (words : List Nat) : List Beat :=
  (chunks 4 (setFld (words.getD 0 0) 63 56 (0x10 + (m - 1)) :: words.tail)).map fun ws => { words := ws }

def padBeat (k : Nat) : Beat := { words := [(0xF0 + (k - 1)) * 2 ^ 56, 0, 0, 0], span := k }

/-- TX_SEND is written (R264). -/
def txSend (tag eng slot len src : Nat) (words : List Nat) (s : Block) : Block :=
  let key := epKey eng slot
  let e := sendOf s key
  let m := len + 1
  if eng > 0x1FFF ∨ words.length ≠ 4 * m then s
  else
    let r := sendResult e tag m src
    if r ≠ 0 then setSend key { e with result := r } s
    else
      let k := padBefore e m
      let rx := recvOf s e.rxKey
      let beats := (if k = 0 then [] else [padBeat k]) ++ messageBeats m words
      setRecv e.rxKey { rx with flight := rx.flight ++ beats }
        (setSend key { e with
          result := 0, busy := true, wr := e.wr + k + m, credits := e.credits - (k + m),
          sent := (e.sent + 1) % 65536 } s)

/-- SOURCE_COPY_END: the source beats have been copied (R280). -/
def sourceCopyEnd (eng slot : Nat) (s : Block) : Block :=
  let e := sendOf s (epKey eng slot)
  if e.busy then setSend (epKey eng slot) { e with busy := false } s else s

/-- CREDIT_RETURN: freed beats' credits reach the sender (R265). -/
def creditReturn (eng slot : Nat) (s : Block) : Block :=
  let e := sendOf s (epKey eng slot)
  match e.returns with
  | [] => s
  | k :: rest => setSend (epKey eng slot) { e with returns := rest, credits := e.credits + k } s

/-! ### Receiving (R266, R268, R270) -/

/-- BEAT_ARRIVAL: the next beat lands; one of a dropped or freed message is freed as it lands (R266, R268). -/
def beatArrival (eng slot : Nat) (s : Block) : Block :=
  let key := epKey eng slot
  let r := recvOf s key
  match r.flight with
  | [] => s
  | b :: rest =>
    let r1 := { r with flight := rest, arr := r.arr + b.span }
    if r.dropping > 0 then freed key 1 { r1 with dropping := r.dropping - 1, rd := r.rd + 1 } s
    else
      let r2 := { r1 with ring := mapSet [] r.ring (r.arr % 2 ^ r.ringLog) b.words }
      if r.freeing > 0 then freed key 1 { r2 with freeing := r.freeing - 1, rd := r.rd + 1 } s
      else freed key 0 r2 s

/-- RX_MBOX is read (R268). -/
def rxMbox (tag eng slot : Nat) (s : Block) : Block :=
  let key := epKey eng slot
  let r := recvOf s key
  if eng > 0x1FFF then s
  else if !r.live then emit (.reply 0) (setRecv key { r with underrun := true } s)
  else if r.ctx ≠ tag then emit (.reply 0) s
  else match msgAt r r.next with
    | none => emit (.reply r.last) (setRecv key { r with underrun := true } s)
    | some (st, m) =>
      let l := locator r st m
      let k := match r.cur with
        | some (cs, cm, _) => cs + cm - r.rd
        | none => 0
      -- The message before is freed, then a pad at the head.
      let p := freePad { r with rd := r.rd + k, cur := none }
      emit (.reply l) (returnCredits r.txKey (k + p.1)
        (setRecv key { p.2 with cur := some (st, m, l), next := st + m, seq := r.seq + 1, last := l } s))

/-- RX_CMD DONE or DROP: the current message is freed; beats still to land are freed, or discarded, as they land. -/
def rxEnd (drop : Bool) (tag eng slot : Nat) (s : Block) : Block :=
  let key := epKey eng slot
  let r := recvOf s key
  match r.cur with
  | none => s
  | some (st, m, _) =>
    if !r.live ∨ r.ctx ≠ tag then s
    else
      let landed := min m (r.arr - st)
      let r1 := { r with cur := none, rd := st + landed }
      freed key landed (if drop then { r1 with dropping := m - landed } else { r1 with freeing := m - landed }) s

/-! ### The status registers of the slots (R280) -/

/-- TX_STAT. -/
def txStat (e : SendEp) : Nat := e.result * 2 ^ 61 + b2n e.busy * 2 ^ 60 + e.credits * 2 ^ 32 + e.sent * 2 ^ 16

/-- Beats of the current message that have landed. -/
def rxArrived (r : RecvEp) : Nat :=
  match r.cur with
  | some (st, m, _) => min m (r.arr - st)
  | none => 0

/-- RX_STAT. -/
def rxStat (r : RecvEp) : Nat :=
  b2n r.underrun * 2 ^ 63 + b2n r.cur.isSome * 2 ^ 62 + rxWaiting r * 2 ^ 49 + rxArrived r * 2 ^ 44

/-- Task code reads a register of a slot: RX_MBOX acts as R268 states, the status registers read zero for a context other than
the Tube's, and the rest read zero (R270, R280). DEDUCED (log entry 39): a slot with no open Tube shows its registers to any
task, and an access of another size than 8 B reads zero. -/
def slotRead (tag eng : Nat) (receive : Bool) (slot off size : Nat) (s : Block) : Block :=
  let key := epKey eng slot
  let a := sendOf s key
  let r := recvOf s key
  if eng > 0x1FFF then s
  else if size ≠ 8 then emit (.reply 0) s
  else if receive ∧ off = 0 then rxMbox tag eng slot s
  else if receive ∧ off = 8 then emit (.reply (if r.live && r.ctx != tag then 0 else rxStat r)) s
  else if receive = false ∧ off = 8 then emit (.reply (if a.live && a.ctx != tag then 0 else txStat a)) s
  else emit (.reply 0) s

/-- Task code writes a register of a slot that has no command of its own: RX_STAT.UNDERRUN is cleared by a 1, and no other
register takes a write (R7, R270, R280). -/
def slotWriteReg (tag eng : Nat) (receive : Bool) (slot off size v : Nat) (s : Block) : Block :=
  let key := epKey eng slot
  let r := recvOf s key
  if eng > 0x1FFF ∨ size ≠ 8 ∨ receive = false ∨ off ≠ 8 ∨ (r.live = true ∧ r.ctx ≠ tag) ∨ bitOf v 63 = false then s
  else setRecv key { r with underrun := false } s

end Sys2Proof.Machine
end

