-- ==== Sys2Proof/Machine/Bowls.lean ====
section
/-! DEFINITION. Mixing Bowls (10): puts, rounds, lanes, commits and their commands. -/

namespace Sys2Proof.Machine

/-- The twin of a pair-wide Bowl index: bit 9 (R259). -/
def bowlTwin (x : Nat) : TwinId := twinOf (x >>> 9)

def bowlOf (s : Block) (x : Nat) : Bowl := mapGet {} (tw s (bowlTwin x)).office.bowls (x % 512)

def setBowl (x : Nat) (b : Bowl) (s : Block) : Block :=
  upOffice (bowlTwin x) (fun o => { o with bowls := mapSet {} o.bowls (x % 512) b }) s

/-! ### Entry words (R279) -/

def bowlStCode : BowlState → Nat
  | .free => 0
  | .idle => 1
  | .starting => 2
  | .mixing => 3
  | .faulted => 4

def bowlWords (b : Bowl) : List Nat :=
  [bowlStCode b.st * 2 ^ 61 + b2n b.bf16 * 2 ^ 60 + b2n b.keep * 2 ^ 59 + b2n b.selected * 2 ^ 58
     + b2n b.epochChk * 2 ^ 57 + b2n b.doneEn * 2 ^ 56 + b.ctx * 2 ^ 48 + b.epoch * 2 ^ 32 + b.lanes * 2 ^ 24
     + b.next * 2 ^ 16 + b.elems,
   b.result * 64,
   b.pendMax * 2 ^ 51 + b.blockBase * 4096 + b.qmask * 16,
   b.pend.length * 2 ^ 51 + b.quarter * 2 ^ 40 + b.doneNode]

/-! ### Commands (R276 to R278) -/

def inBowlRange (s : Block) (k x : Nat) : Bool :=
  let h := (ctxOf s k).home
  let r := (ctxTw s h k).bowlRange
  decide (bowlTwin x = h) && rangeEn r && decide (fld r 4 0 ≤ x % 512 / 16) && decide (x % 512 / 16 ≤ fld r 20 16)

def bowlSelOf (s : Block) (k : Nat) : Nat := fld (reg s (ctxKey k) 0x330) 9 0

def newBowl (s : Block) (k : Nat) : Bowl :=
  let d0 := reg s (ctxKey k) 0x338
  let d1 := reg s (ctxKey k) 0x340
  let d2 := reg s (ctxKey k) 0x348
  let d3 := reg s (ctxKey k) 0x350
  { st := .idle, bf16 := bitOf d0 60, keep := bitOf d0 59, selected := bitOf d0 58, epochChk := bitOf d0 57,
    doneEn := bitOf d0 56, ctx := k, lanes := fld d0 31 24, elems := fld d0 15 0, result := fld d1 47 6,
    pendMax := fld d2 63 51, blockBase := fld d2 47 12, qmask := fld d2 7 4, quarter := fld d3 50 40,
    doneNode := fld d3 19 0 }

/-- Pool entries that the open Bowls of a twin reserve (R277). -/
def poolReserved (s : Block) (t : TwinId) : Nat := (tw s t).office.bowls.foldl (fun a p => a + p.2.pendMax) 0

/-- The checks of Bowl OPEN (R278). RESULT and BLOCK_BASE are aligned by their layouts (R279), and ELEMS elements of 4 B
take at most 256 KiB. -/
def bowlOpenStatus (s : Block) (k x : Nat) (b : Bowl) : Nat :=
  if !(inBowlRange s k x) then 1
  else if (bowlOf s x).st ≠ .free then 2
  else if b.selected ∧ (b.qmask = 0 ∨ b.quarter < 1 ∨ b.quarter > 1024) then 5
  else if b.pendMax < 1 ∨ b.pendMax > 4096 ∨ poolReserved s (bowlTwin x) + b.pendMax > 4096 then 8
  else 0

def bowlDone (k st : Nat) (s : Block) : Block := upCtx k (fun c => { c with bowlStat := st }) s

def bowlOpen (k : Nat) (s : Block) : Block :=
  if !(officeTakes s k false false) then s
  else
    let x := bowlSelOf s k
    let b := newBowl s k
    let st := bowlOpenStatus s k x b
    if st ≠ 0 then bowlDone k st s
    else bowlDone k 0 (bump (twKey (bowlTwin x) tubeP) 0x40 1 (setBowl x b s))

def bowlMine (s : Block) (k x : Nat) : Bool := (bowlOf s x).st != .free && (bowlOf s x).ctx == k

def bowlQuery (k : Nat) (s : Block) : Block :=
  if !(officeTakes s k true false) then s
  else
    let x := bowlSelOf s k
    if !(inBowlRange s k x) then bowlDone k 1 s
    else
      let w := bowlWords (bowlOf s x)
      bowlDone k 0 (setReg (ctxKey k) 0x350 (w.getD 3 0) (setReg (ctxKey k) 0x348 (w.getD 2 0)
        (setReg (ctxKey k) 0x340 (w.getD 1 0) (setReg (ctxKey k) 0x338 (w.getD 0 0) s))))

/-! ### Puts (R271, R272) -/

def putLane (p : Nat) : Nat := fld p 54 47
def putLast (p : Nat) : Bool := bitOf p 46
def putEngine (p : Nat) : Nat := fld p 45 32
def blockAddr (b : Bowl) (block : Nat) : Nat := b.blockBase * 4096 + block * 256

/-- The header of the put in hand is read. -/
def readHeader (x : Nat) (s : Block) : Block :=
  let b := bowlOf s x
  match b.puts with
  | p :: _ => emit (.nocRead (bowlTwin x) (blockAddr b (p % 65536)) 64)
      (setBowl x { b with reading := true, flushId := none } s)
  | [] => s

/-- The next put of a Bowl is taken in hand: a tile's waits for a flush of its cluster (R272). A Bowl that is STARTING
takes none until its lanes are fixed (R274). -/
def takePut (x : Nat) (s : Block) : Block :=
  let b := bowlOf s x
  match b.puts with
  | [] => s
  | p :: _ =>
    if b.st = .starting ∨ b.reading = true ∨ b.flushId.isSome = true then s
    else if putEngine p ≤ 0x1FFF then
      let id := s.serial
      needFlush (bowlTwin x) (putEngine p / 64) (.bowl x id)
        (setBowl x { b with flushId := some id } { s with serial := id + 1 })
    else readHeader x s

/-- The flush that the put in hand waited for has ended (R159, R272). -/
def bowlFlushed (x id : Nat) (s : Block) : Block :=
  if (bowlOf s x).flushId = some id then readHeader x s else s

def dropPut (t : TwinId) (off : Nat) (s : Block) : Block := setErr (twKey t tubeP) 3 (bump (twKey t tubeP) off 1 s)

/-- BOWL_PUT is written (R271). A put of a FREE or FAULTED Bowl is dropped (R273). -/
def bowlPut (t : TwinId) (p : Nat) (s : Block) : Block :=
  let x := twinNum t * 512 + fld p 63 55
  let b := bowlOf s x
  let s1 := bump (twKey t tubeP) 0x58 1 s
  if b.st = .free ∨ b.st = .faulted then dropPut t 0x70 s1
  else takePut x (setBowl x { b with puts := b.puts ++ [p] } s1)

/-- The puts that wait behind the one in hand are dropped with their Bowl, and counted (R273). -/
def dropQueued (x : Nat) (s : Block) : Block :=
  let t := bowlTwin x
  let b := bowlOf s x
  if b.puts.isEmpty then s
  else
    setErr (twKey t tubeP) 3 (bump (twKey t tubeP) 0x70 b.puts.length
      (setBowl x { b with puts := [], flushId := none, reading := false } s))

/-- A Bowl goes to FREE; its pending contributions are dropped, and its puts (R273, R276). -/
def freeBowl (x : Nat) (s : Block) : Block :=
  bump (twKey (bowlTwin x) tubeP) 0x48 1 (setBowl x {} (dropQueued x s))

def bowlClose (k : Nat) (s : Block) : Block :=
  if !(officeTakes s k false false) then s
  else
    let x := bowlSelOf s k
    if !(inBowlRange s k x) then bowlDone k 1 s
    else if !(bowlMine s k x) then bowlDone k 6 s
    else bowlDone k 0 (freeBowl x s)

/-- The Bowls of a context are freed at its CLOSE or teardown (R276). -/
def bowlTear (t : TwinId) (k : Nat) (s : Block) : Block :=
  forEach ((tw s t).office.bowls.filter fun p => p.2.ctx == k && p.2.st != .free)
    (fun p => freeBowl (twinNum t * 512 + p.1)) s

/-- A running round is abandoned: pending contributions are dropped and no credit is sent (R276); the puts that waited for
its lanes are taken. -/
def abandon (x : Nat) (s : Block) : Block :=
  let b := bowlOf s x
  if b.st = .starting ∨ b.st = .mixing then
    takePut x (setBowl x { b with
      st := .idle, expected := [], pend := [], commits := [], adding := false, writing := false } s)
  else s

def bowlReset (k : Nat) (s : Block) : Block :=
  if !(officeTakes s k false false) then s
  else
    let x := bowlSelOf s k
    if !(inBowlRange s k x) then bowlDone k 1 s
    else if !(bowlMine s k x) then bowlDone k 6 s
    else bowlDone k 0 (abandon x s)

/-- At a cancel point the rounds of the old epoch are abandoned (R276). -/
def bowlCancel (k : Nat) (s : Block) : Block :=
  let h := (ctxOf s k).home
  forEach ((tw s h).office.bowls.filter fun p =>
      p.2.ctx == k && p.2.epochChk && p.2.epoch != (ctxOf s k).epoch)
    (fun p s => abandon (twinNum h * 512 + p.1) s) s

/-- CANCEL_POINT, in whose desk cycle EPOCH_BUMP arrives: both Sorters cancel (R228), and the Bowls of the
context's home twin abandon the rounds of the old epoch (R276). -/
def cancelPoint (k : Nat) (s : Block) : Block :=
  if (ctxOf s k).cancelBusy then bowlCancel k (cancelBatches k s) else s

/-- EPOCH_BUMP arrives: at the cancel point, or, in a partner that was halted then, once it has resumed (R228, R393). -/
def epochBumpAt (t : TwinId) (k epoch : Nat) (s : Block) : Block :=
  if (ctxOf s k).cancelBusy then cancelPoint k s
  else if (ctxOf s k).epoch = epoch then cancelSlots t k s
  else s

/-! ### Rounds, lanes and commits (R273 to R275) -/

def elemSize (bf16 : Bool) : Nat := if bf16 then 2 else 4

/-- A fault on a Bowl puts it in FAULTED (R283); its puts are dropped (R273). -/
def bowlFault (x code : Nat) (s : Block) : Block :=
  let b := bowlOf s x
  officeFault (bowlTwin x) b.ctx code true x
    (dropQueued x (setBowl x { b with
      st := .faulted, flushId := none, reading := false, commits := [], adding := false } s))

/-- A header that faults its Bowl: the put is dropped (R273). -/
def faultPut (x code : Nat) (s : Block) : Block := bowlFault x code (setErr (twKey (bowlTwin x) tubeP) 3 s)

/-- The first contribution to be added is taken up once every result write before it has been acknowledged, so that its add
sees every earlier add: its block and its result elements are read (R275). -/
def addNext (x : Nat) (s : Block) : Block :=
  let t := bowlTwin x
  let b := bowlOf s x
  match b.commits with
  | [] => s
  | c :: _ =>
    if b.adding ∨ b.writing then s
    else
      emit (.nocRead t (b.result * 64 + c.off * elemSize b.bf16) (c.count * elemSize b.bf16))
        (emit (.nocRead t (blockAddr b c.block + 64) (c.count * elemSize c.bf16)) (setBowl x { b with adding := true } s))

/-- Contributions are to be added, behind those committed before (R275). -/
def commit (x : Nat) (cs : List Contrib) (s : Block) : Block :=
  let b := bowlOf s x
  addNext x (setBowl x { b with commits := b.commits ++ cs } s)

/-- Contributions up to and including the first that is the lane's last. -/
def upToLast : List Contrib → List Contrib
  | [] => []
  | c :: l => if c.isLast then [c] else c :: upToLast l

/-- NEXT's pending contributions are committed in arrival order; when its lane finishes, NEXT moves to the next expected
lane (R274). Recursion on the lanes still expected. -/
def advance (x : Nat) : List Nat → Block → Block
  | [], s => setBowl x { bowlOf s x with expected := [] } s
  | n :: rest, s =>
    let b := bowlOf s x
    let mine := b.pend.filter fun c => c.lane == n
    let take := upToLast mine
    let s1 := setBowl x { b with expected := n :: rest, next := n } s
    if mine.isEmpty then s1
    else
      let fin := take.any (·.isLast)
      let s2 := setBowl x { bowlOf s1 x with pend := b.pend.filter fun c => c.lane != n } s1
      let s3 := commit x take s2
      if fin then
        let late := mine.length - take.length
        advance x rest (if late = 0 then s3 else
          setErr (twKey (bowlTwin x) tubeP) 3 (bump (twKey (bowlTwin x) tubeP) 0x70 late s3))
      else s3

/-- A round with no expected lane left ends once every addition is made and the last write acknowledged (R274). DESIGN CHOICE
(log entry 86): the credit of DONE_NODE names no completing node, so a Catalogue fault that it meets records SOURCE 0
(R62). -/
def endRound (x : Nat) (s : Block) : Block :=
  let b := bowlOf s x
  let t := bowlTwin x
  if b.st = .mixing ∧ b.expected = [] ∧ b.commits = [] ∧ b.writing = false then
    let s1 := bump (twKey t tubeP) 0x78 1 (setBowl x { b with st := .idle } s)
    if b.doneEn then
      sendItem t (homeOf b.doneNode) (.credit { word := b.doneNode, ctx := b.ctx, org := 3 }) s1
    else s1
  else s

/-- The expected lanes are fixed, NEXT set, and held contributions of another epoch dropped as stale (R273, R274). -/
def fixLanes (x : Nat) (lanes : List Nat) (s : Block) : Block :=
  let t := bowlTwin x
  let b := bowlOf s x
  let keep := b.pend.filter fun c => c.epoch == b.epoch
  let n := b.pend.length - keep.length
  let s1 := if n = 0 then s else setErr (twKey t tubeP) 3 (bump (twKey t tubeP) 0x68 n s)
  takePut x (endRound x (advance x lanes (setBowl x { b with st := .mixing, pend := keep, expected := lanes } s1)))

/-- A START begins a round (R274). -/
def startRound (x epoch selAddr : Nat) (s : Block) : Block :=
  let t := bowlTwin x
  let b := bowlOf s x
  let bytes := (b.elems + 1) * elemSize b.bf16
  let s1 := if b.keep then s else
    forEach (List.range (lines64 bytes)) (fun i s => emit (.nocWrite t (b.result * 64 + 64 * i) (List.replicate 8 0)) s) s
  let s2 := setBowl x { b with st := .starting, epoch := epoch, writing := !b.keep, commits := [], adding := false } s1
  if b.selected then emit (.nocRead t selAddr 192) s2
  else fixLanes x (List.range (if b.lanes = 0 then 256 else b.lanes)) s2

/-- The lane is expected and has not finished. A lane whose last contribution is to be added has finished. -/
def laneLive (b : Bowl) (lane : Nat) : Bool := b.expected.contains lane

/-- A contribution is committed when its lane is NEXT with none of the lane pending; any other is held (R273). -/
def takeContrib (x : Nat) (c : Contrib) (s : Block) : Block :=
  let t := bowlTwin x
  let b := bowlOf s x
  if b.st = .mixing ∧ laneLive b c.lane = false then dropPut t 0x70 s
  else if b.st = .mixing ∧ b.expected.head? = some c.lane ∧ (b.pend.any fun p => p.lane == c.lane) = false then
    let s1 := commit x [c] s
    if c.isLast then advance x b.expected.tail s1 else s1
  else if b.pend.length ≥ b.pendMax then faultPut x 0x81 s
  else setBowl x { b with pend := b.pend ++ [c] } s

/-- The header of the put in hand is processed in the order of R273. -/
def processHeader (x p : Nat) (w0 w1 w2 : Nat) (s : Block) : Block :=
  let t := bowlTwin x
  let b := bowlOf s x
  let ty := fld w0 63 56
  let count := fld w0 16 0
  let off := fld w1 15 0
  if b.st = .free ∨ b.st = .faulted ∨ fld w0 55 48 ≠ b.ctx then dropPut t 0x70 s
  else if (ty ≠ 0xB2 ∧ ty ≠ 0xB3) ∨ (ty = 0xB2 ∧ (fld w0 31 24 ≠ putLane p ∨ count = 0))
      ∨ off + count > b.elems + 1 then faultPut x 0x82 s
  else if b.epochChk ∧ fld w0 47 32 ≠ (ctxOf s b.ctx).epoch then dropPut t 0x68 s
  else if ty = 0xB3 then
    if b.st = .idle then startRound x (fld w0 47 32) (fld w2 47 0) s else dropPut t 0x70 s
  else
    takeContrib x { block := p % 65536, lane := putLane p, isLast := putLast p, epoch := fld w0 47 32,
                    bf16 := bitOf w0 19, off := off, count := count } s

/-- BLOCK_HEADER_READ: the header of the put in hand arrives. -/
def blockHeaderRead (x : Nat) (h : List Nat) (s : Block) : Block :=
  let b := bowlOf s x
  match b.puts with
  | [] => s
  | p :: rest =>
    if b.reading = false ∨ live s (bowlTwin x) = false then s
    else
      let s1 := setBowl x { b with puts := rest, reading := false } s
      takePut x (endRound x (processHeader x p (h.getD 0 0) (h.getD 1 0) (h.getD 2 0) s1))

/-- The lanes of a SELECTED round (R274): lane 4e + q. -/
def selectedLanes (b : Bowl) (counts : List Nat) : List Nat :=
  (List.range 256).filter fun l => bitOf b.qmask (l % 4) && decide (counts.getD (l / 4) 0 % 2048 > l % 4 * b.quarter)

/-- SELECTION_READ: the header and count lines of the selection area arrive (R274). -/
def selectionRead (x : Nat) (h counts : List Nat) (s : Block) : Block :=
  let b := bowlOf s x
  if b.st ≠ .starting ∨ live s (bowlTwin x) = false then s
  else if fld (h.getD 0 0) 63 48 ≠ b.epoch ∨ fld (h.getD 0 0) 47 40 ≠ b.ctx then bowlFault x 0x84 s
  else fixLanes x (selectedLanes b counts) s

/-- The words of the result lines that a commit writes back: elements packed in FORMAT. -/
def packElems (bf16 : Bool) (es : List Nat) : List Nat :=
  if bf16 then pack16 es else (chunks 2 es).map fun c => c.foldr (fun e a => e % 2 ^ 32 + 2 ^ 32 * a) 0

/-- BLOCK_DATA_READ: a contribution is added to its result elements, which are written back (R275). -/
def blockDataRead (x : Nat) (block result : List Nat) (s : Block) : Block :=
  let t := bowlTwin x
  let b := bowlOf s x
  match b.commits with
  | [] => s
  | c :: rest =>
    if live s t = false ∨ b.adding = false ∨ block.length < c.count ∨ result.length < c.count then s
    else
      let sums := (List.range c.count).map fun i =>
        mixAdd b.bf16 (elemBits b.bf16 (result.getD i 0)) (elemBits c.bf16 (block.getD i 0))
      bump (twKey t tubeP) 0x60 1
        (emit (.nocWriteBytes t (b.result * 64 + c.off * elemSize b.bf16) (c.count * elemSize b.bf16) (packElems b.bf16 sums))
          (setBowl x { b with commits := rest, adding := false, writing := true } s))

/-- RESULT_WRITE_ACK: the last result write out is acknowledged, and the next contribution is added (R274, R275). -/
def resultWriteAck (x : Nat) (s : Block) : Block :=
  let b := bowlOf s x
  if b.writing = false ∨ live s (bowlTwin x) = false then s
  else takePut x (endRound x (addNext x (setBowl x { b with writing := false } s)))

/-- BOWL_IO: an access of the Bowl returns an error (R283). -/
def bowlIo (x : Nat) (s : Block) : Block :=
  let b := bowlOf s x
  let busy := b.reading || b.st == .starting || !b.commits.isEmpty || b.writing
  if b.st = .free ∨ b.st = .faulted ∨ busy = false ∨ live s (bowlTwin x) = false then s
  else bowlFault x 0x83 s

end Sys2Proof.Machine
end

