-- ==== Sys2Proof/Machine/Shadows.lean ====
section
/-! DEFINITION. Shadowed fields (17 R415 to R417; 00 R7): what is RWS, and their application at a Bake tick or at
COMMIT. -/

namespace Sys2Proof.Machine

/-- The RWS bits of a register, by page type and offset (R415). SELECT_CFG of the FMT page has a shadow for each
context, kept with the context. -/
def rwsMask (ty off : Nat) : Nat :=
  match ty, off with
  | 0x20, 0x100 => 1
  | 0x20, 0x208 => 0x1FF * 2 ^ 32 + 0x1F
  | 0x20, 0x218 => 0xFFFF * 2 ^ 24 + 0xF * 2 ^ 16 + 0xFF * 2 ^ 8
  | 0x20, 0x220 => 2 ^ 64 - 1
  | 0x20, 0x228 => 2 ^ 64 - 1
  | 0x20, 0x230 => 0xFFFF * 2 ^ 16 + 0x1FF
  | 0x20, 0x268 => 2 ^ 64 - 1 - 3 * 2 ^ 60
  | 0x20, 0x270 => 2 ^ 64 - 1 - 3 * 2 ^ 60
  | 0x20, 0x278 => 2 ^ 64 - 1 - 3 * 2 ^ 60
  | 0x20, 0x280 => 2 ^ 64 - 1 - 3 * 2 ^ 60
  | 0x13, 0x100 => 0xFF * 2 ^ 8
  | 0x1E, 0x118 => 0x3FF * 2
  | 0x1E, 0x120 => 2 ^ 63 + 0xFF
  | _, _ => 0

/-- `b` on the bits of a mask, `a` elsewhere. -/
def blend (mask a b : Nat) : Nat := (a &&& (2 ^ 64 - 1 - mask)) ||| (b &&& mask)

/-- A write to the RWS bits of a register lands in its shadow, which starts from the value in effect (R7, R416). -/
def writeShadow (key off mask v : Nat) (s : Block) : Block :=
  if mask = 0 then s
  else
    let old := (mapGet none (pageOf s key).shadow off).getD (reg s key off)
    upPage key (fun p => { p with shadow := mapSet none p.shadow off (some (blend mask old v)) }) s

/-- A shadow of the page holds a value not yet in effect (R415). -/
def shadowPend (s : Block) (key : Nat) : Bool :=
  !(pageOf s key).shadow.isEmpty || (key == fmtKey && s.ctxs.any fun p => p.2.selShadow.isSome)

/-- The registers whose change is a partition change (R130). -/
def isPartition (off : Nat) : Bool := off == 0x218 || off == 0x220 || off == 0x228 || off == 0x230

/-- The partition of a context has gained a rack group from one state to another (R142). -/
def gainsGroup (old new : Block) (k : Nat) : Bool :=
  (List.range 144).any fun g => inPartition new k g && !(inPartition old k g)

/-- A change of the partition of a context takes effect: the Shelf List and the Tubes act on it (R130, R262). -/
def partitionEffect (k : Nat) (gained : Bool) (s : Block) : Block :=
  tubePartition .t1 k (tubePartition .t0 k (partitionChange k gained s))

/-- A holding rack that waits on the in-flight limit is released when the limit has risen above the count (R92). -/
def inflightCheck (k : Nat) (s : Block) : Block :=
  let one (t : TwinId) (s : Block) : Block :=
    if (ctxTw s t k).inflHeld && inflightRoom s t k then pushWork [.holdRelease t k] s else s
  one .t1 (one .t0 s)

/-- The pending shadows of a page take effect together (R416). -/
def applyPage (key : Nat) (s : Block) : Block :=
  if !(shadowPend s key) then s
  else
    let sh := (pageOf s key).shadow
    let ty := pageType key
    let changed := sh.filter fun p => p.2.getD 0 &&& rwsMask ty p.1 ≠ reg s key p.1 &&& rwsMask ty p.1
    let s1 := forEach sh (fun p s => setReg key p.1 (blend (rwsMask ty p.1) (reg s key p.1) (p.2.getD 0)) s) s
    let s2 := upPage key (fun p => { p with shadow := [], applied := s.time % 2 ^ 48 }) s1
    let s3 := if key = fmtKey then
        forEach ((s2.ctxs.filter fun p => p.2.selShadow.isSome).map (·.1)) (fun k s =>
          upCtx k (fun c => { c with selCfg := c.selShadow.getD c.selCfg, selShadow := none }) s) s2
      else s2
    if ty = 0x20 then
      let s4 := if changed.any fun p => isPartition p.1 then partitionEffect (key - 256) (gainsGroup s s3 (key - 256)) s3 else s3
      inflightCheck (key - 256) s4
    else s3

/-- The pages with a pending shadow, in key order. -/
def pendingPages (s : Block) : List Nat :=
  let ks := (s.pages.filter fun p => !p.2.shadow.isEmpty).map (·.1)
  if shadowPend s fmtKey && !(ks.contains fmtKey) then fmtKey :: ks else ks

/-- Every pending shadow of every page takes effect (R295 step 1, R416). -/
def applyAll (s : Block) : Block := forEach (pendingPages s) applyPage s

/-- COMMIT of a page: at once for a twin or pair page; for a context page with something pending the application
follows (R416). -/
def commitPage (key : Nat) (s : Block) : Block :=
  if !(shadowPend s key) then s
  else if key < 256 then applyPage key s
  else upCtx (key - 256) (fun c => { c with commitPend := c.commitPend + 1 }) s

/-- SHADOW_APPLY: the application of the oldest COMMIT of a context page falls due in both twins (R416). -/
def shadowApply (k : Nat) (s : Block) : Block :=
  if (ctxOf s k).commitPend = 0 then s
  else applyPage (ctxKey k) (upCtx k (fun c => { c with commitPend := c.commitPend - 1 }) s)

/-- DISCARD: every pending shadow of the page is dropped (R415). -/
def discardPage (key : Nat) (s : Block) : Block :=
  let s1 := upPage key (fun p => { p with shadow := [] }) s
  if key = fmtKey then
    forEach ((s1.ctxs.filter fun p => p.2.selShadow.isSome).map (·.1)) (fun k s =>
      upCtx k (fun c => { c with selShadow := none }) s) s1
  else s1

end Sys2Proof.Machine
end

