-- ==== Sys2Proof/Machine/Bake.lean ====
section
/-! DEFINITION. The Bake Table and the Reserve Shelf (11 R292 to R298): slots, the walk, the boundary, the victim. -/

namespace Sys2Proof.Machine

/-- PERIOD in ns and FRAME_LEN, as they act (R293). -/
def bakePeriod (s : Block) : Nat :=
  let p := fld (reg s timeKey 0x180) 22 16
  1000 * (if p = 0 then 1 else if p > 100 then 100 else p)

def frameLen (s : Block) : Nat :=
  let n := fld (reg s timeKey 0x180) 10 0
  if n = 0 then 1 else if n > 1024 then 1024 else n

/-- The largest cap (R294). -/
def capMax : Nat := 2 ^ 20 - 1

def upBake (t : TwinId) (f : Bake → Bake) (s : Block) : Block := upTw t (fun w => { w with bake := f w.bake }) s

/-- A slot is used: EN, its context OPEN and not fenced in the twin, LC in effect, and the frame position within FIRST
to LAST (R294, R303). -/
def slotUsed (s : Block) (t : TwinId) (frame w : Nat) : Bool :=
  let k := fld w 62 55
  bitOf w 63 && (ctxOf s k).st == .opened && unfenced s t k && bitOf (reg s (ctxKey k) 0x100) 0
    && decide (fld w 49 40 ≤ frame) && decide (frame ≤ fld w 39 30)

/-- The walk reads the slots up to slot n (R294). -/
def walkTo (t : TwinId) (n : Nat) (s : Block) : Block :=
  let b := (tw s t).bake
  if !b.walking then s
  else
    let hit := b.slots.filter fun p => decide (b.next ≤ p.1) && decide (p.1 < n) && slotUsed s t b.frame p.2
    let caps := hit.foldl (fun m p =>
      let i := fld p.2 62 55 * 32 + fld p.2 54 50
      mapSet 0 m i (satAdd capMax (mapGet 0 m i) (fld p.2 19 0))) b.caps
    bump (twKey t bakeP) 0x48 hit.length
      (upBake t (fun b => { b with caps := caps, next := n, walking := decide (n < 1024) }) s)

/-- The walk goes on by 15 slots with each tally tick, one slot in each desk cycle (R294). -/
def walkTick (t : TwinId) (s : Block) : Block := walkTo t (min 1024 ((tw s t).bake.next + 15)) s

/-- An LC task of a context lies in the racks of a Bake domain in a twin. -/
def lcRacked (s : Block) (t : TwinId) (k d : Nat) : Bool :=
  (tw s t).rack.lanes.any fun p =>
    domainOfGroup (p.1 / 64) == d && bitOf p.1 5
      && (p.2.slots.any (fun x => (nodeOf s (nodeIdOf t x)).ctx == k) || p.2.copies.any fun c => c.ctx == k)

/-- SHORTFALLS of the tick that ends in a twin that serves (R297, R308). -/
def shortfalls (t : TwinId) (s : Block) : Block :=
  if !(serves s t) then s
  else
  forEach (tw s t).ctxs (fun p s =>
    let n := (p.2.left.filter fun q => lcRacked s t p.1 q.1).length
    if n = 0 then s else bumpCtx p.1 0xA0 n (bump (twKey t bakeP) 0x60 n s)) s

/-- LEFT of every context and domain takes the cap of the walk (R295 step 2). -/
def loadCaps (t : TwinId) (s : Block) : Block :=
  let caps := (tw s t).bake.caps
  let s1 := forEach ((tw s t).ctxs.map (·.1)) (fun k s =>
    upCtxTw t k (fun c => { c with loaded := [], left := [] }) s) s
  forEach caps (fun p s =>
    upCtxTw t (p.1 / 32) (fun c => { c with
      loaded := mapSet 0 c.loaded (p.1 % 32) p.2,
      left := mapSet 0 c.left (p.1 % 32) p.2 }) s) s1

/-- The holding racks that wait for a cap are released (R92, R295 step 3). -/
def releaseHeld (t : TwinId) (s : Block) : Block :=
  forEach (((tw s t).ctxs.filter fun p => p.2.capHeld).map (·.1)) (fun k s =>
    pushWork [.holdRelease t k] (bumpCtx k 0x98 1 s)) s

/-- What a boundary does in one twin after the shadows have been applied. -/
def bakeTwin (t : TwinId) (n : Nat) (s : Block) : Block :=
  if !(serves s t) then s
  else
  let s1 := releaseHeld t (loadCaps t s)
  bump (twKey t bakeP) 0x40 1 (upBake t (fun b => { b with
    position := n % frameLen s, walking := true, next := 0, frame := (n + 1) % frameLen s, caps := [] }) s1)

/-! ### The Reserve Shelf (R298) -/

def modelOf (s : Block) (k : Nat) : Nat := fld (reg s (ctxKey k) 0x100) 39 24

/-- The last use of a context, taken together with the contexts of the same non-zero MODEL. -/
def groupUse (s : Block) (k : Nat) : Nat :=
  let m := modelOf s k
  if m = 0 then (ctxOf s k).lastUse
  else s.ctxs.foldl (fun a p => if modelOf s p.1 = m then max a p.2.lastUse else a) (ctxOf s k).lastUse

/-- A use lies within the last HOT_TICKS Bake ticks; with HOT_TICKS 0 none does. -/
def isHot (s : Block) (use : Nat) : Bool :=
  let n := reg s blkKey 0x238
  n != 0 && decide (s.time < use + n * bakePeriod s)

/-- RESERVE_VICTIM is set: of the OPEN contexts with LC 0 and EVICTABLE 1 the one used longest ago, the lowest number of
equals. -/
def reserveVictim (s : Block) : Block :=
  let cands := (s.ctxs.filter fun p => p.2.st == .opened && !(bitOf (reg s (ctxKey p.1) 0x100) 0)
    && bitOf (reg s (ctxKey p.1) 0x100) 1).map fun p => (p.1, groupUse s p.1)
  let best := cands.foldl (fun (b : Option (Nat × Nat)) c =>
    match b with
    | none => some c
    | some d => if c.2 < d.2 then some c else b) none
  let word := match best with
    | none => 0
    | some (k, use) =>
      2 ^ 63 + b2n (isHot s use) * 2 ^ 62 + k * 2 ^ 48 + min ((s.time - use) / 1000) (2 ^ 48 - 1)
  { s with mgmt := { s.mgmt with victim := word } }

/-- The block's desk side runs: its islands have been zeroed after a reset and are not gated (R14, R399). -/
def deskUp (s : Block) : Bool := decide (4 ≤ s.phase) && !s.boot.gated

/-- BAKE_TICK: a Bake tick boundary takes effect in both twins (R293 to R295, R298). -/
def bakeTick (s : Block) : Block :=
  let n := s.time / bakePeriod s
  let s1 := walkTo .t1 1024 (walkTo .t0 1024 s)
  let s2 := applyAll (shortfalls .t1 (shortfalls .t0 s1))
  reserveVictim (bakeTwin .t1 n (bakeTwin .t0 n s2))

/-- A slot write with its fields (R297): ignored with SLOT_BAD for a DOMAIN above 19 or FIRST above LAST. -/
def slotWrite (t : TwinId) (v : Nat) (s : Block) : Block :=
  let x := fld (reg s (twKey t bakeP) 0x100) 9 0
  if fld v 54 50 > 19 ∨ fld v 49 40 > fld v 39 30 then setErr (twKey t bakeP) 1 s
  else upBake t (fun b => { b with slots := mapSet 0 b.slots x (v - fld v 29 20 * 2 ^ 20) }) s

end Sys2Proof.Machine
end

