-- ==== Sys2Proof/Machine/Notify.lean ====
section
/-! DEFINITION. The notifier and MSI-X (11 R299 to R302). -/

namespace Sys2Proof.Machine

/-- SIZE_LOG2 of the notification ring as it acts (R301). -/
def ringLog (s : Block) (k : Nat) : Nat := max 4 (fld (reg s (ctxKey k) 0x120) 7 4)

def ringEn (s : Block) (k : Nat) : Bool := bitOf (reg s (ctxKey k) 0x120) 0

/-- The ring's occupancy, NOTIFY_HEAD − NOTIFY_TAIL modulo 2^32 (R299). -/
def occupancy (head tail : Nat) : Nat := (head + 2 ^ 32 - tail) % 2 ^ 32

/-- A record is written at HEAD, and HEAD advances behind it (R299, R300). -/
def writeRecord (k w0 w2 : Nat) (s : Block) : Block :=
  let h := (ctxOf s k).head
  let base := fld (reg s (ctxKey k) 0x120) 63 12 * 4096
  bumpCtx k 0x90 1 (upCtx k (fun c => { c with head := (h + 1) % 2 ^ 32 })
    (emit (.hostWrite (base + (h % 2 ^ ringLog s k) * 32) [w0, s.time, w2, h]) s))

/-- A vector is signalled (R302): the message is written, or PEND is set while the vector is masked. -/
def msixSignal (k v : Nat) (s : Block) : Block :=
  let c := reg s (ctxKey k) (0x388 + 16 * v)
  if bitOf c 63 then setReg (ctxKey k) (0x388 + 16 * v) (setFld c 62 62 1) s
  else emit (.hostMsg (fld (reg s (ctxKey k) (0x380 + 16 * v)) 63 2 * 4) (fld c 31 0)) s

/-- A write of MSIX_CTRL: MASK and DATA; clearing MASK with PEND set sends the message (R302). -/
def msixWrite (k v value : Nat) (s : Block) : Block :=
  let off := 0x388 + 16 * v
  let pend := bitOf (reg s (ctxKey k) off) 62
  let new := (value &&& (2 ^ 63 + (2 ^ 32 - 1))) ||| (b2n pend * 2 ^ 62)
  let s1 := setReg (ctxKey k) off new s
  if pend && !(bitOf value 63) then msixSignal k v (setReg (ctxKey k) off (setFld new 62 62 0) s1) else s1

/-- NOTIFY_REQUEST: the notifier serves the context's first request once the ring has room, and the node's completion
enters Returns (R299). A request of a context that is fenced in its twin is dropped (R303). -/
def notifyRequest (k : Nat) (s : Block) : Block :=
  let c := ctxOf s k
  match c.notifyQ with
  | [] => s
  | r :: rest =>
    if !(unfenced s (homeOf r.node) k) then upCtx k (fun c => { c with notifyQ := rest }) s
    else if ringEn s k && decide (occupancy c.head c.tail ≥ 2 ^ ringLog s k - 1) then setErr (ctxKey k) 2 s
    else
      let s1 := upCtx k (fun c => { c with notifyQ := rest }) s
      let s2 := if ringEn s1 k then writeRecord k (2 ^ 56 + k * 2 ^ 48 + r.node * 2 ^ 20) r.desc s1 else s1
      let s3 := if bitOf r.layer 4 then msixSignal k (fld r.layer 3 0) s2 else s2
      pushWork [.internalDone r.node] s3

/-- A write of NOTIFY_TAIL: ignored with TAIL_BAD when the occupancy would exceed the ring or fall below zero (R301). -/
def tailWrite (k v : Nat) (s : Block) : Block :=
  let c := ctxOf s k
  if occupancy c.head (v % 2 ^ 32) > 2 ^ ringLog s k then setErr (ctxKey k) 3 s
  else upCtx k (fun c => { c with tail := v % 2 ^ 32 }) s

/-- A NOTIFY node that turned READY hands its request to the notifier (R299). -/
def notifyReady (id : Nat) (s : Block) : Block :=
  let n := nodeOf s id
  upCtx n.ctx (fun c => { c with notifyQ := c.notifyQ ++ [{ node := id, desc := n.desc, layer := n.layer }] }) s

end Sys2Proof.Machine
end

