-- ==== Sys2Proof/Machine/Contexts.lean ====
section
/-! DEFINITION. Contexts (11 R284 to R307): opening, closing, fences and teardown. -/

namespace Sys2Proof.Machine

def anyOpen (s : Block) : Bool := s.ctxs.any fun p => p.2.st != .closed

/-! ### Opening (R288, R290) -/

/-- The context BLK.CTX_SEL names. -/
def ctxSel (s : Block) : Nat := fld (reg s blkKey 0x200) 7 0

/-- Two contexts share a channel group, a bank of one cluster, or a way of one matrix group (R290). -/
def shares (s : Block) (k j : Nat) : Bool :=
  let r (c off : Nat) := reg s (ctxKey c) off
  (hbmMask s k &&& hbmMask s j) != 0
  || ((r k 0x220 &&& r j 0x220 != 0 || r k 0x228 &&& r j 0x228 != 0) && (spadBanks s k &&& spadBanks s j) != 0)
  || ((fld (r k 0x218) 39 24 &&& fld (r j 0x218) 39 24) != 0
      && (fld (r k 0x230) 31 16 &&& fld (r j 0x230) 31 16) != 0)

/-- STATUS of an OPEN: the first check of R290 that fails, in order. -/
def openStatus (s : Block) (k : Nat) (home : TwinId) : Nat :=
  let c := ctxOf s k
  if c.st ≠ .closed then 1
  else if !(bitOf c.owner 63) then 2
  else if !(rangeEn (ctxTw s home k).nodeRange) then 3
  else if s.ctxs.any fun p => p.1 != k && p.2.st != .closed && shares s k p.1 then 4
  else 0

def setCmd (busy : Bool) (st : Nat) (s : Block) : Block :=
  { s with mgmt := { s.mgmt with cmdBusy := busy, cmdStat := st } }

/-- BLK.CTX_CMD is taken: service is declared and no command is in progress (R288, R404). -/
def cmdTaken (s : Block) : Bool := declared s && !s.mgmt.cmdBusy

/-- CTX_CMD OPEN: refused with its STATUS, or accepted, with its effect to come (R288, R290). -/
def ctxOpen (home : TwinId) (s : Block) : Block :=
  let k := ctxSel s
  if !(cmdTaken s) then s
  else
    let st := openStatus s k home
    if st ≠ 0 then setCmd false st s
    else setCmd true 0 (upCtx k (fun c => { c with openPend := true, openHome := home }) s)

/-- A twin's part of a context as it is opened: the ranges stay, the rest is clear. DESIGN CHOICE (log entry 9): the rotating
pointer of placement (R132) goes on from where it was. -/
def openTw (c : CtxTw) : CtxTw :=
  { nodeRange := c.nodeRange, fwdRange := c.fwdRange, mirRange := c.mirRange, varRange := c.varRange,
    shardRange := c.shardRange, tallyRange := c.tallyRange, tubeRange := c.tubeRange, bowlRange := c.bowlRange,
    rot := c.rot, loaded := c.loaded, left := c.left }

/-- OPEN_EFFECT: an accepted OPEN takes effect (R290). -/
def openEffect (k : Nat) (s : Block) : Block :=
  let c := ctxOf s k
  if !c.openPend then s
  else
    let s1 := upCtx k (fun c => { c with
      st := .opened, home := c.openHome, openPend := false, faultStat := 0, faultTime := 0,
      nodeBank := 0, edgeBank := 0, refused := false, fixedLoaded := false, fixedClosed := false, parked := [],
      epoch := 0, cancelBusy := false, notifyQ := [], head := 0, tail := 0, lastUse := s.time, openNs := 0 }) s
    let s2 := upCtxTw .t1 k openTw (upCtxTw .t0 k openTw s1)
    let s3 := upPage (ctxKey k) (fun p => { p with ctrs := [] }) s2
    setCmd false 0 (recipeOpen k (offerHeld (forEach c.parked (fun w s => discardIn w.named s) s3)))

/-! ### Closing and forcing a fault (R288, R289, R303) -/

/-- An OPEN context is closed with room in the queue: fenced from its home twin, with an entry of the queue (R289,
R303, R304); SCRUB_FAIL is cleared (R305). -/
def closeOpen (k : Nat) (s : Block) : Block :=
  let h := (ctxOf s k).home
  let s1 := upCtx k (fun c => { c with
    st := .fenced, tear := .close, scrubFail := false, nodeBank := 0, edgeBank := 0 }) s
  queueFault h k (sendCtrl (partner h) (.fence k true) (raiseFence h k s1))

/-- A CLOSE (R289): its STATUS, and the state after it. -/
def closeCtx (k : Nat) (s : Block) : Nat × Block :=
  let c := ctxOf s k
  match c.st with
  | .opened => if entriesHeld s c.home ≥ 64 then (5, s) else (0, closeOpen k s)
  | .down => (0, upCtx k (fun c => { c with st := .closed, scrubFail := false }) s)
  | _ => (1, s)

/-- CTX_CMD CLOSE. -/
def ctxClose (s : Block) : Block :=
  if !(cmdTaken s) then s
  else
    let r := closeCtx (ctxSel s) s
    setCmd false r.1 r.2

/-- CTX_CMD FAULT: the context fault FORCED from the home twin (R289, R307). -/
def ctxFault (s : Block) : Block :=
  let k := ctxSel s
  if !(cmdTaken s) then s
  else if (ctxOf s k).st ≠ .opened then setCmd false 1 s
  else setCmd false 0 (raiseFault (ctxOf s k).home k 0x90 0 s)

/-- CTX_CTL.CLOSE: a CLOSE that neither waits for nor changes CTX_STAT (R291). -/
def ctxCtlClose (k : Nat) (s : Block) : Block := (closeCtx k s).2

/-! ### Fences (R303) -/

/-- An item of the control channel that waits while the twin is halted, as the partner's items do (R393). -/
def takeHeld (t : TwinId) (p : ControlItem → Bool) (s : Block) : Option (ControlItem × Block) :=
  if (tw s t).halted then none else takeCtrl t p s

/-- FENCE_ITEM: the FENCE item arrives; the fence is raised here, and the home twin of a fault takes its entry. -/
def fenceItem (t : TwinId) (s : Block) : Block :=
  match takeHeld t (fun i => match i with
    | .fence _ _ => true
    | _ => false) s with
  | some (.fence k _, s1) =>
    if !(serves s t) then s1
    else
      let s2 := raiseFence t k s1
      let c := ctxOf s2 k
      if c.home = t ∧ c.st = .fenced then queueFault t k s2 else s2
  | _ => s

/-- FENCE_EFFECT: the fence raised in the twin takes effect there. -/
def fenceEffect (t : TwinId) (k : Nat) (s : Block) : Block :=
  if !(ctxTw s t k).fencePend then s
  else
    let s1 := upCtxTw t k (fun c => { c with fenced := true, fencePend := false }) s
    sortFence t k (retFence t k s1)

/-! ### The sweep (R305 step 1) -/

/-- The context's shards of the twin go to FREE, and their moves are abandoned (R125, R141). -/
def sweepShards (t : TwinId) (k : Nat) (s : Block) : Block :=
  let xs := ((tw s t).shelf.shards.filter fun p => p.2.ctx == k && p.2.st != .free).map fun p =>
    twinNum t * 131072 + p.1
  let s1 := forEach xs (fun x s => publish x false (upShard x (fun _ => {}) (dropMove x s))) s
  upTw t (fun w => { w with shelf := { w.shelf with
    pendMoves := w.shelf.pendMoves.filter fun m => !(xs.contains m.shard),
    waits := mapAll {} (fun _ e => if xs.contains e.shard then { e with moving := false, copy := 0 } else e)
      w.shelf.waits } }) s1

/-- Wait-table entries that hold no node and no move are free again (R139). -/
def freeWaits (t : TwinId) (s : Block) : Block :=
  retryFirst t (upTw t (fun w => { w with shelf := { w.shelf with
    waits := mapAll {} (fun _ e => if e.nodes.isEmpty && !e.moving then {} else e) w.shelf.waits } }) s)

/-- A twin's nodes of a context, insertion pool included, by slot. -/
def nodesOf (s : Block) (t : TwinId) (k : Nat) : List Nat :=
  ((tw s t).cat.nodes.filter fun p => p.2.ctx == k && p.2.st != .free).map (·.1)

/-- The sweep of a teardown in one twin: nodes, shards and moves, Larder state, batches, tallies, Tubes and Bowls of the
context (R305). -/
def sweepCtx (t : TwinId) (k : Nat) (s : Block) : Block :=
  let s1 := forEach (nodesOf s t k) (fun x s => freeNode (nodeIdOf t x) s) s
  let s2 := freeWaits t (sweepShards t k (sendBack t true (fun c => c.ctx == k) (lardClear t k s1)))
  let s3 := bowlTear t k (tubeTear t k (tallyTear t k (sortFence t k s2)))
  upTw t (fun w => { w with
      acc := { w.acc with work := w.acc.work.filter fun m => m.ctx != k }
      shelf := { w.shelf with owners := w.shelf.owners.filter fun p => p.2 != k + 1 } })
    (upCtxTw t k (fun c => { c with
      fixUsed := 0, varUsed := 0, sweep := .none, sweepBusy := false, pendMir := [], closing := false, marker := false,
      unplace := [], capHeld := false, inflHeld := false }) s3)

/-! ### The teardown (R304, R305, R363) -/

def upHead (t : TwinId) (f : FaultEnt → FaultEnt) (s : Block) : Block :=
  upTw t (fun w => { w with faultQ := match w.faultQ with
    | e :: rest => f e :: rest
    | [] => [] }) s

/-- The contexts of a teardown. -/
def entCtxs (e : FaultEnt) : List Nat := e.ctx :: e.others

/-- The contexts fenced by a takeover are taken up together, ahead of the waiting entries (R363). -/
def joinCombined (t : TwinId) (s : Block) : Block :=
  match (tw s t).combined with
  | [] => s
  | k :: ks =>
    match (tw s t).faultQ with
    | e :: _ => if e.step = .queued then
        upTw t (fun w => { w with combined := [], faultQ := { ctx := k, others := ks, lost := true } :: w.faultQ }) s
      else s
    | [] => upTw t (fun w => { w with combined := [], faultQ := [{ ctx := k, others := ks, lost := true }] }) s

/-- TEARDOWN_START: the Archivist takes up the first entry of its fault queue (R289, R305 step 1). -/
def teardownStart (t : TwinId) (s : Block) : Block :=
  if !(live s t) then s
  else
    let s1 := joinCombined t s
    match (tw s1 t).faultQ with
    | [] => s1
    | e :: _ =>
      if e.step ≠ .queued ∨ (entCtxs e).any (fun k => unfenced s1 t k) then s1
      else
        let two := serves s1 (partner t) && e.others.isEmpty
        let s2 := forEach (entCtxs e) (fun k s => upCtx k (fun c => { c with st := .tearing }) s) s1
        let s3 := upHead t (fun e => { e with step := if two then .sweep else .wait, swept := !two }) s2
        let s4 := if two then sendCtrl (partner t) (.tear e.ctx) s3 else s3
        forEach (entCtxs e) (sweepCtx t) s4

/-- TEAR: the partner sweeps on arrival and reports SWEPT. -/
def tearAt (t : TwinId) (s : Block) : Block :=
  match takeHeld t (fun i => match i with
    | .tear _ => true
    | _ => false) s with
  | some (.tear k, s1) =>
    if serves s t then sendCtrl (partner t) (.swept k) (sweepCtx t k s1) else s1
  | _ => s

/-- SWEPT: the sweep of step 1 has ended in both twins. -/
def sweptAt (t : TwinId) (s : Block) : Block :=
  match takeHeld t (fun i => match i with
    | .swept _ => true
    | _ => false) s with
  | some (.swept k, s1) =>
    upHead t (fun e => if e.ctx = k ∧ e.step = .sweep then { e with swept := true, step := .wait } else e) s1
  | _ => s

/-- An engine counts a task of one of the contexts (R25, R305 step 2). -/
def engCounts (ks : List Nat) (e : Engine) : Bool := e.tasks.any fun k => ks.contains k.ctx

def anyCounted (s : Block) (ks : List Nat) : Bool := s.engines.any fun p => engCounts ks p.2

/-- The record and the signal that end a teardown, and the context's new state (R300, R305 step 4). -/
def reportCtx (k : Nat) (s : Block) : Block :=
  let c := ctxOf s k
  let down := decide (c.tear = .fault)
  let w0 := (if down then 2 else 3) * 2 ^ 56 + k * 2 ^ 48
    + (if down then fld c.faultStat 55 48 * 2 ^ 40 + fld c.faultStat 19 0 * 2 ^ 20 else 0)
  let w2 := b2n c.scrubFail * 2 ^ 8 + (if down then fld c.faultStat 47 40 else 0)
  let s1 := if ringEn s k then writeRecord k w0 w2 s else s
  let cfg := reg s1 (ctxKey k) 0x138
  let s2 := if bitOf cfg 4 then msixSignal k (fld cfg 3 0) s1 else s1
  upCtx k (fun c => { c with st := if down then .down else .closed }) s2

/-- The power domain of a scrub unit, where it has one (R338). -/
def unitDom : ScrubUnit → Option Nat
  | .hbm _ => none
  | .cluster c => some c.toNat
  | .matrix g => some (128 + g.toNat)

def domOf (s : Block) (d : Nat) : Dom := mapGet {} s.proof.doms d

def upDom (d : Nat) (f : Dom → Dom) (s : Block) : Block :=
  { s with proof := { s.proof with doms := mapSet {} s.proof.doms d (f (domOf s d)) } }

/-- A scrub of a teardown in hand addresses a domain; it starts the domain and holds it in RUN until its word reads 0
(R338). -/
def scrubDom (s : Block) (d : Nat) : Bool :=
  [TwinId.t0, .t1].any fun t => match (tw s t).faultQ with
    | e :: _ => e.step == .scrub && e.scrubs.any fun u => unitDom u == some d
    | [] => false

/-- The teardown in hand ends with its report (R305 step 4). -/
def reportTeardown (t : TwinId) (s : Block) : Block :=
  match (tw s t).faultQ with
  | [] => s
  | e :: rest =>
    upTw t (fun w => { w with faultQ := rest }) (forEach (entCtxs e) reportCtx s)

/-- The units a context's scrub covers, with the masks written to them (R305 step 3). -/
def ctxUnits (s : Block) (k : Nat) : List (ScrubUnit × Nat) :=
  let mem := reg s (ctxKey k) 0x230
  ((List.range 32).filter fun h => bitOf (fld mem 63 32) h).map (fun h => (.hbm (BitVec.ofNat 5 h), 1))
  ++ ((List.range 128).filter fun c => inClusterMask s k c).map (fun c => (.cluster (BitVec.ofNat 7 c), fld mem 8 0))
  ++ ((List.range 16).filter fun g => inMatrixMask s k g).map (fun g => (.matrix (BitVec.ofNat 4 g), fld mem 31 16))

/-- The units of several contexts, each once, with its masks joined (R363). -/
def joinUnits (us : List (ScrubUnit × Nat)) : List (ScrubUnit × Nat) :=
  us.foldl (fun acc u =>
    if acc.any fun a => a.1 == u.1 then acc.map fun a => if a.1 == u.1 then (a.1, a.2 ||| u.2) else a
    else acc ++ [u]) []

/-- The word of a scrub unit (R305 step 3). -/
def scrubAddr (s : Block) (u : ScrubUnit) : Nat :=
  baseAddr (reg s blkKey 0x228) + (match u with
    | .hbm h => h.toNat * 64
    | .cluster c => 0x800 + c.toNat * 64
    | .matrix g => 0x2800 + g.toNat * 64)

/-- Step 3: the scrubs are started, or the step ends at once with SCRUB_FAIL while scrub words are not in use; SCRUB_FAIL is that of
the last teardown (R288), so each teardown sets it afresh. -/
def startScrub (t : TwinId) (s : Block) : Block :=
  match (tw s t).faultQ with
  | [] => s
  | e :: _ =>
    let ks := entCtxs e
    let en := bitOf (reg s blkKey 0x228) 63
    let s1 := forEach ks (fun k s => upCtx k (fun c => { c with scrubFail := !en }) s) s
    if !en then reportTeardown t s1
    else
      let us := joinUnits (ks.flatMap (ctxUnits s1))
      let s2 := forEach us (fun u s =>
        emit (.nocWrite t (scrubAddr s u.1) [2 ^ 63 + u.2 % 2 ^ 16]) s) s1
      let s3 := upHead t (fun e => { e with step := .scrub, scrubs := us.map (·.1) }) s2
      if us.isEmpty then reportTeardown t s3 else s3

/-- ENGINE_WAIT_END: no task of the contexts is counted any more (R305 step 2). -/
def engineWaitEnd (t : TwinId) (s : Block) : Block :=
  match (tw s t).faultQ with
  | e :: _ => if e.step = .wait ∧ live s t = true ∧ anyCounted s (entCtxs e) = false then startScrub t s else s
  | [] => s

/-- The engine wait of a teardown has lasted WAIT µs: the engines that still count a task leave service (R305 step 2). -/
def teardownWaitLimit (t : TwinId) (s : Block) : Block :=
  match (tw s t).faultQ with
  | e :: _ =>
    if e.step = .wait ∧ live s t = true then
      startScrub t (forEach ((s.engines.filter fun p => engCounts (entCtxs e) p.2).map (·.1)) removeEngine s)
    else s
  | [] => s

/-- SCRUB_POLL: a scrub word is read; bit 63 clear ends the unit, an error counts as bit 63 set (R305 step 3). -/
def scrubPoll (t : TwinId) (u : ScrubUnit) (answer : Option Nat) (s : Block) : Block :=
  match (tw s t).faultQ with
  | [] => s
  | e :: _ =>
    if e.step ≠ .scrub ∨ e.scrubs.contains u = false ∨ live s t = false then s
    else
      let s0 := emit (.nocRead t (scrubAddr s u) 8) s
      let done := match answer with
        | some v => !(bitOf v 63)
        | none => false
      if !done then s0
      else
        let s1 := upHead t (fun e => { e with scrubs := e.scrubs.erase u }) s0
        if e.scrubs.erase u = [] then reportTeardown t s1 else s1

/-- SCRUB_LIMIT: the scrub has not ended within SCRUB ms (R305 step 3). -/
def scrubLimit (t : TwinId) (s : Block) : Block :=
  match (tw s t).faultQ with
  | e :: _ =>
    if e.step = .scrub ∧ live s t = true then
      reportTeardown t (forEach (entCtxs e) (fun k s => upCtx k (fun c => { c with scrubFail := true }) s) s)
    else s
  | [] => s

end Sys2Proof.Machine
end

