-- ==== Sys2Proof/Machine/Access.lean ====
section
/-! DEFINITION. Who is served (11 R284 to R287; 14 R360; 17 R408): host functions, the Archivist and engines. -/

namespace Sys2Proof.Machine

/-- How an access to a page is served (R285 to R287): as the manager's (the Archivist's too), as the owner's of the
context, denied, or ignored. -/
inductive Grade where
  | manager | owner | denied | ignored
  deriving DecidableEq, Repr

/-- A word that names a requester with EN in [63], PORT in [10:8] and FN in [7:0] names this one. -/
def names (w port fn : Nat) : Bool := bitOf w 63 && fld w 10 8 == port && fld w 7 0 == fn

/-- The grade of a requester on a page: a context page of `some k`, or a pair or twin page. -/
def gradeOf (s : Block) (src : Requester) (k : Option Nat) : Grade :=
  match src with
  | .host port fn =>
    if names s.mgmt.manager port.toNat fn.toNat then .manager
    else match k with
      | some k => if names (ctxOf s k).owner port.toNat fn.toNat then .owner else .denied
      | none => .denied
  | .archivist _ => .manager
  | .task _ => .ignored
  | .untagged => .ignored

/-- A denied access is counted, and its requester recorded (R285, R414). -/
def denyAccess (port fn : Nat) (s : Block) : Block :=
  let d := s.mgmt.denied
  let count := satAdd (2 ^ 32 - 1) (fld d 42 11) 1
  setErr blkKey 1 { s with mgmt := { s.mgmt with
    denied := 2 ^ 63 + count * 2 ^ 11 + (port % 8) * 2 ^ 8 + fn % 256 } }

def denyOf (src : Requester) (s : Block) : Block :=
  match src with
  | .host port fn => denyAccess port.toNat fn.toNat s
  | _ => s

/-- The twin whose page a key names, and whether it is the REL page. -/
def pageTwin (key : Nat) : Option (TwinId × Bool) :=
  if key < 16 ∨ 256 ≤ key then none else some (twinOf ((key - 16) / 16), key % 16 == relP)

/-- A write to a page of a fatal twin is ignored, but for its REL page (R360). -/
def pageTakes (s : Block) (key : Nat) : Bool :=
  match pageTwin key with
  | some (t, rel) => rel || (tw s t).svc != .fatal
  | none => true

/-- The requester's accesses are held: nothing reaches a gated block, and the host bridge holds every request from the
wake until PHASE is READY (R406). -/
def held (s : Block) (src : Requester) : Bool :=
  s.boot.gated || (match src with
    | .host _ _ => s.boot.cause == 4 && decide (s.phase < 8)
    | _ => false)

/-- An access to a page that a requester makes: served, denied, ignored or held. -/
def pageServe (src : Requester) (key : Nat) (f : Grade → Block → Block) (s : Block) : Block :=
  if held s src then s
  else
    match gradeOf s src (if 256 ≤ key then some (key - 256) else none) with
    | .denied => denyOf src s
    | .ignored => s
    | g => f g s

/-- A write to a page that a requester makes, which a fatal twin's page does not take (R360). -/
def pageAccess (src : Requester) (key : Nat) (f : Grade → Block → Block) (s : Block) : Block :=
  pageServe src key (fun g s => if pageTakes s key then f g s else s) s

/-- A command on a page of the pair or of a twin, or on a context page where owner and manager are served alike. -/
def pageCmd (src : Requester) (key : Nat) (f : Block → Block) (s : Block) : Block := pageAccess src key (fun _ => f) s

end Sys2Proof.Machine
end

