-- ==== Sys2Proof/Machine/Window.lean ====
section
/-! DEFINITION. The accession window as a whole (03 R65 to R68, R71, R72, R80 to R83; 11 R285, R287): a write as its parts,
and which writes are served, discarded, held, parked or applied; RELEASE and the end of a sweep. -/

namespace Sys2Proof.Machine

/-- A window write that takes effect is counted once, in the twin that its first part addresses (R83; log entry 68). -/
def countWrite (t : TwinId) (s : Block) : Block := bump (twKey t accP) 0x40 1 s

/-- RELEASE in one twin (R81): every node in the context's range goes to FREE, its proxy copies go back (R87), its locks are
cleared, the allocation pointers reset, and its tallies disarmed (R238). -/
def releaseTwin (t : TwinId) (k : Nat) (s : Block) : Block :=
  let c := ctxTw s t k
  let mine := (nodesOf s t k).filter (inNodeRange c.nodeRange)
  let s1 := forEach mine (fun x s => freeNode (nodeIdOf t x) s) s
  let s2 := tallyRelease t k (sendBack t true (fun c => c.ctx == k) s1)
  upTw t (fun w => { w with acc := { w.acc with
      locks := w.acc.locks.filter (fun p => !(inFwdRange c.fwdRange p.1)),
      work := w.acc.work.filter (fun m => m.ctx != k) } })
    (upCtxTw t k (fun c => { c with
      sweep := .release, sweepBusy := false, fixUsed := 0, varUsed := 0, pendMir := [] }) s2)

/-- A sweep is made in each twin that serves (R359). -/
def inServing (f : TwinId → Nat → Block → Block) (k : Nat) (s : Block) : Block :=
  let one (t : TwinId) (s : Block) : Block := if serves s t then f t k s else s
  one .t1 (one .t0 s)

def releaseAll (k : Nat) (s : Block) : Block :=
  upCtx k (fun c => { c with fixedLoaded := false, fixedClosed := false }) (inServing releaseTwin k s)

def rearmAll (k : Nat) (s : Block) : Block := inServing rearmTwin k s

/-- A selector takes a value while its context is OPEN; outside OPEN both are 0 (R65). -/
def select (k : Nat) (f : Ctx → Ctx) (s : Block) : Block :=
  if (ctxOf s k).st = .opened then upCtx k f s else s

/-- A part of a window write takes effect, with the twin that NODE_BANK named as the write arrived (R78) and the selectors in
effect for the write (R65, R66). -/
def applyPart (k : Nat) (named : TwinId) (banks : Nat × Nat) (c : WinCmd) (s : Block) : Block :=
  match c with
  | .node off data => nodePart k banks.1 off data s
  | .edge off data => edgePart k banks.2 off data s
  | .reserved => s
  | .nodeBank v => select k (fun c => { c with nodeBank := v % 1024 }) s
  | .edgeBank v => select k (fun c => { c with edgeBank := v % 2048 }) s
  | .rearm => rearmAll k s
  | .mirrorClose => mirrorClose k named s
  | .release => releaseAll k s
  | .mark v => upCtx k (fun c => { c with mark := v % 2 ^ 32 }) s
  | .partial_ off => refuse (nodeTwin banks) k 0x23 0 off s

/-- A part that is applied as a node or edge part or as a whole command: what makes its write one that took effect. -/
def counts : WinCmd → Bool
  | .reserved => false
  | .partial_ _ => false
  | _ => true

/-- The parts of a write take effect in order, until one must wait (R67, R68, R72). `counted` says that the write has been
counted. The answer holds the parts left. -/
def runParts (k : Nat) (named : TwinId) (banks : Nat × Nat) : Bool → List WinCmd → Block → List WinCmd × Block
  | _, [], s => ([], s)
  | counted, c :: cs, s =>
    if mustPark s k banks c then (c :: cs, s)
    else if c = .reserved then runParts k named banks counted cs (discardIn named s)
    else
      let s1 := if counts c && !counted then countWrite (partTwin banks c) s else s
      runParts k named banks (counted || counts c) cs (applyPart k named banks c s1)

/-- The park buffer of a twin holds its 1,024 writes (R72). -/
def parkFull (s : Block) (t : TwinId) : Bool :=
  decide (1024 ≤ s.ctxs.foldl (fun n p => n + (p.2.parked.filter fun w => w.buffer == t).length) 0)

/-- What is left of a write waits in the buffer of the twin that its next part addresses, or in its own while that one is
full (R72; log entry 68). -/
def roomFor (s : Block) (old next : TwinId) : TwinId := if parkFull s next then old else next

/-- The window takes a write whose turn has come (R65, R71); of one with a part applied, as long as the context is OPEN
(R303). -/
def takesTurn (s : Block) (k : Nat) (w : ParkedWrite) : Bool :=
  if w.banks.isNone then windowOpen s k else (ctxOf s k).st == .opened

/-- A write whose turn has come: discarded, and counted unless its bytes of the reserved area were (R65), or its parts are run.
The answer is what is left of it. -/
def takeTurn (k : Nat) (w : ParkedWrite) (s : Block) : Option ParkedWrite × Block :=
  if !(takesTurn s k w) then (none, if w.discarded then s else discardIn w.named s)
  else
    let banks := w.banks.getD (selectors s k)
    match runParts k w.named banks w.banks.isSome w.parts s with
    | ([], s1) => (none, s1)
    | (c :: cs, s1) =>
      let begun := w.banks.isSome || decide (cs.length + 1 < w.parts.length)
      (some { w with
          buffer := roomFor s1 w.buffer (partTwin banks c), parts := c :: cs, banks := if begun then some banks else none,
          discarded := w.discarded || (w.parts.contains .reserved && !((c :: cs).contains .reserved)) }, s1)

/-- A served window write: parked behind an earlier write, or taken at once, with what must wait of it parked (R67, R72). -/
def takeWin (k : Nat) (parts : List WinCmd) (s : Block) : Block :=
  let w : ParkedWrite := { named := nodeTwin (selectors s k), parts := parts }
  let park (w : ParkedWrite) (s : Block) : Block := upCtx k (fun x => { x with parked := x.parked ++ [w] }) s
  if !(windowOpen s k) then discardIn w.named s
  else if !(ctxOf s k).parked.isEmpty then
    park { w with buffer := partTwin (selectors s k) (parts.headD .reserved) } s
  else match takeTurn k w s with
    | (none, s1) => s1
    | (some w1, s1) => park w1 s1

/-! ### Writes as parts (R65 to R68) -/

/-- The command at an aligned offset of the command area (R66); none away from the commands. -/
def commandAt (off v : Nat) : Option WinCmd :=
  match off with
  | 0xF000 => some (.nodeBank v)
  | 0xF008 => some (.edgeBank v)
  | 0xF010 => some .rearm
  | 0xF018 => some .mirrorClose
  | 0xF020 => some .release
  | 0xF028 => some (.mark v)
  | _ => none

/-- What the bytes of a write are to the command word at an offset (R66, R68). -/
def commandPart (off : Nat) (data : List Byte) (at_ : Nat) : Option WinCmd :=
  match cover off data.length at_ 8 with
  | .none => none
  | .part => (commandAt at_ 0).map fun _ => .partial_ at_
  | .whole => commandAt at_ (wordAt off data at_ 8)

/-- The bytes of a write that lie in [lo, hi), with their offset. -/
def clip (lo hi off : Nat) (data : List Byte) : Nat × List Byte :=
  (max lo off, (data.drop (lo - off)).take (hi - max lo off))

/-- A write as its parts, in ascending offset order (R67): the bytes of each area, and the words of the command area. -/
def winParts (off : Nat) (data : List Byte) : List WinCmd :=
  let n := clip 0 0x8000 off data
  let e := clip 0x8000 0xC000 off data
  let r := clip 0xC000 0xF000 off data
  (if n.2.isEmpty then [] else [.node n.1 n.2]) ++ (if e.2.isEmpty then [] else [.edge e.1 e.2])
    ++ (if r.2.isEmpty then [] else [.reserved])
    ++ ((List.range 6).filterMap fun i => commandPart off data (0xF000 + 8 * i))

/-- A window write by its requester (R285, R287): served to the manager, the owner and the Archivist, and to task code of
the window's own context; a host function with no right to it is denied, any other engine write discarded. -/
def winAccess (src : Requester) (k : Nat) (f : Block → Block) (s : Block) : Block :=
  if held s src then s
  else
    match src with
    | .task tag => if tag.toNat = k then f s else discardWrite k s
    | .untagged => discardWrite k s
    | _ => match gradeOf s src (some k) with
      | .denied => denyOf src s
      | _ => f s

/-- A window write reaches the port: held while a park buffer is full, whatever its context, and behind the writes that are
held already (R72), or taken. DESIGN CHOICE (log entry 96): a write to a refused window is held with the others, by R72, although
R71 says that such writes are never back-pressured. -/
def windowTake (src : Requester) (k : Nat) (parts : List WinCmd) (s : Block) : Block :=
  if !(held s src) && (!s.heldWrites.isEmpty || parkFull s .t0 || parkFull s .t1) then
    { s with heldWrites := s.heldWrites ++ [{ src := src, ctx := k, parts := parts }] }
  else winAccess src k (takeWin k parts) s

/-- A write of bytes at an offset of a window; bytes past the window's end reach nothing. -/
def windowBytes (src : Requester) (k off : Nat) (data : List Byte) (s : Block) : Block :=
  windowTake src k (winParts off data) s

/-- A row of the command area: the whole command, or its word covered in part (R66, R68). -/
def windowCmd (src : Requester) (k off : Nat) (whole : Bool) (c : WinCmd) (s : Block) : Block :=
  windowTake src k [if whole then c else .partial_ off] s

/-- PARKED_WRITE: the first parked write of a window takes effect once its cause has cleared (R72); writes held for want of
room are offered again. -/
def parkedWrite (k : Nat) (s : Block) : Block :=
  match (ctxOf s k).parked with
  | [] => s
  | w :: rest =>
    let s1 := upCtx k (fun c => { c with parked := rest }) s
    match takeTurn k w s1 with
    | (none, s2) => offerHeld s2
    | (some w1, s2) => offerHeld (upCtx k (fun c => { c with parked := w1 :: c.parked }) s2)

/-- SWEEP_END: a REARM or RELEASE sweep has ended in a twin (R80, R83); REARM takes the WRAPPED tallies of the context
to ARMED at the next tick (R238), and raises REARM_BUSY where it met a node it left. -/
def sweepEnd (t : TwinId) (k : Nat) (s : Block) : Block :=
  let c := ctxTw s t k
  if c.sweep = .none then s
  else
    let s1 := bump (twKey t accP) 0x78 1 (upCtxTw t k (fun c => { c with sweep := .none, sweepBusy := false }) s)
    if c.sweep = .release then s1
    else
      let s2 := upBank t (fun b => { b with rearmed := b.rearmed ++ [k] }) s1
      if c.sweepBusy then refuse t k 0x27 0 0xF010 s2 else s2

end Sys2Proof.Machine
end

