-- ==== Sys2Proof/Machine/Threads.lean ====
section
/-! DEFINITION. The Thread Desk and the thread arbiter (12 R310 to R332). -/

namespace Sys2Proof.Machine

/-! ### Parts of the state (R310, R331) -/

/-- The home twin of a thread: bit 11 of its index (R310). -/
def threadTwin (x : Nat) : TwinId := twinOf (x >>> 11)

/-- The pair-wide index of an entry of a twin. -/
def threadId (t : TwinId) (e : Nat) : Nat := twinNum t * 2048 + e % 2048

def threadOf (s : Block) (x : Nat) : Thread := mapGet {} (tw s (threadTwin x)).thrd.ents (x % 2048)

def upThrd (t : TwinId) (f : ThreadDesk → ThreadDesk) (s : Block) : Block := upTw t (fun w => { w with thrd := f w.thrd }) s

def upThread (x : Nat) (f : Thread → Thread) (s : Block) : Block :=
  upThrd (threadTwin x) (fun d => { d with ents := mapSet {} d.ents (x % 2048) (f (mapGet {} d.ents (x % 2048))) }) s

def coreOf (s : Block) (c : Nat) : Core := mapGet {} s.arb.cores c

def upCore (c : Nat) (f : Core → Core) (s : Block) : Block :=
  { s with arb := { s.arb with cores := mapSet {} s.arb.cores c (f (coreOf s c)) } }

/-- The core on which the arbiter's record shows a thread. -/
def runsOn (s : Block) (x : Nat) : Option Nat := (s.arb.cores.find? fun p => p.2.running == some x).map (·.1)

/-- The Thread Desk of the twin is asked by the arbiter (R326, R366, R393). -/
def deskAsked (s : Block) (t : TwinId) : Bool := (tw s t).svc == .inService && !(tw s t).halted

/-- LAST_ERR of the page of the twin that homes a thread (R332). -/
def threadErr (x core code ctx : Nat) (s : Block) : Block :=
  upThrd (threadTwin x) (fun d => { d with
    lastErr := 2 ^ 63 + (code % 256) * 2 ^ 48 + (ctx % 256) * 2 ^ 40 + (core % 8) * 2 ^ 32 + x % 4096 }) s

/-- An error bit of the THRD page, which LAST_ERR records too. -/
def threadErrBit (x core bit ctx : Nat) (s : Block) : Block :=
  threadErr x core bit ctx (setErr (twKey (threadTwin x) thrdP) bit s)

/-! ### States of a thread (R312, R322, R323) -/

/-- A thread leaves the ready lists, the delay list and its reservation. -/
def threadUnlink (x : Nat) (s : Block) : Block :=
  let e := x % 2048
  upThrd (threadTwin x) (fun d => { d with
    ready := d.ready.erase e
    delays := d.delays.erase e
    reserved := d.reserved.filter (fun p => p.1 != e) }) s

/-- A thread turns READY at the tail of its level, or at the head with READY_TIME kept (R312, R317). -/
def threadReady (x : Nat) (atHead : Bool) (time : Nat) (s : Block) : Block :=
  let e := x % 2048
  let s1 := upThread x (fun h => { h with
    st := .ready, due := 0, readyAt := if atHead then h.readyAt else time }) (threadUnlink x s)
  upThrd (threadTwin x) (fun d => { d with ready := if atHead then e :: d.ready else d.ready ++ [e] }) s1

/-- The place of a thread in the delay list: by DUE, then by order of insertion (R323). -/
def delayInsert (s : Block) (t : TwinId) (e due : Nat) : List Nat → List Nat
  | [] => [e]
  | a :: l => if due < (mapGet {} (tw s t).thrd.ents a).due then e :: a :: l else a :: delayInsert s t e due l

/-- A thread waits or is delayed until a delay tick; DUE 0 is no timeout (R312, R323). -/
def threadSleep (x : Nat) (st : ThreadState) (due : Nat) (s : Block) : Block :=
  let t := threadTwin x
  let s1 := upThread x (fun h => { h with st := st, due := due, left := 0 }) (threadUnlink x s)
  if due = 0 then s1
  else upThrd t (fun d => { d with delays := delayInsert s1 t (x % 2048) due d.delays }) s1

/-- The number of a delay tick (R323). -/
def delayNow (s : Block) : Nat := s.time / 50000

/-- The effect of an allowed wake by the thread's state (R322). -/
def wakeThread (x : Nat) (s : Block) : Block :=
  let t := threadTwin x
  let h := threadOf s x
  match h.st with
  | .free => s
  | .faulted => s
  | _ =>
    if h.wakePend then bump (twKey t thrdP) 0x60 1 s
    else
      let s1 := bump (twKey t thrdP) 0x58 1 s
      if h.st = .waiting then threadReady x false s.time s1 else upThread x (fun h => { h with wakePend := true }) s1

/-- The wakes of a thread in one desk cycle are combined into one, and the others are overruns, which a FREE or FAULTED thread counts
none of (R322, R323). -/
def wakeThreads (x n : Nat) (s : Block) : Block :=
  let s1 := wakeThread x s
  if n ≤ 1 ∨ (threadOf s x).st = .free ∨ (threadOf s x).st = .faulted then s1
  else bump (twKey (threadTwin x) thrdP) 0x60 (n - 1) s1

/-- A wake that is refused (R322). -/
def refuseWake (x : Nat) (w : WakeSrc) (s : Block) : Block :=
  bump (twKey (threadTwin x) thrdP) 0x68 1
    (threadErrBit x w.core 2 (if w.ctxV then w.ctx else 0) s)

/-- The Desk lets a wake through (R313, R324). -/
def mayWake (s : Block) (x : Nat) (w : WakeSrc) : Bool :=
  let h := threadOf s x
  w.free || (w.ctxV && h.ctxV && h.ctx == w.ctx)

/-- The wakes of a thread that reach its home Desk in one desk cycle: each is tested, and those let through are applied as one
(R313, R322 to R324). -/
def wakesAt (x : Nat) (ws : List WakeSrc) (s : Block) : Block :=
  let ok := ws.filter (mayWake s x)
  forEach (ws.filter fun w => !(mayWake s x w)) (refuseWake x)
    (if ok.isEmpty then s else wakeThreads x ok.length s)

/-! ### Choosing (R317) -/

/-- A READY thread that may be offered, and its level and READY_TIME: not reserved, in a twin whose threads may be
granted (R317, R329). -/
def offerable (s : Block) (t : TwinId) : List Nat :=
  if bitOf (reg s (twKey t thrdP) 0x100) 63 then
    (tw s t).thrd.ready.filter fun e => !((tw s t).thrd.reserved.any fun p => p.1 == e)
  else []

/-- The head of the list of an affinity class at a level. -/
def listHead (s : Block) (t : TwinId) (cls level : Nat) : Option Nat :=
  (offerable s t).find? fun e =>
    (mapGet {} (tw s t).thrd.ents e).aff == cls && (mapGet {} (tw s t).thrd.ents e).level == level

/-- The best READY level of a class plus one; 0 for none (R317). -/
def bestLevel (s : Block) (t : TwinId) (cls : Nat) : Nat :=
  (offerable s t).foldl (fun a e =>
    let h := mapGet {} (tw s t).thrd.ents e
    if h.aff = cls then max a (h.level + 1) else a) 0

/-- The thread a Desk chooses for a core: the highest level, then the earlier READY_TIME, then the core's own list
(R317). -/
def chooseFor (s : Block) (t : TwinId) (c : Nat) : Option ThreadOffer :=
  let lv := max (bestLevel s t c) (bestLevel s t 8)
  if lv = 0 then none
  else
    let offer (e : Nat) : ThreadOffer :=
      { thread := threadId t e, level := lv - 1, readyAt := (mapGet {} (tw s t).thrd.ents e).readyAt }
    match listHead s t c (lv - 1), listHead s t 8 (lv - 1) with
    | some a, some b => if (offer b).readyAt < (offer a).readyAt then some (offer b) else some (offer a)
    | some a, none => some (offer a)
    | none, some b => some (offer b)
    | none, none => none

/-- The Desk reserves the thread of an offer for a core and sends the offer (R317, R318). -/
def sendOffer (t : TwinId) (c : Nat) (o : ThreadOffer) (s : Block) : Block :=
  upThrd t (fun d => { d with
    reserved := d.reserved ++ [(o.thread % 2048, c)],
    asks := d.asks.filter (· != c),
    arbIn := d.arbIn ++ [.offer c o] }) s

/-- A Desk offers its READY threads at once, unasked, to the lowest-numbered core that holds an eligible ask (R318). -/
def offerUnasked (t : TwinId) : List Nat → Block → Block
  | [], s => s
  | c :: cs, s =>
    if (tw s t).thrd.asks.contains c then
      match chooseFor s t c with
      | some o => offerUnasked t cs (sendOffer t c o s)
      | none => offerUnasked t cs s
    else offerUnasked t cs s

/-- What a Desk does after any change of its READY threads. -/
def deskSettle (t : TwinId) (s : Block) : Block := if deskAsked s t then offerUnasked t (List.range 8) s else s

/-! ### The arbiter (R314, R318) -/

/-- The ask of a core goes to every Desk in service (R318, R326). -/
def sendAsks (c : Nat) (s : Block) : Block :=
  let one (t : TwinId) (s : Block) : Block :=
    if deskAsked s t then upThrd t (fun d => { d with deskIn := d.deskIn ++ [.ask c] }) s else s
  let r (t : TwinId) : Reply := if deskAsked s t then .awaited else .none
  one .t1 (one .t0 (upCore c (fun k => { k with
    asking := true, reply0 := r .t0, reply1 := r .t1, window := false }) s))

def replyOf (k : Core) : TwinId → Reply
  | .t0 => k.reply0
  | .t1 => k.reply1

def setReply (t : TwinId) (r : Reply) (k : Core) : Core :=
  match t with
  | .t0 => { k with reply0 := r }
  | .t1 => { k with reply1 := r }

/-- The word of a grant (R314): the action, SCRUB, core, thread, context and save area. -/
def threadGrantWord (s : Block) (c x : Nat) : Nat :=
  let h := threadOf s x
  let k := coreOf s c
  let scrub := !k.given || k.lastV != h.ctxV || (h.ctxV && k.lastCtx != h.ctx)
  let action := if h.priv && h.saved then 1 else 0
  let save := fld (reg s (twKey (threadTwin x) thrdP) 0x100) 47 12 + x % 2048
  2 ^ 63 + action * 2 ^ 61 + b2n scrub * 2 ^ 60 + (c % 8) * 2 ^ 57 + (x % 4096) * 2 ^ 45 + (h.ctx % 256) * 2 ^ 37
    + b2n h.ctxV * 2 ^ 36 + save % 2 ^ 36

/-- The trace record of a grant or a pre-emption of a thread (R387). -/
def threadTrace (x c code : Nat) (s : Block) : Block :=
  let h := threadOf s x
  trace (threadTwin x) 0x09 (if h.ctxV then some h.ctx else none) x (code * 2 ^ 18 + c % 8) 0 0 s

/-- A Desk is told that its offer is not taken (R318). -/
def sendRelease (c : Nat) (o : ThreadOffer) (s : Block) : Block :=
  upThrd (threadTwin o.thread) (fun d => { d with deskIn := d.deskIn ++ [.release c o.thread] }) s

/-- The offers that the arbiter has recorded for a core's ask. -/
def offersOf (k : Core) : List ThreadOffer :=
  [k.reply0, k.reply1].filterMap fun r => match r with
    | .offered o => some o
    | _ => none

/-- No Desk holds the core's ask any longer. -/
def askServed (c : Nat) (s : Block) : Block :=
  let one (t : TwinId) (s : Block) : Block := upThrd t (fun d => { d with asks := d.asks.filter (· != c) }) s
  one .t1 (one .t0 s)

/-- A core leaves service: its ask is over, and what was offered for it is released (R318, R331). -/
def coreOut (c : Nat) (s : Block) : Block :=
  let s1 := askServed c (forEach (offersOf (coreOf s c)) (sendRelease c) s)
  upCore c (fun k => { k with inService := false, asking := false, reply0 := .idle, reply1 := .idle, window := false }) s1

/-- TAKE to the winner, RELEASE of another offer, and the grant to the core (R318). -/
def grantThread (c : Nat) (o : ThreadOffer) (loser : Option ThreadOffer) (s : Block) : Block :=
  let x := o.thread
  let t := threadTwin x
  let h := threadOf s x
  let s1 := emit (.threadWord (threadGrantWord s c x)) (threadTrace x c 0 (bump (twKey t thrdP) 0x40 1 s))
  let s2 := upCore c (fun k => { k with
    running := some x, asking := false, expired := false, given := true, lastV := h.ctxV, lastCtx := h.ctx,
    runLevel := h.level, reply0 := .idle, reply1 := .idle, window := false }) s1
  let s3 := upThrd t (fun d => { d with deskIn := d.deskIn ++ [.take c x] }) (askServed c s2)
  match loser with
  | some p => sendRelease c p s3
  | none => s3

/-- The better of two offers: higher level, then earlier READY_TIME, then Twin 0's (R318). -/
def better (a b : ThreadOffer) : Bool :=
  if a.level = b.level then decide (a.readyAt ≤ b.readyAt) else decide (b.level < a.level)

/-- The other Desk's summary shows a READY thread that the core may run at a level or higher. -/
def rivalShown (s : Block) (t : TwinId) (c level : Nat) : Bool :=
  let m := match t with
    | .t0 => s.arb.sum0
    | .t1 => s.arb.sum1
  decide (mapGet 0 m c > level) || decide (mapGet 0 m 8 > level)

/-- An unasked offer waits for the other Desk's: its summary shows a thread that the core may run at that level or higher
(R318). -/
def awaitsRival (s : Block) (t : TwinId) (c : Nat) (o : ThreadOffer) : Bool :=
  !o.asked && deskAsked s t && rivalShown s t c o.level

/-- The arbiter decides an ask as far as its offers allow (R318): with both answers in, at once; with one unasked offer,
at once unless the other Desk's summary shows a rival, and otherwise when the window ends. -/
def decideAsk (c : Nat) (windowOver : Bool) (s : Block) : Block :=
  let k := coreOf s c
  if !k.asking || !k.inService then s
  else
    match k.reply0, k.reply1 with
    | .offered a, .offered b => if better a b then grantThread c a (some b) s else grantThread c b (some a) s
    | .offered a, .none =>
      if k.window && !windowOver then s
      else if !windowOver && awaitsRival s .t1 c a then upCore c (fun k => { k with window := true }) s
      else grantThread c a none s
    | .none, .offered b =>
      if k.window && !windowOver then s
      else if !windowOver && awaitsRival s .t0 c b then upCore c (fun k => { k with window := true }) s
      else grantThread c b none s
    | _, _ => s

/-! ### Pre-emption (R320, R327) -/

/-- Which of two reasons of a PREEMPT decides what becomes of the report (R326, R327, R331). A removal that meets a PREEMPT outstanding
leaves it the pre-emption it is, so that PREEMPTED goes to the end of its level that R312 gives it. -/
def preemptRank : PreemptWhy → Nat
  | .level => 0
  | .slice => 0
  | .remove => 0
  | .poison => 1
  | .destroy => 2
  | .lostTwin => 3

/-- A PREEMPT is driven to a core for the thread it runs; one outstanding takes on a stronger reason. -/
def drivePreempt (c : Nat) (why : PreemptWhy) (s : Block) : Block :=
  let k := coreOf s c
  match k.running, k.preempt with
  | some x, none =>
    let h := threadOf s x
    let off := match why with
      | .level => some 0x48
      | .slice => some 0x50
      | _ => none
    let s1 := match off with
      | some o => threadTrace x c (if why = .slice then 2 else 1) (bump (twKey (threadTwin x) thrdP) o 1 s)
      | none => s
    emit (.threadWord (2 ^ 63 + 2 * 2 ^ 61 + (c % 8) * 2 ^ 57 + (x % 4096) * 2 ^ 45 + (h.ctx % 256) * 2 ^ 37
        + b2n h.ctxV * 2 ^ 36
        + (fld (reg s (twKey (threadTwin x) thrdP) 0x100) 47 12 + x % 2048) % 2 ^ 36))
      (upCore c (fun k => { k with preempt := some (x, why) }) s1)
  | some x, some (y, w) =>
    if x = y ∧ preemptRank w < preemptRank why then upCore c (fun k => { k with preempt := some (y, why) }) s else s
  | _, _ => s

/-- The cores of an affinity class that are in service. -/
def classCores (s : Block) (cls : Nat) : List Nat :=
  (List.range 8).filter fun c => (coreOf s c).inService && (cls == 8 || cls == c)

/-- The core to pre-empt for a READY thread of level b in a class: none while an eligible core holds an ask or has a
PREEMPT outstanding; else the lowest running level below b, or at b with its slice expired; ties to the lowest number
(R320). -/
def victimCore (s : Block) (cls b : Nat) : Option Nat :=
  let cs := classCores s cls
  if cs.any fun c => (coreOf s c).asking || (coreOf s c).preempt.isSome then none
  else
    let elig := cs.filter fun c =>
      let k := coreOf s c
      k.running.isSome && (decide (k.runLevel < b) || (k.runLevel == b && k.expired))
    elig.foldl (fun best c => match best with
      | none => some c
      | some d => if (coreOf s c).runLevel < (coreOf s d).runLevel then some c else some d) none

/-- The pre-emption test of every class against the summaries the arbiter holds (R320). -/
def preemptAll (s : Block) : Block :=
  forEach (List.range 9) (fun cls s =>
    let b := max (mapGet 0 s.arb.sum0 cls) (mapGet 0 s.arb.sum1 cls)
    if b = 0 then s
    else match victimCore s cls (b - 1) with
      | some c => drivePreempt c (if (coreOf s c).runLevel = b - 1 then .slice else .level) s
      | none => s) s

/-! ### Reports and asks (R312, R313, R321) -/

/-- The outcome of a report (R313). -/
inductive ThreadOutcome where
  | yield | wait (arg : Nat) | delay (arg : Nat) | preempted | exit | fault
  deriving DecidableEq, Repr

/-- A Desk withdraws the offer of a thread that it has reserved: the ask of the core is held there, and decided without it.
DEDUCED (log entry 83). -/
def withdrawOffer (x : Nat) (s : Block) : Block :=
  let t := threadTwin x
  let cs := ((tw s t).thrd.reserved.filter fun p => p.1 == x % 2048).map (·.2)
  let s1 := threadUnlink x s
  forEach cs (fun c s =>
    if (offersOf (coreOf s c)).any fun o => o.thread == x then
      decideAsk c false (upCore c (setReply t .none)
        (upThrd t (fun d => { d with asks := (d.asks.filter (· != c)) ++ [c] }) s))
    else s) s1

/-- The thread goes to FAULTED (R312, R328, R332). -/
def threadFault (x core code : Nat) (s : Block) : Block :=
  bump (twKey (threadTwin x) thrdP) 0x78 1
    (threadErr x core code 0 (upThread x (fun h => { h with st := .faulted, left := 0, due := 0 }) (withdrawOffer x s)))

/-- The thread's entry goes to FREE (R312). -/
def threadFree (x : Nat) (s : Block) : Block :=
  upThrd (threadTwin x) (fun d => { d with
    destroy := if d.destroy = some x then none else d.destroy })
    (upThread x (fun _ => {}) (withdrawOffer x s))

/-- The state of the thread after its report (R312). -/
def applyOutcome (x core : Nat) (o : ThreadOutcome) (why : Option PreemptWhy) (s : Block) : Block :=
  let sv := upThread x (fun h => { h with saved := true, left := 0 }) s
  match o with
  | .yield => threadReady x false s.time sv
  | .wait arg =>
    if (threadOf s x).wakePend then threadReady x false s.time (upThread x (fun h => { h with wakePend := false }) sv)
    else threadSleep x .waiting (if arg = 0 then 0 else delayNow s + arg) sv
  | .delay arg => if arg = 0 then threadReady x false s.time sv else threadSleep x .delayed (delayNow s + arg) sv
  | .preempted => threadReady x (why = some .level || why = some .remove) s.time sv
  | .exit => threadSleep x .waiting 0 (upThread x (fun h => { h with saved := false, left := 0 }) s)
  | .fault => threadFault x core 16 s

/-- The core no longer runs a thread; a removal in progress takes it out of service (R331). -/
def coreFreed (c : Nat) (s : Block) : Block :=
  let s1 := upCore c (fun k => { k with running := none, preempt := none, expired := false }) s
  if s1.arb.removing = some c then
    let s2 := coreOut c s1
    { s2 with arb := { s2.arb with removing := none } }
  else s1

/-- A report of the thread a core runs (R312, R313, R321, R326, R327): discarded for a destroyed thread or one lost with
its twin; PREEMPTED with no PREEMPT driven is YIELD with BAD_REPORT. -/
def reportThread (c x : Nat) (o : ThreadOutcome) (s : Block) : Block :=
  let k := coreOf s c
  let t := threadTwin x
  let why := match k.preempt with
    | some (y, w) => if y = x then some w else none
    | none => none
  let s1 := coreFreed c s
  match why with
  | some .lostTwin => s1
  | some .destroy => deskSettle t (threadFree x s1)
  | some .poison => deskSettle t (threadFault x c 13 s1)
  | _ =>
    if o = .preempted ∧ why = none then deskSettle t (applyOutcome x c .yield none (threadErrBit x c 1 0 s1))
    else deskSettle t (applyOutcome x c o why s1)

/-- An ASK word: preceded by an implied REPORT FAULT when the core holds a RUNNING thread (R313). DEDUCED (log entry 103): an ASK of a
core whose ask stands is that same ask, so the offers recorded for it stay (R318). -/
def askWord (c : Nat) (s : Block) : Block :=
  let s1 := match (coreOf s c).running with
    | some x => reportThread c x .fault (threadErrBit x c 1 0 s)
    | none => s
  if (coreOf s1 c).inService && !(coreOf s1 c).asking then sendAsks c s1 else s1

/-- A REPORT word: ignored with BAD_REPORT unless the named thread runs on the core; then its ASK bit, which beside an ignored
report is an ASK without one (R313). -/
def reportWord (c x : Nat) (asks : Bool) (o : ThreadOutcome) (s : Block) : Block :=
  let s1 := if (coreOf s c).running = some x then reportThread c x o s else threadErrBit x c 1 0 s
  if asks then askWord c s1 else s1

/-- A WAKE word (R313, R322): a word of the core's running thread; it goes to the target's home Desk. -/
def wakeWord (c x : Nat) (s : Block) : Block :=
  match (coreOf s c).running with
  | none => refuseWake x { core := c } s
  | some y =>
    let h := threadOf s y
    sendItem (threadTwin y) (threadTwin x) (.wake x { core := c, free := h.priv, ctxV := h.ctxV, ctx := h.ctx }) s

/-- A THREAD_WAKE node that turned READY issues its wake to the thread's home twin, and completes (R39, R324); one of a
fenced context no longer runs (R325). -/
def threadWakeReady (id : Nat) (s : Block) : Block :=
  let n := nodeOf s id
  let x := n.desc % 4096
  if !(unfenced s (homeOf id) n.ctx) then s
  else
  pushWork [.internalDone id]
    (sendItem (homeOf id) (threadTwin x) (.wake x { ctxV := true, ctx := n.ctx }) s)

/-- The wakes of a thread in one desk cycle are applied at its Desk, which then offers what turned READY. -/
def wakeItem (t : TwinId) (x : Nat) (ws : List WakeSrc) (s : Block) : Block := deskSettle t (wakesAt x ws s)

/-! ### Between the Desks and the arbiter (R318) -/

def takeDesk (t : TwinId) (p : DeskMsg → Bool) (s : Block) : Option (DeskMsg × Block) :=
  match (tw s t).thrd.deskIn with
  | m :: rest => if p m then some (m, upThrd t (fun d => { d with deskIn := rest }) s) else none
  | [] => none

def takeArb (t : TwinId) (p : ArbMsg → Bool) (s : Block) : Option (ArbMsg × Block) :=
  match (tw s t).thrd.arbIn with
  | m :: rest => if p m then some (m, upThrd t (fun d => { d with arbIn := rest }) s) else none
  | [] => none

/-- DESK_ASK: the ask reaches the Desk, which offers its choice or answers NONE (R317, R318). -/
def deskAsk (t : TwinId) (s : Block) : Block :=
  if !(deskAsked s t) then s
  else
    match takeDesk t (fun m => match m with
      | .ask _ => true
      | _ => false) s with
    | some (.ask c, s1) =>
      match chooseFor s1 t c with
      | some o => sendOffer t c { o with asked := true } s1
      | none => upThrd t (fun d => { d with
          asks := if d.asks.contains c then d.asks else d.asks ++ [c]
          arbIn := d.arbIn ++ [.none c] }) s1
    | _ => s

/-- THREAD_OFFER: an offer reaches the arbiter; one for a core that has been served, or for which the Desk's offer stands
already, is released (R318); of one that its Desk has withdrawn the arbiter hears NONE (log entry 83). -/
def threadOffer (t : TwinId) (s : Block) : Block :=
  match takeArb t (fun m => match m with
    | .offer _ _ => true
    | _ => false) s with
  | some (.offer c o, s1) =>
    let k := coreOf s1 c
    let valid := (tw s1 t).thrd.reserved.contains (o.thread % 2048, c)
    let stands := (offersOf k).any fun p => threadTwin p.thread == t
    if !valid then
      if k.asking && !stands then
        decideAsk c false (upCore c (setReply t .none)
          (upThrd t (fun d => { d with asks := (d.asks.filter (· != c)) ++ [c] }) s1))
      else s1
    else if k.asking && k.inService && !stands then decideAsk c false (upCore c (setReply t (.offered o)) s1)
    else sendRelease c o s1
  | _ => s

/-- NONE: a Desk has no thread for the ask; the ask is held when both Desks answer so (R318). -/
def noneAnswer (t : TwinId) (s : Block) : Block :=
  match takeArb t (fun m => match m with
    | .none _ => true
    | _ => false) s with
  | some (.none c, s1) =>
    let k := coreOf s1 c
    if k.asking && replyOf k t == .awaited then decideAsk c false (upCore c (setReply t .none) s1) else s1
  | _ => s

/-- TAKE: the thread goes to RUNNING with its slice (R312, R318). -/
def takeThread (t : TwinId) (s : Block) : Block :=
  if !(live s t) then s
  else
    match takeDesk t (fun m => match m with
      | .take _ _ => true
      | _ => false) s with
    | some (.take c x, s1) =>
      if (threadOf s1 x).st ≠ .ready ∨ (coreOf s1 c).running ≠ some x then s1
      else
        deskSettle t (upThread x (fun h => { h with st := .running, core := c, left := h.slice }) (threadUnlink x s1))
    | _ => s

/-- RELEASE: the thread is free to be offered again (R318). -/
def threadRelease (t : TwinId) (s : Block) : Block :=
  if !(live s t) then s
  else
    match takeDesk t (fun m => match m with
      | .release _ _ => true
      | _ => false) s with
    | some (.release c x, s1) =>
      deskSettle t (upThrd t (fun d => { d with
        reserved := d.reserved.filter (fun p => p != (x % 2048, c)) }) s1)
    | _ => s

/-- OFFER_WINDOW: the wait of 8 dc for the other Desk's offer is over (R318). -/
def offerWindow (c : Nat) (s : Block) : Block :=
  if (coreOf s c).window then decideAsk c true s else s

/-- THREAD_SUMMARY: the Desk's summary entries reach the arbiter, which may pre-empt (R317, R320). -/
def threadSummary (t : TwinId) (s : Block) : Block :=
  if !(deskAsked s t) then s
  else
    let m := (List.range 9).foldl (fun m cls => mapSet 0 m cls (bestLevel s t cls)) []
    preemptAll { s with arb := match t with
      | .t0 => { s.arb with sum0 := m }
      | .t1 => { s.arb with sum1 := m } }

/-- PREEMPT_LIMIT: no REPORT PREEMPTED has come in time; the core leaves service and the thread faults, or is freed or
lost as its PREEMPT was for (R320, R326, R327). -/
def preemptLimit (c : Nat) (s : Block) : Block :=
  match (coreOf s c).preempt with
  | none => s
  | some (x, why) =>
    let t := threadTwin x
    let s1 := threadErrBit x c 3 0 s
    let s2 := coreFreed c s1
    let s3 := coreOut c s2
    let s4 := match why with
      | .destroy => threadFree x s3
      | .lostTwin => s3
      | .poison => threadFault x c 13 s3
      | _ => threadFault x c 3 s3
    preemptAll (deskSettle t s4)

/-! ### Delay ticks (R321, R323) -/

/-- The slices of the twin's RUNNING threads at a delay tick, each as it was at the grant (R330); a spent slice marks the core
EXPIRED. -/
def sliceTick (t : TwinId) (s : Block) : Block :=
  forEach ((tw s t).thrd.ents.filter fun p => p.2.st == .running && p.2.left != 0) (fun p s =>
    let x := threadId t p.1
    let s1 := upThread x (fun h => { h with left := h.left - 1 }) s
    if p.2.left = 1 then (match runsOn s1 x with
      | some c => upCore c (fun k => { k with expired := true }) s1
      | none => s1)
    else s1) s

/-- The threads whose DUE has been reached turn READY, in list order, with the tick's time (R323). -/
def dueTick (t : TwinId) (s : Block) : Block :=
  let due := (tw s t).thrd.delays.filter fun e => decide ((mapGet {} (tw s t).thrd.ents e).due ≤ delayNow s)
  forEach due (fun e s =>
    bump (twKey t thrdP) 0x70 1 (threadReady (threadId t e) false (delayNow s * 50000) s)) s

/-- DELAY_TICK: a delay tick takes effect in every Desk that acts, and the arbiter tests its classes again. -/
def delayTick (s : Block) : Block :=
  let one (t : TwinId) (s : Block) : Block := if live s t then deskSettle t (dueTick t (sliceTick t s)) else s
  preemptAll (one .t1 (one .t0 s))

/-! ### Commands (R330, R331) -/

def thrdStat (t : TwinId) (st : Nat) (s : Block) : Block := upThrd t (fun d => { d with stat := st }) s

/-- A THRD.CMD is taken: no DESTROY is in progress and the Desk acts. -/
def thrdTakes (s : Block) (t : TwinId) : Bool := (tw s t).thrd.destroy.isNone && live s t

def threadSel (s : Block) (t : TwinId) : Nat := fld (reg s (twKey t thrdP) 0x110) 11 0

/-- The fields of DATA0 that software sets (R311, R330). -/
def dataThread (w : Nat) : Thread :=
  { priv := bitOf w 60, ctxV := bitOf w 59, level := fld w 56 51, aff := fld w 50 47, ctx := fld w 46 39,
    slice := fld w 35 24 }

def threadCreate (t : TwinId) (start : Bool) (s : Block) : Block :=
  let x := threadSel s t
  let d := dataThread (reg s (twKey t thrdP) 0x118)
  if !(thrdTakes s t) then s
  else if threadTwin x ≠ t then thrdStat t 1 s
  else if (threadOf s x).st ≠ .free then thrdStat t 2 s
  else if d.aff > 8 then thrdStat t 3 s
  else
    let s1 := thrdStat t 0 (upThread x (fun _ => { d with st := .waiting }) s)
    if start then deskSettle t (threadReady x false s.time s1) else s1

def threadDestroy (t : TwinId) (s : Block) : Block :=
  let x := threadSel s t
  if !(thrdTakes s t) then s
  else if threadTwin x ≠ t then thrdStat t 1 s
  else if (threadOf s x).st = .free then thrdStat t 4 s
  else
    match runsOn s x with
    | some c => drivePreempt c .destroy (upThrd t (fun d => { d with destroy := some x }) (thrdStat t 0 s))
    | none => thrdStat t 0 (threadFree x s)

def threadSet (t : TwinId) (s : Block) : Block :=
  let x := threadSel s t
  let d := dataThread (reg s (twKey t thrdP) 0x118)
  let h := threadOf s x
  if !(thrdTakes s t) then s
  else if threadTwin x ≠ t then thrdStat t 1 s
  else if h.st = .free then thrdStat t 4 s
  else if d.aff > 8 then thrdStat t 3 s
  else
    let s1 := thrdStat t 0 (upThread x (fun h => { h with level := d.level, aff := d.aff, slice := d.slice }) s)
    let s2 := match runsOn s1 x with
      | some c => upCore c (fun k => { k with runLevel := d.level }) s1
      | none => s1
    if h.st = .ready then
      deskSettle t (upThrd t (fun k => { k with ready := (k.ready.erase (x % 2048)) ++ [x % 2048] }) s2)
    else s2

def threadCmdWake (t : TwinId) (s : Block) : Block :=
  let x := threadSel s t
  if !(thrdTakes s t) then s
  else if threadTwin x ≠ t then thrdStat t 1 s
  else if (threadOf s x).st = .free then thrdStat t 4 s
  else deskSettle t (wakeThread x (thrdStat t 0 s))

def threadStCode : ThreadState → Nat
  | .free => 0
  | .waiting => 1
  | .delayed => 2
  | .ready => 3
  | .running => 4
  | .faulted => 5

/-- The words of a thread entry (R311). -/
def threadWords (h : Thread) : List Nat :=
  [threadStCode h.st * 2 ^ 61 + b2n h.priv * 2 ^ 60 + b2n h.ctxV * 2 ^ 59 + b2n h.saved * 2 ^ 58
     + b2n h.wakePend * 2 ^ 57 + h.level * 2 ^ 51 + h.aff * 2 ^ 47 + h.ctx * 2 ^ 39 + h.core * 2 ^ 36
     + h.slice * 2 ^ 24 + h.left * 2 ^ 12,
   h.due % 2 ^ 48, h.readyAt]

def threadQuery (t : TwinId) (s : Block) : Block :=
  let x := threadSel s t
  if !(thrdTakes s t) then s
  else if threadTwin x ≠ t then thrdStat t 1 s
  else
    let w := threadWords (threadOf s x)
    let key := twKey t thrdP
    thrdStat t 0 (setReg key 0x128 (w.getD 2 0) (setReg key 0x120 (w.getD 1 0) (setReg key 0x118 (w.getD 0 0) s)))

/-- THRD.CORE_CTL (R331): a REMOVE of a running core pre-empts its thread first. -/
def coreRemove (c : Nat) (s : Block) : Block :=
  if s.arb.removing.isSome then s
  else if (coreOf s c).running.isSome then
    drivePreempt c .remove { s with arb := { s.arb with removing := some c } }
  else coreOut c s

/-- RESTORE: the core is back in service, and its first grant carries SCRUB (R314); its record of the last thread given stays
(R331). -/
def coreRestore (c : Nat) (s : Block) : Block :=
  if s.arb.removing.isSome ∨ (coreOf s c).inService then s
  else upCore c (fun k => { inService := true, lastV := k.lastV, lastCtx := k.lastCtx }) s

/-! ### A lost twin (R326) -/

/-- The asks that are held go to a Desk that is asked again, after a rejoin, a halt or a detach given up, and it offers what
turned READY meanwhile (R318, R326). -/
def resendAsks (t : TwinId) (s : Block) : Block :=
  deskSettle t <| forEach (List.range 8) (fun c s =>
    let k := coreOf s c
    if deskAsked s t && k.asking && k.inService && replyOf k t == .none && !((tw s t).thrd.asks.contains c) then
      upThrd t (fun d => { d with deskIn := d.deskIn ++ [.ask c] }) (upCore c (setReply t .awaited) s)
    else s) s

/-- The arbiter's part when a twin is lost or detached: its answers count as NONE, every core that runs a thread homed there is
pre-empted, and the asks are decided among the rest. -/
def arbiterLose (t : TwinId) (s : Block) : Block :=
  let s1 := upThrd t (fun d => { d with deskIn := [], arbIn := [] }) s
  let s2 := { s1 with arb := match t with
    | .t0 => { s1.arb with sum0 := [] }
    | .t1 => { s1.arb with sum1 := [] } }
  forEach (List.range 8) (fun c s =>
    let k := coreOf s c
    let s' := match k.running with
      | some x => if threadTwin x = t then drivePreempt c .lostTwin s else s
      | none => s
    if k.asking then decideAsk c false (upCore c (setReply t .none) s') else s') s2

end Sys2Proof.Machine
end

