-- ==== Sys2Proof/Machine/Proofer.lean ====
section
/-! DEFINITION. The Proofer (13 R333 to R347): power domains, banks, the power cap, PMBus and AVSBus. -/

namespace Sys2Proof.Machine

def upProof (f : Proofer → Proofer) (s : Block) : Block := { s with proof := f s.proof }

/-- An event of the PWR page is counted at the next tally tick (R346, R377). -/
def countPwr (off n : Nat) (s : Block) : Block :=
  upProof (fun p => { p with events := mapSet 0 p.events off (mapGet 0 p.events off + n) }) s

/-- The events counted since the last tally tick reach the counters of the PWR page. -/
def pwrTick (s : Block) : Block :=
  forEach s.proof.events (fun p s => bump pwrKey p.1 p.2 s) (upProof (fun p => { p with events := [] }) s)

/-- The page PWR is enabled (R339). -/
def pwrEnabled (s : Block) : Bool := (pageOf s pwrKey).enable

/-- A domain has been started since the reset (R402). -/
def domBegun (s : Block) (d : Nat) : Bool := decide (d < 16 * s.proof.begun)

/-- The twin that drives the port of a domain (R336). -/
def driving (s : Block) (d : Nat) : TwinId := primary s d

/-! ### Holds of a port (R334, R336) -/

def setHold (g : Nat) (on : Bool) (s : Block) : Block := { s with holds := mapSet false s.holds (portOfGroup g) on }

/-- The grants that the partner gave forwarded claims of a port, and that its hold kept from being driven, are taken as if
they arrived now (R104, R334); a halted twin keeps them until it resumes (R393). -/
def driveKept (g : Nat) (s : Block) : Block :=
  let t := primary s g
  if (tw s t).halted then s
  else
  let mine (h : HeldGrant) : Bool := onPort (portOfGroup g) h.word.eng
  forEach ((tw s t).desk.heldGrants.filter mine) (fun h s => grantAt t h.word h.tag h.dd h.load s)
    (upTw t (fun w => { w with desk := { w.desk with heldGrants := w.desk.heldGrants.filter fun h => !(mine h) } }) s)

/-- The claims held for a port are treated as newly sampled once its hold is released. -/
def releaseHold (g : Nat) (s : Block) : Block :=
  let r := portEngines (portOfGroup g)
  let s1 := driveKept g (setHold g false s)
  forEach ((s1.engines.filter fun p => decide (r.1 ≤ p.1) && decide (p.1 < r.1 + r.2) && !p.2.claims.isEmpty).map (·.1))
    resample s1

/-- Every claim of the port is withdrawn without error, and counted (R336 step 4). -/
def withdrawClaims (d : Nat) (s : Block) : Block :=
  let r := portEngines (portOfGroup d)
  let es := s.engines.filter fun p => decide (r.1 ≤ p.1) && decide (p.1 < r.1 + r.2)
  let n := es.foldl (fun a p => a + p.2.claims.length) 0
  let s1 := forEach es (fun p s => upEng p.1 (fun e => { e with claims := [] }) s) s
  if n = 0 then s1 else countPwr 0x68 n s1

/-! ### Scratchpad banks (R334) -/

/-- The banks that the extent of a shard covers, as a mask (R124). -/
def extentMask (e : Shard) : Nat :=
  if bitOf e.w2 16 then
    (List.range 9).foldl (fun m b =>
      if fld e.w2 9 0 / 64 ≤ b ∧ b ≤ (fld e.w2 9 0 + fld e.w1 15 0 - 1) / 64 then m + 2 ^ b else m) 0
  else 0

def orMask (m : SMap Nat) (c v : Nat) : SMap Nat := mapSet 0 m c (mapGet 0 m c ||| v)

/-- The banks of each cluster that must be powered (R130, R334): the union of SPAD_BANKS over the contexts whose mask
includes the cluster, and the extents of the shards resident in it or moving to or from it. -/
def wantedBanks (s : Block) : SMap Nat :=
  let ctxs := (s.pages.filter fun p => decide (256 ≤ p.1)).foldl (fun m p =>
    let k := p.1 - 256
    let b := spadBanks s k
    if b = 0 then m
    else (List.range 128).foldl (fun m c => if inClusterMask s k c then orMask m c b else m) m) ([] : SMap Nat)
  let shards := (s.tw0.shelf.shards ++ s.tw1.shelf.shards).foldl (fun m p =>
    if p.2.st = .cluster then orMask m p.2.cluster (extentMask p.2) else m) ctxs
  (s.tw0.shelf.moves ++ s.tw1.shelf.moves).foldl (fun m v =>
    let x := extentMask (shardOf s v.want.shard)
    let m1 := if v.src < 128 then orMask m v.src x else m
    if v.want.dest < 128 then orMask m1 v.want.dest x else m1) shards

def bitList (n v : Nat) : List Nat := (List.range n).filter fun b => bitOf v b

/-- A bank of the cluster is being powered up, so its port's claims are held while it is in RUN (R334). -/
def bankRising (s : Block) (d : Nat) : Bool := decide (d < 128) && mapGet 0 s.proof.rising d != 0

/-- The port of a domain goes on, unless a bank that is being powered up holds it (R334, R336, R338). -/
def openPort (d : Nat) (s : Block) : Block := if bankRising s d then setHold d true s else releaseHold d s

/-- The banks of one cluster follow what must be powered; while a bank of a cluster in RUN is being powered up its port's
claims are held. -/
def bankTickAt (want : SMap Nat) (c : Nat) (s : Block) : Block :=
  let w := mapGet 0 want c
  let on := mapGet 0 s.proof.banks c
  let up := mapGet 0 s.proof.rising c
  let off := bitList 9 (on ||| up) |>.filter fun b => !(bitOf w b)
  let new := bitList 9 w |>.filter fun b => !(bitOf (on ||| up) b)
  let s1 := forEach off (fun b s => emit (.bankPower c b false) s) s
  let s2 := forEach new (fun b s => emit (.bankPower c b true) s) s1
  let up' := (up &&& w) ||| new.foldl (fun m b => m + 2 ^ b) 0
  let s3 := upProof (fun p => { p with banks := mapSet 0 p.banks c (on &&& w), rising := mapSet 0 p.rising c up' }) s2
  if (domOf s3 c).st ≠ .run then s3
  else if up' ≠ 0 ∨ portHeld s3 c = true then openPort c s3 else s3

def bankPowerTick (s : Block) : Block :=
  let want := wantedBanks s
  let cs := (List.range 128).filter fun c =>
    mapGet 0 want c != mapGet 0 s.proof.banks c || mapGet 0 s.proof.rising c != 0
  forEach cs (bankTickAt want) s

/-- BANK_POWER_GOOD: a newly powered bank reports; after the last one of a cluster in RUN the port's claims go on. -/
def bankPowerGood (c b : Nat) (s : Block) : Block :=
  let up := mapGet 0 s.proof.rising c
  if !(bitOf up b) then s
  else
    let s1 := upProof (fun p => { p with
      rising := mapSet 0 p.rising c (up - 2 ^ b), banks := orMask p.banks c (2 ^ b) }) s
    if (domOf s1 c).st = .run then openPort c s1 else s1

/-! ### Idle and reserved domains (R335) -/

/-- The first three tests of R335: the port's tasks, grants and forwarded claims; the rack group in the twins named; the
cluster's flush. -/
def quiet (s : Block) (d : Nat) (twins : List TwinId) : Bool :=
  let r := portEngines d
  !((s.engines.filter fun p => decide (r.1 ≤ p.1) && decide (p.1 < r.1 + r.2)).any fun p =>
      !p.2.tasks.isEmpty || p.2.claims.any fun c => c.fwd)
    && (twins.all fun t => groupCount s t d == 0)
    && !(decide (d < 128) && (flushOf s d).out)

/-- The domain lies in the partition of a context (R335). -/
def domHeldBy (s : Block) (k d : Nat) : Bool := if d < 128 then inClusterMask s k d else inMatrixMask s k (d - 128)

/-- The domain is reserved for the current or the next tick (R335): an OPEN LC context that holds it has a cap in its
Bake domain, loaded in either twin, or computed by a walk that has ended. -/
def reservedDom (s : Block) (d : Nat) : Bool :=
  let bd := domainOfGroup d
  s.ctxs.any fun p => p.2.st == .opened && bitOf (reg s (ctxKey p.1) 0x100) 0 && domHeldBy s p.1 d
    && ([TwinId.t0, TwinId.t1].any fun t =>
          mapGet 0 (ctxTw s t p.1).loaded bd != 0
          || (!(tw s t).bake.walking && mapGet 0 (tw s t).bake.caps (p.1 * 32 + bd) != 0))

/-- The racked tasks of a Bake domain, over its rack groups and both twins. -/
def bakeDomCount (s : Block) (bd : Nat) : Nat :=
  (s.tw0.rack.lanes ++ s.tw1.rack.lanes).foldl (fun a p =>
    if domainOfGroup (p.1 / 64) = bd then a + laneCount p.2 else a) 0

/-- The domain is idle (R335); one that a scrub addresses is kept in RUN (R338). -/
def domIdle (s : Block) (d : Nat) : Bool :=
  quiet s d [.t0, .t1] && !(scrubDom s d) && decide (bakeDomCount s (domainOfGroup d) ≤ fld (reg s pwrKey 0x118) 47 32)
    && !(reservedDom s d)

/-- A wake cause of R338 holds for the domain. -/
def wakeCause (s : Block) (d : Nat) : Bool :=
  let x := domOf s d
  x.accWake || scrubDom s d || decide (2 ≤ x.policy) || groupCount s .t0 d != 0 || groupCount s .t1 d != 0
    || reservedDom s d

/-! ### Starting and stopping (R336 to R338, R403) -/

/-- MHZ and MV of a step (R347). -/
def stepMhz (s : Block) (n : Nat) : Nat := fld (reg s pwrKey (0x140 + 8 * n)) 26 16
def stepMv (s : Block) (n : Nat) : Nat := fld (reg s pwrKey (0x140 + 8 * n)) 9 0

/-- The engines of a port enter service, once after a reset (R403). -/
def portService (p : Nat) (s : Block) : Block :=
  let x := domOf s p
  if x.portReady && !x.serviced then
    let r := portEngines p
    forEach ((List.range r.2).map fun i => r.1 + i) restoreEngine (upDom p (fun x => { x with serviced := true }) s)
  else s

/-- A domain goes to STARTING (R338). -/
def startDom (d : Nat) (gated : Bool) (s : Block) : Block :=
  let s1 := upDom d (fun x => { x with
      st := .starting, clkOk := false, fromGated := gated, accWake := false, msg := .none, obEmpty := false, idle := 0 })
    (countPwr (if gated then 0x60 else 0x50) 1 s)
  emit (.domClock d true) (if gated then emit (.domPower d true) s1 else s1)

/-- A domain is started by a wake cause; ACCESS_WAKES counts the starts that ACCESS_WAKE causes (R338, R346). -/
def wakeDom (d : Nat) (gated : Bool) (s : Block) : Block :=
  startDom d gated (if (domOf s d).accWake then countPwr 0x70 1 s else s)

/-- A domain is back in RUN: its port goes on (R336, R338). An access that waited for its clock is served (R338). -/
def toRun (d : Nat) (s : Block) : Block :=
  openPort d (upDom d (fun x => { x with
    st := .run, clkOk := false, msg := .none, obEmpty := false, accWake := false, idle := 0 }) s)

/-- A started domain is in RUN, and its engines enter service (R338, R403). -/
def domRun (d : Nat) (s : Block) : Block := portService d (toRun d s)

/-- The clock of a domain is stopped (R336 step 6). -/
def stopClock (d : Nat) (s : Block) : Block :=
  let s1 := withdrawClaims d s
  let s2 := upDom d (fun x => { x with st := .stopped, msg := .none, obEmpty := false, stretched := true, idle := 0 }) s1
  let s3 := if d < 128 then upFlush d (fun f => { f with dirty := false }) s2 else s2
  emit (.domClock d false) (countPwr 0x40 1 s3)

/-- A cluster whose outbound path is empty has its clock stopped, though not while a flush of it is outstanding (R156,
R336). -/
def tryStop (d : Nat) (s : Block) : Block :=
  if (domOf s d).msg = .draining ∧ (domOf s d).obEmpty = true ∧ (flushOf s d).out = false then stopClock d s else s

/-- What a tally tick does to one domain (R335, R338). -/
def domTick (d : Nat) (s : Block) : Block :=
  let x := domOf s d
  match x.st with
  | .run => if x.policy < 2 ∧ domIdle s d = true then upDom d (fun x => { x with idle := x.idle + 1 }) s
            else if x.idle = 0 then s else upDom d (fun x => { x with idle := 0 }) s
  | .starting => if x.clkOk then domRun d s else s
  | .stopped => if wakeCause s d then wakeDom d false s else s
  | .gated => if wakeCause s d then wakeDom d true s else s
  | .stopping => tryStop d s

def domainTick (s : Block) : Block := forEach (List.range (min 144 (16 * s.proof.begun))) domTick s

/-- IDLE_EXPIRY: a domain that has been idle for IDLE_US is set to STOPPING and HOLD is sent (R335, R336). -/
def idleExpiry (d : Nat) (s : Block) : Block :=
  let x := domOf s d
  if d < 144 ∧ domBegun s d = true ∧ pwrEnabled s = true ∧ x.st = .run ∧ x.policy < 2 ∧ domIdle s d = true then
    upDom d (fun x => { x with st := .stopping, msg := .hold }) s
  else s

/-- HOLD reaches the driving twin (R336 steps 2 to 4). -/
def holdAt (d : Nat) (s : Block) : Block :=
  let t := driving s d
  if (domOf s d).msg ≠ .hold ∨ live s t = false then s
  else if !(quiet s d [t]) || wakeCause s d then openPort d (upDom d (fun x => { x with msg := .abort }) s)
  else upDom d (fun x => { x with msg := .withdrawn }) (withdrawClaims d (setHold d true s))

/-- ABORT: the domain returns to RUN, where a PORT_READY that came meanwhile takes effect (R403). -/
def abortAt (d : Nat) (s : Block) : Block :=
  if (domOf s d).msg ≠ .abort then s
  else countPwr 0x48 1 (domRun d s)

/-- WITHDRAWN: a matrix group's clock is stopped; a cluster's waits for OB_EMPTY. -/
def withdrawnAt (d : Nat) (s : Block) : Block :=
  if (domOf s d).msg ≠ .withdrawn then s
  else if d < 128 then upDom d (fun x => { x with msg := .draining }) s
  else stopClock d s

/-- OB_EMPTY (R336 step 5). -/
def obEmpty (d : Nat) (s : Block) : Block :=
  if (domOf s d).msg = .draining then tryStop d (upDom d (fun x => { x with obEmpty := true }) s) else s

/-- STOP_TIMEOUT: OB_EMPTY has not come; the port's engines leave service and the domain returns to RUN (R336). -/
def stopTimeout (d : Nat) (s : Block) : Block :=
  if (domOf s d).msg ≠ .draining ∨ (domOf s d).obEmpty = true then s
  else
    let r := portEngines d
    toRun d (forEach ((List.range r.2).map fun i => r.1 + i) removeEngine (setErr pwrKey 5 s))

/-- A powered bank or an endpoint of an open Tube bars gating (R337). -/
def noGateHeld (s : Block) (d : Nat) : Bool :=
  decide (d < 128) && (mapGet 0 s.proof.banks d != 0 || mapGet 0 s.proof.rising d != 0 || tubeInCluster s d)

/-- GATE_EXPIRY: a domain that has been STOPPED for GATE_US and meets the conditions is gated (R337). -/
def gateExpiry (d : Nat) (s : Block) : Block :=
  let x := domOf s d
  if x.st = .stopped ∧ fld (reg s pwrKey 0x118) 31 16 ≠ 0 ∧ x.policy = 0 ∧ noGateHeld s d = false then
    emit (.domPower d false) (countPwr 0x58 1 (upDom d (fun x => { x with st := .gated }) s))
  else s

/-- ACCESS_WAKE: the interface of a stopped cluster has a waiting NoC access; one that arrives while the cluster stops starts
it again, and a cluster that runs or starts serves the access (R336, R338). -/
def accessWake (c : Nat) (s : Block) : Block :=
  match (domOf s c).st with
  | .run | .starting => s
  | .stopping | .stopped | .gated => upDom c (fun x => { x with accWake := true }) s

/-- CLK_OK: the domain is RUN from the next tally tick (R338). -/
def clkOk (d : Nat) (s : Block) : Block :=
  if (domOf s d).st = .starting then upDom d (fun x => { x with clkOk := true }) s else s

/-- CLU_CTL.POLICY of a domain, as written; 3 is taken as 2 wherever it is used; ALWAYS_ON is a wake cause (R338, R347). -/
def cluCtl (v : Nat) (s : Block) : Block :=
  let d := fld (reg s pwrKey 0x100) 7 0
  if d > 143 then s else upDom d (fun x => { x with policy := v % 4 }) s

/-- CLOCK_STRETCH (R344). -/
def clockStretch (d : Nat) (s : Block) : Block := if d > 143 then s else upDom d (fun x => { x with stretched := true }) s

/-! ### The step (R339, R340) -/

def engineRails : List Rail := [.engineA, .engineB, .matrix]

def sendRails (rs : List Rail) (mv : Nat) (s : Block) : Block := forEach rs (fun r s => emit (.avs r mv) s) s

/-- The clocks are switched to a step, and the voltages follow (R340). -/
def switchDown (target : Nat) (s : Block) : Block :=
  emit (.domFreq (stepMhz s target)) (upProof (fun p => { p with step := target, change := some { target := target } }) s)

/-- A change of step begins (R340): down, the clocks are switched first; up, the voltages are raised first. Where the step in
force is wanted, a downward change in progress ends as it would, and an upward one is undone (log entry 84). -/
def startChange (target : Nat) (s : Block) : Block :=
  let cur := s.proof.step
  if target < cur then switchDown target (countPwr 0x78 1 s)
  else if target = cur then (if s.proof.change.any (·.up) then switchDown cur s else s)
  else
    sendRails engineRails (stepMv s target)
      (upProof (fun p => { p with
        change := some { target := target, up := true, stage := .volts, rails := engineRails } }) s)

/-- The cap loop sets the step (R339). -/
def capOn (s : Block) : Bool := bitOf (reg s pwrKey 0x120) 63 && pwrEnabled s

/-- While the cap loop does not set it, the step is 7 (R339). -/
def stepTop (s : Block) : Block :=
  if capOn s || s.proof.change.isSome || s.proof.init != .done then s else startChange 7 s

/-- A PMBus transaction with the converter, at PMB_CFG.ADDR; with PMB_CFG.PEC it carries a packet error code (R341). -/
def pmbus (cmd : Nat) (s : Block) : Block :=
  let cfg := reg s pwrKey 0x130
  emit (.pmbus (fld cfg 6 0) cmd (bitOf cfg 17)) s

/-- CAP_PERIOD: a period of the cap loop begins, and its reading is started (R339, R341). -/
def capPeriod (s : Block) : Block :=
  let cfg := reg s pwrKey 0x130
  let s1 := upProof (fun p => { p with alerted := false, reading := p.reading || bitOf cfg 63 }) s
  stepTop (if bitOf cfg 63 then (if bitOf cfg 15 then pmbus 0x89 (pmbus 0x88 s1) else pmbus 0x97 s1) else s1)

/-- A LINEAR11 word in units of 2^−16 (R341): mantissa in [10:0], exponent in [15:11], both two's complement. -/
def linear11 (w : Nat) : Int :=
  let m : Int := if fld w 10 0 ≥ 1024 then (fld w 10 0 : Int) - 2048 else fld w 10 0
  let e := fld w 15 11
  m * 2 ^ (if e ≥ 16 then e - 16 else e + 16)

/-- P of a reading in units of 2^−32 W (R341): READ_PIN, or the product of READ_VIN and READ_IIN in PIN_MODE 1. -/
def powerOf (s : Block) (w1 w2 : Nat) : Int :=
  if bitOf (reg s pwrKey 0x130) 15 then linear11 w1 * linear11 w2 else linear11 w1 * 2 ^ 16

/-- CAP_STAT.PIN: P in units of 0.25 W, saturating (R347). The rounding of a part of a unit and a negative P are free
values (log entry 20). -/
def pinOf (p : Int) (w1 w2 : Nat) : Nat :=
  if p < 0 then (Config.freePinNegative (w1 * 65536 + w2)).toNat
  else
    let q := p.toNat / 2 ^ 30
    let r := p.toNat % 2 ^ 30
    min 65535 (if r = 0 then q else q + (Config.freePinRound (w1 * 65536 + w2)).toNat)

/-- The change of step that a reading gives (R339). -/
def capStep (s : Block) (p : Int) : Nat :=
  let cfg := reg s pwrKey 0x120
  let cap : Int := if fld cfg 11 0 = 0 then 4095 else fld cfg 11 0
  let hyst : Int := fld cfg 43 32
  if p > cap * 2 ^ 32 then s.proof.step - 1
  else if p < (cap - hyst) * 2 ^ 32 then min 7 (s.proof.step + 1)
  else s.proof.step

/-- PMBUS_READING: the period's reading has ended (R339, R341). -/
def pmbusReading (w1 w2 : Nat) (s : Block) : Block :=
  if !s.proof.reading then s
  else
    let p := powerOf s w1 w2
    let s1 := upProof (fun x => { x with reading := false, lost := 0, failsafe := false, pin := pinOf p w1 w2 }) s
    if capOn s1 && s1.proof.change.isNone then startChange (capStep s1 p) s1 else s1

/-- PMBUS_READING_LOST: a period with a lost reading; after three in a row the step goes to SAFE_STEP (R341). -/
def pmbusLost (s : Block) : Block :=
  if !s.proof.reading then s
  else
    let n := s.proof.lost + 1
    let s1 := countPwr 0x88 1 (upProof (fun p => { p with reading := false, lost := n }) s)
    if n ≠ 3 then s1
    else
      let s2 := setErr pwrKey 2 (upProof (fun p => { p with failsafe := true }) s1)
      if capOn s2 then startChange (fld (reg s2 pwrKey 0x120) 58 56) s2 else s2

/-- PMB_ALERT: STATUS_WORD has been read; with bit 13 or 14 set the step falls by 2 at once (R341). DESIGN CHOICE (log entry
85): a second PMB_ALERT of one period is the line that stays asserted, and is not read. -/
def pmbAlert (w : Nat) (s : Block) : Block :=
  if !(bitOf (reg s pwrKey 0x130) 63) || s.proof.alerted then s
  else
    let s1 := pmbus 0x79 (upProof (fun p => { p with alertWord := w % 65536, alerted := true }) s)
    pmbus 0x03 (if bitOf w 13 || bitOf w 14 then startChange (s1.proof.step - 2) (setErr pwrKey 3 s1) else s1)

/-! ### Rails (R340, R342, R402) -/

/-- The frequencies have been switched (R340). -/
def clockSwitched (s : Block) : Block :=
  match s.proof.change with
  | some c =>
    if c.stage ≠ .switching then s
    else if c.up then countPwr 0x80 1 (upProof (fun p => { p with step := c.target, change := none }) s)
    else sendRails engineRails (stepMv s c.target)
      (upProof (fun p => { p with change := some { c with stage := .volts, rails := engineRails } }) s)
  | none => s

/-- The rails of a change have all been answered. -/
def railsDone (c : StepChange) (s : Block) : Block :=
  if c.rails.isEmpty then
    upProof (fun p => { p with change := if c.up then some { c with stage := .settling } else none }) s
  else upProof (fun p => { p with change := some c }) s

/-- The voltage of a rail at initialisation (R342, R402). -/
def initMv (s : Block) : Rail → Nat
  | .cts => fld (reg s pwrKey 0x138) 9 0
  | .sram => fld (reg s pwrKey 0x138) 25 16
  | _ => stepMv s 7

/-- AVS_ACK (R340, R402). At initialisation the three engine rails are waited for. -/
def avsAck (r : Rail) (s : Block) : Block :=
  if s.proof.initRails.contains r then
    let rs := s.proof.initRails.erase r
    upProof (fun p => { p with
      initRails := rs,
      init := if p.init = .rails ∧ rs.any (fun x => engineRails.contains x) = false then .settling else p.init }) s
  else
    match s.proof.change with
    | some c => if c.stage = .volts then railsDone { c with rails := c.rails.erase r } s else s
    | none => s

/-- AVS_FAIL (R340): the command is sent once more; a second failure sets AVS_FAIL and abandons an upward change. -/
def avsFail (r : Rail) (s : Block) : Block :=
  if s.proof.initRails.contains r then
    if s.proof.initResent.contains r then setErr pwrKey 4 s
    else emit (.avs r (initMv s r)) (upProof (fun p => { p with initResent := r :: p.initResent }) s)
  else
    match s.proof.change with
    | some c =>
      if c.stage ≠ .volts ∨ c.rails.contains r = false then s
      else if !(c.resent.contains r) then
        emit (.avs r (stepMv s c.target)) (upProof (fun p => { p with change := some { c with resent := r :: c.resent } }) s)
      else if c.up then upProof (fun p => { p with change := none }) (setErr pwrKey 4 s)
      else railsDone { c with rails := c.rails.erase r } (setErr pwrKey 4 s)
    | none => s

/-- SETTLE_EXPIRY: SETTLE_US have passed since the rails acknowledged (R340, R402). -/
def settleExpiry (s : Block) : Block :=
  if s.proof.init = .settling then upProof (fun p => { p with init := .starting }) s
  else
    match s.proof.change with
    | some c =>
      if c.stage = .settling then
        emit (.domFreq (stepMhz s c.target)) (upProof (fun p => { p with change := some { c with stage := .switching } }) s)
      else s
    | none => s

/-- PWR.PAGE_CTRL.ENABLE takes a value (R339, R402): when it first becomes 1 after a reset, the rails are written. -/
def pwrEnable (v : Bool) (s : Block) : Block :=
  let s1 := upPage pwrKey (fun p => { p with enable := v }) s
  if v && s.proof.init == .idle then
    sendRails engineRails (initMv s1 .engineA)
      (emit (.avs .sram (initMv s1 .sram)) (emit (.avs .cts (initMv s1 .cts))
        (upProof (fun p => { p with init := .rails, initRails := [.cts, .sram] ++ engineRails, initResent := [] }) s1)))
  else if v then s1
  else stepTop s1

/-- DOMAIN_GROUP_START: the next 16 domains are started (R402). -/
def domainGroupStart (s : Block) : Block :=
  if s.proof.init ≠ .starting then s
  else
    let n := s.proof.begun
    let s1 := forEach (List.range 16) (fun i s =>
      startDom (16 * n + i) ((domOf s (16 * n + i)).st != .stopped) s) s
    upProof (fun p => { p with begun := n + 1, init := if n + 1 = 9 then .done else .starting }) s1

/-- PORT_READY (R403): a cluster or matrix-group port enters service once its domain is in RUN; a pool port at once. -/
def portReady (p : Nat) (s : Block) : Block :=
  let s1 := upDom p (fun x => { x with portReady := true }) s
  if 144 ≤ p then (if 7 ≤ s1.phase ∧ s1.phase ≤ 9 then portService p s1 else s1)
  else if domBegun s1 p && (domOf s1 p).st == .run then portService p s1
  else s1

/-! ### Gating the block (R345) -/

def anyRunning (s : Block) : Bool :=
  s.arb.cores.any (fun p => p.2.running.isSome)
    || (s.tw0.thrd.ents ++ s.tw1.thrd.ents).any fun p => p.2.st == .running

/-- The block gate takes a domain to STOPPED: its clock is stopped where it ran, and a GATED one has its power again
(R333, R344 to R346). -/
def gateDom (d : Nat) (s : Block) : Block :=
  let x := domOf s d
  let ran := x.st != .stopped && x.st != .gated
  let s1 := upDom d (fun x => { x with
    st := .stopped, msg := .none, idle := 0, clkOk := false, obEmpty := false, accWake := false,
    stretched := x.stretched || ran }) s
  if ran then emit (.domClock d false) (countPwr 0x40 1 s1)
  else if x.st = .gated then emit (.domPower d true) s1 else s1

/-- BLOCK_CTL.GATE (R345). -/
def blockGate (s : Block) : Block :=
  let refused (st : Nat) : Block := setErr pwrKey 1 (upProof (fun p => { p with gateStat := st }) s)
  if anyOpen s then refused 1
  else if anyRunning s then refused 2
  else
    let s1 := upProof (fun p => { p with gateStat := 0 }) s
    let s3 := tallyGate .t1 (tallyGate .t0 (forEach (List.range 144) gateDom s1))
    let s4 := emit (.islandPower .pair false) (emit (.islandPower .twin1 false) (emit (.islandPower .twin0 false) s3))
    { s4 with boot := { s4.boot with gated := true } }

end Sys2Proof.Machine
end

