-- ==== Sys2Proof/Machine/Sram.lean ====
section
/-! DEFINITION. Storage errors (14 R349 to R358, R372, R373): the SRAM groups, what a corrected or poisoned word does, the
error log, targeted self-tests and spares, and injection. -/

namespace Sys2Proof.Machine

/-! ### The groups (R352) -/

/-- The class of a group. -/
inductive SramClass where
  | ctx | twin | thread | counter | trace | bridge | pairCopy
  deriving DecidableEq, Repr

/-- What R352 lists of a group: its class, its data banks, and the words of a bank. -/
structure GroupInfo where
  cls : SramClass := .twin
  banks : Nat := 0
  words : Nat := 2048
  deriving DecidableEq, Repr

def groupInfo (g : Nat) : Option GroupInfo :=
  match g with
  | 0x01 => some { cls := .ctx, banks := 64, words := 32768 }
  | 0x02 => some { banks := 16, words := 32768 }
  | 0x03 => some { cls := .ctx, banks := 64, words := 32768 }
  | 0x04 => some { cls := .ctx, banks := 64, words := 32768 }
  | 0x05 => some { banks := 40 }
  | 0x06 => some { banks := 16 }
  | 0x07 => some { banks := 72 }
  | 0x08 => some { cls := .ctx, banks := 192 }
  | 0x09 => some { banks := 40 }
  | 0x0A => some { banks := 16 }
  | 0x0B => some { banks := 8 }
  | 0x0C => some { banks := 8 }
  | 0x0D => some { cls := .ctx, banks := 36 }
  | 0x0E => some { banks := 16 }
  | 0x0F => some { banks := 4 }
  | 0x10 => some { cls := .thread, banks := 4 }
  | 0x11 => some { banks := 40 }
  | 0x12 => some { cls := .counter, banks := 8 }
  | 0x13 => some { cls := .trace, banks := 4 }
  | 0x14 => some { cls := .ctx, banks := 128 }
  | 0x20 => some { cls := .ctx, banks := 96 }
  | 0x21 => some { cls := .bridge }
  | 0x22 => some { cls := .pairCopy, banks := 8 }
  | _ => none

/-- The pages of a group of a twin (R352). -/
def groupPages (t : TwinId) (g : Nat) : List Nat :=
  match g with
  | 0x01 => [twKey t catP]
  | 0x02 => [twKey t catP]
  | 0x03 => [twKey t catP]
  | 0x04 => [twKey t catP]
  | 0x05 => [twKey t accP]
  | 0x06 => [twKey t rackP]
  | 0x07 => [twKey t deskP]
  | 0x08 => [twKey t shlfP]
  | 0x09 => [twKey t shlfP]
  | 0x0A => [twKey t retP]
  | 0x0B => [twKey t lardP]
  | 0x0C => [twKey t sortP]
  | 0x0D => [twKey t tubeP]
  | 0x0E => [twKey t tubeP]
  | 0x0F => [twKey t bakeP]
  | 0x10 => [twKey t thrdP]
  | 0x11 => [twKey t relP]
  | 0x12 => [twKey t cntP]
  | 0x13 => [twKey t daybP]
  | 0x14 => [twKey t talyP]
  | 0x20 => [fmtKey]
  | 0x21 => [blkKey]
  | 0x22 => [blkKey, pwrKey]
  | _ => []

/-- A group of the pair island, of which there is one for both twins (R352). -/
def pairGroup (g : Nat) : Bool := g == 0x20 || g == 0x22

/-- The twin whose Archivist tests a group: the pair's groups belong to Twin 0, or to the twin in service when only
one is (R356). -/
def relTwin (s : Block) (t : TwinId) (g : Nat) : TwinId :=
  if pairGroup g then
    if serves s .t0 then .t0 else if serves s .t1 then .t1 else .t0
  else t

/-- The twin whose REL.LOG records the errors of a group: Twin 0 for the Recipe Table, whichever twin tests it (R375). -/
def logTwin (s : Block) (t : TwinId) (g : Nat) : TwinId := if g = 0x20 then .t0 else relTwin s t g

/-- A word by its place in its group, banks end to end. -/
def linear (i : GroupInfo) (bank word : Nat) : Nat := bank * i.words + word

/-! ### Owners (R352) -/

/-- The context whose range register passes a test. -/
def ownerBy (p : Nat → Bool) : Option Nat := (List.range 256).find? p

/-- The context that owns a word of a context-class group, from the range register or the owner table that R352 names. -/
def wordOwner (s : Block) (t : TwinId) (g w : Nat) : Option Nat :=
  let r (k : Nat) : CtxTw := ctxTw s t k
  match g with
  | 0x01 =>
    let o := mapGet 0 (tw s t).shelf.owners (w / 4)
    if o ≠ 0 then some (o - 1) else ownerBy fun k => inNodeRange (r k).nodeRange (w / 4)
  | 0x03 => ownerBy fun k => inFwdRange (r k).fwdRange (2 * w)
  | 0x04 => ownerBy fun k => inFwdRange (r k).mirRange (2 * w)
  | 0x08 => ownerBy fun k => inShardRange s k (twinNum t * 131072 + w / 3)
  | 0x0D =>
    if w < 65536 then ownerBy fun k => inTubeRange s k (twinNum t * 32768 + w / 2)
    else ownerBy fun k => inBowlRange s k (twinNum t * 512 + (w - 65536) / 16)
  | 0x14 => ownerBy fun k => inTallyRange s t k (w / 2)
  | 0x20 => ownerBy fun k =>
      let x := (ctxOf s k).window
      rangeEn x && decide (fld x 15 0 ≤ w / 3) && decide (w / 3 < fld x 15 0 + min 4096 (fld x 44 32))
  | _ => none

/-! ### The zero write (R353) -/

/-- Word j of a node record reads as zero (R36, R40 to R42). -/
def zeroNodeWord (j : Nat) (n : Node) : Node :=
  match j with
  | 0 => { n with
      st := .free, mode := 0, kind := 0, lc := false, level := 0, ctx := 0, gen := 0, sealBit := false,
      mirrorEn := false, larder := 0, cf := 0 }
  | 1 => { n with mask := 0, scope := 0, load := 0, affinity := 0, stash := 0 }
  | 2 => { n with succBase := 0, succLen := 0, mirror := 0, rsv2 := 0 }
  | _ => { n with desc := 0, layer := 0, rsv3 := 0 }

def zeroShardWord (j : Nat) (e : Shard) : Shard :=
  match j with
  | 0 => { w1 := e.w1, w2 := e.w2 }
  | 1 => { e with w1 := 0 }
  | _ => { e with w2 := 0 }

def zeroTallyWord (j : Nat) (e : Tally) : Tally :=
  match j with
  | 0 => { e with st := .free, packets := false, level := false, sat := false, ctx := 0, count := 0 }
  | _ => { e with key := 0, cursor := 0, step := 0 }

def zeroTubeWord (j : Nat) (e : Tube) : Tube :=
  match j with
  | 0 => { e with st := .free, ctx := 0, tx := 0, rx := 0, txSlot := 0, rxSlot := 0 }
  | _ => { e with cut := 0, ringLog := 0, ringOff := 0 }

def zeroBowlWord (j : Nat) (e : Bowl) : Bowl :=
  match j with
  | 0 => { e with
      st := .free, bf16 := false, keep := false, selected := false, epochChk := false, doneEn := false, ctx := 0,
      epoch := 0, lanes := 0, next := 0, elems := 0 }
  | 1 => { e with result := 0 }
  | 2 => { e with pendMax := 0, blockBase := 0, qmask := 0 }
  | 3 => { e with quarter := 0, doneNode := 0 }
  | _ => e

/-- Word j of a Recipe entry reads as zero (R214): history values 1 to 8, 9 to 16, and the rest. -/
def zeroRecipeWord (j : Nat) (e : Recipe) : Recipe :=
  match j with
  | 0 => { e with hist := List.replicate (min 8 e.hist.length) 0 ++ e.hist.drop 8 }
  | 1 => { e with hist := e.hist.take 8 ++ List.replicate (e.hist.length - 8) 0 }
  | _ => { e with stepMax := 0, stepV := false, format := 0, force := 0, train := 0, rows := 0 }

/-- The side entry of a node reads as zero (R44). -/
def zeroSide (n : Node) : Node :=
  { n with
    skipPend := false, region := false, backward := false, inserted := false, cfSet := false, origKind := 0,
    wcount := false, initCount := 0 }

/-- Word j of a circulation record reads as zero (R106). -/
def zeroRecWord (j : Nat) (r : CircRec) : CircRec :=
  match j with
  | 0 => { r with st := .free, node := 0, gen := 0 }
  | _ => { r with time := 0, epoch := 0, ctx := 0, via := false, bwd := false, eng := 0 }

/-- Word j of a thread entry reads as zero but for STATE, which the outcome of the error gives (R311, R353). -/
def zeroThreadWord (j : Nat) (h : Thread) : Thread :=
  match j with
  | 0 => { st := h.st, due := h.due, readyAt := h.readyAt }
  | 1 => { h with due := 0 }
  | _ => { h with readyAt := 0 }

/-- A poisoned word is written as zero. In a group of a twin whose words the spec does not lay out, the twin is fatal and
its words change nothing here (log entry 48). -/
def zeroWord (t : TwinId) (g w : Nat) (s : Block) : Block :=
  match g with
  | 0x01 => upNode (nodeIdOf t (w / 4)) (zeroNodeWord (w % 4)) s
  | 0x02 => upNode (nodeIdOf t w) zeroSide s
  | 0x07 => if w < 131072 then upTw t (fun x => { x with desk := { x.desk with
      recs := mapSet {} x.desk.recs (w / 2) (zeroRecWord (w % 2) (mapGet {} x.desk.recs (w / 2))) } }) s else s
  | 0x10 => if w < 6144 then upThread (threadId t (w / 3)) (zeroThreadWord (w % 3)) s else s
  | 0x03 => upTw t (fun x => { x with cat := { x.cat with
      fwd := mapSet 0 (mapSet 0 x.cat.fwd (2 * w) 0) (2 * w + 1) 0 } }) s
  | 0x04 => upTw t (fun x => { x with cat := { x.cat with
      mir := mapSet 0 (mapSet 0 x.cat.mir (2 * w) 0) (2 * w + 1) 0 } }) s
  | 0x08 => upShard (twinNum t * 131072 + w / 3) (zeroShardWord (w % 3)) s
  | 0x0D =>
    if w < 65536 then
      let x := twinNum t * 32768 + w / 2
      setTube x (zeroTubeWord (w % 2) (tubeOf s x)) s
    else
      let x := twinNum t * 512 + (w - 65536) / 16
      setBowl x (zeroBowlWord ((w - 65536) % 16) (bowlOf s x)) s
  | 0x14 => setTally t (w / 2) (zeroTallyWord (w % 2) (tallyOf s t (w / 2))) s
  | 0x20 => { s with fmt := { s.fmt with
      entries := mapSet {} s.fmt.entries (w / 3) (zeroRecipeWord (w % 3) (recipeOf s (w / 3))) } }
  | _ => s

/-! ### Double-bit errors of the other classes (R353) -/

/-- How many always-on counters a twin's page has, from offset 0x040 on; those of TALY lie in the always-on island
(R59, R83, R111, R117, R147, R174, R208, R233, R281, R297, R328, R372, R377, R389, R391). -/
def counterCount (p : Nat) : Nat :=
  [8, 8, 8, 12, 8, 11, 8, 9, 0, 8, 5, 8, 8, 2, 4, 1].getD p 0

/-- How many always-on counters a context page has (R308). -/
def ctxCounters : Nat := 15

/-- The counter that a word of group 0x12 holds reads 2^48 − 1: the twin's pages first, 24 words each, then the
contexts' accounting, the optional counters and the ports. -/
def counterLost (t : TwinId) (w : Nat) (s : Block) : Block :=
  let top (key i n : Nat) (s : Block) : Block :=
    if i < n then upPage key (fun p => { p with ctrs := mapSet 0 p.ctrs (0x40 + 8 * i) ctrMax }) s else s
  if w < 384 then top (twKey t (w / 24)) (w % 24) (counterCount (w / 24)) s
  else if 1024 ≤ w ∧ w < 7168 then top (ctxKey ((w - 1024) / 24)) ((w - 1024) % 24) ctxCounters s
  else if 8192 ≤ w ∧ w < 12288 then
    upTw t (fun x => { x with obs := { x.obs with
      opts := mapSet {} x.obs.opts (w - 8192) { mapGet {} x.obs.opts (w - 8192) with value := ctrMax } } }) s
  else if 12288 ≤ w ∧ w < 12592 then
    let p := (w - 12288) / 2
    upTw t (fun x => { x with obs := { x.obs with
      ports := mapSet {} x.obs.ports p
        (if w % 2 = 0 then { mapGet {} x.obs.ports p with grants := ctrMax }
         else { mapGet {} x.obs.ports p with busy := ctrMax }) } }) s
  else s

/-- The staged record a word belongs to is dropped and counted as lost, and a LOST record of it is staged (R353, R384). A
record whose write has been driven is lost no more (log entry 54). -/
def traceLost (t : TwinId) (w : Nat) (s : Block) : Block :=
  let o := (tw s t).obs
  if w / 4 < o.staged.length && !(o.ringOut && w / 4 == 0) then
    stageLost t (bump (twKey t daybP) 0x50 1 (upObs t (fun o => { o with
      staged := o.staged.eraseIdx (w / 4), lostSince := o.lostSince + 1 }) s))
  else s

/-- A thread's word is lost: it is pre-empted when RUNNING, and FAULTED with CODE 13 (R353). Words above the entries hold
the ready lists; their thread is taken by the same index. -/
def threadLost (t : TwinId) (w : Nat) (s : Block) : Block :=
  let x := threadId t ((if w < 6144 then w / 3 else w - 6144) % 2048)
  if (threadOf s x).st = .free then s
  else match runsOn s x with
    | some c => drivePreempt c .poison s
    | none => threadFault x 0 13 s

/-! ### The log (R373) -/

def upRel (t : TwinId) (f : RelUnit → RelUnit) (s : Block) : Block := upTw t (fun w => { w with rel := f w.rel }) s

/-- LOG_DATA0 of an error as it is logged, its outcome pending. -/
def logWord (kind : Nat) (injected : Bool) (g bank word : Nat) (owner : Option Nat) : Nat :=
  2 ^ 63 + kind * 2 ^ 61 + b2n injected * 2 ^ 57 + (g % 256) * 2 ^ 48 + (bank % 256) * 2 ^ 40 + (word % 2 ^ 16) * 2 ^ 24
    + (match owner with
       | some k => 2 ^ 23 + (k % 256) * 2 ^ 15
       | none => 0)

def logError (t : TwinId) (w : Nat) (s : Block) : Block :=
  upRel t (fun r => { r with log := mapSet (0, 0) r.log (r.count % 64) (w, s.time), count := r.count + 1 }) s

/-- The outcome of a test of a group is written to its entry of the log, while the log still holds it. -/
def logOutcome (t : TwinId) (g no outcome rows : Nat) (s : Block) : Block :=
  upRel (logTwin s t g) (fun r =>
    if r.count ≤ no + 64 then
      let e := mapGet (0, 0) r.log (no % 64)
      { r with log := mapSet (0, 0) r.log (no % 64) (setFld (setFld e.1 60 58 outcome) 7 0 rows, e.2) }
    else r) s

def setErrs (t : TwinId) (g bit : Nat) (s : Block) : Block := forEach (groupPages t g) (fun key => setErr key bit) s

/-! ### Targeted self-tests and spares (R356 to R358) -/

def upPair (f : PairSt → PairSt) (s : Block) : Block := { s with pair := f s.pair }

/-- The banks of a group, a twin's or the pair's. -/
def sramOf (s : Block) (t : TwinId) (g : Nat) : SramGroup :=
  mapGet {} (if pairGroup g then s.pair.groups else (tw s t).rel.groups) g

def upSram (t : TwinId) (g : Nat) (f : SramGroup → SramGroup) (s : Block) : Block :=
  if pairGroup g then upPair (fun p => { p with groups := mapSet {} p.groups g (f (mapGet {} p.groups g)) }) s
  else upRel t (fun r => { r with groups := mapSet {} r.groups g (f (mapGet {} r.groups g)) }) s

def dataBanks (g : Nat) : Nat := ((groupInfo g).getD {}).banks

/-- The physical bank that is the group's spare; the data banks are numbered from 0 and the spare after them. -/
def spareOf (x : SramGroup) (g : Nat) : Nat := if x.spare = 0 then dataBanks g else x.spare - 1

/-- The physical bank in a logical place; the number of data banks names the spare. -/
def physOf (x : SramGroup) (g bank : Nat) : Nat :=
  if bank = dataBanks g then spareOf x g
  else
    let p := mapGet 0 x.place bank
    if p = 0 then bank else p - 1

/-- Free spare rows of a physical bank (R352). -/
def rowsLeft (x : SramGroup) (phys : Nat) : Nat := 8 - mapGet 0 x.rows phys

/-- Tests are started from the queue while none runs: one whose group has no free spare is deferred (R357). -/
def startTests (t : TwinId) : Nat → Block → Block
  | 0, s => s
  | f + 1, s =>
    match (tw s t).rel.test, (tw s t).rel.queue with
    | none, (g, bank, no) :: rest =>
      let s1 := upRel t (fun r => { r with queue := rest }) s
      let x := sramOf s t g
      if x.noSpare then startTests t f (setErrs t g 9 (logOutcome t g no 4 0 s1))
      else
        upSram t g (fun x => { x with noSpare := true })
          (upRel t (fun r => { r with test := some {
            group := g, bank := bank, phys := physOf x g bank, logNo := no,
            stage := if bank = dataBanks g then .marching else .copying } }) s1)
    | _, _ => s

/-- A test of a bank is queued after an error, or skipped when the queue is full (R356). -/
def queueTest (t : TwinId) (g bank no : Nat) (s : Block) : Block :=
  let r := (tw s t).rel
  let known := (r.queue.any fun q => q.1 == g && q.2.1 == bank)
    || (match r.test with
        | some b => b.group == g && b.bank == bank
        | none => false)
  if known then s
  else if r.queue.length ≥ 16 then
    setErr (twKey t relP) 2 (setErrs t g 9 (bump (twKey t relP) 0x70 1 (logOutcome t g no 5 0 s)))
  else startTests t 17 (upRel t (fun r => { r with queue := r.queue ++ [(g, bank, no)] }) s)

/-- An error in the spare while a bank is copied into it: the copy stops, the spare is tested in its place, and the
original bank's test is queued again (R357). True when the error was of that kind. -/
def spareHit (t : TwinId) (g bank no : Nat) (s : Block) : Option Block :=
  match (tw s t).rel.test with
  | some b =>
    if b.group = g ∧ b.stage = .copying ∧ bank = dataBanks g then
      some (queueTest t g b.bank b.logNo (upRel t (fun r => { r with
        test := some { group := g, bank := bank, phys := spareOf (sramOf s t g) g, logNo := no, stage := .marching } }) s))
    else none
  | none => none

/-- A test in hand is given up, and its group has its spare again: the bank copied stays in service, or the bank offline is
the spare. -/
def dropTest (t : TwinId) (s : Block) : Block :=
  match (tw s t).rel.test with
  | some b =>
    upSram t b.group (fun x => { x with noSpare := false, spare := if b.stage = .copying then x.spare else b.phys + 1 })
      (upRel t (fun r => { r with test := none }) s)
  | none => s

/-- BANK_COPY_END: the spare takes the bank's logical place, and the bank goes offline to be marched (R357). -/
def bankCopyEnd (t : TwinId) (s : Block) : Block :=
  match (tw s t).rel.test with
  | some b =>
    if b.stage = .copying ∧ (tw s t).svc ≠ .fatal then
      upSram t b.group (fun x => { x with place := mapSet 0 x.place b.bank (spareOf x b.group + 1) })
        (upRel t (fun r => { r with test := some { b with stage := .marching } }) s)
    else s
  | none => s

/-- The bank tested becomes its group's spare, with an outcome (R358). -/
def testDone (t : TwinId) (b : BankTest) (outcome : Nat) (s : Block) : Block :=
  let rows := rowsLeft (sramOf s t b.group) b.phys
  let s1 := upSram t b.group (fun x => { x with noSpare := false, spare := b.phys + 1 }) s
  let s2 := logOutcome t b.group b.logNo outcome rows (upRel t (fun r => { r with test := none }) s1)
  let s3 := if outcome = 1 then bump (twKey t relP) 0x50 1 s2
            else setErrs t b.group 11 (bump (twKey t relP) 0x58 1 s2)
  startTests t 17 s3

/-- The bank is out of use and its group has no spare (R358). -/
def testRetired (t : TwinId) (b : BankTest) (s : Block) : Block :=
  let rows := rowsLeft (sramOf s t b.group) b.phys
  let s1 := upSram t b.group (fun x => { x with retired := x.retired + 1 }) s
  let s2 := logOutcome t b.group b.logNo 3 rows (upRel t (fun r => { r with test := none }) s1)
  let s3 := bump (twKey t relP) 0x68 1 (bump (twKey t relP) 0x58 1 s2)
  startTests t 17 (setErrs t b.group 10 (setErrs t b.group 11 s3))

/-- MARCH_TEST_END: a march test ends with its failing rows (R358). -/
def marchTestEnd (t : TwinId) (failing : Nat) (s : Block) : Block :=
  match (tw s t).rel.test with
  | none => s
  | some b =>
    if b.stage = .copying ∨ (tw s t).svc = .fatal then s
    else if failing = 0 then testDone t b (if b.stage = .again then 2 else 1) s
    else if failing ≤ rowsLeft (sramOf s t b.group) b.phys then
      bump (twKey t relP) 0x60 failing
        (upSram t b.group (fun x => { x with rows := mapSet 0 x.rows b.phys (mapGet 0 x.rows b.phys + failing) })
          (upRel t (fun r => { r with test := some { b with stage := .again } }) s))
    else testRetired t b s

/-! ### The full self-test (R366 step 5, R400) -/

/-- A bank that fails on more rows than are free is out of use (R358): the spare takes its place while its group has one.
True where the group has a bank less in service. -/
def retireBank (t : TwinId) (g bank : Nat) (s : Block) : Block × Bool :=
  let x := sramOf s t g
  let s1 := setErrs t g 10 (bump (twKey t relP) 0x68 1 s)
  if bank = dataBanks g ∨ x.noSpare = true then
    (upSram t g (fun x => { x with noSpare := true, retired := x.retired + 1 }) s1, bank != dataBanks g)
  else
    (upSram t g (fun x => { x with
      place := mapSet 0 x.place bank (spareOf x g + 1), noSpare := true, retired := x.retired + 1 }) s1, false)

/-- A bank of the full self-test fails marches, on so many rows in turn: its failing rows are replaced while rows are free
(R358). -/
def repairBank (t : TwinId) (g bank : Nat) : List Nat → Block → Block × Bool
  | [], s => (s, false)
  | n :: rest, s =>
    let phys := physOf (sramOf s t g) g bank
    if n ≤ rowsLeft (sramOf s t g) phys then
      repairBank t g bank rest (bump (twKey t relP) 0x60 n
        (upSram t g (fun x => { x with rows := mapSet 0 x.rows phys (mapGet 0 x.rows phys + n) }) s))
    else retireBank t g bank s

/-- The full self-test of a twin marches a bank of a group: one of its own groups, or of the pair's where it tests them
(R356). -/
def marches (s : Block) (t : TwinId) (g bank : Nat) : Bool :=
  decide (0 < dataBanks g) && decide (bank ≤ dataBanks g) && relTwin s t g == t

/-- The banks that fail in a full self-test are repaired or retired in turn, before the result is decided (R400): the groups
that have a bank less in service. -/
def fullTest (t : TwinId) : List (Nat × Nat × List Nat) → Block → Block × List Nat
  | [], s => (s, [])
  | (g, bank, rows) :: rest, s =>
    if !(marches s t g bank) || rows.isEmpty then fullTest t rest s
    else
      let r := repairBank t g bank rows (setErrs t g 11 (bump (twKey t relP) 0x58 1 s))
      let q := fullTest t rest r.1
      (q.1, if r.2 then g :: q.2 else q.2)

/-- REL.TEST_STAT of a full self-test (R373, R400): it passes when every group has its banks in service and the logic
self-test passed. -/
def testWord (lost : List Nat) (logicOk : Bool) : Nat :=
  2 ^ 63 + b2n (lost.isEmpty && logicOk) * 2 ^ 62 + (lost.headD 0 % 256) * 2 ^ 48

/-- A full self-test ends: its failing banks are dealt with, and TEST_STAT records the result, which is answered. -/
def endFullTest (t : TwinId) (fails : List (Nat × Nat × List Nat)) (logicOk : Bool) (s : Block) : Block × Bool :=
  let r := fullTest t fails s
  (upRel t (fun u => { u with testStat := testWord r.2 logicOk }) r.1, r.2.isEmpty && logicOk)

/-! ### An error (R353, R354, R372) -/

/-- The ERR_STAT bit of a double-bit error (R354). -/
def ueBit : SramClass → Nat
  | .ctx => 14
  | .thread => 13
  | .counter => 13
  | .trace => 13
  | _ => 15

/-- No twin is left to serve (R369). -/
def pairFatal (s : Block) : Block := upPair (fun p => { p with isFatal := true, asks := [] }) s

/-- The outcome of a double-bit error (R353). A context that is open takes DATA_LOST; a duplicated word is taken from the
other copy. -/
def ueOutcome (t : TwinId) (i : GroupInfo) (g bank word : Nat) (owner : Option Nat) (s : Block) : Block :=
  let w := linear i bank word
  match i.cls with
  | .ctx =>
    let s1 := zeroWord t g w s
    match owner with
    | some k => if (ctxOf s k).st = .opened then raiseFault (relTwin s t g) k 0xA0 0 s1 else s1
    | none => s1
  | .twin => pushWork [.twinFatal t 1] (zeroWord t g w s)
  | .bridge => pushWork [.twinFatal t 2] (setErr (twKey t relP) 3 s)
  | .thread => threadLost t w (zeroWord t g w s)
  | .counter => counterLost t w s
  | .trace => traceLost t w s
  | .pairCopy => s

/-- An error in a word read: counted, logged, handled by its class, and followed by a test of its bank. A further error in
a fatal twin is logged and does nothing else (R369). DEDUCED (log entry 49): a spare in no one's place holds no word of the
group's, so a double-bit error in it has no outcome of R353. -/
def sramError (t : TwinId) (g bank word : Nat) (double injected : Bool) (s : Block) : Block :=
  match groupInfo g with
  | none => s
  | some i =>
    let r := relTwin s t g
    let l := logTwin s t g
    let no := (tw s l).rel.count
    let used := i.cls == .bridge || decide (bank < i.banks)
    let owner := if i.cls = .ctx ∧ used = true then wordOwner s t g (linear i bank word) else none
    let kind := if i.cls = .bridge then 2 else b2n double
    let s1 := logError l (logWord kind injected g bank word owner) s
    if (tw s r).svc = .fatal then s1
    else
      let s2 := bump (twKey r relP) (if double then 0x48 else 0x40) 1 s1
      let s3 := setErrs t g (if double then ueBit i.cls else 12) (if injected then setErrs t g 8 s2 else s2)
      let s4 := if double && used then ueOutcome t i g bank word owner s3 else s3
      if i.cls = .bridge then s4
      else match spareHit r g bank no s4 with
        | some s5 => s5
        | none => queueTest r g bank no s4

/-- The bank and word exist in the group; the spare is read like a data bank while it is in no one's place, and holds no word of
the group's. -/
def wordExists (i : GroupInfo) (bank word : Nat) : Bool :=
  i.cls == .bridge || (decide (bank ≤ i.banks) && decide (word < i.words))

/-- PATROL_READ: the patrol reads a word through the maintenance port (R350). A pass ends with the last word of the
twin's last group. -/
def patrolRead (t : TwinId) (g bank word : Nat) (err : ReadError) (s : Block) : Block :=
  match groupInfo g with
  | none => s
  | some i =>
    let r := relTwin s t g
    if !(bitOf (reg s (twKey r relP) 0x130) 63) || !(wordExists i bank word) then s
    else
      let s1 := match err with
        | .clean => s
        | .single => sramError t g bank word false false s
        | .double => sramError t g bank word true false s
      if g = 0x14 ∧ bank = 127 ∧ word = 2047 then bump (twKey r relP) 0x78 1 s1 else s1

/-! ### Injection (R355) -/

/-- ERR_INJECT of a page is written; a write that names no group of the page, or a TYPE of 0 or 3, is ignored. -/
def errInjectWrite (key v : Nat) (s : Block) : Block :=
  let g := fld v 55 48
  let ty := fld v 57 56
  let own := (groupPages .t0 g).contains key || (groupPages .t1 g).contains key
  if own && (ty == 1 || ty == 2) then
    upPage key (fun p => { p with inj := b2n (bitOf v 63) * 2 ^ 63 + ty * 2 ^ 56 + g * 2 ^ 48 }) s
  else s

/-- The lowest key at which a field of the entries of two stores differs. -/
def firstDiffBy {α β : Type} [DecidableEq β] (f : α → β) (d : α) (a b : SMap α) : Option Nat :=
  ((a.map (·.1) ++ b.map (·.1)).filter fun k => f (mapGet d a k) ≠ f (mapGet d b k)).min?

/-- The lowest key at which two stores differ. -/
def firstDiff {α : Type} [DecidableEq α] (d : α) (a b : SMap α) : Option Nat := firstDiffBy id d a b

/-- The word of group 0x12 in which a twin keeps a counter of a page (R352). -/
def counterWord (t : TwinId) (key off : Nat) : Option Nat :=
  let i := (off - 0x40) / 8
  if 256 ≤ key then if i < ctxCounters then some (1024 + (key - 256) * 24 + i) else none
  else if 16 ≤ key ∧ twinOf ((key - 16) / 16) = t ∧ i < counterCount (key % 16) then some (key % 16 * 24 + i)
  else none

/-- A word of group 0x12 whose counter a step moved: of a page, an optional counter's, or a port's. -/
def counterRead (a b : Block) (t : TwinId) : Option Nat :=
  let x := (tw a t).obs
  let y := (tw b t).obs
  let ofPage (key : Nat) : Option Nat := (firstDiff 0 (pageOf a key).ctrs (pageOf b key).ctrs).bind (counterWord t key)
  (((a.pages.map (·.1) ++ b.pages.map (·.1)).findSome? ofPage).or
    ((firstDiffBy OptCtr.value {} x.opts y.opts).map (8192 + ·))).or
    (((firstDiffBy PortCtr.grants {} x.ports y.ports).map (12288 + 2 * ·)).or
      ((firstDiffBy PortCtr.busy {} x.ports y.ports).map (12289 + 2 * ·)))

/-- A node that completed in a step, so that its edge list was read: the first slot of its list. -/
def listRead (a b : Block) (t : TwinId) (mir : Bool) : Option Nat :=
  ((tw b t).cat.nodes.find? fun p =>
    (p.2.st == .done || p.2.st == .skipped) && (mapGet {} (tw a t).cat.nodes p.1).st != p.2.st
      && decide (p.2.succLen > 0) && p.2.backward == mir).map fun p => p.2.succBase % 2 ^ 22 / 2

/-- A forward node with a mirror that a step sealed, so that Accession read its edge list (R75, R76). -/
def sealRead (a b : Block) (t : TwinId) : Option Nat :=
  ((tw b t).cat.nodes.find? fun p =>
    let n := mapGet {} (tw a t).cat.nodes p.1
    p.2.mirrorEn && !p.2.backward && decide (p.2.succLen > 0) && (n.st == .loading || n.st == .free)
      && p.2.st != .loading && p.2.st != .free).map fun p => p.2.succBase % 2 ^ 22 / 2

/-- A tally whose watch list a step read: ARM read it from its start, and a tick read the edge that fired (R241 to R243, R248). -/
def watchRead (a b : Block) (t : TwinId) : Option Nat :=
  ((tw b t).bank.ents.find? fun p =>
    let e := mapGet {} (tw a t).bank.ents p.1
    decide (p.2.watchLen > 0) && (e.cursor != p.2.cursor || e.st != p.2.st)).map fun p =>
      let e := mapGet {} (tw a t).bank.ents p.1
      (p.2.watchBase % 2 ^ 22 + (if e.st = .armed then e.cursor else 0)) / 2

/-- A mirror list that the Larder of the same twin read for a re-bake: the node that it has marked since (R193, R194). -/
def rebakeRead (a b : Block) (t : TwinId) : Option Nat :=
  if ctr a (twKey t lardP) 0x60 = ctr b (twKey t lardP) 0x60 ∧ (tw a t).lard.table = (tw b t).lard.table then none
  else ((tw b t).cat.nodes.find? fun p =>
    p.2.backward && decide (p.2.succLen > 0)
      && (mapGet {} (tw a t).cat.nodes p.1).larder != p.2.larder).map fun p => p.2.succBase % 2 ^ 22 / 2

/-- The grants that the block holds between their decision and the end of this command: crossing the Bridge, kept for a port,
and driven. -/
def grantsOf (s : Block) : List GrantWord :=
  ([TwinId.t0, .t1].flatMap fun t =>
    ((tw s t).claimIn.filterMap fun i => match i with
      | .grant w _ _ _ => some w
      | _ => none) ++ (tw s t).desk.heldGrants.map (·.word))
  ++ s.out.filterMap fun o => match o with
    | .grant _ w => some {
        node := fld w 127 108, gen := fld w 107 100, ctx := fld w 99 92, layer := fld w 49 38, bwd := bitOf w 26 }
    | _ => none

/-- The Recipe entry that a grant decided in a step read (R95, R205). -/
def grantRead (a b : Block) : Option Nat :=
  ((grantsOf b).filter fun w => w.bwd && !((grantsOf a).any fun v => v.node == w.node && v.gen == w.gen)).findSome? fun w =>
    recipeIdx a w.ctx w.layer

/-- A step placed a node in a twin, which read the location mirror (R132): it counted a placement, or made the node wait. -/
def placedRead (a b : Block) (t : TwinId) : Bool :=
  [0x40, 0x68, 0x70].any (fun off => ctr a (twKey t shlfP) off != ctr b (twKey t shlfP) off)

/-- The word of a group that a step read: the lowest word whose entry the step changed, or one that it read and left: of an edge
list, a watch list or a mirror list, of the Recipe Table, or of the location mirror; none where the step used no word of the
group. -/
def groupRead (a b : Block) (t : TwinId) (g : Nat) : Option Nat :=
  let x := tw a t
  let y := tw b t
  let some0 (p : Bool) : Option Nat := if p then some 0 else none
  match g with
  | 0x01 => (firstDiff {} x.cat.nodes y.cat.nodes).map (· * 4)
  | 0x02 => some0 (x.cat.nodes != y.cat.nodes)
  | 0x03 => (listRead a b t false).or ((sealRead a b t).or (watchRead a b t))
  | 0x04 => (listRead a b t true).or (rebakeRead a b t)
  | 0x05 => some0 (x.acc != y.acc || x.ctxs != y.ctxs)
  | 0x06 => some0 (x.rack != y.rack)
  | 0x07 => some0 (x.desk != y.desk || a.engines != b.engines)
  | 0x08 => (firstDiff {} x.shelf.shards y.shelf.shards).map (· * 3)
  | 0x09 => some0 (x.shelf.locs != y.shelf.locs || x.shelf.waits != y.shelf.waits || placedRead a b t)
  | 0x0A => some0 (x.ret != y.ret)
  | 0x0B => some0 (x.lard != y.lard)
  | 0x0C => some0 (x.sort != y.sort)
  | 0x0D =>
    match firstDiff {} x.office.tubes y.office.tubes with
    | some i => some (i * 2)
    | none => (firstDiff {} x.office.bowls y.office.bowls).map fun i => 65536 + i * 16
  | 0x0E => some0 (x.office.bowls.any fun p => (mapGet {} y.office.bowls p.1).pend != p.2.pend)
  | 0x0F => some0 (x.bake != y.bake)
  | 0x10 => (firstDiff {} x.thrd.ents y.thrd.ents).map (· * 3)
  | 0x11 => some0 (x.faultQ != y.faultQ)
  | 0x12 => counterRead a b t
  | 0x13 => some0 (x.obs.staged != y.obs.staged)
  | 0x14 => (firstDiff {} x.bank.ents y.bank.ents).map (· * 2)
  | 0x20 => ((firstDiff {} a.fmt.entries b.fmt.entries).or (grantRead a b)).map (· * 3)
  | 0x21 => some0 (x.edgeIn.length > y.edgeIn.length || x.claimIn.length > y.claimIn.length
                   || x.ctrlIn.length > y.ctrlIn.length)
  | 0x22 => some0 (a.mgmt != b.mgmt || a.pair != b.pair || a.proof != b.proof || a.arb != b.arb)
  | _ => none

/-- The twin in whose storage an injection of a page looks for its word: the page's own, and for the Bridge's buffers the
twin that received. -/
def injTwin (a b : Block) (key g : Nat) : TwinId :=
  match pageTwin key with
  | some (t, _) => t
  | none => if g = 0x21 ∧ (groupRead a b .t0 g).isNone then .t1 else .t0

/-! ### The use of a poisoned word (R353) -/

/-- The entries that `mine` names, as an older store holds them; the others as they are. -/
def keepOld {α : Type} [DecidableEq α] (mine : α → Bool) (d : α) (old new : SMap α) : SMap α :=
  (old.filter fun p => mine p.2).foldl (fun m p => mapSet d m p.1 p.2) (new.filter fun p => !(mine p.2))

/-- An engine that a discarded grant of a context was for holds its claim still. -/
def regain (a : Block) (k e : Nat) (x : Engine) : Engine :=
  let old := engOf a e
  let new := x.tasks.filter fun t => t.ctx == k && !(old.tasks.contains t)
  if new.isEmpty then x
  else { x with
    lastV := old.lastV, lastCtx := old.lastCtx, tasks := x.tasks.filter (fun t => !(new.contains t)),
    claims := { seq := ((old.claims.find? fun c => !(x.claims.any fun d => d.seq == c.seq)).map (·.seq)).getD a.claimSeq }
      :: x.claims }

/-- The context that an item of the edge channel acts for; none where it names no context, node or shard. -/
def edgeOwner (s : Block) : EdgeItem → Option Nat
  | .credit c => some c.ctx
  | .mirrorReq _ _ k _ _ _ _ _ _ => some k
  | .mirrorAck f => some (nodeOf s f).ctx
  | .append _ _ _ k _ => some k
  | .closeMarker k => some k
  | .targetRead f _ _ => some (nodeOf s f).ctx
  | .targetAns f _ _ _ => some (nodeOf s f).ctx
  | .loc _ _ k _ => some k
  | .locAck x => some (shardOf s x).ctx
  | .moveReq x _ _ _ _ _ => some (shardOf s x).ctx
  | .writerInc x => some (shardOf s x).ctx
  | .writerDec x => some (shardOf s x).ctx
  | .offer o => some o.ctx
  | .answer f _ _ => some (nodeOf s f).ctx
  | .gRead _ k _ => some k
  | .gData k _ => some k
  | .gMark g _ _ _ => some (nodeOf s g).ctx
  | .trigger _ k => some k
  | .release _ k _ _ _ => some k
  | .batch _ k _ _ => some k
  | .epochBump k _ => some k
  | .wake _ w => if w.ctxV then some w.ctx else none
  | .service _ _ => none
  | .flushReq _ _ => none
  | .flushDone _ _ => none

/-- The context of the node that an item of the claim channel names. -/
def claimOwner (s : Block) : ClaimItem → Option Nat
  | .grant w _ _ _ => some w.ctx
  | .grantReturn n _ _ => some (nodeOf s n).ctx
  | .acceptItem n _ _ _ => some (nodeOf s n).ctx
  | .complete c => some (nodeOf s c.node).ctx
  | .proxy c => some (nodeOf s c.node).ctx
  | .proxyGrant n _ _ _ => some (nodeOf s n).ctx
  | .proxyRefused n => some (nodeOf s n).ctx
  | .proxyBack n => some (nodeOf s n).ctx
  | .fwdClaim _ _ _ _ => none
  | .decline _ _ _ => none

/-- A channel without the items of an owner that a step has put on it behind those it held. -/
def unsendItems {α : Type} [BEq α] (mine : α → Bool) (old new : List α) : List α :=
  let n := if old.isPrefixOf new then old.length else old.length - 1
  new.take n ++ (new.drop n).filter fun i => !(mine i)

/-- A step changed nodes of one context alone. -/
def onlyNodesOf (k : Nat) (a s : Block) : Bool :=
  [TwinId.t0, .t1].all fun t =>
    ((tw a t).cat.nodes ++ (tw s t).cat.nodes).all fun p =>
      p.2.ctx == k || mapGet {} (tw a t).cat.nodes p.1 == mapGet {} (tw s t).cat.nodes p.1

/-- An access of a flush or a drain, or of the Day Book: no access of one context (R153, R162, R385). -/
def sharedAccess (s : Block) (addr : Nat) : Bool :=
  [TwinId.t0, .t1].any fun t =>
    let base := baseAddr (reg s (twKey t retP) 0x100)
    let ring := fld (reg s (twKey t daybP) 0x100) 47 16 * 2 ^ 16
    (decide (base ≤ addr) && decide (addr < base + 8192)) || addr == baseAddr (reg s (twKey t retP) 0x110)
      || addr == baseAddr (reg s (twKey t retP) 0x118)
      || (bookOn s t && decide (ring ≤ addr) && decide (addr < ring + 32 * bookSize s t))

/-- An output that acts for a context: a grant word of it (R95), a record or message of its notifier (R300, R302), its way
mask, and, where `noc` says so, an access of a NoC master. -/
def outputOf (k : Nat) (noc : Bool) (s : Block) : Output → Bool
  | .grant _ w => fld w 99 92 == k
  | .hostWrite _ ws => fld (ws.headD 0) 55 48 == k
  | .hostMsg addr data => (List.range 16).any fun v =>
      fld (reg s (ctxKey k) (0x380 + 16 * v)) 63 2 * 4 == addr && fld (reg s (ctxKey k) (0x388 + 16 * v)) 31 0 == data
  | .wayMask c _ => c == k
  | .nocRead _ addr _ => noc && !(sharedAccess s addr)
  | .nocWrite _ addr _ => noc && !(sharedAccess s addr)
  | .nocWriteBytes _ addr _ _ => noc && !(sharedAccess s addr)
  | _ => false

/-- What a command did for a context in one twin is undone: its entries, and the items it put on the Bridge towards it. -/
def discardTwin (a : Block) (k : Nat) (t : TwinId) (s : Block) : Block :=
  let o := tw a t
  upTw t (fun w => { w with
    edgeIn := unsendItems (fun i => edgeOwner s i == some k) o.edgeIn w.edgeIn
    claimIn := unsendItems (fun i => claimOwner s i == some k) o.claimIn w.claimIn
    cat := { w.cat with nodes := keepOld (fun n => n.ctx == k) {} o.cat.nodes w.cat.nodes }
    desk := { w.desk with recs := w.desk.recs.filter fun p => p.2.ctx != k || (mapGet {} o.desk.recs p.1).st != .free }
    shelf := { w.shelf with shards := keepOld (fun e => e.ctx == k) {} o.shelf.shards w.shelf.shards }
    bank := { w.bank with ents := keepOld (fun e => e.ctx == k) {} o.bank.ents w.bank.ents }
    office := { w.office with
      tubes := keepOld (fun e => e.ctx == k) {} o.office.tubes w.office.tubes
      bowls := keepOld (fun e => e.ctx == k) {} o.office.bowls w.office.bowls } }) s

/-- What a command did for a context is undone: its entries, the items it put on the Bridge, its requests of the notifier, and
what it drove, its grants with it. So the use of a poisoned word is discarded, and the context's fence follows (R353; log
entry 49). -/
def discardUse (a : Block) (k : Nat) (s : Block) : Block :=
  let s1 := discardTwin a k .t1 (discardTwin a k .t0 s)
  let s2 := upCtx k (fun c => { c with notifyQ := (ctxOf a k).notifyQ, head := (ctxOf a k).head }) s1
  let noc := onlyNodesOf k a s
  { s2 with engines := mapAll {} (regain a k) s2.engines, out := s2.out.filter fun o => !(outputOf k noc s2 o) }

/-! ### Consuming an injection (R355) -/

/-- A word that a command reads: its twin, its group, and its place in the group. -/
structure SramWord where
  twin : TwinId := .t0
  group : Nat := 0
  word : Nat := 0
  deriving DecidableEq, Repr

/-- The word of a group that a command read: one that it names, or one that its step used. -/
def wordRead (a s : Block) (ws : List SramWord) (t : TwinId) (g : Nat) : Option Nat :=
  match ws.find? fun x => x.group == g && (pairGroup g || (x.twin == t && serves a t)) with
  | some x => some x.word
  | none => groupRead a s t g

/-- An armed injection is consumed by the command that reads a word of its group, and handled in full; a use of the word
of a context that the error fences is discarded (R353, R355). -/
def consumeOne (a : Block) (ws : List SramWord) (key inj : Nat) (s : Block) : Block :=
  let g := fld inj 55 48
  let t := injTwin a s key g
  match wordRead a s ws t g, groupInfo g with
  | some w, some i =>
    let double := fld inj 57 56 == 2
    let owner := if double && i.cls == .ctx then wordOwner a t g w else none
    let s1 := match owner with
      | some k => if (ctxOf a k).st = .opened then discardUse a k s else s
      | none => s
    sramError t g (w / i.words) (w % i.words) double true (upPage key (fun p => { p with inj := inj % 2 ^ 63 }) s1)
  | _, _ => s

/-- Both pages of the duplicated tables have a double-bit error armed, and so the next read finds both copies poisoned
(R353; log entry 49). -/
def bothCopies (a : Block) : Bool :=
  [blkKey, pwrKey].all fun key =>
    let inj := (pageOf a key).inj
    bitOf inj 63 && fld inj 57 56 == 2 && fld inj 55 48 == 0x22

/-- Every armed injection is tested against what a command read, from the state before it. -/
def consumeInjections (a : Block) (ws : List SramWord) (s : Block) : Block :=
  let s1 := forEach (a.pages.filter fun p => bitOf p.2.inj 63) (fun p s => consumeOne a ws p.1 p.2.inj s) s
  if bothCopies a && (wordRead a s ws .t0 0x22).isSome then pairFatal s1 else s1

end Sys2Proof.Machine
end

