-- ==== Sys2Proof/Machine/Pair.lean ====
section
/-! DEFINITION. Twins and degraded operation (14 R359 to R371, R374): becoming fatal, the takeover latch, takeover, detach,
rejoin, recovery and the archive dump. -/

namespace Sys2Proof.Machine

def setSvc (t : TwinId) (x : TwinSt) (s : Block) : Block := upTw t (fun w => { w with svc := x }) s

/-! ### Becoming fatal (R360, R369) -/

/-- CAUSE_T0 or CAUSE_T1 takes a cause. -/
def setCause (t : TwinId) (cause : Nat) (s : Block) : Block :=
  upPair (fun p => match t with
    | .t0 => { p with cause0 := cause, causeTime := s.time }
    | .t1 => { p with cause1 := cause, causeTime := s.time }) s

/-- What the loss of a twin means for its partner (R369): a detach before its handover is abandoned; with the partner out
of service the pair is fatal, and a partner that was rejoining returns to DETACHED. A twin IN_SERVICE again is asked again
(R326). -/
def partnerOnFatal (t : TwinId) (s : Block) : Block :=
  let p := partner t
  match (tw s p).svc with
  | .detaching =>
    if s.pair.driver.isNone then resendAsks p (upPair (fun x => { x with op := none, handed := false }) (setSvc p .inService s))
    else pairFatal s
  | .inService => s
  | .rejoining =>
    if s.pair.handed then s else pairFatal (upPair (fun x => { x with op := none, handed := false }) (setSvc p .detached s))
  | _ => pairFatal s

/-- A fatal twin's Archivist tests no bank of the pair island any more (R356): its test there is given up. -/
def dropPairTest (t : TwinId) (s : Block) : Block :=
  if (tw s t).rel.test.any fun b => pairGroup b.group then dropTest t s else s

/-- A detach or rejoin in progress on a twin that fails ends with it (R366, R369). -/
def dropPairOp (t : TwinId) (s : Block) : Block :=
  match s.pair.op with
  | some (_, d) => if d = t then upPair (fun p => { p with op := none, handed := false }) s else s
  | none => s

/-- Credits that waited for a halted twin are lost with it (R360). -/
def dropSteps (t : TwinId) (s : Block) : Block :=
  { s with heldSteps := s.heldSteps.filter fun w => stepTwin w != some t }

/-- A twin becomes fatal (R360, R369, R326): it serves nothing more, sends FATAL, and a freeze follows where ON_FATAL asks
for one. A twin that is fatal already takes no further effect. -/
def twinFatal (t : TwinId) (cause : Nat) (s : Block) : Block :=
  let st := (tw s t).svc
  if st = .fatal then s
  else
    let was := serves s t
    let s1 := dropPairTest t (setCause t cause (setSvc t .fatal s))
    let s2 := dropPairOp t s1
    let s3 := if was then partnerOnFatal t s2 else s2
    let s4 := sendCtrl (partner t) .fatal s3
    let s5 := arbiterLose t (dropSteps t (upTw t (fun w => { w with edgeIn := [], claimIn := [] }) s4))
    if bitOf (reg s blkKey 0x250) 4 then raiseFreeze t s5 else s5

/-! ### Heartbeats, the watchdog and the latch (R361) -/

/-- A twin asks for the takeover latch; with the pair fatal no twin is left to serve, and none asks (R369). -/
def askLatch (t : TwinId) (s : Block) : Block :=
  if s.pair.latch = some t ∨ s.pair.asks.contains t = true ∨ s.pair.isFatal = true then s
  else upPair (fun p => { p with asks := p.asks ++ [t] }) s

/-- HEARTBEAT arrives from the partner. -/
def heartbeat (t : TwinId) (s : Block) : Block :=
  if serves s (partner t) then upRel t (fun r => { r with beatAt := s.ticks }) s else s

/-- HEARTBEAT_TIMEOUT: 4,096 dc have passed without a heartbeat from a partner that is IN_SERVICE. -/
def heartbeatTimeout (t : TwinId) (s : Block) : Block :=
  if serves s t ∧ (tw s (partner t)).svc = .inService then askLatch t (setErr (twKey t relP) 4 s) else s

/-- WATCHDOG: the firmware has not restarted the watchdog in time (R360); it runs from step 7 of bring-up on (R399),
which a bring-up that FAILED has not reached. -/
def watchdog (t : TwinId) (s : Block) : Block :=
  if bitOf (reg s (twKey t relP) 0x138) 63 ∧ (tw s t).svc ≠ .fatal ∧ 7 ≤ s.phase ∧ s.phase ≤ 9 then
    twinFatal t 4 (setErr (twKey t relP) 5 s)
  else s

/-- REL.WDOG_KICK is written (R373). -/
def wdogKick (t : TwinId) (v : Nat) (s : Block) : Block :=
  if bitOf v 0 then upRel t (fun r => { r with kickAt := s.ticks }) s else s

/-- FATAL arrives from the partner. -/
def fatalAt (t : TwinId) (s : Block) : Block :=
  match takeCtrl t (fun i => i == .fatal) s with
  | some (_, s1) => if serves s t then askLatch t s1 else s1
  | none => s

/-! ### Takeover (R362, R363) -/

/-- An engine of one of a twin's own ports (R2, R19). -/
def ownPort (t : TwinId) (e : Nat) : Bool :=
  match groupOf e with
  | some g => primaryOfGroup g == t
  | none => false

/-- The rack groups of a twin's own ports. -/
def ownGroups (t : TwinId) : List Nat := (List.range 152).filter fun g => primaryOfGroup g == t

/-- Every claim forwarded to the lost twin is treated as newly sampled (R103, R362): the engines of the lost twin's own ports hold
none any more. -/
def recallClaims (s : Block) : Block :=
  let cs := s.engines.flatMap fun p => (p.2.claims.filter (·.fwd)).map fun c => (p.1, c.seq)
  let es := (cs.map (·.1)).eraseDups
  forEach cs (fun p s => countHeld p.1 p.2 s) (forEach es resample (forEach es (fun e s => upEng e (fun x => { x with
    claims := x.claims.map fun c => { c with fwd := false, noFwd := 0 } }) s) s))

/-- The engines of the lost twin's ports leave service (R143 step 1, R362): their groups are no candidates, and what is
racked there is placed again; the survivor counts them. -/
def loseEngines (sv f : TwinId) (s : Block) : Block :=
  let s1 := { s with engines := mapAll {} (fun e x =>
    if ownPort f e then { x with inService := false, claims := [], tasks := [] } else x) s.engines }
  let lost := (s.engines.filter fun p => ownPort f p.1 && p.2.inService).length
  forEach (ownGroups f) (sweepGroup sv) (bump (twKey sv shlfP) 0x78 lost s1)

/-- Every cluster of the lost twin's ports is DIRTY, and the needs that it owed are the survivor's own (R156, R362). -/
def oweFlushes (sv f : TwinId) (s : Block) : Block :=
  let cs := (List.range 128).filter fun c => primaryOfGroup c == f
  let s1 := forEach cs (fun c s => upFlush c (fun x => { tag := x.tag, dirty := true }) s) s
  let owed := (tw s1 sv).ret.reqs
  let s2 := upTw sv (fun w => { w with ret := { w.ret with reqs := [] } }) s1
  forEach owed (fun p s =>
    match p.2.1, p.2.2 with
    | some c, w => localNeed c w s
    | none, .fence t id =>
      forEach cs (fun c s => localNeed c (.fence t id) s)
        (upTw t (fun w => { w with ret := { w.ret with
          fences := w.ret.fences.map fun x => if x.id = id then { x with left := x.left + (cs.length - 1) } else x } }) s)
    | none, w => localNeed 0 w s) s2

/-- The nodes of the proxy-out lists are relinked into the survivor's own pool groups (R362). -/
def relinkProxies (sv : TwinId) (s : Block) : Block :=
  forEach (tw s sv).rack.proxyOut (fun p s => forEach p.2 (fun x s =>
    let id := nodeIdOf sv x
    upLane sv (nodeLane s p.1 (nodeOf s id)) (fun l => { l with slots := l.slots ++ [x] })
      (releaseReservation id (proxyLeave id p.1 s))) s) s

/-- The context has a range enabled in a twin (R70, R127, R256, R282). -/
def usesTwin (s : Block) (t : TwinId) (k : Nat) : Bool :=
  let c := ctxTw s t k
  [c.nodeRange, c.fwdRange, c.mirRange, c.varRange, c.shardRange, c.tallyRange, c.tubeRange, c.bowlRange].any rangeEn

/-- The contexts homed in a twin, or with a range enabled in it, that are not CLOSED. -/
def ctxsIn (s : Block) (t : TwinId) : List Nat :=
  (s.ctxs.filter fun p => p.2.st != .closed && (p.2.home == t || usesTwin s t p.1)).map (·.1)

/-- A context of the lost twin is fenced with TWIN_LOST (R307, R362, R363): it awaits the combined teardown, unless it is
DOWN or its teardown is in hand in the survivor, which then waits for the lost twin no longer. -/
def loseCtx (sv : TwinId) (k : Nat) (s : Block) : Block :=
  let c := ctxOf s k
  let inHand := (tw s sv).faultQ.any fun e => e.step != .queued && (entCtxs e).contains k
  let joins := c.st != .down && !inHand
  let s1 := if joins then upTw sv (fun w => { w with combined := w.combined ++ [k] }) s else s
  let s2 := raiseFault sv k 0x91 0 s1
  upTw sv (fun w => { w with faultQ := (w.faultQ.filter fun e => !(e.step == .queued && e.ctx == k)).map fun e =>
    if e.step = .sweep then { e with swept := true, step := .wait } else e }) s2

/-- Moves of the survivor that awaited the lost twin's acknowledgement go on without it (R126, R136). -/
def freeMoves (sv : TwinId) (s : Block) : Block :=
  let xs := ((tw s sv).shelf.moves.filter fun m => !m.locAck).map fun m => m.want.shard
  forEach xs (fun x s => sealCopy x (upMove x (fun m => { m with locAck := true }) s)) s

/-- Nothing of the lost twin's work on a context holds a window of the survivor any more (R72). -/
def freeSweeps (f : TwinId) (s : Block) : Block :=
  upTw f (fun w => { w with ctxs := mapAll {} (fun _ c => { c with
    sweep := .none, sweepBusy := false, closing := false, marker := false, pendMir := [] }) w.ctxs }) s

/-- A twin that takes its partner's ports over starts their counters from zero (R378). -/
def zeroPorts (t owner : TwinId) (s : Block) : Block :=
  upObs t (fun o => { o with ports := o.ports.filter fun p => primaryOfGroup p.1 != owner }) s

/-- The survivor takes over from the fatal twin (R362). -/
def takeover (sv : TwinId) (s : Block) : Block :=
  let f := partner sv
  let s1 := upTw sv (fun w => { w with
    edgeIn := [], claimIn := [], ctrlIn := [], rack := { w.rack with sumRx := [], sumAt := [] } }) (zeroPorts sv f s)
  let s2 := upPair (fun p => { p with driver := some sv, sweeping := true }) s1
  let s3 := recallClaims (loseEngines sv f s2)
  let s4 := relinkProxies sv (oweFlushes sv f s3)
  let s5 := forEach (ctxsIn s4 f) (loseCtx sv) s4
  let s6 := dropBuffered sv (dropCmds f (fun _ => true) (freeSweeps f (freeMoves sv s5)))
  pushWork ((tw s6 f).crossing.map .crossing) (upTw f (fun w => { w with crossing := [] }) s6)

/-- LATCH_ANSWER: the latch answers the oldest request (R361): the winner's partner is fatal, with HEARTBEAT where it had
said nothing and LATCH_LOST where it had asked too, and the winner takes over; a loser becomes fatal. -/
def latchAnswer (s : Block) : Block :=
  match s.pair.asks with
  | [] => s
  | t :: rest =>
    let s1 := upPair (fun p => { p with asks := rest }) s
    if (tw s t).svc = .fatal ∨ s.pair.isFatal = true then s1
    else if s.pair.latch.isSome then twinFatal t 7 s1
    else
      let s2 := upPair (fun p => { p with latch := some t }) s1
      takeover t (twinFatal (partner t) (if rest.contains (partner t) then 7 else 5) s2)

/-- A dump is started where DUMP_BASE.EN asks for one (R370). -/
def startDump (f : TwinId) (s : Block) : Block :=
  if bitOf (reg s blkKey 0x110) 63 && !s.pair.isFatal then
    upPair (fun p => { p with dumpBusy := true, dumpTwin := f }) s
  else s

/-- RECORD_SWEEP_END: every record of the survivor that names an engine of the lost twin's ports is closed, and its node
is READY and placed again; the dump may start (R362, R370). -/
def recordSweepEnd (t : TwinId) (s : Block) : Block :=
  if s.pair.latch = some t ∧ s.pair.sweeping = true ∧ live s t = true then
    let f := partner t
    let rs := (tw s t).desk.recs.filter fun p =>
      (p.2.st == .issued || p.2.st == .accepted) && ownPort f p.2.eng
    startDump f (upPair (fun p => { p with sweeping := false })
      (forEach rs (fun p s => returnNode p.2.node p.2.gen false s) s))
  else s

/-! ### Commands of BLK.PAIR_CTL (R365 to R368, R374) -/

def pairStatus (st : Nat) (s : Block) : Block := upPair (fun p => { p with status := st }) s

/-- A PAIR_CTL write is taken unless a command is in progress (R374). -/
def pairCtl (f : Block → Block) (s : Block) : Block := if s.pair.op.isSome then s else f s

/-- STATUS of a DETACH: the first case of R365 that holds. -/
def detachStatus (s : Block) (d : TwinId) : Nat :=
  if (tw s d).svc ≠ .inService then 1
  else if (tw s (partner d)).svc ≠ .inService then 4
  else if !(ctxsIn s d).isEmpty then 2
  else if (tw s d).thrd.ents.any fun p => p.2.st != .free then 3
  else 0

/-- PAIR_CTL DETACH (R365, R366 steps 1 and 2); the arbiter waits for no answer of the twin's Desk, which has no thread
(R326). -/
def detach (d : TwinId) (s : Block) : Block :=
  let st := detachStatus s d
  if st ≠ 0 then pairStatus st s
  else
    sendBack d true (fun _ => true) (arbiterLose d (pairStatus 0
      (upPair (fun p => { p with op := some (.detach, d), handed := false }) (setSvc d .detaching s))))

/-- The twin that hands ports over, and the twin whose ports they are: a detach hands the detaching twin's ports to its
partner, a rejoin hands them back (R366, R367). -/
def drainer (s : Block) : Option (TwinId × TwinId) :=
  match s.pair.op with
  | some (.detach, d) => if s.pair.handed then none else some (d, d)
  | some (.rejoin, d) => if s.pair.handed then none else some (partner d, d)
  | _ => none

/-- A RESYNC has not arrived yet (R367 step 1). -/
def resyncing (s : Block) : Bool := (tw s .t0).ctrlIn.contains .resync || (tw s .t1).ctrlIn.contains .resync

/-- No task is counted, no forwarded claim is unanswered and no flush is outstanding on a twin's own ports, and every proxy
copy on its way to the twin has arrived, and been sent back (R366 steps 2 and 3). -/
def drained (s : Block) (d : TwinId) : Bool :=
  !(s.engines.any fun p => ownPort d p.1 && (!p.2.tasks.isEmpty || p.2.claims.any (·.fwd)))
    && !(s.flushes.any fun p => primaryOfGroup p.1 == d && p.2.out) && (tw s d).desk.heldGrants.isEmpty
    && !((tw s d).claimIn.any fun i => match i with
      | .proxy _ => true
      | _ => false)

/-- DETACH_DRAINED: HANDOVER is sent (R366 steps 3 and 4). -/
def detachDrained (t : TwinId) (s : Block) : Block :=
  match drainer s with
  | some (h, d) =>
    if h = t ∧ live s t = true ∧ drained s d = true ∧ resyncing s = false then
      sendCtrl (partner t) (.handover { dirty := (s.flushes.filter fun p =>
          primaryOfGroup p.1 == d && p.2.dirty).map (·.1) })
        (upPair (fun p => { p with handed := true }) s)
    else s
  | none => s

/-- An engine that still counts a task when the wait is over leaves service (R366 step 3). -/
def drainLimit (t : TwinId) (s : Block) : Block :=
  match drainer s with
  | some (h, d) =>
    if h = t ∧ live s t = true then
      forEach ((s.engines.filter fun p => ownPort d p.1 && !p.2.tasks.isEmpty).map (·.1)) removeEngine s
    else s
  | none => s

/-- ENGINE_WAIT_LIMIT: the wait of a teardown, or of a drain of ports, has lasted WAIT µs (R305, R366). -/
def engineWaitLimit (t : TwinId) (s : Block) : Block :=
  match (tw s t).faultQ with
  | e :: _ => if e.step = .wait then teardownWaitLimit t s else drainLimit t s
  | [] => drainLimit t s

/-- The claims that the engines of a twin's ports hold are treated as newly sampled (R366). -/
def resamplePorts (d : TwinId) (s : Block) : Block :=
  forEach ((s.engines.filter fun p => ownPort d p.1 && !p.2.claims.isEmpty).map (·.1)) resample s

/-- What each twin knows of the other's groups, as the ports pass between them (R143). -/
def syncService (s : Block) : Block :=
  let one (t : TwinId) (s : Block) : Block :=
    upTw t (fun w => { w with shelf := { w.shelf with
      served := (List.range 152).foldl (fun m g => mapSet false m g (primary s g != t && groupServed s g)) [] } }) s
  one .t1 (one .t0 s)

/-- HANDOVER arrives: the ports, the DIRTY mask and the held claims pass to the receiver (R366 step 4, R367 steps 2
and 3). A rejoining twin is then IN_SERVICE, and the latch is released. -/
def handoverAt (t : TwinId) (s : Block) : Block :=
  match takeHeld t (fun i => match i with
    | .handover _ => true
    | _ => false) s with
  | some (.handover h, s1) =>
    match s1.pair.op with
    | some (op, d) =>
      let s2 := forEach h.dirty (fun c s => upFlush c (fun f => { f with dirty := true }) s) s1
      if op = .rejoin then
        let s3 := upPair (fun p => { p with driver := none, op := none, handed := false, latch := none })
          (setSvc d .inService s2)
        let pools := (tw s3 (partner d)).rack.lanes.flatMap fun q =>
          if isPool (q.1 / 64) && primary s3 (q.1 / 64) == d then q.2.slots.map fun _ => q.1 / 64 else []
        pushWork (pools.map fun g => .retryProxy (partner d) g) (resendAsks d (resamplePorts d (syncService s3)))
      else resamplePorts d (zeroPorts t d (upPair (fun p => { p with driver := some t }) s2))
    | none => s1
  | _ => s

/-- The range registers of a context in a twin, the rest of its part clear (R419). -/
def rangesOnly (c : CtxTw) : CtxTw :=
  { nodeRange := c.nodeRange, fwdRange := c.fwdRange, mirRange := c.mirRange, varRange := c.varRange,
    shardRange := c.shardRange, tallyRange := c.tallyRange, tubeRange := c.tubeRange, bowlRange := c.bowlRange }

/-- A twin's SRAMs are zeroed (R366 step 5): registers and the error log stay (R419), and so do the counters of the TALY page,
which the always-on island keeps (R377). The full self-test takes the place of a targeted test in hand. -/
def zeroTwin (t : TwinId) (s : Block) : Block :=
  let s1 := upTw t (fun w => {
    cat := { walked := w.cat.walked, bucket := w.cat.bucket, lastFault := w.cat.lastFault },
    acc := { lastRefusal := w.acc.lastRefusal },
    rack := { sumTx := mapAll (0, 0) (fun _ p => (0, p.2)) w.rack.sumTx, sumRx := w.rack.sumRx, sumAt := w.rack.sumAt },
    desk := { high := w.desk.high, lastErr := w.desk.lastErr },
    shelf := { lastFault := w.shelf.lastFault },
    ret := { lastFault := w.ret.lastFault },
    lard := { high := w.lard.high, lastFault := w.lard.lastFault },
    sort := { lastFault := w.sort.lastFault },
    bake := { position := w.bake.position },
    bank := { owed := w.bank.owed + w.bank.buf.length, events := w.bank.events,
              lastDrop := w.bank.lastDrop, lastFault := w.bank.lastFault },
    office := { lastFault := w.office.lastFault },
    obs := { wr := w.obs.wr, rd := w.obs.rd, wfgStat := w.obs.wfgStat, invData := w.obs.invData,
             opts := mapAll {} (fun _ o => { o with value := 0 }) w.obs.opts },
    thrd := { stat := w.thrd.stat, lastErr := w.thrd.lastErr },
    ctxs := mapAll {} (fun _ c => rangesOnly c) w.ctxs,
    rel := { w.rel with queue := [], test := none },
    svc := w.svc }) (dropTest t (dropCmds t (fun _ => true) s))
  { s1 with pages := mapAll {} (fun key p =>
      if twKey t 0 ≤ key ∧ key < twKey t 16 ∧ key ≠ twKey t talyP then { p with ctrs := [] } else p) s1.pages }

/-- FULL_SELF_TEST_END of a detach or a recovery (R366 step 5, R368). -/
def selfTestEnd (t : TwinId) (fails : List (Nat × Nat × List Nat)) (logicOk : Bool) (s : Block) : Block :=
  let r := endFullTest t fails logicOk (zeroTwin t (upPair (fun p => { p with op := none, handed := false }) s))
  match s.pair.op with
  | some (.detach, d) => if d = t ∧ s.pair.driver = some (partner t) then setSvc t .detached r.1 else s
  | some (.recover, d) =>
    if d ≠ t then s
    else if r.2 then setSvc t .detached r.1
    else twinFatal t 8 r.1
  | _ => s

/-- STATUS of a REJOIN (R367). -/
def rejoinStatus (s : Block) (d : TwinId) : Nat :=
  let r := (tw s d).rel.testStat
  if bitOf r 63 && !(bitOf r 62) then 5
  else if (tw s d).svc ≠ .detached ∨ (tw s (partner d)).svc ≠ .inService then 1
  else 0

/-- PAIR_CTL REJOIN: the twins exchange RESYNC (R367 step 1). -/
def rejoin (d : TwinId) (s : Block) : Block :=
  let st := rejoinStatus s d
  if st ≠ 0 then pairStatus st s
  else
    sendCtrl (partner d) .resync (sendCtrl d .resync
      (pairStatus 0 (upPair (fun p => { p with op := some (.rejoin, d), handed := false }) (setSvc d .rejoining s))))

/-- RESYNC arrives: every channel toward the twin restarts empty (R367). -/
def resyncAt (t : TwinId) (s : Block) : Block :=
  if (tw s t).ctrlIn.contains .resync then
    upTw t (fun w => { w with edgeIn := [], claimIn := [], ctrlIn := (w.ctrlIn.dropWhile (· != .resync)).tail }) s
  else s

/-- PAIR_CTL FAIL: the twin becomes fatal with cause FORCED (R360). -/
def failTwin (t : TwinId) (s : Block) : Block := twinFatal t 6 (pairStatus 0 s)

/-- PAIR_CTL RECOVER (R368): the logic of the twin's island and its Archivist are reset, its registers kept (R419). Refused
while the twin is not FATAL, a dump of it is in progress, or the pair is fatal
(R369). -/
def recover (t : TwinId) (s : Block) : Block :=
  if (tw s t).svc ≠ .fatal ∨ s.pair.dumpBusy = true ∨ s.pair.isFatal = true then pairStatus 1 s
  else
    pairStatus 0 (upPair (fun p => { p with op := some (.recover, t), handed := false })
      (zeroTwin t (setSvc t .recovering s)))

/-- BLK.PAIR_STAT (R374), but for ERR_ANY. -/
def svcCode : TwinSt → Nat
  | .inService => 0
  | .detaching => 1
  | .detached => 2
  | .rejoining => 3
  | .fatal => 4
  | .recovering => 5

end Sys2Proof.Machine
end

