-- ==== Sys2Proof/Machine/Inventory.lean ====
section
/-! DEFINITION. The words of every object that software may read by index (15 R391; 02 R36 to R44; 04 R106, R113, R120;
08 R234), and the read of the Inventory port. -/

namespace Sys2Proof.Machine

/-- The value of a register with the half of an access replaced (R9). -/
def mergeAcc (old : Nat) (acc : Access) (v : Nat) : Nat :=
  match acc with
  | .full => v
  | .lo => old / 2 ^ 32 * 2 ^ 32 + v % 2 ^ 32
  | .hi => old % 2 ^ 32 + v % 2 ^ 32 * 2 ^ 32

/-- STATE of a node (R38). -/
def nodeStCode : NState → Nat
  | .free => 0
  | .loading => 1
  | .waiting => 2
  | .ready => 3
  | .granted => 4
  | .done => 5
  | .skipped => 6
  | .faulted => 7

/-- The four words of a node record (R36, R40 to R42). -/
def nodeWords (n : Node) : List Nat :=
  [nodeStCode n.st * 2 ^ 61 + n.mode * 2 ^ 59 + n.kind * 2 ^ 54 + b2n n.lc * 2 ^ 53 + n.level * 2 ^ 50
     + n.ctx * 2 ^ 42 + n.gen * 2 ^ 34 + b2n n.sealBit * 2 ^ 33 + b2n n.mirrorEn * 2 ^ 32 + n.larder * 2 ^ 24 + n.cf,
   n.mask * 2 ^ 40 + n.scope * 2 ^ 38 + n.load * 2 ^ 36 + n.affinity * 2 ^ 18 + n.stash,
   n.succBase * 2 ^ 41 + n.succLen * 2 ^ 29 + n.mirror * 2 ^ 9 + n.rsv2,
   n.desc * 2 ^ 22 + n.layer * 2 ^ 10 + n.rsv3]

/-- The element that follows another in a list. -/
def after (x : Nat) : List Nat → Option Nat
  | a :: b :: l => if a = x then some b else after x (b :: l)
  | _ => none

/-- Every list of a twin that links nodes through NEXT_SLOT (R44). -/
def slotLists (w : Twin) : List (List Nat) :=
  w.rack.lanes.map (fun p => p.2.slots) ++ w.rack.proxyOut.map (fun p => p.2)
    ++ w.ctxs.map (fun p => p.2.holdNodes) ++ w.ctxs.map (fun p => p.2.unplace)
    ++ w.shelf.waits.map (fun p => p.2.nodes) ++ [w.shelf.insWait] ++ w.cat.wheel.map (fun p => p.2)

/-- The side entry of a node slot (R44). -/
def sideWord (s : Block) (t : TwinId) (x : Nat) : Nat :=
  let n := mapGet {} (tw s t).cat.nodes x
  let next := (slotLists (tw s t)).findSome? (after x)
  (next.getD 0) * 2 ^ 45 + b2n next.isSome * 2 ^ 44 + b2n n.skipPend * 2 ^ 43 + b2n n.region * 2 ^ 42
    + b2n n.backward * 2 ^ 41 + b2n n.inserted * 2 ^ 40 + b2n n.cfSet * 2 ^ 39 + n.origKind * 2 ^ 34
    + b2n n.wcount * 2 ^ 33 + n.initCount

/-- RACK.LIST_STAT of a list of slots with further copies (R113). -/
def listStat (slots : List Nat) (copies cached : Nat) : Nat :=
  (slots.length + copies) * 2 ^ 44 + (slots.headD 0) * 2 ^ 25 + (slots.getLastD 0) * 2 ^ 6 + cached * 2 ^ 4

def laneStat (l : Lane) : Nat := listStat l.slots l.copies.length (laneCached l)

/-- STATE of a circulation record (R106): 0 while it is reserved or held. -/
def recStCode : RecState → Nat
  | .issued => 1
  | .accepted => 2
  | _ => 0

def recWords (r : CircRec) : List Nat :=
  [recStCode r.st * 2 ^ 62 + r.node * 2 ^ 42 + r.gen * 2 ^ 34,
   r.time * 2 ^ 32 + r.epoch * 2 ^ 24 + r.ctx * 2 ^ 16 + b2n r.via * 2 ^ 15 + b2n r.bwd * 2 ^ 14 + r.eng]

/-- DESK.ENGINE_STAT of an engine of the twin's ports; zero for another (R120). -/
def engineStat (s : Block) (t : TwinId) (e : Nat) : Nat :=
  match groupOf e with
  | none => 0
  | some g =>
    if primary s g ≠ t then 0
    else
      let x := engOf s e
      b2n x.inService * 2 ^ 63 + b2n (x.tasks.any fun k => !k.accepted) * 2 ^ 62 + b2n x.lastV * 2 ^ 61
        + x.lastCtx * 2 ^ 53 + x.tasks.length * 2 ^ 47 + x.claims.length * 2 ^ 41
        + (x.claims.filter (·.fwd)).length * 2 ^ 35

/-- The words of a Tube, those of its endpoints as the Inventory has read them (R261, R282). -/
def tubeAll (s : Block) (x : Nat) : List Nat :=
  let e := tubeOf s x
  [tubeWord0 e, tubeWord1 e] ++ (tw s (tubeTwin x)).obs.invEp

def narrowWord (e : Narrow) : Nat := b2n e.valid * 2 ^ 63 + e.ctx * 2 ^ 48 + e.cluster * 2 ^ 40 + e.node

def waitWord (e : WaitEnt) : Nat :=
  b2n e.valid * 2 ^ 63 + b2n e.moving * 2 ^ 62 + e.shard * 2 ^ 44 + e.nodes.length * 2 ^ 24 + e.copy

def rebakeStCode : RebakeState → Nat
  | .dormant => 0
  | .triggered => 1
  | .running => 2

/-- The words of a re-bake entry (R391): entries of 12 bits, 0xFFF for none. -/
def rebakeWords (e : Rebake) : List Nat :=
  let ent (l : List Nat) (i : Nat) : Nat := if e.valid then l.getD i 0xFFF else 0
  let pack (l : List Nat) (first n : Nat) : Nat :=
    (List.range n).foldl (fun a i => a + ent l (first + i) * 2 ^ (12 * i)) 0
  [b2n e.valid * 2 ^ 63 + rebakeStCode e.st * 2 ^ 61 + e.depth * 2 ^ 58 + e.ctx * 2 ^ 48 + e.g * 2 ^ 20 + e.r,
   pack e.inputs 0 5, pack e.inputs 5 3 + pack e.consumers 0 2 * 2 ^ 36, pack e.consumers 2 2]

def batchStCode : BatchState → Nat
  | .free => 0
  | .opened => 1
  | .reading => 2
  | .writing => 3
  | .resolved => 4
  | .cancelled => 5

/-- SORT.BATCH_STAT of a slot (R234). -/
def batchStat (s : Block) (t : TwinId) (x : Nat) : Nat :=
  let b := batchOf s t x
  batchStCode b.st * 2 ^ 61 + b2n b.listEnd * 2 ^ 60 + b.ctx * 2 ^ 52 + b.epoch * 2 ^ 36
    + (if b.st = .free then 0 else bindings s (epochSelOf t x)) * 2 ^ 21 + b.route

/-- The rack of a context (R391, class 14): holding, unplaceable, insertion wait. -/
def ctxRackStat (s : Block) (t : TwinId) (i : Nat) : Nat :=
  let k := i / 4
  let c := ctxTw s t k
  match i % 4 with
  | 0 => listStat c.holdNodes c.holdCopies.length 0
  | 1 => listStat c.unplace 0 0
  | _ => listStat ((tw s t).shelf.insWait.filter fun x => (nodeOf s (nodeIdOf t x)).ctx == k) 0 0

/-- The words of an object; none for a class or index outside the table (R391). -/
def invObject (s : Block) (t : TwinId) (cls i : Nat) : Option (List Nat) :=
  let w := tw s t
  let within (n : Nat) (l : List Nat) : Option (List Nat) := if i < n then some l else none
  match cls with
  | 1 => within 524288 (nodeWords (mapGet {} w.cat.nodes i))
  | 2 => within 524288 [sideWord s t i]
  | 3 => within (152 * 64) [laneStat (laneOf s t i)]
  | 4 => within 65536 (recWords (recOf s t i))
  | 5 => if (groupOf i).isSome then some [engineStat s t i] else none
  | 6 =>
    let e := mapGet {} w.shelf.shards i
    within 131072 [shardWord0 e, e.w1, e.w2]
  | 7 => within 131072 (tallyWords (mapGet {} w.bank.ents i))
  | 8 => within 32768 (tubeAll s (twinNum t * 32768 + i))
  | 9 => within 512 (bowlWords (mapGet {} w.office.bowls i))
  | 10 => within 2048 (threadWords (mapGet {} w.thrd.ents i))
  | 11 => within 4096 [narrowWord (mapGet {} w.ret.narrow i)]
  | 12 => within 2048 [waitWord (mapGet {} w.shelf.waits i)]
  | 13 => within 4096 (rebakeWords (mapGet {} w.lard.table i))
  | 14 => if i < 1024 ∧ i % 4 ≠ 3 then some [ctxRackStat s t i] else none
  | 15 => within 64 [batchStat s t i]
  | _ => none

/-- A write of INV.SEL starts the read of an object (R391); the endpoints of a Tube are read through the NoC master (R260). -/
def invSel (t : TwinId) (acc : Access) (v : Nat) (s : Block) : Block :=
  let w := mergeAcc (reg s (twKey t invP) 0x100) acc v
  let s1 := setReg (twKey t invP) 0x100 (fld w 63 56 * 2 ^ 56 + fld w 23 0) s
  let s2 := upTw t (fun x => { x with obs := { x.obs with invBusy := true, invData := [], invEp := [0, 0, 0] } }) s1
  if (invObject s2 t (fld w 63 56) (fld w 23 0)).isNone then setErr (twKey t invP) 1 s2
  else if fld w 63 56 = 8 then invReadTube (twinNum t * 32768 + fld w 23 0) s2
  else s2

/-- INV_READ_DONE: the words have landed; each is the word as it stands (R391). It waits for the endpoints of a Tube. -/
def invReadDone (t : TwinId) (s : Block) : Block :=
  let w := reg s (twKey t invP) 0x100
  let waits := fld w 63 56 == 8 && invReading s (twinNum t * 32768 + fld w 23 0)
  if !((tw s t).obs.invBusy) || waits then s
  else
    let o := invObject s t (fld w 63 56) (fld w 23 0)
    let s1 := upTw t (fun x => { x with obs := { x.obs with invBusy := false, invData := o.getD [] } }) s
    if o.isSome then bump (twKey t invP) 0x40 1 s1 else s1

end Sys2Proof.Machine
end

