-- ==== Sys2Proof/Machine/Observe.lean ====
section
/-! DEFINITION. Observation (15 R378 to R393): the freeze and the halt, optional counters, the Day Book's ring, the
wait-for graph and high-water marks. -/

namespace Sys2Proof.Machine

/-! ### Optional counters (R379, R380) -/

/-- START or STOP of the counters FIRST to LAST; ignored with FIRST above LAST. -/
def optCmd (t : TwinId) (start : Bool) (first last : Nat) (s : Block) : Block :=
  if first > last then s
  else
    let one (m : SMap OptCtr) (i : Nat) : SMap OptCtr :=
      let o := mapGet {} m i
      mapSet {} m i (if start then { o with run := true, value := 0 } else { o with run := false })
    let s1 := upTw t (fun w => { w with obs := { w.obs with
      opts := ((List.range (last + 1)).drop first).foldl one w.obs.opts } }) s
    if start then bump (twKey t cntP) 0x48 1 s1 else s1

/-! ### The freeze (R381 to R383) -/

/-- The counters of the pair as they stand. -/
def snapshot (s : Block) : Frozen :=
  { pages := (s.pages.filter fun p => !p.2.ctrs.isEmpty).map fun p => (p.1, p.2.ctrs),
    ports0 := s.tw0.obs.ports, ports1 := s.tw1.obs.ports, opts0 := s.tw0.obs.opts, opts1 := s.tw1.obs.opts }

/-- A freeze is raised by a write of BLK.FREEZE_CTL, with the twins to halt; the request to halt goes with the raise when
that is not ignored. -/
def freezeCmd (twins : Nat) (s : Block) : Block :=
  if s.freeze.pending || s.freeze.frozen.isSome then raiseFreeze .t0 s
  else
    let s1 := raiseFreeze .t0 s
    { s1 with freeze := { s1.freeze with haltReq := twins % 4 } }

/-- FREEZE_ITEM: the partner learns the tick of the freeze. -/
def freezeItem (t : TwinId) (s : Block) : Block :=
  match takeCtrl t (fun i => match i with
    | .freeze _ => true
    | _ => false) s with
  | some (_, s1) => s1
  | none => s

/-- The owner of a context is the manager (R284, R392). -/
def ownedByManager (s : Block) (k : Nat) : Bool :=
  let o := (ctxOf s k).owner
  let m := s.mgmt.manager
  bitOf o 63 && bitOf m 63 && fld o 10 0 == fld m 10 0

/-- HALT_STATUS of a request to halt a twin (R392). -/
def haltRefusal (s : Block) (t : TwinId) : Nat :=
  if (ctxsIn s t).any fun k => (ctxOf s k).st != .down && !(ownedByManager s k) then 1
  else if (tw s t).svc ≠ .inService then 2
  else 0

/-- One twin of the request: halted, or the halt refused. -/
def haltOne (t : TwinId) (s : Block) : Block :=
  if !(bitOf s.freeze.haltReq (twinNum t)) then s
  else
    let r := haltRefusal s t
    if r = 0 then upTw t (fun w => { w with halted := true }) s
    else if s.freeze.haltStatus = 0 then { s with freeze := { s.freeze with haltStatus := r } }
    else s

/-- The FREEZE or THAW record of a twin (R383). -/
def freezeRec (thaw : Bool) (t : TwinId) (s : Block) : Block :=
  if serves s t then trace t 0x0B none 0 (b2n thaw) 0 0 s else s

/-- FREEZE_APPLY: both twins apply the freeze that is pending, at the second tally tick after the one of its raise, and the
halt asked for with it (R16, R381 to R383, R392). -/
def freezeApply (s : Block) : Block :=
  if !s.freeze.pending || decide (s.ticks < s.freeze.tick + 2) then s
  else
    let s1 := { s with freeze := { s.freeze with
      pending := false, frozen := some (snapshot s), tickNs := s.time % 2 ^ 48, haltStatus := 0 } }
    let s2 := bump (twKey .t1 cntP) 0x40 1 (bump (twKey .t0 cntP) 0x40 1 s1)
    let s3 := freezeRec false .t1 (freezeRec false .t0 s2)
    let s4 := haltOne .t1 (haltOne .t0 s3)
    { s4 with freeze := { s4.freeze with haltReq := 0 } }

/-- THAW is written: the view ends at the next tally tick (R383). -/
def thawCmd (s : Block) : Block :=
  if s.freeze.frozen.isSome && !s.freeze.thawing then
    { s with freeze := { s.freeze with thawing := true, thawTick := s.ticks } }
  else s

/-- A halted twin resumes: it drives the grants kept for ports whose holds have ended, takes the steps that fell to it, samples the
words that waited in its crossings, and its held claims are treated as sampled anew (R393). -/
def resume (t : TwinId) (s : Block) : Block :=
  if !((tw s t).halted) then s
  else
    let ws := (tw s t).crossing
    let mine := s.heldSteps.filter fun w => stepTwin w == some t
    let s0 := upTw t (fun w => { w with halted := false, crossing := [] })
      { s with heldSteps := s.heldSteps.filter fun w => stepTwin w != some t }
    let kept := ((tw s t).desk.heldGrants.map fun h => (groupOf h.word.eng).getD 0).eraseDups
    let s1 := forEach (kept.filter fun g => !(portHeld s g)) driveKept s0
    let es := (s1.engines.filter fun p => primary s1 ((groupOf p.1).getD 0) == t && !p.2.claims.isEmpty).map (·.1)
    pushWork (mine ++ .unbound 0 :: ws.map .crossing) (resendAsks t (forEach es resample s1))

/-- THAW_APPLY: the view ends, and any halt, once a tally tick has come after THAW (R383, R393). -/
def thawApply (s : Block) : Block :=
  if !s.freeze.thawing || decide (s.ticks ≤ s.freeze.thawTick) then s
  else
    let s1 := { s with freeze := { s.freeze with frozen := none, thawing := false } }
    resume .t1 (resume .t0 (freezeRec true .t1 (freezeRec true .t0 s1)))

/-- A tally tick finds neither a freeze nor the end of a view that fell due at the tick before (R381, R383). -/
def viewTick (s : Block) : Block := thawApply (freezeApply s)

/-- HALT_LIMIT: the twin has been halted for the halt limit (R393). -/
def haltLimit (t : TwinId) (s : Block) : Block :=
  if (tw s t).halted then resume t { s with freeze := { s.freeze with haltStatus := 3 } } else s

/-! ### The Day Book's ring (R384, R385, R389) -/

/-- RING_WRITE_ACK: the oldest staged record lies in the ring, and WR advances (R385); with the room that it leaves a LOST
record is staged where records were dropped, then the WAIT records that waited for room, and the next record is driven (R384,
R390). -/
def ringWriteAck (t : TwinId) (s : Block) : Block :=
  if !(tw s t).obs.ringOut then s
  else
    let s1 := upObs t (fun o => { o with staged := o.staged.tail, wr := o.wr + 1, ringOut := false }) s
    let s2 := stageLost t (bump (twKey t daybP) 0x40 1 s1)
    driveRing t (stageWaits t (tw s2 t).obs.wfgOut (upObs t (fun o => { o with wfgOut := [] }) s2))

/-- RING_IO: a ring write returned an error, and EN goes to 0 (R389). -/
def ringIo (t : TwinId) (s : Block) : Block :=
  let key := twKey t daybP
  if (tw s t).obs.ringOut then
    setErr key 1 (setReg key 0x100 (setFld (reg s key 0x100) 63 63 0) (upObs t (fun o => { o with ringOut := false }) s))
  else s

/-- A write of DAYB.RD: accepted between RD and WR (R385). -/
def daybRdWrite (t : TwinId) (acc : Access) (v : Nat) (s : Block) : Block :=
  let o := (tw s t).obs
  let n := mergeAcc o.rd acc v
  if o.rd ≤ n ∧ n ≤ o.wr then upTw t (fun w => { w with obs := { w.obs with rd := n } }) s else s

/-- RING_BASE is written (R389): BASE and SIZE_LOG2 only while EN is 0; setting EN zeroes WR and RD, and what is staged is
written. DESIGN CHOICE (log entry 54): the answer of a write that is out as EN goes to 0 is ignored. -/
def ringBaseWrite (t : TwinId) (v : Nat) (s : Block) : Block :=
  let key := twKey t daybP
  let old := reg s key 0x100
  if bitOf old 63 then
    let on := bitOf v 63
    setErr key 0 (setReg key 0x100 (setFld old 63 63 (b2n on))
      (upObs t (fun o => { o with ringOut := o.ringOut && on }) s))
  else
    let s1 := setReg key 0x100 (b2n (bitOf v 63) * 2 ^ 63 + fld v 47 16 * 2 ^ 16 + fld v 4 0) s
    if bitOf v 63 then driveRing t (upObs t (fun o => { o with wr := 0, rd := 0 }) s1) else s1

/-! ### The wait-for graph (R390) -/

def ctxNodes (s : Block) (k : Nat) : List Nat :=
  (nodesOf s .t0 k).map (nodeIdOf .t0) ++ (nodesOf s .t1 k).map (nodeIdOf .t1)

/-- How many edges of a list name a target, watch edges apart. -/
def naming (id : Nat) (l : List Nat) : Nat := (l.filter fun w => edgeKind w != 3 && edgeTarget w == id).length

/-- The node has still to send what its lists hold: it is neither DONE nor SKIPPED (R390). -/
def unsent (n : Node) : Bool := n.st != .done && n.st != .skipped && n.st != .free

/-- Waits on predecessors: an edge of their lists, or their own completion for their mirror node. -/
def predWaits (s : Block) (ids : List Nat) (id : Nat) : List Wait :=
  ids.flatMap fun m =>
    let n := nodeOf s m
    if unsent n then
      let c := naming id (listOf s m) + (if isMirrored n && n.mirror == id then 1 else 0)
      List.replicate c { waiter := id, kind := 1, on := m, detail := nodeStCode n.st }
    else []

/-- Waits on armed tallies: watch edges at or after CURSOR. -/
def tallyWaits (s : Block) (k id : Nat) : List Wait :=
  [TwinId.t0, TwinId.t1].flatMap fun t =>
    ((tw s t).bank.ents.filter fun p => p.2.st == .armed && p.2.ctx == k).flatMap fun p =>
      ((List.range p.2.watchLen).drop p.2.cursor).filterMap fun i =>
        let w := fwdWord s t (p.2.watchBase % 2 ^ 22 + i)
        if edgeTarget w = id then
          some { waiter := id, kind := 3, on := twinNum t * 131072 + p.1, detail := edgeAux w * p.2.step - p.2.count }
        else none

/-- Waits on batches that are not resolved. -/
def batchWaits (s : Block) (k id : Nat) : List Wait :=
  [TwinId.t0, TwinId.t1].flatMap fun t =>
    (tw s t).sort.slots.flatMap fun p =>
      if p.2.ctx = k ∧ (p.2.st = .opened ∨ p.2.st = .reading ∨ p.2.st = .writing) then
        (p.2.edges.filter fun c => edgeTarget c.word == id).map fun _ =>
          { waiter := id, kind := 4, on := epochSelOf t p.1, detail := batchStCode p.2.st }
      else []

/-- Waits on deferred credits. -/
def flushWaits (s : Block) (k id : Nat) : List Wait :=
  [TwinId.t0, TwinId.t1].flatMap fun t =>
    ((tw s t).ret.deferred.filter fun d => d.ctx == k && d.stage != .ready).flatMap fun d =>
      (d.credits.filter fun c => edgeTarget c.word == id).map fun _ =>
        { waiter := id, kind := 6, on := if d.stage = .flush then d.eng / 64 else 0xFFFFF, detail := s.time - d.since }

/-- Waits on loss seeds never sent: a mirrored node that is done, with successors, none of them mirrored (R181). -/
def seedWaits (s : Block) (ids : List Nat) (id : Nat) : List Wait :=
  ids.filterMap fun m =>
    let n := nodeOf s m
    if isMirrored n ∧ n.mirror = id ∧ n.kind ≠ kRebake ∧ n.succLen > 0 ∧ (n.st = .done ∨ n.st = .skipped)
        ∧ (listOf s m).all (fun w => !(isMirrored (nodeOf s (edgeTarget w)))) = true then
      some { waiter := id, kind := 10, on := m }
    else none

/-- The waits of a waiting node, with what stays unexplained of a counter. -/
def waitingWaits (s : Block) (k : Nat) (ids : List Nat) (id : Nat) : List Wait :=
  let n := nodeOf s id
  let found := predWaits s ids id ++ tallyWaits s k id ++ batchWaits s k id ++ flushWaits s k id ++ seedWaits s ids id
  if n.mode = 0 ∧ n.cf > found.length then found ++ [{ waiter := id, kind := 13, detail := n.cf - found.length }] else found

/-- The one wait that holds a READY node, by the rack it lies in. -/
def readyWait (s : Block) (id : Nat) : List Wait :=
  let t := homeOf id
  let x := slotOf id
  let n := nodeOf s id
  let c := ctxTw s t n.ctx
  let w : Wait := { waiter := id }
  if c.holdNodes.contains x then
    let d := domainOfGroup n.heldIn
    if n.heldCap then [{ w with kind := 7, on := d, detail := leftOf s t n.ctx d }]
    else [{ w with kind := 8, on := n.ctx, detail := inflight s t n.ctx }]
  else if c.unplace.contains x then [{ w with kind := 9, on := n.kind }]
  else
    let claim (g : Nat) : List Wait :=
      if (groupClaims s g).isEmpty then [{ w with kind := 11, on := g, detail := s.time - n.rackedAt }] else []
    match (tw s t).shelf.waits.find? (fun p => p.2.nodes.contains x) with
    | some (_, e) => [{ w with kind := 5, on := e.shard, detail := e.copy }]
    | none =>
      if (tw s t).shelf.insWait.contains x then [{ w with kind := 5, on := n.affinity }]
      else match laneHolding s t x, proxyGroup s id with
        | some g, _ => claim g
        | none, some g => claim g
        | none, none =>
          match (tw s t).ret.fences.find? (fun f => f.node == id) with
          | some f =>
            let cl := (s.flushes.find? fun p => p.2.out).map (·.1)
            [{ w with kind := 6, on := if f.left > 0 then cl.getD 0 else 0xFFFFF, detail := s.time - f.since }]
          | none =>
            match (tw s t).ret.narrow.find? (fun p => p.2.node == id && p.2.wait.isSome) with
            | some (_, e) => [{ w with kind := 6, on := e.cluster, detail := s.time - e.since }]
            | none => []

/-- The engine that runs a GRANTED node. -/
def grantedWait (s : Block) (id : Nat) : List Wait :=
  match findRec s (homeOf id) (fun r => (r.st == .issued || r.st == .accepted) && r.node == id) with
  | some (_, r) => [{ waiter := id, kind := 2, on := r.eng, detail := (s.time % 2 ^ 32 + 2 ^ 32 - r.time) % 2 ^ 32 }]
  | none => []

def nodeWaits (s : Block) (k : Nat) (ids : List Nat) (id : Nat) : List Wait :=
  let n := nodeOf s id
  (match n.st with
   | .waiting => waitingWaits s k ids id
   | .ready => readyWait s id
   | .granted => grantedWait s id
   | _ => []).map fun (w : Wait) => { w with cf := n.cf }

/-- Open Tubes of the context without credits whose receiver holds messages. -/
def tubeWaits (s : Block) (k : Nat) : List Wait :=
  [TwinId.t0, TwinId.t1].flatMap fun t =>
    (tw s t).office.tubes.filterMap fun p =>
      let e := p.2
      let r := rxWaiting (recvOf s (rxKeyOf e))
      if e.st = .opened ∧ e.ctx = k ∧ (sendOf s (txKeyOf e)).credits = 0 ∧ r > 0 then
        some { tube := true, waiter := twinNum t * 32768 + p.1, kind := 12, on := e.rx, detail := min 4095 r }
      else none

/-- Every wait of a context. -/
def waitsOf (s : Block) (k : Nat) : List Wait :=
  let ids := ctxNodes s k
  ids.flatMap (nodeWaits s k ids) ++ tubeWaits s k

/-- The waiter no longer waits on what it did (R390). -/
def staleWait (now : List Wait) (w : Wait) : Bool :=
  !(now.any fun v => v.tube == w.tube && v.waiter == w.waiter && v.kind == w.kind && v.on == w.on)

/-- A WAIT record, with STALE as the re-read of its waiter shows (R390). -/
def waitRec (time : Nat) (t : TwinId) (k : Nat) (now : List Wait) (w : Wait) : TraceRec :=
  traceWord time t 0x10 (some k) (if w.tube then 0 else w.waiter)
    (b2n w.tube * 2 ^ 16 + (if w.tube then w.waiter else 0))
    (w.kind * 2 ^ 60 + (w.on % 2 ^ 20) * 2 ^ 40 + w.detail % 2 ^ 40)
    ((w.cf % 2 ^ 24) * 2 ^ 8 + b2n (staleWait now w) * 2 ^ 7)

/-- The waits left once those on nodes that wait on no node have been taken away, again and again; the fuel is their
number. What is left holds a cycle. -/
def prune : Nat → List (Nat × Nat) → List (Nat × Nat)
  | 0, l => l
  | f + 1, l => prune f (l.filter fun p => l.any fun q => q.1 == p.2)

def hasCycle (ws : List Wait) : Bool :=
  let l := (ws.filter fun w => w.kind == 1).map fun w => (w.waiter, w.on)
  !(prune l.length l).isEmpty

/-- STATUS of a GO, the first that applies: ring disabled, context not homed here, halted. -/
def wfgStatus (s : Block) (t : TwinId) (all : Bool) (k : Nat) : Nat :=
  if !(bookOn s t) then 1
  else if !all && ((ctxOf s k).st == .closed || (ctxOf s k).home != t) then 2
  else if (tw s t).halted then 3
  else 0

/-- The contexts of a graph (R389, R390). -/
def wfgCtxs (s : Block) (t : TwinId) (all : Bool) (k : Nat) : List Nat :=
  if all then (s.ctxs.filter fun p => p.2.st == .opened && p.2.home == t).map (·.1) else [k]

/-- WFG_CTL.GO: the assembly starts, and finds its waits, or ends at once with its STATUS; CYCLE and EDGES are those of the
last graph until it ends. DESIGN CHOICE (log entry 54): the waits are read in the step of GO, and the waiters again at the
end. -/
def wfgGo (t : TwinId) (all : Bool) (k : Nat) (s : Block) : Block :=
  if (tw s t).obs.wfgBusy then s
  else
    let st := wfgStatus s t all k
    let s1 := upObs t (fun o => { o with wfgStat := setFld o.wfgStat 59 56 st }) s
    if st ≠ 0 then s1
    else upObs t (fun o => { o with
      wfgBusy := true, wfgAll := all, wfgCtx := k,
      wfgWaits := (wfgCtxs s t all k).map fun k => (k, waitsOf s k) }) s1

/-- WFG_END: the graph has been assembled, and its WAIT records go to the home twin's ring, as staging has room for them. -/
def wfgEnd (t : TwinId) (s : Block) : Block :=
  let o := (tw s t).obs
  if !o.wfgBusy then s
  else
    let ws := o.wfgWaits
    let rs := ws.flatMap fun p => p.2.map (waitRec s.time t p.1 (waitsOf s p.1))
    let s1 := if bookOn s t then stageWaits t rs s else s
    let n := ws.foldl (fun a p => a + p.2.length) 0
    upObs t (fun o => { o with
      wfgBusy := false, wfgWaits := [], wfgStat := b2n (ws.any fun p => hasCycle p.2) * 2 ^ 62 + n % 2 ^ 32 }) s1

/-! ### High-water marks (R119, R209) -/

/-- The page that holds an HW_CLR field. -/
def hwClrP : HwClrPage → Nat
  | .desk => deskP
  | .lard => lardP

/-- HW_CLR: HIGH_WATER takes IN_USE. -/
def hwClr (t : TwinId) (page : HwClrPage) (s : Block) : Block :=
  match page with
  | .desk => upTw t (fun w => { w with desk := { w.desk with high := w.desk.recs.length } }) s
  | .lard => upTw t (fun w => { w with lard := { w.lard with high := w.lard.table.length } }) s

end Sys2Proof.Machine
end

