-- ==== Sys2Proof/Machine/Startup.lean ====
section
/-! DEFINITION. Reset and bring-up (16 R395 to R407), and the ownership of the test segments (01 R33). -/

namespace Sys2Proof.Machine

def upBoot (f : Boot → Boot) (s : Block) : Block := { s with boot := f s.boot }

/-! ### Phases (R397, R399, R405) -/

/-- The byte address of the boot area (R397). -/
def bootArea : Nat := 0x100000

/-- The twin that writes word 6 of the boot area. -/
def bootTwin (s : Block) : TwinId := if (tw s .t0).svc = .fatal then .t1 else .t0

/-- Word 6 of the boot area is written at each change of PHASE (R397). -/
def writePhase (s : Block) : Block :=
  emit (.nocWrite (bootTwin s) (bootArea + 48) [s.phase * 2 ^ 60 + s.boot.error * 2 ^ 56]) s

/-- PHASE and ERROR change. -/
def setPhase (p err : Nat) (s : Block) : Block :=
  writePhase { s with phase := p, boot := { s.boot with error := err } }

/-! ### Resets (R395, R396, R406) -/

/-- The block as a reset leaves it: what survives is global time, TIME.SLEW and the fuses. -/
def resetBlock (cause time : Nat) (slew : Int) (s : Block) : Block :=
  writePhase { tw0 := { cat := { walked := time / 1024 } }, tw1 := { cat := { walked := time / 1024 } },
               proof := { slew := slew }, boot := { cause := cause }, fuses := s.fuses, fuseBanks := s.fuseBanks,
               phase := 1, time := time }

/-- COLD_RESET: VDD_AON reaches power good. -/
def coldReset (s : Block) : Block := resetBlock 1 0 0 s

/-- PIN_RESET: the chip's reset controller asserts CTS_RST_N. -/
def pinReset (s : Block) : Block := if s.phase = 0 then s else resetBlock 2 s.time s.proof.slew s

/-- SOFT_RESET: BLK.RESET_CTL is written with its key (R396). -/
def softReset (v : Nat) (s : Block) : Block :=
  if fld v 63 48 = 0xC0DE ∧ bitOf v 0 = true then resetBlock 3 s.time s.proof.slew s else s

/-- A twin as a WAKE leaves it: its Tally Bank is kept, but for the bank's registers, and the events of its counters with it
(R395, R419). -/
def wakeTwin (time : Nat) (w : Twin) : Twin :=
  { cat := { walked := time / 1024 }
    bank := { ents := w.bank.ents, buf := w.bank.buf, owed := w.bank.owed, events := w.bank.events } }

/-- What a WAKE keeps of a page: the PWR page, and the TALY pages' counters (R419). -/
def wakePage (key : Nat) (p : Page) : Page :=
  if key = pwrKey then p
  else if key = twKey .t0 talyP ∨ key = twKey .t1 talyP then { ctrs := p.ctrs }
  else {}

/-- The switches of the three islands are closed (R399 step 2). -/
def powerIslands (s : Block) : Block :=
  emit (.islandPower .pair true) (emit (.islandPower .twin1 true) (emit (.islandPower .twin0 true) s))

/-- The Proofer as a WAKE leaves it (R395, R402, R419): its state is kept, the registers of the TIME page are not. Every domain
is stopped and is started again in its group, and what R402 skips of an initialisation under way counts as done. -/
def wakeProof (p : Proofer) : Proofer :=
  { p with
    begun := 0, slew := 0, load := none, init := if p.init = .idle then .idle else .done, initRails := []
    doms := mapAll {} (fun _ d => { d with portReady := false, serviced := false }) p.doms }

/-- HOST_WAKE: a WAKE runs from step 2; global time, the Tally Banks, the PWR page and the Proofer are kept (R395, R406). -/
def hostWake (s : Block) : Block :=
  if !s.boot.gated then s
  else
    powerIslands (writePhase {
      tw0 := wakeTwin s.time s.tw0, tw1 := wakeTwin s.time s.tw1,
      pages := mapAll {} wakePage s.pages, proof := wakeProof s.proof,
      boot := { cause := 4 }, fuses := s.fuses, fuseBanks := s.fuseBanks, phase := 2, ticks := s.ticks, time := s.time })

/-! ### Steps 1 to 5 (R398 to R400) -/

/-- DESK_CLOCK_LOCKED: step 1 has ended, and the islands are switched on. -/
def deskClockLocked (s : Block) : Block :=
  if s.phase = 1 then powerIslands (setPhase 2 0 (upBoot (fun b => { b with locked := true }) s)) else s

/-- ISLAND_POWER_GOOD: with all three islands good, their resets are released. -/
def islandPowerGood (i : Island) (s : Block) : Block :=
  if s.phase ≠ 2 ∨ s.boot.good.contains i = true then s
  else
    let s1 := upBoot (fun b => { b with good := b.good ++ [i] }) s
    if s1.boot.good.length = 3 then setPhase 3 0 s1 else s1

/-- The fuse shadows are loaded: the rows burned in each physical bank count as used, and the spare of a group stands in the
place of the bank whose replacement was burned (R399, R407). -/
def loadFuses (s : Block) : Block :=
  let rows := forEach s.fuses (fun p s =>
    let bank := p.1 % 256
    upSram (twinOf (p.1 / 65536)) (p.1 / 256 % 256) (fun x => { x with rows := mapSet 0 x.rows bank p.2 }) s) s
  forEach s.fuseBanks (fun p s =>
    let g := p.1 % 256
    upSram (twinOf (p.1 / 256)) g (fun x => { x with
      noSpare := true, retired := 1, place := mapSet 0 x.place (p.2 - 1) (dataBanks g + 1) }) s) rows

/-- The result of a twin's full self-test at step 5. -/
def testOf (b : Boot) : TwinId → Option Bool
  | .t0 => b.test0
  | .t1 => b.test1

/-- Both twins have failed their tests (R401). -/
def bothFailed (s : Block) : Bool := s.boot.test0 == some false && s.boot.test1 == some false

/-- A twin that is named FATAL at bring-up raises a freeze where ON_FATAL asks for one (R381, R401). -/
def fatalFreeze (t : TwinId) (s : Block) : Block := if bitOf (reg s blkKey 0x250) 4 then raiseFreeze t s else s

/-- Step 6 begins: each twin that passed, or ran no test, sends RESYNC (R401). -/
def beginJoin (s : Block) : Block :=
  let one (t : TwinId) (s : Block) : Block := if testOf s.boot t = some false then s else sendCtrl (partner t) .resync s
  setPhase 6 0 (one .t1 (one .t0 s))

/-- ZERO_END: step 3 ends with the fuses loaded, or step 5's zeroing ends. -/
def zeroEnd (s : Block) : Block :=
  if s.phase = 3 then setPhase 4 0 (loadFuses s)
  else if s.phase = 5 ∧ s.boot.test0.isSome = true ∧ s.boot.test1.isSome = true then
    if bothFailed s then
      setPhase 10 5 (fatalFreeze .t0 (pairFatal (setCause .t1 8 (setCause .t0 8 (setSvc .t1 .fatal (setSvc .t0 .fatal s))))))
    else beginJoin s
  else s

def polledOf (b : Boot) : TwinId → Bool
  | .t0 => b.polled0
  | .t1 => b.polled1

def loadedOf (b : Boot) : TwinId → Bool
  | .t0 => b.loaded0
  | .t1 => b.loaded1

/-- The owner of a segment (R33). -/
def segOwner (s : Block) : Segment → Option SegmentParty
  | .twin .t0 => s.mgmt.seg0
  | .twin .t1 => s.mgmt.seg1
  | .pairAon => s.mgmt.segAon

/-- The header is read by the ROM of Twin 0, once READY is 1 (R398). -/
def readBootHeader (t : TwinId) (s : Block) : Block := if t = .t0 then emit (.nocRead .t0 bootArea 64) s else s

/-- BOOT_POLL: the ROM of a twin reads word 7; a twin whose segment the TAP holds waits (R398, R399). -/
def bootPoll (t : TwinId) (answer : Option Nat) (s : Block) : Block :=
  if s.phase ≠ 4 ∨ polledOf s.boot t = true ∨ segOwner s (.twin t) = some .tap then s
  else
    let s1 := emit (.nocRead t (bootArea + 56) 8) s
    match answer with
    | some v =>
      if v % 2 ^ 32 = 1 then readBootHeader t (upBoot (fun b => match t with
        | .t0 => { b with polled0 := true }
        | .t1 => { b with polled1 := true }) s1)
      else s1
    | none => s1

/-- LENGTH of a header (R397). -/
def imageLen (header : List Nat) : Nat := header.getD 1 0 % 2 ^ 32

/-- The ERROR of a header (R398): MAGIC with VERSION, or LENGTH; 0 for none. -/
def headerError (header : List Nat) : Nat :=
  let len := imageLen header
  if fld (header.getD 0 0) 63 32 ≠ 0x43544657 ∨ fld (header.getD 0 0) 31 16 ≠ 1 then 1
  else if len < 4096 ∨ len > 524288 ∨ len % 4096 ≠ 0 then 2
  else 0

/-- The ERROR of a load (R398): a read that returned an error, of the header or of the image; the header; the CRC; 0 for
none. -/
def imageError (header : List Nat) (image : List Byte) (ioError : Bool) : Nat :=
  if ioError then 4
  else if headerError header ≠ 0 then headerError header
  else if header.getD 3 0 % 2 ^ 32 ≠ crc32c image then 3
  else 0

/-- The image is copied from offset 0x1000 of the boot area through the twin's NoC master (R397, R398), once the header has
passed. -/
def readImage (t : TwinId) (header : List Nat) (s : Block) : Block :=
  if headerError header = 0 then emit (.nocRead t (bootArea + 0x1000) (imageLen header)) s else s

/-- The image is in the Archivist's local memory, and the Archivist starts at ENTRY (R397, R398). -/
def startArchivist (t : TwinId) (header : List Nat) (image : List Byte) (s : Block) : Block :=
  upRel t (fun r => { r with image := image, entry := some (header.getD 2 0 % 2 ^ 32) })
    (upBoot (fun b => match t with
      | .t0 => { b with loaded0 := true, header := header }
      | .t1 => { b with loaded1 := true, header := header }) s)

/-- The full self-test applies (R397, R399 step 5). -/
def testApplies (b : Boot) : Bool := bitOf (b.header.getD 0 0) (if b.cause = 1 then 0 else 1)

/-- What a load has read: the header, and, where the header passed and no read returned an error, an image of its LENGTH. -/
def isLoad (header : List Nat) (image : List Byte) (ioError : Bool) : Bool :=
  header.length == 8 && (ioError || headerError header != 0 || image.length == imageLen header)

/-- IMAGE_LOAD_END: a twin's load engine ends. Where step 5 applies the twin begins its test at once (R399); with both images
loaded PHASE goes on. -/
def imageLoadEnd (t : TwinId) (header : List Nat) (image : List Byte) (ioError : Bool) (s : Block) : Block :=
  if s.phase ≠ 4 ∨ s.boot.polled0 = false ∨ polledOf s.boot t = false ∨ loadedOf s.boot t = true
      ∨ isLoad header image ioError = false then s
  else
    let err := imageError header image ioError
    let s1 := readImage t header s
    if err ≠ 0 then setPhase 10 err s1
    else
      let s2 := startArchivist t header image s1
      let s3 := upBoot (fun b => { b with tested := testApplies b }) s2
      if !(s3.boot.loaded0 && s3.boot.loaded1) then s3
      else if testApplies s3.boot then setPhase 5 0 s3
      else beginJoin s3

/-- A twin runs the test of step 5, which each twin begins when its own step 4 has ended (R399). -/
def testRuns (s : Block) (t : TwinId) : Bool :=
  (s.phase == 4 || s.phase == 5) && loadedOf s.boot t && testApplies s.boot && (testOf s.boot t).isNone

/-- FULL_SELF_TEST_END: a twin's full self-test ends, at step 5, in a detach or in a recovery (R366, R368, R400). -/
def fullSelfTestEnd (t : TwinId) (fails : List (Nat × Nat × List Nat)) (logicOk : Bool) (s : Block) : Block :=
  if testRuns s t then
    let r := endFullTest t fails logicOk s
    upBoot (fun b => match t with
      | .t0 => { b with test0 := some r.2 }
      | .t1 => { b with test1 := some r.2 }) r.1
  else selfTestEnd t fails logicOk s

/-! ### Steps 6 to 9 (R401 to R404) -/

/-- A twin is left FATAL at the join, and the other holds the latch and drives every port (R401). -/
def joinAlone (t : TwinId) (cause : Nat) (s : Block) : Block :=
  fatalFreeze t (upPair (fun p => { p with latch := some (partner t), driver := some (partner t) })
    (setCause t cause (setSvc (partner t) .inService (setSvc t .fatal s))))

/-- The twins as the join leaves them (R401). -/
def joined (ok0 ok1 : Bool) (s : Block) : Block :=
  if s.boot.test0 = some false then joinAlone .t0 8 s
  else if s.boot.test1 = some false then joinAlone .t1 8 s
  else if ok0 && ok1 then setSvc .t1 .inService (setSvc .t0 .inService s)
  else joinAlone .t1 2 s

/-- The RESYNC of the join has arrived before the pattern (R401). -/
def dropResync (t : TwinId) (s : Block) : Block :=
  upTw t (fun w => { w with ctrlIn := w.ctrlIn.filter (· != .resync) }) s

/-- PATTERN_CHECK_END: the join ends; the management cores enter service, and pool ports whose PORT_READY has come. A WAKE
starts the domains again, since the Proofer's rails are as they were (R401 to R403). -/
def patternCheckEnd (ok0 ok1 : Bool) (s : Block) : Block :=
  if s.phase ≠ 6 then s
  else
    let s1 := setPhase 7 0 (joined ok0 ok1 (dropResync .t1 (dropResync .t0 s)))
    let s2 := forEach (List.range 8) (fun c s => upCore c (fun k => { k with inService := true }) s) s1
    let s3 := upRel .t1 (fun r => { r with beatAt := s.ticks, kickAt := s.ticks })
      (upRel .t0 (fun r => { r with beatAt := s.ticks, kickAt := s.ticks }) s2)
    let s4 := if s.boot.cause = 4 ∧ s3.proof.init = .done then
        upProof (fun p => { p with init := .starting }) s3 else s3
    forEach ([144, 145, 146, 147, 148, 150] : List Nat) (fun p s =>
      if (domOf s p).portReady then portService p s else s) s4

/-- MANAGER_SET: the firmware names the manager, and PHASE becomes READY (R402, R405). -/
def managerSet (port fn : Nat) (s : Block) : Block :=
  if s.phase ≠ 7 then s
  else
    let s1 := { s with mgmt := { s.mgmt with manager := 2 ^ 63 + (port % 8) * 2 ^ 8 + fn % 256 } }
    setPhase 8 0 (upBoot (fun b => { b with readyUs := min (s.time / 1000) (2 ^ 32 - 1) }) s1)

/-- What R404 asks of a twin in service. -/
def twinReady (s : Block) (t : TwinId) : Bool :=
  !(serves s t)
    || ((List.range 16).all (fun p => (pageOf s (twKey t p)).enable)
        && bitOf (reg s (twKey t retP) 0x100) 63 && bitOf (reg s (twKey t shlfP) 0x100) 63)

def runReady (s : Block) : Bool :=
  (pageOf s blkKey).enable && (pageOf s timeKey).enable && (pageOf s fmtKey).enable && twinReady s .t0 && twinReady s .t1

/-- BOOT_CTL.RUN declares service when the checks of R404 hold. -/
def bootRun (v : Nat) (s : Block) : Block :=
  if s.phase ≠ 8 ∨ bitOf v 0 = false then s
  else if runReady s then setPhase 9 0 s
  else setPhase 8 6 s

/-! ### Fuses and segments (R33, R407) -/

/-- The fuses of a physical bank; the pair island's groups have one set. -/
def fuseKey (t : TwinId) (g bank : Nat) : Nat :=
  ((if pairGroup g then 0 else twinNum t) * 256 + g % 256) * 256 + bank % 256

/-- The group of a bank replacement's fuse. -/
def fuseBankKey (t : TwinId) (g : Nat) : Nat := fuseKey t g 0 / 256

/-- A physical data bank is out of use: retired, in no logical place, and no test has it offline (R357, R358). -/
def outOfUse (s : Block) (t : TwinId) (g bank : Nat) : Bool :=
  let x := sramOf s t g
  decide (bank < dataBanks g) && x.noSpare && decide (0 < x.retired)
    && !((tw s t).rel.test.any fun b => b.group == g && b.phys == bank)
    && (List.range (dataBanks g)).all fun l => physOf x g l != bank

/-- The owner of the segment through which the banks of a group are reached is the TAP (R33). -/
def tapHolds (s : Block) (t : TwinId) (g : Nat) : Bool :=
  segOwner s (if pairGroup g then .pairAon else .twin t) == some .tap

/-- What a burn of a physical bank would write: the replacement of the bank by its group's spare, or of one row of it. -/
def burned (t : TwinId) (g bank : Nat) (s : Block) : Option Block :=
  let key := fuseKey t g bank
  if outOfUse s t g bank && mapGet 0 s.fuseBanks (fuseBankKey t g) == 0 then
    some { s with fuseBanks := mapSet 0 s.fuseBanks (fuseBankKey t g) (bank + 1) }
  else if mapGet 0 s.fuses key < mapGet 0 (sramOf s t g).rows bank then
    some { s with fuses := mapSet 0 s.fuses key (mapGet 0 s.fuses key + 1) }
  else none

/-- FUSE_BURN: a replacement of a bank is burned, for the next reset, unless the TAP owns the segment; a burn that fails sets
UNTESTED (R33, R407). -/
def fuseBurn (t : TwinId) (g bank : Nat) (ok : Bool) (s : Block) : Block :=
  if ((tw s t).svc = .detached ∨ s.phase = 7) ∧ tapHolds s t g = false then
    match burned t g bank s with
    | some b => if ok then b else setErr (twKey t relP) 9 s
    | none => s
  else s

def setSeg (g : Segment) (o : Option SegmentParty) (s : Block) : Block :=
  { s with mgmt := match g with
    | .twin .t0 => { s.mgmt with seg0 := o }
    | .twin .t1 => { s.mgmt with seg1 := o }
    | .pairAon => { s.mgmt with segAon := o } }

/-- A party may open a segment now (R33): the TAP a twin's before bring-up or while the twin is detached or fatal, the
pair's before bring-up; an Archivist its own twin's, and the pair's where it tests the pair's groups. -/
def mayOpen (s : Block) (who : SegmentParty) (g : Segment) : Bool :=
  match who, g with
  | .tap, .twin t => decide (s.phase < 4) || (tw s t).svc == .detached || (tw s t).svc == .fatal
  | .tap, .pairAon => decide (s.phase < 4)
  | .archivist a, .twin t => a == t
  | .archivist a, .pairAon => relTwin s a 0x22 == a

/-- SEGMENT_OPEN: the first opener owns the segment; the other party's attempt is refused. -/
def segmentOpen (who : SegmentParty) (g : Segment) (s : Block) : Block :=
  if (segOwner s g).isSome || !(mayOpen s who g) then s else setSeg g (some who) s

/-- SEGMENT_CLOSE: only the owner closes a segment. -/
def segmentClose (who : SegmentParty) (g : Segment) (s : Block) : Block :=
  if segOwner s g = some who then setSeg g none s else s

end Sys2Proof.Machine
end

