-- ==== Sys2Proof/Machine/Registers.lean ====
section
/-! DEFINITION. Register writes (00 R6 to R10; 17 R408 to R420): which bits of a register a write changes, what is locked,
what only the manager may change, and the actions that writes trigger. -/

namespace Sys2Proof.Machine

/-! ### Pages and accesses (R9, R408) -/

/-- The key of a page. -/
def keyOf : PageId → Nat
  | .blk => blkKey
  | .pwr => pwrKey
  | .time => timeKey
  | .fmt => fmtKey
  | .twin t p => twKey t p.toNat
  | .ctx k => ctxKey k.toNat

/-- What an offset from CTS_BASE reaches (R10, R408): a page and the offset in it, the window of a context, or nothing. -/
inductive Place where
  | page (key off : Nat)
  | window (k : Nat)
  | reserved
  deriving DecidableEq, Repr

def placeOf (a : Nat) : Place :=
  if a < 0x4000 then .page (a / 0x1000) (a % 0x1000)
  else if 0x100000 ≤ a ∧ a < 0x110000 then .page (16 + (a - 0x100000) / 0x1000) (a % 0x1000)
  else if 0x200000 ≤ a ∧ a < 0x210000 then .page (32 + (a - 0x200000) / 0x1000) (a % 0x1000)
  else if 0x400000 ≤ a ∧ a < 0x500000 then .page (256 + (a - 0x400000) / 0x1000) (a % 0x1000)
  else if 0x1000000 ≤ a ∧ a < 0x2000000 then .window ((a - 0x1000000) / 0x10000)
  else .reserved

/-- The access that a size and offset make, where R9 gives it one. -/
def accessOf (off size : Nat) : Option Access :=
  if size = 8 ∧ off % 8 = 0 then some .full
  else if size = 4 ∧ off % 8 = 0 then some .lo
  else if size = 4 ∧ off % 8 = 4 then some .hi
  else none

/-- The bits of a register that an access covers. -/
def accMask : Access → Nat
  | .full => 2 ^ 64 - 1
  | .lo => 2 ^ 32 - 1
  | .hi => 2 ^ 64 - 2 ^ 32

/-- The data of an access where it lies in its register, the other half zero. -/
def placed (acc : Access) (v : Nat) : Nat := mergeAcc 0 acc v % 2 ^ 64

def covers (acc : Access) (bit : Nat) : Bool := bitOf (accMask acc) bit

/-! ### Which bits are what (R7, R409, R413, R420) -/

/-- Bits [hi:lo] as a mask. -/
def ones (hi lo : Nat) : Nat := (2 ^ (hi + 1 - lo) - 1) * 2 ^ lo

/-- The bits of ERR_STAT that a page defines. -/
def errBits (ty : Nat) : Nat :=
  match ty with
  | 0x01 => 0xFF03
  | 0x02 => 0xFF3F
  | 0x03 => 0x1
  | 0x04 => 0xFF07
  | 0x10 => 0xFF07
  | 0x11 => 0xFF07
  | 0x12 => 0xFF07
  | 0x13 => 0xFF1F
  | 0x14 => 0xFF0F
  | 0x15 => 0xFF0F
  | 0x16 => 0xFF07
  | 0x17 => 0xFF03
  | 0x18 => 0xFF0F
  | 0x19 => 0xFF0F
  | 0x1A => 0xFF03
  | 0x1B => 0xFF0F
  | 0x1C => 0xFF3F
  | 0x1D => 0xFF01
  | 0x1E => 0xFF03
  | 0x1F => 0xFF03
  | _ => 0xF

/-- EN in [63] and BASE in [47:6]: the layout of the base registers. -/
def baseBits : Nat := 2 ^ 63 + ones 47 6

/-- The RW bits of a register that is stored as written. -/
def rwMask (ty off : Nat) : Nat :=
  match ty, off with
  | 0x01, 0x110 => 2 ^ 63 + ones 47 20
  | 0x01, 0x200 => ones 7 0
  | 0x01, 0x228 => baseBits
  | 0x01, 0x230 => ones 31 0
  | 0x01, 0x238 => ones 15 0
  | 0x01, 0x250 => ones 5 4
  | 0x01, 0x260 => ones 15 0
  | 0x02, 0x100 => ones 7 0
  | 0x02, 0x118 => ones 47 0
  | 0x02, 0x120 => 2 ^ 63 + ones 58 56 + ones 43 32 + ones 11 0
  | 0x02, 0x130 => 2 ^ 63 + ones 17 15 + ones 6 0
  | 0x02, 0x138 => ones 47 40 + ones 25 16 + ones 9 0
  | 0x02, _ => if 0x140 ≤ off ∧ off ≤ 0x178 ∧ off % 8 = 0 then ones 26 16 + ones 9 0 else 0
  | 0x03, 0x180 => ones 22 16 + ones 10 0
  | 0x04, 0x100 => ones 7 0
  | 0x04, 0x118 => ones 11 0
  | 0x10, 0x100 => ones 7 0
  | 0x11, 0x118 => ones 26 24 + ones 21 0
  | 0x12, 0x100 => ones 7 0
  | 0x12, 0x110 => ones 5 0
  | 0x12, 0x120 => ones 7 0
  | 0x12, 0x130 => ones 6 0
  | 0x13, 0x100 => ones 31 16 + ones 4 0
  | 0x13, 0x110 => ones 13 0
  | 0x14, 0x100 => 2 ^ 63 + ones 24 16 + ones 8 0
  | 0x14, 0x108 => ones 47 6
  | 0x14, 0x110 => ones 7 0
  | 0x15, 0x100 => baseBits
  | 0x15, 0x108 => ones 31 16 + ones 7 0
  | 0x15, 0x110 => baseBits
  | 0x15, 0x118 => baseBits
  | 0x17, 0x100 => ones 5 0
  | 0x18, 0x100 => ones 7 0
  | 0x19, 0x100 => ones 7 0
  | 0x19, 0x130 => baseBits
  | 0x1A, 0x100 => ones 9 0
  | 0x1A, 0x118 => ones 12 0
  | 0x1B, 0x100 => 2 ^ 63 + ones 47 12
  | 0x1B, 0x108 => ones 15 0
  | 0x1B, 0x110 => ones 11 0
  | 0x1B, 0x118 => ones 60 59 + ones 56 39 + ones 35 24
  | 0x1B, 0x140 => ones 2 0
  | 0x1C, 0x100 => ones 5 0
  | 0x1C, 0x120 => ones 7 0
  | 0x1C, 0x130 => 2 ^ 63 + ones 9 0
  | 0x1C, 0x138 => 2 ^ 63 + ones 15 0
  | 0x1D, 0x100 => ones 7 0
  | 0x1D, 0x118 => ones 11 0
  | 0x20, 0x100 => ones 39 24 + 2
  | 0x20, 0x138 => ones 4 0
  | 0x20, 0x230 => ones 63 32
  | 0x20, 0x238 => ones 17 0
  | 0x20, 0x248 => ones 63 19 + ones 15 0
  | 0x20, 0x250 => ones 16 0
  | 0x20, 0x2C0 => ones 17 0
  | 0x20, 0x2C8 => ones 63 58 + ones 55 0
  | 0x20, 0x2D0 => ones 63 40 + ones 31 0
  | 0x20, 0x2D8 => ones 63 33
  | 0x20, 0x2F0 => ones 15 0
  | 0x20, 0x2F8 => ones 45 32 + ones 29 16 + ones 10 8 + ones 2 0
  | 0x20, 0x300 => ones 20 12 + ones 9 0
  | 0x20, 0x330 => ones 9 0
  | 0x20, 0x338 => ones 60 56 + ones 31 24 + ones 15 0
  | 0x20, 0x340 => ones 47 6
  | 0x20, 0x348 => ones 63 51 + ones 47 12 + ones 7 4
  | 0x20, 0x350 => ones 50 40 + ones 19 0
  | 0x20, _ => if 0x380 ≤ off ∧ off ≤ 0x470 ∧ off % 16 = 0 then ones 63 2 else 0
  | _, _ => 0

/-- The bits of a register that are locked while PAGE_CTRL.ENABLE of the page is 1 (R418). -/
def lockedByEnable (ty off : Nat) : Nat :=
  match ty, off with
  | 0x13, 0x100 => ones 4 0
  | 0x14, 0x100 => rwMask ty off
  | 0x14, 0x108 => rwMask ty off
  | 0x15, 0x100 => rwMask ty off
  | 0x15, 0x110 => rwMask ty off
  | 0x15, 0x118 => rwMask ty off
  | 0x19, 0x130 => rwMask ty off
  | 0x1B, 0x100 => rwMask ty off
  | 0x1C, 0x138 => rwMask ty off
  | 0x02, _ => if 0x130 ≤ off ∧ off ≤ 0x178 then rwMask ty off else 0
  | _, _ => 0

/-- The bits of a register that are locked now (R418). -/
def lockedMask (s : Block) (key off : Nat) : Nat :=
  let ty := pageType key
  if ty = 0x20 ∧ off = 0x230 then (if (ctxOf s (key - 256)).st = .closed then 0 else ones 63 32)
  else if (ty = 0x01 ∧ off = 0x228) ∨ (ty = 0x03 ∧ off = 0x180) then (if anyOpen s then rwMask ty off else 0)
  else if (pageOf s key).enable then lockedByEnable ty off else 0

/-- The manager-only bits of a context-page register (R286). -/
def managerOnly (ty off : Nat) : Nat :=
  if ty ≠ 0x20 then 0
  else match off with
    | 0x100 => 2 ^ 64 - 1
    | 0x208 => ones 40 32
    | 0x218 => 2 ^ 64 - 1
    | 0x220 => 2 ^ 64 - 1
    | 0x228 => 2 ^ 64 - 1
    | 0x230 => 2 ^ 64 - 1
    | _ => 0

/-! ### Range registers (R70, R127, R212, R256, R282) -/

/-- The range registers of the twin pages. -/
inductive RangeReg where
  | node | fwd | mir | var | shard | tally | tube | bowl
  deriving DecidableEq, Repr

/-- The range register at an offset of a twin page. -/
def rangeAt (ty off : Nat) : Option RangeReg :=
  match ty, off with
  | 0x10, 0x108 => some .node
  | 0x10, 0x110 => some .fwd
  | 0x10, 0x118 => some .mir
  | 0x10, 0x120 => some .var
  | 0x14, 0x118 => some .shard
  | 0x18, 0x108 => some .tally
  | 0x19, 0x108 => some .tube
  | 0x19, 0x110 => some .bowl
  | _, _ => none

def rangeGet (c : CtxTw) : RangeReg → Nat
  | .node => c.nodeRange
  | .fwd => c.fwdRange
  | .mir => c.mirRange
  | .var => c.varRange
  | .shard => c.shardRange
  | .tally => c.tallyRange
  | .tube => c.tubeRange
  | .bowl => c.bowlRange

def rangeSet (v : Nat) (c : CtxTw) : RangeReg → CtxTw
  | .node => { c with nodeRange := v }
  | .fwd => { c with fwdRange := v }
  | .mir => { c with mirRange := v }
  | .var => { c with varRange := v }
  | .shard => { c with shardRange := v }
  | .tally => { c with tallyRange := v }
  | .tube => { c with tubeRange := v }
  | .bowl => { c with bowlRange := v }

def rangeMask : RangeReg → Nat
  | .node => 2 ^ 63 + ones 24 16 + ones 8 0
  | .fwd => 2 ^ 63 + ones 25 16 + ones 9 0
  | .mir => 2 ^ 63 + ones 41 32 + ones 25 16 + ones 9 0
  | .var => 2 ^ 63 + ones 50 32 + ones 18 0
  | .bowl => 2 ^ 63 + ones 20 16 + ones 4 0
  | _ => 2 ^ 63 + ones 22 16 + ones 6 0

/-- The first and last place of a range. -/
def rangeEnds (r : RangeReg) (v : Nat) : Nat × Nat :=
  match r with
  | .var => (fld v 18 0, fld v 50 32)
  | _ => (fld v 9 0, fld v 25 16)

/-- Two enabled ranges share a place. -/
def rangesMeet (r : RangeReg) (a b : Nat) : Bool :=
  let p := rangeEnds r a
  let q := rangeEnds r b
  rangeEn a && rangeEn b && decide (max p.1 q.1 ≤ min p.2 q.2)

/-- The context that the page's CTX_SEL names. -/
def pageCtxSel (s : Block) (key : Nat) : Nat := fld (reg s key (if pageType key = 0x14 then 0x110 else 0x100)) 7 0

/-- A range register is written: only while its context is CLOSED, and not over another context's enabled range. -/
def writeRange (t : TwinId) (key : Nat) (r : RangeReg) (acc : Access) (v : Nat) (s : Block) : Block :=
  let k := pageCtxSel s key
  let new := mergeAcc (rangeGet (ctxTw s t k) r) acc v &&& rangeMask r
  if (ctxOf s k).st ≠ .closed then setErr key 0 s
  else if (tw s t).ctxs.any fun p => p.1 != k && rangesMeet r new (rangeGet p.2 r) then
    setErr key (if pageType key = 0x10 then 2 else 1) s
  else upCtxTw t k (fun c => rangeSet new c r) s

/-- SHLF.INSERT_POOL is written: locked while the page is enabled, and not over a context's node range (R137). -/
def writePool (t : TwinId) (key : Nat) (acc : Access) (v : Nat) (s : Block) : Block :=
  let new := mergeAcc (reg s key 0x100) acc v &&& rwMask 0x14 0x100
  if (pageOf s key).enable then setErr key 0 s
  else if (tw s t).ctxs.any fun p => rangesMeet .node new p.2.nodeRange then setErr key 1 s
  else setReg key 0x100 new s

/-- The entries of an enabled window (R212). -/
def windowsMeet (a b : Nat) : Bool :=
  let n (w : Nat) : Nat := min 4096 (fld w 44 32)
  rangeEn a && rangeEn b && decide (max (fld a 15 0) (fld b 15 0) < min (fld a 15 0 + n a) (fld b 15 0 + n b))

/-- FMT.WINDOW is written for the context that CTX_SEL names (R212). -/
def writeWindow (acc : Access) (v : Nat) (s : Block) : Block :=
  let k := pageCtxSel s fmtKey
  let new := mergeAcc (ctxOf s k).window acc v &&& (2 ^ 63 + ones 44 32 + ones 15 0)
  if (ctxOf s k).st ≠ .closed then setErr fmtKey 0 s
  else if rangeEn new && (decide (fld new 15 0 + min 4096 (fld new 44 32) > 65536)
      || s.ctxs.any fun p => p.1 != k && windowsMeet new p.2.window) then setErr fmtKey 1 s
  else upCtx k (fun c => { c with window := new }) s

/-- The RWS bits of SELECT_CFG (R213). -/
def selectBits : Nat := ones 47 40 + ones 36 32 + ones 23 0

/-- SELECT_CFG is written: it lands in the shadow of the context that CTX_SEL names (R415). -/
def writeSelect (acc : Access) (v : Nat) (s : Block) : Block :=
  upCtx (pageCtxSel s fmtKey) (fun c => { c with
    selShadow := some (mergeAcc (c.selShadow.getD c.selCfg) acc v &&& selectBits) }) s

/-- The Recipe entry that the FMT page shows. -/
def shownRecipe (s : Block) : Option Nat := recipeIdx s (pageCtxSel s fmtKey) (fld (reg s fmtKey 0x118) 11 0)

/-- ENTRY_DATA2: FORCE, TRAIN and ROWS_BLK of the entry shown (R214). -/
def writeRecipe (acc : Access) (v : Nat) (s : Block) : Block :=
  match (if covers acc 50 then shownRecipe s else none) with
  | some i =>
    let d := placed acc v
    upRecipe i (fun e => { e with force := fld d 50 47, train := fld d 46 45, rows := fld d 44 37 }) s
  | none => s

/-! ### Registers held outside the pages -/

/-- A write of 1 to VALID of a LAST register clears it. -/
def clearValid (d w : Nat) : Nat := if bitOf d 63 then w % 2 ^ 63 else w

/-- The offset of a twin page's register with VALID, by page (R62, R71, R121, R148, R179, R209, R235, R257, R282, R332). -/
def isLast (p off : Nat) : Bool :=
  [(0, 0x130), (1, 0x110), (3, 0x120), (4, 0x130), (5, 0x128), (6, 0x108), (7, 0x118), (8, 0x118), (8, 0x120), (9, 0x128),
   (11, 0x158)].contains (p, off)

/-- The LAST register at an offset of a twin page: VALID is W1C, every other field RO. -/
def writeLast (t : TwinId) (p off d : Nat) (s : Block) : Block :=
  upTw t (fun w => match p, off with
    | 0, 0x130 => { w with acc := { w.acc with lastRefusal := clearValid d w.acc.lastRefusal } }
    | 1, 0x110 => { w with cat := { w.cat with lastFault := clearValid d w.cat.lastFault } }
    | 3, 0x120 => { w with desk := { w.desk with lastErr := clearValid d w.desk.lastErr } }
    | 4, 0x130 => { w with shelf := { w.shelf with lastFault := clearValid d w.shelf.lastFault } }
    | 5, 0x128 => { w with ret := { w.ret with lastFault := clearValid d w.ret.lastFault } }
    | 6, 0x108 => { w with lard := { w.lard with lastFault := clearValid d w.lard.lastFault } }
    | 7, 0x118 => { w with sort := { w.sort with lastFault := clearValid d w.sort.lastFault } }
    | 8, 0x118 => { w with bank := { w.bank with lastDrop := clearValid d w.bank.lastDrop } }
    | 8, 0x120 => { w with bank := { w.bank with lastFault := clearValid d w.bank.lastFault } }
    | 9, 0x128 => { w with office := { w.office with lastFault := clearValid d w.office.lastFault } }
    | 11, 0x158 => { w with thrd := { w.thrd with lastErr := clearValid d w.thrd.lastErr } }
    | _, _ => w) s

/-- BLK.CTX_OWNER of the selected context: ignored with CFG_LOCKED while it is not CLOSED (R288). -/
def writeOwner (acc : Access) (v : Nat) (s : Block) : Block :=
  let k := ctxSel s
  if (ctxOf s k).st ≠ .closed then setErr blkKey 0 s
  else upCtx k (fun c => { c with owner := mergeAcc c.owner acc v &&& (2 ^ 63 + ones 10 0) }) s

/-- NOTIFY_BASE (R301): BASE and SIZE_LOG2 only while EN is 0; otherwise the write keeps them and applies EN. -/
def writeNotifyBase (k : Nat) (acc : Access) (v : Nat) (s : Block) : Block :=
  let old := reg s (ctxKey k) 0x120
  let new := mergeAcc old acc v
  if bitOf old 0 then setErr (ctxKey k) 0 (setReg (ctxKey k) 0x120 (setFld old 0 0 new) s)
  else setReg (ctxKey k) 0x120 (new &&& (ones 63 12 + ones 7 4 + 1)) s

/-- NOTIFY_TAIL (R301): TAIL lies in the low half. -/
def writeTail (k : Nat) (acc : Access) (v : Nat) (s : Block) : Block :=
  if covers acc 0 then tailWrite k (v % 2 ^ 32) s else s

/-- MSIX_CTRL of a vector (R302). -/
def writeMsix (k vec : Nat) (acc : Access) (v : Nat) (s : Block) : Block :=
  msixWrite k vec (mergeAcc (reg s (ctxKey k) (0x388 + 16 * vec)) acc v) s

/-- TIME.LOAD (R343, R348): ignored with CFG_LOCKED while any context is not CLOSED. -/
def timeLoad (v : Nat) (s : Block) : Block :=
  if anyOpen s then setErr timeKey 0 s else upProof (fun p => { p with load := some (v % 2 ^ 64) }) s

/-- TIME.SLEW: the remainder is replaced. -/
def timeSlew (v : Nat) (s : Block) : Block :=
  let n : Nat := v % 2 ^ 32
  upProof (fun p => { p with slew := if n < 2 ^ 31 then (n : Int) else (n : Int) - 4294967296 }) s

/-- BAKE.SLOT_DATA of the selected slot (R297). -/
def writeSlot (t : TwinId) (acc : Access) (v : Nat) (s : Block) : Block :=
  let old := mapGet 0 (tw s t).bake.slots (fld (reg s (twKey t bakeP) 0x100) 9 0)
  slotWrite t (mergeAcc old acc v) s

/-- CNT.OPT_CFG of the selected counter: locked while it runs (R379). -/
def writeOptCfg (t : TwinId) (acc : Access) (v : Nat) (s : Block) : Block :=
  let i := fld (reg s (twKey t cntP) 0x118) 11 0
  let o := mapGet {} (tw s t).obs.opts i
  if o.run then setErr (twKey t cntP) 0 s
  else upTw t (fun w => { w with obs := { w.obs with
    opts := mapSet {} w.obs.opts i { o with cfg := mergeAcc o.cfg acc v &&& ones 47 22 } } }) s

/-! ### PAGE_CTRL, SHADOW_CTRL and ERR_INJECT (R355, R411, R415) -/

/-- PAGE_CTRL.ENABLE is written (R411). -/
def pageEnable (key : Nat) (v : Bool) (s : Block) : Block :=
  if 256 ≤ key then s
  else if key = pwrKey then pwrEnable v s
  else if declared s && !v then setErr key 0 s
  else upPage key (fun p => { p with enable := v }) s

def writePageCtrl (key d : Nat) (s : Block) : Block :=
  let s1 := pageEnable key (bitOf d 0) s
  if bitOf d 1 then commitPage key s1 else s1

/-- ERR_INJECT: its fields lie in the high half. -/
def writeInject (key : Nat) (acc : Access) (v : Nat) (s : Block) : Block :=
  if covers acc 63 then errInjectWrite key (mergeAcc (pageOf s key).inj acc v) s else s

/-! ### Commands by their register -/

/-- BLK.FREEZE_CTL: ON_FAULT and ON_FATAL, then a freeze with the halts asked for, then a thaw (R383). -/
def writeFreezeCtl (acc : Access) (v : Nat) (s : Block) : Block :=
  if !(covers acc 0) then s
  else
    let s1 := setReg blkKey 0x250 (fld v 5 4 * 16) s
    let s2 := if bitOf v 0 then freezeCmd (fld v 3 2) s1 else s1
    if bitOf v 1 then thawCmd s2 else s2

def writePairCtl (d : Nat) (s : Block) : Block :=
  let t := twinOf (d / 16)
  match d % 16 with
  | 1 => pairCtl (detach t) s
  | 2 => pairCtl (rejoin t) s
  | 3 => pairCtl (failTwin t) s
  | 4 => pairCtl (recover t) s
  | _ => s

def writeCtxCmd (d : Nat) (s : Block) : Block :=
  match d % 16 with
  | 1 => ctxOpen (twinOf (d / 256)) s
  | 2 => ctxClose s
  | 3 => ctxFault s
  | _ => s

/-- SHLF.ENGINE_CTL: ACTION 0 and 3 are ignored; any write while BUSY is 1 sets ENGINE_CTL_BAD (R143). -/
def writeEngineCtl (t : TwinId) (d : Nat) (s : Block) : Block :=
  match fld d 16 15 with
  | 1 => engineCtl t false (bitOf d 14) (fld d 13 0) s
  | 2 => engineCtl t true (bitOf d 14) (fld d 13 0) s
  | _ => if removalBusy s t || !((groupOf (fld d 13 0)).any fun g => primary s g == t) then setErr (twKey t shlfP) 3 s else s

def writeThrdCmd (t : TwinId) (d : Nat) (s : Block) : Block :=
  match d % 16 with
  | 1 => threadCreate t (bitOf d 4) s
  | 2 => threadDestroy t s
  | 3 => threadSet t s
  | 4 => threadCmdWake t s
  | 5 => threadQuery t s
  | _ => s

def writeCoreCtl (d : Nat) (s : Block) : Block :=
  match d % 4 with
  | 1 => coreRemove (fld d 10 8) s
  | 2 => coreRestore (fld d 10 8) s
  | _ => s

def writeOptCmd (t : TwinId) (d : Nat) (s : Block) : Block :=
  match fld d 63 62 with
  | 1 => optCmd t true (fld d 11 0) (fld d 27 16) s
  | 2 => optCmd t false (fld d 11 0) (fld d 27 16) s
  | _ => s

def writeShardCmd (k d : Nat) (s : Block) : Block :=
  match d % 16 with
  | 1 => shardAlloc k (fld d 14 8) (bitOf d 5) (bitOf d 4) s
  | 2 => shardFree k s
  | 3 => shardMove k (fld d 14 8) (bitOf d 5) s
  | 4 => shardQuery k s
  | _ => s

def writeTallyCmd (k d : Nat) (s : Block) : Block :=
  if 1 ≤ d % 16 ∧ d % 16 ≤ 8 then tallyCommand k (d % 16) s else s

def writeTubeCmd (k d : Nat) (s : Block) : Block :=
  match d % 16 with
  | 1 => tubeOpen k s
  | 2 => tubeClose k s
  | 3 => tubeQuery k s
  | _ => s

def writeBowlCmd (k d : Nat) (s : Block) : Block :=
  match d % 16 with
  | 1 => bowlOpen k s
  | 2 => bowlClose k s
  | 3 => bowlQuery k s
  | 4 => bowlReset k s
  | _ => s

/-! ### Writes that are not a plain store: the action, or none where the register has no action -/

def writeBlk (off : Nat) (acc : Access) (v : Nat) (s : Block) : Option Block :=
  let d := placed acc v
  match off with
  | 0x108 => some (if covers acc 0 then writePairCtl d s else s)
  | 0x118 => some (if bitOf d 62 then upPair (fun p => { p with dumpDone := false }) s else s)
  | 0x128 => some (bootRun d s)
  | 0x130 => some (softReset d s)
  | 0x208 => some (writeOwner acc v s)
  | 0x210 => some (writeCtxCmd d s)
  | 0x248 => some { s with mgmt := { s.mgmt with denied := clearValid d s.mgmt.denied } }
  | 0x250 => some (writeFreezeCtl acc v s)
  | _ => none

def writePwr (off : Nat) (acc : Access) (v : Nat) (s : Block) : Option Block :=
  let d := placed acc v
  let dom := fld (reg s pwrKey 0x100) 7 0
  match off with
  | 0x108 => some (if bitOf d 59 && decide (dom ≤ 143) then upDom dom (fun x => { x with stretched := false }) s else s)
  | 0x110 => some (if covers acc 0 then cluCtl v s else s)
  | 0x180 => some (if bitOf d 0 then blockGate s else s)
  | _ => none

def writeTime (off : Nat) (acc : Access) (v : Nat) (s : Block) : Option Block :=
  match off with
  | 0x108 => some (timeLoad (placed acc v) s)
  | 0x110 => some (if covers acc 0 then timeSlew v s else s)
  | _ => none

def writeFmt (off : Nat) (acc : Access) (v : Nat) (s : Block) : Option Block :=
  match off with
  | 0x108 => some (writeWindow acc v s)
  | 0x110 => some (writeSelect acc v s)
  | 0x130 => some (writeRecipe acc v s)
  | _ => none

/-- Page p of twin t. -/
def writeTwin (t : TwinId) (p off : Nat) (acc : Access) (v : Nat) (s : Block) : Option Block :=
  let d := placed acc v
  let key := twKey t p
  match rangeAt (pageType key) off with
  | some r => some (writeRange t key r acc v s)
  | none =>
    match p, off with
    | 3, 0x108 => some (if bitOf d 63 then hwClr t .desk s else s)
    | 4, 0x100 => some (writePool t key acc v s)
    | 4, 0x120 => some (if acc = .hi then s else writeEngineCtl t d s)
    | 6, 0x100 => some (if bitOf d 63 then hwClr t .lard s else s)
    | 9, 0x118 => some (bowlPut t d s)
    | 10, 0x108 => some (writeSlot t acc v s)
    | 11, 0x130 => some (writeThrdCmd t d s)
    | 11, 0x150 => some (writeCoreCtl d s)
    | 12, 0x140 => some (wdogKick t d s)
    | 13, 0x120 => some (writeOptCfg t acc v s)
    | 13, 0x130 => some (writeOptCmd t d s)
    | 14, 0x100 => some (ringBaseWrite t (mergeAcc (reg s key 0x100) acc v) s)
    | 14, 0x110 => some (daybRdWrite t acc v s)
    | 14, 0x130 => some (if bitOf d 63 then wfgGo t (bitOf d 8) (fld d 7 0) s else s)
    | 15, 0x100 => some (invSel t acc v s)
    | _, _ => if isLast p off then some (writeLast t p off d s) else none

def writeCtx (k off : Nat) (acc : Access) (v : Nat) (s : Block) : Option Block :=
  let d := placed acc v
  match off with
  | 0x108 => some (if bitOf d 0 then ctxCtlClose k s else s)
  | 0x120 => some (writeNotifyBase k acc v s)
  | 0x130 => some (writeTail k acc v s)
  | 0x258 => some (writeShardCmd k d s)
  | 0x2A8 => some (if bitOf d 63 then upCtx k (fun c => { c with leak := false }) s else s)
  | 0x2B0 => some (if bitOf d 0 then sortCancel k s else s)
  | 0x2E0 => some (writeTallyCmd k d s)
  | 0x320 => some (writeTubeCmd k d s)
  | 0x358 => some (writeBowlCmd k d s)
  | _ => if 0x388 ≤ off ∧ off ≤ 0x478 ∧ off % 16 = 8 then some (writeMsix k ((off - 0x388) / 16) acc v s) else none

/-- A write that the register acts on, where it has an action of its own. -/
def writeAction (key off : Nat) (acc : Access) (v : Nat) (s : Block) : Option Block :=
  if 256 ≤ key then writeCtx (key - 256) off acc v s
  else if 16 ≤ key then writeTwin (twinOf ((key - 16) / 16)) (key % 16) off acc v s
  else match key with
    | 0 => writeBlk off acc v s
    | 1 => writePwr off acc v s
    | 2 => writeTime off acc v s
    | _ => writeFmt off acc v s

/-- The registers that every page has (R409). -/
def writeCommon (key off : Nat) (acc : Access) (v : Nat) (s : Block) : Option Block :=
  let d := placed acc v
  match off with
  | 0x008 => some (if covers acc 0 then writePageCtrl key d s else s)
  | 0x018 => some (upPage key (fun p => { p with errStat := p.errStat &&& (2 ^ 64 - 1 - d) }) s)
  | 0x020 => some (upPage key (fun p => { p with errMask := mergeAcc p.errMask acc v &&& errBits (pageType key) }) s)
  | 0x028 => some (writeInject key acc v s)
  | 0x030 => some (if bitOf d 48 then discardPage key s else s)
  | _ => none

/-! ### Plain stores (R7, R8, R286) -/

/-- What follows a store: a selector out of its range, and units that act on a new value at once. -/
def afterStore (key off : Nat) (s : Block) : Block :=
  match pageType key, off with
  | 0x02, 0x120 => stepTop s
  | 0x04, 0x118 => if (shownRecipe s).isNone then setErr key 2 s else s
  | 0x12, 0x100 => if reg s key 0x100 > 151 then setErr key 1 s else s
  | 0x12, 0x130 => if reg s key 0x130 > 71 then setErr key 1 s else s
  | 0x1B, 0x100 => deskSettle (twinOf ((key - 16) / 16)) s
  | _, _ => s

/-- A write to a register that is stored as written: locked bits are kept with CFG_LOCKED, an owner's write leaves
manager-only bits with DENIED, RWS bits land in the shadow, and the rest takes effect. -/
def storeReg (g : Grade) (key off : Nat) (acc : Access) (v : Nat) (s : Block) : Block :=
  let ty := pageType key
  let mine := if g = .owner then accMask acc &&& (2 ^ 64 - 1 - managerOnly ty off) else accMask acc
  let locked := lockedMask s key off
  let d := placed acc v
  let s1 := if locked &&& mine ≠ 0 then setErr key 0 s else s
  let s2 := if g = .owner ∧ managerOnly ty off ≠ 0 then setErr key 1 s1 else s1
  let s3 := writeShadow key off (rwsMask ty off &&& mine) d s2
  let m := rwMask ty off &&& mine &&& (2 ^ 64 - 1 - locked)
  if m = 0 then s3 else afterStore key off (setReg key off (blend m (reg s3 key off) d) s3)

/-- A served write to a register page (R7, R9); an offset that no register occupies stores nothing. -/
def writeReg (g : Grade) (key off : Nat) (acc : Access) (v : Nat) (s : Block) : Block :=
  match writeCommon key off acc v s with
  | some s1 => s1
  | none => match writeAction key off acc v s with
    | some s1 => s1
    | none => storeReg g key off acc v s

/-! ### Accesses (R9, R10, R285, R287) -/

/-- BOWL_PUT is served to the manager and to every engine (R271, R287). -/
def putAccess (src : Requester) (t : TwinId) (f : Block → Block) (s : Block) : Block :=
  match src with
  | .task _ => if held s src || !(pageTakes s (twKey t tubeP)) then s else f s
  | .untagged => if held s src || !(pageTakes s (twKey t tubeP)) then s else f s
  | _ => pageCmd src (twKey t tubeP) f s

/-- The page of BOWL_PUT. -/
def isPut (key off : Nat) : Bool := (key == twKey .t0 tubeP || key == twKey .t1 tubeP) && off == 0x118

/-- The bytes of a value, least significant first. -/
def bytesOf (n v : Nat) : List Byte := (List.range n).map fun i => BitVec.ofNat 8 (v / 256 ^ i)

/-- A write at an offset from CTS_BASE with a size: windows take any access, register pages 4 B and 8 B (R9). -/
def registerWrite (src : Requester) (a size v : Nat) (s : Block) : Block :=
  match placeOf a with
  | .reserved => s
  | .window k => windowBytes src k (a % 0x10000) (bytesOf size v) s
  | .page key off =>
    match accessOf off size with
    | some acc =>
      let at8 := off / 8 * 8
      if isPut key at8 then putAccess src (twinOf ((key - 16) / 16)) (writeReg .manager key at8 acc (v % 2 ^ 64)) s
      else pageAccess src key (fun g => writeReg g key at8 acc (v % 2 ^ 64)) s
    | none => pageServe src key (fun _ s => emit .unsupported s) s

/-- A write at the address of a register; a slot of an endpoint is written by task code (R280). -/
def writeAt (src : Requester) (addr : RegAddr) (size v : Nat) (s : Block) : Block :=
  match addr, src with
  | .cts a, _ => registerWrite src a.toNat size v s
  | .slot e r x off, .task tag => slotWriteReg tag.toNat e.toNat r x.toNat off.toNat size v s
  | .slot .., _ => s

end Sys2Proof.Machine
end

