-- ==== Sys2Proof/Machine/Reads.lean ====
section
/-! DEFINITION. Register reads (17 R408 to R420 and the rules it indexes): the value of every register. -/

namespace Sys2Proof.Machine

/-! ### Counters and their frozen view (R377, R378, R383) -/

/-- A counter of a page as a read returns it. -/
def ctrRead (s : Block) (key off : Nat) : Nat :=
  match s.freeze.frozen with
  | some f => mapGet 0 (mapGet [] f.pages key) off
  | none => ctr s key off

def framePorts (f : Frozen) : TwinId → SMap PortCtr
  | .t0 => f.ports0
  | .t1 => f.ports1

def frameOpts (f : Frozen) : TwinId → SMap OptCtr
  | .t0 => f.opts0
  | .t1 => f.opts1

/-- The counters of the port that CNT.PORT_SEL names; zero for one that the twin does not drive. -/
def portRead (s : Block) (t : TwinId) : PortCtr :=
  let g := reg s (twKey t cntP) 0x100
  if g > 151 ∨ portOfGroup g ≠ g ∨ primary s g ≠ t then {}
  else match s.freeze.frozen with
    | some f => mapGet {} (framePorts f t) g
    | none => mapGet {} (tw s t).obs.ports g

/-- CNT.OPT_DATA: RUN as it is, VALUE as it is or as frozen. -/
def optRead (s : Block) (t : TwinId) : Nat :=
  let i := reg s (twKey t cntP) 0x118
  let o := mapGet {} (tw s t).obs.opts i
  let v := match s.freeze.frozen with
    | some f => (mapGet {} (frameOpts f t) i).value
    | none => o.value
  b2n o.run * 2 ^ 63 + v

/-! ### Common registers (R410 to R415) -/

def pageEnabled (s : Block) (key : Nat) : Bool :=
  if 256 ≤ key then (ctxOf s (key - 256)).st != .closed else (pageOf s key).enable

/-- PAGE_ID. -/
def pageId (key : Nat) : Nat :=
  (if 256 ≤ key then (key - 256) * 2 ^ 48 else 0) + pageType key * 2 ^ 40
    + (if 32 ≤ key ∧ key < 48 then 2 ^ 32 else 0) + 1

/-- A bit of ERR_STAT is set that ERR_MASK does not mask. -/
def errAny (p : Page) : Bool := (p.errStat &&& (2 ^ 64 - 1 - p.errMask)) != 0

/-- PAGE_STAT. -/
def pageStat (s : Block) (key : Nat) : Nat :=
  b2n (pageEnabled s key) * 2 ^ 63 + b2n (errAny (pageOf s key)) * 2 ^ 62 + b2n s.freeze.frozen.isSome * 2 ^ 61

/-! ### Pair pages -/

/-- ERR_ANY of the pair: a page of either twin or of the pair (R374). -/
def pairErrAny (s : Block) : Bool := s.pages.any fun p => decide (p.1 < 256) && errAny p.2

/-- BLK.PAIR_STAT (R374). -/
def pairStat (s : Block) : Nat :=
  let p := s.pair
  b2n p.op.isSome * 2 ^ 63 + b2n p.isFatal * 2 ^ 62 + b2n (pairErrAny s) * 2 ^ 61 + b2n p.latch.isSome * 2 ^ 60
    + (match p.latch with
       | some t => twinNum t * 2 ^ 59
       | none => 0)
    + p.status * 2 ^ 48 + p.cause1 * 2 ^ 40 + p.cause0 * 2 ^ 32 + svcCode s.tw1.svc * 8 + svcCode s.tw0.svc

/-- BLK.DUMP_STAT (R374). -/
def dumpStat (s : Block) : Nat :=
  let p := s.pair
  b2n p.dumpBusy * 2 ^ 63 + b2n p.dumpDone * 2 ^ 62 + b2n p.dumpPartial * 2 ^ 61 + twinNum p.dumpTwin * 2 ^ 60 + p.dumpStatus

/-- BLK.BOOT_STAT (R405). -/
def bootStat (s : Block) : Nat :=
  s.phase * 2 ^ 60 + s.boot.error * 2 ^ 56 + s.boot.cause * 2 ^ 53 + b2n s.boot.tested * 2 ^ 52 + s.boot.readyUs

def ctxStCode : CtxState → Nat
  | .closed => 0
  | .opened => 1
  | .fenced => 2
  | .tearing => 3
  | .down => 4

/-- STATE, HOME and SCRUB_FAIL of a context as five bits (R288, R291). -/
def ctxStBits (c : Ctx) : Nat := ctxStCode c.st * 4 + twinNum c.home * 2 + b2n c.scrubFail

/-- BLK.FREEZE_STAT (R383). -/
def freezeStat (s : Block) : Nat :=
  let f := s.freeze
  b2n f.frozen.isSome * 2 ^ 63 + b2n f.pending * 2 ^ 62 + b2n s.tw1.halted * 2 ^ 61 + b2n s.tw0.halted * 2 ^ 60
    + f.haltStatus * 2 ^ 56 + f.ignored * 2 ^ 48 + f.tickNs

def readBlk (s : Block) (off : Nat) : Option Nat :=
  match off with
  | 0x100 => some (pairStat s)
  | 0x118 => some (dumpStat s)
  | 0x120 => some (bootStat s)
  | 0x208 => some (ctxOf s (ctxSel s)).owner
  | 0x218 => some (b2n s.mgmt.cmdBusy * 2 ^ 63 + s.mgmt.cmdStat * 2 ^ 48 + ctxStBits (ctxOf s (ctxSel s)) * 2 ^ 35)
  | 0x220 => some s.mgmt.manager
  | 0x240 => some s.mgmt.victim
  | 0x248 => some s.mgmt.denied
  | 0x258 => some (freezeStat s)
  | _ => none

def domStCode : DomState → Nat
  | .run => 0
  | .stopping => 1
  | .stopped => 2
  | .starting => 3
  | .gated => 4

/-- PWR.CLU_STAT of the selected domain; zero for one above 143 (R347). -/
def cluStat (s : Block) : Nat :=
  let d := reg s pwrKey 0x100
  if d > 143 then 0
  else
    let x := domOf s d
    domStCode x.st * 2 ^ 61 + b2n (reservedDom s d) * 2 ^ 60 + b2n x.stretched * 2 ^ 59 + b2n (noGateHeld s d) * 2 ^ 58
      + (if d < 128 then mapGet 0 s.proof.banks d * 2 ^ 48 else 0) + min (x.idle / 100) (2 ^ 32 - 1)

def readPwr (s : Block) (off : Nat) : Option Nat :=
  match off with
  | 0x108 => some (cluStat s)
  | 0x110 => some (if reg s pwrKey 0x100 > 143 then 0 else (domOf s (reg s pwrKey 0x100)).policy)
  | 0x128 => some (s.proof.alertWord * 2 ^ 48 + s.proof.step * 2 ^ 40 + b2n s.proof.failsafe * 2 ^ 39 + s.proof.pin)
  | 0x180 => some (s.proof.gateStat * 2 ^ 48)
  | _ => none

def readTime (s : Block) (off : Nat) : Option Nat :=
  match off with
  | 0x100 => some s.time
  | 0x110 => some (s.proof.slew % 2 ^ 32).toNat
  | _ => none

/-- History values n to n + 7 of an entry, one byte each. -/
def histBytes (e : Recipe) (n : Nat) : Nat :=
  (List.range 8).foldl (fun a i => a + e.hist.getD (n + i) 0 % 256 * 256 ^ i) 0

/-- FMT.ENTRY_DATA2 of an entry (R214). -/
def recipeWord (e : Recipe) : Nat :=
  e.stepMax * 2 ^ 56 + b2n e.stepV * 2 ^ 55 + e.format * 2 ^ 51 + e.force * 2 ^ 47 + e.train * 2 ^ 45 + e.rows * 2 ^ 37

/-- FMT.SWEEP_STAT (R215). The sweep of a STEP_MARK is taken in one step, so NEXT stands at its first entry. -/
def sweepStat (s : Block) : Nat :=
  b2n (!s.fmt.queue.isEmpty) * 2 ^ 63 + s.fmt.lastCtx * 2 ^ 48 + (s.fmt.queue.length - 1) * 2 ^ 32

def readFmt (s : Block) (off : Nat) : Option Nat :=
  let c := ctxOf s (pageCtxSel s fmtKey)
  let entry (f : Recipe → Nat) : Nat := match shownRecipe s with
    | some i => f (recipeOf s i)
    | none => 0
  match off with
  | 0x108 => some c.window
  | 0x110 => some c.selCfg
  | 0x120 => some (entry fun e => histBytes e 0)
  | 0x128 => some (entry fun e => histBytes e 8)
  | 0x130 => some (entry recipeWord)
  | 0x138 => some (sweepStat s)
  | _ => none

/-! ### Twin pages -/

/-- ACC.ALLOC_STAT of a context (R70). -/
def allocStat (s : Block) (t : TwinId) (k : Nat) : Nat :=
  let c := ctxTw s t k
  ((mirPart s t k true).1 + c.varUsed) % 2 ^ 22 * 2 ^ 32 + ((mirPart s t k false).1 + c.fixUsed) % 2 ^ 22

/-- CAT.PEEK_SEL names a word beyond its store (R64). -/
def peekBad (sel : Nat) : Bool :=
  fld sel 26 24 == 7 || (decide (fld sel 26 24 ≤ 4) && decide (fld sel 21 0 ≥ 524288))

/-- CAT.PEEK_DATA (R64). -/
def peekData (s : Block) (t : TwinId) : Nat :=
  let sel := reg s (twKey t catP) 0x118
  let i := fld sel 21 0
  if peekBad sel then 0
  else match fld sel 26 24 with
    | 4 => sideWord s t i
    | 5 => mapGet 0 (tw s t).cat.fwd i
    | 6 => mapGet 0 (tw s t).cat.mir i
    | w => (nodeWords (mapGet {} (tw s t).cat.nodes i)).getD w 0

/-- Tasks of a class in a group, copies included. -/
def classCount (s : Block) (t : TwinId) (g cls : Nat) : Nat :=
  (groupHeld s t g).foldl (fun a p => if p.1 % 64 / 32 = cls then a + laneCount p.2 else a) 0

/-- RACK.GROUP_STAT (R112). -/
def groupStat (s : Block) (t : TwinId) : Nat :=
  let g := reg s (twKey t rackP) 0x100
  if g > 151 then 0
  else
    let b := (groupBest s t g).1
    let lv := if b ≥ 9 then b - 9 else b - 1
    let d := if isCluster g && primary s g == t then (mapGet 0 (tw s t).rack.mix g % 1024).toNat else 0
    classCount s t g 1 * 2 ^ 44 + classCount s t g 0 * 2 ^ 24
      + (if b = 0 then 0 else 2 ^ 23 + (if b ≥ 9 then 2 ^ 22 else 0) + lv * 2 ^ 19) + d * 2 ^ 9

/-- RACK.HOLD_STAT (R114). -/
def holdStat (s : Block) (t : TwinId) : Nat :=
  let c := ctxTw s t (reg s (twKey t rackP) 0x120)
  (c.holdNodes.length + c.holdCopies.length) * 2 ^ 44 + b2n c.capHeld * 2 ^ 43 + b2n c.inflHeld * 2 ^ 42

/-- RACK.SUMMARY_RX (R115): the entry as received, and desk cycles since, 15 for each tally tick. -/
def summaryRx (s : Block) (t : TwinId) : Nat :=
  let i := reg s (twKey t rackP) 0x130
  let at_ := mapGet 0 (tw s t).rack.sumAt i
  if i > 71 then 0
  else (if at_ = 0 then 0 else min 65535 ((s.ticks + 1 - at_) * 15)) * 2 ^ 16 + mapGet 0 (tw s t).rack.sumRx i

/-- RET.DIRTY or RET.FLUSH_OUT: bit i for cluster 2i + p of which the twin is primary (R178). -/
def clusterBits (s : Block) (t : TwinId) (f : Flush → Bool) : Nat :=
  s.flushes.foldl (fun a p =>
    if p.1 % 2 = twinNum t ∧ p.1 < 128 ∧ primary s p.1 = t ∧ f p.2 = true then a + 2 ^ (p.1 / 2) else a) 0

/-- RET.WIDEN_STAT (R177). -/
def widenStat (s : Block) (t : TwinId) : Nat :=
  let r := (tw s t).ret
  b2n r.drain.out * 2 ^ 49 + (r.deferred.filter fun d => !d.credits.isEmpty).length * 2 ^ 32
    + (r.narrow.filter fun p => p.2.valid).length

/-- THRD.CORE_STAT (R331). -/
def coreStat (s : Block) (c : Nat) : Nat :=
  let k := coreOf s c
  b2n k.inService * 2 ^ 63 + b2n k.running.isSome * 2 ^ 62 + b2n k.asking * 2 ^ 61 + b2n k.preempt.isSome * 2 ^ 60
    + b2n k.expired * 2 ^ 59 + b2n k.lastV * 2 ^ 58 + k.lastCtx * 2 ^ 50
    + (if k.running.isSome then k.runLevel * 2 ^ 44 else 0) + (k.running.getD 0) * 2 ^ 32

/-- REL.SPARE_STAT of the selected group (R373); for a number that names no group, its reset value. -/
def spareStat (s : Block) (t : TwinId) : Nat :=
  let g := reg s (twKey t relP) 0x120
  match groupInfo g with
  | none => 2 ^ 63
  | some i =>
    let x := sramOf s t g
    let tests := (if pairGroup g then [TwinId.t0, .t1] else [t]).filterMap fun u => (tw s u).rel.test
    let test := match tests.find? fun b => b.group == g with
      | some b => 2 ^ 62 + b.bank * 2 ^ 40
      | none => 0
    let left := (List.range (i.banks + 1)).foldl (fun a p => a + rowsLeft x p) 0
    b2n (!x.noSpare) * 2 ^ 63 + test + x.retired * 2 ^ 32 + left

/-- The selected log entry. -/
def logRead (s : Block) (t : TwinId) : Nat × Nat := mapGet (0, 0) (tw s t).rel.log (reg s (twKey t relP) 0x100)

/-- Registers of twin t's page p that are not stored as written. -/
def readTwin (s : Block) (t : TwinId) (p off : Nat) : Option Nat :=
  let w := tw s t
  let key := twKey t p
  match rangeAt (pageType key) off with
  | some r => some (rangeGet (ctxTw s t (pageCtxSel s key)) r)
  | none =>
    match p, off with
    | 0, 0x128 => some (allocStat s t (pageCtxSel s key))
    | 0, 0x130 => some w.acc.lastRefusal
    | 1, 0x100 => some ((w.cat.wheel.foldl (fun a q => a + q.2.length) 0) * 2 ^ 20
        + (w.cat.nodes.filter fun q => q.2.st != .free).length)
    | 1, 0x108 => some (w.cat.bucket * 2 ^ 32)
    | 1, 0x110 => some w.cat.lastFault
    | 1, 0x120 => some (peekData s t)
    | 2, 0x108 => some (groupStat s t)
    | 2, 0x118 => some (if reg s key 0x100 > 151 then 0 else laneStat (laneOf s t (reg s key 0x100 * 64 + reg s key 0x110)))
    | 2, 0x128 => some (holdStat s t)
    | 2, 0x138 => some (summaryRx s t)
    | 3, 0x108 => some (w.desk.high * 2 ^ 32 + w.desk.recs.length)
    | 3, 0x118 => some (engineStat s t (reg s key 0x110))
    | 3, 0x120 => some w.desk.lastErr
    | 4, 0x120 => some (b2n (removalBusy s t) * 2 ^ 63)
    | 4, 0x128 => some ((w.shelf.waits.filter fun q => q.2.valid).length * 2 ^ 40 + w.shelf.insWait.length * 2 ^ 20
        + w.ctxs.foldl (fun a q => a + q.2.unplace.length) 0)
    | 4, 0x130 => some w.shelf.lastFault
    | 5, 0x120 => some (widenStat s t)
    | 5, 0x128 => some w.ret.lastFault
    | 5, 0x130 => some (clusterBits s t fun f => f.dirty)
    | 5, 0x138 => some (clusterBits s t fun f => f.out)
    | 6, 0x100 => some (w.lard.high * 2 ^ 32 + w.lard.table.length)
    | 6, 0x108 => some w.lard.lastFault
    | 7, 0x108 => some (batchStat s t (reg s key 0x100))
    | 7, 0x110 => some ((w.sort.slots.filter fun q => q.2.st != .free).length * 2 ^ 48 + w.sort.parked.length * 2 ^ 24
        + w.sort.bind.length)
    | 7, 0x118 => some w.sort.lastFault
    | 8, 0x110 => some (w.bank.buf.length * 2 ^ 40 + (w.bank.ents.filter fun q => q.2.st != .free).length)
    | 8, 0x118 => some w.bank.lastDrop
    | 8, 0x120 => some w.bank.lastFault
    | 9, 0x120 => some ((w.office.bowls.foldl (fun a q => a + q.2.pend.length) 0) * 2 ^ 51
        + (w.office.bowls.filter fun q => q.2.st != .free).length * 2 ^ 37
        + (w.office.tubes.filter fun q => q.2.st != .free).length)
    | 9, 0x128 => some w.office.lastFault
    | 10, 0x108 => some (mapGet 0 w.bake.slots (reg s key 0x100))
    | 10, 0x110 => some w.bake.position
    | 10, 0x120 =>
      let c := ctxTw s t (fld (reg s key 0x118) 7 0)
      let d := fld (reg s key 0x118) 12 8
      some (mapGet 0 c.loaded d * 2 ^ 20 + mapGet 0 c.left d)
    | 11, 0x138 => some (b2n w.thrd.destroy.isSome * 2 ^ 63 + w.thrd.stat * 2 ^ 48)
    | 11, 0x148 => some (coreStat s (reg s key 0x140))
    | 11, 0x150 => some (b2n s.arb.removing.isSome * 2 ^ 63)
    | 11, 0x158 => some w.thrd.lastErr
    | 12, 0x108 => some (logRead s t).1
    | 12, 0x110 => some (logRead s t).2
    | 12, 0x118 => some (w.rel.count % 2 ^ 32)
    | 12, 0x128 => some (spareStat s t)
    | 12, 0x148 => some w.rel.testStat
    | 13, 0x108 => some (portRead s t).grants
    | 13, 0x110 => some (portRead s t).busy
    | 13, 0x120 => some (mapGet {} w.obs.opts (reg s key 0x118)).cfg
    | 13, 0x128 => some (optRead s t)
    | 14, 0x108 => some w.obs.wr
    | 14, 0x110 => some w.obs.rd
    | 14, 0x128 => some w.obs.staged.length
    | 14, 0x138 => some (b2n w.obs.wfgBusy * 2 ^ 63 + w.obs.wfgStat)
    | 15, 0x130 => some (b2n w.obs.invBusy * 2 ^ 63)
    | 15, _ => if 0x108 ≤ off ∧ off ≤ 0x128 then some (w.obs.invData.getD ((off - 0x108) / 8) 0) else none
    | _, _ => none

/-! ### Context pages -/

/-- ACC_STAT (R82). -/
def accStat (s : Block) (k : Nat) : Nat :=
  let c := ctxOf s k
  c.mark * 2 ^ 32 + b2n (sweeping s .t0 k || sweeping s .t1 k) * 2 ^ 31 + b2n (mirrorPend s k
      || !(ctxTw s .t0 k).pendMir.isEmpty || !(ctxTw s .t1 k).pendMir.isEmpty) * 2 ^ 30
    + b2n c.fixedClosed * 2 ^ 29 + b2n (!c.parked.isEmpty) * 2 ^ 28

/-- Shards of a context that nodes of its insertion wait racks wait to move (R140). -/
def insertionShards (s : Block) (k : Nat) : List Nat :=
  let one (t : TwinId) : List Nat :=
    ((tw s t).shelf.insWait.filter fun x =>
      (nodeOf s (nodeIdOf t x)).ctx == k && affinityHolds s t (nodeOf s (nodeIdOf t x))).map
      fun x => (nodeOf s (nodeIdOf t x)).affinity
  one .t0 ++ one .t1

/-- Shards of a context owned by a twin that are MOVING, whose move it has decided and not started, or that a node
waits in an insertion wait rack to move (R128, R140). -/
def movingCount (s : Block) (t : TwinId) (k : Nat) : Nat :=
  let f := (tw s t).shelf
  let asked := (f.pendMoves.map (·.shard)).filter (fun x => (shardOf s x).ctx == k)
    ++ (insertionShards s k).filter (fun x => ownerOf x == t)
  let wait := asked.filter fun x => (shardOf s x).st != .moving
  (f.shards.filter fun p => p.2.ctx == k && p.2.st == .moving).length + wait.eraseDups.length

/-- A command register's STAT: BUSY and STATUS. -/
def cmdStat (busy : Bool) (st : Nat) : Nat := b2n busy * 2 ^ 63 + st * 2 ^ 48

def readCtx (s : Block) (k off : Nat) : Option Nat :=
  let c := ctxOf s k
  match off with
  | 0x108 => some (ctxStBits c * 2 ^ 59)
  | 0x110 => some c.faultStat
  | 0x118 => some c.faultTime
  | 0x128 => some c.head
  | 0x130 => some c.tail
  | 0x200 => some (accStat s k)
  | 0x210 => some (inflight s .t1 k * 2 ^ 32 + inflight s .t0 k)
  | 0x260 => some (cmdStat false c.shardStat + movingCount s .t1 k * 2 ^ 18 + movingCount s .t0 k)
  | 0x288 => some (spilledOf s k 0 * 2 ^ 32 + keptOf s k 0)
  | 0x290 => some (spilledOf s k 1 * 2 ^ 32 + keptOf s k 1)
  | 0x298 => some (spilledOf s k 2 * 2 ^ 32 + keptOf s k 2)
  | 0x2A0 => some (spilledOf s k 3 * 2 ^ 32 + keptOf s k 3)
  | 0x2A8 => some (b2n c.leak * 2 ^ 63 + liveEntries s c.home k * 2 ^ 32 + c.keptHw)
  | 0x2B8 => some (c.epoch * 2 ^ 48 + b2n c.cancelBusy * 2 ^ 47 + slotsUsed s .t1 k * 2 ^ 7 + slotsUsed s .t0 k)
  | 0x2E8 => some (cmdStat c.tallyBusy c.tallyStat)
  | 0x328 => some (cmdStat c.tubeBusy c.tubeStat)
  | 0x360 => some (cmdStat c.bowlBusy c.bowlStat)
  | _ => none

/-! ### Any register (R7, R9, R409) -/

def readOwn (s : Block) (key off : Nat) : Option Nat :=
  if 256 ≤ key then readCtx s (key - 256) off
  else if 16 ≤ key then readTwin s (twinOf ((key - 16) / 16)) (key % 16) off
  else match key with
    | 0 => readBlk s off
    | 1 => readPwr s off
    | 2 => readTime s off
    | _ => readFmt s off

/-- The value that a served read of 8 B returns. -/
def regValue (s : Block) (key off : Nat) : Nat :=
  match off with
  | 0x000 => pageId key
  | 0x008 => b2n (pageEnabled s key)
  | 0x010 => pageStat s key
  | 0x018 => (pageOf s key).errStat
  | 0x020 => (pageOf s key).errMask
  | 0x028 => (pageOf s key).inj
  | 0x030 => b2n (shadowPend s key) * 2 ^ 63 + (pageOf s key).applied
  | _ =>
    if off < 0x40 then 0
    else if off < 0x100 then ctrRead s key off
    else (readOwn s key off).getD (reg s key off)

/-- The part of a value that an access returns. -/
def partOf (acc : Access) (v : Nat) : Nat :=
  match acc with
  | .full => v
  | .lo => v % 2 ^ 32
  | .hi => v / 2 ^ 32

/-- A read of PEEK_DATA with an out-of-range selection sets PEEK_RANGE (R64). -/
def peekCheck (key off : Nat) (s : Block) : Block :=
  if (key = twKey .t0 catP ∨ key = twKey .t1 catP) ∧ off = 0x120 ∧ peekBad (reg s key 0x118) = true then setErr key 2 s
  else s

/-- A read of a page by its requester (R9, R285); an engine's read reaches no register. -/
def pageRead (src : Requester) (key off size : Nat) (s : Block) : Block :=
  match gradeOf s src (if 256 ≤ key then some (key - 256) else none) with
  | .denied => emit (.reply 0) (denyOf src s)
  | .ignored => s
  | _ => match accessOf off size with
    | none => emit .unsupported s
    | some acc => peekCheck key (off / 8 * 8) (emit (.reply (partOf acc (regValue s key (off / 8 * 8)))) s)

/-- A read at an offset from CTS_BASE with a size (R9, R10, R65, R408). -/
def registerRead (src : Requester) (a size : Nat) (s : Block) : Block :=
  if held s src then s
  else match placeOf a with
    | .reserved => emit (.reply 0) s
    | .window k => match gradeOf s src (some k) with
      | .denied => emit (.reply 0) (denyOf src s)
      | _ => emit (.reply 0) s
    | .page key off => pageRead src key off size s

/-- A read at the address of a register; a slot of an endpoint is read by task code (R280). -/
def readAt (src : Requester) (addr : RegAddr) (size : Nat) (s : Block) : Block :=
  match addr, src with
  | .cts a, _ => registerRead src a.toNat size s
  | .slot e r x off, .task tag => slotRead tag.toNat e.toNat r x.toNat off.toNat size s
  | .slot .., _ => s

/-- HOST_ACCESS_DENIED: an access by a function that may not reach its target (R285). -/
def hostAccessDenied (port fn a : Nat) (isRead : Bool) (s : Block) : Block :=
  let src : Requester := .host (BitVec.ofNat 3 port) (BitVec.ofNat 8 fn)
  let target : Option (Option Nat) := match placeOf a with
    | .page key _ => some (if 256 ≤ key then some (key - 256) else none)
    | .window k => some (some k)
    | .reserved => none
  match target with
  | none => s
  | some k =>
    if held s src || gradeOf s src k != .denied then s
    else
      let s1 := denyOf src s
      if isRead then emit (.reply 0) s1 else s1

end Sys2Proof.Machine
end

