-- ==== Sys2Proof/Machine/Dump.lean ====
section
/-! DEFINITION. The archive dump (14 R370, R371): its sections, its header, and DUMP_END. -/

namespace Sys2Proof.Machine

/-- The words of a register page, in offset order. -/
def pageWords (s : Block) (key : Nat) : List Nat := (List.range 512).map fun i => regValue s key (8 * i)

/-- The two edges of a word of an edge store. -/
def edgeWords (m : SMap Nat) : List Nat :=
  (List.range 2097152).map fun i => mapGet 0 m (2 * i) + mapGet 0 m (2 * i + 1) * 2 ^ 32

/-- Section 2: the error log, and the registers of the Archivist, which are no state of the block (free values, log entry
53). -/
def logSection (s : Block) (t : TwinId) : List Nat :=
  ((List.range 64).flatMap fun i =>
      let e := mapGet (0, 0) (tw s t).rel.log i
      [e.1, e.2])
    ++ (List.range 384).map fun i => (Config.freeArchivist (twinNum t * 384 + i)).toNat

/-- Section 3: the poison list, STRUCT and dump offset of each poisoned word. -/
def poisonSection (poison : List (Nat × Nat)) : List Nat := poison.map fun p => p.1 % 256 * 2 ^ 56 + p.2 % 2 ^ 32

/-- The contents of a section of the dump of a failed twin (R371). -/
def dumpSection (s : Block) (f : TwinId) (poison : List (Nat × Nat)) (n : Nat) : List Nat :=
  match n with
  | 0 => (List.range 16).flatMap fun p => pageWords s (twKey f p)
  | 1 => [blkKey, pwrKey, timeKey, fmtKey].flatMap (pageWords s)
  | 2 => logSection s f
  | 3 => poisonSection poison
  | 4 => (List.range 65536).flatMap fun i => recWords (mapGet {} (tw s f).desk.recs i)
  | 5 => (List.range 524288).flatMap fun x => nodeWords (mapGet {} (tw s f).cat.nodes x)
  | 6 => (List.range 524288).map (sideWord s f)
  | 7 => edgeWords (tw s f).cat.fwd
  | 8 => edgeWords (tw s f).cat.mir
  | _ => []

/-- The offset of a section from DUMP_BASE (R371). -/
def dumpOffset (n : Nat) : Nat :=
  [0x1000, 0x11000, 0x15000, 0x16000, 0x100000, 0x200000, 0x1200000, 0x1600000, 0x2600000].getD n 0

/-- The four header words of a dump that are not zero (R371). -/
def dumpHeader (s : Block) (sections poisoned : Nat) : List Nat :=
  let f := s.pair.dumpTwin
  let cause := match f with
    | .t0 => s.pair.cause0
    | .t1 => s.pair.cause1
  [0x43544450 * 2 ^ 32 + 2 ^ 16 + twinNum f * 2 ^ 8 + cause % 256, s.pair.causeTime % 2 ^ 64, s.time % 2 ^ 64,
   (poisoned % 2 ^ 16) * 2 ^ 48 + sections % 2 ^ 9]

/-- The poison list that a dump holds: at most 4,096 entries (R371). -/
def listedPoison (poison : List (Nat × Nat)) : List (Nat × Nat) := poison.take 4096

/-- DUMP_END: the failed twin's dump engine has written the complete sections, in number order, and the survivor's Archivist
writes the header last (R370, R371). The sections' writes and the header's are the outputs of this command (log entry
53). -/
def dumpEnd (t : TwinId) (sections : Nat) (poison : List (Nat × Nat)) (s : Block) : Block :=
  if s.pair.dumpBusy ∧ partner t = s.pair.dumpTwin ∧ live s t = true then
    let base := fld (reg s blkKey 0x110) 47 20 * 2 ^ 20
    let f := s.pair.dumpTwin
    let s1 := forEach ((List.range 9).filter fun n => bitOf sections n)
      (fun n b => emit (.nocWrite f (base + dumpOffset n) (dumpSection s f (listedPoison poison) n)) b) s
    emit (.nocWrite t base (dumpHeader s sections (listedPoison poison).length ++ List.replicate 508 0))
      (upPair (fun p => { p with
        dumpBusy := false, dumpDone := true, dumpPartial := decide (sections % 2 ^ 9 ≠ 0x1FF),
        dumpStatus := sections % 2 ^ 9 }) s1)
  else s

end Sys2Proof.Machine
end

