-- ==== Sys2Proof/Machine/Ticks.lean ====
section
/-! DEFINITION. TALLY_TICK: the tally-tick boundary (R245, R343), with what the desk cycles up to the next boundary add to
the counters that count desk cycles (R16: 15 of them in each tally tick). -/

namespace Sys2Proof.Machine

/-- The desk cycles of one tally tick (R16). -/
def ticksDc : Nat := 15

/-! ### Counters of desk cycles -/

/-- Adds 15 for each of n things that stand through a tally tick. -/
def bumpDc (key off n : Nat) (s : Block) : Block := if n = 0 then s else bump key off (n * ticksDc) s

/-- The optional event of a rack group stands through a tally tick (R379, events 11 and 13). -/
def eventDc (t : TwinId) (code g : Nat) (s : Block) : Block := optEvent t code 0 false (some g) ticksDc s

/-- Claims held by a primary twin. DESIGN CHOICE (log entry 90): HELD_CLAIM_CYCLES (R117) counts all but the forwarded ones,
which R102 and R103 set against the held. -/
def heldClaims (s : Block) (t : TwinId) : List (Nat × Nat) :=
  s.engines.flatMap fun p =>
    let g := (groupOf p.1).getD 0
    if primary s g = t then
      (p.2.claims.filter fun c => !c.fwd).map fun _ => (g, p.1)
    else []

/-- ACC.PARK_CYCLES (R83): a write lies in the twin's park buffer. -/
def parkedIn (s : Block) (t : TwinId) : Bool := s.ctxs.any fun p => p.2.parked.any fun w => w.buffer == t

/-- SORT.BIND_WAIT_CYCLES (R233): a resolution waits for a binding entry. -/
def bindWaits (s : Block) (t : TwinId) : Bool :=
  (tw s t).sort.slots.any fun p => p.2.st == .resolved && !p.2.edges.isEmpty

/-- CNT.BUSY_DC of the ports a twin drives (R378). -/
def portBusy (t : TwinId) (s : Block) : Block :=
  let ps := (s.engines.filterMap fun p =>
    let g := (groupOf p.1).getD 0
    if p.2.tasks.isEmpty || primary s g != t then none else some (portOfGroup g)).eraseDups
  forEach ps (fun p s => upTw t (fun x => { x with obs := { x.obs with
    ports := mapSet {} x.obs.ports p
      { mapGet {} x.obs.ports p with busy := satAdd ctrMax (mapGet {} x.obs.ports p).busy ticksDc } } }) s) s

/-- STARVED_DC of R379: a claim of the group is held, and neither twin's racks hold an eligible task for it. -/
def starvedGroups (s : Block) (t : TwinId) : List Nat :=
  ((heldClaims s t).map (·.1)).eraseDups.filter fun g => (groupBest s t g).1 == 0 && (summaryOf s g).1 == 0

/-- The edge channel to the partner is stalled (R15, R379): items beyond its receive buffer wait at the sender, or Returns holds a
completion in hand. -/
def bridgeStalled (s : Block) (t : TwinId) : Bool :=
  decide (256 < (tw s (partner t)).edgeIn.length) || (tw s t).ret.hand.isSome

/-- DAYB.STALL_DC (R376, R389): while TYPE_MASK is not zero, one desk cycle in 34 of those in which staging holds a record
delivers no edge words. -/
def stallTick (t : TwinId) (s : Block) : Block :=
  let o := (tw s t).obs
  if o.staged.isEmpty || reg s (twKey t daybP) 0x118 == 0 then s
  else
    bump (twKey t daybP) 0x58 ((o.stall + ticksDc) / 34) (upObs t (fun o => { o with stall := (o.stall + ticksDc) % 34 }) s)

/-- What the desk cycles of a tally tick add in one twin; a halt stops no counter (R393). -/
def deskCycles (t : TwinId) (s : Block) : Block :=
  if !(serves s t) then s
  else
    let held := heldClaims s t
    let s1 := bumpDc (twKey t accP) 0x60 (b2n (parkedIn s t)) s
    let s2 := bumpDc (twKey t deskP) 0x80 held.length s1
    let s3 := bumpDc (twKey t deskP) 0x88 (b2n (recordsFull s t)) s2
    let s4 := bumpDc (twKey t retP) 0x88 ((tw s t).ret.deferred.filter fun d => !d.credits.isEmpty).length s3
    let s5 := bumpDc (twKey t sortP) 0x80 (b2n (bindWaits s t)) s4
    let s6 := portBusy t s5
    let s7 := forEach ((s.flushes.filter fun p => p.2.out && primary s p.1 == t).map (·.1)) (eventDc t 11) s6
    let s8 := if bridgeStalled s t then optEvent t 15 0 false none ticksDc s7 else s7
    forEach (starvedGroups s t) (eventDc t 13) (stallTick t s8)

/-! ### Global time (R343) -/

/-- Time outside CLOSED of a context, and the microseconds of it that OPEN_US counts (R308). -/
def ageCtx (dt k : Nat) (s : Block) : Block :=
  let c := ctxOf s k
  if c.st = .closed then s
  else
    let ns := c.openNs + dt
    let n := ns / 1000 - c.openNs / 1000
    let s1 := upCtx k (fun c => { c with openNs := ns }) s
    if n = 0 then s1 else bumpCtx k 0xA8 n s1

/-- The timing wheel of a twin begins at the time that LOAD put into effect (R53, R343). -/
def wheelFrom (t : TwinId) (s : Block) : Block :=
  upTw t (fun w => { w with cat := { w.cat with walked := s.time / 1024, bucket := s.time / 1024 % 4096 } }) s

/-- Global time moves on by a tally tick: a LOAD takes effect, or it advances by 10, 11 or 9 as SLEW says (R343). -/
def timeTick (s : Block) : Block :=
  match s.proof.load with
  | some v => wheelFrom .t1 (wheelFrom .t0 { (upProof (fun p => { p with load := none }) s) with time := v })
  | none =>
    let dt := if s.proof.slew > 0 then 11 else if s.proof.slew < 0 then 9 else 10
    let s1 := if s.proof.slew > 0 then upProof (fun p => { p with slew := p.slew - 1 }) s
              else if s.proof.slew < 0 then upProof (fun p => { p with slew := p.slew + 1 }) s
              else s
    forEach (s.ctxs.map (·.1)) (ageCtx dt) { s1 with time := (s1.time + dt) % 2 ^ 64 }

/-! ### The tick -/

/-- TALLY_TICK: the tally-tick boundary of both twins: global time moves on, the Tally Banks take the tick, stamped with its
time (R386), and a freeze or the end of a view that the last tick made due is late no longer. Nothing ticks before power-on;
with the desk side gated the Tally Banks, global time and the Proofer's counters go on (R13). -/
def tallyTick (s : Block) : Block :=
  if s.phase = 0 then s
  else
    let s0 := viewTick s
    let s1 := bankTick .t1 (bankTick .t0 (timeTick { s0 with ticks := s0.ticks + 1 }))
    if s.boot.gated then pwrTick s1
    else
      let s2 := pwrTick (domainTick (bankPowerTick s1))
      deskCycles .t1 (deskCycles .t0 (walkTick .t1 (walkTick .t0 s2)))

end Sys2Proof.Machine
end

