-- ==== Sys2Proof/Machine/Settle.lean ====
section
/-! DEFINITION. A command as a whole: items and port words as they are applied, and the steps that follow from a command
inside the block, taken in order until none is left. -/

namespace Sys2Proof.Machine

/-! ### Where a command acts -/

/-- A twin acts on the command only while it serves, is not halted and has power (R14, R359, R393). -/
def onTwin (t : TwinId) (f : Block → Block) (s : Block) : Block := if live s t then f s else s

/-- A word on an engine port: sampled by the twin that drives the port, or kept in the port's crossing while that twin
samples none (R21, R393); with the block gated nothing is driven. -/
def onPortWord (p : Nat) (i : Instr) (f : Block → Block) (s : Block) : Block :=
  let t := primary s p
  if live s t then f s
  else if s.boot.gated then s
  else upTw t (fun w => { w with crossing := w.crossing ++ [i] }) s

/-- A word of a management core about a thread: it waits while the thread's home twin is halted (R19, R393). -/
def onThreadWord (x : Option Nat) (i : Instr) (f : Block → Block) (s : Block) : Block :=
  match x with
  | none => if s.boot.gated then s else f s
  | some y =>
    let t := threadTwin y
    if s.boot.gated then s
    else if (tw s t).halted then upTw t (fun w => { w with crossing := w.crossing ++ [i] }) s
    else f s

/-- A NoC access to the interface of a cluster waits in the chip interconnect while the cluster is stopped (R338). -/
def onCluster (eng : Nat) (f : Block → Block) (s : Block) : Block :=
  match (domOf s (eng / 64)).st with
  | .run => f s
  | .stopping => f s
  | _ => s

/-- An access to a register of an endpoint waits as any access to its cluster does. -/
def onSlot (addr : RegAddr) (f : Block → Block) : Block → Block :=
  match addr with
  | .cts _ => f
  | .slot e _ _ _ => onCluster e.toNat f

/-- What a report carries (R97). -/
def completionOf (isFault : Bool) (r : Report) : Completion :=
  { isFault := isFault, eng := r.engine.toNat, node := r.node.toNat, gen := r.gen.toNat, maxExp := r.maxExp.toNat,
    expV := r.expV, code := r.code.toNat, cycles := r.cycles.toNat }

/-- The word of a report with its outcome (R313). -/
def reportAs (core : BitVec 3) (thread : BitVec 12) (asks : Bool) (o : ThreadOutcome) (i : Instr) (s : Block) : Block :=
  onThreadWord (some thread.toNat) i (reportWord core.toNat thread.toNat asks o) s

/-- A word driven on an engine port or on the thread port; nothing for another command. -/
def takeWord (i : Instr) (s : Block) : Block :=
  match i with
  | .claim p w => onPortWord (portNum p) i (claimWord (portNum p) w.toNat) s
  | .accept p r =>
    onPortWord (portNum p) i (acceptWord (portNum p) r.engine.toNat r.node.toNat r.gen.toNat) s
  | .complete p r => onPortWord (portNum p) i (completeWord (portNum p) (completionOf false r)) s
  | .fault p r => onPortWord (portNum p) i (completeWord (portNum p) (completionOf true r)) s
  | .ask c => onThreadWord ((coreOf s c.toNat).running) i (askWord c.toNat) s
  | .reportYield c x a => reportAs c x a .yield i s
  | .reportWait c x a g => reportAs c x a (.wait g.toNat) i s
  | .reportDelay c x a g => reportAs c x a (.delay g.toNat) i s
  | .reportPreempted c x a => reportAs c x a .preempted i s
  | .reportExit c x a => reportAs c x a .exit i s
  | .reportFault c x a => reportAs c x a .fault i s
  | .wake c x => onThreadWord ((coreOf s c.toNat).running) i (wakeWord c.toNat x.toNat) s
  | _ => s

/-! ### Items (R76, R126, R157, R188, R303) -/

/-- The context whose fence in the receiving twin turns the item away (R303): items of Accession and of the Larder. -/
def itemCtx : EdgeItem → Option Nat
  | .mirrorReq _ _ k _ _ _ _ _ _ => some k
  | .append _ _ _ k _ => some k
  | .closeMarker k => some k
  | .offer o => some o.ctx
  | .gRead _ k _ => some k
  | .gData k _ => some k
  | .trigger _ k => some k
  | .release _ k _ _ _ => some k
  | _ => none

/-- Credits are applied, and the slots whose EPOCH_SEL they carried are looked at again (R55, R230). -/
def landCredits (cs : List Credit) (s : Block) : Block :=
  forEach (cs.map (·.epoch)).eraseDups recheckSlot (applyCredits cs s)

/-- An item takes effect in a twin. -/
def applyItem (t : TwinId) (i : EdgeItem) (s : Block) : Block :=
  if (itemCtx i).any (fun k => !(unfenced s t k)) then s
  else match i with
  | .credit c => landCredits [c] s
  | .mirrorReq f g k kind lc level larder d cap =>
    sendItem t (partner t) (.mirrorAck f) (applyMirrorReq g k kind lc level larder d cap s)
  | .mirrorAck f => applyMirrorAck t f s
  | .append f sN g k word => applyAppend f sN g k word s
  | .closeMarker k => upCtxTw t k (fun c => { c with marker := true }) s
  | .targetRead f k target =>
    sendItem t (partner t) (.targetAns f k (nodeOf s target).mirrorEn (nodeOf s target).mirror) s
  | .targetAns f k en m => applyTargetAns t f k en m s
  | .loc shard code k hi => locAt t shard code k hi s
  | .locAck shard => sealCopy shard (upMove shard (fun m => { m with locAck := true }) s)
  | .moveReq shard base dest lc level load => moveReqAt shard base dest lc level load s
  | .writerInc shard => writerIncAt shard s
  | .writerDec shard => writerDecAt shard s
  | .service g up => serviceAt t g up s
  | .flushReq what tag => flushReqAt t what tag s
  | .flushDone tag timeout => flushDoneAt t tag timeout s
  | .offer o => offerAt t o s
  | .answer f send consumers => answerAt t f send consumers s
  | .gRead g k list => sendItem t (partner t) (.gData k (readG s g list)) s
  | .gData k g => gDataAt t k g s
  | .gMark g stash spilled pend => gMarkAt g stash spilled pend s
  | .trigger g k => triggerAt t g k s
  | .release g k stash spilled cls => releaseAt t g k stash spilled cls s
  | .batch slot k news _ => batchAt t slot k news s
  | .epochBump k e => epochBumpAt t k e s
  | .wake thread w => wakeItem t thread [w] s

/-- An item of the claim channel takes effect in a twin (R103, R104). -/
def applyClaim (t : TwinId) (i : ClaimItem) (s : Block) : Block :=
  match i with
  | .fwdClaim eng g d tag => fwdClaimAt t eng g d tag s
  | .decline eng tag newer => declineAt t eng tag newer s
  | .grant w tag dd load => grantAt t w tag dd load s
  | .grantReturn node gen fenced => returnNode node gen fenced s
  | .acceptItem node gen _ stale => acceptRec node gen stale s
  | .complete c => completionAt t c s
  | .proxy c => proxyAt t c s
  | .proxyGrant node gen eng _ => proxyGrantAt node gen eng s
  | .proxyRefused node => proxyRefusedAt node s
  | .proxyBack node => proxyBackAt node s

/-- The item at the head of the edge channel toward a twin arrives, if it is of the command's kind. -/
def edgeCmd (t : TwinId) (p : EdgeItem → Bool) (s : Block) : Block :=
  onTwin t (fun s => match takeEdge t p s with
    | some (i, s1) => applyItem t i s1
    | none => s) s

/-- The item at the head of the claim channel toward a twin arrives, if it is of the command's kind. -/
def claimCmd (t : TwinId) (p : ClaimItem → Bool) (s : Block) : Block :=
  onTwin t (fun s => match takeClaim t p s with
    | some (i, s1) => applyClaim t i s1
    | none => s) s

/-! ### The steps that follow from a command -/

/-- A Camette-served node that turned READY is carried out (R39). -/
def carryOut (id : Nat) (s : Block) : Block :=
  let k := (nodeOf s id).kind
  if k = kFence then fenceReady id s
  else if k = kNotify then notifyReady id s
  else if k = kStepMark then stepMarkReady id s
  else if k = kThreadWake then threadWakeReady id s
  else pushWork [.internalDone id] s

/-- A step that brings a wake of a thread to its Desk. -/
def wakeStep (t : TwinId) (x : Nat) (w : Work) : Option WakeSrc :=
  match w with
  | .item u (.wake y src) => if u = t ∧ y = x then some src else none
  | _ => none

/-- An item takes effect in its sender's own twin: a wake together with those of its thread that THREAD_WAKE nodes of the twin
have issued in the same desk cycle (R323). -/
def itemStep (t : TwinId) (i : EdgeItem) (s : Block) : Block :=
  match i with
  | .wake x w =>
    wakeItem t x (w :: s.work.filterMap (wakeStep t x))
      { s with work := s.work.filter fun v => (wakeStep t x v).isNone }
  | _ => applyItem t i s

/-- One step of the cascade is taken. -/
def takeStep (w : Work) (s : Block) : Block :=
  match w with
  | .item t i => itemStep t i s
  | .credits _ cs => landCredits cs s
  | .evaluate node org orgId => evaluate node org orgId s
  | .internal node => carryOut node s
  | .freeNode node => freeNode node s
  | .place node released again => place node released again s
  | .internalDone node => internalDone node s
  | .skipDone node => skipDone node s
  | .sendOn t => sendOn t s
  | .retLater t l => enter t l s
  | .unbound sel => unboundAt sel s
  | .flushEnd w ok => match w with
    | .bowl x id => bowlFlushed x id s
    | _ => flushEnded w ok s
  | .drainEnd w ok => drainEnded w ok s
  | .retryMoves t => retryMoves t s
  | .retryWaits t => retryWaits t s
  | .retryProxy t g => retryProxy t g s
  | .holdRelease t k => holdRelease t k s
  | .decide t k => takeOffer t k s
  | .twinFatal t cause => twinFatal t cause s
  | .crossing i => takeWord i s
  | .heldWrite w => windowTake w.src w.ctx w.parts s

/-- One step of the cascade: taken, or, where it falls to a halted twin, kept until that resumes (R393). -/
def doWork (w : Work) (s : Block) : Block :=
  if (stepTwin w).any (fun t => (tw s t).halted) then { s with heldSteps := s.heldSteps ++ [w] } else takeStep w s

/-- With no step left to take, Returns goes on with what it has in hand, where it can (R163). -/
def kick (s : Block) : Option TwinId := [TwinId.t0, .t1].find? (canSendOn s)

/-- The cascade, first in first out, as far as the fuel lasts. -/
def settleFuel : Nat → Block → Block
  | 0, s => s
  | n + 1, s =>
    match s.work with
    | [] => match kick s with
      | none => s
      | some t => settleFuel n (sendOn t s)
    | w :: ws => settleFuel n (doWork w { s with work := ws })

/-- The cascade of one command. Every node completes once between two rearms, so the fuel is not reached. -/
def settle (s : Block) : Block := settleFuel 4294967296 s

/-! ### The words a command reads (R355) -/

/-- The first word of a node record. -/
def nodeRead (id : Nat) : SramWord := { twin := homeOf id, group := 0x01, word := 4 * slotOf id }

/-- A word of the circulation records or of the engine table. -/
def deskRead (t : TwinId) : SramWord := { twin := t, group := 0x07 }

def creditRead (s : Block) (t : TwinId) : List SramWord :=
  match (tw s t).edgeIn with
  | .credit c :: _ => [nodeRead (c.word % 2 ^ 20)]
  | _ => []

/-- The node that the target test of a mirror edge, or the Larder, reads at the head of the edge channel (R76, R188). -/
def edgeNodeRead (s : Block) (t : TwinId) : List SramWord :=
  match (tw s t).edgeIn with
  | .targetRead _ _ target :: _ => [nodeRead target]
  | .gRead g _ list :: _ =>
    let n := nodeOf s g
    nodeRead g :: (if list && decide (n.succLen > 0) then
      [{ twin := homeOf g, group := 0x04, word := n.succBase % 2 ^ 22 / 2 }] else [])
  | _ => []

def tallyRead (x : Nat) : SramWord := { twin := tallyTwin x, group := 0x14, word := x % 131072 * 2 }

/-- The entries that the packets and the commands of a tick name. -/
def tickReads (s : Block) (t : TwinId) : List SramWord :=
  ((tw s t).bank.buf.take 16).map (fun p => tallyRead (pktTally p)) ++ (tw s t).bank.cmds.map fun c => tallyRead c.sel

/-- A register read of an always-on counter, or of a Recipe entry. -/
def registerReads (s : Block) (a : Nat) : List SramWord :=
  match placeOf a with
  | .page key off =>
    if 0x40 ≤ off ∧ off < 0x100 then
      if 256 ≤ key then
        [TwinId.t0, .t1].map fun t => { twin := t, group := 0x12, word := 1024 + (key - 256) * 24 + (off - 0x40) / 8 }
      else if 16 ≤ key ∧ (off - 0x40) / 8 < counterCount (key % 16) then
        [{ twin := twinOf ((key - 16) / 16), group := 0x12, word := key % 16 * 24 + (off - 0x40) / 8 }]
      else []
    else if key = fmtKey ∧ 0x120 ≤ off ∧ off < 0x138 then
      (shownRecipe s).toList.map fun i => { group := 0x20, word := i * 3 + (off - 0x120) / 8 }
    else []
  | _ => []

/-- The words that a command names and reads, whether it changes them or not (R355; log entry 49). -/
def readsOf (c : Instr) (s : Block) : List SramWord :=
  match c with
  | .accept port _ => [deskRead (primary s (portNum port))]
  | .complete _ r => [nodeRead r.node.toNat, deskRead (homeOf r.node.toNat)]
  | .fault _ r => [nodeRead r.node.toNat, deskRead (homeOf r.node.toNat)]
  | .acceptItem t => [deskRead t]
  | .completeItem t => [deskRead t]
  | .credit t => creditRead s t
  | .skipCredit t => creditRead s t
  | .targetRead t => edgeNodeRead s t
  | .gRead t => edgeNodeRead s t
  | .tallyPacket w => [tallyRead (pktTally w.toNat)]
  | .tallyTick => tickReads s .t0 ++ tickReads s .t1
  | .shardQuery _ k =>
    let x := shardSel s k.toNat
    [{ twin := ownerOf x, group := 0x08, word := x % 131072 * 3 }]
  | .tubeQuery _ k =>
    let x := tubeSelOf s k.toNat
    [{ twin := twinOf (x / 32768), group := 0x0D, word := x % 32768 * 2 }]
  | .bowlQuery _ k =>
    let x := bowlSelOf s k.toNat
    [{ twin := twinOf (x / 512), group := 0x0D, word := 65536 + x % 512 * 16 }]
  | .threadQuery _ t => [{ twin := t, group := 0x10, word := threadSel s t % 2048 * 3 }]
  | .registerRead _ (.cts a) _ => registerReads s a.toNat
  | _ => []

/-- What a command does to the block: its own effect, what follows from it, and an injected error that a read of the
command meets (R355). The outputs are those of this command. -/
def effect (ws : Block → List SramWord) (f : Block → Block) (s : Block) : Block :=
  settle (consumeInjections s (ws s) (settle (f { s with out := [] })))

/-- A command that reads words by name takes its effect; the queue is left alone. -/
def runReading (ws : Block → List SramWord) (f : Block → Block) (s : State) : Host.Outcome State Fault Refusal :=
  .next { s with blk := effect ws f s.blk }

/-- A command takes its effect; the queue is left alone. -/
def run (f : Block → Block) (s : State) : Host.Outcome State Fault Refusal := runReading (fun _ => []) f s

end Sys2Proof.Machine
end

