-- ==== Sys2Proof/Machine/RowsDesk.lean ====
section
/-! DEFINITION. The commands of the engine ports, the claim channel and the summaries (04). -/

namespace Sys2Proof.Machine

/-- CLAIM (R94). -/
def execClaim (port : Port) (word : Word32) (s : State) : Host.Outcome State Fault Refusal :=
  run (takeWord (.claim port word)) s

/-- CLAIM_RESAMPLE (R100). -/
def execClaimResample (eng : EngineId) (s : State) : Host.Outcome State Fault Refusal := run (resample eng.toNat) s

/-- ACCEPT (R98). -/
def execAccept (port : Port) (r : Report) (s : State) : Host.Outcome State Fault Refusal :=
  runReading (readsOf (.accept port r)) (takeWord (.accept port r)) s

/-- COMPLETE (R99). -/
def execComplete (port : Port) (r : Report) (s : State) : Host.Outcome State Fault Refusal :=
  runReading (readsOf (.complete port r)) (takeWord (.complete port r)) s

/-- FAULT (R160). -/
def execFault (port : Port) (r : Report) (s : State) : Host.Outcome State Fault Refusal :=
  runReading (readsOf (.fault port r)) (takeWord (.fault port r)) s

/-- ACCEPT_TIMEOUT (R98). -/
def execAcceptTimeout (eng : EngineId) (s : State) : Host.Outcome State Fault Refusal :=
  run (acceptTimeout eng.toNat) s

/-- LANE_REFILL (R88). -/
def execLaneRefill (t : TwinId) (lane : LaneId) (s : State) : Host.Outcome State Fault Refusal :=
  run (onTwin t (laneRefill t (laneKey lane.group.toNat lane.lc lane.level.toNat lane.lane.toNat))) s

/-- FWD_CLAIM (R103). -/
def execFwdClaim (t : TwinId) (s : State) : Host.Outcome State Fault Refusal :=
  run (claimCmd t (fun i => match i with
    | .fwdClaim .. => true
    | _ => false)) s

/-- DECLINE (R103). -/
def execDecline (t : TwinId) (s : State) : Host.Outcome State Fault Refusal :=
  run (claimCmd t (fun i => match i with
    | .decline .. => true
    | _ => false)) s

/-- GRANT (R104). -/
def execGrant (t : TwinId) (s : State) : Host.Outcome State Fault Refusal :=
  run (claimCmd t (fun i => match i with
    | .grant .. => true
    | _ => false)) s

/-- GRANT_RETURN (R104). -/
def execGrantReturn (t : TwinId) (s : State) : Host.Outcome State Fault Refusal :=
  run (claimCmd t (fun i => match i with
    | .grantReturn .. => true
    | _ => false)) s

/-- ACCEPT_ITEM (R104). -/
def execAcceptItem (t : TwinId) (s : State) : Host.Outcome State Fault Refusal :=
  runReading (readsOf (.acceptItem t)) (claimCmd t (fun i => match i with
    | .acceptItem .. => true
    | _ => false)) s

/-- COMPLETE_ITEM (R104). -/
def execCompleteItem (t : TwinId) (s : State) : Host.Outcome State Fault Refusal :=
  runReading (readsOf (.completeItem t)) (claimCmd t (fun i => match i with
    | .complete .. => true
    | _ => false)) s

/-- PROXY (R87). -/
def execProxy (t : TwinId) (s : State) : Host.Outcome State Fault Refusal :=
  run (claimCmd t (fun i => match i with
    | .proxy .. => true
    | _ => false)) s

/-- PROXY_GRANT (R104). -/
def execProxyGrant (t : TwinId) (s : State) : Host.Outcome State Fault Refusal :=
  run (claimCmd t (fun i => match i with
    | .proxyGrant .. => true
    | _ => false)) s

/-- PROXY_REFUSED (R87). -/
def execProxyRefused (t : TwinId) (s : State) : Host.Outcome State Fault Refusal :=
  run (claimCmd t (fun i => match i with
    | .proxyRefused .. => true
    | _ => false)) s

/-- PROXY_BACK (R87). -/
def execProxyBack (t : TwinId) (s : State) : Host.Outcome State Fault Refusal :=
  run (claimCmd t (fun i => match i with
    | .proxyBack .. => true
    | _ => false)) s

/-- SUMMARY_ENTRY (R101). -/
def execSummaryEntry (t : TwinId) (entry : BitVec 7) (s : State) : Host.Outcome State Fault Refusal :=
  run (onTwin t (summaryEntry t entry.toNat)) s

end Sys2Proof.Machine
end

