-- ==== Sys2Proof/Machine/RowsGraph.lean ====
section
/-! DEFINITION. The commands of the Catalogue, the accession windows and mirror construction (02, 03). -/

namespace Sys2Proof.Machine

/-- CREDIT (R157). -/
def execCredit (t : TwinId) (s : State) : Host.Outcome State Fault Refusal :=
  runReading (readsOf (.credit t)) (edgeCmd t (fun i => match i with
    | .credit c => !c.skip
    | _ => false)) s

/-- SKIP_CREDIT (R157). -/
def execSkipCredit (t : TwinId) (s : State) : Host.Outcome State Fault Refusal :=
  runReading (readsOf (.skipCredit t)) (edgeCmd t (fun i => match i with
    | .credit c => c.skip
    | _ => false)) s

/-- WHEEL_WALK (R53). -/
def execWheelWalk (t : TwinId) (s : State) : Host.Outcome State Fault Refusal := run (onTwin t (wheelWalk t)) s

/-- NODE_WRITE (R68). -/
def execNodeWrite (src : Requester) (ctx : CtxId) (off : BitVec 16) (data : List Byte)
    (s : State) : Host.Outcome State Fault Refusal :=
  run (windowBytes src ctx.toNat off.toNat data) s

/-- EDGE_WRITE (R73). -/
def execEdgeWrite (src : Requester) (ctx : CtxId) (off : BitVec 16) (data : List Byte)
    (s : State) : Host.Outcome State Fault Refusal :=
  run (windowBytes src ctx.toNat off.toNat data) s

/-- RESERVED_AREA_WRITE (R65). -/
def execReservedAreaWrite (src : Requester) (ctx : CtxId) (_off : BitVec 16)
    (s : State) : Host.Outcome State Fault Refusal :=
  run (windowTake src ctx.toNat [.reserved]) s

/-- NODE_BANK (R66). -/
def execNodeBank (src : Requester) (ctx : CtxId) (whole : Bool) (operand : Word64)
    (s : State) : Host.Outcome State Fault Refusal :=
  run (windowCmd src ctx.toNat 0xF000 whole (.nodeBank operand.toNat)) s

/-- EDGE_BANK (R66). -/
def execEdgeBank (src : Requester) (ctx : CtxId) (whole : Bool) (operand : Word64)
    (s : State) : Host.Outcome State Fault Refusal :=
  run (windowCmd src ctx.toNat 0xF008 whole (.edgeBank operand.toNat)) s

/-- REARM (R80). -/
def execRearm (src : Requester) (ctx : CtxId) (whole : Bool) (s : State) : Host.Outcome State Fault Refusal :=
  run (windowCmd src ctx.toNat 0xF010 whole .rearm) s

/-- MIRROR_CLOSE (R78). -/
def execMirrorClose (src : Requester) (ctx : CtxId) (whole : Bool) (s : State) : Host.Outcome State Fault Refusal :=
  run (windowCmd src ctx.toNat 0xF018 whole .mirrorClose) s

/-- MIRROR_CLOSE_EFFECT (R78). -/
def execMirrorCloseEffect (t : TwinId) (ctx : CtxId) (s : State) : Host.Outcome State Fault Refusal :=
  run (onTwin t (mirrorCloseEffect t ctx.toNat)) s

/-- RELEASE (R81). -/
def execRelease (src : Requester) (ctx : CtxId) (whole : Bool) (s : State) : Host.Outcome State Fault Refusal :=
  run (windowCmd src ctx.toNat 0xF020 whole .release) s

/-- MARK (R82). -/
def execMark (src : Requester) (ctx : CtxId) (whole : Bool) (operand : Word64)
    (s : State) : Host.Outcome State Fault Refusal :=
  run (windowCmd src ctx.toNat 0xF028 whole (.mark operand.toNat)) s

/-- PARKED_WRITE (R72). -/
def execParkedWrite (ctx : CtxId) (s : State) : Host.Outcome State Fault Refusal := run (parkedWrite ctx.toNat) s

/-- SWEEP_END (R80). -/
def execSweepEnd (t : TwinId) (ctx : CtxId) (s : State) : Host.Outcome State Fault Refusal :=
  run (onTwin t (sweepEnd t ctx.toNat)) s

/-- MIRROR_REQUEST (R76). -/
def execMirrorRequest (t : TwinId) (s : State) : Host.Outcome State Fault Refusal :=
  run (edgeCmd t (fun i => match i with
    | .mirrorReq .. => true
    | _ => false)) s

/-- MIRROR_APPEND (R75). -/
def execMirrorAppend (t : TwinId) (s : State) : Host.Outcome State Fault Refusal :=
  run (edgeCmd t (fun i => match i with
    | .append .. => true
    | _ => false)) s

/-- MIRROR_ACK (R76). -/
def execMirrorAck (t : TwinId) (s : State) : Host.Outcome State Fault Refusal :=
  run (edgeCmd t (fun i => match i with
    | .mirrorAck .. => true
    | _ => false)) s

/-- CLOSE_MARKER (R78). -/
def execCloseMarker (t : TwinId) (s : State) : Host.Outcome State Fault Refusal :=
  run (edgeCmd t (fun i => match i with
    | .closeMarker .. => true
    | _ => false)) s

/-- TARGET_READ (R76). -/
def execTargetRead (t : TwinId) (s : State) : Host.Outcome State Fault Refusal :=
  runReading (readsOf (.targetRead t)) (edgeCmd t (fun i => match i with
    | .targetRead .. => true
    | _ => false)) s

/-- TARGET_ANSWER (R76). -/
def execTargetAnswer (t : TwinId) (s : State) : Host.Outcome State Fault Refusal :=
  run (edgeCmd t (fun i => match i with
    | .targetAns .. => true
    | _ => false)) s

end Sys2Proof.Machine
end

