-- ==== Sys2Proof/Machine/RowsShelf.lean ====
section
/-! DEFINITION. The commands of the Shelf List (05). -/

namespace Sys2Proof.Machine

/-- MOVE_REQ (R135). -/
def execMoveReq (t : TwinId) (s : State) : Host.Outcome State Fault Refusal :=
  run (edgeCmd t (fun i => match i with
    | .moveReq .. => true
    | _ => false)) s

/-- LOC (R135). -/
def execLoc (t : TwinId) (s : State) : Host.Outcome State Fault Refusal :=
  run (edgeCmd t (fun i => match i with
    | .loc .. => true
    | _ => false)) s

/-- LOC_ACK (R136). -/
def execLocAck (t : TwinId) (s : State) : Host.Outcome State Fault Refusal :=
  run (edgeCmd t (fun i => match i with
    | .locAck .. => true
    | _ => false)) s

/-- WRITER_INC (R134). -/
def execWriterInc (t : TwinId) (s : State) : Host.Outcome State Fault Refusal :=
  run (edgeCmd t (fun i => match i with
    | .writerInc .. => true
    | _ => false)) s

/-- WRITER_DEC (R136). -/
def execWriterDec (t : TwinId) (s : State) : Host.Outcome State Fault Refusal :=
  run (edgeCmd t (fun i => match i with
    | .writerDec .. => true
    | _ => false)) s

/-- SERVICE (R143). -/
def execService (t : TwinId) (s : State) : Host.Outcome State Fault Refusal :=
  run (edgeCmd t (fun i => match i with
    | .service .. => true
    | _ => false)) s

/-- DESC_WRITE_ACK (R136). -/
def execDescWriteAck (shard : BitVec 18) (s : State) : Host.Outcome State Fault Refusal :=
  run (onTwin (ownerOf shard.toNat) (descAnswer shard.toNat true)) s

/-- DESC_WRITE_ERROR (R141). -/
def execDescWriteError (shard : BitVec 18) (s : State) : Host.Outcome State Fault Refusal :=
  run (onTwin (ownerOf shard.toNat) (descAnswer shard.toNat false)) s

/-- SHARD_ALLOC (R128). -/
def execShardAlloc (src : Requester) (ctx : CtxId) (cluster : BitVec 7) (toCluster pin : Bool)
    (s : State) : Host.Outcome State Fault Refusal :=
  run (pageCmd src (ctxKey ctx.toNat) (shardAlloc ctx.toNat cluster.toNat toCluster pin)) s

/-- SHARD_FREE (R128). -/
def execShardFree (src : Requester) (ctx : CtxId) (s : State) : Host.Outcome State Fault Refusal :=
  run (pageCmd src (ctxKey ctx.toNat) (shardFree ctx.toNat)) s

/-- SHARD_MOVE (R128). -/
def execShardMove (src : Requester) (ctx : CtxId) (cluster : BitVec 7) (toCluster : Bool)
    (s : State) : Host.Outcome State Fault Refusal :=
  run (pageCmd src (ctxKey ctx.toNat) (shardMove ctx.toNat cluster.toNat toCluster)) s

/-- SHARD_QUERY (R128). -/
def execShardQuery (src : Requester) (ctx : CtxId) (s : State) : Host.Outcome State Fault Refusal :=
  runReading (readsOf (.shardQuery src ctx)) (pageCmd src (ctxKey ctx.toNat) (shardQuery ctx.toNat)) s

/-- ENGINE_REMOVE (R143). -/
def execEngineRemove (src : Requester) (t : TwinId) (wholePort : Bool) (eng : EngineId)
    (s : State) : Host.Outcome State Fault Refusal :=
  run (pageCmd src (twKey t shlfP) (engineCtl t false wholePort eng.toNat)) s

/-- ENGINE_RESTORE (R143). -/
def execEngineRestore (src : Requester) (t : TwinId) (wholePort : Bool) (eng : EngineId)
    (s : State) : Host.Outcome State Fault Refusal :=
  run (pageCmd src (twKey t shlfP) (engineCtl t true wholePort eng.toNat)) s

end Sys2Proof.Machine
end

