-- ==== Sys2Proof/Machine/RowsReturns.lean ====
section
/-! DEFINITION. The commands of Returns, the Larder and the Recipe Table (06, 07). -/

namespace Sys2Proof.Machine

/-- FLUSH_REQ (R157). -/
def execFlushReq (t : TwinId) (s : State) : Host.Outcome State Fault Refusal :=
  run (edgeCmd t (fun i => match i with
    | .flushReq .. => true
    | _ => false)) s

/-- FLUSH_DONE (R157). -/
def execFlushDone (t : TwinId) (s : State) : Host.Outcome State Fault Refusal :=
  run (edgeCmd t (fun i => match i with
    | .flushDone .. => true
    | _ => false)) s

/-- FLUSH_ACK_READ (R155). -/
def execFlushAckRead (cluster : BitVec 7) (answer : Option Word64) (s : State) : Host.Outcome State Fault Refusal :=
  run (flushAckRead cluster.toNat (answer.map (·.toNat))) s

/-- FLUSH_RETRY (R155). -/
def execFlushRetry (what : RetryOf) (s : State) : Host.Outcome State Fault Refusal :=
  run (match what with
    | .flush cluster => flushRetry cluster.toNat
    | .drain t => drainRetry t) s

/-- FLUSH_TIMEOUT (R159). -/
def execFlushTimeout (cluster : BitVec 7) (s : State) : Host.Outcome State Fault Refusal :=
  run (flushTimeout cluster.toNat) s

/-- DRAIN_READ_ANSWER (R158). -/
def execDrainReadAnswer (t : TwinId) (point : DrainPoint) (ok : Bool) (s : State) : Host.Outcome State Fault Refusal :=
  run (drainAnswer t point ok) s

/-- DRAIN_TIMEOUT (R159). -/
def execDrainTimeout (t : TwinId) (s : State) : Host.Outcome State Fault Refusal := run (drainTimeout t) s

/-- OFFER (R186). -/
def execOffer (t : TwinId) (s : State) : Host.Outcome State Fault Refusal :=
  run (edgeCmd t (fun i => match i with
    | .offer .. => true
    | _ => false)) s

/-- ANSWER (R185). -/
def execAnswer (t : TwinId) (s : State) : Host.Outcome State Fault Refusal :=
  run (edgeCmd t (fun i => match i with
    | .answer .. => true
    | _ => false)) s

/-- G_READ (R188). -/
def execGRead (t : TwinId) (s : State) : Host.Outcome State Fault Refusal :=
  runReading (readsOf (.gRead t)) (edgeCmd t (fun i => match i with
    | .gRead .. => true
    | _ => false)) s

/-- G_DATA (R188). -/
def execGData (t : TwinId) (s : State) : Host.Outcome State Fault Refusal :=
  run (edgeCmd t (fun i => match i with
    | .gData .. => true
    | _ => false)) s

/-- G_MARK (R196). -/
def execGMark (t : TwinId) (s : State) : Host.Outcome State Fault Refusal :=
  run (edgeCmd t (fun i => match i with
    | .gMark .. => true
    | _ => false)) s

/-- TRIGGER (R194). -/
def execTrigger (t : TwinId) (s : State) : Host.Outcome State Fault Refusal :=
  run (edgeCmd t (fun i => match i with
    | .trigger .. => true
    | _ => false)) s

/-- RELEASE_ITEM (R197). -/
def execReleaseItem (t : TwinId) (s : State) : Host.Outcome State Fault Refusal :=
  run (edgeCmd t (fun i => match i with
    | .release .. => true
    | _ => false)) s

/-- RECIPE_SWEEP_END (R202). -/
def execRecipeSweepEnd (s : State) : Host.Outcome State Fault Refusal := run recipeSweepEnd s

end Sys2Proof.Machine
end

