-- ==== Sys2Proof/Machine/RowsSorter.lean ====
section
/-! DEFINITION. The commands of the Sorter and of the Tally Bank (08, 09). -/

namespace Sys2Proof.Machine

/-- HEADER_READ_DONE (R219). -/
def execHeaderReadDone (t : TwinId) (slot : BitVec 6) (header : List Word64)
    (s : State) : Host.Outcome State Fault Refusal :=
  run (headerReadDone t slot.toNat (header.map (·.toNat))) s

/-- SCORE_READ_DONE (R220). -/
def execScoreReadDone (t : TwinId) (slot : BitVec 6) (line : Nat) (scores : List (BitVec 16))
    (s : State) : Host.Outcome State Fault Refusal :=
  run (scoreReadDone t slot.toNat line (scores.map (·.toNat))) s

/-- SELECTION_WRITE_ACK (R221). -/
def execSelectionWriteAck (t : TwinId) (slot : BitVec 6) (s : State) : Host.Outcome State Fault Refusal :=
  run (selectionWriteAck t slot.toNat) s

/-- BATCH (R218). -/
def execBatch (t : TwinId) (s : State) : Host.Outcome State Fault Refusal :=
  run (edgeCmd t (fun i => match i with
    | .batch .. => true
    | _ => false)) s

/-- SORT_CANCEL (R228). -/
def execSortCancel (src : Requester) (ctx : CtxId) (s : State) : Host.Outcome State Fault Refusal :=
  run (pageCmd src (ctxKey ctx.toNat) (sortCancel ctx.toNat)) s

/-- EPOCH_BUMP (R228). -/
def execEpochBump (t : TwinId) (s : State) : Host.Outcome State Fault Refusal :=
  run (edgeCmd t (fun i => match i with
    | .epochBump .. => true
    | _ => false)) s

/-- CANCEL_POINT (R228). -/
def execCancelPoint (ctx : CtxId) (s : State) : Host.Outcome State Fault Refusal := run (cancelPoint ctx.toNat) s

/-- ROUTE_IO (R236). -/
def execRouteIo (t : TwinId) (slot : BitVec 6) (which : RouteAccess) (s : State) : Host.Outcome State Fault Refusal :=
  run (routeIo t slot.toNat which) s

/-- TALLY_PACKET (R239). -/
def execTallyPacket (packet : BitVec 128) (s : State) : Host.Outcome State Fault Refusal :=
  runReading (readsOf (.tallyPacket packet)) (tallyPacket packet.toNat) s

/-- TALLY_TICK (R241). -/
def execTallyTick (s : State) : Host.Outcome State Fault Refusal := runReading (readsOf .tallyTick) tallyTick s

/-- TALLY_ALLOC (R247). -/
def execTallyAlloc (src : Requester) (ctx : CtxId) (s : State) : Host.Outcome State Fault Refusal :=
  run (pageCmd src (ctxKey ctx.toNat) (tallyCommand ctx.toNat 1)) s

/-- TALLY_FREE (R247). -/
def execTallyFree (src : Requester) (ctx : CtxId) (s : State) : Host.Outcome State Fault Refusal :=
  run (pageCmd src (ctxKey ctx.toNat) (tallyCommand ctx.toNat 2)) s

/-- TALLY_ARM (R248). -/
def execTallyArm (src : Requester) (ctx : CtxId) (s : State) : Host.Outcome State Fault Refusal :=
  run (pageCmd src (ctxKey ctx.toNat) (tallyCommand ctx.toNat 3)) s

/-- TALLY_DISARM (R247). -/
def execTallyDisarm (src : Requester) (ctx : CtxId) (s : State) : Host.Outcome State Fault Refusal :=
  run (pageCmd src (ctxKey ctx.toNat) (tallyCommand ctx.toNat 4)) s

/-- TALLY_RESUME (R247). -/
def execTallyResume (src : Requester) (ctx : CtxId) (s : State) : Host.Outcome State Fault Refusal :=
  run (pageCmd src (ctxKey ctx.toNat) (tallyCommand ctx.toNat 5)) s

/-- TALLY_RESET (R247). -/
def execTallyReset (src : Requester) (ctx : CtxId) (s : State) : Host.Outcome State Fault Refusal :=
  run (pageCmd src (ctxKey ctx.toNat) (tallyCommand ctx.toNat 6)) s

/-- TALLY_ADD (R247). -/
def execTallyAdd (src : Requester) (ctx : CtxId) (s : State) : Host.Outcome State Fault Refusal :=
  run (pageCmd src (ctxKey ctx.toNat) (tallyCommand ctx.toNat 7)) s

/-- TALLY_QUERY (R247). -/
def execTallyQuery (src : Requester) (ctx : CtxId) (s : State) : Host.Outcome State Fault Refusal :=
  run (pageCmd src (ctxKey ctx.toNat) (tallyCommand ctx.toNat 8)) s

end Sys2Proof.Machine
end

