-- ==== Sys2Proof/Machine/RowsTubes.lean ====
section
/-! DEFINITION. The commands of Tubes and Mixing Bowls (10). -/

namespace Sys2Proof.Machine

/-- TUBE_OPEN (R262). -/
def execTubeOpen (src : Requester) (ctx : CtxId) (s : State) : Host.Outcome State Fault Refusal :=
  run (pageCmd src (ctxKey ctx.toNat) (tubeOpen ctx.toNat)) s

/-- TUBE_CLOSE (R262). -/
def execTubeClose (src : Requester) (ctx : CtxId) (s : State) : Host.Outcome State Fault Refusal :=
  run (pageCmd src (ctxKey ctx.toNat) (tubeClose ctx.toNat)) s

/-- TUBE_QUERY (R278). -/
def execTubeQuery (src : Requester) (ctx : CtxId) (s : State) : Host.Outcome State Fault Refusal :=
  runReading (readsOf (.tubeQuery src ctx)) (pageCmd src (ctxKey ctx.toNat) (tubeQuery ctx.toNat)) s

/-- EP_WRITE_ACK (R262). -/
def execEpWriteAck (tube : BitVec 16) (s : State) : Host.Outcome State Fault Refusal := run (epWriteAck tube.toNat) s

/-- EP_READ_ANSWER (R262). -/
def execEpReadAnswer (tube : BitVec 16) (s : State) : Host.Outcome State Fault Refusal :=
  run (epReadAnswer tube.toNat) s

/-- TUBE_IO (R262). -/
def execTubeIo (tube : BitVec 16) (s : State) : Host.Outcome State Fault Refusal := run (tubeIo tube.toNat) s

/-- TX_SEND (R264). -/
def execTxSend (tag : CtxId) (eng : EngineId) (slot : BitVec 3) (len : BitVec 4) (srcOff : BitVec 18) (beats : List Word64)
    (s : State) : Host.Outcome State Fault Refusal :=
  run (onCluster eng.toNat (txSend tag.toNat eng.toNat slot.toNat len.toNat srcOff.toNat (beats.map (·.toNat)))) s

/-- BEAT_ARRIVAL (R266). -/
def execBeatArrival (eng : EngineId) (slot : BitVec 3) (s : State) : Host.Outcome State Fault Refusal :=
  run (onCluster eng.toNat (beatArrival eng.toNat slot.toNat)) s

/-- RX_MBOX (R268). -/
def execRxMbox (tag : CtxId) (eng : EngineId) (slot : BitVec 3) (s : State) : Host.Outcome State Fault Refusal :=
  run (onCluster eng.toNat (rxMbox tag.toNat eng.toNat slot.toNat)) s

/-- RX_DONE (R268). -/
def execRxDone (tag : CtxId) (eng : EngineId) (slot : BitVec 3) (s : State) : Host.Outcome State Fault Refusal :=
  run (onCluster eng.toNat (rxEnd false tag.toNat eng.toNat slot.toNat)) s

/-- RX_DROP (R268). -/
def execRxDrop (tag : CtxId) (eng : EngineId) (slot : BitVec 3) (s : State) : Host.Outcome State Fault Refusal :=
  run (onCluster eng.toNat (rxEnd true tag.toNat eng.toNat slot.toNat)) s

/-- CREDIT_RETURN (R265). -/
def execCreditReturn (eng : EngineId) (slot : BitVec 3) (s : State) : Host.Outcome State Fault Refusal :=
  run (onCluster eng.toNat (creditReturn eng.toNat slot.toNat)) s

/-- BOWL_OPEN (R278). -/
def execBowlOpen (src : Requester) (ctx : CtxId) (s : State) : Host.Outcome State Fault Refusal :=
  run (pageCmd src (ctxKey ctx.toNat) (bowlOpen ctx.toNat)) s

/-- BOWL_CLOSE (R276). -/
def execBowlClose (src : Requester) (ctx : CtxId) (s : State) : Host.Outcome State Fault Refusal :=
  run (pageCmd src (ctxKey ctx.toNat) (bowlClose ctx.toNat)) s

/-- BOWL_QUERY (R278). -/
def execBowlQuery (src : Requester) (ctx : CtxId) (s : State) : Host.Outcome State Fault Refusal :=
  runReading (readsOf (.bowlQuery src ctx)) (pageCmd src (ctxKey ctx.toNat) (bowlQuery ctx.toNat)) s

/-- BOWL_RESET (R276). -/
def execBowlReset (src : Requester) (ctx : CtxId) (s : State) : Host.Outcome State Fault Refusal :=
  run (pageCmd src (ctxKey ctx.toNat) (bowlReset ctx.toNat)) s

/-- BOWL_PUT (R272). -/
def execBowlPut (src : Requester) (t : TwinId) (put : Word64) (s : State) : Host.Outcome State Fault Refusal :=
  run (putAccess src t (bowlPut t put.toNat)) s

/-- BLOCK_HEADER_READ (R273). -/
def execBlockHeaderRead (bowl : BitVec 10) (header : List Word64) (s : State) : Host.Outcome State Fault Refusal :=
  run (blockHeaderRead bowl.toNat (header.map (·.toNat))) s

/-- SELECTION_READ (R274). -/
def execSelectionRead (bowl : BitVec 10) (header : List Word64) (counts : List (BitVec 16))
    (s : State) : Host.Outcome State Fault Refusal :=
  run (selectionRead bowl.toNat (header.map (·.toNat)) (counts.map (·.toNat))) s

/-- RESULT_WRITE_ACK (R274). -/
def execResultWriteAck (bowl : BitVec 10) (s : State) : Host.Outcome State Fault Refusal :=
  run (resultWriteAck bowl.toNat) s

/-- BOWL_IO (R283). -/
def execBowlIo (bowl : BitVec 10) (s : State) : Host.Outcome State Fault Refusal := run (bowlIo bowl.toNat) s

/-- SOURCE_COPY_END (R280). -/
def execSourceCopyEnd (eng : EngineId) (slot : BitVec 3) (s : State) : Host.Outcome State Fault Refusal :=
  run (onCluster eng.toNat (sourceCopyEnd eng.toNat slot.toNat)) s

/-- BLOCK_DATA_READ (R275). -/
def execBlockDataRead (bowl : BitVec 10) (block : List Word32) (result : List Word32)
    (s : State) : Host.Outcome State Fault Refusal :=
  run (blockDataRead bowl.toNat (block.map (·.toNat)) (result.map (·.toNat))) s

end Sys2Proof.Machine
end

