-- ==== Sys2Proof/Machine/RowsContexts.lean ====
section
/-! DEFINITION. The commands of contexts, the Bake Table and notification (11). -/

namespace Sys2Proof.Machine

/-- CTX_OPEN (R290). -/
def execCtxOpen (src : Requester) (home : TwinId) (s : State) : Host.Outcome State Fault Refusal :=
  run (pageCmd src blkKey (ctxOpen home)) s

/-- OPEN_EFFECT (R290). -/
def execOpenEffect (ctx : CtxId) (s : State) : Host.Outcome State Fault Refusal := run (openEffect ctx.toNat) s

/-- CTX_CLOSE (R289). -/
def execCtxClose (src : Requester) (s : State) : Host.Outcome State Fault Refusal :=
  run (pageCmd src blkKey ctxClose) s

/-- CTX_FAULT (R307). -/
def execCtxFault (src : Requester) (s : State) : Host.Outcome State Fault Refusal :=
  run (pageCmd src blkKey ctxFault) s

/-- CTX_CTL_CLOSE (R291). -/
def execCtxCtlClose (src : Requester) (ctx : CtxId) (s : State) : Host.Outcome State Fault Refusal :=
  run (pageCmd src (ctxKey ctx.toNat) (ctxCtlClose ctx.toNat)) s

/-- FENCE_ITEM (R303). -/
def execFenceItem (t : TwinId) (s : State) : Host.Outcome State Fault Refusal := run (fenceItem t) s

/-- FENCE_EFFECT (R303). -/
def execFenceEffect (t : TwinId) (ctx : CtxId) (s : State) : Host.Outcome State Fault Refusal :=
  run (fenceEffect t ctx.toNat) s

/-- TEARDOWN_START (R305). -/
def execTeardownStart (t : TwinId) (s : State) : Host.Outcome State Fault Refusal := run (teardownStart t) s

/-- TEAR (R305). -/
def execTear (t : TwinId) (s : State) : Host.Outcome State Fault Refusal := run (tearAt t) s

/-- SWEPT (R305). -/
def execSwept (t : TwinId) (s : State) : Host.Outcome State Fault Refusal := run (sweptAt t) s

/-- ENGINE_WAIT_END (R305). -/
def execEngineWaitEnd (t : TwinId) (s : State) : Host.Outcome State Fault Refusal := run (engineWaitEnd t) s

/-- ENGINE_WAIT_LIMIT (R305). -/
def execEngineWaitLimit (t : TwinId) (s : State) : Host.Outcome State Fault Refusal := run (engineWaitLimit t) s

/-- SCRUB_POLL (R305). -/
def execScrubPoll (t : TwinId) (what : ScrubUnit) (answer : Option Word64)
    (s : State) : Host.Outcome State Fault Refusal :=
  run (scrubPoll t what (answer.map (·.toNat))) s

/-- SCRUB_LIMIT (R305). -/
def execScrubLimit (t : TwinId) (s : State) : Host.Outcome State Fault Refusal := run (scrubLimit t) s

/-- BAKE_TICK (R295). -/
def execBakeTick (s : State) : Host.Outcome State Fault Refusal := run bakeTick s

/-- BAKE_SLOT_WRITE (R297). -/
def execBakeSlotWrite (src : Requester) (t : TwinId) (acc : Access) (value : Word64)
    (s : State) : Host.Outcome State Fault Refusal :=
  run (pageCmd src (twKey t bakeP) (writeSlot t acc value.toNat)) s

/-- NOTIFY_REQUEST (R299). -/
def execNotifyRequest (ctx : CtxId) (s : State) : Host.Outcome State Fault Refusal := run (notifyRequest ctx.toNat) s

/-- MSIX_UNMASK (R302). -/
def execMsixUnmask (src : Requester) (ctx : CtxId) (vec : BitVec 4) (acc : Access) (value : Word64)
    (s : State) : Host.Outcome State Fault Refusal :=
  run (pageCmd src (ctxKey ctx.toNat) (writeMsix ctx.toNat vec.toNat acc value.toNat)) s

/-- NOTIFY_TAIL_WRITE (R301). -/
def execNotifyTailWrite (src : Requester) (ctx : CtxId) (acc : Access) (value : Word64)
    (s : State) : Host.Outcome State Fault Refusal :=
  run (pageCmd src (ctxKey ctx.toNat) (writeTail ctx.toNat acc value.toNat)) s

/-- HOST_ACCESS_DENIED (R285). -/
def execHostAccessDenied (port : BitVec 3) (fn : BitVec 8) (addr : BitVec 26) (isRead : Bool)
    (s : State) : Host.Outcome State Fault Refusal :=
  run (hostAccessDenied port.toNat fn.toNat addr.toNat isRead) s

end Sys2Proof.Machine
end

