-- ==== Sys2Proof/Machine/RowsThreads.lean ====
section
/-! DEFINITION. The commands of the thread port, the Thread Desks and the arbiter (12). -/

namespace Sys2Proof.Machine

/-- ASK (R313). -/
def execAsk (core : BitVec 3) (s : State) : Host.Outcome State Fault Refusal := run (takeWord (.ask core)) s

/-- REPORT_YIELD (R312). -/
def execReportYield (core : BitVec 3) (thread : BitVec 12) (asks : Bool)
    (s : State) : Host.Outcome State Fault Refusal :=
  run (takeWord (.reportYield core thread asks)) s

/-- REPORT_WAIT (R312). -/
def execReportWait (core : BitVec 3) (thread : BitVec 12) (asks : Bool) (arg : Word32)
    (s : State) : Host.Outcome State Fault Refusal :=
  run (takeWord (.reportWait core thread asks arg)) s

/-- REPORT_DELAY (R312). -/
def execReportDelay (core : BitVec 3) (thread : BitVec 12) (asks : Bool) (arg : Word32)
    (s : State) : Host.Outcome State Fault Refusal :=
  run (takeWord (.reportDelay core thread asks arg)) s

/-- REPORT_PREEMPTED (R312). -/
def execReportPreempted (core : BitVec 3) (thread : BitVec 12) (asks : Bool)
    (s : State) : Host.Outcome State Fault Refusal :=
  run (takeWord (.reportPreempted core thread asks)) s

/-- REPORT_EXIT (R312). -/
def execReportExit (core : BitVec 3) (thread : BitVec 12) (asks : Bool)
    (s : State) : Host.Outcome State Fault Refusal :=
  run (takeWord (.reportExit core thread asks)) s

/-- REPORT_FAULT (R312). -/
def execReportFault (core : BitVec 3) (thread : BitVec 12) (asks : Bool)
    (s : State) : Host.Outcome State Fault Refusal :=
  run (takeWord (.reportFault core thread asks)) s

/-- WAKE (R322). -/
def execWake (core : BitVec 3) (thread : BitVec 12) (s : State) : Host.Outcome State Fault Refusal :=
  run (takeWord (.wake core thread)) s

/-- WAKE_ITEM (R322). -/
def execWakeItem (t : TwinId) (s : State) : Host.Outcome State Fault Refusal :=
  run (edgeCmd t (fun i => match i with
    | .wake .. => true
    | _ => false)) s

/-- DESK_ASK (R318). -/
def execDeskAsk (t : TwinId) (s : State) : Host.Outcome State Fault Refusal := run (deskAsk t) s

/-- THREAD_OFFER (R318). -/
def execThreadOffer (t : TwinId) (s : State) : Host.Outcome State Fault Refusal := run (threadOffer t) s

/-- NONE (R318). -/
def execNoneAnswer (t : TwinId) (s : State) : Host.Outcome State Fault Refusal := run (noneAnswer t) s

/-- TAKE (R318). -/
def execTakeThread (t : TwinId) (s : State) : Host.Outcome State Fault Refusal := run (takeThread t) s

/-- THREAD_RELEASE (R318). -/
def execThreadRelease (t : TwinId) (s : State) : Host.Outcome State Fault Refusal := run (threadRelease t) s

/-- OFFER_WINDOW (R318). -/
def execOfferWindow (core : BitVec 3) (s : State) : Host.Outcome State Fault Refusal := run (offerWindow core.toNat) s

/-- THREAD_SUMMARY (R317). -/
def execThreadSummary (t : TwinId) (s : State) : Host.Outcome State Fault Refusal := run (threadSummary t) s

/-- PREEMPT_LIMIT (R320). -/
def execPreemptLimit (core : BitVec 3) (s : State) : Host.Outcome State Fault Refusal :=
  run (preemptLimit core.toNat) s

/-- DELAY_TICK (R323). -/
def execDelayTick (s : State) : Host.Outcome State Fault Refusal := run delayTick s

/-- THREAD_CREATE (R330). -/
def execThreadCreate (src : Requester) (t : TwinId) (start : Bool) (s : State) : Host.Outcome State Fault Refusal :=
  run (pageCmd src (twKey t thrdP) (threadCreate t start)) s

/-- THREAD_DESTROY (R327). -/
def execThreadDestroy (src : Requester) (t : TwinId) (s : State) : Host.Outcome State Fault Refusal :=
  run (pageCmd src (twKey t thrdP) (threadDestroy t)) s

/-- THREAD_SET (R330). -/
def execThreadSet (src : Requester) (t : TwinId) (s : State) : Host.Outcome State Fault Refusal :=
  run (pageCmd src (twKey t thrdP) (threadSet t)) s

/-- THREAD_CMD_WAKE (R322). -/
def execThreadCmdWake (src : Requester) (t : TwinId) (s : State) : Host.Outcome State Fault Refusal :=
  run (pageCmd src (twKey t thrdP) (threadCmdWake t)) s

/-- THREAD_QUERY (R330). -/
def execThreadQuery (src : Requester) (t : TwinId) (s : State) : Host.Outcome State Fault Refusal :=
  runReading (readsOf (.threadQuery src t)) (pageCmd src (twKey t thrdP) (threadQuery t)) s

/-- CORE_REMOVE (R331). -/
def execCoreRemove (src : Requester) (t : TwinId) (core : BitVec 3) (s : State) : Host.Outcome State Fault Refusal :=
  run (pageCmd src (twKey t thrdP) (coreRemove core.toNat)) s

/-- CORE_RESTORE (R331). -/
def execCoreRestore (src : Requester) (t : TwinId) (core : BitVec 3) (s : State) : Host.Outcome State Fault Refusal :=
  run (pageCmd src (twKey t thrdP) (coreRestore core.toNat)) s

end Sys2Proof.Machine
end

