-- ==== Sys2Proof/Machine/RowsProofer.lean ====
section
/-! DEFINITION. The commands of the Proofer (13). -/

namespace Sys2Proof.Machine

/-- IDLE_EXPIRY (R335). -/
def execIdleExpiry (dom : BitVec 8) (s : State) : Host.Outcome State Fault Refusal := run (idleExpiry dom.toNat) s

/-- HOLD (R336). -/
def execHold (dom : BitVec 8) (s : State) : Host.Outcome State Fault Refusal := run (holdAt dom.toNat) s

/-- ABORT (R336). -/
def execAbort (dom : BitVec 8) (s : State) : Host.Outcome State Fault Refusal := run (abortAt dom.toNat) s

/-- WITHDRAWN (R336). -/
def execWithdrawn (dom : BitVec 8) (s : State) : Host.Outcome State Fault Refusal := run (withdrawnAt dom.toNat) s

/-- OB_EMPTY (R336). -/
def execObEmpty (dom : BitVec 8) (s : State) : Host.Outcome State Fault Refusal := run (obEmpty dom.toNat) s

/-- STOP_TIMEOUT (R336). -/
def execStopTimeout (dom : BitVec 8) (s : State) : Host.Outcome State Fault Refusal := run (stopTimeout dom.toNat) s

/-- GATE_EXPIRY (R337). -/
def execGateExpiry (dom : BitVec 8) (s : State) : Host.Outcome State Fault Refusal := run (gateExpiry dom.toNat) s

/-- ACCESS_WAKE (R338). -/
def execAccessWake (cluster : BitVec 7) (s : State) : Host.Outcome State Fault Refusal :=
  run (accessWake cluster.toNat) s

/-- CLK_OK (R338). -/
def execClkOk (dom : BitVec 8) (s : State) : Host.Outcome State Fault Refusal := run (clkOk dom.toNat) s

/-- BANK_POWER_GOOD (R334). -/
def execBankPowerGood (cluster : BitVec 7) (bank : BitVec 4) (s : State) : Host.Outcome State Fault Refusal :=
  run (bankPowerGood cluster.toNat bank.toNat) s

/-- CLU_CTL_WRITE (R338). -/
def execCluCtlWrite (src : Requester) (acc : Access) (value : Word64) (s : State) : Host.Outcome State Fault Refusal :=
  run (pageCmd src pwrKey (fun s => if covers acc 0 then cluCtl value.toNat s else s)) s

/-- CLOCK_STRETCH (R344). -/
def execClockStretch (dom : BitVec 8) (s : State) : Host.Outcome State Fault Refusal := run (clockStretch dom.toNat) s

/-- CAP_PERIOD (R339). -/
def execCapPeriod (s : State) : Host.Outcome State Fault Refusal := run capPeriod s

/-- PMBUS_READING (R341). -/
def execPmbusReading (w1 w2 : BitVec 16) (s : State) : Host.Outcome State Fault Refusal :=
  run (pmbusReading w1.toNat w2.toNat) s

/-- PMBUS_READING_LOST (R341). -/
def execPmbusReadingLost (s : State) : Host.Outcome State Fault Refusal := run pmbusLost s

/-- PMB_ALERT (R341). -/
def execPmbAlert (statusWord : BitVec 16) (s : State) : Host.Outcome State Fault Refusal :=
  run (pmbAlert statusWord.toNat) s

/-- AVS_ACK (R340). -/
def execAvsAck (rail : Rail) (s : State) : Host.Outcome State Fault Refusal := run (avsAck rail) s

/-- AVS_FAIL (R340). -/
def execAvsFail (rail : Rail) (s : State) : Host.Outcome State Fault Refusal := run (avsFail rail) s

/-- SETTLE_EXPIRY (R340). -/
def execSettleExpiry (s : State) : Host.Outcome State Fault Refusal := run settleExpiry s

/-- CLOCK_SWITCHED (R340). -/
def execClockSwitched (s : State) : Host.Outcome State Fault Refusal := run clockSwitched s

/-- BLOCK_GATE (R345). -/
def execBlockGate (src : Requester) (s : State) : Host.Outcome State Fault Refusal :=
  run (pageCmd src pwrKey blockGate) s

/-- TIME_LOAD (R343). -/
def execTimeLoad (src : Requester) (value : Word64) (s : State) : Host.Outcome State Fault Refusal :=
  run (pageCmd src timeKey (timeLoad value.toNat)) s

/-- TIME_SLEW (R343). -/
def execTimeSlew (src : Requester) (value : Word32) (s : State) : Host.Outcome State Fault Refusal :=
  run (pageCmd src timeKey (timeSlew value.toNat)) s

end Sys2Proof.Machine
end

