-- ==== Sys2Proof/Machine/RowsReliability.lean ====
section
/-! DEFINITION. The commands of error correction, the heartbeats, takeover, detach and rejoin (14). -/

namespace Sys2Proof.Machine

/-- PATROL_READ (R350). -/
def execPatrolRead (t : TwinId) (group : BitVec 8) (bank : BitVec 8) (word : BitVec 16) (err : ReadError)
    (s : State) : Host.Outcome State Fault Refusal :=
  run (patrolRead t group.toNat bank.toNat word.toNat err) s

/-- BANK_COPY_END (R357). -/
def execBankCopyEnd (t : TwinId) (s : State) : Host.Outcome State Fault Refusal := run (bankCopyEnd t) s

/-- MARCH_TEST_END (R358). -/
def execMarchTestEnd (t : TwinId) (failingRows : Nat) (s : State) : Host.Outcome State Fault Refusal :=
  run (marchTestEnd t failingRows) s

/-- ERR_INJECT_WRITE (R355). -/
def execErrInjectWrite (src : Requester) (page : PageId) (acc : Access) (value : Word64)
    (s : State) : Host.Outcome State Fault Refusal :=
  run (pageCmd src (keyOf page) (writeInject (keyOf page) acc value.toNat)) s

/-- HEARTBEAT (R361). -/
def execHeartbeat (t : TwinId) (s : State) : Host.Outcome State Fault Refusal := run (heartbeat t) s

/-- HEARTBEAT_TIMEOUT (R361). -/
def execHeartbeatTimeout (t : TwinId) (s : State) : Host.Outcome State Fault Refusal := run (heartbeatTimeout t) s

/-- WATCHDOG (R360). -/
def execWatchdog (t : TwinId) (s : State) : Host.Outcome State Fault Refusal := run (watchdog t) s

/-- WDOG_KICK (R373). -/
def execWdogKick (src : Requester) (t : TwinId) (value : Word64) (s : State) : Host.Outcome State Fault Refusal :=
  run (pageCmd src (twKey t relP) (wdogKick t value.toNat)) s

/-- FATAL (R361). -/
def execFatal (t : TwinId) (s : State) : Host.Outcome State Fault Refusal := run (fatalAt t) s

/-- LATCH_ANSWER (R361). -/
def execLatchAnswer (s : State) : Host.Outcome State Fault Refusal := run latchAnswer s

/-- RECORD_SWEEP_END (R362). -/
def execRecordSweepEnd (t : TwinId) (s : State) : Host.Outcome State Fault Refusal := run (recordSweepEnd t) s

/-- DUMP_END (R370). -/
def execDumpEnd (t : TwinId) (sections : BitVec 9) (poison : List (BitVec 8 × BitVec 32))
    (s : State) : Host.Outcome State Fault Refusal :=
  run (dumpEnd t sections.toNat (poison.map fun p => (p.1.toNat, p.2.toNat))) s

/-- DETACH (R365). -/
def execDetach (src : Requester) (t : TwinId) (s : State) : Host.Outcome State Fault Refusal :=
  run (pageCmd src blkKey (pairCtl (detach t))) s

/-- DETACH_DRAINED (R366). -/
def execDetachDrained (t : TwinId) (s : State) : Host.Outcome State Fault Refusal := run (detachDrained t) s

/-- HANDOVER (R366). -/
def execHandover (t : TwinId) (s : State) : Host.Outcome State Fault Refusal := run (handoverAt t) s

/-- A failing bank by its numbers. -/
def failNat (f : BankFail) : Nat × Nat × List Nat := (f.group.toNat, f.bank.toNat, f.rows.map (·.toNat))

/-- FULL_SELF_TEST_END (R366). -/
def execFullSelfTestEnd (t : TwinId) (fails : List BankFail) (logicOk : Bool)
    (s : State) : Host.Outcome State Fault Refusal :=
  run (fullSelfTestEnd t (fails.map failNat) logicOk) s

/-- REJOIN (R367). -/
def execRejoin (src : Requester) (t : TwinId) (s : State) : Host.Outcome State Fault Refusal :=
  run (pageCmd src blkKey (pairCtl (rejoin t))) s

/-- RESYNC (R367). -/
def execResync (t : TwinId) (s : State) : Host.Outcome State Fault Refusal := run (resyncAt t) s

/-- FAIL (R360). -/
def execFail (src : Requester) (t : TwinId) (s : State) : Host.Outcome State Fault Refusal :=
  run (pageCmd src blkKey (pairCtl (failTwin t))) s

/-- RECOVER (R368). -/
def execRecover (src : Requester) (t : TwinId) (s : State) : Host.Outcome State Fault Refusal :=
  run (pageCmd src blkKey (pairCtl (recover t))) s

end Sys2Proof.Machine
end

