-- ==== Sys2Proof/Machine/RowsObserve.lean ====
section
/-! DEFINITION. The commands of the freeze, the counters, the Day Book and the Inventory (15). -/

namespace Sys2Proof.Machine

/-- FREEZE (R381). -/
def execFreeze (src : Requester) (s : State) : Host.Outcome State Fault Refusal :=
  run (pageCmd src blkKey (freezeCmd 0)) s

/-- FREEZE_HALT (R392). -/
def execFreezeHalt (src : Requester) (twins : BitVec 2) (s : State) : Host.Outcome State Fault Refusal :=
  run (pageCmd src blkKey (freezeCmd twins.toNat)) s

/-- FREEZE_ITEM (R381). -/
def execFreezeItem (t : TwinId) (s : State) : Host.Outcome State Fault Refusal := run (freezeItem t) s

/-- FREEZE_APPLY (R382). -/
def execFreezeApply (s : State) : Host.Outcome State Fault Refusal := run freezeApply s

/-- THAW (R383). -/
def execThaw (src : Requester) (s : State) : Host.Outcome State Fault Refusal := run (pageCmd src blkKey thawCmd) s

/-- THAW_APPLY (R383). -/
def execThawApply (s : State) : Host.Outcome State Fault Refusal := run thawApply s

/-- HALT_LIMIT (R393). -/
def execHaltLimit (t : TwinId) (s : State) : Host.Outcome State Fault Refusal := run (haltLimit t) s

/-- OPT_START (R379). -/
def execOptStart (src : Requester) (t : TwinId) (first last : BitVec 12)
    (s : State) : Host.Outcome State Fault Refusal :=
  run (pageCmd src (twKey t cntP) (optCmd t true first.toNat last.toNat)) s

/-- OPT_STOP (R379). -/
def execOptStop (src : Requester) (t : TwinId) (first last : BitVec 12)
    (s : State) : Host.Outcome State Fault Refusal :=
  run (pageCmd src (twKey t cntP) (optCmd t false first.toNat last.toNat)) s

/-- RING_WRITE_ACK (R385). -/
def execRingWriteAck (t : TwinId) (s : State) : Host.Outcome State Fault Refusal := run (ringWriteAck t) s

/-- RING_IO (R389). -/
def execRingIo (t : TwinId) (s : State) : Host.Outcome State Fault Refusal := run (ringIo t) s

/-- DAYB_RD_WRITE (R385). -/
def execDaybRdWrite (src : Requester) (t : TwinId) (acc : Access) (value : Word64)
    (s : State) : Host.Outcome State Fault Refusal :=
  run (pageCmd src (twKey t daybP) (daybRdWrite t acc value.toNat)) s

/-- WFG_GO (R390). -/
def execWfgGo (src : Requester) (t : TwinId) (all : Bool) (ctx : CtxId)
    (s : State) : Host.Outcome State Fault Refusal :=
  run (pageCmd src (twKey t daybP) (wfgGo t all ctx.toNat)) s

/-- WFG_END (R390). -/
def execWfgEnd (t : TwinId) (s : State) : Host.Outcome State Fault Refusal := run (wfgEnd t) s

/-- INV_SEL (R391). -/
def execInvSel (src : Requester) (t : TwinId) (acc : Access) (value : Word64)
    (s : State) : Host.Outcome State Fault Refusal :=
  run (pageCmd src (twKey t invP) (invSel t acc value.toNat)) s

/-- INV_READ_DONE (R391). -/
def execInvReadDone (t : TwinId) (s : State) : Host.Outcome State Fault Refusal := run (invReadDone t) s

/-- HW_CLR (R119). -/
def execHwClr (src : Requester) (t : TwinId) (page : HwClrPage) (s : State) : Host.Outcome State Fault Refusal :=
  run (pageCmd src (twKey t (hwClrP page)) (hwClr t page)) s

end Sys2Proof.Machine
end

