-- ==== Sys2Proof/Machine/RowsStartup.lean ====
section
/-! DEFINITION. The commands of bring-up, resets, fuses and test segments (16; 01 R33). -/

namespace Sys2Proof.Machine

/-- COLD_RESET (R395). -/
def execColdReset (s : State) : Host.Outcome State Fault Refusal := run coldReset s

/-- PIN_RESET (R395). -/
def execPinReset (s : State) : Host.Outcome State Fault Refusal := run pinReset s

/-- SOFT_RESET (R396). -/
def execSoftReset (src : Requester) (value : Word64) (s : State) : Host.Outcome State Fault Refusal :=
  run (pageCmd src blkKey (softReset value.toNat)) s

/-- HOST_WAKE (R406). -/
def execHostWake (s : State) : Host.Outcome State Fault Refusal := run hostWake s

/-- DESK_CLOCK_LOCKED (R399). -/
def execDeskClockLocked (s : State) : Host.Outcome State Fault Refusal := run deskClockLocked s

/-- ISLAND_POWER_GOOD (R399). -/
def execIslandPowerGood (island : Island) (s : State) : Host.Outcome State Fault Refusal :=
  run (islandPowerGood island) s

/-- ZERO_END (R399). -/
def execZeroEnd (s : State) : Host.Outcome State Fault Refusal := run zeroEnd s

/-- BOOT_POLL (R398). -/
def execBootPoll (t : TwinId) (answer : Option Word64) (s : State) : Host.Outcome State Fault Refusal :=
  run (bootPoll t (answer.map (·.toNat))) s

/-- IMAGE_LOAD_END (R398). -/
def execImageLoadEnd (t : TwinId) (header : List Word64) (image : List Byte) (ioError : Bool)
    (s : State) : Host.Outcome State Fault Refusal :=
  run (imageLoadEnd t (header.map (·.toNat)) image ioError) s

/-- PATTERN_CHECK_END (R401). -/
def execPatternCheckEnd (ok0 ok1 : Bool) (s : State) : Host.Outcome State Fault Refusal :=
  run (patternCheckEnd ok0 ok1) s

/-- PORT_READY (R403). -/
def execPortReady (port : Port) (s : State) : Host.Outcome State Fault Refusal := run (portReady (portNum port)) s

/-- DOMAIN_GROUP_START (R402). -/
def execDomainGroupStart (s : State) : Host.Outcome State Fault Refusal := run domainGroupStart s

/-- MANAGER_SET (R402). -/
def execManagerSet (port : BitVec 3) (fn : BitVec 8) (s : State) : Host.Outcome State Fault Refusal :=
  run (managerSet port.toNat fn.toNat) s

/-- BOOT_RUN (R404). -/
def execBootRun (src : Requester) (value : Word64) (s : State) : Host.Outcome State Fault Refusal :=
  run (pageCmd src blkKey (bootRun value.toNat)) s

/-- FUSE_BURN (R407). -/
def execFuseBurn (t : TwinId) (group : BitVec 8) (bank : BitVec 8) (ok : Bool)
    (s : State) : Host.Outcome State Fault Refusal :=
  run (fuseBurn t group.toNat bank.toNat ok) s

/-- SEGMENT_OPEN (R33). -/
def execSegmentOpen (who : SegmentParty) (seg : Segment) (s : State) : Host.Outcome State Fault Refusal :=
  run (segmentOpen who seg) s

/-- SEGMENT_CLOSE (R33). -/
def execSegmentClose (who : SegmentParty) (seg : Segment) (s : State) : Host.Outcome State Fault Refusal :=
  run (segmentClose who seg) s

end Sys2Proof.Machine
end

