-- ==== Sys2Proof/Machine/RowsRegisters.lean ====
section
/-! DEFINITION. The commands of the register pages as such (17). -/

namespace Sys2Proof.Machine

/-- PAGE_ENABLE (R411). -/
def execPageEnable (src : Requester) (page : PageId) (value : Bool) (s : State) : Host.Outcome State Fault Refusal :=
  run (pageCmd src (keyOf page) (pageEnable (keyOf page) value)) s

/-- COMMIT (R416). -/
def execCommit (src : Requester) (page : PageId) (s : State) : Host.Outcome State Fault Refusal :=
  run (pageCmd src (keyOf page) (commitPage (keyOf page))) s

/-- SHADOW_APPLY (R416). -/
def execShadowApply (ctx : CtxId) (s : State) : Host.Outcome State Fault Refusal := run (shadowApply ctx.toNat) s

/-- DISCARD (R415). -/
def execDiscard (src : Requester) (page : PageId) (s : State) : Host.Outcome State Fault Refusal :=
  run (pageCmd src (keyOf page) (discardPage (keyOf page))) s

/-- REGISTER_WRITE (R7). -/
def execRegisterWrite (src : Requester) (addr : RegAddr) (size : Nat) (value : BitVec 512)
    (s : State) : Host.Outcome State Fault Refusal :=
  run (onSlot addr (writeAt src addr size value.toNat)) s

/-- REGISTER_READ (R9). -/
def execRegisterRead (src : Requester) (addr : RegAddr) (size : Nat) (s : State) : Host.Outcome State Fault Refusal :=
  runReading (readsOf (.registerRead src addr size)) (onSlot addr (readAt src addr size)) s

end Sys2Proof.Machine
end

