-- ==== Sys2Proof/Machine/Dispatch.lean ====
section
/-! DEFINITION. exec: one arm for each command. -/

namespace Sys2Proof.Machine

def exec (i : Instr) (s : State) : Host.Outcome State Fault Refusal :=
  match i with
  | .claim port word => Sys2Proof.Machine.execClaim port word s
  | .claimResample eng => Sys2Proof.Machine.execClaimResample eng s
  | .accept port r => Sys2Proof.Machine.execAccept port r s
  | .complete port r => Sys2Proof.Machine.execComplete port r s
  | .fault port r => Sys2Proof.Machine.execFault port r s
  | .acceptTimeout eng => Sys2Proof.Machine.execAcceptTimeout eng s
  | .laneRefill t lane => Sys2Proof.Machine.execLaneRefill t lane s
  | .fwdClaim t => Sys2Proof.Machine.execFwdClaim t s
  | .decline t => Sys2Proof.Machine.execDecline t s
  | .grant t => Sys2Proof.Machine.execGrant t s
  | .grantReturn t => Sys2Proof.Machine.execGrantReturn t s
  | .acceptItem t => Sys2Proof.Machine.execAcceptItem t s
  | .completeItem t => Sys2Proof.Machine.execCompleteItem t s
  | .proxy t => Sys2Proof.Machine.execProxy t s
  | .proxyGrant t => Sys2Proof.Machine.execProxyGrant t s
  | .proxyRefused t => Sys2Proof.Machine.execProxyRefused t s
  | .proxyBack t => Sys2Proof.Machine.execProxyBack t s
  | .summaryEntry t entry => Sys2Proof.Machine.execSummaryEntry t entry s
  | .credit t => Sys2Proof.Machine.execCredit t s
  | .skipCredit t => Sys2Proof.Machine.execSkipCredit t s
  | .wheelWalk t => Sys2Proof.Machine.execWheelWalk t s
  | .nodeWrite src ctx off data => Sys2Proof.Machine.execNodeWrite src ctx off data s
  | .edgeWrite src ctx off data => Sys2Proof.Machine.execEdgeWrite src ctx off data s
  | .reservedAreaWrite src ctx off => Sys2Proof.Machine.execReservedAreaWrite src ctx off s
  | .nodeBank src ctx whole operand => Sys2Proof.Machine.execNodeBank src ctx whole operand s
  | .edgeBank src ctx whole operand => Sys2Proof.Machine.execEdgeBank src ctx whole operand s
  | .rearm src ctx whole => Sys2Proof.Machine.execRearm src ctx whole s
  | .mirrorClose src ctx whole => Sys2Proof.Machine.execMirrorClose src ctx whole s
  | .mirrorCloseEffect t ctx => Sys2Proof.Machine.execMirrorCloseEffect t ctx s
  | .release src ctx whole => Sys2Proof.Machine.execRelease src ctx whole s
  | .mark src ctx whole operand => Sys2Proof.Machine.execMark src ctx whole operand s
  | .parkedWrite ctx => Sys2Proof.Machine.execParkedWrite ctx s
  | .sweepEnd t ctx => Sys2Proof.Machine.execSweepEnd t ctx s
  | .mirrorRequest t => Sys2Proof.Machine.execMirrorRequest t s
  | .mirrorAppend t => Sys2Proof.Machine.execMirrorAppend t s
  | .mirrorAck t => Sys2Proof.Machine.execMirrorAck t s
  | .closeMarker t => Sys2Proof.Machine.execCloseMarker t s
  | .targetRead t => Sys2Proof.Machine.execTargetRead t s
  | .targetAnswer t => Sys2Proof.Machine.execTargetAnswer t s
  | .moveReq t => Sys2Proof.Machine.execMoveReq t s
  | .loc t => Sys2Proof.Machine.execLoc t s
  | .locAck t => Sys2Proof.Machine.execLocAck t s
  | .writerInc t => Sys2Proof.Machine.execWriterInc t s
  | .writerDec t => Sys2Proof.Machine.execWriterDec t s
  | .service t => Sys2Proof.Machine.execService t s
  | .descWriteAck shard => Sys2Proof.Machine.execDescWriteAck shard s
  | .descWriteError shard => Sys2Proof.Machine.execDescWriteError shard s
  | .shardAlloc src ctx cluster toCluster pin => Sys2Proof.Machine.execShardAlloc src ctx cluster toCluster pin s
  | .shardFree src ctx => Sys2Proof.Machine.execShardFree src ctx s
  | .shardMove src ctx cluster toCluster => Sys2Proof.Machine.execShardMove src ctx cluster toCluster s
  | .shardQuery src ctx => Sys2Proof.Machine.execShardQuery src ctx s
  | .engineRemove src t wholePort eng => Sys2Proof.Machine.execEngineRemove src t wholePort eng s
  | .engineRestore src t wholePort eng => Sys2Proof.Machine.execEngineRestore src t wholePort eng s
  | .flushReq t => Sys2Proof.Machine.execFlushReq t s
  | .flushDone t => Sys2Proof.Machine.execFlushDone t s
  | .flushAckRead cluster answer => Sys2Proof.Machine.execFlushAckRead cluster answer s
  | .flushRetry what => Sys2Proof.Machine.execFlushRetry what s
  | .flushTimeout cluster => Sys2Proof.Machine.execFlushTimeout cluster s
  | .drainReadAnswer t point ok => Sys2Proof.Machine.execDrainReadAnswer t point ok s
  | .drainTimeout t => Sys2Proof.Machine.execDrainTimeout t s
  | .offer t => Sys2Proof.Machine.execOffer t s
  | .answer t => Sys2Proof.Machine.execAnswer t s
  | .gRead t => Sys2Proof.Machine.execGRead t s
  | .gData t => Sys2Proof.Machine.execGData t s
  | .gMark t => Sys2Proof.Machine.execGMark t s
  | .trigger t => Sys2Proof.Machine.execTrigger t s
  | .releaseItem t => Sys2Proof.Machine.execReleaseItem t s
  | .recipeSweepEnd => Sys2Proof.Machine.execRecipeSweepEnd s
  | .headerReadDone t slot header => Sys2Proof.Machine.execHeaderReadDone t slot header s
  | .scoreReadDone t slot line scores => Sys2Proof.Machine.execScoreReadDone t slot line scores s
  | .selectionWriteAck t slot => Sys2Proof.Machine.execSelectionWriteAck t slot s
  | .batch t => Sys2Proof.Machine.execBatch t s
  | .sortCancel src ctx => Sys2Proof.Machine.execSortCancel src ctx s
  | .epochBump t => Sys2Proof.Machine.execEpochBump t s
  | .cancelPoint ctx => Sys2Proof.Machine.execCancelPoint ctx s
  | .routeIo t slot which => Sys2Proof.Machine.execRouteIo t slot which s
  | .tallyPacket packet => Sys2Proof.Machine.execTallyPacket packet s
  | .tallyTick => Sys2Proof.Machine.execTallyTick s
  | .tallyAlloc src ctx => Sys2Proof.Machine.execTallyAlloc src ctx s
  | .tallyFree src ctx => Sys2Proof.Machine.execTallyFree src ctx s
  | .tallyArm src ctx => Sys2Proof.Machine.execTallyArm src ctx s
  | .tallyDisarm src ctx => Sys2Proof.Machine.execTallyDisarm src ctx s
  | .tallyResume src ctx => Sys2Proof.Machine.execTallyResume src ctx s
  | .tallyReset src ctx => Sys2Proof.Machine.execTallyReset src ctx s
  | .tallyAdd src ctx => Sys2Proof.Machine.execTallyAdd src ctx s
  | .tallyQuery src ctx => Sys2Proof.Machine.execTallyQuery src ctx s
  | .tubeOpen src ctx => Sys2Proof.Machine.execTubeOpen src ctx s
  | .tubeClose src ctx => Sys2Proof.Machine.execTubeClose src ctx s
  | .tubeQuery src ctx => Sys2Proof.Machine.execTubeQuery src ctx s
  | .epWriteAck tube => Sys2Proof.Machine.execEpWriteAck tube s
  | .epReadAnswer tube => Sys2Proof.Machine.execEpReadAnswer tube s
  | .tubeIo tube => Sys2Proof.Machine.execTubeIo tube s
  | .txSend tag eng slot len srcOff beats => Sys2Proof.Machine.execTxSend tag eng slot len srcOff beats s
  | .beatArrival eng slot => Sys2Proof.Machine.execBeatArrival eng slot s
  | .rxMbox tag eng slot => Sys2Proof.Machine.execRxMbox tag eng slot s
  | .rxDone tag eng slot => Sys2Proof.Machine.execRxDone tag eng slot s
  | .rxDrop tag eng slot => Sys2Proof.Machine.execRxDrop tag eng slot s
  | .creditReturn eng slot => Sys2Proof.Machine.execCreditReturn eng slot s
  | .bowlOpen src ctx => Sys2Proof.Machine.execBowlOpen src ctx s
  | .bowlClose src ctx => Sys2Proof.Machine.execBowlClose src ctx s
  | .bowlQuery src ctx => Sys2Proof.Machine.execBowlQuery src ctx s
  | .bowlReset src ctx => Sys2Proof.Machine.execBowlReset src ctx s
  | .bowlPut src t put => Sys2Proof.Machine.execBowlPut src t put s
  | .blockHeaderRead bowl header => Sys2Proof.Machine.execBlockHeaderRead bowl header s
  | .selectionRead bowl header counts => Sys2Proof.Machine.execSelectionRead bowl header counts s
  | .resultWriteAck bowl => Sys2Proof.Machine.execResultWriteAck bowl s
  | .bowlIo bowl => Sys2Proof.Machine.execBowlIo bowl s
  | .ctxOpen src home => Sys2Proof.Machine.execCtxOpen src home s
  | .openEffect ctx => Sys2Proof.Machine.execOpenEffect ctx s
  | .ctxClose src => Sys2Proof.Machine.execCtxClose src s
  | .ctxFault src => Sys2Proof.Machine.execCtxFault src s
  | .ctxCtlClose src ctx => Sys2Proof.Machine.execCtxCtlClose src ctx s
  | .fenceItem t => Sys2Proof.Machine.execFenceItem t s
  | .fenceEffect t ctx => Sys2Proof.Machine.execFenceEffect t ctx s
  | .teardownStart t => Sys2Proof.Machine.execTeardownStart t s
  | .tear t => Sys2Proof.Machine.execTear t s
  | .swept t => Sys2Proof.Machine.execSwept t s
  | .engineWaitEnd t => Sys2Proof.Machine.execEngineWaitEnd t s
  | .engineWaitLimit t => Sys2Proof.Machine.execEngineWaitLimit t s
  | .scrubPoll t what answer => Sys2Proof.Machine.execScrubPoll t what answer s
  | .scrubLimit t => Sys2Proof.Machine.execScrubLimit t s
  | .bakeTick => Sys2Proof.Machine.execBakeTick s
  | .bakeSlotWrite src t acc value => Sys2Proof.Machine.execBakeSlotWrite src t acc value s
  | .notifyRequest ctx => Sys2Proof.Machine.execNotifyRequest ctx s
  | .msixUnmask src ctx vec acc value => Sys2Proof.Machine.execMsixUnmask src ctx vec acc value s
  | .notifyTailWrite src ctx acc value => Sys2Proof.Machine.execNotifyTailWrite src ctx acc value s
  | .hostAccessDenied port fn addr isRead => Sys2Proof.Machine.execHostAccessDenied port fn addr isRead s
  | .ask core => Sys2Proof.Machine.execAsk core s
  | .reportYield core thread asks => Sys2Proof.Machine.execReportYield core thread asks s
  | .reportWait core thread asks arg => Sys2Proof.Machine.execReportWait core thread asks arg s
  | .reportDelay core thread asks arg => Sys2Proof.Machine.execReportDelay core thread asks arg s
  | .reportPreempted core thread asks => Sys2Proof.Machine.execReportPreempted core thread asks s
  | .reportExit core thread asks => Sys2Proof.Machine.execReportExit core thread asks s
  | .reportFault core thread asks => Sys2Proof.Machine.execReportFault core thread asks s
  | .wake core thread => Sys2Proof.Machine.execWake core thread s
  | .wakeItem t => Sys2Proof.Machine.execWakeItem t s
  | .deskAsk t => Sys2Proof.Machine.execDeskAsk t s
  | .threadOffer t => Sys2Proof.Machine.execThreadOffer t s
  | .noneAnswer t => Sys2Proof.Machine.execNoneAnswer t s
  | .takeThread t => Sys2Proof.Machine.execTakeThread t s
  | .threadRelease t => Sys2Proof.Machine.execThreadRelease t s
  | .offerWindow core => Sys2Proof.Machine.execOfferWindow core s
  | .threadSummary t => Sys2Proof.Machine.execThreadSummary t s
  | .preemptLimit core => Sys2Proof.Machine.execPreemptLimit core s
  | .delayTick => Sys2Proof.Machine.execDelayTick s
  | .threadCreate src t start => Sys2Proof.Machine.execThreadCreate src t start s
  | .threadDestroy src t => Sys2Proof.Machine.execThreadDestroy src t s
  | .threadSet src t => Sys2Proof.Machine.execThreadSet src t s
  | .threadCmdWake src t => Sys2Proof.Machine.execThreadCmdWake src t s
  | .threadQuery src t => Sys2Proof.Machine.execThreadQuery src t s
  | .coreRemove src t core => Sys2Proof.Machine.execCoreRemove src t core s
  | .coreRestore src t core => Sys2Proof.Machine.execCoreRestore src t core s
  | .idleExpiry dom => Sys2Proof.Machine.execIdleExpiry dom s
  | .hold dom => Sys2Proof.Machine.execHold dom s
  | .abort dom => Sys2Proof.Machine.execAbort dom s
  | .withdrawn dom => Sys2Proof.Machine.execWithdrawn dom s
  | .obEmpty dom => Sys2Proof.Machine.execObEmpty dom s
  | .stopTimeout dom => Sys2Proof.Machine.execStopTimeout dom s
  | .gateExpiry dom => Sys2Proof.Machine.execGateExpiry dom s
  | .accessWake cluster => Sys2Proof.Machine.execAccessWake cluster s
  | .clkOk dom => Sys2Proof.Machine.execClkOk dom s
  | .bankPowerGood cluster bank => Sys2Proof.Machine.execBankPowerGood cluster bank s
  | .cluCtlWrite src acc value => Sys2Proof.Machine.execCluCtlWrite src acc value s
  | .clockStretch dom => Sys2Proof.Machine.execClockStretch dom s
  | .capPeriod => Sys2Proof.Machine.execCapPeriod s
  | .pmbusReading w1 w2 => Sys2Proof.Machine.execPmbusReading w1 w2 s
  | .pmbusReadingLost => Sys2Proof.Machine.execPmbusReadingLost s
  | .pmbAlert statusWord => Sys2Proof.Machine.execPmbAlert statusWord s
  | .avsAck rail => Sys2Proof.Machine.execAvsAck rail s
  | .avsFail rail => Sys2Proof.Machine.execAvsFail rail s
  | .settleExpiry => Sys2Proof.Machine.execSettleExpiry s
  | .clockSwitched => Sys2Proof.Machine.execClockSwitched s
  | .blockGate src => Sys2Proof.Machine.execBlockGate src s
  | .timeLoad src value => Sys2Proof.Machine.execTimeLoad src value s
  | .timeSlew src value => Sys2Proof.Machine.execTimeSlew src value s
  | .patrolRead t group bank word err => Sys2Proof.Machine.execPatrolRead t group bank word err s
  | .bankCopyEnd t => Sys2Proof.Machine.execBankCopyEnd t s
  | .marchTestEnd t failingRows => Sys2Proof.Machine.execMarchTestEnd t failingRows s
  | .errInjectWrite src page acc value => Sys2Proof.Machine.execErrInjectWrite src page acc value s
  | .heartbeat t => Sys2Proof.Machine.execHeartbeat t s
  | .heartbeatTimeout t => Sys2Proof.Machine.execHeartbeatTimeout t s
  | .watchdog t => Sys2Proof.Machine.execWatchdog t s
  | .wdogKick src t value => Sys2Proof.Machine.execWdogKick src t value s
  | .fatal t => Sys2Proof.Machine.execFatal t s
  | .latchAnswer => Sys2Proof.Machine.execLatchAnswer s
  | .recordSweepEnd t => Sys2Proof.Machine.execRecordSweepEnd t s
  | .dumpEnd t sections poison => Sys2Proof.Machine.execDumpEnd t sections poison s
  | .detach src t => Sys2Proof.Machine.execDetach src t s
  | .detachDrained t => Sys2Proof.Machine.execDetachDrained t s
  | .handover t => Sys2Proof.Machine.execHandover t s
  | .fullSelfTestEnd t fails logicOk => Sys2Proof.Machine.execFullSelfTestEnd t fails logicOk s
  | .rejoin src t => Sys2Proof.Machine.execRejoin src t s
  | .resync t => Sys2Proof.Machine.execResync t s
  | .fail src t => Sys2Proof.Machine.execFail src t s
  | .recover src t => Sys2Proof.Machine.execRecover src t s
  | .freeze src => Sys2Proof.Machine.execFreeze src s
  | .freezeHalt src twins => Sys2Proof.Machine.execFreezeHalt src twins s
  | .freezeItem t => Sys2Proof.Machine.execFreezeItem t s
  | .freezeApply => Sys2Proof.Machine.execFreezeApply s
  | .thaw src => Sys2Proof.Machine.execThaw src s
  | .thawApply => Sys2Proof.Machine.execThawApply s
  | .haltLimit t => Sys2Proof.Machine.execHaltLimit t s
  | .optStart src t first last => Sys2Proof.Machine.execOptStart src t first last s
  | .optStop src t first last => Sys2Proof.Machine.execOptStop src t first last s
  | .ringWriteAck t => Sys2Proof.Machine.execRingWriteAck t s
  | .ringIo t => Sys2Proof.Machine.execRingIo t s
  | .daybRdWrite src t acc value => Sys2Proof.Machine.execDaybRdWrite src t acc value s
  | .wfgGo src t all ctx => Sys2Proof.Machine.execWfgGo src t all ctx s
  | .wfgEnd t => Sys2Proof.Machine.execWfgEnd t s
  | .invSel src t acc value => Sys2Proof.Machine.execInvSel src t acc value s
  | .invReadDone t => Sys2Proof.Machine.execInvReadDone t s
  | .hwClr src t page => Sys2Proof.Machine.execHwClr src t page s
  | .coldReset => Sys2Proof.Machine.execColdReset s
  | .pinReset => Sys2Proof.Machine.execPinReset s
  | .softReset src value => Sys2Proof.Machine.execSoftReset src value s
  | .hostWake => Sys2Proof.Machine.execHostWake s
  | .deskClockLocked => Sys2Proof.Machine.execDeskClockLocked s
  | .islandPowerGood island => Sys2Proof.Machine.execIslandPowerGood island s
  | .zeroEnd => Sys2Proof.Machine.execZeroEnd s
  | .bootPoll t answer => Sys2Proof.Machine.execBootPoll t answer s
  | .imageLoadEnd t header image ioError => Sys2Proof.Machine.execImageLoadEnd t header image ioError s
  | .patternCheckEnd ok0 ok1 => Sys2Proof.Machine.execPatternCheckEnd ok0 ok1 s
  | .portReady port => Sys2Proof.Machine.execPortReady port s
  | .domainGroupStart => Sys2Proof.Machine.execDomainGroupStart s
  | .managerSet port fn => Sys2Proof.Machine.execManagerSet port fn s
  | .bootRun src value => Sys2Proof.Machine.execBootRun src value s
  | .fuseBurn t group bank ok => Sys2Proof.Machine.execFuseBurn t group bank ok s
  | .pageEnable src page value => Sys2Proof.Machine.execPageEnable src page value s
  | .commit src page => Sys2Proof.Machine.execCommit src page s
  | .shadowApply ctx => Sys2Proof.Machine.execShadowApply ctx s
  | .discard src page => Sys2Proof.Machine.execDiscard src page s
  | .registerWrite src addr size value => Sys2Proof.Machine.execRegisterWrite src addr size value s
  | .segmentOpen who seg => Sys2Proof.Machine.execSegmentOpen who seg s
  | .segmentClose who seg => Sys2Proof.Machine.execSegmentClose who seg s
  | .sourceCopyEnd eng slot => Sys2Proof.Machine.execSourceCopyEnd eng slot s
  | .blockDataRead bowl block result => Sys2Proof.Machine.execBlockDataRead bowl block result s
  | .registerRead src addr size => Sys2Proof.Machine.execRegisterRead src addr size s

end Sys2Proof.Machine
end

