-- ==== Sys2Proof/Safety.lean ====
section
/-! DEFINITION. What a safe run is: every step answers a next state; the canonical form of the stores, and what
BOOT_STAT may show. -/

namespace Sys2Proof.Safety

open Sys2Proof.Machine

/-- An outcome that is a next state. -/
def isNext (o : Host.Outcome State Fault Refusal) : Bool :=
  match o with
  | .next _ => true
  | .fault _ => false
  | .refused _ => false

/-- A run of n steps meets no fault and no refusal. -/
def safeFor : Nat → State → Bool
  | 0, _ => true
  | n + 1, s =>
    match step s with
    | .next s1 => safeFor n s1
    | .fault _ => false
    | .refused _ => false

/-! ### The canonical form of the stores -/

def catWf (c : Cat) : Bool := mapWf {} c.nodes && mapWf 0 c.fwd && mapWf 0 c.mir && mapWf [] c.wheel
def accWf (c : Acc) : Bool := mapWf false c.locks
def rackWf (r : Rack) : Bool :=
  mapWf {} r.lanes && mapWf [] r.proxyOut && mapWf 0 r.rr && mapWf 0 r.mix && mapWf 0 r.sumRx && mapWf 0 r.sumAt
    && mapWf (0, 0) r.sumTx
def deskWf (d : Desk) : Bool := mapWf {} d.recs
def shelfWf (f : Shelf) : Bool :=
  mapWf {} f.shards && mapWf 0xFF f.locs && mapWf {} f.waits && mapWf false f.served && mapWf 0 f.owners
def retWf (r : Ret) : Bool := mapWf {} r.narrow
def lardWf (l : Lard) : Bool := mapWf {} l.table && mapWf [] l.offers
def sortWf (b : Sorter) : Bool := mapWf {} b.slots && mapWf {} b.mir && mapWf 0 b.bind
def bankWf (b : Bank) : Bool := mapWf {} b.ents && mapWf 0 b.events
def officeWf (o : Office) : Bool := mapWf {} o.tubes && mapWf {} o.bowls
def obsWf (o : Obs) : Bool := mapWf {} o.ports && mapWf {} o.opts
def bakeWf (b : Bake) : Bool := mapWf 0 b.slots && mapWf 0 b.caps
def thrdWf (d : ThreadDesk) : Bool := mapWf {} d.ents
def relWf (r : RelUnit) : Bool := mapWf (0, 0) r.log && mapWf {} r.groups

/-- The stores of a twin are in canonical form. -/
def twinWf (w : Twin) : Bool :=
  catWf w.cat && accWf w.acc && rackWf w.rack && deskWf w.desk && shelfWf w.shelf && retWf w.ret && lardWf w.lard
    && obsWf w.obs && mapWf {} w.ctxs && sortWf w.sort && bankWf w.bank && officeWf w.office && bakeWf w.bake
    && thrdWf w.thrd && relWf w.rel

def arbWf (a : Arb) : Bool := mapWf {} a.cores && mapWf 0 a.sum0 && mapWf 0 a.sum1
def proofWf (p : Proofer) : Bool :=
  mapWf {} p.doms && mapWf 0 p.banks && mapWf 0 p.rising && mapWf 0 p.events

/-- The stores of a page are in canonical form. -/
def pageWf (p : Page) : Bool := mapWf none p.regs && mapWf none p.shadow && mapWf 0 p.ctrs

/-- The page store is in canonical form, and every page in it. -/
def pagesWf (m : SMap Page) : Bool := mapWf {} m && m.all fun p => pageWf p.2

/-- Every store of the block by index is in canonical form: indices strictly rising, and no entry equal to what an
unlisted index reads as. -/
def storesWf (s : Block) : Bool :=
  twinWf s.tw0 && twinWf s.tw1 && mapWf {} s.ctxs && pagesWf s.pages && mapWf {} s.engines && mapWf {} s.flushes
    && mapWf false s.holds && mapWf {} s.sendEps && mapWf {} s.recvEps && mapWf {} s.fmt.entries && arbWf s.arb
    && proofWf s.proof && mapWf 0 s.fuses && mapWf {} s.pair.groups && mapWf 0 s.fuseBanks

/-- Bring-up in a legal state: PHASE is one of those of R405; ERROR is 0 but where PHASE is FAILED (1 to 5) or where a RUN
was refused at READY (6); CAUSE is one of the kinds of reset; READY_US fits its field; the fuses are canonical stores. -/
def bootLegal (s : Block) : Bool :=
  decide (s.phase ≤ 10) && decide (s.boot.cause ≤ 4) && decide (s.boot.readyUs < 2 ^ 32) && mapWf 0 s.fuses
    && mapWf 0 s.fuseBanks
    && (s.boot.error == 0 || (decide (s.boot.error ≤ 5) && s.phase == 10) || (s.boot.error == 6 && s.phase == 8))

/-! ### A command as a whole -/

/-- What follows inside the block from a command whose own effect has left `b`, the block before it being `s`: the steps
that wait, and an injected error that the command met (R355). -/
def followed (c : Instr) (s b : Block) : Block := settle (consumeInjections s (readsOf c s) (settle b))

/-- The command always completes: in every state exec answers a next state with the queue as it was, and P relates the
block before the command, the outputs of the step before it cleared, to the block as the command's own effect leaves it;
what follows from it inside the block comes after. -/
def Does (c : Instr) (P : Block → Block → Prop) : Prop :=
  ∀ s : State, ∃ b, exec c s = .next { s with blk := followed c s.blk b } ∧ P { s.blk with out := [] } b

/-- The command was a reset, as the block after it shows: a cold or a pin reset, a soft reset, by its command or by a register
write, or a WAKE (R395). -/
def resetBy (c : Instr) (b : Block) : Prop :=
  c = .coldReset ∨ c = .pinReset ∨ c = .hostWake
    ∨ (b.boot.cause = 3 ∧ ((∃ src v, c = .softReset src v) ∨ ∃ src addr size v, c = .registerWrite src addr size v))

/-- No error injection is armed in any page (R355). -/
def unarmed (s : Block) : Bool := s.pages.all fun p => !(bitOf p.2.inj 63)

/-- The access of a requester to a page is served, as the manager's or as the context owner's (R285 to R287, R360,
R406). -/
def served (s : Block) (src : Requester) (key : Nat) : Bool :=
  !(held s src) && pageTakes s key
    && (match gradeOf s src (if 256 ≤ key then some (key - 256) else none) with
        | .manager => true
        | .owner => true
        | .denied => false
        | .ignored => false)

/-- The cluster of the engine `e` answers at its NoC endpoints: its domain runs, or is stopping and not yet stopped
(R322, R326). -/
def clusterRuns (s : Block) (e : Nat) : Bool :=
  (domOf s (e / 64)).st == .run || (domOf s (e / 64)).st == .stopping

/-- A write of BOWL_PUT is served: every engine's is, and the manager's (R271, R287). -/
def putServed (s : Block) (src : Requester) (t : TwinId) : Bool :=
  match src with
  | .task _ => !(held s src) && pageTakes s (twKey t tubeP)
  | .untagged => !(held s src) && pageTakes s (twKey t tubeP)
  | _ => served s src (twKey t tubeP)

/-- A grant decided by the engine's own twin for the head node of a lane (R89, R95, R96, R100): the head leaves its lane and
goes to GRANTED with the next GEN, a record opens for it, the task counts against the engine, and the grant word is driven, alone
but for what the twin's enabled ring writes of it. -/
abbrev GrantedHere (t : TwinId) (e key x : Nat) (a b : Block) : Prop :=
  ∀ id, id = nodeIdOf t x → ∀ n, n = nodeOf a id →
  ∀ w, w = { nodeGrant a id e (epochSel a id) with gen := (n.gen + 1) % 256 } →
  ∀ o, o = Output.grant (portOfGroup (key / 64)) (grantBits w (!(engOf a e).lastV || (engOf a e).lastCtx != n.ctx)) →
    nodeOf b id = { n with st := .granted, gen := w.gen } ∧ laneOf b t key = popSlot (laneOf a t key)
      ∧ (∃ i, (recOf a t i).st = .free ∧ recOf b t i = {
          st := .issued, node := id, gen := w.gen, ctx := n.ctx, time := a.time % 2 ^ 32, epoch := epochSel a id,
          bwd := n.backward, eng := e })
      ∧ (engOf b e).tasks = (engOf a e).tasks ++ [{ node := id, gen := w.gen, ctx := n.ctx, accepted := false }]
      ∧ (engOf b e).lastV = true ∧ (engOf b e).lastCtx = n.ctx ∧ (∀ j, j ≠ e → engOf b j = engOf a j)
      ∧ o ∈ b.out ∧ (bookOn a t = false → b.out = [o])

/-- The engine kind that serves a KIND whose completion is a plain one: TILE, MATRIX, GATHER, SCATTER_REDUCE, COPY (R39). -/
def plainEngine : Nat → Option EngKind
  | 0 => some .tile
  | 1 => some .matrix
  | 2 => some .gather
  | 3 => some .scatter
  | 4 => some .dma
  | _ => none

/-- Every edge of a list is NORMAL, and a credit along it from the completing engine waits for no flush and no drain (R153);
a tile's credit always needs one of them or an entry of the narrow-credit table (R154). -/
def plainList (rel : Rel) (n : Node) (ws : List Nat) : Bool :=
  ws.all fun w => edgeKind w == 0 && rel == .die && scopeNeed rel (max n.scope (edgeScope w)) == {}

/-- The credit along an edge of a completing node (R163). -/
def edgeCredit (id ctx epoch w : Nat) : Credit :=
  { word := w, ctx := ctx, epoch := epoch, skip := false, src := id, orgId := id }

/-- A tile's report leaves its cluster DIRTY, afresh where a flush of it is out; any other report leaves every cluster as it
was (R156). -/
abbrev tileReported (e : Nat) (a b : Block) : Prop :=
  ∀ c, mapGet {} b.flushes c = if engKind e = some .tile ∧ c = e / 64 then
    { mapGet {} a.flushes c with dirty := true, fresh := (mapGet {} a.flushes c).fresh || (mapGet {} a.flushes c).out }
  else mapGet {} a.flushes c

/-- The bank of a twin that has nothing to do at a tick. -/
def bankRests (b : Bank) : Bool :=
  b.ents.isEmpty && b.buf.isEmpty && b.cmds.isEmpty && b.late.isEmpty && b.rearmed.isEmpty && b.owed == 0
    && b.events.isEmpty

/-- Neither a freeze nor the end of a view has fallen due (R381, R383). -/
def viewRests (s : Block) : Bool :=
  (!s.freeze.pending || decide (s.ticks < s.freeze.tick + 2)) && (!s.freeze.thawing || decide (s.ticks ≤ s.freeze.thawTick))

/-- A tick that the bank of one twin takes alone, with no edge that waited and no context just rearmed: the desk side is up, the
partner's bank rests, and the twin's tallies may fire (R243, R360, R369, R393). -/
def bankAlone (s : Block) (t : TwinId) : Bool :=
  s.phase != 0 && !s.boot.gated && viewRests s && bankRests (tw s (partner t)).bank && serves s t && !(tw s t).halted
    && !s.pair.isFatal && (tw s t).bank.late.isEmpty && (tw s t).bank.rearmed.isEmpty

/-- The watch slots of a tally entry: a lock bit after a command that sets or clears those of a list (R73, R248). -/
def locksSet (t : TwinId) (base len : Nat) (v : Bool) (a b : Block) : Prop :=
  ∀ j, mapGet false (tw b t).acc.locks j =
    if base % 2 ^ 22 ≤ j ∧ j < base % 2 ^ 22 + len then v else mapGet false (tw a t).acc.locks j

/-- A core after the word that it drove, with its ASK bit: the ask goes to both Desks and is awaited (R313, R318). -/
def askedCore (asks : Bool) (k : Core) : Core :=
  if asks then { k with asking := true, reply0 := .awaited, reply1 := .awaited, window := false } else k

/-- What a word with an ASK bit sends to a Desk. -/
def askMsg (asks : Bool) (c : Nat) : List DeskMsg := if asks then [.ask c] else []

/-- A core may be asked for: it is in service, and so are both Desks (R318). -/
def mayAsk (s : Block) (c : Nat) : Bool := (coreOf s c).inService && deskAsked s .t0 && deskAsked s .t1

/-- The grant word of a thread for a core (R314): RESTORE or ENTER, SCRUB, the core, the thread with its context, and its save
area. -/
def grantWordOf (s : Block) (c x : Nat) : Nat :=
  let h := threadOf s x
  let k := coreOf s c
  2 ^ 63 + b2n (h.priv && h.saved) * 2 ^ 61 + b2n (!k.given || k.lastV != h.ctxV || (h.ctxV && k.lastCtx != h.ctx)) * 2 ^ 60
    + c % 8 * 2 ^ 57 + x % 4096 * 2 ^ 45 + h.ctx % 256 * 2 ^ 37 + b2n h.ctxV * 2 ^ 36
    + (fld (reg s (twKey (threadTwin x) thrdP) 0x100) 47 12 + x % 2048) % 2 ^ 36

/-- The word PREEMPT for the thread that a core runs (R314). -/
def stopWordOf (s : Block) (c x : Nat) : Nat :=
  2 ^ 63 + 2 * 2 ^ 61 + c % 8 * 2 ^ 57 + x % 4096 * 2 ^ 45 + (threadOf s x).ctx % 256 * 2 ^ 37
    + b2n (threadOf s x).ctxV * 2 ^ 36 + (fld (reg s (twKey (threadTwin x) thrdP) 0x100) 47 12 + x % 2048) % 2 ^ 36

/-- One offer beats another: higher level, then earlier READY_TIME, then Twin 0's (R318). -/
def beats (o p : ThreadOffer) : Prop :=
  p.level < o.level ∨ (o.level = p.level ∧ (o.readyAt < p.readyAt ∨ (o.readyAt = p.readyAt ∧ threadTwin o.thread = .t0)))

/-- A core of an affinity class is in service (R320). -/
def inClass (s : Block) (cls c : Nat) : Bool := (coreOf s c).inService && (cls == 8 || cls == c)

/-- A core of a class runs a thread that one of level lv pre-empts: of a lower level, or of the level itself with its slice
expired (R320). -/
def yieldsTo (s : Block) (cls lv c : Nat) : Bool :=
  inClass s cls c && (coreOf s c).running.isSome
    && (decide ((coreOf s c).runLevel < lv) || ((coreOf s c).runLevel == lv && (coreOf s c).expired))

/-- An engine of the port of a power domain. -/
def inPort (d e : Nat) : Bool :=
  decide ((portEngines (portOfGroup d)).1 ≤ e) && decide (e < (portEngines (portOfGroup d)).1 + (portEngines (portOfGroup d)).2)

/-- The claims that the engines of the port of a domain hold. -/
def portClaims (s : Block) (d : Nat) : Nat :=
  (s.engines.filter fun p => inPort d p.1).foldl (fun n p => n + p.2.claims.length) 0

/-- Every claim of the port of a domain is withdrawn, and counted for the next tally tick, and no other engine changes (R336,
R377). -/
def withdrawnPort (d : Nat) (a b : Block) : Prop :=
  (∀ e, engOf b e = if inPort d e then { engOf a e with claims := [] } else engOf a e)
    ∧ mapGet 0 b.proof.events 0x68 = mapGet 0 a.proof.events 0x68 + portClaims a d

/-- The clock of a domain is stopped: STOPS is counted for the next tally tick (R336, R346). -/
def domStopped (d : Nat) (a b : Block) : Prop :=
  domOf b d = { domOf a d with st := .stopped, msg := .none, obEmpty := false, stretched := true, idle := 0 }
    ∧ (∀ n, n ≠ d → domOf b n = domOf a n) ∧ b.out = [.domClock d false] ∧ withdrawnPort d a b
    ∧ mapGet 0 b.proof.events 0x40 = mapGet 0 a.proof.events 0x40 + 1

/-- A window write of a requester is served (R285, R287). -/
def winServed (s : Block) (src : Requester) (k : Nat) : Bool :=
  !(held s src)
    && (match src with
        | .task tag => tag.toNat == k
        | .untagged => false
        | .host port fn => gradeOf s (.host port fn) (some k) != .denied
        | .archivist _ => true)

/-- A window write of one part is served and takes effect: the window is open, nothing parks the part, no write waits before
it, and both park buffers have room (R65, R67, R72). -/
def winReady (s : Block) (src : Requester) (k : Nat) (c : WinCmd) : Bool :=
  winServed s src k && windowOpen s k && (ctxOf s k).parked.isEmpty && !(mustPark s k (selectors s k) c)
    && !(parkFull s .t0) && !(parkFull s .t1) && s.heldWrites.isEmpty

/-- The slot lies in the successor list that a node's word 2 names (R41). -/
def inList (n : Node) (x : Nat) : Bool :=
  decide (n.succBase % 2 ^ 22 ≤ x) && decide (x < n.succBase % 2 ^ 22 + n.succLen)

/-! ### What a command leaves alone -/

/-- The parts of the block: of each twin, and of the block as a whole. The pages fall into their registers, their error
bits and their always-on counters. -/
inductive Part where
  | cat (t : TwinId) | acc (t : TwinId) | rack (t : TwinId) | desk (t : TwinId) | shelf (t : TwinId)
  | ret (t : TwinId) | lard (t : TwinId) | obs (t : TwinId) | ctxTws (t : TwinId) | sort (t : TwinId)
  | bank (t : TwinId) | office (t : TwinId) | bake (t : TwinId) | thrd (t : TwinId) | rel (t : TwinId)
  | faultQ (t : TwinId) | combined (t : TwinId) | crossing (t : TwinId) | edgeIn (t : TwinId)
  | claimIn (t : TwinId) | ctrlIn (t : TwinId) | svc (t : TwinId) | halted (t : TwinId)
  | ctxs | engines | flushes | holds | sendEps | recvEps | heldWrites | fmt | freeze | arb | proof | pair | boot | mgmt
  | fuses | fuseBanks | phase | claimSeq | serial | ticks | time | work | heldSteps | out | regs | errs | ctrs
  deriving DecidableEq, Repr

/-- A page without its error bits and counters: ENABLE, the mask, injection, and every register with its shadow. -/
def plainPage (p : Page) : Page := { p with errStat := 0, ctrs := [] }

/-- A part of the block is the same in two states; the pages, from a state whose page store is canonical. -/
def Part.same (p : Part) (a b : Block) : Prop :=
  match p with
  | .cat t => (tw b t).cat = (tw a t).cat
  | .acc t => (tw b t).acc = (tw a t).acc
  | .rack t => (tw b t).rack = (tw a t).rack
  | .desk t => (tw b t).desk = (tw a t).desk
  | .shelf t => (tw b t).shelf = (tw a t).shelf
  | .ret t => (tw b t).ret = (tw a t).ret
  | .lard t => (tw b t).lard = (tw a t).lard
  | .obs t => (tw b t).obs = (tw a t).obs
  | .ctxTws t => (tw b t).ctxs = (tw a t).ctxs
  | .sort t => (tw b t).sort = (tw a t).sort
  | .bank t => (tw b t).bank = (tw a t).bank
  | .office t => (tw b t).office = (tw a t).office
  | .bake t => (tw b t).bake = (tw a t).bake
  | .thrd t => (tw b t).thrd = (tw a t).thrd
  | .rel t => (tw b t).rel = (tw a t).rel
  | .faultQ t => (tw b t).faultQ = (tw a t).faultQ
  | .combined t => (tw b t).combined = (tw a t).combined
  | .crossing t => (tw b t).crossing = (tw a t).crossing
  | .edgeIn t => (tw b t).edgeIn = (tw a t).edgeIn
  | .claimIn t => (tw b t).claimIn = (tw a t).claimIn
  | .ctrlIn t => (tw b t).ctrlIn = (tw a t).ctrlIn
  | .svc t => (tw b t).svc = (tw a t).svc
  | .halted t => (tw b t).halted = (tw a t).halted
  | .ctxs => b.ctxs = a.ctxs
  | .engines => b.engines = a.engines
  | .flushes => b.flushes = a.flushes
  | .holds => b.holds = a.holds
  | .sendEps => b.sendEps = a.sendEps
  | .recvEps => b.recvEps = a.recvEps
  | .heldWrites => b.heldWrites = a.heldWrites
  | .fmt => b.fmt = a.fmt
  | .freeze => b.freeze = a.freeze
  | .arb => b.arb = a.arb
  | .proof => b.proof = a.proof
  | .pair => b.pair = a.pair
  | .boot => b.boot = a.boot
  | .mgmt => b.mgmt = a.mgmt
  | .fuses => b.fuses = a.fuses
  | .fuseBanks => b.fuseBanks = a.fuseBanks
  | .phase => b.phase = a.phase
  | .claimSeq => b.claimSeq = a.claimSeq
  | .serial => b.serial = a.serial
  | .ticks => b.ticks = a.ticks
  | .time => b.time = a.time
  | .work => b.work = a.work
  | .heldSteps => b.heldSteps = a.heldSteps
  | .out => b.out = a.out
  | .regs => mapWf {} a.pages = true → ∀ key, plainPage (pageOf b key) = plainPage (pageOf a key)
  | .errs => mapWf {} a.pages = true → ∀ key, (pageOf b key).errStat = (pageOf a key).errStat
  | .ctrs => mapWf {} a.pages = true → ∀ key, (pageOf b key).ctrs = (pageOf a key).ctrs

/-- The frame of a command: every part of the block but those listed is unchanged. -/
def changesOnly (ps : List Part) (a b : Block) : Prop := ∀ p : Part, p ∉ ps → p.same a b

end Sys2Proof.Safety
end

