-- ==== Sys2Proof/Certificates/Slice0/Obligations.lean ====
section
/-! DEFINITION. The statements about the block, each a proposition over the model; the provers prove them. -/

open Sys2Proof Sys2Proof.Machine Sys2Proof.Safety

/-- A step takes the command at the front of the queue and runs it on the state with the queue's rest; on an empty
queue the block idles (the model's form of taking commands from outside, log entry 1). -/
def Obligations.StepRunsTheFrontCommand : Prop :=
  (∀ (c : Instr) (rest : List Instr) (s : State),
      s.pending = c :: rest → step s = exec c { s with pending := rest })
  ∧ (∀ s : State, s.pending = [] → step s = .next s)

/-- Every command completes in every state: exec answers a next state whose queue is as before, neither a fault nor a
refusal, since the spec gives every command an effect (R1). -/
def Obligations.EveryCommandCompletes : Prop :=
  ∀ (c : Instr) (s : State), ∃ t, exec c s = .next t ∧ t.pending = s.pending

/-- The state after reset: no command waits, no page, context, engine, flush, endpoint or fuse holds anything, nor a
Catalogue, a rack, a Desk, a Shelf List, a Larder, a Sorter, a Tally Bank, an Office, a Thread Desk or a Bridge
channel of a twin; PHASE, ERROR, CAUSE, TESTED and READY_US read 0 (R405), no error is injected, and the stores and
bring-up are in legal form. That the machine before power-on is State.reset, with an empty store for what no rule
gives a reset value, is the model's choice (log entries 2, 3 and 5). -/
def Obligations.ResetLeavesTheResetValues : Prop :=
  State.reset.pending = [] ∧ State.reset.blk.phase = 0 ∧ State.reset.blk.boot = {} ∧ State.reset.blk.mgmt.manager = 0
  ∧ State.reset.blk.pages = [] ∧ State.reset.blk.ctxs = [] ∧ State.reset.blk.engines = [] ∧ State.reset.blk.flushes = []
  ∧ State.reset.blk.sendEps = [] ∧ State.reset.blk.recvEps = [] ∧ State.reset.blk.heldWrites = []
  ∧ State.reset.blk.fuses = [] ∧ State.reset.blk.fuseBanks = [] ∧ State.reset.blk.time = 0
  ∧ (∀ t, ∀ w, w = tw State.reset.blk t → w.cat.nodes = [] ∧ w.rack.lanes = [] ∧ w.desk.recs = [] ∧ w.shelf.shards = []
    ∧ w.lard.table = [] ∧ w.sort.slots = [] ∧ w.bank.ents = [] ∧ w.office.tubes = [] ∧ w.office.bowls = [] ∧ w.thrd.ents = []
    ∧ w.ctxs = [] ∧ w.edgeIn = [] ∧ w.claimIn = [] ∧ w.ctrlIn = [])
  ∧ storesWf State.reset.blk = true ∧ bootLegal State.reset.blk = true ∧ unarmed State.reset.blk = true

/-- Where a command's own effect leaves no step to be taken, Returns can go on with nothing that it has in hand (R163)
and no error injection is armed, nothing follows from the command: the block after it is the block its own effect
leaves. -/
def Obligations.NothingFollowsWhereNothingWaits : Prop :=
  ∀ (c : Instr) (P : Block → Block → Prop), Does c P → ∀ s : State, unarmed s.blk = true →
    ∃ b, P { s.blk with out := [] } b
      ∧ (b.work = [] → (∀ t, canSendOn b t = false) → exec c s = .next { s with blk := b })

/-- R405: whatever step is taken, from every state in which bring-up is legal, it is legal afterwards: PHASE is a code
of the table, ERROR 1 to 5 stands only at FAILED and 6 only at READY, CAUSE is a kind of reset, READY_US fits its
field, and the fuses stay a canonical store. -/
def Obligations.BringUpStaysLegal : Prop :=
  ∀ s t : State, bootLegal s.blk = true → step s = .next t → bootLegal t.blk = true

/-- Every store of the block by index stays in canonical form at every step: indices strictly rising, and no entry
equal to what an unlisted index reads as, so that equal stores are equal data (log entry 2). -/
def Obligations.StoresKeepTheirForm : Prop :=
  ∀ s t : State, storesWf s.blk = true → step s = .next t → storesWf t.blk = true

/-- R404, R405: PHASE becomes RUN only from READY, only by a RUN_CMD or a register write, and only where the pages of
every twin in service are enabled and its flush base and insertion pool are set. -/
def Obligations.ServiceIsDeclaredByRunAlone : Prop :=
  ∀ s t : State, step s = .next t → t.blk.phase = 9 → s.blk.phase ≠ 9 →
    s.blk.phase = 8 ∧ runReady s.blk = true
      ∧ ((∃ src v, s.pending.head? = some (.bootRun src v))
        ∨ (∃ src addr size v, s.pending.head? = some (.registerWrite src addr size v)))

/-- R33, R407: no step but a fuse burn changes a fuse, and a burn that succeeds, of a twin that is detached or at step
7 and whose segment the TAP does not own, adds at most one row to the fuses of one bank, or names the one bank that
its group's spare stands in for, where none was named; no reset clears a fuse. One burn for each command is the
model's choice (log entry 58). -/
def Obligations.FusesOnlyBurn : Prop :=
  ∀ s t : State, bootLegal s.blk = true → step s = .next t → ∀ key,
    (mapGet 0 t.blk.fuses key = mapGet 0 s.blk.fuses key
      ∨ (mapGet 0 t.blk.fuses key = mapGet 0 s.blk.fuses key + 1
        ∧ ∃ (w : TwinId) (g bank : BitVec 8), s.pending.head? = some (.fuseBurn w g bank true)
          ∧ key = fuseKey w g.toNat bank.toNat ∧ ((tw s.blk w).svc = .detached ∨ s.blk.phase = 7)
          ∧ tapHolds s.blk w g.toNat = false))
      ∧ (mapGet 0 t.blk.fuseBanks key = mapGet 0 s.blk.fuseBanks key
        ∨ (mapGet 0 s.blk.fuseBanks key = 0
          ∧ ∃ (w : TwinId) (g bank : BitVec 8), s.pending.head? = some (.fuseBurn w g bank true)
            ∧ key = fuseBankKey w g.toNat ∧ mapGet 0 t.blk.fuseBanks key = bank.toNat + 1
            ∧ ((tw s.blk w).svc = .detached ∨ s.blk.phase = 7) ∧ tapHolds s.blk w g.toNat = false))

/-- R16: the count of tally ticks goes on by one at a tally tick outside the power-on reset, starts again at 0 at a
cold reset, at a pin reset outside the power-on reset and at a soft reset, by its command or by the register write
that is one, and no other command changes it. That the count is the model's own, and that nothing ticks before the
first reset, is the model's choice (log entry 5). -/
def Obligations.TheTickCountsOn : Prop :=
  ∀ (c : Instr) (s t : State), exec c s = .next t →
    (c = .tallyTick → s.blk.phase ≠ 0 → t.blk.ticks = s.blk.ticks + 1)
      ∧ (c = .coldReset → t.blk.ticks = 0)
      ∧ (c = .pinReset → s.blk.phase ≠ 0 → t.blk.ticks = 0)
      ∧ (∀ (src : Requester) (v : Word64), c = .softReset src v → served s.blk src blkKey = true → fld v.toNat 63 48 = 0xC0DE →
          bitOf v.toNat 0 = true → t.blk.ticks = 0)
      ∧ (t.blk.ticks = s.blk.ticks
        ∨ (c = .tallyTick ∧ s.blk.phase ≠ 0)
        ∨ (t.blk.ticks = 0 ∧ resetBy c t.blk ∧ c ≠ .hostWake))

/-- R33, R285, R402: only the firmware's MANAGER_SET, at FIRMWARE, names the manager, and only a reset un-names it; a
segment changes its owner only at SEGMENT_OPEN, by a party that may open it then (who may is the model's choice, log
entry 58), at SEGMENT_CLOSE by its owner, and at a reset. A reset is a cold, pin or soft reset, or a WAKE. -/
def Obligations.TheManagerIsNamedOnce : Prop :=
  ∀ (c : Instr) (s t : State), exec c s = .next t →
    (t.blk.mgmt.manager = s.blk.mgmt.manager ∨ (t.blk.mgmt.manager = 0 ∧ resetBy c t.blk)
        ∨ (∃ port fn, c = .managerSet port fn ∧ s.blk.phase = 7 ∧ t.blk.phase = 8
          ∧ t.blk.mgmt.manager = 2 ^ 63 + port.toNat % 8 * 2 ^ 8 + fn.toNat % 256))
      ∧ (∀ g : Segment, segOwner t.blk g = segOwner s.blk g
        ∨ (segOwner t.blk g = none
          ∧ (resetBy c t.blk ∨ ∃ who, c = .segmentClose who g ∧ segOwner s.blk g = some who))
        ∨ (∃ who, c = .segmentOpen who g ∧ segOwner s.blk g = none ∧ segOwner t.blk g = some who
          ∧ mayOpen s.blk who g = true))

/-- R94, R95, R98, R100, R142: what the words on engine ports do at the twin that drives the port. A claim of an
engine in service joins the claims held for the engine, the youngest of all, where the engine has claimed before;
where its twin's own racks hold an eligible task that no summary beats, it is granted that task at once: the head
leaves its lane and goes to GRANTED with the next GEN, its record opens, the task counts against the engine, and the
grant word is driven with SCRUB; the claim of an engine out of service is discarded; an ACCEPT marks the task it names
and takes its record to ACCEPTED, in the twin itself or over the claim channel; that of an engine out of service is
stale, which the twin of the node it names hears of over the claim channel (R104, R144). -/
def Obligations.PortWordsAreSampled : Prop :=
  (∀ (p : Port) (w : Word32), Does (.claim p w) fun a b =>
    ∀ e, e = fld w.toNat 30 17 → storesWf a = true → live a (primary a (portNum p)) = true →
    bitOf w.toNat 31 = true → onPort (portNum p) e = true → (engOf a e).inService = true →
    (engOf a e).claims ≠ [] → (engOf a e).claims.length < (engKind e).elim 0 queueDepth →
      (engOf b e).claims = (engOf a e).claims ++ [{ seq := a.claimSeq }] ∧ b.claimSeq = a.claimSeq + 1
        ∧ (∀ j, j ≠ e → engOf b j = engOf a j)
        ∧ changesOnly [.obs (primary a (portNum p)), .engines, .claimSeq, .ctrs] a b)
  ∧ (∀ (p : Port) (w : Word32) (key x : Nat) (l : Lane) (xs : List Nat), Does (.claim p w) fun a b =>
    ∀ e, e = fld w.toNat 30 17 → ∀ g, g = (groupOf e).getD 0 → ∀ t, t = primary a g → t = primary a (portNum p) →
    storesWf a = true → live a t = true → bitOf w.toNat 31 = true → onPort (portNum p) e = true →
    (engOf a e).inService = true → (engOf a e).claims = [] → admissible a e = true → groupClaims a g = [] →
    recsInUse a t < 65536 → key / 64 = g → key % 4 < 3 → (tw a t).rack.lanes = [(key, l)] → l.slots = x :: xs → l.copies = [] →
    laneCached l ≠ 0 → x < 524288 → nodeWhy a t g x = .ok → (nodeOf a (nodeIdOf t x)).kind ≠ kRebake →
    (summaryOf a g).1 ≤ (groupBest a t g).1 →
      GrantedHere t e key x a b ∧ (engOf b e).claims = []
        ∧ changesOnly [.cat t, .rack t, .desk t, .ret t, .obs t, .ctxTws t, .ctxs, .engines, .claimSeq, .out, .errs, .ctrs] a b)
  ∧ (∀ (p : Port) (w : Word32), Does (.claim p w) fun a b =>
    ∀ e, e = fld w.toNat 30 17 → live a (primary a (portNum p)) = true → bitOf w.toNat 31 = true →
    onPort (portNum p) e = true → (engOf a e).inService = false →
      b.engines = a.engines ∧ b.claimSeq = a.claimSeq ∧ changesOnly [.ctrs] a b)
  ∧ (∀ (p : Port) (r : Report) (k : Machine.Task) (i : Nat) (q : CircRec), Does (.accept p r) fun a b =>
    ∀ e, e = r.engine.toNat → ∀ n, n = r.node.toNat → ∀ g, g = r.gen.toNat → storesWf a = true →
    live a (primary a (portNum p)) = true → onPort (portNum p) e = true → (engOf a e).inService = true →
    (engOf a e).tasks.find? (fun k => k.node == n && k.gen == g && !k.accepted) = some k →
    homeOf n = primary a (portNum p) → openRecOf a n g = some (i, q) → q.st = .issued →
      ((engOf b e).tasks = (engOf a e).tasks.map (fun k => if k.node = n ∧ k.gen = g then { k with accepted := true } else k))
        ∧ recOf b (homeOf n) i = { q with st := .accepted } ∧ (∀ j, j ≠ e → engOf b j = engOf a j)
        ∧ changesOnly [.desk (primary a (portNum p)), .engines, .ctrs] a b)
  ∧ (∀ (p : Port) (r : Report) (k : Machine.Task), Does (.accept p r) fun a b =>
    ∀ e, e = r.engine.toNat → ∀ n, n = r.node.toNat → ∀ g, g = r.gen.toNat → storesWf a = true →
    live a (primary a (portNum p)) = true → onPort (portNum p) e = true → (engOf a e).inService = true →
    (engOf a e).tasks.find? (fun k => k.node == n && k.gen == g && !k.accepted) = some k →
    homeOf n ≠ primary a (portNum p) → serves a (homeOf n) = true →
      ((engOf b e).tasks = (engOf a e).tasks.map (fun k => if k.node = n ∧ k.gen = g then { k with accepted := true } else k))
        ∧ (tw b (homeOf n)).claimIn = (tw a (homeOf n)).claimIn ++ [.acceptItem n g e false]
        ∧ (∀ j, j ≠ e → engOf b j = engOf a j) ∧ changesOnly [.claimIn (homeOf n), .engines, .ctrs] a b)
  ∧ (∀ (p : Port) (r : Report), Does (.accept p r) fun a b =>
    ∀ e, e = r.engine.toNat → ∀ n, n = r.node.toNat → ∀ g, g = r.gen.toNat → ∀ t, t = primary a (portNum p) →
    live a t = true → onPort (portNum p) e = true → (engOf a e).inService = false →
    homeOf n ≠ t → serves a (homeOf n) = true →
      (tw b (homeOf n)).claimIn = (tw a (homeOf n)).claimIn ++ [.acceptItem n g e true] ∧ b.engines = a.engines
        ∧ changesOnly [.claimIn (homeOf n), .ctrs] a b)

/-- R87, R103, R104, R108, R366: what an item of the claim channel does in the twin it reaches, the item leaving the
channel. A forwarded claim is granted the eligible head of the lane it is read from, the node going to GRANTED with
the next GEN and the GRANT going back with the change of D, and is declined where every record is in use; a declined
claim belongs to the primary twin again and is not forwarded before a summary entry sent after the decline arrives; a
GRANT is driven on the claimant's port and counted against the engine, or returned when the engine has left service;
an ACCEPT reaches its record, or counts as stale; a proxy copy is racked at the tail of its lane, refused where the
twin holds 4,096 copies (counted over all its proxy lanes, the model's choice, log entry 72), and sent back by a twin
that detaches or whose group is not up. -/
def Obligations.ClaimChannelItemsActAtTheReceiver : Prop :=
  (∀ (t : TwinId) (e g tag : Nat) (d : Int) (rest : List ClaimItem), Does (.fwdClaim t) fun a b =>
    live a t = true → serves a (partner t) = true → (tw a t).claimIn = .fwdClaim e g d tag :: rest →
    65536 ≤ recsInUse a t →
      (tw b (partner t)).claimIn = (tw a (partner t)).claimIn
          ++ [.decline e tag ((mapGet (0, 0) (tw a t).rack.sumTx (entryOf ((groupOf e).getD 0))).2 + 1)]
        ∧ (tw b t).claimIn = rest
        ∧ b.engines = a.engines ∧ changesOnly [.rack t, .claimIn t, .claimIn (partner t), .ctrs] a b)
  ∧ (∀ (t : TwinId) (e tag newer : Nat) (c : Claim) (rest : List ClaimItem), Does (.decline t) fun a b =>
    storesWf a = true → live a t = true → (tw a t).claimIn = .decline e tag newer :: rest →
    (engOf a e).claims.find? (fun c => c.seq == tag) = some c → portHeld a ((groupOf e).getD 0) = true →
      (engOf b e).claims = (engOf a e).claims.map (fun c => if c.seq = tag then { c with fwd := false, noFwd := newer } else c)
        ∧ (tw b t).claimIn = rest ∧ changesOnly [.claimIn t, .engines] a b)
  ∧ (∀ (t : TwinId) (w : GrantWord) (tag load : Nat) (dd : Int) (rest : List ClaimItem) (c : Claim), Does (.grant t) fun a b =>
    storesWf a = true → live a t = true → (tw a t).claimIn = .grant w tag dd load :: rest →
    c ∈ (engOf a w.eng).claims → c.seq = tag → (engOf a w.eng).inService = true → (ctxTw a t w.ctx).fenced = false →
    portHeld a ((groupOf w.eng).getD 0) = false →
      b.out = [.grant (portOfGroup ((groupOf w.eng).getD 0)) (grantBits w (!(engOf a w.eng).lastV || (engOf a w.eng).lastCtx != w.ctx))]
        ∧ (engOf b w.eng).claims = (engOf a w.eng).claims.filter (fun c => c.seq != tag)
        ∧ (engOf b w.eng).tasks = (engOf a w.eng).tasks ++ [{ node := w.node, gen := w.gen, ctx := w.ctx, accepted := false }]
        ∧ (engOf b w.eng).lastCtx = w.ctx
        ∧ changesOnly [.rack t, .obs t, .claimIn t, .engines, .out, .regs, .errs, .ctrs] a b)
  ∧ (∀ (t : TwinId) (w : GrantWord) (tag load : Nat) (dd : Int) (rest : List ClaimItem), Does (.grant t) fun a b =>
    storesWf a = true → live a t = true → serves a (partner t) = true → homeOf w.node = partner t →
    (tw a t).claimIn = .grant w tag dd load :: rest → (engOf a w.eng).inService = false →
    (ctxTw a t w.ctx).fenced = false →
      (tw b (partner t)).claimIn = (tw a (partner t)).claimIn ++ [.grantReturn w.node w.gen false]
        ∧ ctr b (twKey t deskP) 0x68 = satAdd ctrMax (ctr a (twKey t deskP) 0x68) 1
        ∧ (engOf b w.eng).tasks = (engOf a w.eng).tasks ∧ (tw b t).claimIn = rest
        ∧ changesOnly [.claimIn t, .claimIn (partner t), .engines, .ctrs] a b)
  ∧ (∀ (t : TwinId) (n g e i : Nat) (q : CircRec) (rest : List ClaimItem), Does (.acceptItem t) fun a b =>
    live a t = true → (tw a t).claimIn = .acceptItem n g e false :: rest → homeOf n = t →
    openRecOf a n g = some (i, q) → q.st = .issued →
      recOf b t i = { q with st := .accepted } ∧ (tw b t).claimIn = rest ∧ b.engines = a.engines
        ∧ changesOnly [.desk t, .claimIn t] a b)
  ∧ (∀ (t : TwinId) (n g e : Nat) (rest : List ClaimItem), Does (.acceptItem t) fun a b =>
    live a t = true → (tw a t).claimIn = .acceptItem n g e true :: rest → homeOf n = t →
      ctr b (twKey t retP) 0x40 = satAdd ctrMax (ctr a (twKey t retP) 0x40) 1 ∧ (tw b t).claimIn = rest
        ∧ changesOnly [.claimIn t, .ctrs] a b)
  ∧ (∀ (t : TwinId) (c : Copy) (rest : List ClaimItem), Does (.proxy t) fun a b =>
    storesWf a = true → live a t = true → (tw a t).claimIn = .proxy c :: rest → copiesHeld a t < 4096 →
    groupUp a t c.group = true → (tw a t).svc ≠ .detaching →
      (laneOf b t (copyLane a c)).copies = (laneOf a t (copyLane a c)).copies ++ [c] ∧ (tw b t).claimIn = rest
        ∧ changesOnly [.rack t, .obs t, .claimIn t, .ctrs] a b)
  ∧ (∀ (t : TwinId) (c : Copy) (rest : List ClaimItem), Does (.proxy t) fun a b =>
    live a t = true → serves a (partner t) = true → (tw a t).claimIn = .proxy c :: rest → 4096 ≤ copiesHeld a t →
      (tw b (partner t)).claimIn = (tw a (partner t)).claimIn ++ [.proxyRefused c.node]
        ∧ (tw b t).rack = (tw a t).rack ∧ changesOnly [.claimIn t, .claimIn (partner t), .errs] a b)
  ∧ (∀ (t : TwinId) (c : Copy) (rest : List ClaimItem), Does (.proxy t) fun a b =>
    live a t = true → serves a (partner t) = true → (tw a t).claimIn = .proxy c :: rest → copiesHeld a t < 4096 →
    groupUp a t c.group = false ∨ (tw a t).svc = .detaching →
      (tw b (partner t)).claimIn = (tw a (partner t)).claimIn ++ [.proxyBack c.node] ∧ (tw b t).claimIn = rest
        ∧ changesOnly [.claimIn t, .claimIn (partner t)] a b)
  ∧ (∀ (t : TwinId) (e g tag key x : Nat) (d : Int) (l : Lane) (xs : List Nat) (n : Node) (rest : List ClaimItem),
    Does (.fwdClaim t) fun a b =>
    storesWf a = true → live a t = true → serves a (partner t) = true →
    (tw a t).claimIn = .fwdClaim e g d tag :: rest → recsInUse a t < 65536 → g < 144 → key / 64 = g → key % 4 < 3 →
    (tw a t).rack.lanes = [(key, l)] → l.slots = x :: xs → l.copies = [] → laneCached l ≠ 0 → x < 524288 →
    nodeWhy a t g x = .ok → n = nodeOf a (nodeIdOf t x) → n.kind ≠ kRebake →
      (tw b (partner t)).claimIn = (tw a (partner t)).claimIn
          ++ [.grant { nodeGrant a (nodeIdOf t x) e (epochSel a (nodeIdOf t x)) with gen := (n.gen + 1) % 256 } tag (mixChange a g n) n.load]
        ∧ nodeOf b (nodeIdOf t x) = { n with st := .granted, gen := (n.gen + 1) % 256 } ∧ laneOf b t key = popSlot l
        ∧ (tw b t).claimIn = rest
        ∧ changesOnly [.cat t, .rack t, .desk t, .ret t, .obs t, .ctxTws t, .claimIn t, .claimIn (partner t), .ctxs, .out, .errs, .ctrs] a b)

/-- R87, R104: a returned grant closes its record and takes its node back to READY, to be placed again; a PROXY_GRANT
opens the record reserved for the node, with the GEN that the pool's primary twin took, and takes the node to GRANTED;
a PROXY_REFUSED frees the reservation and leaves the node at the tail of its lane; a PROXY_BACK frees it and has the
node placed again; a PROXY_GRANT of a node that a sweep freed opens nothing. -/
def Obligations.ReturnedGrantsAndProxyAnswers : Prop :=
  (∀ (t : TwinId) (n g i : Nat) (q : CircRec) (rest : List ClaimItem), Does (.grantReturn t) fun a b =>
    storesWf a = true → live a t = true → homeOf n = t → (tw a t).claimIn = .grantReturn n g false :: rest →
    openRecOf a n g = some (i, q) → (nodeOf a n).st = .granted → (nodeOf a n).wcount = false →
    unfenced a t q.ctx = true → (tw a t).rack.keptNoRec = [] → (ctxTw a t q.ctx).inflHeld = false →
    recOf a t i = q →
      recOf b t i = {} ∧ nodeOf b n = { nodeOf a n with st := .ready, readyAt := a.time }
        ∧ b.work = a.work ++ [.place n false true] ∧ (tw b t).claimIn = rest
        ∧ ctr b (twKey t catP) 0x48 = satAdd ctrMax (ctr a (twKey t catP) 0x48) 1
        ∧ (bookOn a t = false → b.out = [])
        ∧ changesOnly [.cat t, .desk t, .obs t, .claimIn t, .work, .out, .ctrs] a b)
  ∧ (∀ (t : TwinId) (n g i : Nat) (q : CircRec) (rest : List ClaimItem), Does (.grantReturn t) fun a b =>
    storesWf a = true → live a t = true → homeOf n = t → (tw a t).claimIn = .grantReturn n g true :: rest →
    openRecOf a n g = some (i, q) → (nodeOf a n).wcount = false → (tw a t).rack.keptNoRec = [] →
    (ctxTw a t q.ctx).inflHeld = false → recOf a t i = q →
      recOf b t i = {} ∧ (tw b t).claimIn = rest ∧ changesOnly [.desk t, .claimIn t] a b)
  ∧ (∀ (t : TwinId) (n gen e tag g i : Nat) (q : CircRec) (rest : List ClaimItem), Does (.proxyGrant t) fun a b =>
    storesWf a = true → live a t = true → homeOf n = t → (tw a t).claimIn = .proxyGrant n gen e tag :: rest →
    proxyGroup a n = some g → reservationOf a n = some (i, q) →
      recOf b t i = { st := .issued, node := n, gen := gen, ctx := (nodeOf a n).ctx, time := a.time % 2 ^ 32, via := true, bwd := (nodeOf a n).backward, eng := e }
        ∧ nodeOf b n = { nodeOf a n with st := .granted, gen := gen } ∧ b.work = a.work ++ [.retryProxy t g]
        ∧ (tw b t).claimIn = rest
        ∧ changesOnly [.cat t, .rack t, .desk t, .ret t, .lard (ctxOf a (nodeOf a n).ctx).home, .claimIn t, .work] a b)
  ∧ (∀ (t : TwinId) (n gen e tag : Nat) (rest : List ClaimItem), Does (.proxyGrant t) fun a b =>
    live a t = true → homeOf n = t → (tw a t).claimIn = .proxyGrant n gen e tag :: rest → proxyGroup a n = none →
      (tw b t).claimIn = rest ∧ changesOnly [.claimIn t] a b)
  ∧ (∀ (t : TwinId) (n g i : Nat) (q : CircRec) (rest : List ClaimItem), Does (.proxyRefused t) fun a b =>
    storesWf a = true → live a t = true → homeOf n = t → (tw a t).claimIn = .proxyRefused n :: rest →
    proxyGroup a n = some g → reservationOf a n = some (i, q) → (tw a t).rack.keptNoRec = [] →
    (ctxTw a t q.ctx).inflHeld = false → (recOf a t i).ctx = q.ctx →
      recOf b t i = {}
        ∧ (laneOf b t (nodeLane a g (nodeOf a n))).slots = (laneOf a t (nodeLane a g (nodeOf a n))).slots ++ [slotOf n]
        ∧ (tw b t).claimIn = rest ∧ changesOnly [.rack t, .desk t, .obs t, .claimIn t, .ctrs] a b)
  ∧ (∀ (t : TwinId) (n g i : Nat) (q : CircRec) (rest : List ClaimItem), Does (.proxyBack t) fun a b =>
    storesWf a = true → live a t = true → homeOf n = t → (tw a t).claimIn = .proxyBack n :: rest →
    proxyGroup a n = some g → reservationOf a n = some (i, q) → (nodeOf a n).wcount = false →
    (tw a t).rack.keptNoRec = [] → (ctxTw a t q.ctx).inflHeld = false → (recOf a t i).ctx = q.ctx →
      recOf b t i = {} ∧ b.work = a.work ++ [.place n false true, .retryProxy t g] ∧ (tw b t).claimIn = rest
        ∧ changesOnly [.rack t, .desk t, .claimIn t, .work] a b)

/-- R88, R98, R100 to R103: a refill step ends and the lane has one fewer in flight; a held claim that is sampled anew
is granted the eligible task of its own twin that no summary beats, and, where it finds none there while the summary
shows one in the partner, is forwarded with the mix difference D of its group; a summary entry is stored at the twin
that receives it as it was sent, its sender sends the next as its racks then give it, and a claim declined before the
entry was sent may be forwarded again (one entry on its way at a time, the model's choice, log entry 66). -/
def Obligations.RefillsResamplesSummaries : Prop :=
  (∀ (t : TwinId) (lane : LaneId), Does (.laneRefill t lane) fun a b =>
    ∀ key, key = laneKey lane.group.toNat lane.lc lane.level.toNat lane.lane.toNat → storesWf a = true →
    live a t = true → (laneOf a t key).refills ≠ 0 →
    (groupClaims a (key / 64)).filter (fun p => p.2.lane == some key) = [] →
    (tw a t).desk.fwdWait.find? (fun f => f.lane == key) = none →
      laneOf b t key = { laneOf a t key with refills := (laneOf a t key).refills - 1 }
        ∧ (∀ j, j ≠ key → laneOf b t j = laneOf a t j) ∧ changesOnly [.rack t] a b)
  ∧ (∀ (eng : EngineId) (c : Claim) (rest : List Claim), Does (.claimResample eng) fun a b =>
    ∀ e, e = eng.toNat → ∀ g, g = (groupOf e).getD 0 → ∀ t, t = primary a g → storesWf a = true →
    (engOf a e).claims = c :: rest → (∀ p ∈ groupClaims a g, c.seq ≤ p.2.seq) → admissible a e = true →
    live a t = true → serves a (partner t) = true → recordsFull a t = false → (groupBest a t g).1 = 0 →
    0 < (summaryOf a g).1 → mayForward a t g c = true →
      (tw b (partner t)).claimIn = (tw a (partner t)).claimIn ++ [.fwdClaim e g (mapGet 0 (tw a t).rack.mix g) c.seq]
        ∧ (engOf b e).claims = (engOf a e).claims.map (fun x => if x.seq = c.seq then { x with fwd := true, lane := none } else x)
        ∧ changesOnly [.claimIn (partner t), .engines, .ctrs] a b)
  ∧ (∀ (eng : EngineId) (c : Claim) (rest : List Claim) (key x : Nat) (l : Lane) (xs : List Nat),
    Does (.claimResample eng) fun a b =>
    ∀ e, e = eng.toNat → ∀ g, g = (groupOf e).getD 0 → ∀ t, t = primary a g → storesWf a = true →
    (engOf a e).claims = c :: rest → (∀ p ∈ groupClaims a g, c.seq ≤ p.2.seq) → admissible a e = true →
    live a t = true → recsInUse a t < 65536 → key / 64 = g → key % 4 < 3 → (tw a t).rack.lanes = [(key, l)] →
    l.slots = x :: xs → l.copies = [] → laneCached l ≠ 0 → x < 524288 → nodeWhy a t g x = .ok →
    (nodeOf a (nodeIdOf t x)).kind ≠ kRebake → (summaryOf a g).1 ≤ (groupBest a t g).1 →
      GrantedHere t e key x a b ∧ (engOf b e).claims = (c :: rest).filter (fun y => y.seq != c.seq)
        ∧ changesOnly [.cat t, .rack t, .desk t, .ret t, .obs t, .ctxTws t, .ctxs, .engines, .out, .errs, .ctrs] a b)
  ∧ (∀ (t : TwinId) (entry : BitVec 7) (e : Nat) (c : Claim), Does (.summaryEntry t entry) fun a b =>
    storesWf a = true → entry.toNat ≤ 71 → live a t = true → serves a (partner t) = true →
    groupClaims a (if entry.toNat < 64 then 2 * entry.toNat + twinNum t else 128 + 2 * (entry.toNat - 64) + twinNum t) = [(e, c)] →
    (engOf a e).claims = [c] → admissible a e = false →
      (engOf b e).claims = [{ c with noFwd := if c.noFwd ≤ (mapGet (0, 0) (tw a (partner t)).rack.sumTx entry.toNat).2 then 0 else c.noFwd }]
        ∧ (∀ j, j ≠ e → engOf b j = engOf a j) ∧ changesOnly [.rack t, .rack (partner t), .engines, .ctrs] a b)
  ∧ (∀ (t : TwinId) (entry : BitVec 7), Does (.summaryEntry t entry) fun a b =>
    storesWf a = true → entry.toNat ≤ 71 → live a t = true → serves a (partner t) = true →
    groupClaims a (if entry.toNat < 64 then 2 * entry.toNat + twinNum t else 128 + 2 * (entry.toNat - 64) + twinNum t) = [] →
      mapGet 0 (tw b t).rack.sumRx entry.toNat = (mapGet (0, 0) (tw a (partner t)).rack.sumTx entry.toNat).1
        ∧ mapGet (0, 0) (tw b (partner t)).rack.sumTx entry.toNat
          = (summaryValue a (partner t) entry.toNat, (mapGet (0, 0) (tw a (partner t)).rack.sumTx entry.toNat).2 + 1)
        ∧ mapGet 0 (tw b t).rack.sumAt entry.toNat = a.ticks + 1
        ∧ (∀ j, j ≠ entry.toNat → mapGet 0 (tw b t).rack.sumRx j = mapGet 0 (tw a t).rack.sumRx j)
        ∧ changesOnly [.rack t, .rack (partner t), .ctrs] a b)

/-- R97, R98, R142, R144, R153, R154, R156, R160, R163, R303, R304, R306: COMPLETE and FAULT take the task off the
engine that reports it, and travel to the home twin of the node; there a report whose record is open closes it, is
discarded when its context is fenced, and takes the node that it names, still GRANTED and of a KIND that its engine
serves (TILE, MATRIX, GATHER, SCATTER_REDUCE or COPY), to DONE, crediting its NORMAL successors in list order, in its
own twin or over the Bridge, or, where it is a FAULT, to FAULTED and its context into a fault with code 0x40; a tile's
report leaves its cluster DIRTY (that its FAULT does so too is the model's choice, log entry 37), and a credit that
its tile releases to a consumer in the twin takes an entry of the narrow-credit table. A credit for which the edge
channel has no room stays in hand with the rest of its completion, the record open, and a report that comes meanwhile
waits behind it. A report that matches no open record is stale and changes no node and no record; a grant that stays
unaccepted takes its engine out of service. -/
def Obligations.ReportsEnterReturns : Prop :=
  (∀ (p : Port) (r : Report), Does (.complete p r) fun a b =>
    ∀ e, e = r.engine.toNat → ∀ n, n = r.node.toNat → ∀ g, g = r.gen.toNat → ∀ t, t = primary a (portNum p) →
    storesWf a = true → live a t = true → onPort (portNum p) e = true → (engOf a e).inService = true →
    engKind e ≠ some .tile → homeOf n = partner t → serves a (partner t) = true →
      (tw b (partner t)).claimIn = (tw a (partner t)).claimIn ++ [.complete { isFault := false, eng := e, node := n, gen := g, maxExp := r.maxExp.toNat, expV := r.expV, code := r.code.toNat, cycles := r.cycles.toNat, stale := false, time := a.time }]
        ∧ (engOf b e).tasks = (engOf a e).tasks.filter (fun k => !(k.node == n && k.gen == g))
        ∧ changesOnly [.claimIn (partner t), .engines, .ctrs] a b)
  ∧ (∀ (p : Port) (r : Report), Does (.fault p r) fun a b =>
    ∀ e, e = r.engine.toNat → ∀ n, n = r.node.toNat → ∀ g, g = r.gen.toNat → ∀ t, t = primary a (portNum p) →
    storesWf a = true → live a t = true → onPort (portNum p) e = true → (engOf a e).inService = true →
    engKind e ≠ some .tile → homeOf n = partner t → serves a (partner t) = true →
      (tw b (partner t)).claimIn = (tw a (partner t)).claimIn ++ [.complete { isFault := true, eng := e, node := n, gen := g, maxExp := r.maxExp.toNat, expV := r.expV, code := r.code.toNat, cycles := r.cycles.toNat, stale := false, time := a.time }]
        ∧ (engOf b e).tasks = (engOf a e).tasks.filter (fun k => !(k.node == n && k.gen == g))
        ∧ changesOnly [.claimIn (partner t), .engines, .ctrs] a b)
  ∧ (∀ (p : Port) (r : Report) (i : Nat) (q : CircRec), Does (.complete p r) fun a b =>
    ∀ e, e = r.engine.toNat → ∀ n, n = r.node.toNat → ∀ g, g = r.gen.toNat → ∀ t, t = primary a (portNum p) →
    storesWf a = true → live a t = true → onPort (portNum p) e = true → (engOf a e).inService = true →
    homeOf n = t → handBusy a t = false → openRecOf a n g = some (i, q) → recOf a t i = q → (nodeOf a n).wcount = false →
    (tw a t).rack.keptNoRec = [] → (ctxTw a t q.ctx).inflHeld = false → unfenced a t q.ctx = false →
    engKind e ≠ some .tile →
      recOf b t i = {} ∧ (engOf b e).tasks = (engOf a e).tasks.filter (fun k => !(k.node == n && k.gen == g))
        ∧ changesOnly [.desk t, .obs t, .engines, .out, .ctrs] a b)
  ∧ (∀ (p : Port) (r : Report) (i : Nat) (q : CircRec), Does (.complete p r) fun a b =>
    ∀ e, e = r.engine.toNat → ∀ n, n = r.node.toNat → ∀ g, g = r.gen.toNat → ∀ t, t = primary a (portNum p) →
    ∀ ws, ws = listOf a n → storesWf a = true → live a t = true → onPort (portNum p) e = true → (engOf a e).inService = true →
    homeOf n = t → handBusy a t = false → openRecOf a n g = some (i, q) → recOf a t i = q → (nodeOf a n).wcount = false →
    (tw a t).rack.keptNoRec = [] → (ctxTw a t q.ctx).inflHeld = false → unfenced a t q.ctx = true →
    engKind e = plainEngine (nodeOf a n).kind → (nodeOf a n).kind ≤ 4 → (nodeOf a n).backward = false →
    (nodeOf a n).mirrorEn = false → (nodeOf a n).inserted = false → (nodeOf a n).st = .granted →
    mapGet 0 (tw a t).sort.bind (slotOf n) = 0 → ws.length ≤ 32 → plainList (releaseOf e) (nodeOf a n) ws = true →
    (∀ w ∈ ws, homeOf (edgeTarget w) = t) →
      recOf b t i = {} ∧ nodeOf b n = { nodeOf a n with st := .done }
        ∧ b.work = a.work ++ (if ws = [] then [] else [.credits t (ws.map (edgeCredit n (nodeOf a n).ctx q.epoch))])
        ∧ (engOf b e).tasks = (engOf a e).tasks.filter (fun k => !(k.node == n && k.gen == g))
        ∧ tileReported e a b
        ∧ changesOnly [.cat t, .desk t, .obs t, .engines, .flushes, .work, .out, .ctrs] a b)
  ∧ (∀ (p : Port) (r : Report) (i w : Nat) (q : CircRec), Does (.complete p r) fun a b =>
    ∀ e, e = r.engine.toNat → ∀ n, n = r.node.toNat → ∀ g, g = r.gen.toNat → ∀ t, t = primary a (portNum p) →
    storesWf a = true → live a t = true → onPort (portNum p) e = true → (engOf a e).inService = true →
    homeOf n = t → handBusy a t = false → openRecOf a n g = some (i, q) → recOf a t i = q → (nodeOf a n).wcount = false →
    (tw a t).rack.keptNoRec = [] → (ctxTw a t q.ctx).inflHeld = false → unfenced a t q.ctx = true →
    engKind e = plainEngine (nodeOf a n).kind → (nodeOf a n).kind ≤ 4 → (nodeOf a n).backward = false →
    (nodeOf a n).mirrorEn = false → (nodeOf a n).inserted = false → (nodeOf a n).st = .granted →
    mapGet 0 (tw a t).sort.bind (slotOf n) = 0 → listOf a n = [w] → plainList (releaseOf e) (nodeOf a n) [w] = true →
    homeOf (edgeTarget w) = partner t → serves a (partner t) = true → (tw a (partner t)).edgeIn.length < 256 →
      recOf b t i = {} ∧ nodeOf b n = { nodeOf a n with st := .done } ∧ b.work = a.work
        ∧ (tw b (partner t)).edgeIn = (tw a (partner t)).edgeIn ++ [.credit (edgeCredit n (nodeOf a n).ctx q.epoch w)]
        ∧ (engOf b e).tasks = (engOf a e).tasks.filter (fun k => !(k.node == n && k.gen == g))
        ∧ tileReported e a b
        ∧ changesOnly [.cat t, .desk t, .obs t, .edgeIn (partner t), .engines, .flushes, .out, .ctrs] a b)
  ∧ (∀ (p : Port) (r : Report) (i w : Nat) (q : CircRec), Does (.complete p r) fun a b =>
    ∀ e, e = r.engine.toNat → ∀ n, n = r.node.toNat → ∀ g, g = r.gen.toNat → ∀ t, t = primary a (portNum p) →
    ∀ x, x = edgeTarget w → storesWf a = true → live a t = true → onPort (portNum p) e = true →
    (engOf a e).inService = true → homeOf n = t → handBusy a t = false → openRecOf a n g = some (i, q) → recOf a t i = q →
    (nodeOf a n).wcount = false → (tw a t).rack.keptNoRec = [] → (ctxTw a t q.ctx).inflHeld = false →
    unfenced a t q.ctx = true → engKind e = some .tile → (nodeOf a n).kind = 0 → (nodeOf a n).backward = false →
    (nodeOf a n).mirrorEn = false → (nodeOf a n).inserted = false → (nodeOf a n).st = .granted →
    mapGet 0 (tw a t).sort.bind (slotOf n) = 0 → listOf a n = [w] → edgeKind w = 0 → max (nodeOf a n).scope (edgeScope w) < 2 →
    homeOf x = t → x ≠ n → engineServed (nodeOf a x).kind = true → (tw a t).ret.narrow = [] →
      recOf b t i = {} ∧ nodeOf b n = { nodeOf a n with st := .done }
        ∧ b.work = a.work ++ [.credits t [edgeCredit n (nodeOf a n).ctx q.epoch w]]
        ∧ mapGet {} (tw b t).ret.narrow 0 = { valid := true, node := x, cluster := e / 64, ctx := (nodeOf a x).ctx }
        ∧ (engOf b e).tasks = (engOf a e).tasks.filter (fun k => !(k.node == n && k.gen == g))
        ∧ tileReported e a b
        ∧ changesOnly [.cat t, .desk t, .ret t, .obs t, .engines, .flushes, .work, .out, .ctrs] a b)
  ∧ (∀ (p : Port) (r : Report) (i : Nat) (q : CircRec), Does (.fault p r) fun a b =>
    ∀ e, e = r.engine.toNat → ∀ n, n = r.node.toNat → ∀ g, g = r.gen.toNat → ∀ t, t = primary a (portNum p) →
    storesWf a = true → live a t = true → onPort (portNum p) e = true → (engOf a e).inService = true →
    homeOf n = t → handBusy a t = false → openRecOf a n g = some (i, q) → recOf a t i = q → (nodeOf a n).wcount = false →
    (tw a t).rack.keptNoRec = [] → (ctxTw a t q.ctx).inflHeld = false → unfenced a t q.ctx = true →
    engKind e = plainEngine (nodeOf a n).kind → (nodeOf a n).kind ≤ 4 → (nodeOf a n).st = .granted → (nodeOf a n).inserted = false →
    mapGet 0 (tw a t).sort.bind (slotOf n) = 0 → (ctxOf a q.ctx).st = .opened → (ctxOf a q.ctx).home = t →
    bitOf (reg a blkKey 0x250) 5 = false → hasEntry a t q.ctx = false → entriesHeld a t < 64 →
      recOf b t i = {} ∧ nodeOf b n = { nodeOf a n with st := .faulted }
        ∧ ctxOf b q.ctx = { ctxOf a q.ctx with st := .fenced, tear := .fault, nodeBank := 0, edgeBank := 0, faultStat := faultWord t 0x40 n, faultTime := a.time }
        ∧ (ctxTw b t q.ctx).fencePend = true ∧ (tw b t).faultQ = (tw a t).faultQ ++ [{ ctx := q.ctx }]
        ∧ (tw b (partner t)).ctrlIn = (tw a (partner t)).ctrlIn ++ [.fence q.ctx false]
        ∧ (engOf b e).tasks = (engOf a e).tasks.filter (fun k => !(k.node == n && k.gen == g))
        ∧ tileReported e a b
        ∧ changesOnly [.cat t, .desk t, .ret t, .obs t, .ctxTws t, .faultQ t, .ctrlIn (partner t), .ctxs, .engines, .flushes, .out, .errs, .ctrs] a b)
  ∧ (∀ (p : Port) (r : Report) (i w : Nat) (q : CircRec), Does (.complete p r) fun a b =>
    ∀ e, e = r.engine.toNat → ∀ n, n = r.node.toNat → ∀ g, g = r.gen.toNat → ∀ t, t = primary a (portNum p) →
    storesWf a = true → live a t = true → onPort (portNum p) e = true → (engOf a e).inService = true →
    homeOf n = t → handBusy a t = false → openRecOf a n g = some (i, q) → recOf a t i = q → (nodeOf a n).wcount = false →
    unfenced a t q.ctx = true →
    engKind e = plainEngine (nodeOf a n).kind → (nodeOf a n).kind ≤ 4 → (nodeOf a n).backward = false →
    (nodeOf a n).mirrorEn = false → (nodeOf a n).inserted = false → (nodeOf a n).st = .granted →
    mapGet 0 (tw a t).sort.bind (slotOf n) = 0 → listOf a n = [w] → plainList (releaseOf e) (nodeOf a n) [w] = true →
    homeOf (edgeTarget w) = partner t → serves a (partner t) = true → 256 ≤ (tw a (partner t)).edgeIn.length →
      (tw b t).ret.hand = some {
          ctx := (nodeOf a n).ctx, gen := g, rel := releaseOf e, scope := (nodeOf a n).scope,
          chunks := [[edgeCredit n (nodeOf a n).ctx q.epoch w]],
          ends := .task i q { isFault := false, eng := e, node := n, gen := g, maxExp := r.maxExp.toNat, expV := r.expV, code := r.code.toNat, cycles := r.cycles.toNat, stale := false, time := a.time } none }
        ∧ recOf b t i = q ∧ nodeOf b n = { nodeOf a n with st := .done } ∧ b.work = a.work
        ∧ (engOf b e).tasks = (engOf a e).tasks.filter (fun k => !(k.node == n && k.gen == g))
        ∧ tileReported e a b
        ∧ changesOnly [.cat t, .ret t, .obs t, .engines, .flushes, .out, .ctrs] a b)
  ∧ (∀ (t : TwinId) (c : Completion) (rest : List ClaimItem), Does (.completeItem t) fun a b =>
    live a t = true → (tw a t).claimIn = .complete c :: rest → handBusy a t = true →
      (tw b t).ret.waiting = (tw a t).ret.waiting ++ [.report c] ∧ (tw b t).ret.hand = (tw a t).ret.hand
        ∧ (tw b t).claimIn = rest ∧ changesOnly [.ret t, .claimIn t] a b)
  ∧ (∀ (t : TwinId) (c : Completion) (rest : List ClaimItem), Does (.completeItem t) fun a b =>
    live a t = true → (tw a t).claimIn = .complete c :: rest → c.stale = true →
    handBusy a t = false →
      (tw b t).claimIn = rest ∧ changesOnly [.obs t, .claimIn t, .out, .ctrs] a b)
  ∧ (∀ (t : TwinId) (c : Completion) (i : Nat) (q : CircRec) (rest : List ClaimItem), Does (.completeItem t) fun a b =>
    storesWf a = true → live a t = true → (tw a t).claimIn = .complete c :: rest → c.stale = false →
    homeOf c.node = t → handBusy a t = false → openRecOf a c.node c.gen = some (i, q) → recOf a t i = q →
    (nodeOf a c.node).wcount = false → (tw a t).rack.keptNoRec = [] → (ctxTw a t q.ctx).inflHeld = false →
    unfenced a t q.ctx = false →
      recOf b t i = {} ∧ (tw b t).claimIn = rest ∧ changesOnly [.desk t, .obs t, .claimIn t, .out, .ctrs] a b)
  ∧ (∀ (t : TwinId) (c : Completion) (i : Nat) (q : CircRec) (rest : List ClaimItem), Does (.completeItem t) fun a b =>
    ∀ n, n = c.node → ∀ ws, ws = listOf a n →
    storesWf a = true → live a t = true → (tw a t).claimIn = .complete c :: rest → c.stale = false →
    c.isFault = false → homeOf n = t → handBusy a t = false → openRecOf a n c.gen = some (i, q) → recOf a t i = q →
    (nodeOf a n).wcount = false → (tw a t).rack.keptNoRec = [] → (ctxTw a t q.ctx).inflHeld = false →
    unfenced a t q.ctx = true → engKind c.eng = plainEngine (nodeOf a n).kind → (nodeOf a n).kind ≤ 4 →
    (nodeOf a n).backward = false → (nodeOf a n).mirrorEn = false → (nodeOf a n).inserted = false → (nodeOf a n).st = .granted →
    mapGet 0 (tw a t).sort.bind (slotOf n) = 0 → ws.length ≤ 32 → plainList (releaseOf c.eng) (nodeOf a n) ws = true →
    (∀ w ∈ ws, homeOf (edgeTarget w) = t) →
      recOf b t i = {} ∧ nodeOf b n = { nodeOf a n with st := .done } ∧ (tw b t).claimIn = rest
        ∧ b.work = a.work ++ (if ws = [] then [] else [.credits t (ws.map (edgeCredit n (nodeOf a n).ctx q.epoch))])
        ∧ changesOnly [.cat t, .desk t, .obs t, .claimIn t, .work, .out, .ctrs] a b)
  ∧ (∀ (t : TwinId) (c : Completion) (i : Nat) (q : CircRec) (rest : List ClaimItem), Does (.completeItem t) fun a b =>
    ∀ n, n = c.node → storesWf a = true → live a t = true → (tw a t).claimIn = .complete c :: rest → c.stale = false →
    c.isFault = true → homeOf n = t → handBusy a t = false → openRecOf a n c.gen = some (i, q) → recOf a t i = q →
    (nodeOf a n).wcount = false → (tw a t).rack.keptNoRec = [] → (ctxTw a t q.ctx).inflHeld = false →
    unfenced a t q.ctx = true → (nodeOf a n).kind ≤ 4 → (nodeOf a n).st = .granted → (nodeOf a n).inserted = false →
    mapGet 0 (tw a t).sort.bind (slotOf n) = 0 → (ctxOf a q.ctx).st = .opened → (ctxOf a q.ctx).home = t →
    bitOf (reg a blkKey 0x250) 5 = false → hasEntry a t q.ctx = false → entriesHeld a t < 64 →
      recOf b t i = {} ∧ nodeOf b n = { nodeOf a n with st := .faulted } ∧ (tw b t).claimIn = rest
        ∧ ctxOf b q.ctx = { ctxOf a q.ctx with st := .fenced, tear := .fault, nodeBank := 0, edgeBank := 0, faultStat := faultWord t 0x40 n, faultTime := a.time }
        ∧ (ctxTw b t q.ctx).fencePend = true ∧ (tw b t).faultQ = (tw a t).faultQ ++ [{ ctx := q.ctx }]
        ∧ (tw b (partner t)).ctrlIn = (tw a (partner t)).ctrlIn ++ [.fence q.ctx false]
        ∧ changesOnly [.cat t, .desk t, .ret t, .obs t, .ctxTws t, .faultQ t, .claimIn t, .ctrlIn (partner t), .ctxs, .out, .errs, .ctrs] a b)
  ∧ (∀ (eng : EngineId) (k : Machine.Task) (i : Nat), Does (.acceptTimeout eng) fun a b =>
    ∀ e, e = eng.toNat → ∀ g, g = (groupOf e).getD 0 → ∀ t, t = primary a g → storesWf a = true →
    live a t = true → (engOf a e).tasks = [k] → k.accepted = false → (engOf a e).inService = true →
    homeOf k.node = partner t → serves a (partner t) = true → i < (groupEngines g).2 →
    (groupEngines g).1 + i ≠ e → (engOf a ((groupEngines g).1 + i)).inService = true →
      engOf b e = { engOf a e with inService := false, claims := [], tasks := [] }
        ∧ (tw b (partner t)).claimIn = (tw a (partner t)).claimIn ++ [.grantReturn k.node k.gen false]
        ∧ (tw b t).desk.lastErr = 2 ^ 63 + 4 * 2 ^ 48 + e * 2 ^ 34 + k.node % 2 ^ 20
        ∧ (pageOf b (twKey t deskP)).errStat = (pageOf a (twKey t deskP)).errStat ||| 2 ^ 4
        ∧ (∀ j, j ≠ e → engOf b j = engOf a j)
        ∧ changesOnly [.desk t, .claimIn (partner t), .engines, .errs, .ctrs] a b)

/-- R47, R48, R50, R52 to R54, R166: a NORMAL credit takes 1 from the counter of a WAITING node of MODE COUNT, which
stays WAITING while the counter is not 0; the credit that takes it to 0 makes the node READY, to be placed, or
SKIPPED, to be completed by Returns, where a skip is pending or the credit carries one; a walk of the timing wheel
makes a TIMED node READY once global time has reached its target. -/
def Obligations.CreditsCountDownAndJudge : Prop :=
  (∀ (t : TwinId) (c : Credit) (rest : List EdgeItem), Does (.credit t) fun a b =>
    ∀ id, id = edgeTarget c.word → storesWf a = true → live a t = true → (tw a t).edgeIn = .credit c :: rest →
    c.skip = false → homeOf id = t → (nodeOf a id).st = .waiting → (nodeOf a id).mode = 0 →
    (nodeOf a id).ctx = c.ctx → (nodeOf a id).kind ≠ kExpert → unfenced a t c.ctx = true → c.epoch = 0 →
    edgeKind c.word = 0 → (tw a (homeOf c.src)).lard.leaving.find? (fun p => p.1 == c.src && c.org == 0) = none →
    (nodeOf a id).backward = false → 1 < (nodeOf a id).cf →
      nodeOf b id = { nodeOf a id with cf := (nodeOf a id).cf - 1 } ∧ (tw b t).edgeIn = rest
        ∧ (∀ x, x ≠ slotOf id → mapGet {} (tw b t).cat.nodes x = mapGet {} (tw a t).cat.nodes x)
        ∧ changesOnly [.cat t, .obs t, .edgeIn t, .ctrs] a b)
  ∧ (∀ (t : TwinId) (c : Credit) (rest : List EdgeItem), Does (.credit t) fun a b =>
    ∀ id, id = edgeTarget c.word → storesWf a = true → live a t = true → (tw a t).edgeIn = .credit c :: rest →
    c.skip = false → homeOf id = t → (nodeOf a id).st = .waiting → (nodeOf a id).mode = 0 →
    (nodeOf a id).ctx = c.ctx → (nodeOf a id).kind ≠ kExpert → unfenced a t c.ctx = true → c.epoch = 0 →
    edgeKind c.word = 0 → (tw a (homeOf c.src)).lard.leaving.find? (fun p => p.1 == c.src && c.org == 0) = none →
    (nodeOf a id).cf = 1 → (nodeOf a id).mirHold = false → (nodeOf a id).skipPend = false →
    (nodeOf a id).backward = false → engineServed (nodeOf a id).kind = true →
      nodeOf b id = { nodeOf a id with cf := 0, st := .ready, readyAt := a.time }
        ∧ b.work = a.work ++ [.place id false false] ∧ (tw b t).edgeIn = rest
        ∧ (∀ x, x ≠ slotOf id → mapGet {} (tw b t).cat.nodes x = mapGet {} (tw a t).cat.nodes x)
        ∧ changesOnly [.cat t, .obs t, .edgeIn t, .work, .out, .ctrs] a b)
  ∧ (∀ (t : TwinId) (c : Credit) (rest : List EdgeItem), Does (.skipCredit t) fun a b =>
    ∀ id, id = edgeTarget c.word → storesWf a = true → live a t = true → (tw a t).edgeIn = .credit c :: rest →
    c.skip = true → homeOf id = t → (nodeOf a id).st = .waiting → (nodeOf a id).mode = 0 →
    (nodeOf a id).ctx = c.ctx → (nodeOf a id).kind ≠ kExpert → unfenced a t c.ctx = true → c.epoch = 0 →
    edgeKind c.word = 0 → (tw a (homeOf c.src)).lard.leaving.find? (fun p => p.1 == c.src && c.org == 0) = none →
    (nodeOf a id).cf = 1 → (nodeOf a id).mirHold = false → (nodeOf a id).backward = false →
    mapGet 0 (tw a t).sort.bind (slotOf id) = 0 →
      nodeOf b id = { nodeOf a id with cf := 0, skipPend := true, st := .skipped }
        ∧ b.work = a.work ++ [.skipDone id] ∧ (tw b t).edgeIn = rest
        ∧ (∀ x, x ≠ slotOf id → mapGet {} (tw b t).cat.nodes x = mapGet {} (tw a t).cat.nodes x)
        ∧ changesOnly [.cat t, .obs t, .edgeIn t, .work, .out, .ctrs] a b)
  ∧ (∀ (t : TwinId), Does (.wheelWalk t) fun a b =>
    live a t = true → (tw a t).cat.walked < a.time / 1024 →
    mapGet [] (tw a t).cat.wheel (((tw a t).cat.walked + 1) % 4096) = [] →
      (tw b t).cat = { (tw a t).cat with walked := (tw a t).cat.walked + 1, bucket := ((tw a t).cat.walked + 1) % 4096 }
        ∧ changesOnly [.cat t] a b)
  ∧ (∀ (t : TwinId) (x : Nat), Does (.wheelWalk t) fun a b =>
    storesWf a = true → live a t = true → (tw a t).cat.walked < a.time / 1024 →
    mapGet [] (tw a t).cat.wheel (((tw a t).cat.walked + 1) % 4096) = [x] → x < 524288 →
    (nodeOf a (nodeIdOf t x)).st = .waiting → (nodeOf a (nodeIdOf t x)).mode = 3 →
    reached a.time (timeTarget (nodeOf a (nodeIdOf t x))) = true → (nodeOf a (nodeIdOf t x)).mirHold = false →
    (nodeOf a (nodeIdOf t x)).skipPend = false → engineServed (nodeOf a (nodeIdOf t x)).kind = true →
      nodeOf b (nodeIdOf t x) = { nodeOf a (nodeIdOf t x) with st := .ready, readyAt := a.time }
        ∧ b.work = a.work ++ [.place (nodeIdOf t x) false false] ∧ changesOnly [.cat t, .obs t, .work, .out, .ctrs] a b)

/-- R65, R66, R72, R78, R80 to R82: what the commands of an accession window do where the window is open and nothing
parks them. NODE_BANK and EDGE_BANK take their operands' low bits, MARK takes 32; REARM and RELEASE start a sweep in
both twins, MIRROR_CLOSE closes the context's mirrors in both; a write to the reserved area is counted and discarded;
a write that must wait is parked, in the buffer of the twin that it addresses, with the twin that NODE_BANK names (which twin a write
addresses and which buffer it waits in are the model's choice, log entries 24, 68 and 87), one that finds a buffer full, or
others held, is held at its writer; the first parked write takes effect once its cause has cleared; a sweep ends.
-/
def Obligations.WindowCommandsTakeEffect : Prop :=
  (∀ (src : Requester) (ctx : CtxId) (v : Word64), Does (.nodeBank src ctx true v) fun a b =>
    ∀ k, k = ctx.toNat → storesWf a = true → winReady a src k (.nodeBank v.toNat) = true →
      ctxOf b k = { ctxOf a k with nodeBank := v.toNat % 1024 } ∧ (∀ j, j ≠ k → ctxOf b j = ctxOf a j)
        ∧ changesOnly [.ctxs, .ctrs] a b)
  ∧ (∀ (src : Requester) (ctx : CtxId) (v : Word64), Does (.edgeBank src ctx true v) fun a b =>
    ∀ k, k = ctx.toNat → storesWf a = true → winReady a src k (.edgeBank v.toNat) = true →
      ctxOf b k = { ctxOf a k with edgeBank := v.toNat % 2048 } ∧ (∀ j, j ≠ k → ctxOf b j = ctxOf a j)
        ∧ changesOnly [.ctxs, .ctrs] a b)
  ∧ (∀ (src : Requester) (ctx : CtxId) (v : Word64), Does (.mark src ctx true v) fun a b =>
    ∀ k, k = ctx.toNat → storesWf a = true → winReady a src k (.mark v.toNat) = true →
      ctxOf b k = { ctxOf a k with mark := v.toNat % 2 ^ 32 } ∧ (∀ j, j ≠ k → ctxOf b j = ctxOf a j)
        ∧ changesOnly [.ctxs, .ctrs] a b)
  ∧ (∀ (src : Requester) (ctx : CtxId) (v : Word64), Does (.mark src ctx true v) fun a b =>
    ∀ k, k = ctx.toNat → storesWf a = true → winServed a src k = true → windowOpen a k = true →
    mirrorWork a k = true → (ctxOf a k).parked = [] → parkFull a .t0 = false → parkFull a .t1 = false → a.heldWrites = [] →
      ctxOf b k = { ctxOf a k with parked := [{ named := nodeTwin (selectors a k), buffer := nodeTwin (selectors a k), parts := [.mark v.toNat] }] }
        ∧ (∀ j, j ≠ k → ctxOf b j = ctxOf a j) ∧ changesOnly [.ctxs] a b)
  ∧ (∀ (src : Requester) (ctx : CtxId) (v : Word64), Does (.mark src ctx true v) fun a b =>
    ∀ k, k = ctx.toNat → storesWf a = true → winServed a src k = true →
    a.heldWrites ≠ [] ∨ parkFull a .t0 = true ∨ parkFull a .t1 = true →
      b.heldWrites = a.heldWrites ++ [{ src := src, ctx := k, parts := [.mark v.toNat] }] ∧ changesOnly [.heldWrites] a b)
  ∧ (∀ (src : Requester) (ctx : CtxId) (off : BitVec 16), Does (.reservedAreaWrite src ctx off) fun a b =>
    ∀ k, k = ctx.toNat → storesWf a = true → winReady a src k .reserved = true → ∀ t, t = nodeTwin (selectors a k) →
      ctr b (twKey t accP) 0x70 = satAdd ctrMax (ctr a (twKey t accP) 0x70) 1 ∧ changesOnly [.ctrs] a b)
  ∧ (∀ (src : Requester) (ctx : CtxId) (x : Nat) (n : Node), Does (.rearm src ctx true) fun a b =>
    ∀ k, k = ctx.toNat → storesWf a = true → winReady a src k .rearm = true → serves a .t0 = true → serves a .t1 = true →
    (tw a .t1).cat.nodes.filter (fun p => p.2.ctx == k && p.2.st != .free && !p.2.region && inNodeRange (ctxTw a .t1 k).nodeRange p.1) = [] →
    (tw a .t0).cat.nodes.filter (fun p => p.2.ctx == k && p.2.st != .free && !p.2.region && inNodeRange (ctxTw a .t0 k).nodeRange p.1) = [(x, n)] →
    x < 524288 → n.st = .done → mapGet 0 (tw a .t0).sort.bind x = 0 → mapGet {} (tw a .t0).cat.nodes x = n →
      nodeOf b x = rearmNode n ∧ (ctxTw b .t0 k).sweep = .rearm ∧ (ctxTw b .t1 k).sweep = .rearm
        ∧ b.work = a.work ++ [.evaluate x 3 0]
        ∧ changesOnly [.cat .t0, .ret .t0, .ctxTws .t0, .ctxTws .t1, .work, .ctrs] a b)
  ∧ (∀ (src : Requester) (ctx : CtxId), Does (.mirrorClose src ctx true) fun a b =>
    ∀ k, k = ctx.toNat → ∀ t, t = nodeTwin (selectors a k) → storesWf a = true → winReady a src k .mirrorClose = true → serves a t = true → serves a (partner t) = true →
      ctxTw b t k = { ctxTw a t k with closing := true, closeFirst := true, marker := false }
        ∧ ctxTw b (partner t) k = { ctxTw a (partner t) k with closing := true, closeFirst := false, marker := false }
        ∧ (∀ u j, j ≠ k → ctxTw b u j = ctxTw a u j) ∧ changesOnly [.ctxTws t, .ctxTws (partner t), .ctrs] a b)
  ∧ (∀ (t : TwinId) (ctx : CtxId), Does (.mirrorCloseEffect t ctx) fun a b =>
    ∀ k, k = ctx.toNat → storesWf a = true → live a t = true → (ctxTw a t k).closing = true →
    (ctxTw a t k).closeFirst = true → closeBlocked a t k = false → serves a (partner t) = true →
    (ctxTw a t k).pendMir = [] → (ctxOf a k).fixedLoaded = true →
      ctxTw b t k = { ctxTw a t k with closing := false, closeFirst := false, marker := false }
        ∧ ctxOf b k = { ctxOf a k with fixedClosed := true }
        ∧ (tw b (partner t)).edgeIn = (tw a (partner t)).edgeIn ++ [.closeMarker k]
        ∧ changesOnly [.ctxTws t, .edgeIn (partner t), .ctxs] a b)
  ∧ (∀ (t : TwinId) (ctx : CtxId) (x : Nat) (n m : Node), Does (.mirrorCloseEffect t ctx) fun a b =>
    ∀ k, k = ctx.toNat → storesWf a = true → live a t = true → (ctxTw a t k).closing = true →
    (ctxTw a t k).closeFirst = false → (ctxTw a t k).marker = true → closeBlocked a t k = false →
    (ctxTw a t k).pendMir = [x] → x < 524288 → n = nodeOf a (nodeIdOf t x) → n.st = .loading → n.ctx = k →
    n.backward = true → (ctxOf a k).fixedLoaded = false →
    m = { n with succBase := twinNum t * 2 ^ 22 + n.mBase % 2 ^ 22, succLen := n.mLen, mirror := 0, rsv2 := 0 } →
    sealOk (upNode (nodeIdOf t x) (fun _ => m) a) (nodeIdOf t x) m = true →
      (nodeOf b (nodeIdOf t x)).st = .waiting ∧ (nodeOf b (nodeIdOf t x)).succLen = n.mLen
        ∧ (nodeOf b (nodeIdOf t x)).succBase = twinNum t * 2 ^ 22 + n.mBase % 2 ^ 22
        ∧ (∀ y, y ≠ x → mapGet {} (tw b t).cat.nodes y = mapGet {} (tw a t).cat.nodes y)
        ∧ ctxTw b t k = { ctxTw a t k with pendMir := [], closing := false, marker := false }
        ∧ changesOnly [.cat t, .acc t, .ctxTws t, .obs t, .work, .out, .ctrs] a b)
  ∧ (∀ (src : Requester) (ctx : CtxId) (x : Nat) (n : Node), Does (.release src ctx true) fun a b =>
    ∀ k, k = ctx.toNat → storesWf a = true → winReady a src k .release = true → serves a .t0 = true → serves a .t1 = true →
    nodesOf a .t1 k = [] → nodesOf a .t0 k = [x] → x < 524288 → n.st = .done → n.ctx = k →
    inNodeRange (ctxTw a .t0 k).nodeRange x = true → mapGet {} (tw a .t0).cat.nodes x = n → n.wcount = false →
    n.locked = false → n.inserted = false → mapGet 0 (tw a .t0).sort.bind x = 0 → entriesOf a .t0 k = [] →
    entriesOf a .t1 k = [] → (∀ t, ∀ p ∈ (tw a t).rack.lanes, ∀ c ∈ p.2.copies, c.ctx ≠ k) →
    (∀ t, ∀ p ∈ (tw a t).ctxs, ∀ c ∈ p.2.holdCopies, c.ctx ≠ k) →
      nodeOf b x = {} ∧ (ctxTw b .t0 k).sweep = .release ∧ (ctxTw b .t1 k).sweep = .release
        ∧ (ctxOf b k).fixedLoaded = false ∧ (ctxOf b k).fixedClosed = false
        ∧ changesOnly [.cat .t0, .acc .t0, .acc .t1, .ret .t0, .lard .t0, .ctxTws .t0, .ctxTws .t1, .ctxs, .ctrs] a b)
  ∧ (∀ (ctx : CtxId) (w : ParkedWrite) (v : Nat) (rest : List ParkedWrite), Does (.parkedWrite ctx) fun a b =>
    ∀ k, k = ctx.toNat → storesWf a = true → (ctxOf a k).parked = w :: rest → w.parts = [.mark v] → w.banks = none →
    windowOpen a k = true → mustPark a k (selectors a k) (.mark v) = false → a.heldWrites = [] →
      ctxOf b k = { ctxOf a k with parked := rest, mark := v % 2 ^ 32 } ∧ (∀ j, j ≠ k → ctxOf b j = ctxOf a j)
        ∧ changesOnly [.ctxs, .ctrs] a b)
  ∧ (∀ (t : TwinId) (ctx : CtxId), Does (.sweepEnd t ctx) fun a b =>
    ∀ k, k = ctx.toNat → storesWf a = true → live a t = true → (ctxTw a t k).sweep = .rearm →
    (ctxTw a t k).sweepBusy = false →
      ctxTw b t k = { ctxTw a t k with sweep := .none } ∧ (tw b t).bank.rearmed = (tw a t).bank.rearmed ++ [k]
        ∧ changesOnly [.ctxTws t, .bank t, .ctrs] a b)

/-- R36, R37, R40 to R43, R65, R68, R70, R71, R73: a 4-byte write to the edge area stores its word in the forward slot
that EDGE_BANK and the offset name, where the slot lies in the context's range and is not locked; an 8-byte write of a
word of a node record takes a node of the context's range that is FREE, DONE or SKIPPED to LOADING, freeing the locks
of its old list, and one that is LOADING keeps it, and gives it the fields of the word, MODE and COUNT_FLAGS only with
the first word 0; a word 0 with SEAL takes the node to WAITING with the locks of its list set, to be judged, and one
whose checks fail takes it to FAULTED and its context into a fault with code 0x10; a write of a node in WAITING,
READY, GRANTED or FAULTED is refused with code 0x21; an edge word outside the context's range is refused with code
0x20, and one that the write covers in part with code 0x23: the stores stay as they are, the refusal is recorded with
the word's offset, the context faults, and the window is marked, so that it discards every write from the next one on.
-/
def Obligations.WindowWritesFillTheStores : Prop :=
  (∀ (src : Requester) (ctx : CtxId) (off : BitVec 16) (data : List Byte), Does (.edgeWrite src ctx off data) fun a b =>
    ∀ k, k = ctx.toNat → ∀ t, t = twinOf ((ctxOf a k).edgeBank >>> 10) →
    ∀ slot, slot = ((ctxOf a k).edgeBank % 1024) * 4096 + off.toNat / 4 % 4096 → storesWf a = true →
    winReady a src k (.edge off.toNat data) = true →
    data.length = 4 → 0x8000 ≤ off.toNat → off.toNat + 4 ≤ 0xC000 →
    off.toNat % 4 = 0 → inFwdRange (ctxTw a t k).fwdRange slot = true → (ctxOf a k).fixedClosed = false →
    mapGet false (tw a t).acc.locks slot = false →
      mapGet 0 (tw b t).cat.fwd slot = bytesToNat data
        ∧ (∀ x, x ≠ slot → mapGet 0 (tw b t).cat.fwd x = mapGet 0 (tw a t).cat.fwd x)
        ∧ (tw b t).cat.nodes = (tw a t).cat.nodes ∧ changesOnly [.cat t, .ctrs] a b)
  ∧ (∀ (src : Requester) (ctx : CtxId) (off : BitVec 16) (data : List Byte), Does (.nodeWrite src ctx off data) fun a b =>
    ∀ k, k = ctx.toNat → ∀ t, t = nodeTwin (selectors a k) →
    ∀ slot, slot = ((ctxOf a k).nodeBank % 512) * 1024 + off.toNat / 32 → storesWf a = true →
    winReady a src k (.node off.toNat data) = true →
    data.length = 8 → off.toNat < 0x8000 → off.toNat % 32 = 24 →
    inNodeRange (ctxTw a t k).nodeRange slot = true → (ctxOf a k).fixedClosed = false →
    nodeOf a (nodeIdOf t slot) = {} →
      nodeOf b (nodeIdOf t slot) = { st := .loading, ctx := k, region := nodeRegion a k (nodeIdOf t slot), desc := fld (bytesToNat data) 63 22, layer := fld (bytesToNat data) 21 10, rsv3 := fld (bytesToNat data) 9 0 }
        ∧ (∀ x, x ≠ slot → mapGet {} (tw b t).cat.nodes x = mapGet {} (tw a t).cat.nodes x)
        ∧ (tw b t).cat.fwd = (tw a t).cat.fwd ∧ changesOnly [.cat t, .ctxs, .ctrs] a b)
  ∧ (∀ (src : Requester) (ctx : CtxId) (off : BitVec 16) (data : List Byte), Does (.nodeWrite src ctx off data) fun a b =>
    ∀ k, k = ctx.toNat → ∀ t, t = nodeTwin (selectors a k) →
    ∀ slot, slot = ((ctxOf a k).nodeBank % 512) * 1024 + off.toNat / 32 → ∀ id, id = nodeIdOf t slot →
    ∀ n, n = nodeOf a id → ∀ v, v = bytesToNat data → storesWf a = true → winReady a src k (.node off.toNat data) = true →
    data.length = 8 → off.toNat < 0x8000 → off.toNat % 8 = 0 →
    inNodeRange (ctxTw a t k).nodeRange slot = true → (ctxOf a k).fixedClosed = false →
    n.st = .free ∨ n.st = .loading ∨ n.st = .done ∨ n.st = .skipped → n.backward = false →
    (off.toNat % 32 = 0 → bitOf v 33 = false) →
    ∀ m, m = (if n.st = .free then ({ st := .loading, ctx := k, region := nodeRegion a k id } : Node)
      else if n.st = .loading then n
      else { n with st := .loading, cfSet := false, skipPend := false, locked := false, mRes := false }) →
      nodeOf b id = (if off.toNat % 32 = 8 then
            { m with mask := fld v 63 40, scope := fld v 39 38, load := fld v 37 36, affinity := fld v 35 18, stash := fld v 17 0 }
          else if off.toNat % 32 = 16 then
            { m with succBase := fld v 63 41, succLen := fld v 40 29, mirror := fld v 28 9, rsv2 := fld v 8 0 }
          else if off.toNat % 32 = 24 then { m with desc := fld v 63 22, layer := fld v 21 10, rsv3 := fld v 9 0 }
          else { m with
            kind := fld v 58 54, lc := bitOf v 53, level := fld v 52 50, sealBit := false, mirrorEn := bitOf v 32,
            larder := fld v 31 24, mode := if m.cfSet then m.mode else fld v 60 59, cf := if m.cfSet then m.cf else fld v 23 0,
            initCount := if m.cfSet then m.initCount else fld v 23 0, cfSet := true })
        ∧ (∀ x, x ≠ slot → mapGet {} (tw b t).cat.nodes x = mapGet {} (tw a t).cat.nodes x)
        ∧ (∀ x, mapGet false (tw b t).acc.locks x = (mapGet false (tw a t).acc.locks x
          && !((n.st == .done || n.st == .skipped) && n.locked && inList n x)))
        ∧ (tw b t).cat.fwd = (tw a t).cat.fwd ∧ (ctxOf b k).fixedLoaded = ((ctxOf a k).fixedLoaded || !(nodeRegion a k id))
        ∧ changesOnly [.cat t, .acc t, .ctxs, .ctrs] a b)
  ∧ (∀ (src : Requester) (ctx : CtxId) (off : BitVec 16) (data : List Byte), Does (.nodeWrite src ctx off data) fun a b =>
    ∀ k, k = ctx.toNat → ∀ t, t = nodeTwin (selectors a k) →
    ∀ slot, slot = ((ctxOf a k).nodeBank % 512) * 1024 + off.toNat / 32 → ∀ id, id = nodeIdOf t slot →
    ∀ n, n = nodeOf a id → ∀ v, v = bytesToNat data → storesWf a = true → winReady a src k (.node off.toNat data) = true →
    data.length = 8 → off.toNat < 0x8000 → off.toNat % 32 = 0 → bitOf v 33 = true →
    inNodeRange (ctxTw a t k).nodeRange slot = true → (ctxOf a k).fixedClosed = false →
    n.st = .loading → n.backward = false → n.cfSet = false → bitOf v 32 = false → fld v 58 54 ≤ 12 → fld v 58 54 ≠ kRebake →
    n.load ≤ 2 → n.succBase / 2 ^ 22 = twinNum t → n.succBase % 2 ^ 22 + n.succLen ≤ 2 ^ 22 →
    (fld v 60 59 = 2 → n.mask ≠ 0) → anyLocked a id n = false →
      nodeOf b id = { n with
          st := .waiting, kind := fld v 58 54, lc := bitOf v 53, level := fld v 52 50, sealBit := true, mirrorEn := false,
          larder := fld v 31 24, mode := fld v 60 59, cf := fld v 23 0, initCount := fld v 23 0, cfSet := true, locked := true }
        ∧ (∀ x, x ≠ slot → mapGet {} (tw b t).cat.nodes x = mapGet {} (tw a t).cat.nodes x)
        ∧ (∀ x, mapGet false (tw b t).acc.locks x = (mapGet false (tw a t).acc.locks x || inList n x))
        ∧ b.work = a.work ++ [.evaluate id 3 0] ∧ changesOnly [.cat t, .acc t, .ctxs, .work, .ctrs] a b)
  ∧ (∀ (src : Requester) (ctx : CtxId) (off : BitVec 16) (data : List Byte), Does (.nodeWrite src ctx off data) fun a b =>
    ∀ k, k = ctx.toNat → ∀ t, t = nodeTwin (selectors a k) →
    ∀ slot, slot = ((ctxOf a k).nodeBank % 512) * 1024 + off.toNat / 32 → ∀ id, id = nodeIdOf t slot →
    ∀ n, n = nodeOf a id → ∀ v, v = bytesToNat data → storesWf a = true → winReady a src k (.node off.toNat data) = true →
    data.length = 8 → off.toNat < 0x8000 → off.toNat % 32 = 0 → bitOf v 33 = true →
    inNodeRange (ctxTw a t k).nodeRange slot = true → (ctxOf a k).fixedClosed = false →
    n.st = .loading → n.backward = false →
    12 < fld v 58 54 ∨ fld v 58 54 = kRebake ∨ 2 < n.load ∨ n.succBase / 2 ^ 22 ≠ twinNum t ∨ 2 ^ 22 < n.succBase % 2 ^ 22 + n.succLen →
    mapGet 0 (tw a t).sort.bind slot = 0 → (ctxOf a k).home = t → bitOf (reg a blkKey 0x250) 5 = false →
    hasEntry a t k = false → entriesHeld a t < 64 → (ctxTw a t k).fenced = false →
      (nodeOf b id).st = .faulted ∧ (ctxOf b k).st = .fenced ∧ (ctxOf b k).faultStat = faultWord t 0x10 id
        ∧ (tw b t).cat.lastFault = lastWord 0x10 k + id
        ∧ (∀ x, x ≠ slot → mapGet {} (tw b t).cat.nodes x = mapGet {} (tw a t).cat.nodes x)
        ∧ changesOnly [.cat t, .ret t, .obs t, .ctxTws t, .faultQ t, .ctrlIn (partner t), .ctxs, .out, .errs, .ctrs] a b)
  ∧ (∀ (src : Requester) (ctx : CtxId) (off : BitVec 16) (data : List Byte), Does (.nodeWrite src ctx off data) fun a b =>
    ∀ k, k = ctx.toNat → ∀ t, t = nodeTwin (selectors a k) →
    ∀ slot, slot = ((ctxOf a k).nodeBank % 512) * 1024 + off.toNat / 32 → ∀ n, n = nodeOf a (nodeIdOf t slot) →
    storesWf a = true → winReady a src k (.node off.toNat data) = true →
    data.length = 8 → off.toNat < 0x8000 → off.toNat % 8 = 0 →
    inNodeRange (ctxTw a t k).nodeRange slot = true → (ctxOf a k).fixedClosed = false →
    n.st = .waiting ∨ n.st = .ready ∨ n.st = .granted ∨ n.st = .faulted →
    (ctxOf a k).home = t → bitOf (reg a blkKey 0x250) 5 = false → hasEntry a t k = false → entriesHeld a t < 64 →
    (ctxTw a t k).fenced = false →
      (tw b t).cat = (tw a t).cat ∧ (ctxOf b k).refused = true ∧ (ctxOf b k).st = .fenced
        ∧ (ctxOf b k).faultStat = faultWord t 0x21 0
        ∧ (tw b t).acc.lastRefusal = lastWord 0x21 k + ((ctxOf a k).nodeBank % 2 ^ 11) * 2 ^ 24 + off.toNat
        ∧ changesOnly [.acc t, .obs t, .ctxTws t, .faultQ t, .ctrlIn (partner t), .ctxs, .out, .errs, .ctrs] a b)
  ∧ (∀ (src : Requester) (ctx : CtxId) (off : BitVec 16) (data : List Byte), Does (.edgeWrite src ctx off data) fun a b =>
    ∀ k, k = ctx.toNat → ∀ t, t = twinOf ((ctxOf a k).edgeBank >>> 10) →
    ∀ slot, slot = ((ctxOf a k).edgeBank % 1024) * 4096 + off.toNat / 4 % 4096 → storesWf a = true →
    winReady a src k (.edge off.toNat data) = true →
    data.length = 4 → 0x8000 ≤ off.toNat → off.toNat + 4 ≤ 0xC000 →
    off.toNat % 4 = 0 → inFwdRange (ctxTw a t k).fwdRange slot = false → (ctxOf a k).home = t →
    bitOf (reg a blkKey 0x250) 5 = false → hasEntry a t k = false → entriesHeld a t < 64 →
    (ctxTw a t k).fenced = false →
      (tw b t).cat = (tw a t).cat ∧ (ctxOf b k).refused = true ∧ (ctxOf b k).st = .fenced
        ∧ (ctxOf b k).faultStat = faultWord t 0x20 0
        ∧ (tw b t).acc.lastRefusal = lastWord 0x20 k + ((ctxOf a k).edgeBank % 2 ^ 11) * 2 ^ 24 + off.toNat
        ∧ changesOnly [.acc t, .obs t, .ctxTws t, .faultQ t, .ctrlIn (partner t), .ctxs, .out, .errs, .ctrs] a b)
  ∧ (∀ (src : Requester) (ctx : CtxId) (off : BitVec 16) (data : List Byte), Does (.edgeWrite src ctx off data) fun a b =>
    ∀ k, k = ctx.toNat → ∀ t, t = twinOf ((ctxOf a k).edgeBank >>> 10) →
    ∀ slot, slot = ((ctxOf a k).edgeBank % 1024) * 4096 + off.toNat / 4 % 4096 → storesWf a = true →
    winReady a src k (.edge off.toNat data) = true →
    data.length = 2 → 0x8000 ≤ off.toNat → off.toNat + 4 ≤ 0xC000 →
    off.toNat % 4 = 0 → inFwdRange (ctxTw a t k).fwdRange slot = true → (ctxOf a k).home = t →
    bitOf (reg a blkKey 0x250) 5 = false → hasEntry a t k = false → entriesHeld a t < 64 →
    (ctxTw a t k).fenced = false →
      (tw b t).cat = (tw a t).cat ∧ (ctxOf b k).refused = true ∧ (ctxOf b k).st = .fenced
        ∧ (ctxOf b k).faultStat = faultWord t 0x23 0
        ∧ (tw b t).acc.lastRefusal = lastWord 0x23 k + ((ctxOf a k).edgeBank % 2 ^ 11) * 2 ^ 24 + off.toNat
        ∧ changesOnly [.acc t, .obs t, .ctxTws t, .faultQ t, .ctrlIn (partner t), .ctxs, .out, .errs, .ctrs] a b)

/-- R74 to R76, R78: what the items of mirror construction do in the twin they reach. The request reserves the list of
the mirror node and writes its word 0, and is acknowledged; an append puts one edge word at the end of an open list,
which grows by one; the acknowledgement ends the mirror work of the node, which is judged; the partner reads a target
for the mirror work, whatever context it belongs to, and its answer is kept; a close marker is noted in the twin it
reaches. -/
def Obligations.MirrorItemsBuildTheMirror : Prop :=
  (∀ (t : TwinId) (f g k kd lev lard d cap : Nat) (lc : Bool) (rest : List EdgeItem), Does (.mirrorRequest t) fun a b =>
    storesWf a = true → live a t = true → (tw a t).edgeIn = .mirrorReq f g k kd lc lev lard d cap :: rest →
    unfenced a t k = true → serves a (partner t) = true → homeOf g = t → nodeOf a g = {} → 0 < d →
      nodeOf b g = { st := .loading, ctx := k, region := nodeRegion a k g, kind := if kd = kRoute then kTile else kd, lc := lc, level := lev, larder := lard % 4, cf := d + 1, initCount := d + 1, cfSet := true, backward := true, mRes := true, mBase := (mirPart a t k (nodeRegion a k g)).1 + (if nodeRegion a k g then (ctxTw a t k).varUsed else (ctxTw a t k).fixUsed), mCap := cap }
        ∧ (tw b (partner t)).edgeIn = (tw a (partner t)).edgeIn ++ [.mirrorAck f] ∧ (tw b t).edgeIn = rest
        ∧ (∀ x, x ≠ slotOf g → mapGet {} (tw b t).cat.nodes x = mapGet {} (tw a t).cat.nodes x)
        ∧ changesOnly [.cat t, .ctxTws t, .edgeIn t, .edgeIn (partner t)] a b)
  ∧ (∀ (t : TwinId) (f sN g k word : Nat) (rest : List EdgeItem), Does (.mirrorAppend t) fun a b =>
    storesWf a = true → live a t = true → (tw a t).edgeIn = .append f sN g k word :: rest →
    unfenced a t k = true → homeOf g = t → (nodeOf a g).st = .loading → (nodeOf a g).ctx = k →
    (nodeOf a g).mRes = true → (nodeOf a g).mLen < (nodeOf a g).mCap →
      mapGet 0 (tw b t).cat.mir ((nodeOf a g).mBase + (nodeOf a g).mLen) = word
        ∧ nodeOf b g = { nodeOf a g with mLen := (nodeOf a g).mLen + 1 } ∧ (tw b t).edgeIn = rest
        ∧ (∀ x, x ≠ slotOf g → mapGet {} (tw b t).cat.nodes x = mapGet {} (tw a t).cat.nodes x)
        ∧ (∀ x, x ≠ (nodeOf a g).mBase + (nodeOf a g).mLen → mapGet 0 (tw b t).cat.mir x = mapGet 0 (tw a t).cat.mir x)
        ∧ changesOnly [.cat t, .edgeIn t, .ctrs] a b)
  ∧ (∀ (t : TwinId) (f : Nat) (rest : List EdgeItem), Does (.mirrorAck t) fun a b =>
    storesWf a = true → live a t = true → (tw a t).edgeIn = .mirrorAck f :: rest → homeOf f = t →
      nodeOf b f = { nodeOf a f with mirHold := false }
        ∧ (tw b t).acc.work = (tw a t).acc.work.filter (fun y => y.f != f) ∧ b.work = a.work ++ [.evaluate f 3 0]
        ∧ (tw b t).edgeIn = rest ∧ changesOnly [.cat t, .acc t, .edgeIn t, .work] a b)
  ∧ (∀ (t : TwinId) (k : Nat) (rest : List EdgeItem), Does (.closeMarker t) fun a b =>
    storesWf a = true → live a t = true → (tw a t).edgeIn = .closeMarker k :: rest → unfenced a t k = true →
      ctxTw b t k = { ctxTw a t k with marker := true } ∧ (tw b t).edgeIn = rest
        ∧ (∀ j, j ≠ k → ctxTw b t j = ctxTw a t j) ∧ changesOnly [.ctxTws t, .edgeIn t] a b)
  ∧ (∀ (t : TwinId) (f i tg : Nat) (rest : List EdgeItem), Does (.targetRead t) fun a b =>
    live a t = true → (tw a t).edgeIn = .targetRead f i tg :: rest → serves a (partner t) = true →
      (tw b (partner t)).edgeIn = (tw a (partner t)).edgeIn ++ [.targetAns f i (nodeOf a tg).mirrorEn (nodeOf a tg).mirror]
        ∧ (tw b t).edgeIn = rest ∧ changesOnly [.edgeIn t, .edgeIn (partner t)] a b)
  ∧ (∀ (t : TwinId) (f i m : Nat) (en : Bool) (w : MirWork) (rest : List EdgeItem), Does (.targetAnswer t) fun a b =>
    live a t = true → (tw a t).edgeIn = .targetAns f i en m :: rest →
    (tw a t).acc.work.find? (fun w => w.f == f) = some w →
    ¬ (w.edges.zipIdx.map fun p => if p.2 = i then (p.1.1, some (en, m)) else p.1).all (fun p => p.2.isSome) = true →
      (tw b t).acc.work = (tw a t).acc.work.map (fun y => if y.f == f then { w with edges := w.edges.zipIdx.map fun p => if p.2 = i then (p.1.1, some (en, m)) else p.1 } else y)
        ∧ (tw b t).edgeIn = rest ∧ changesOnly [.acc t, .edgeIn t] a b)

/-- R126, R134 to R136, R139, R141, R143: what the items about shards do in the twin they reach. A move is refused
with the shard's location when its base no longer holds, and started when it does: the shard goes to MOVING, its COPY
node is made and its descriptor written; a LOC is stored, and one that says MOVING is acknowledged; WRITERS counts up
and down; a SERVICE item that says a rack group is served again makes it a candidate in the twin, with its mix
difference at 0 (the model's choice, log entry 74), and one that says it is not takes it out of the candidates and
sweeps its racked nodes, which are placed again; the descriptor's acknowledgement lets the move go on. -/
def Obligations.ShelfListItemsAct : Prop :=
  (∀ (t : TwinId) (x base dest lev : Nat) (lc ld : Bool) (rest : List EdgeItem), Does (.moveReq t) fun a b =>
    live a t = true → (tw a t).edgeIn = .moveReq x base dest lc lev ld :: rest → serves a (partner t) = true →
    ownerOf x = t → (shardOf a x).st ≠ .moving → entryCode (shardOf a x) ≠ base →
      (tw b (partner t)).edgeIn = (tw a (partner t)).edgeIn ++ [.loc x (entryCode (shardOf a x)) (shardOf a x).ctx none]
        ∧ (tw b t).edgeIn = rest ∧ changesOnly [.edgeIn t, .edgeIn (partner t)] a b)
  ∧ (∀ (t : TwinId) (x base dest lev i y : Nat) (lc ld : Bool) (rest : List EdgeItem), Does (.moveReq t) fun a b =>
    storesWf a = true → live a t = true → (tw a t).edgeIn = .moveReq x base dest lc lev ld :: rest →
    serves a (partner t) = true → ownerOf x = t → (shardOf a x).st = .home → entryCode (shardOf a x) = base →
    dest < 128 → moveRoom a x = some (i, y) → y < 524288 →
      shardOf b x = { shardOf a x with st := .moving, cluster := dest, destHbm := false, moveEntry := i }
        ∧ (tw b t).shelf.moves = (tw a t).shelf.moves ++ [{ want := { shard := x, dest := dest, lc := lc, level := lev, load := ld }, src := base, copy := nodeIdOf t y, locAck := false }]
        ∧ (nodeOf b (nodeIdOf t y)).kind = kCopy ∧ (nodeOf b (nodeIdOf t y)).st = .loading
        ∧ .nocWrite t (poolDesc a t y * 64) (copyDesc (shardOf a x) x base dest) ∈ b.out
        ∧ (bookOn a t = false → b.out = [.nocWrite t (poolDesc a t y * 64) (copyDesc (shardOf a x) x base dest)])
        ∧ changesOnly [.cat t, .shelf t, .obs t, .edgeIn t, .edgeIn (partner t), .out, .ctrs] a b)
  ∧ (∀ (t : TwinId) (x code k : Nat) (hi : Option Nat) (rest : List EdgeItem), Does (.loc t) fun a b =>
    storesWf a = true → live a t = true → (tw a t).edgeIn = .loc x code k hi :: rest → code ≠ 0xA0 → code ≠ 0xFF →
    waitIdx a t x = none →
      locOf b t x = hi.getD ((locOf a t x / 2 ^ 17) * 2 ^ 17) + k * 2 ^ 8 + code ∧ (tw b t).edgeIn = rest
        ∧ (∀ y, y ≠ x → locOf b t y = locOf a t y) ∧ changesOnly [.shelf t, .edgeIn t] a b)
  ∧ (∀ (t : TwinId) (x k : Nat) (hi : Option Nat) (rest : List EdgeItem), Does (.loc t) fun a b =>
    storesWf a = true → live a t = true → (tw a t).edgeIn = .loc x 0xA0 k hi :: rest →
    serves a (partner t) = true →
      (tw b (partner t)).edgeIn = (tw a (partner t)).edgeIn ++ [.locAck x]
        ∧ locOf b t x = hi.getD ((locOf a t x / 2 ^ 17) * 2 ^ 17) + k * 2 ^ 8 + 0xA0 ∧ (tw b t).edgeIn = rest
        ∧ changesOnly [.shelf t, .edgeIn t, .edgeIn (partner t)] a b)
  ∧ (∀ (t : TwinId) (x : Nat) (m : Move) (rest : List EdgeItem), Does (.locAck t) fun a b =>
    live a t = true → (tw a t).edgeIn = .locAck x :: rest → ownerOf x = t → (tw a t).shelf.moves = [m] →
    m.want.shard = x → m.descAck = false →
      (tw b t).shelf.moves = [{ m with locAck := true }] ∧ (tw b t).edgeIn = rest
        ∧ changesOnly [.shelf t, .edgeIn t] a b)
  ∧ (∀ (t : TwinId) (x : Nat) (rest : List EdgeItem), Does (.writerInc t) fun a b =>
    storesWf a = true → live a t = true → (tw a t).edgeIn = .writerInc x :: rest → ownerOf x = t →
    movable (shardOf a x) = true →
      shardOf b x = { shardOf a x with writers := (shardOf a x).writers + 1 } ∧ (tw b t).edgeIn = rest
        ∧ (∀ y, y ≠ x % 131072 → mapGet {} (tw b t).shelf.shards y = mapGet {} (tw a t).shelf.shards y)
        ∧ changesOnly [.shelf t, .edgeIn t] a b)
  ∧ (∀ (t : TwinId) (x : Nat) (rest : List EdgeItem), Does (.writerDec t) fun a b =>
    storesWf a = true → live a t = true → (tw a t).edgeIn = .writerDec x :: rest → ownerOf x = t →
    movable (shardOf a x) = true → 0 < (shardOf a x).writers →
    (tw a t).shelf.moves.find? (fun m => m.want.shard == x) = none →
      shardOf b x = { shardOf a x with writers := (shardOf a x).writers - 1 } ∧ (tw b t).edgeIn = rest
        ∧ (∀ y, y ≠ x % 131072 → mapGet {} (tw b t).shelf.shards y = mapGet {} (tw a t).shelf.shards y)
        ∧ changesOnly [.shelf t, .edgeIn t] a b)
  ∧ (∀ (t : TwinId) (g : Nat) (rest : List EdgeItem), Does (.service t) fun a b =>
    storesWf a = true → live a t = true → (tw a t).edgeIn = .service g true :: rest →
    (tw a t).ctxs.filter (fun p => !p.2.unplace.isEmpty) = [] →
      mapGet false (tw b t).shelf.served g = true ∧ mapGet 0 (tw b t).rack.mix g = 0 ∧ (tw b t).edgeIn = rest
        ∧ (∀ y, y ≠ g → mapGet false (tw b t).shelf.served y = mapGet false (tw a t).shelf.served y)
        ∧ changesOnly [.rack t, .shelf t, .edgeIn t] a b)
  ∧ (∀ (t : TwinId) (g key : Nat) (l : Lane) (rest : List EdgeItem), Does (.service t) fun a b =>
    storesWf a = true → live a t = true → (tw a t).edgeIn = .service g false :: rest → (tw a t).rack.lanes = [(key, l)] →
    key / 64 = g → l.copies = [] → (∀ x ∈ l.slots, (nodeOf a (nodeIdOf t x)).wcount = false) →
    (∀ p ∈ (tw a t).shelf.shards, p.2.st = .cluster → p.2.cluster ≠ g) →
      mapGet false (tw b t).shelf.served g = false ∧ (laneOf b t key).slots = []
        ∧ b.work = a.work ++ l.slots.map (fun x => .place (nodeIdOf t x) false true) ∧ (tw b t).edgeIn = rest
        ∧ (∀ y, y ≠ g → mapGet false (tw b t).shelf.served y = mapGet false (tw a t).shelf.served y)
        ∧ changesOnly [.rack t, .shelf t, .edgeIn t, .work] a b)
  ∧ (∀ (sh : BitVec 18) (m : Move), Does (.descWriteAck sh) fun a b =>
    ∀ x, x = sh.toNat → ∀ t, t = ownerOf x → live a t = true → (tw a t).shelf.moves = [m] → m.want.shard = x →
    m.descAck = false → m.locAck = false →
      (tw b t).shelf.moves = [{ m with descAck := true }] ∧ changesOnly [.shelf t] a b)

/-- R128, R141, R143: the commands of a context on its shards answer in SHARD_STAT: ALLOC takes a free shard with its
size, origin and place, refuses with the status of the first check of R128 that fails (the model's choice, log entry
32), and sends the location to the partner; FREE gives the shard back and drops its waiting move (the model's choice,
log entry 78); MOVE starts for a shard that stands elsewhere, waits where there is no room for it, and answers 0 for
one that stands there (the model's choice, log entry 77); QUERY puts the shard entry in the data registers. A failed
descriptor write takes the shard to FAULTED and its context into a fault with code 0x31, and its COPY's slot goes back
to the pool. Removing an engine takes it out of service and counts it, and restoring it puts it back; either is
ignored with ENGINE_CTL_BAD for an engine that is not on the twin's ports, and while a removal is in progress. -/
def Obligations.ShardCommandsAndEngineControl : Prop :=
  (∀ (src : Requester) (ctx : CtxId) (cluster : BitVec 7) (toCluster pin : Bool), Does (.shardAlloc src ctx cluster toCluster pin) fun a b =>
    ∀ k, k = ctx.toNat → ∀ x, x = shardSel a k → ∀ t, t = ownerOf x → storesWf a = true →
    served a src (ctxKey k) = true → cmdServed a t k = true → allocStatus a k x cluster.toNat toCluster ≠ 0 →
    ∀ sz, sz = fld (reg a (ctxKey k) 0x248) 15 0 → ∀ off, off = fld (reg a (ctxKey k) 0x250) 9 0 →
    ∀ spad, spad = bitOf (reg a (ctxKey k) 0x250) 16 →
      (ctxOf b k).shardStat = (if inShardRange a k x = false then 1
          else if (shardOf a x).st ≠ .free then 2
          else if sz = 0 then 3
          else if bitOf (hbmMask a k) (fld (reg a (ctxKey k) 0x248) 23 19) = false then 4
          else if spad = true ∧ (576 < off + sz ∨ banksFit a k (off / 64) ((off + sz - 1) / 64) = false) then 5
          else 7)
        ∧ (∀ j, j ≠ k → ctxOf b j = ctxOf a j) ∧ changesOnly [.ctxs] a b)
  ∧ (∀ (src : Requester) (ctx : CtxId) (cluster : BitVec 7) (toCluster pin : Bool) (e : Shard), Does (.shardAlloc src ctx cluster toCluster pin) fun a b =>
    ∀ k, k = ctx.toNat → ∀ x, x = shardSel a k → ∀ t, t = ownerOf x → storesWf a = true →
    served a src (ctxKey k) = true → cmdServed a t k = true → serves a (partner t) = true →
    allocStatus a k x cluster.toNat toCluster = 0 →
    e = { st := if toCluster then .cluster else .home, pin := pin, ctx := k, cluster := if toCluster then cluster.toNat else 0, w1 := reg a (ctxKey k) 0x248 - fld (reg a (ctxKey k) 0x248) 18 16 * 2 ^ 16, w2 := fld (reg a (ctxKey k) 0x250) 16 0 } →
      shardOf b x = e ∧ (ctxOf b k).shardStat = 0
        ∧ (tw b (partner t)).edgeIn = (tw a (partner t)).edgeIn ++ [.loc x (entryCode e) k (some (locHi e))]
        ∧ (∀ y, y ≠ x % 131072 → mapGet {} (tw b t).shelf.shards y = mapGet {} (tw a t).shelf.shards y)
        ∧ changesOnly [.shelf t, .edgeIn (partner t), .ctxs] a b)
  ∧ (∀ (src : Requester) (ctx : CtxId), Does (.shardFree src ctx) fun a b =>
    ∀ k, k = ctx.toNat → ∀ x, x = shardSel a k → ∀ t, t = ownerOf x → storesWf a = true →
    served a src (ctxKey k) = true → cmdServed a t k = true → serves a (partner t) = true →
    inShardRange a k x = true → ownedBy a k x = true → (shardOf a x).writers = 0 → movable (shardOf a x) = true →
      shardOf b x = {} ∧ (ctxOf b k).shardStat = 0
        ∧ (tw b t).shelf.pendMoves = (tw a t).shelf.pendMoves.filter (fun m => m.shard != x) ∧ locOf b t x = 0xFF
        ∧ (tw b (partner t)).edgeIn = (tw a (partner t)).edgeIn ++ [.loc x 0xFF (locCtx (locOf a t x)) none]
        ∧ (∀ y, y ≠ x % 131072 → mapGet {} (tw b t).shelf.shards y = mapGet {} (tw a t).shelf.shards y)
        ∧ changesOnly [.shelf t, .edgeIn (partner t), .ctxs] a b)
  ∧ (∀ (src : Requester) (ctx : CtxId), Does (.shardQuery src ctx) fun a b =>
    ∀ k, k = ctx.toNat → ∀ x, x = shardSel a k → ∀ t, t = ownerOf x → storesWf a = true →
    served a src (ctxKey k) = true → serves a t = true → inShardRange a k x = true →
      reg b (ctxKey k) 0x240 = shardWord0 (shardOf a x) ∧ reg b (ctxKey k) 0x248 = (shardOf a x).w1
        ∧ reg b (ctxKey k) 0x250 = (shardOf a x).w2 ∧ (ctxOf b k).shardStat = 0 ∧ changesOnly [.ctxs, .regs] a b)
  ∧ (∀ (src : Requester) (ctx : CtxId) (cluster : BitVec 7) (toCluster : Bool), Does (.shardMove src ctx cluster toCluster) fun a b =>
    ∀ k, k = ctx.toNat → ∀ x, x = shardSel a k → ∀ t, t = ownerOf x → storesWf a = true →
    served a src (ctxKey k) = true → cmdServed a t k = true → inShardRange a k x = true → ownedBy a k x = true →
    (toCluster && (!(bitOf (shardOf a x).w2 16) || !(inClusterMask a k cluster.toNat))) = false →
    movable (shardOf a x) = true → atDest (shardOf a x) (if toCluster then cluster.toNat else 128) = true →
      (ctxOf b k).shardStat = 0 ∧ changesOnly [.ctxs] a b)
  ∧ (∀ (src : Requester) (ctx : CtxId) (cluster : BitVec 7) (toCluster : Bool) (dest : Nat), Does (.shardMove src ctx cluster toCluster) fun a b =>
    ∀ k, k = ctx.toNat → ∀ x, x = shardSel a k → ∀ t, t = ownerOf x → storesWf a = true →
    served a src (ctxKey k) = true → cmdServed a t k = true → inShardRange a k x = true → ownedBy a k x = true →
    (toCluster && (!(bitOf (shardOf a x).w2 16) || !(inClusterMask a k cluster.toNat))) = false →
    movable (shardOf a x) = true → dest = (if toCluster then cluster.toNat else 128) →
    atDest (shardOf a x) dest = false → moveRoom a x = none →
      (ctxOf b k).shardStat = 0
        ∧ (tw b t).shelf.pendMoves = (tw a t).shelf.pendMoves ++ [{ shard := x, dest := dest, lc := false, level := 7 }]
        ∧ changesOnly [.shelf t, .ctxs] a b)
  ∧ (∀ (src : Requester) (ctx : CtxId) (cluster : BitVec 7) (toCluster : Bool) (dest i y : Nat), Does (.shardMove src ctx cluster toCluster) fun a b =>
    ∀ k, k = ctx.toNat → ∀ x, x = shardSel a k → ∀ t, t = ownerOf x → storesWf a = true →
    served a src (ctxKey k) = true → cmdServed a t k = true → inShardRange a k x = true → ownedBy a k x = true →
    (toCluster && (!(bitOf (shardOf a x).w2 16) || !(inClusterMask a k cluster.toNat))) = false →
    movable (shardOf a x) = true → dest = (if toCluster then cluster.toNat else 128) →
    atDest (shardOf a x) dest = false → moveRoom a x = some (i, y) → y < 524288 →
      (ctxOf b k).shardStat = 0
        ∧ (tw b t).shelf.moves = (tw a t).shelf.moves ++ [{ want := { shard := x, dest := dest, lc := false, level := 7 }, src := entryCode (shardOf a x), copy := nodeIdOf t y, locAck := !(serves a (partner t)) }]
        ∧ shardOf b x = { shardOf a x with st := .moving, cluster := if dest < 128 then dest else 0, destHbm := decide (dest = 128), moveEntry := i }
        ∧ changesOnly [.cat t, .shelf t, .obs t, .edgeIn (partner t), .ctxs, .out, .ctrs] a b)
  ∧ (∀ (sh : BitVec 18) (m : Move) (c : Nat), Does (.descWriteError sh) fun a b =>
    ∀ x, x = sh.toNat → ∀ t, t = ownerOf x → storesWf a = true → live a t = true → (tw a t).shelf.moves = [m] →
    m.want.shard = x → m.descAck = false → serves a (partner t) = true → homeOf m.copy = t →
    (shardOf a x).ctx = c → (ctxOf a c).st = .opened →
      shardOf b x = { shardOf a x with st := .faulted, destHbm := false } ∧ (tw b t).shelf.moves = []
        ∧ nodeOf b m.copy = {} ∧ mapGet 0 (tw b t).shelf.owners (slotOf m.copy) = 0
        ∧ (tw b t).shelf.lastFault = lastWord 0x31 c + (x % 2 ^ 18) * 2 ^ 20 + m.copy % 2 ^ 20
        ∧ (ctxOf b c).st = .fenced ∧ (ctxOf b c).tear = .fault ∧ (ctxOf b c).faultStat = faultWord t 0x31 m.copy
        ∧ changesOnly [.cat t, .shelf t, .obs t, .ctxTws t, .faultQ t, .edgeIn (partner t), .ctrlIn t, .ctrlIn (partner t), .ctxs, .freeze, .work, .out, .errs, .ctrs] a b)
  ∧ (∀ (src : Requester) (t : TwinId) (eng : EngineId) (g i : Nat), Does (.engineRemove src t false eng) fun a b =>
    ∀ e, e = eng.toNat → storesWf a = true → served a src (twKey t shlfP) = true → groupOf e = some g →
    primary a g = t → removalBusy a t = false → (engOf a e).inService = true → (engOf a e).tasks = [] →
    i < (groupEngines g).2 → (groupEngines g).1 + i ≠ e → (engOf a ((groupEngines g).1 + i)).inService = true →
      engOf b e = { engOf a e with inService := false, claims := [], tasks := [] }
        ∧ ctr b (twKey t shlfP) 0x78 = satAdd ctrMax (ctr a (twKey t shlfP) 0x78) 1
        ∧ (∀ x, x ≠ e → engOf b x = engOf a x) ∧ changesOnly [.engines, .ctrs] a b)
  ∧ (∀ (src : Requester) (t : TwinId) (eng : EngineId) (g : Nat), Does (.engineRestore src t false eng) fun a b =>
    ∀ e, e = eng.toNat → storesWf a = true → served a src (twKey t shlfP) = true → serves a (partner t) = true →
    groupOf e = some g → primary a g = t → removalBusy a t = false → (engOf a e).inService = false →
    groupServed a g = false →
    (tw a t).ctxs.filter (fun p => !p.2.unplace.isEmpty) = [] →
      engOf b e = { engOf a e with inService := true, lastV := false, tasks := [], claims := [] }
        ∧ (tw b (partner t)).edgeIn = (tw a (partner t)).edgeIn ++ [.service g true]
        ∧ mapGet 0 (tw b t).rack.mix g = 0 ∧ (∀ x, x ≠ e → engOf b x = engOf a x)
        ∧ changesOnly [.rack t, .edgeIn (partner t), .engines] a b)
  ∧ (∀ (src : Requester) (t : TwinId) (whole : Bool) (eng : EngineId) (c : Instr), Does c fun a b =>
    c = .engineRemove src t whole eng ∨ c = .engineRestore src t whole eng → storesWf a = true →
    served a src (twKey t shlfP) = true →
    groupOf eng.toNat = none ∨ primary a ((groupOf eng.toNat).getD 0) ≠ t ∨ removalBusy a t = true →
      (pageOf b (twKey t shlfP)).errStat = (pageOf a (twKey t shlfP)).errStat ||| 2 ^ 3 ∧ changesOnly [.errs] a b)

/-- R155 to R159: the flushes and drains that make writes visible. A request from the partner is met by a flush driven
at once on the cluster's port, with the next TAG and the acknowledging read, or waits for the one outstanding, or ends
at once where the cluster is not DIRTY; FLUSH_DONE frees the waiter it names. An acknowledging read that returns the
TAG driven ends the flush; one that returns another, or an error, is issued again. A drain ends when both points have
answered, and one answered with an error is read again. Past its limit a flush ends as lost for every waiter,
FLUSH_TIMEOUT is set, the cluster's engines leave service and DIRTY stays set; a drain past its limit ends as lost for
every waiter, and DRAIN_TIMEOUT is set. -/
def Obligations.FlushesAndDrainsRun : Prop :=
  (∀ (t : TwinId) (c tag : Nat) (rest : List EdgeItem), Does (.flushReq t) fun a b =>
    storesWf a = true → live a t = true → (tw a t).edgeIn = .flushReq (some c) tag :: rest → primary a c = t →
    (flushOf a c).dirty = true → bitOf (reg a (twKey t retP) 0x100) 63 = true → (flushOf a c).out = false →
      flushOf b c = { flushOf a c with tag := ((flushOf a c).tag + 1) % 256, out := true, fresh := false, retry := false, cur := [.remote t tag], next := [], since := a.time }
        ∧ b.out = [.flush c (0x8000 + ((flushOf a c).tag + 1) % 256), .nocRead t (baseAddr (reg a (twKey t retP) 0x100) + c * 64) 8]
        ∧ ctr b (twKey t retP) 0x78 = satAdd ctrMax (ctr a (twKey t retP) 0x78) 1 ∧ (tw b t).edgeIn = rest
        ∧ (∀ d, d ≠ c → flushOf b d = flushOf a d) ∧ changesOnly [.obs t, .edgeIn t, .flushes, .out, .ctrs] a b)
  ∧ (∀ (t : TwinId) (c tag : Nat) (rest : List EdgeItem), Does (.flushReq t) fun a b =>
    storesWf a = true → live a t = true → (tw a t).edgeIn = .flushReq (some c) tag :: rest → primary a c = t →
    (flushOf a c).dirty = true → bitOf (reg a (twKey t retP) 0x100) 63 = true → (flushOf a c).out = true →
      flushOf b c = { flushOf a c with next := (flushOf a c).next ++ [.remote t tag] } ∧ (tw b t).edgeIn = rest
        ∧ (∀ d, d ≠ c → flushOf b d = flushOf a d) ∧ changesOnly [.edgeIn t, .flushes] a b)
  ∧ (∀ (t : TwinId) (c tag : Nat) (rest : List EdgeItem), Does (.flushReq t) fun a b =>
    live a t = true → (tw a t).edgeIn = .flushReq (some c) tag :: rest → primary a c = t →
    (flushOf a c).dirty = false →
      b.work = a.work ++ [.flushEnd (.remote t tag) true] ∧ (tw b t).edgeIn = rest
        ∧ changesOnly [.edgeIn t, .work] a b)
  ∧ (∀ (t : TwinId) (c tag : Nat) (rest : List EdgeItem), Does (.flushReq t) fun a b =>
    storesWf a = true → live a t = true → (tw a t).edgeIn = .flushReq (some c) tag :: rest → primary a c = t →
    (flushOf a c).dirty = true → bitOf (reg a (twKey t retP) 0x100) 63 = false →
      b.work = a.work ++ [.flushEnd (.remote t tag) false]
        ∧ (pageOf b (twKey t retP)).errStat = (pageOf a (twKey t retP)).errStat ||| 2 ^ 2 ∧ (tw b t).edgeIn = rest
        ∧ changesOnly [.edgeIn t, .work, .errs] a b)
  ∧ (∀ (t : TwinId) (tag : Nat) (late : Bool) (what : Option Nat) (w : Waiter) (rest : List EdgeItem), Does (.flushDone t) fun a b =>
    live a t = true → (tw a t).edgeIn = .flushDone tag late :: rest →
    (tw a t).ret.reqs.find? (fun p => p.1 == tag) = some (tag, what, w) →
      b.work = a.work ++ [.flushEnd w (!late)]
        ∧ (tw b t).ret.reqs = (tw a t).ret.reqs.filter (fun p => p.1 != tag) ∧ (tw b t).edgeIn = rest
        ∧ changesOnly [.ret t, .edgeIn t, .work] a b)
  ∧ (∀ (cl : BitVec 7) (v : Word64), Does (.flushAckRead cl (some v)) fun a b =>
    ∀ c, c = cl.toNat → ∀ t, t = primary a c → storesWf a = true → live a t = true → (flushOf a c).out = true →
    (flushOf a c).retry = false → v.toNat % 256 = (flushOf a c).tag → (flushOf a c).next = [] →
      flushOf b c = { flushOf a c with dirty := (flushOf a c).fresh, out := false, fresh := false, retry := false, cur := [], next := [] }
        ∧ b.work = a.work ++ (flushOf a c).cur.map (fun w => .flushEnd w true)
        ∧ (∀ d, d ≠ c → flushOf b d = flushOf a d) ∧ changesOnly [.obs t, .flushes, .work, .out, .ctrs] a b)
  ∧ (∀ (cl : BitVec 7) (v : Word64), Does (.flushAckRead cl (some v)) fun a b =>
    ∀ c, c = cl.toNat → ∀ t, t = primary a c → storesWf a = true → live a t = true → (flushOf a c).out = true →
    (flushOf a c).retry = false → v.toNat % 256 ≠ (flushOf a c).tag →
      flushOf b c = { flushOf a c with retry := true } ∧ (∀ d, d ≠ c → flushOf b d = flushOf a d)
        ∧ changesOnly [.flushes] a b)
  ∧ (∀ (cl : BitVec 7), Does (.flushAckRead cl none) fun a b =>
    ∀ c, c = cl.toNat → ∀ t, t = primary a c → storesWf a = true → live a t = true → (flushOf a c).out = true →
    (flushOf a c).retry = false →
      flushOf b c = { flushOf a c with retry := true } ∧ (∀ d, d ≠ c → flushOf b d = flushOf a d)
        ∧ changesOnly [.flushes] a b)
  ∧ (∀ (cl : BitVec 7), Does (.flushRetry (.flush cl)) fun a b =>
    ∀ c, c = cl.toNat → ∀ t, t = primary a c → storesWf a = true → live a t = true → (flushOf a c).retry = true →
      flushOf b c = { flushOf a c with retry := false }
        ∧ b.out = [.nocRead t (baseAddr (reg a (twKey t retP) 0x100) + c * 64) 8]
        ∧ (∀ d, d ≠ c → flushOf b d = flushOf a d) ∧ changesOnly [.flushes, .out] a b)
  ∧ (∀ (t : TwinId), Does (.flushRetry (.drain t)) fun a b =>
    live a t = true → (tw a t).ret.drain.retryHost = true → (tw a t).ret.drain.retryLink = true →
      (tw b t).ret.drain = { (tw a t).ret.drain with retryHost := false, retryLink := false }
        ∧ b.out = [.nocRead t (baseAddr (reg a (twKey t retP) 0x110)) 8, .nocRead t (baseAddr (reg a (twKey t retP) 0x118)) 8]
        ∧ changesOnly [.ret t, .out] a b)
  ∧ (∀ (t : TwinId), Does (.drainReadAnswer t .host true) fun a b =>
    live a t = true → (tw a t).ret.drain.host = true → (tw a t).ret.drain.retryHost = false →
    (tw a t).ret.drain.link = true →
      (tw b t).ret.drain = { (tw a t).ret.drain with host := false } ∧ changesOnly [.ret t] a b)
  ∧ (∀ (t : TwinId), Does (.drainReadAnswer t .link true) fun a b =>
    live a t = true → (tw a t).ret.drain.out = true → (tw a t).ret.drain.link = true →
    (tw a t).ret.drain.retryLink = false → (tw a t).ret.drain.host = false → (tw a t).ret.drain.next = [] →
      (tw b t).ret.drain = {} ∧ b.work = a.work ++ (tw a t).ret.drain.cur.map (fun w => .drainEnd w true)
        ∧ changesOnly [.ret t, .work] a b)
  ∧ (∀ (t : TwinId), Does (.drainReadAnswer t .host false) fun a b =>
    live a t = true → (tw a t).ret.drain.host = true → (tw a t).ret.drain.retryHost = false →
      (tw b t).ret.drain = { (tw a t).ret.drain with retryHost := true } ∧ changesOnly [.ret t] a b)
  ∧ (∀ (cl : BitVec 7), Does (.flushTimeout cl) fun a b =>
    ∀ c, c = cl.toNat → ∀ t, t = primary a c → storesWf a = true → live a t = true → (flushOf a c).out = true →
    (flushOf a c).next = [] →
      flushOf b c = { flushOf a c with out := false, fresh := false, retry := false, cur := [], next := [] }
        ∧ (∀ w, w ∈ (flushOf a c).cur → Work.flushEnd w false ∈ b.work)
        ∧ bitOf (pageOf b (twKey t retP)).errStat 2 = true
        ∧ (∀ e, e ∈ namedEngines (c * 64) true → (engOf b e).inService = false)
        ∧ (∀ d, d ≠ c → flushOf b d = flushOf a d)
        ∧ changesOnly [.cat t, .cat (partner t), .rack t, .rack (partner t), .desk t, .desk (partner t), .shelf t, .shelf (partner t), .obs t, .obs (partner t), .edgeIn t, .edgeIn (partner t), .claimIn t, .claimIn (partner t), .engines, .flushes, .work, .out, .regs, .errs, .ctrs] a b)
  ∧ (∀ (t : TwinId), Does (.drainTimeout t) fun a b =>
    storesWf a = true → live a t = true → (tw a t).ret.drain.out = true → (tw a t).ret.drain.next = [] →
      (tw b t).ret.drain = {} ∧ b.work = a.work ++ (tw a t).ret.drain.cur.map (fun w => .drainEnd w false)
        ∧ (pageOf b (twKey t retP)).errStat = (pageOf a (twKey t retP)).errStat ||| 2 ^ 3
        ∧ changesOnly [.ret t, .work, .errs] a b)

/-- R185 to R190, R194 to R197: what the items of the Larder do. An offer of an empty stash is answered with SEND and
moves nothing; one that the class can keep, or whose policy is UNLIMITED, raises KEPT and marks G(F); when G(F) lies
in the other twin it is read there first, and an offer behind another waits. A stash over its budget without a shard
of its own faults its context with LARDER_EXHAUSTED (that REASON 2 is recorded before the others is the model's
choice, log entry 32). The read is answered with what G(F) holds; a mark sets STASH, SPILLED and REBAKE_PEND; a
trigger starts a dormant re-bake once; a release gives KEPT or SPILLED back; an answer adds the Larder's credits to
those the completion still holds back, or waits behind the completion that Returns has in hand (R163). -/
def Obligations.LarderItemsAct : Prop :=
  (∀ (t : TwinId) (o : Offer) (rest : List EdgeItem), Does (.offer t) fun a b =>
    storesWf a = true → live a t = true → (tw a t).edgeIn = .offer o :: rest → serves a (partner t) = true →
    unfenced a t o.ctx = true → mapGet [] (tw a t).lard.offers o.ctx = [] → homeOf o.g = t →
    homeOf o.f = partner t → o.stash = 0 →
      (tw b (partner t)).edgeIn = (tw a (partner t)).edgeIn ++ [.answer o.f true []]
        ∧ mapGet [] (tw b t).lard.offers o.ctx = []
        ∧ ctr b (twKey t lardP) 0x40 = satAdd ctrMax (ctr a (twKey t lardP) 0x40) 1 ∧ (tw b t).edgeIn = rest
        ∧ changesOnly [.lard t, .obs t, .edgeIn t, .edgeIn (partner t), .out, .ctrs] a b)
  ∧ (∀ (t : TwinId) (o : Offer) (rest : List EdgeItem), Does (.offer t) fun a b =>
    storesWf a = true → live a t = true → (tw a t).edgeIn = .offer o :: rest → serves a (partner t) = true →
    unfenced a t o.ctx = true → mapGet [] (tw a t).lard.offers o.ctx = [] → homeOf o.g = t →
    homeOf o.f = partner t → 0 < o.stash → stashShard a t o (readG a o.g false) = false → o.rebake = false →
    policyOf a o.ctx o.cls = 0 ∨ keptOf a o.ctx o.cls + o.stash ≤ budgetOf a o.ctx o.cls →
      (ctxOf b o.ctx).kept = mapSet 0 (ctxOf a o.ctx).kept (o.cls % 4) (satAdd stashMax (keptOf a o.ctx o.cls) o.stash)
        ∧ (tw b (partner t)).edgeIn = (tw a (partner t)).edgeIn ++ [.answer o.f true []]
        ∧ b.work = a.work ++ [.item t (.gMark o.g o.stash false false)]
        ∧ ctr b (twKey t lardP) 0x48 = satAdd ctrMax (ctr a (twKey t lardP) 0x48) 1 ∧ (tw b t).edgeIn = rest
        ∧ (∀ j, j ≠ o.ctx → ctxOf b j = ctxOf a j)
        ∧ changesOnly [.lard t, .obs t, .edgeIn t, .edgeIn (partner t), .ctxs, .work, .out, .ctrs] a b)
  ∧ (∀ (t : TwinId) (o : Offer) (rest : List EdgeItem), Does (.offer t) fun a b =>
    storesWf a = true → live a t = true → (tw a t).edgeIn = .offer o :: rest → serves a (partner t) = true →
    unfenced a t o.ctx = true → mapGet [] (tw a t).lard.offers o.ctx = [] → homeOf o.g = partner t →
      (tw b (partner t)).edgeIn = (tw a (partner t)).edgeIn ++ [.gRead o.g o.ctx false]
        ∧ mapGet [] (tw b t).lard.offers o.ctx = [(o, false)] ∧ (tw b t).edgeIn = rest
        ∧ changesOnly [.lard t, .edgeIn t, .edgeIn (partner t)] a b)
  ∧ (∀ (t : TwinId) (o : Offer) (p : Offer × Bool) (q : List (Offer × Bool)) (rest : List EdgeItem), Does (.offer t) fun a b =>
    storesWf a = true → live a t = true → (tw a t).edgeIn = .offer o :: rest → unfenced a t o.ctx = true →
    mapGet [] (tw a t).lard.offers o.ctx = p :: q →
      mapGet [] (tw b t).lard.offers o.ctx = p :: q ++ [(o, false)] ∧ (tw b t).edgeIn = rest
        ∧ changesOnly [.lard t, .edgeIn t] a b)
  ∧ (∀ (t : TwinId) (o : Offer) (rest : List EdgeItem), Does (.offer t) fun a b =>
    storesWf a = true → live a t = true → (tw a t).edgeIn = .offer o :: rest → serves a (partner t) = true →
    unfenced a t o.ctx = true → mapGet [] (tw a t).lard.offers o.ctx = [] → homeOf o.g = t →
    homeOf o.f = partner t → 0 < o.stash → stashShard a t o (readG a o.g false) = false → o.rebake = false →
    policyOf a o.ctx o.cls = 1 → budgetOf a o.ctx o.cls < keptOf a o.ctx o.cls + o.stash →
    (ctxOf a o.ctx).st = .opened →
      (ctxOf b o.ctx).st = .fenced ∧ (ctxOf b o.ctx).tear = .fault
        ∧ (ctxOf b o.ctx).faultStat = faultWord t 0x50 o.f
        ∧ (tw b t).lard.lastFault = lastWord 0x50 o.ctx + 2 * 2 ^ 36 + o.f % 2 ^ 20 ∧ (tw b t).edgeIn = rest
        ∧ changesOnly [.lard t, .obs t, .ctxTws t, .faultQ t, .edgeIn t, .ctrlIn t, .ctrlIn (partner t), .ctxs, .freeze, .work, .out, .errs, .ctrs] a b)
  ∧ (∀ (t : TwinId) (f : Nat) (cs : List Nat) (d : Deferred) (rest : List EdgeItem), Does (.answer t) fun a b =>
    live a t = true → (tw a t).edgeIn = .answer f true cs :: rest → (tw a t).ret.deferred = [d] →
    d.offered = true → d.node = f → d.stage ≠ .ready → (nodeOf a f).kind ≠ kRebake → handBusy a t = false →
      (tw b t).ret.deferred = [{ d with offered := false, credits := d.credits ++ answerCredits (nodeOf a f) d cs }]
        ∧ (tw b t).edgeIn = rest ∧ changesOnly [.ret t, .edgeIn t] a b)
  ∧ (∀ (t : TwinId) (f : Nat) (send : Bool) (cs : List Nat) (rest : List EdgeItem), Does (.answer t) fun a b =>
    live a t = true → (tw a t).edgeIn = .answer f send cs :: rest → handBusy a t = true →
      (tw b t).ret.waiting = (tw a t).ret.waiting ++ [.answer f send cs] ∧ (tw b t).ret.hand = (tw a t).ret.hand
        ∧ (tw b t).edgeIn = rest ∧ changesOnly [.ret t, .edgeIn t] a b)
  ∧ (∀ (t : TwinId) (g k : Nat) (list : Bool) (rest : List EdgeItem), Does (.gRead t) fun a b =>
    live a t = true → (tw a t).edgeIn = .gRead g k list :: rest → serves a (partner t) = true →
    unfenced a t k = true → homeOf g = t →
      (tw b (partner t)).edgeIn = (tw a (partner t)).edgeIn ++ [.gData k (readG a g list)]
        ∧ (tw b t).edgeIn = rest ∧ changesOnly [.edgeIn t, .edgeIn (partner t)] a b)
  ∧ (∀ (t : TwinId) (k : Nat) (g : GInfo) (o : Offer) (rest : List EdgeItem), Does (.gData t) fun a b =>
    storesWf a = true → live a t = true → (tw a t).edgeIn = .gData k g :: rest → serves a (partner t) = true →
    unfenced a t k = true → mapGet [] (tw a t).lard.offers k = [(o, false)] → o.g = g.g → g.targets = none →
    o.stash = 0 → homeOf o.f = partner t →
      (tw b (partner t)).edgeIn = (tw a (partner t)).edgeIn ++ [.answer o.f true []]
        ∧ mapGet [] (tw b t).lard.offers k = []
        ∧ ctr b (twKey t lardP) 0x40 = satAdd ctrMax (ctr a (twKey t lardP) 0x40) 1 ∧ (tw b t).edgeIn = rest
        ∧ changesOnly [.lard t, .obs t, .edgeIn t, .edgeIn (partner t), .out, .ctrs] a b)
  ∧ (∀ (t : TwinId) (g stash : Nat) (sp pend : Bool) (rest : List EdgeItem), Does (.gMark t) fun a b =>
    storesWf a = true → live a t = true → (tw a t).edgeIn = .gMark g stash sp pend :: rest → homeOf g = t →
    (nodeOf a g).st ≠ .free → (nodeOf a g).backward = true →
    ¬ (pend = true ∧ (nodeOf a g).cf = 1 ∧ (nodeOf a g).mode = 0) →
      nodeOf b g = { nodeOf a g with stash := stash, larder := (nodeOf a g).larder % 4 + b2n sp * 128 + b2n pend * 64 }
        ∧ (tw b t).edgeIn = rest ∧ changesOnly [.cat t, .edgeIn t] a b)
  ∧ (∀ (t : TwinId) (g k i : Nat) (e : Rebake) (rest : List EdgeItem), Does (.trigger t) fun a b =>
    storesWf a = true → live a t = true → (tw a t).edgeIn = .trigger g k :: rest → unfenced a t k = true →
    entryOfG a t k g = some (i, e) → e = mapGet {} (tw a t).lard.table i → e.st = .dormant → e.inputs = [] →
      mapGet {} (tw b t).lard.table i = { e with st := .triggered }
        ∧ b.work = a.work ++ [.credits t [{ word := e.r, ctx := k, org := 3 }]]
        ∧ ctr b (twKey t lardP) 0x68 = satAdd ctrMax (ctr a (twKey t lardP) 0x68) 1 ∧ (tw b t).edgeIn = rest
        ∧ (∀ j, j ≠ i → mapGet {} (tw b t).lard.table j = mapGet {} (tw a t).lard.table j)
        ∧ changesOnly [.lard t, .edgeIn t, .work, .ctrs] a b)
  ∧ (∀ (t : TwinId) (g k stash cls : Nat) (sp : Bool) (rest : List EdgeItem), Does (.releaseItem t) fun a b =>
    storesWf a = true → live a t = true → (tw a t).edgeIn = .release g k stash sp cls :: rest →
    unfenced a t k = true → 0 < stash → homeOf g = t →
      (ctxOf b k).kept = (if sp then (ctxOf a k).kept else mapSet 0 (ctxOf a k).kept (cls % 4) (keptOf a k cls - stash))
        ∧ (ctxOf b k).spilled = (if sp then mapSet 0 (ctxOf a k).spilled (cls % 4) (spilledOf a k cls - stash) else (ctxOf a k).spilled)
        ∧ (ctxOf b k).leak = ((ctxOf a k).leak || decide (stash > (if sp then spilledOf a k cls else keptOf a k cls)))
        ∧ b.work = a.work ++ [.item t (.gMark g 0 false false)]
        ∧ ctr b (twKey t lardP) 0x78 = satAdd ctrMax (ctr a (twKey t lardP) 0x78) 1 ∧ (tw b t).edgeIn = rest
        ∧ changesOnly [.edgeIn t, .ctxs, .work, .ctrs] a b)

/-- R198, R202, R203: the sweep of the first waiting STEP_MARK ends. Every entry of its context's window takes the
step's maximum at the head of its history and the format that R203 selects from it; LEAK records what the Larder still
holds for the context, KEPT_HW returns to 0 (the model's choice, log entry 31), and the node completes. -/
def Obligations.TheRecipeSweepMovesTheHistories : Prop :=
  (∀ (id k i : Nat), Does (.recipeSweepEnd) fun a b =>
    storesWf a = true → a.fmt.queue = [id] → a.fmt.overflow = [] → (nodeOf a id).ctx = k →
    windowEntries a k = [i] → liveEntries a (ctxOf a k).home k = 0 →
      mapGet {} b.fmt.entries i = sweepRecipe (ctxOf a k).selCfg (mapGet {} a.fmt.entries i) ∧ b.fmt.queue = []
        ∧ (ctxOf b k).keptHw = 0
        ∧ (ctxOf b k).leak = ((ctxOf a k).leak || (ctxOf a k).kept.any (fun p => p.2 != 0) || (ctxOf a k).spilled.any (fun p => p.2 != 0))
        ∧ b.work = a.work ++ [.internalDone id]
        ∧ (∀ j, j ≠ i → mapGet {} b.fmt.entries j = mapGet {} a.fmt.entries j)
        ∧ ctr b fmtKey 0x50 = satAdd ctrMax (ctr a fmtKey 0x50) 1 ∧ changesOnly [.ctxs, .fmt, .work, .ctrs] a b)

/-- R217, R219 to R221, R230, R236: a batch from its header to its resolution. A good header is kept; with the flush
ended the score reads go out; a bad header faults the context and frees the slot. A line of scores is kept and
counted; the last one settles the selection: the picks of each expert, the tokens nobody picked and the NaNs, and the
area is written. Each acknowledged write counts down; after the last the batch is resolved and counted. An access of
the batch that returns an error frees the slot and faults its context with code 0x62. A BATCH item sets the mirror
entry of the partner's slot. -/
def Obligations.BatchesRunThroughTheSorter : Prop :=
  (∀ (t : TwinId) (slot : BitVec 6) (hdr : List Word64) (h : List Nat), Does (.headerReadDone t slot hdr) fun a b =>
    ∀ x, x = slot.toNat → storesWf a = true → live a t = true → h = hdr.map (fun w => w.toNat) →
    (batchOf a t x).st = .opened → (batchOf a t x).header = none →
    headerBad { batchOf a t x with header := some h } = false → 2 ≤ (nodeOf a (batchOf a t x).route).scope →
    (batchOf a t x).flushed = false →
      batchOf b t x = { batchOf a t x with header := some h } ∧ (∀ y, y ≠ x → batchOf b t y = batchOf a t y)
        ∧ changesOnly [.sort t] a b)
  ∧ (∀ (t : TwinId) (slot : BitVec 6) (hdr : List Word64) (h : List Nat) (q : Batch), Does (.headerReadDone t slot hdr) fun a b =>
    ∀ x, x = slot.toNat → storesWf a = true → live a t = true → h = hdr.map (fun w => w.toNat) →
    (batchOf a t x).st = .opened → (batchOf a t x).header = none →
    headerBad { batchOf a t x with header := some h } = false → 2 ≤ (nodeOf a (batchOf a t x).route).scope →
    (batchOf a t x).flushed = true → q = { batchOf a t x with header := some h, st := .reading } →
      batchOf b t x = q ∧ b.out = (List.range (scoreLines q)).map (fun i => .nocRead t (hScores q + 64 * i) 64)
        ∧ (∀ y, y ≠ x → batchOf b t y = batchOf a t y) ∧ changesOnly [.sort t, .out] a b)
  ∧ (∀ (t : TwinId) (slot : BitVec 6) (hdr : List Word64) (h : List Nat) (c : Nat), Does (.headerReadDone t slot hdr) fun a b =>
    ∀ x, x = slot.toNat → storesWf a = true → live a t = true → serves a (partner t) = true →
    h = hdr.map (fun w => w.toNat) → (batchOf a t x).st = .opened → (batchOf a t x).header = none →
    headerBad { batchOf a t x with header := some h } = true → (tw a t).sort.parked = [] →
    c = (batchOf a t x).ctx → (ctxOf a c).st = .opened →
      batchOf b t x = {} ∧ (ctxOf b c).st = .fenced
        ∧ (ctxOf b c).faultStat = faultWord t 0x60 (batchOf a t x).route
        ∧ (tw b t).sort.lastFault = lastWord 0x60 c + 2 ^ 36 + (batchOf a t x).route % 2 ^ 20
        ∧ (tw b (partner t)).edgeIn = (tw a (partner t)).edgeIn ++ [.batch (64 * twinNum t + x) c .freed (batchOf a t x).epoch]
        ∧ (∀ y, y ≠ x → batchOf b t y = batchOf a t y)
        ∧ changesOnly [.obs t, .ctxTws t, .sort t, .faultQ t, .edgeIn (partner t), .ctrlIn t, .ctrlIn (partner t), .ctxs, .freeze, .work, .out, .errs, .ctrs] a b)
  ∧ (∀ (t : TwinId) (slot : BitVec 6) (line : Nat) (sc : List (BitVec 16)) (n : Nat) (q : Batch), Does (.scoreReadDone t slot line sc) fun a b =>
    ∀ x, x = slot.toNat → storesWf a = true → live a t = true → (batchOf a t x).st = .reading →
    line < scoreLines (batchOf a t x) → mapGet false (batchOf a t x).lines line = false →
    n = min 32 (hTokens (batchOf a t x) * hExperts (batchOf a t x) - line * 32) → n ≤ sc.length →
    q = { batchOf a t x with lines := mapSet false (batchOf a t x).lines line true, scores := ((sc.map (fun w => w.toNat)).take n).zipIdx.foldl (fun m p => mapSet 0 m (line * 32 + p.2) p.1) (batchOf a t x).scores } →
    q.lines.length ≠ scoreLines (batchOf a t x) →
      batchOf b t x = q ∧ ctr b (twKey t sortP) 0x58 = satAdd ctrMax (ctr a (twKey t sortP) 0x58) n
        ∧ (∀ y, y ≠ x → batchOf b t y = batchOf a t y) ∧ changesOnly [.sort t, .ctrs] a b)
  ∧ (∀ (t : TwinId) (slot : BitVec 6) (line : Nat) (sc : List (BitVec 16)) (n : Nat) (q : Batch), Does (.scoreReadDone t slot line sc) fun a b =>
    ∀ x, x = slot.toNat → storesWf a = true → live a t = true → (batchOf a t x).st = .reading →
    line < scoreLines (batchOf a t x) → mapGet false (batchOf a t x).lines line = false →
    n = min 32 (hTokens (batchOf a t x) * hExperts (batchOf a t x) - line * 32) → n ≤ sc.length →
    q = { batchOf a t x with lines := mapSet false (batchOf a t x).lines line true, scores := ((sc.map (fun w => w.toNat)).take n).zipIdx.foldl (fun m p => mapSet 0 m (line * 32 + p.2) p.1) (batchOf a t x).scores } →
    q.lines.length = scoreLines (batchOf a t x) →
      (batchOf b t x).st = .writing
        ∧ (batchOf b t x).counts = (List.range (hExperts q)).map (fun e => (picks q e).length)
        ∧ (batchOf b t x).nans = ((List.range (hTokens q * hExperts q)).filter (fun i => bfNan (mapGet 0 q.scores i))).length
        ∧ (batchOf b t x).unpicked = ((List.range (hTokens q)).filter (fun k => tokenMask ((List.range (hExperts q)).map (picks q)) k == 0)).length
        ∧ ctr b (twKey t sortP) 0x58 = satAdd ctrMax (ctr a (twKey t sortP) 0x58) n
        ∧ (∀ y, y ≠ x → batchOf b t y = batchOf a t y) ∧ changesOnly [.sort t, .out, .ctrs] a b)
  ∧ (∀ (t : TwinId) (slot : BitVec 6), Does (.selectionWriteAck t slot) fun a b =>
    ∀ x, x = slot.toNat → storesWf a = true → live a t = true → (batchOf a t x).st = .writing →
    1 < (batchOf a t x).acks →
      batchOf b t x = { batchOf a t x with acks := (batchOf a t x).acks - 1 }
        ∧ (∀ y, y ≠ x → batchOf b t y = batchOf a t y) ∧ changesOnly [.sort t] a b)
  ∧ (∀ (t : TwinId) (slot : BitVec 6), Does (.selectionWriteAck t slot) fun a b =>
    ∀ x, x = slot.toNat → storesWf a = true → live a t = true → (batchOf a t x).st = .writing →
    (batchOf a t x).acks = 1 → (batchOf a t x).edges = [] →
      batchOf b t x = { batchOf a t x with st := .resolved, acks := 0 }
        ∧ ctr b (twKey t sortP) 0x48 = satAdd ctrMax (ctr a (twKey t sortP) 0x48) 1
        ∧ ctr b (twKey t sortP) 0x70 = satAdd ctrMax (ctr a (twKey t sortP) 0x70) (batchOf a t x).unpicked
        ∧ ctr b (twKey t sortP) 0x78 = satAdd ctrMax (ctr a (twKey t sortP) 0x78) (batchOf a t x).nans
        ∧ b.work = a.work ++ [.unbound (epochSelOf t x)] ∧ (∀ y, y ≠ x → batchOf b t y = batchOf a t y)
        ∧ changesOnly [.sort t, .work, .ctrs] a b)
  ∧ (∀ (t : TwinId) (i k e : Nat) (news : SlotNews) (rest : List EdgeItem), Does (.batch t) fun a b =>
    storesWf a = true → live a t = true → (tw a t).edgeIn = .batch i k news e :: rest →
      mapGet {} (tw b t).sort.mir i = { ctx := if news = .freed then 0 else k, current := news == .opened }
        ∧ (tw b t).edgeIn = rest
        ∧ (∀ j, j ≠ i → mapGet {} (tw b t).sort.mir j = mapGet {} (tw a t).sort.mir j)
        ∧ changesOnly [.sort t, .edgeIn t] a b)
  ∧ (∀ (t : TwinId) (slot : BitVec 6) (c : Nat), Does (.routeIo t slot .score) fun a b =>
    ∀ x, x = slot.toNat → storesWf a = true → live a t = true → serves a (partner t) = true →
    (batchOf a t x).st = .reading → (tw a t).sort.parked = [] → c = (batchOf a t x).ctx →
    (ctxOf a c).st = .opened →
      batchOf b t x = {} ∧ (ctxOf b c).st = .fenced
        ∧ (ctxOf b c).faultStat = faultWord t 0x62 (batchOf a t x).route
        ∧ (tw b t).sort.lastFault = lastWord 0x62 c + 2 * 2 ^ 36 + (batchOf a t x).route % 2 ^ 20
        ∧ (∀ y, y ≠ x → batchOf b t y = batchOf a t y)
        ∧ changesOnly [.obs t, .ctxTws t, .sort t, .faultQ t, .edgeIn (partner t), .ctrlIn t, .ctrlIn (partner t), .ctxs, .freeze, .work, .out, .errs, .ctrs] a b)

/-- R228, R303: a CANCEL of a context that is neither fenced nor cancelling already bumps its epoch once and sends
EPOCH_BUMP to the partner; at the cancel point, the open batches of the context are cancelled in both twins (that the
arrival of EPOCH_BUMP is the cancel point, that a CANCEL of a fenced context is ignored, and how a halted partner
comes to it, are the model's choices, log entry 26), with their edges and scores, none of its batches is current in
either mirror any longer, and the cancellation ends. The stores named are those of a context that holds no Bowl. -/
def Obligations.CancellationsBumpTheEpoch : Prop :=
  (∀ (src : Requester) (ctx : CtxId), Does (.sortCancel src ctx) fun a b =>
    ∀ k, k = ctx.toNat → storesWf a = true → served a src (ctxKey k) = true → (ctxOf a k).cancelBusy = false →
    unfenced a (ctxOf a k).home k = true → serves a (partner (ctxOf a k).home) = true →
      ctxOf b k = { ctxOf a k with epoch := ((ctxOf a k).epoch + 1) % 65536, cancelBusy := true }
        ∧ (tw b (partner (ctxOf a k).home)).edgeIn = (tw a (partner (ctxOf a k).home)).edgeIn ++ [.epochBump k (((ctxOf a k).epoch + 1) % 65536)]
        ∧ (∀ j, j ≠ k → ctxOf b j = ctxOf a j) ∧ changesOnly [.edgeIn (partner ((ctxOf a k).home)), .ctxs] a b)
  ∧ (∀ (t : TwinId) (x k e : Nat) (q : Batch) (rest : List EdgeItem), Does (.epochBump t) fun a b =>
    storesWf a = true → live a t = true → (tw a t).edgeIn = .epochBump k e :: rest → serves a (partner t) = true →
    (ctxOf a k).cancelBusy = true → (∀ i ∈ rest ++ (tw a (partner t)).edgeIn, ∀ c v, i ≠ .epochBump c v) →
    (∀ p ∈ (tw a (ctxOf a k).home).office.bowls, p.2.ctx ≠ k) →
    (tw a (partner t)).sort.slots.filter (fun p => p.2.ctx == k && p.2.st != .free && p.2.st != .cancelled) = [] →
    (tw a t).sort.slots.filter (fun p => p.2.ctx == k && p.2.st != .free && p.2.st != .cancelled) = [(x, q)] →
      (ctxOf b k).cancelBusy = false ∧ batchOf b t x = { q with st := .cancelled, edges := [], scores := [], lines := [] }
        ∧ ctr b (twKey t sortP) 0x50 = satAdd ctrMax (ctr a (twKey t sortP) 0x50) 1
        ∧ (mapGet {} (tw b t).sort.mir (64 * twinNum t + x)).current = false
        ∧ (tw b (partner t)).edgeIn = (tw a (partner t)).edgeIn ++ [.batch (64 * twinNum t + x) k .cancelled q.epoch]
        ∧ b.work = a.work ++ [.unbound (epochSelOf t x)] ∧ (tw b t).edgeIn = rest
        ∧ (∀ y, y ≠ x → batchOf b t y = batchOf a t y)
        ∧ changesOnly [.sort .t0, .sort .t1, .edgeIn t, .edgeIn (partner t), .ctxs, .work, .ctrs] a b)
  ∧ (∀ (ctx : CtxId) (x : Nat) (q : Batch), Does (.cancelPoint ctx) fun a b =>
    ∀ k, k = ctx.toNat → storesWf a = true → (ctxOf a k).cancelBusy = true → serves a .t1 = true →
    (∀ p ∈ (tw a (ctxOf a k).home).office.bowls, p.2.ctx ≠ k) →
    (tw a .t0).sort.slots.filter (fun p => p.2.ctx == k && p.2.st != .free && p.2.st != .cancelled) = [(x, q)] →
    (tw a .t1).sort.slots.filter (fun p => p.2.ctx == k && p.2.st != .free && p.2.st != .cancelled) = [] →
      (ctxOf b k).cancelBusy = false
        ∧ batchOf b .t0 x = { q with st := .cancelled, edges := [], scores := [], lines := [] }
        ∧ (∀ t i, (mapGet {} (tw a t).sort.mir i).ctx = k → (mapGet {} (tw b t).sort.mir i).current = false)
        ∧ b.work = a.work ++ [.unbound (epochSelOf .t0 x)]
        ∧ changesOnly [.sort .t0, .sort .t1, .edgeIn .t0, .edgeIn .t1, .ctxs, .work, .ctrs] a b)

/-- R239, R246, R247, R251: each of the eight tally commands waits, with its selector and data registers as they
stand, in the bank of the entry's twin for the next tally tick, and BUSY is set; one written while BUSY is 1 is
ignored (that a command is captured with its selector and data as written, and a packet tested as it arrives, is the
model's choice, log entry 38). A packet that passes the tests of the entry is buffered for the tick; one that fails is
dropped, counted under its reason at the next tick and kept in LAST_DROP, and its credit goes back, or is owed while a
buffer of either twin is full; after a takeover a tally increment for the lost twin is dropped and recorded by the
survivor. -/
def Obligations.TallyCommandsAndPacketsAreTaken : Prop :=
  (∀ (src : Requester) (ctx : CtxId) (c : Instr) (op : Nat) (_ : (c, op) ∈ ([(.tallyAlloc src ctx, 1), (.tallyFree src ctx, 2), (.tallyArm src ctx, 3), (.tallyDisarm src ctx, 4), (.tallyResume src ctx, 5), (.tallyReset src ctx, 6), (.tallyAdd src ctx, 7), (.tallyQuery src ctx, 8)] : List (Instr × Nat))), Does (c) fun a b =>
    ∀ k, k = ctx.toNat → ∀ sel, sel = fld (reg a (ctxKey k) 0x2C0) 17 0 → ∀ t, t = tallyTwin sel →
    storesWf a = true → served a src (ctxKey k) = true → serves a t = true → unfenced a t k = true →
    (ctxOf a k).tallyBusy = false →
      (tw b t).bank.cmds = (tw a t).bank.cmds ++ [{ ctx := k, op := op, sel := sel, d0 := reg a (ctxKey k) 0x2C8, d1 := reg a (ctxKey k) 0x2D0, d2 := reg a (ctxKey k) 0x2D8 }]
        ∧ ctxOf b k = { ctxOf a k with tallyBusy := true } ∧ (∀ j, j ≠ k → ctxOf b j = ctxOf a j)
        ∧ changesOnly [.bank t, .ctxs] a b)
  ∧ (∀ (src : Requester) (ctx : CtxId) (c : Instr) (op : Nat) (_ : (c, op) ∈ ([(.tallyAlloc src ctx, 1), (.tallyFree src ctx, 2), (.tallyArm src ctx, 3), (.tallyDisarm src ctx, 4), (.tallyResume src ctx, 5), (.tallyReset src ctx, 6), (.tallyAdd src ctx, 7), (.tallyQuery src ctx, 8)] : List (Instr × Nat))), Does (c) fun a b =>
    ∀ k, k = ctx.toNat → served a src (ctxKey k) = true → (ctxOf a k).tallyBusy = true →
      b = a)
  ∧ (∀ (packet : BitVec 128), Does (.tallyPacket packet) fun a b =>
    ∀ p, p = packet.toNat → ∀ t, t = tallyTwin (pktTally p) → fld p 127 124 = 0xA → a.pair.latch ≠ some (partner t) →
    dropReason a p = none → (tw a t).bank.buf.length < 256 →
      (tw b t).bank = { (tw a t).bank with buf := (tw a t).bank.buf ++ [p] } ∧ changesOnly [.bank t] a b)
  ∧ (∀ (packet : BitVec 128) (r off : Nat), Does (.tallyPacket packet) fun a b =>
    ∀ p, p = packet.toNat → ∀ t, t = tallyTwin (pktTally p) → storesWf a = true → fld p 127 124 ≠ 0 →
    (fld p 127 124 = 0xA → a.pair.latch ≠ some (partner t)) → dropReason a p = some (r, off) → (∀ u, (tw a u).bank.owed = 0) →
    (∀ u, (tw a u).bank.buf.length < 256) →
      (tw b t).bank = { (tw a t).bank with
            lastDrop := 2 ^ 63 + r * 2 ^ 56 + fld p 123 118 * 2 ^ 50 + pktCtx p * 2 ^ 42 + pktTally p
            events := mapSet 0 (tw a t).bank.events off (mapGet 0 (tw a t).bank.events off + 1) }
        ∧ (pageOf b (twKey t talyP)).errStat = (pageOf a (twKey t talyP)).errStat ||| 2 ^ 3 ∧ b.out = [.linkCredit t 1]
        ∧ changesOnly [.bank t, .out, .errs] a b)
  ∧ (∀ (packet : BitVec 128), Does (.tallyPacket packet) fun a b =>
    ∀ p, p = packet.toNat → ∀ t, t = tallyTwin (pktTally p) → ∀ v, v = partner t → storesWf a = true → fld p 127 124 = 0xA →
    a.pair.latch = some v → (∀ u, (tw a u).bank.owed = 0) → (∀ u, (tw a u).bank.buf.length < 256) →
      (tw b v).bank = { (tw a v).bank with
            lastDrop := 2 ^ 63 + 5 * 2 ^ 56 + fld p 123 118 * 2 ^ 50 + pktCtx p * 2 ^ 42 + pktTally p
            events := mapSet 0 (tw a v).bank.events 0x78 (mapGet 0 (tw a v).bank.events 0x78 + 1) }
        ∧ (pageOf b (twKey v talyP)).errStat = (pageOf a (twKey v talyP)).errStat ||| 2 ^ 3 ∧ b.out = [.linkCredit t 1]
        ∧ changesOnly [.bank v, .out, .errs] a b)
  ∧ (∀ (packet : BitVec 128) (r off : Nat), Does (.tallyPacket packet) fun a b =>
    ∀ p, p = packet.toNat → ∀ t, t = tallyTwin (pktTally p) → storesWf a = true → fld p 127 124 ≠ 0 →
    (fld p 127 124 = 0xA → a.pair.latch ≠ some (partner t)) → dropReason a p = some (r, off) →
    (∃ u, 256 ≤ (tw a u).bank.buf.length) →
      (tw b t).bank.owed = (tw a t).bank.owed + 1 ∧ b.out = []
        ∧ mapGet 0 (tw b t).bank.events off = mapGet 0 (tw a t).bank.events off + 1
        ∧ changesOnly [.bank t, .errs] a b)

/-- R238 to R243, R245 to R248: what a tally tick does in a bank, the partner's bank being at rest. The count of ticks
goes on by one. A waiting command takes effect: ALLOC makes the entry from its data registers, IDLE; ARM takes the
watch word and locks its slots; ADD adds its amount; FREE zeroes the entry and DISARM takes it to IDLE, both unlocking
its slots (that DISARM zeroes the watch word is the model's choice, log entry 94); RESUME and RESET start the list
again; QUERY copies the three words. BUSY clears and STATUS is 0, or that of the first check of R247 that fails (the
order of the checks is the model's choice, log entry 32), and then the entry stays as it is. The packets of the tick
add theirs; COUNT saturates with a fault. An edge whose threshold the count has reached fires once: the cursor moves
on, and one credit goes to the target in its home twin, from the tally's context. -/
def Obligations.TheTallyTickActsOnEntries : Prop :=
  (Does (.tallyTick) fun a b =>
    a.phase ≠ 0 →
      b.ticks = a.ticks + 1 ∧ b.phase = a.phase ∧ b.fuses = a.fuses ∧ b.boot = a.boot
        ∧ b.mgmt.manager = a.mgmt.manager)
  ∧ (Does (.tallyTick) fun a b =>
    a.phase ≠ 0 → a.boot.gated = true → a.proof.load = none → a.proof.slew = 0 → a.proof.events = [] → a.ctxs = [] →
    viewRests a = true → bankRests (tw a .t0).bank = true → bankRests (tw a .t1).bank = true →
      b.ticks = a.ticks + 1 ∧ b.time = (a.time + 10) % 2 ^ 64 ∧ changesOnly [.ticks, .time] a b)
  ∧ (∀ (v : Nat), Does (.tallyTick) fun a b =>
    a.phase ≠ 0 → a.boot.gated = true → a.proof.load = some v → a.proof.events = [] → viewRests a = true →
    bankRests (tw a .t0).bank = true → bankRests (tw a .t1).bank = true →
      b.ticks = a.ticks + 1 ∧ b.time = v ∧ b.proof.load = none ∧ (tw b .t0).cat.walked = v / 1024
        ∧ (tw b .t1).cat.bucket = v / 1024 % 4096 ∧ changesOnly [.cat .t0, .cat .t1, .proof, .ticks, .time] a b)
  ∧ (∀ (t : TwinId) (c : TallyCmd), Does (.tallyTick) fun a b =>
    storesWf a = true → bankAlone a t = true → (tw a t).bank.buf = [] → (tw a t).bank.cmds = [c] → c.op = 1 → (tw a t).bank.ents = [] → tallyTwin c.sel = t → tallyStatus a c = 0 →
      tallyOf b t (c.sel % 131072) = { st := .idle, packets := bitOf c.d0 60, level := bitOf c.d0 59, ctx := c.ctx, key := fld c.d1 63 48, step := fld c.d1 31 0 }
        ∧ (tw b t).bank.cmds = [] ∧ (ctxOf b c.ctx).tallyBusy = false ∧ (ctxOf b c.ctx).tallyStat = 0)
  ∧ (∀ (t : TwinId) (c : TallyCmd) (e : Tally), Does (.tallyTick) fun a b =>
    storesWf a = true → bankAlone a t = true → (tw a t).bank.buf = [] → (tw a t).bank.cmds = [c] →
    c.op = 3 → ∀ i, i = c.sel % 131072 → (tw a t).bank.ents = [(i, e)] → tallyTwin c.sel = t → tallyStatus a c = 0 →
    dueEdge a t { e with st := .armed, cursor := 0, watchBase := fld c.d2 63 41, watchLen := fld c.d2 40 33 } = none →
      tallyOf b t i = { e with st := .armed, cursor := 0, watchBase := fld c.d2 63 41, watchLen := fld c.d2 40 33 }
        ∧ locksSet t (fld c.d2 63 41) (fld c.d2 40 33) true a b
        ∧ (tw b t).bank.cmds = [] ∧ (ctxOf b c.ctx).tallyBusy = false ∧ (ctxOf b c.ctx).tallyStat = 0)
  ∧ (∀ (t : TwinId) (c : TallyCmd) (e : Tally), Does (.tallyTick) fun a b =>
    storesWf a = true → bankAlone a t = true → (tw a t).bank.buf = [] → (tw a t).bank.cmds = [c] →
    c.op = 7 → ∀ i, i = c.sel % 131072 → (tw a t).bank.ents = [(i, e)] → tallyTwin c.sel = t → tallyStatus a c = 0 →
    e.st = .idle → 0 < fld c.d0 47 0 → e.count + fld c.d0 47 0 ≤ countMax →
      tallyOf b t i = { e with count := e.count + fld c.d0 47 0 }
        ∧ (tw b t).bank.cmds = [] ∧ (ctxOf b c.ctx).tallyBusy = false ∧ (ctxOf b c.ctx).tallyStat = 0)
  ∧ (∀ (t : TwinId) (c : TallyCmd) (e : Tally), Does (.tallyTick) fun a b =>
    storesWf a = true → bankAlone a t = true → (tw a t).bank.buf = [] → (tw a t).bank.cmds = [c] →
    c.op = 7 → ∀ i, i = c.sel % 131072 → (tw a t).bank.ents = [(i, e)] → tallyTwin c.sel = t → tallyStatus a c = 0 →
    e.st = .idle → countMax < e.count + fld c.d0 47 0 →
      tallyOf b t i = { e with count := 2 ^ 48 - 1, sat := true }
        ∧ (tw b t).bank.lastFault = lastWord 0x70 e.ctx + twinNum t * 131072 + i
        ∧ (tw b t).bank.cmds = [] ∧ (ctxOf b c.ctx).tallyBusy = false ∧ (ctxOf b c.ctx).tallyStat = 0)
  ∧ (∀ (t : TwinId) (c : TallyCmd) (e : Tally), Does (.tallyTick) fun a b =>
    storesWf a = true → bankAlone a t = true → (tw a t).bank.buf = [] → (tw a t).bank.cmds = [c] →
    c.op = 2 → ∀ i, i = c.sel % 131072 → (tw a t).bank.ents = [(i, e)] → tallyTwin c.sel = t → tallyStatus a c = 0 →
      tallyOf b t i = {} ∧ (0 < e.watchLen → locksSet t e.watchBase e.watchLen false a b)
        ∧ (tw b t).bank.cmds = [] ∧ (ctxOf b c.ctx).tallyBusy = false ∧ (ctxOf b c.ctx).tallyStat = 0)
  ∧ (∀ (t : TwinId) (c : TallyCmd) (e : Tally), Does (.tallyTick) fun a b =>
    storesWf a = true → bankAlone a t = true → (tw a t).bank.buf = [] → (tw a t).bank.cmds = [c] →
    c.op = 4 → ∀ i, i = c.sel % 131072 → (tw a t).bank.ents = [(i, e)] → tallyTwin c.sel = t → tallyStatus a c = 0 →
      tallyOf b t i = { e with st := .idle, cursor := 0, watchBase := 0, watchLen := 0 }
        ∧ locksSet t e.watchBase e.watchLen false a b
        ∧ (tw b t).bank.cmds = [] ∧ (ctxOf b c.ctx).tallyBusy = false ∧ (ctxOf b c.ctx).tallyStat = 0)
  ∧ (∀ (t : TwinId) (c : TallyCmd) (e : Tally), Does (.tallyTick) fun a b =>
    storesWf a = true → bankAlone a t = true → (tw a t).bank.buf = [] → (tw a t).bank.cmds = [c] →
    c.op = 5 → ∀ i, i = c.sel % 131072 → (tw a t).bank.ents = [(i, e)] → tallyTwin c.sel = t → tallyStatus a c = 0 →
    dueEdge a t { e with st := .armed, cursor := 0 } = none →
      tallyOf b t i = { e with st := .armed, cursor := 0 }
        ∧ (tw b t).bank.cmds = [] ∧ (ctxOf b c.ctx).tallyBusy = false ∧ (ctxOf b c.ctx).tallyStat = 0)
  ∧ (∀ (t : TwinId) (c : TallyCmd) (e f : Tally), Does (.tallyTick) fun a b =>
    storesWf a = true → bankAlone a t = true → (tw a t).bank.buf = [] → (tw a t).bank.cmds = [c] →
    c.op = 6 → ∀ i, i = c.sel % 131072 → (tw a t).bank.ents = [(i, e)] → tallyTwin c.sel = t → tallyStatus a c = 0 →
    f = { e with
            count := if fld c.d0 47 0 = 0 then 0 else e.count - fld c.d0 47 0
            cursor := 0
            sat := false
            st := if e.st = .wrapped ∨ e.st = .spent then .armed else e.st } →
    dueEdge a t f = none →
      tallyOf b t i = f
        ∧ (tw b t).bank.cmds = [] ∧ (ctxOf b c.ctx).tallyBusy = false ∧ (ctxOf b c.ctx).tallyStat = 0)
  ∧ (∀ (t : TwinId) (c : TallyCmd) (e : Tally), Does (.tallyTick) fun a b =>
    storesWf a = true → bankAlone a t = true → (tw a t).bank.buf = [] → (tw a t).bank.cmds = [c] →
    c.op = 8 → ∀ i, i = c.sel % 131072 → (tw a t).bank.ents = [(i, e)] → tallyTwin c.sel = t → tallyStatus a c = 0 →
    dueEdge a t e = none →
      reg b (ctxKey c.ctx) 0x2C8 = tallyStCode e.st * 2 ^ 61 + b2n e.packets * 2 ^ 60 + b2n e.level * 2 ^ 59 + b2n e.sat * 2 ^ 58 + e.ctx * 2 ^ 48 + e.count
        ∧ reg b (ctxKey c.ctx) 0x2D0 = e.key * 2 ^ 48 + e.cursor * 2 ^ 40 + e.step
        ∧ reg b (ctxKey c.ctx) 0x2D8 = e.watchBase * 2 ^ 41 + e.watchLen * 2 ^ 33 ∧ tallyOf b t i = e
        ∧ (tw b t).bank.cmds = [] ∧ (ctxOf b c.ctx).tallyBusy = false ∧ (ctxOf b c.ctx).tallyStat = 0)
  ∧ (∀ (t : TwinId) (c : TallyCmd) (e : Tally), Does (.tallyTick) fun a b =>
    storesWf a = true → bankAlone a t = true → (tw a t).bank.buf = [] → (tw a t).bank.cmds = [c] → 1 ≤ c.op → c.op ≤ 8 →
    ∀ i, i = c.sel % 131072 → tallyOf a t i = e → (∀ j, j ≠ i → tallyOf a t j = {}) → dueEdge a t e = none →
    tallyTwin c.sel = t → tallyStatus a c ≠ 0 →
      tallyOf b t i = e ∧ (ctxOf b c.ctx).tallyBusy = false
        ∧ (ctxOf b c.ctx).tallyStat = (if inTallyRange a t c.ctx i = false then 1
            else if c.op = 1 then (if e.st ≠ .free then 2 else 7)
            else if e.st = .free ∨ e.ctx ≠ c.ctx then 2
            else if c.op = 3 ∧ e.st = .idle then (if watchOk a t c.ctx (fld c.d2 63 41) (fld c.d2 40 33) e.level = false then 4 else 5)
            else 3))
  ∧ (∀ (t : TwinId) (p : Nat) (e : Tally), Does (.tallyTick) fun a b =>
    storesWf a = true → bankAlone a t = true → (tw a t).bank.buf = [p] → (tw a t).bank.cmds = [] → tallyTwin (pktTally p) = t →
    (tw a t).bank.ents = [(pktTally p % 131072, e)] → e.st = .idle → dropReason a p = none → 0 < pktAmount e p →
    e.count + pktAmount e p ≤ countMax →
      tallyOf b t (pktTally p % 131072) = { e with count := e.count + pktAmount e p } ∧ (tw b t).bank.buf = [])
  ∧ (∀ (t : TwinId) (i w : Nat) (e : Tally), Does (.tallyTick) fun a b =>
    storesWf a = true → bankAlone a t = true → (tw a t).bank.buf = [] → (tw a t).bank.cmds = [] → (tw a t).bank.ents = [(i, e)] →
    dueEdge a t e = some w → dueEdge a t (afterFire e w) = none → homeOf (edgeTarget w) = t →
      tallyOf b t i = { e with
            count := if e.level then e.count else e.count - edgeAux w * e.step
            cursor := if e.cursor + 1 = e.watchLen ∧ e.level = false then 0 else e.cursor + 1
            st := if e.cursor + 1 ≠ e.watchLen then .armed else if e.level then .spent else .wrapped }
        ∧ .item t (.credit { word := w, ctx := e.ctx, org := 2, orgId := twinNum t * 131072 + i }) ∈ b.work)
  ∧ (∀ (t : TwinId) (i w : Nat) (e : Tally), Does (.tallyTick) fun a b =>
    storesWf a = true → bankAlone a t = true → (tw a t).bank.buf = [] → (tw a t).bank.cmds = [] → (tw a t).bank.ents = [(i, e)] →
    dueEdge a t e = some w → dueEdge a t (afterFire e w) = none → homeOf (edgeTarget w) = partner t → serves a (partner t) = true →
      tallyOf b t i = { e with
            count := if e.level then e.count else e.count - edgeAux w * e.step
            cursor := if e.cursor + 1 = e.watchLen ∧ e.level = false then 0 else e.cursor + 1
            st := if e.cursor + 1 ≠ e.watchLen then .armed else if e.level then .spent else .wrapped }
        ∧ .credit { word := w, ctx := e.ctx, org := 2, orgId := twinNum t * 131072 + i } ∈ (tw b (partner t)).edgeIn)

/-- R261, R262, R278: the commands on Tubes and the accesses they take. OPEN refuses with the status of the first
check it fails: 1 out of range, 2 not FREE, 3 no tile of a cluster of the mask, 4 a slot taken, 5 a bad ring, 7
EP_BASE not enabled (that the first failing check decides is the model's choice, log entry 32); else the entry goes to
OPENING with TUBE_CMD busy and its receive block is written, then the send block, and the Tube is OPEN with status 0.
CLOSE stops the sender with a write that carries the entry in CLOSING (the model's choice, log entry 40), reads both
endpoints until they agree, disables the receiver and frees the entry. QUERY of a Tube that is FREE or OPENING answers
at once with zeros for the endpoints' words (the model's choice, log entry 39). An access that fails frees the Tube
with fault code 0x80 and an unstated status (a free value, log entry 22). -/
def Obligations.TubeCommandsAndSequences : Prop :=
  (∀ (src : Requester) (ctx : CtxId), Does (.tubeOpen src ctx) fun a b =>
    ∀ k, k = ctx.toNat → ∀ x, x = tubeSelOf a k → ∀ t, t = tubeTwin x → storesWf a = true →
    served a src (ctxKey k) = true → officeTakes a k false (ctxOf a k).tubeBusy = true →
    ∀ e, e = newTube k (reg a (ctxKey k) 0x2F8) (reg a (ctxKey k) 0x300) → tubeOpenStatus a k x e ≠ 0 →
      ctxOf b k = { ctxOf a k with
            tubeBusy := false
            tubeStat := if inTubeRange a k x = false then 1
              else if (tubeOf a x).st ≠ .free then 2
              else if (tileOk a k e.tx && tileOk a k e.rx) = false then 3
              else if slotBusy a (txKeyOf e) (rxKeyOf e) = true then 4
              else if e.ringLog < 5 ∨ 12 < e.ringLog ∨ e.cut < 1 ∨ 16 < e.cut ∨ 147456 < e.ringOff * 256 + 2 ^ e.ringLog * 32
                  ∨ banksFit a k (e.ringOff * 256 / 16384) ((e.ringOff * 256 + 2 ^ e.ringLog * 32 - 1) / 16384) = false then 5
              else 7 }
        ∧ changesOnly [.ctxs] a b)
  ∧ (∀ (src : Requester) (ctx : CtxId) (e : Tube), Does (.tubeOpen src ctx) fun a b =>
    ∀ k, k = ctx.toNat → ∀ x, x = tubeSelOf a k → ∀ t, t = tubeTwin x → storesWf a = true →
    served a src (ctxKey k) = true → officeTakes a k false (ctxOf a k).tubeBusy = true →
    e = newTube k (reg a (ctxKey k) 0x2F8) (reg a (ctxKey k) 0x300) → tubeOpenStatus a k x e = 0 →
      tubeOf b x = e ∧ e.st = .opening ∧ (ctxOf b k).tubeBusy = true
        ∧ b.out = [.nocWrite t (epAddr a t e.rx e.rxSlot 1) [tubeWord0 e, tubeWord1 e]]
        ∧ (∀ y, y ≠ x % 32768 → mapGet {} (tw b t).office.tubes y = mapGet {} (tw a t).office.tubes y)
        ∧ changesOnly [.office t, .ctxs, .out] a b)
  ∧ (∀ (src : Requester) (ctx : CtxId) (e : Tube), Does (.tubeClose src ctx) fun a b =>
    ∀ k, k = ctx.toNat → ∀ x, x = tubeSelOf a k → ∀ t, t = tubeTwin x → storesWf a = true →
    served a src (ctxKey k) = true → officeTakes a k false (ctxOf a k).tubeBusy = true →
    inTubeRange a k x = true →
    e = { tubeOf a x with st := .closing, busy := true, ops := (tubeOf a x).ops ++ [.wrClose] } →
    (tubeOf a x).st = .opened → (tubeOf a x).ctx = k →
      tubeOf b x = e ∧ (ctxOf b k).tubeBusy = true
        ∧ b.out = [.nocWrite t (epAddr a t e.tx e.txSlot 0) [tubeWord0 e, tubeWord1 e]]
        ∧ (∀ y, y ≠ x % 32768 → mapGet {} (tw b t).office.tubes y = mapGet {} (tw a t).office.tubes y)
        ∧ changesOnly [.office t, .ctxs, .out] a b)
  ∧ (∀ (src : Requester) (ctx : CtxId), Does (.tubeClose src ctx) fun a b =>
    ∀ k, k = ctx.toNat → ∀ x, x = tubeSelOf a k → ∀ t, t = tubeTwin x → storesWf a = true →
    served a src (ctxKey k) = true → officeTakes a k false (ctxOf a k).tubeBusy = true →
    inTubeRange a k x = true → (tubeOf a x).st ≠ .opened ∨ (tubeOf a x).ctx ≠ k →
      ctxOf b k = { ctxOf a k with tubeStat := 6, tubeBusy := false } ∧ changesOnly [.ctxs] a b)
  ∧ (∀ (src : Requester) (ctx : CtxId), Does (.tubeQuery src ctx) fun a b =>
    ∀ k, k = ctx.toNat → ∀ x, x = tubeSelOf a k → ∀ t, t = tubeTwin x → storesWf a = true →
    served a src (ctxKey k) = true → officeTakes a k true (ctxOf a k).tubeBusy = true → inTubeRange a k x = true →
    (tubeOf a x).st = .free ∨ (tubeOf a x).st = .opening →
      reg b (ctxKey k) 0x2F8 = tubeWord0 (tubeOf a x) ∧ reg b (ctxKey k) 0x300 = tubeWord1 (tubeOf a x)
        ∧ reg b (ctxKey k) 0x308 = 0 ∧ reg b (ctxKey k) 0x310 = 0 ∧ reg b (ctxKey k) 0x318 = 0
        ∧ ctxOf b k = { ctxOf a k with tubeStat := 0, tubeBusy := false } ∧ changesOnly [.ctxs, .regs] a b)
  ∧ (∀ (src : Requester) (ctx : CtxId), Does (.tubeQuery src ctx) fun a b =>
    ∀ k, k = ctx.toNat → ∀ x, x = tubeSelOf a k → ∀ t, t = tubeTwin x → storesWf a = true →
    served a src (ctxKey k) = true → officeTakes a k true (ctxOf a k).tubeBusy = true → inTubeRange a k x = true →
    (tubeOf a x).st = .opened →
      reg b (ctxKey k) 0x2F8 = tubeWord0 (tubeOf a x) ∧ reg b (ctxKey k) 0x300 = tubeWord1 (tubeOf a x)
        ∧ tubeOf b x = { tubeOf a x with ops := (tubeOf a x).ops ++ [.queryRx k] } ∧ (ctxOf b k).tubeBusy = true
        ∧ b.out = [.nocRead t (epAddr b t (tubeOf a x).rx (tubeOf a x).rxSlot 1) 64]
        ∧ (∀ y, y ≠ x % 32768 → mapGet {} (tw b t).office.tubes y = mapGet {} (tw a t).office.tubes y)
        ∧ changesOnly [.office t, .ctxs, .out, .regs] a b)
  ∧ (∀ (tube : BitVec 16) (e : Tube) (rest : List TubeOp), Does (.epWriteAck tube) fun a b =>
    ∀ x, x = tube.toNat → ∀ t, t = tubeTwin x → storesWf a = true → live a t = true → tubeOf a x = e →
    e.ops = .wrRx :: rest → e.st = .opening →
      tubeOf b x = { e with ops := .wrTx :: rest }
        ∧ recvOf b (rxKeyOf e) = { live := true, ctx := e.ctx, txKey := txKeyOf e, cut := e.cut, ringLog := e.ringLog, ringOff := e.ringOff }
        ∧ b.out = [.nocWrite t (epAddr a t e.tx e.txSlot 0) [tubeWord0 e, tubeWord1 e]]
        ∧ (∀ y, y ≠ x % 32768 → mapGet {} (tw b t).office.tubes y = mapGet {} (tw a t).office.tubes y)
        ∧ (∀ y, y ≠ rxKeyOf e → recvOf b y = recvOf a y) ∧ changesOnly [.office t, .recvEps, .out] a b)
  ∧ (∀ (tube : BitVec 16) (e : Tube) (rest : List TubeOp), Does (.epWriteAck tube) fun a b =>
    ∀ x, x = tube.toNat → ∀ t, t = tubeTwin x → storesWf a = true → live a t = true → tubeOf a x = e →
    e.ops = .wrTx :: rest → e.st = .opening →
      tubeOf b x = { e with st := .opened, busy := false, ops := rest }
        ∧ sendOf b (txKeyOf e) = { live := true, ctx := e.ctx, rxKey := rxKeyOf e, ringLog := e.ringLog, credits := 2 ^ e.ringLog }
        ∧ (ctxOf b e.ctx).tubeStat = 0 ∧ (ctxOf b e.ctx).tubeBusy = false
        ∧ ctr b (twKey t tubeP) 0x40 = satAdd ctrMax (ctr a (twKey t tubeP) 0x40) 1
        ∧ (∀ y, y ≠ x % 32768 → mapGet {} (tw b t).office.tubes y = mapGet {} (tw a t).office.tubes y)
        ∧ (∀ y, y ≠ txKeyOf e → sendOf b y = sendOf a y) ∧ changesOnly [.office t, .ctxs, .sendEps, .ctrs] a b)
  ∧ (∀ (tube : BitVec 16) (e : Tube) (rest : List TubeOp), Does (.epWriteAck tube) fun a b =>
    ∀ x, x = tube.toNat → ∀ t, t = tubeTwin x → storesWf a = true → live a t = true → tubeOf a x = e →
    e.ops = .wrClose :: rest →
      tubeOf b x = { e with ops := .rdRx :: rest }
        ∧ sendOf b (txKeyOf e) = { sendOf a (txKeyOf e) with live := false }
        ∧ b.out = [.nocRead t (epAddr a t e.rx e.rxSlot 1) 64]
        ∧ (∀ y, y ≠ x % 32768 → mapGet {} (tw b t).office.tubes y = mapGet {} (tw a t).office.tubes y)
        ∧ (∀ y, y ≠ txKeyOf e → sendOf b y = sendOf a y) ∧ changesOnly [.office t, .sendEps, .out] a b)
  ∧ (∀ (tube : BitVec 16) (e : Tube) (rest : List TubeOp), Does (.epWriteAck tube) fun a b =>
    ∀ x, x = tube.toNat → ∀ t, t = tubeTwin x → storesWf a = true → live a t = true → tubeOf a x = e →
    e.ops = .wrDis :: rest → e.busy = true →
      tubeOf b x = {} ∧ recvOf b (rxKeyOf e) = {} ∧ (ctxOf b e.ctx).tubeStat = 0
        ∧ (ctxOf b e.ctx).tubeBusy = false
        ∧ ctr b (twKey t tubeP) 0x48 = satAdd ctrMax (ctr a (twKey t tubeP) 0x48) 1
        ∧ (∀ y, y ≠ x % 32768 → mapGet {} (tw b t).office.tubes y = mapGet {} (tw a t).office.tubes y)
        ∧ (∀ y, y ≠ rxKeyOf e → recvOf b y = recvOf a y) ∧ changesOnly [.office t, .ctxs, .recvEps, .ctrs] a b)
  ∧ (∀ (tube : BitVec 16) (e : Tube) (rest : List TubeOp), Does (.epReadAnswer tube) fun a b =>
    ∀ x, x = tube.toNat → ∀ t, t = tubeTwin x → storesWf a = true → live a t = true → tubeOf a x = e →
    e.ops = .rdRx :: rest →
      tubeOf b x = { e with ops := .rdTx (recvOf a (rxKeyOf e)).arr :: rest }
        ∧ b.out = [.nocRead t (epAddr a t e.tx e.txSlot 0) 64]
        ∧ (∀ y, y ≠ x % 32768 → mapGet {} (tw b t).office.tubes y = mapGet {} (tw a t).office.tubes y)
        ∧ changesOnly [.office t, .out] a b)
  ∧ (∀ (tube : BitVec 16) (e : Tube) (arr : Nat) (rest : List TubeOp), Does (.epReadAnswer tube) fun a b =>
    ∀ x, x = tube.toNat → ∀ t, t = tubeTwin x → storesWf a = true → live a t = true → tubeOf a x = e →
    e.ops = .rdTx arr :: rest → (sendOf a (txKeyOf e)).wr = arr →
      tubeOf b x = { e with ops := .wrDis :: rest }
        ∧ b.out = [.nocWrite t (epAddr a t e.rx e.rxSlot 1) [tubeWord0 e, tubeWord1 e]]
        ∧ (∀ y, y ≠ x % 32768 → mapGet {} (tw b t).office.tubes y = mapGet {} (tw a t).office.tubes y)
        ∧ changesOnly [.office t, .out] a b)
  ∧ (∀ (tube : BitVec 16) (e : Tube) (arr : Nat) (rest : List TubeOp), Does (.epReadAnswer tube) fun a b =>
    ∀ x, x = tube.toNat → ∀ t, t = tubeTwin x → storesWf a = true → live a t = true → tubeOf a x = e →
    e.ops = .rdTx arr :: rest → (sendOf a (txKeyOf e)).wr ≠ arr →
      tubeOf b x = { e with ops := .rdRx :: rest } ∧ b.out = [.nocRead t (epAddr a t e.rx e.rxSlot 1) 64]
        ∧ (∀ y, y ≠ x % 32768 → mapGet {} (tw b t).office.tubes y = mapGet {} (tw a t).office.tubes y)
        ∧ changesOnly [.office t, .out] a b)
  ∧ (∀ (tube : BitVec 16) (e : Tube), Does (.tubeIo tube) fun a b =>
    ∀ x, x = tube.toNat → ∀ t, t = tubeTwin x → storesWf a = true → live a t = true → tubeOf a x = e →
    e.ops = [.wrClose] → e.busy = true → (ctxOf a e.ctx).st = .opened →
      tubeOf b x = {} ∧ recvOf b (rxKeyOf e) = {} ∧ (sendOf b (txKeyOf e)).live = false
        ∧ (ctxOf b e.ctx).tubeStat = (Config.freeTubeStatus x).toNat ∧ (ctxOf b e.ctx).tubeBusy = false
        ∧ (ctxOf b e.ctx).st = .fenced ∧ (ctxOf b e.ctx).faultStat = faultWord t 0x80 0
        ∧ (tw b t).office.lastFault = lastWord 0x80 e.ctx + x % 65536
        ∧ (∀ y, y ≠ x % 32768 → mapGet {} (tw b t).office.tubes y = mapGet {} (tw a t).office.tubes y)
        ∧ changesOnly [.obs t, .ctxTws t, .office t, .faultQ t, .ctrlIn t, .ctrlIn (partner t), .ctxs, .sendEps, .recvEps, .freeze, .work, .out, .errs, .ctrs] a b)

/-- R264 to R266, R268 to R270, R280: messages through a Tube's endpoints. TX_SEND answers CLOSED, WRONG_CTX, BUSY,
BAD_SRC or NOCREDIT, tested in that order (the model's choice, log entry 39), and sends nothing, or puts in flight a
pad to the ring's end where the message does not fit before it, and its beats, TYPE and length in the first word; it
takes their credits and stays busy until the source has been copied. A beat lands in the ring at the arrival pointer;
one of a dropped or freed message is freed as it lands and its credit returned. RX_MBOX takes the next message
available and frees the one before it and a pad that then lies at the head, or sets UNDERRUN; DONE and DROP free the
beats of the current one that have landed, a pad behind them, and the rest as they land. Credits that arrive are added
to the sender's. A command at a cluster whose clock is stopped has no effect (the model's choice, log entry 35). -/
def Obligations.TubeMessagesFlow : Prop :=
  (∀ (tag : CtxId) (e : EngineId) (slot : BitVec 3) (len : BitVec 4) (off : BitVec 18) (beats : List Word64), Does (.txSend tag e slot len off beats) fun a b =>
    ∀ key, key = epKey e.toNat slot.toNat → storesWf a = true → clusterRuns a e.toNat = true → e.toNat ≤ 0x1FFF →
    beats.length = 4 * (len.toNat + 1) → sendResult (sendOf a key) tag.toNat (len.toNat + 1) off.toNat ≠ 0 →
      sendOf b key = { sendOf a key with
            result := if (sendOf a key).live = false then 2
              else if (sendOf a key).ctx ≠ tag.toNat then 3
              else if (sendOf a key).busy = true then 4
              else if off.toNat % 32 ≠ 0 ∨ 147456 < off.toNat + (len.toNat + 1) * 32 then 5
              else 1 }
        ∧ (∀ y, y ≠ key → sendOf b y = sendOf a y) ∧ changesOnly [.sendEps] a b)
  ∧ (∀ (tag : CtxId) (e : EngineId) (slot : BitVec 3) (len : BitVec 4) (off : BitVec 18) (beats : List Word64) (m : Nat), Does (.txSend tag e slot len off beats) fun a b =>
    ∀ key, key = epKey e.toNat slot.toNat → storesWf a = true → clusterRuns a e.toNat = true → e.toNat ≤ 0x1FFF →
    m = len.toNat + 1 → beats.length = 4 * m → sendResult (sendOf a key) tag.toNat m off.toNat = 0 →
    ∀ room, room = 2 ^ (sendOf a key).ringLog - (sendOf a key).wr % 2 ^ (sendOf a key).ringLog →
    ∀ pad, pad = (if m ≤ room then 0 else room) → ∀ ws, ws = beats.map (fun w => w.toNat) →
      sendOf b key = { sendOf a key with result := 0, busy := true, wr := (sendOf a key).wr + pad + m, credits := (sendOf a key).credits - (pad + m), sent := ((sendOf a key).sent + 1) % 65536 }
        ∧ recvOf b (sendOf a key).rxKey = { recvOf a (sendOf a key).rxKey with
            flight := (recvOf a (sendOf a key).rxKey).flight
              ++ ((if pad = 0 then [] else [{ words := [(0xF0 + (pad - 1)) * 2 ^ 56, 0, 0, 0], span := pad }])
                ++ (chunks 4 (((0x10 + (m - 1)) * 2 ^ 56 + ws.headD 0 % 2 ^ 56) :: ws.tail)).map (fun q => { words := q })) }
        ∧ (∀ y, y ≠ key → sendOf b y = sendOf a y) ∧ (∀ y, y ≠ (sendOf a key).rxKey → recvOf b y = recvOf a y)
        ∧ changesOnly [.sendEps, .recvEps] a b)
  ∧ (∀ (e : EngineId) (slot : BitVec 3) (bt : Beat) (rest : List Beat) (r : RecvEp), Does (.beatArrival e slot) fun a b =>
    ∀ key, key = epKey e.toNat slot.toNat → storesWf a = true → clusterRuns a e.toNat = true →
    (recvOf a key).flight = bt :: rest → 0 < (recvOf a key).dropping → (recvOf a key).cur = none →
    r = { recvOf a key with flight := rest, arr := (recvOf a key).arr + bt.span, dropping := (recvOf a key).dropping - 1, rd := (recvOf a key).rd + 1 } →
    ∀ p, p = padAt r r.rd →
      recvOf b key = (if p = 0 then r else { r with rd := r.rd + p, next := max r.next (r.rd + p) })
        ∧ sendOf b (recvOf a key).txKey = { sendOf a (recvOf a key).txKey with returns := (sendOf a (recvOf a key).txKey).returns ++ [1 + p] }
        ∧ (∀ y, y ≠ key → recvOf b y = recvOf a y) ∧ changesOnly [.sendEps, .recvEps] a b)
  ∧ (∀ (e : EngineId) (slot : BitVec 3) (bt : Beat) (rest : List Beat) (r : RecvEp), Does (.beatArrival e slot) fun a b =>
    ∀ key, key = epKey e.toNat slot.toNat → storesWf a = true → clusterRuns a e.toNat = true →
    (recvOf a key).flight = bt :: rest → (recvOf a key).dropping = 0 → 0 < (recvOf a key).freeing → (recvOf a key).cur = none →
    r = { recvOf a key with flight := rest, arr := (recvOf a key).arr + bt.span, ring := mapSet [] (recvOf a key).ring ((recvOf a key).arr % 2 ^ (recvOf a key).ringLog) bt.words, freeing := (recvOf a key).freeing - 1, rd := (recvOf a key).rd + 1 } →
    ∀ p, p = padAt r r.rd →
      recvOf b key = (if p = 0 then r else { r with rd := r.rd + p, next := max r.next (r.rd + p) })
        ∧ sendOf b (recvOf a key).txKey = { sendOf a (recvOf a key).txKey with returns := (sendOf a (recvOf a key).txKey).returns ++ [1 + p] }
        ∧ (∀ y, y ≠ key → recvOf b y = recvOf a y) ∧ changesOnly [.sendEps, .recvEps] a b)
  ∧ (∀ (e : EngineId) (slot : BitVec 3) (bt : Beat) (rest : List Beat) (r : RecvEp), Does (.beatArrival e slot) fun a b =>
    ∀ key, key = epKey e.toNat slot.toNat → storesWf a = true → clusterRuns a e.toNat = true →
    (recvOf a key).flight = bt :: rest → (recvOf a key).dropping = 0 → (recvOf a key).freeing = 0 →
    r = { recvOf a key with flight := rest, arr := (recvOf a key).arr + bt.span, ring := mapSet [] (recvOf a key).ring ((recvOf a key).arr % 2 ^ (recvOf a key).ringLog) bt.words } →
    (recvOf a key).cur.isSome = true ∨ padAt r r.rd = 0 →
      recvOf b key = r ∧ (∀ y, y ≠ key → recvOf b y = recvOf a y) ∧ changesOnly [.recvEps] a b)
  ∧ (∀ (e : EngineId) (slot : BitVec 3) (bt : Beat) (rest : List Beat) (r : RecvEp), Does (.beatArrival e slot) fun a b =>
    ∀ key, key = epKey e.toNat slot.toNat → storesWf a = true → clusterRuns a e.toNat = true →
    (recvOf a key).flight = bt :: rest → (recvOf a key).dropping = 0 → (recvOf a key).freeing = 0 → (recvOf a key).cur = none →
    r = { recvOf a key with flight := rest, arr := (recvOf a key).arr + bt.span, ring := mapSet [] (recvOf a key).ring ((recvOf a key).arr % 2 ^ (recvOf a key).ringLog) bt.words } →
    ∀ p, p = padAt r r.rd → 0 < p →
      recvOf b key = { r with rd := r.rd + p, next := max r.next (r.rd + p) }
        ∧ sendOf b (recvOf a key).txKey = { sendOf a (recvOf a key).txKey with returns := (sendOf a (recvOf a key).txKey).returns ++ [p] }
        ∧ (∀ y, y ≠ key → recvOf b y = recvOf a y) ∧ changesOnly [.sendEps, .recvEps] a b)
  ∧ (∀ (tag : CtxId) (e : EngineId) (slot : BitVec 3) (st m : Nat), Does (.rxMbox tag e slot) fun a b =>
    ∀ key, key = epKey e.toNat slot.toNat → storesWf a = true → clusterRuns a e.toNat = true → e.toNat ≤ 0x1FFF →
    (recvOf a key).live = true → (recvOf a key).ctx = tag.toNat →
    msgAt (recvOf a key) (recvOf a key).next = some (st, m) → (recvOf a key).cur = none →
    padAt (recvOf a key) (recvOf a key).rd = 0 →
      recvOf b key = { recvOf a key with cur := some (st, m, locator (recvOf a key) st m), next := st + m, seq := (recvOf a key).seq + 1, last := locator (recvOf a key) st m }
        ∧ b.out = [.reply (locator (recvOf a key) st m)] ∧ (∀ y, y ≠ key → recvOf b y = recvOf a y)
        ∧ changesOnly [.recvEps, .out] a b)
  ∧ (∀ (tag : CtxId) (e : EngineId) (slot : BitVec 3) (st m cs cm loc : Nat), Does (.rxMbox tag e slot) fun a b =>
    ∀ key, key = epKey e.toNat slot.toNat → storesWf a = true → clusterRuns a e.toNat = true → e.toNat ≤ 0x1FFF →
    (recvOf a key).live = true → (recvOf a key).ctx = tag.toNat →
    msgAt (recvOf a key) (recvOf a key).next = some (st, m) → (recvOf a key).cur = some (cs, cm, loc) →
    (recvOf a key).rd < cs + cm → ∀ p, p = padAt (recvOf a key) (cs + cm) →
      recvOf b key = { recvOf a key with rd := cs + cm + p, cur := some (st, m, locator (recvOf a key) st m), next := st + m, seq := (recvOf a key).seq + 1, last := locator (recvOf a key) st m }
        ∧ sendOf b (recvOf a key).txKey = { sendOf a (recvOf a key).txKey with returns := (sendOf a (recvOf a key).txKey).returns ++ [cs + cm - (recvOf a key).rd + p] }
        ∧ b.out = [.reply (locator (recvOf a key) st m)] ∧ (∀ y, y ≠ key → recvOf b y = recvOf a y)
        ∧ changesOnly [.sendEps, .recvEps, .out] a b)
  ∧ (∀ (tag : CtxId) (e : EngineId) (slot : BitVec 3), Does (.rxMbox tag e slot) fun a b =>
    ∀ key, key = epKey e.toNat slot.toNat → storesWf a = true → clusterRuns a e.toNat = true → e.toNat ≤ 0x1FFF →
    (recvOf a key).live = true → (recvOf a key).ctx = tag.toNat →
    msgAt (recvOf a key) (recvOf a key).next = none →
      recvOf b key = { recvOf a key with underrun := true } ∧ b.out = [.reply (recvOf a key).last]
        ∧ (∀ y, y ≠ key → recvOf b y = recvOf a y) ∧ changesOnly [.recvEps, .out] a b)
  ∧ (∀ (tag : CtxId) (e : EngineId) (slot : BitVec 3) (st m loc : Nat) (r : RecvEp), Does (.rxDone tag e slot) fun a b =>
    ∀ key, key = epKey e.toNat slot.toNat → storesWf a = true → clusterRuns a e.toNat = true →
    (recvOf a key).live = true → (recvOf a key).ctx = tag.toNat → (recvOf a key).cur = some (st, m, loc) →
    ∀ n, n = min m ((recvOf a key).arr - st) → 0 < n →
    r = { recvOf a key with cur := none, rd := st + n, freeing := m - n } → ∀ p, p = padAt r r.rd →
      recvOf b key = (if p = 0 then r else { r with rd := r.rd + p, next := max r.next (r.rd + p) })
        ∧ sendOf b (recvOf a key).txKey = { sendOf a (recvOf a key).txKey with returns := (sendOf a (recvOf a key).txKey).returns ++ [n + p] }
        ∧ (∀ y, y ≠ key → recvOf b y = recvOf a y) ∧ changesOnly [.sendEps, .recvEps] a b)
  ∧ (∀ (tag : CtxId) (e : EngineId) (slot : BitVec 3) (st m loc : Nat) (r : RecvEp), Does (.rxDrop tag e slot) fun a b =>
    ∀ key, key = epKey e.toNat slot.toNat → storesWf a = true → clusterRuns a e.toNat = true →
    (recvOf a key).live = true → (recvOf a key).ctx = tag.toNat → (recvOf a key).cur = some (st, m, loc) →
    ∀ n, n = min m ((recvOf a key).arr - st) → 0 < n →
    r = { recvOf a key with cur := none, rd := st + n, dropping := m - n } → ∀ p, p = padAt r r.rd →
      recvOf b key = (if p = 0 then r else { r with rd := r.rd + p, next := max r.next (r.rd + p) })
        ∧ sendOf b (recvOf a key).txKey = { sendOf a (recvOf a key).txKey with returns := (sendOf a (recvOf a key).txKey).returns ++ [n + p] }
        ∧ (∀ y, y ≠ key → recvOf b y = recvOf a y) ∧ changesOnly [.sendEps, .recvEps] a b)
  ∧ (∀ (e : EngineId) (slot : BitVec 3) (n : Nat) (rest : List Nat), Does (.creditReturn e slot) fun a b =>
    ∀ key, key = epKey e.toNat slot.toNat → storesWf a = true → clusterRuns a e.toNat = true →
    (sendOf a key).returns = n :: rest →
      sendOf b key = { sendOf a key with returns := rest, credits := (sendOf a key).credits + n }
        ∧ (∀ y, y ≠ key → sendOf b y = sendOf a y) ∧ changesOnly [.sendEps] a b)
  ∧ (∀ (e : EngineId) (slot : BitVec 3), Does (.sourceCopyEnd e slot) fun a b =>
    ∀ key, key = epKey e.toNat slot.toNat → storesWf a = true → clusterRuns a e.toNat = true →
    (sendOf a key).busy = true →
      sendOf b key = { sendOf a key with busy := false } ∧ (∀ y, y ≠ key → sendOf b y = sendOf a y)
        ∧ changesOnly [.sendEps] a b)
  ∧ (∀ (tag : CtxId) (e : EngineId) (slot : BitVec 3) (len : BitVec 4) (off : BitVec 18) (beats : List Word64) (c : Instr), Does (c) fun a b =>
    clusterRuns a e.toNat = false →
    c ∈ [.txSend tag e slot len off beats, .rxMbox tag e slot, .rxDone tag e slot, .rxDrop tag e slot, .beatArrival e slot, .creditReturn e slot, .sourceCopyEnd e slot] →
      b = a)

/-- R271 to R279: the commands on Bowls and their puts. OPEN makes the entry from the data registers, IDLE, or answers
the status of the first check it fails (that the first one decides is the model's choice, log entry 32) and leaves the
entry; CLOSE frees it, and drops and counts the puts that wait; RESET abandons a running round, whatever its epoch;
QUERY copies the entry into the data registers. A put of a FREE or FAULTED Bowl is dropped and counted; a put of
another putter than a tile has its header read at once, a tile's waits for a flush of its cluster. -/
def Obligations.BowlCommandsAndPuts : Prop :=
  (∀ (src : Requester) (ctx : CtxId), Does (.bowlOpen src ctx) fun a b =>
    ∀ k, k = ctx.toNat → ∀ x, x = bowlSelOf a k → ∀ t, t = bowlTwin x → storesWf a = true →
    served a src (ctxKey k) = true → officeTakes a k false false = true → inBowlRange a k x = true →
    (bowlOf a x).st = .free → (newBowl a k).selected = false → 1 ≤ (newBowl a k).pendMax →
    poolReserved a t + (newBowl a k).pendMax ≤ 4096 →
      (tw b t).office = { (tw a t).office with bowls := mapSet {} (tw a t).office.bowls (x % 512) (newBowl a k) } ∧ ctxOf b k = { ctxOf a k with bowlStat := 0 }
        ∧ ctr b (twKey t tubeP) 0x40 = satAdd ctrMax (ctr a (twKey t tubeP) 0x40) 1
        ∧ (∀ j, j ≠ k → ctxOf b j = ctxOf a j)
        ∧ changesOnly [.office t, .ctxs, .ctrs] a b)
  ∧ (∀ (src : Requester) (ctx : CtxId) (st : Nat), Does (.bowlOpen src ctx) fun a b =>
    ∀ k, k = ctx.toNat → ∀ x, x = bowlSelOf a k → storesWf a = true →
    served a src (ctxKey k) = true → officeTakes a k false false = true →
    (inBowlRange a k x = false ∧ st = 1)
      ∨ (inBowlRange a k x = true ∧ (bowlOf a x).st ≠ .free ∧ st = 2)
      ∨ (inBowlRange a k x = true ∧ (bowlOf a x).st = .free ∧ (newBowl a k).selected = true
        ∧ ((newBowl a k).qmask = 0 ∨ (newBowl a k).quarter < 1 ∨ 1024 < (newBowl a k).quarter) ∧ st = 5)
      ∨ (inBowlRange a k x = true ∧ (bowlOf a x).st = .free ∧ (newBowl a k).selected = false
        ∧ ((newBowl a k).pendMax < 1 ∨ 4096 < poolReserved a (bowlTwin x) + (newBowl a k).pendMax) ∧ st = 8) →
      ctxOf b k = { ctxOf a k with bowlStat := st } ∧ (∀ j, j ≠ k → ctxOf b j = ctxOf a j) ∧ changesOnly [.ctxs] a b)
  ∧ (∀ (src : Requester) (ctx : CtxId), Does (.bowlClose src ctx) fun a b =>
    ∀ k, k = ctx.toNat → ∀ x, x = bowlSelOf a k → ∀ t, t = bowlTwin x → storesWf a = true →
    served a src (ctxKey k) = true → officeTakes a k false false = true → inBowlRange a k x = true →
    (bowlOf a x).st ≠ .free → (bowlOf a x).ctx = k → (bowlOf a x).puts = [] →
      (tw b t).office = { (tw a t).office with bowls := mapSet {} (tw a t).office.bowls (x % 512) {} } ∧ ctxOf b k = { ctxOf a k with bowlStat := 0 }
        ∧ ctr b (twKey t tubeP) 0x48 = satAdd ctrMax (ctr a (twKey t tubeP) 0x48) 1
        ∧ (∀ j, j ≠ k → ctxOf b j = ctxOf a j)
        ∧ changesOnly [.office t, .ctxs, .ctrs] a b)
  ∧ (∀ (src : Requester) (ctx : CtxId), Does (.bowlClose src ctx) fun a b =>
    ∀ k, k = ctx.toNat → ∀ x, x = bowlSelOf a k → ∀ t, t = bowlTwin x → storesWf a = true →
    served a src (ctxKey k) = true → officeTakes a k false false = true → inBowlRange a k x = true →
    (bowlOf a x).st ≠ .free → (bowlOf a x).ctx = k → (bowlOf a x).puts ≠ [] →
      (tw b t).office = { (tw a t).office with bowls := mapSet {} (tw a t).office.bowls (x % 512) {} } ∧ ctxOf b k = { ctxOf a k with bowlStat := 0 }
        ∧ ctr b (twKey t tubeP) 0x70 = satAdd ctrMax (ctr a (twKey t tubeP) 0x70) (bowlOf a x).puts.length
        ∧ (pageOf b (twKey t tubeP)).errStat = (pageOf a (twKey t tubeP)).errStat ||| 2 ^ 3
        ∧ changesOnly [.office t, .ctxs, .errs, .ctrs] a b)
  ∧ (∀ (src : Requester) (ctx : CtxId) (c : Instr), Does c fun a b =>
    c = .bowlClose src ctx ∨ c = .bowlReset src ctx → ∀ k, k = ctx.toNat → ∀ x, x = bowlSelOf a k → storesWf a = true →
    served a src (ctxKey k) = true → officeTakes a k false false = true → inBowlRange a k x = true →
    (bowlOf a x).st = .free ∨ (bowlOf a x).ctx ≠ k →
      ctxOf b k = { ctxOf a k with bowlStat := 6 } ∧ (∀ j, j ≠ k → ctxOf b j = ctxOf a j) ∧ changesOnly [.ctxs] a b)
  ∧ (∀ (src : Requester) (ctx : CtxId), Does (.bowlReset src ctx) fun a b =>
    ∀ k, k = ctx.toNat → ∀ x, x = bowlSelOf a k → ∀ t, t = bowlTwin x → storesWf a = true →
    served a src (ctxKey k) = true → officeTakes a k false false = true → inBowlRange a k x = true →
    (bowlOf a x).st = .starting ∨ (bowlOf a x).st = .mixing → (bowlOf a x).ctx = k → (bowlOf a x).puts = [] →
      (tw b t).office = { (tw a t).office with bowls := mapSet {} (tw a t).office.bowls (x % 512) { bowlOf a x with st := .idle, expected := [], pend := [], commits := [], adding := false, writing := false } }
        ∧ ctxOf b k = { ctxOf a k with bowlStat := 0 }
        ∧ (∀ j, j ≠ k → ctxOf b j = ctxOf a j)
        ∧ changesOnly [.office t, .ctxs] a b)
  ∧ (∀ (src : Requester) (ctx : CtxId), Does (.bowlQuery src ctx) fun a b =>
    ∀ k, k = ctx.toNat → ∀ x, x = bowlSelOf a k → storesWf a = true →
    served a src (ctxKey k) = true → officeTakes a k true false = true → inBowlRange a k x = true →
      [reg b (ctxKey k) 0x338, reg b (ctxKey k) 0x340, reg b (ctxKey k) 0x348, reg b (ctxKey k) 0x350]
          = bowlWords (bowlOf a x)
        ∧ (∀ o, o ≠ 0x338 → o ≠ 0x340 → o ≠ 0x348 → o ≠ 0x350 → reg b (ctxKey k) o = reg a (ctxKey k) o)
        ∧ ctxOf b k = { ctxOf a k with bowlStat := 0 } ∧ (∀ j, j ≠ k → ctxOf b j = ctxOf a j)
        ∧ changesOnly [.ctxs, .regs] a b)
  ∧ (∀ (src : Requester) (t : TwinId) (put : Word64), Does (.bowlPut src t put) fun a b =>
    ∀ x, x = twinNum t * 512 + fld put.toNat 63 55 → storesWf a = true → putServed a src t = true →
    (bowlOf a x).st = .free ∨ (bowlOf a x).st = .faulted →
      ctr b (twKey t tubeP) 0x58 = satAdd ctrMax (ctr a (twKey t tubeP) 0x58) 1
        ∧ ctr b (twKey t tubeP) 0x70 = satAdd ctrMax (ctr a (twKey t tubeP) 0x70) 1
        ∧ (pageOf b (twKey t tubeP)).errStat = (pageOf a (twKey t tubeP)).errStat ||| 2 ^ 3
        ∧ changesOnly [.errs, .ctrs] a b)
  ∧ (∀ (src : Requester) (t : TwinId) (put : Word64), Does (.bowlPut src t put) fun a b =>
    ∀ x, x = twinNum t * 512 + fld put.toNat 63 55 → storesWf a = true → putServed a src t = true →
    (bowlOf a x).st = .idle ∨ (bowlOf a x).st = .mixing → (bowlOf a x).puts = [] → (bowlOf a x).reading = false →
    (bowlOf a x).flushId = none → 0x1FFF < fld put.toNat 45 32 →
      (tw b t).office = { (tw a t).office with bowls := mapSet {} (tw a t).office.bowls (x % 512) { bowlOf a x with puts := [put.toNat], reading := true } }
        ∧ b.out = [.nocRead t ((bowlOf a x).blockBase * 4096 + (put.toNat % 65536) * 256) 64]
        ∧ ctr b (twKey t tubeP) 0x58 = satAdd ctrMax (ctr a (twKey t tubeP) 0x58) 1
        ∧ changesOnly [.office t, .out, .ctrs] a b)
  ∧ (∀ (src : Requester) (t : TwinId) (put : Word64), Does (.bowlPut src t put) fun a b =>
    ∀ x, x = twinNum t * 512 + fld put.toNat 63 55 → storesWf a = true → putServed a src t = true →
    (bowlOf a x).st = .idle ∨ (bowlOf a x).st = .mixing →
    (bowlOf a x).reading = true ∨ (bowlOf a x).flushId.isSome = true →
      (tw b t).office = { (tw a t).office with bowls := mapSet {} (tw a t).office.bowls (x % 512) { bowlOf a x with puts := (bowlOf a x).puts ++ [put.toNat] } } ∧ b.out = []
        ∧ ctr b (twKey t tubeP) 0x58 = satAdd ctrMax (ctr a (twKey t tubeP) 0x58) 1
        ∧ changesOnly [.office t, .ctrs] a b)

/-- R273 to R275, R283: rounds of a Mixing Bowl. A contribution that arrives while the Bowl is IDLE is held; one of
another epoch than the context's current one is dropped as stale; a header of another TYPE faults the context with
BAD_BLOCK and puts the Bowl in FAULTED; a START of an IDLE Bowl of EXPECT COUNTED begins the round with NEXT its
lowest lane, the result lines written with zeros first where INIT is ZERO, and one of EXPECT SELECTED reads the
selection area; a contribution of NEXT's lane, none pending, is committed: its block and its result elements are read,
once no earlier one has been added and written (one contribution after another, as with what a faulty access leaves of
the round, is the model's choice, log entry 41); the LAST one of the lane moves NEXT to the next expected lane and
commits what that lane has pending; the elements are added and written back, no byte past them; a SELECTED round takes
its lanes from the selection area, whose EPOCH and CONTEXT must be the START's; the round ends, back to IDLE, once no
lane is expected and its last write is acknowledged; an access that returns an error is BOWL_IO. -/
def Obligations.BowlRoundsRun : Prop :=
  (∀ (bowl : BitVec 10) (header : List Word64) (p : Nat) (e : Bowl) (h : List Nat), Does (.blockHeaderRead bowl header) fun a b =>
    ∀ x, x = bowl.toNat → ∀ t, t = bowlTwin x → storesWf a = true → live a t = true → bowlOf a x = e →
    h = header.map (·.toNat) → e.puts = [p] → e.reading = true → e.flushId = none → e.st = .idle →
    fld (h.getD 0 0) 55 48 = e.ctx → fld (h.getD 0 0) 63 56 = 0xB2 → fld (h.getD 0 0) 31 24 = fld p 54 47 →
    fld (h.getD 0 0) 16 0 ≠ 0 → fld (h.getD 1 0) 15 0 + fld (h.getD 0 0) 16 0 ≤ e.elems + 1 → e.epochChk = false →
    e.pend.length < e.pendMax →
      (tw b t).office = { (tw a t).office with bowls := mapSet {} (tw a t).office.bowls (x % 512) { e with puts := [], reading := false, pend := e.pend ++ [{ block := p % 65536, lane := fld p 54 47, isLast := bitOf p 46, epoch := fld (h.getD 0 0) 47 32, bf16 := bitOf (h.getD 0 0) 19, off := fld (h.getD 1 0) 15 0, count := fld (h.getD 0 0) 16 0 }] } }
        ∧ changesOnly [.office t] a b)
  ∧ (∀ (bowl : BitVec 10) (header : List Word64) (p : Nat) (e : Bowl) (h : List Nat), Does (.blockHeaderRead bowl header) fun a b =>
    ∀ x, x = bowl.toNat → ∀ t, t = bowlTwin x → storesWf a = true → live a t = true → bowlOf a x = e →
    h = header.map (·.toNat) → e.puts = [p] → e.reading = true → e.flushId = none → e.st = .idle →
    fld (h.getD 0 0) 55 48 = e.ctx → fld (h.getD 0 0) 63 56 = 0xB2 → fld (h.getD 0 0) 31 24 = fld p 54 47 →
    fld (h.getD 0 0) 16 0 ≠ 0 → fld (h.getD 1 0) 15 0 + fld (h.getD 0 0) 16 0 ≤ e.elems + 1 → e.epochChk = true →
    fld (h.getD 0 0) 47 32 ≠ (ctxOf a e.ctx).epoch →
      (tw b t).office = { (tw a t).office with bowls := mapSet {} (tw a t).office.bowls (x % 512) { e with puts := [], reading := false } }
        ∧ ctr b (twKey t tubeP) 0x68 = satAdd ctrMax (ctr a (twKey t tubeP) 0x68) 1
        ∧ (pageOf b (twKey t tubeP)).errStat = (pageOf a (twKey t tubeP)).errStat ||| 2 ^ 3
        ∧ changesOnly [.office t, .errs, .ctrs] a b)
  ∧ (∀ (bowl : BitVec 10) (header : List Word64) (p : Nat) (e : Bowl) (h : List Nat), Does (.blockHeaderRead bowl header) fun a b =>
    ∀ x, x = bowl.toNat → ∀ t, t = bowlTwin x → storesWf a = true → live a t = true → bowlOf a x = e →
    h = header.map (·.toNat) → e.puts = [p] → e.reading = true → e.flushId = none → e.st = .idle →
    fld (h.getD 0 0) 55 48 = e.ctx → fld (h.getD 0 0) 63 56 ≠ 0xB2 → fld (h.getD 0 0) 63 56 ≠ 0xB3 →
    (ctxOf a e.ctx).st = .opened →
      (tw b t).office = { (tw a t).office with bowls := mapSet {} (tw a t).office.bowls (x % 512) { e with puts := [], reading := false, st := .faulted, commits := [], adding := false }, lastFault := lastWord 0x82 e.ctx + 2 ^ 16 + x % 65536 }
        ∧ (ctxOf b e.ctx).st = .fenced ∧ (ctxOf b e.ctx).faultStat = faultWord t 0x82 0
        ∧ (pageOf b (twKey t tubeP)).errStat = (pageOf a (twKey t tubeP)).errStat ||| 2 ^ 3 ||| 2 ^ 2
        ∧ changesOnly [.obs t, .ctxTws t, .office t, .faultQ t, .ctrlIn t, .ctrlIn (partner t), .ctxs, .freeze, .work, .out, .errs, .ctrs] a b)
  ∧ (∀ (bowl : BitVec 10) (header : List Word64) (p : Nat) (e : Bowl) (h : List Nat), Does (.blockHeaderRead bowl header) fun a b =>
    ∀ x, x = bowl.toNat → ∀ t, t = bowlTwin x → storesWf a = true → live a t = true → bowlOf a x = e →
    h = header.map (·.toNat) → e.puts = [p] → e.reading = true → e.flushId = none → e.st = .idle →
    fld (h.getD 0 0) 55 48 = e.ctx → fld (h.getD 0 0) 63 56 = 0xB3 →
    fld (h.getD 1 0) 15 0 + fld (h.getD 0 0) 16 0 ≤ e.elems + 1 → e.epochChk = false → e.keep = true →
    e.selected = false → e.pend = [] → e.lanes ≠ 0 →
      (tw b t).office = { (tw a t).office with bowls := mapSet {} (tw a t).office.bowls (x % 512) { e with puts := [], reading := false, st := .mixing, epoch := fld (h.getD 0 0) 47 32, writing := false, adding := false, commits := [], expected := List.range e.lanes, next := 0 } }
        ∧ changesOnly [.office t] a b)
  ∧ (∀ (bowl : BitVec 10) (header : List Word64) (p : Nat) (e : Bowl) (h : List Nat) (c : Contrib), Does (.blockHeaderRead bowl header) fun a b =>
    ∀ x, x = bowl.toNat → ∀ t, t = bowlTwin x → storesWf a = true → live a t = true → bowlOf a x = e →
    h = header.map (·.toNat) → e.puts = [p] → e.reading = true → e.flushId = none → e.st = .mixing →
    c = { block := p % 65536, lane := fld p 54 47, isLast := false, epoch := fld (h.getD 0 0) 47 32, bf16 := bitOf (h.getD 0 0) 19, off := fld (h.getD 1 0) 15 0, count := fld (h.getD 0 0) 16 0 } →
    fld (h.getD 0 0) 55 48 = e.ctx → fld (h.getD 0 0) 63 56 = 0xB2 → fld (h.getD 0 0) 31 24 = c.lane → c.count ≠ 0 →
    c.off + c.count ≤ e.elems + 1 → e.epochChk = false → bitOf p 46 = false →
    e.expected.head? = some c.lane → (∀ q ∈ e.pend, q.lane ≠ c.lane) → e.commits = [] → e.adding = false →
    e.writing = false →
      (tw b t).office = { (tw a t).office with bowls := mapSet {} (tw a t).office.bowls (x % 512) { e with puts := [], reading := false, commits := [c], adding := true } }
        ∧ b.out = [.nocRead t (e.blockBase * 4096 + c.block * 256 + 64) (c.count * elemSize c.bf16), .nocRead t (e.result * 64 + c.off * elemSize e.bf16) (c.count * elemSize e.bf16)]
        ∧ changesOnly [.office t, .out] a b)
  ∧ (∀ (bowl : BitVec 10) (header : List Word64) (p : Nat) (e : Bowl) (h : List Nat) (c : Contrib), Does (.blockHeaderRead bowl header) fun a b =>
    ∀ x, x = bowl.toNat → ∀ t, t = bowlTwin x → storesWf a = true → live a t = true → bowlOf a x = e →
    h = header.map (·.toNat) → e.puts = [p] → e.reading = true → e.flushId = none → e.st = .mixing →
    c = { block := p % 65536, lane := fld p 54 47, isLast := false, epoch := fld (h.getD 0 0) 47 32, bf16 := bitOf (h.getD 0 0) 19, off := fld (h.getD 1 0) 15 0, count := fld (h.getD 0 0) 16 0 } →
    fld (h.getD 0 0) 55 48 = e.ctx → fld (h.getD 0 0) 63 56 = 0xB2 → fld (h.getD 0 0) 31 24 = c.lane → c.count ≠ 0 →
    c.off + c.count ≤ e.elems + 1 → e.epochChk = false → bitOf p 46 = false →
    e.expected.head? = some c.lane → (∀ q ∈ e.pend, q.lane ≠ c.lane) → e.adding = true ∨ e.writing = true →
      (tw b t).office = { (tw a t).office with bowls := mapSet {} (tw a t).office.bowls (x % 512) { e with puts := [], reading := false, commits := e.commits ++ [c] } }
        ∧ b.out = [] ∧ changesOnly [.office t] a b)
  ∧ (∀ (bowl : BitVec 10) (header : List Word64) (p : Nat) (e : Bowl) (h : List Nat) (c : Contrib) (n : Nat) (rest : List Nat) (qs : List Contrib), Does (.blockHeaderRead bowl header) fun a b =>
    ∀ x, x = bowl.toNat → ∀ t, t = bowlTwin x → storesWf a = true → live a t = true → bowlOf a x = e →
    h = header.map (·.toNat) → e.puts = [p] → e.reading = true → e.flushId = none → e.st = .mixing →
    c = { block := p % 65536, lane := fld p 54 47, isLast := true, epoch := fld (h.getD 0 0) 47 32, bf16 := bitOf (h.getD 0 0) 19, off := fld (h.getD 1 0) 15 0, count := fld (h.getD 0 0) 16 0 } →
    fld (h.getD 0 0) 55 48 = e.ctx → fld (h.getD 0 0) 63 56 = 0xB2 → fld (h.getD 0 0) 31 24 = c.lane → c.count ≠ 0 →
    c.off + c.count ≤ e.elems + 1 → e.epochChk = false → bitOf p 46 = true →
    e.expected = c.lane :: n :: rest → (∀ q ∈ e.pend, q.lane ≠ c.lane) → e.adding = true ∨ e.writing = true →
    qs = e.pend.filter (fun q => q.lane == n) → (∀ q ∈ qs, q.isLast = false) →
      (tw b t).office = { (tw a t).office with bowls := mapSet {} (tw a t).office.bowls (x % 512) { e with
            puts := []
            reading := false
            expected := n :: rest
            next := n
            commits := e.commits ++ c :: qs
            pend := e.pend.filter (fun q => q.lane != n) } }
        ∧ b.out = [] ∧ changesOnly [.office t] a b)
  ∧ (∀ (bowl : BitVec 10) (header : List Word64) (p : Nat) (e : Bowl) (h : List Nat), Does (.blockHeaderRead bowl header) fun a b =>
    ∀ x, x = bowl.toNat → ∀ t, t = bowlTwin x → storesWf a = true → live a t = true → bowlOf a x = e →
    h = header.map (·.toNat) → e.puts = [p] → e.reading = true → e.flushId = none → e.st = .idle →
    fld (h.getD 0 0) 55 48 = e.ctx → fld (h.getD 0 0) 63 56 = 0xB3 →
    fld (h.getD 1 0) 15 0 + fld (h.getD 0 0) 16 0 ≤ e.elems + 1 → e.epochChk = false → e.keep = false →
    e.selected = false → e.pend = [] → e.lanes ≠ 0 →
      (tw b t).office = { (tw a t).office with bowls := mapSet {} (tw a t).office.bowls (x % 512) { e with puts := [], reading := false, st := .mixing, epoch := fld (h.getD 0 0) 47 32, writing := true, adding := false, commits := [], expected := List.range e.lanes, next := 0 } }
        ∧ b.out = (List.range (((e.elems + 1) * elemSize e.bf16 + 63) / 64)).map (fun i => .nocWrite t (e.result * 64 + 64 * i) (List.replicate 8 0))
        ∧ changesOnly [.office t, .out] a b)
  ∧ (∀ (bowl : BitVec 10) (header : List Word64) (p : Nat) (e : Bowl) (h : List Nat), Does (.blockHeaderRead bowl header) fun a b =>
    ∀ x, x = bowl.toNat → ∀ t, t = bowlTwin x → storesWf a = true → live a t = true → bowlOf a x = e →
    h = header.map (·.toNat) → e.puts = [p] → e.reading = true → e.flushId = none → e.st = .idle →
    fld (h.getD 0 0) 55 48 = e.ctx → fld (h.getD 0 0) 63 56 = 0xB3 →
    fld (h.getD 1 0) 15 0 + fld (h.getD 0 0) 16 0 ≤ e.elems + 1 → e.epochChk = false → e.keep = true → e.selected = true →
      (tw b t).office = { (tw a t).office with bowls := mapSet {} (tw a t).office.bowls (x % 512) { e with puts := [], reading := false, st := .starting, epoch := fld (h.getD 0 0) 47 32, writing := false, adding := false, commits := [] } }
        ∧ b.out = [.nocRead t (fld (h.getD 2 0) 47 0) 192] ∧ changesOnly [.office t, .out] a b)
  ∧ (∀ (bowl : BitVec 10) (header : List Word64) (counts : List (BitVec 16)) (e : Bowl) (h : List Nat) (n : Nat) (rest : List Nat),
    Does (.selectionRead bowl header counts) fun a b =>
    ∀ x, x = bowl.toNat → ∀ t, t = bowlTwin x → storesWf a = true → live a t = true → bowlOf a x = e →
    h = header.map (·.toNat) → e.st = .starting → fld (h.getD 0 0) 63 48 = e.epoch → fld (h.getD 0 0) 47 40 = e.ctx →
    e.pend = [] → e.puts = [] → selectedLanes e (counts.map (·.toNat)) = n :: rest →
      (tw b t).office = { (tw a t).office with bowls := mapSet {} (tw a t).office.bowls (x % 512) { e with st := .mixing, expected := n :: rest, next := n } }
        ∧ changesOnly [.office t] a b)
  ∧ (∀ (bowl : BitVec 10) (header : List Word64) (counts : List (BitVec 16)) (e : Bowl) (h : List Nat),
    Does (.selectionRead bowl header counts) fun a b =>
    ∀ x, x = bowl.toNat → ∀ t, t = bowlTwin x → storesWf a = true → live a t = true → bowlOf a x = e →
    h = header.map (·.toNat) → e.st = .starting → fld (h.getD 0 0) 63 48 ≠ e.epoch ∨ fld (h.getD 0 0) 47 40 ≠ e.ctx →
    (ctxOf a e.ctx).st = .opened →
      (tw b t).office = { (tw a t).office with bowls := mapSet {} (tw a t).office.bowls (x % 512) { e with st := .faulted, puts := [], flushId := none, reading := false, commits := [], adding := false }, lastFault := lastWord 0x84 e.ctx + 2 ^ 16 + x % 65536 }
        ∧ (ctxOf b e.ctx).st = .fenced ∧ (ctxOf b e.ctx).faultStat = faultWord t 0x84 0
        ∧ changesOnly [.obs t, .ctxTws t, .office t, .faultQ t, .ctrlIn t, .ctrlIn (partner t), .ctxs, .freeze, .work, .out, .errs, .ctrs] a b)
  ∧ (∀ (bowl : BitVec 10) (block result : List Word32) (e : Bowl) (c : Contrib) (rest : List Contrib),
    Does (.blockDataRead bowl block result) fun a b =>
    ∀ x, x = bowl.toNat → ∀ t, t = bowlTwin x → storesWf a = true → live a t = true → bowlOf a x = e →
    e.commits = c :: rest → e.adding = true → c.count ≤ block.length → c.count ≤ result.length →
      (tw b t).office = { (tw a t).office with bowls := mapSet {} (tw a t).office.bowls (x % 512) { e with commits := rest, adding := false, writing := true } }
        ∧ b.out = [.nocWriteBytes t (e.result * 64 + c.off * elemSize e.bf16) (c.count * elemSize e.bf16) (packElems e.bf16 ((List.range c.count).map fun i => mixAdd e.bf16 (elemBits e.bf16 ((result.map (·.toNat)).getD i 0)) (elemBits c.bf16 ((block.map (·.toNat)).getD i 0))))]
        ∧ ctr b (twKey t tubeP) 0x60 = satAdd ctrMax (ctr a (twKey t tubeP) 0x60) 1
        ∧ changesOnly [.office t, .out, .ctrs] a b)
  ∧ (∀ (bowl : BitVec 10) (e : Bowl), Does (.resultWriteAck bowl) fun a b =>
    ∀ x, x = bowl.toNat → ∀ t, t = bowlTwin x → storesWf a = true → live a t = true → bowlOf a x = e →
    e.st = .mixing → e.writing = true → e.expected = [] → e.commits = [] → e.puts = [] →
    e.doneEn = true → homeOf e.doneNode = t →
      (tw b t).office = { (tw a t).office with bowls := mapSet {} (tw a t).office.bowls (x % 512) { e with st := .idle, writing := false } }
        ∧ b.work = a.work ++ [.item t (.credit { word := e.doneNode, ctx := e.ctx, org := 3 })]
        ∧ ctr b (twKey t tubeP) 0x78 = satAdd ctrMax (ctr a (twKey t tubeP) 0x78) 1
        ∧ changesOnly [.office t, .work, .ctrs] a b)
  ∧ (∀ (bowl : BitVec 10) (e : Bowl), Does (.bowlIo bowl) fun a b =>
    ∀ x, x = bowl.toNat → ∀ t, t = bowlTwin x → storesWf a = true → live a t = true → bowlOf a x = e →
    e.st ≠ .free → e.st ≠ .faulted → e.reading = true ∨ e.st = .starting ∨ e.commits ≠ [] ∨ e.writing = true →
    (ctxOf a e.ctx).st = .opened →
      (tw b t).office = { (tw a t).office with bowls := mapSet {} (tw a t).office.bowls (x % 512) { e with st := .faulted, puts := [], flushId := none, reading := false, commits := [], adding := false }, lastFault := lastWord 0x83 e.ctx + 2 ^ 16 + x % 65536 }
        ∧ (ctxOf b e.ctx).st = .fenced ∧ (ctxOf b e.ctx).faultStat = faultWord t 0x83 0
        ∧ changesOnly [.obs t, .ctxTws t, .office t, .faultQ t, .ctrlIn t, .ctrlIn (partner t), .ctxs, .freeze, .work, .out, .errs, .ctrs] a b)

/-- R200, R288 to R291, R303, R307: opening, closing and forcing a fault. OPEN is accepted where the context is
CLOSED, owned, has nodes in its home twin and shares nothing with a context that is not CLOSED, and answers the STATUS
of the first check that fails otherwise; its effect sets the context to OPEN with its home twin fixed and its
counters, faults, notification pointers, epoch, window selectors and Recipe window cleared. CLOSE fences an OPEN
context, clears SCRUB_FAIL and makes an entry of its home twin's fault queue, takes a DOWN context to CLOSED, and is
refused with STATUS 1 in the other states and 5 where the queue is full; FAULT raises FORCED, 0x90, for an OPEN
context and is refused for any other. CTX_CTL.CLOSE acts as CLOSE does and leaves CTX_STAT alone. -/
def Obligations.ContextsOpenAndClose : Prop :=
  (∀ (src : Requester) (home : TwinId), Does (.ctxOpen src home) fun a b =>
    ∀ k, k = ctxSel a → storesWf a = true → served a src blkKey = true → a.phase = 9 → a.mgmt.cmdBusy = false →
    (ctxOf a k).st = .closed → bitOf (ctxOf a k).owner 63 = true → rangeEn (ctxTw a home k).nodeRange = true →
    (∀ p ∈ a.ctxs, p.1 ≠ k → p.2.st ≠ .closed → shares a k p.1 = false) →
      ctxOf b k = { ctxOf a k with openPend := true, openHome := home } ∧ (∀ j, j ≠ k → ctxOf b j = ctxOf a j)
        ∧ b.mgmt = { a.mgmt with cmdBusy := true, cmdStat := 0 } ∧ changesOnly [.ctxs, .mgmt] a b)
  ∧ (∀ (src : Requester) (home : TwinId) (st : Nat) (p : Nat × Ctx), Does (.ctxOpen src home) fun a b =>
    ∀ k, k = ctxSel a → storesWf a = true → served a src blkKey = true → a.phase = 9 → a.mgmt.cmdBusy = false →
    ((ctxOf a k).st ≠ .closed ∧ st = 1)
      ∨ ((ctxOf a k).st = .closed ∧ bitOf (ctxOf a k).owner 63 = false ∧ st = 2)
      ∨ ((ctxOf a k).st = .closed ∧ bitOf (ctxOf a k).owner 63 = true ∧ rangeEn (ctxTw a home k).nodeRange = false ∧ st = 3)
      ∨ ((ctxOf a k).st = .closed ∧ bitOf (ctxOf a k).owner 63 = true ∧ rangeEn (ctxTw a home k).nodeRange = true
        ∧ p ∈ a.ctxs ∧ p.1 ≠ k ∧ p.2.st ≠ .closed ∧ shares a k p.1 = true ∧ st = 4) →
      b.mgmt = { a.mgmt with cmdBusy := false, cmdStat := st } ∧ changesOnly [.mgmt] a b)
  ∧ (∀ (ctx : CtxId), Does (.openEffect ctx) fun a b =>
    ∀ k, k = ctx.toNat → storesWf a = true → (ctxOf a k).openPend = true → (ctxOf a k).parked = [] →
      (ctxOf b k).st = .opened ∧ (ctxOf b k).home = (ctxOf a k).openHome ∧ (ctxOf b k).faultStat = 0
        ∧ (ctxOf b k).faultTime = 0 ∧ (ctxOf b k).head = 0 ∧ (ctxOf b k).tail = 0 ∧ (ctxOf b k).epoch = 0
        ∧ (ctxOf b k).nodeBank = 0 ∧ (ctxOf b k).edgeBank = 0 ∧ (ctxOf b k).lastUse = a.time
        ∧ (∀ j, j ≠ k → ctxOf b j = ctxOf a j) ∧ (∀ off, ctr b (ctxKey k) off = 0)
        ∧ (∀ j, j ≠ ctxKey k → (pageOf b j).ctrs = (pageOf a j).ctrs)
        ∧ (∀ t, ctxTw b t k = openTw (ctxTw a t k)) ∧ (∀ t j, j ≠ k → ctxTw b t j = ctxTw a t j)
        ∧ (∀ i, mapGet {} b.fmt.entries i = if i ∈ windowEntries a k then {} else mapGet {} a.fmt.entries i)
        ∧ b.fmt = { a.fmt with entries := b.fmt.entries }
        ∧ b.mgmt = { a.mgmt with cmdBusy := false, cmdStat := 0 } ∧ b.heldWrites = []
        ∧ b.work = a.work ++ a.heldWrites.map .heldWrite
        ∧ changesOnly [.ctxs, .ctxTws .t0, .ctxTws .t1, .heldWrites, .fmt, .mgmt, .work, .ctrs] a b)
  ∧ (∀ (src : Requester), Does (.ctxClose src) fun a b =>
    ∀ k, k = ctxSel a → ∀ h, h = (ctxOf a k).home → storesWf a = true → served a src blkKey = true → a.phase = 9 →
    a.mgmt.cmdBusy = false → (ctxOf a k).st = .opened → entriesHeld a h < 64 → hasEntry a h k = false →
    (ctxTw a h k).fenced = false →
      ctxOf b k = { ctxOf a k with st := .fenced, tear := .close, scrubFail := false, nodeBank := 0, edgeBank := 0 }
        ∧ (∀ j, j ≠ k → ctxOf b j = ctxOf a j) ∧ (ctxTw b h k) = { ctxTw a h k with fencePend := true }
        ∧ (∀ j, j ≠ k → ctxTw b h j = ctxTw a h j) ∧ (tw b h).faultQ = (tw a h).faultQ ++ [{ ctx := k }]
        ∧ (tw b (partner h)).ctrlIn = (tw a (partner h)).ctrlIn ++ [.fence k true]
        ∧ b.mgmt = { a.mgmt with cmdBusy := false, cmdStat := 0 }
        ∧ changesOnly [.ctxs, .ctxTws h, .faultQ h, .ctrlIn (partner h), .mgmt] a b)
  ∧ (∀ (src : Requester), Does (.ctxClose src) fun a b =>
    ∀ k, k = ctxSel a → storesWf a = true → served a src blkKey = true → a.phase = 9 → a.mgmt.cmdBusy = false →
    (ctxOf a k).st = .down →
      ctxOf b k = { ctxOf a k with st := .closed, scrubFail := false } ∧ (∀ j, j ≠ k → ctxOf b j = ctxOf a j)
        ∧ b.mgmt = { a.mgmt with cmdBusy := false, cmdStat := 0 } ∧ changesOnly [.ctxs, .mgmt] a b)
  ∧ (∀ (src : Requester) (st : Nat), Does (.ctxClose src) fun a b =>
    ∀ k, k = ctxSel a → storesWf a = true → served a src blkKey = true → a.phase = 9 → a.mgmt.cmdBusy = false →
    ((ctxOf a k).st = .opened ∧ 64 ≤ entriesHeld a (ctxOf a k).home ∧ st = 5)
      ∨ (((ctxOf a k).st = .fenced ∨ (ctxOf a k).st = .tearing ∨ (ctxOf a k).st = .closed) ∧ st = 1) →
      b.mgmt = { a.mgmt with cmdBusy := false, cmdStat := st } ∧ changesOnly [.mgmt] a b)
  ∧ (∀ (src : Requester), Does (.ctxFault src) fun a b =>
    ∀ k, k = ctxSel a → ∀ h, h = (ctxOf a k).home → storesWf a = true → served a src blkKey = true → a.phase = 9 →
    a.mgmt.cmdBusy = false → (ctxOf a k).st = .opened →
      ctxOf b k = { ctxOf a k with st := .fenced, tear := .fault, nodeBank := 0, edgeBank := 0, faultStat := faultWord h 0x90 0, faultTime := a.time }
        ∧ (∀ j, j ≠ k → ctxOf b j = ctxOf a j) ∧ b.mgmt = { a.mgmt with cmdBusy := false, cmdStat := 0 }
        ∧ changesOnly [.obs h, .ctxTws h, .faultQ h, .ctrlIn h, .ctrlIn (partner h), .ctxs, .freeze, .mgmt, .work, .out, .errs, .ctrs] a b)
  ∧ (∀ (src : Requester), Does (.ctxFault src) fun a b =>
    ∀ k, k = ctxSel a → storesWf a = true → served a src blkKey = true → a.phase = 9 → a.mgmt.cmdBusy = false →
    (ctxOf a k).st ≠ .opened →
      b.mgmt = { a.mgmt with cmdBusy := false, cmdStat := 1 } ∧ changesOnly [.mgmt] a b)
  ∧ (∀ (src : Requester) (ctx : CtxId), Does (.ctxCtlClose src ctx) fun a b =>
    ∀ k, k = ctx.toNat → ∀ h, h = (ctxOf a k).home → storesWf a = true → served a src (ctxKey k) = true →
    (ctxOf a k).st = .opened → entriesHeld a h < 64 → hasEntry a h k = false → (ctxTw a h k).fenced = false →
      ctxOf b k = { ctxOf a k with st := .fenced, tear := .close, scrubFail := false, nodeBank := 0, edgeBank := 0 }
        ∧ (∀ j, j ≠ k → ctxOf b j = ctxOf a j) ∧ (ctxTw b h k) = { ctxTw a h k with fencePend := true }
        ∧ (tw b h).faultQ = (tw a h).faultQ ++ [{ ctx := k }]
        ∧ (tw b (partner h)).ctrlIn = (tw a (partner h)).ctrlIn ++ [.fence k true]
        ∧ changesOnly [.ctxs, .ctxTws h, .faultQ h, .ctrlIn (partner h)] a b)
  ∧ (∀ (src : Requester) (ctx : CtxId), Does (.ctxCtlClose src ctx) fun a b =>
    ∀ k, k = ctx.toNat → storesWf a = true → served a src (ctxKey k) = true →
    ((ctxOf a k).st = .opened ∧ 64 ≤ entriesHeld a (ctxOf a k).home)
      ∨ (ctxOf a k).st = .fenced ∨ (ctxOf a k).st = .tearing ∨ (ctxOf a k).st = .closed → b = a)

/-- R303 to R305: fences and teardowns. The FENCE item raises the fence in the twin it reaches, and the home twin of a
faulted context takes its entry of the fault queue; the fence takes effect, and the context's deferred completions,
the one that Returns has in hand with its record, waiting FENCE nodes, parked openings and bindings are dropped. The
Archivist takes the first entry up: the context is TEARING, TEAR goes to the partner and each twin sweeps the
context's nodes; SWEPT ends the sweep; once no engine counts a task of the context, or those that do have left
service, the scrubs are started, or the step ends with SCRUB_FAIL while SCRUB_BASE.EN is 0; a scrub word that reads
bit 63 as 0 ends its unit, an error counts as not yet cleared; the last unit, or the limit with SCRUB_FAIL, ends the
teardown: DOWN after a fault, CLOSED after a CLOSE, and the entry is freed; the end writes the DOWN or CLOSED record
while the ring is enabled, and signals FAULT_VEC while FAULT_EN is set. -/
def Obligations.FencesAndTeardownsRun : Prop :=
  (∀ (t : TwinId) (k : Nat) (c : Bool) (rest : List ControlItem), Does (.fenceItem t) fun a b =>
    storesWf a = true → live a t = true → (tw a t).ctrlIn = .fence k c :: rest → (ctxOf a k).home = partner t →
    (ctxTw a t k).fenced = false →
      ctxTw b t k = { ctxTw a t k with fencePend := true } ∧ (∀ j, j ≠ k → ctxTw b t j = ctxTw a t j)
        ∧ (tw b t).ctrlIn = rest ∧ changesOnly [.ctxTws t, .ctrlIn t] a b)
  ∧ (∀ (t : TwinId) (k : Nat) (c : Bool) (rest : List ControlItem), Does (.fenceItem t) fun a b =>
    storesWf a = true → live a t = true → (tw a t).ctrlIn = .fence k c :: rest → (ctxOf a k).home = t →
    (ctxOf a k).st = .fenced → (ctxTw a t k).fenced = false → hasEntry a t k = false → entriesHeld a t < 64 →
      ctxTw b t k = { ctxTw a t k with fencePend := true } ∧ (∀ j, j ≠ k → ctxTw b t j = ctxTw a t j)
        ∧ (tw b t).faultQ = (tw a t).faultQ ++ [{ ctx := k }] ∧ (tw b t).ctrlIn = rest
        ∧ changesOnly [.ctxTws t, .ctrlIn t, .faultQ t] a b)
  ∧ (∀ (t : TwinId) (ctx : CtxId), Does (.fenceEffect t ctx) fun a b =>
    ∀ k, k = ctx.toNat → storesWf a = true → (ctxTw a t k).fencePend = true →
    (∀ d ∈ (tw a t).ret.deferred, d.ctx = k → d.holds = false) → (∀ p ∈ (tw a t).sort.slots, p.2.ctx ≠ k) →
    (∀ h, (tw a t).ret.hand = some h → h.ctx = k → h.ends = .plain) →
      ctxTw b t k = { ctxTw a t k with fenced := true, fencePend := false } ∧ (∀ j, j ≠ k → ctxTw b t j = ctxTw a t j)
        ∧ (tw b t).ret = { (tw a t).ret with
            hand := (tw a t).ret.hand.filter (fun h => h.ctx != k)
            deferred := (tw a t).ret.deferred.filter (fun d => d.ctx != k)
            fences := (tw a t).ret.fences.filter (fun f => (nodeOf a f.node).ctx != k) }
        ∧ (tw b t).sort = { (tw a t).sort with
            parked := (tw a t).sort.parked.filter (fun p => p.ctx != k), bind := (tw a t).sort.bind.filter (fun p => (mapGet {} (tw a t).cat.nodes p.1).ctx != k) }
        ∧ changesOnly [.ctxTws t, .ret t, .sort t, .work] a b)
  ∧ (∀ (t : TwinId) (k x : Nat) (e : FaultEnt) (rest : List FaultEnt) (n : Node), Does (.teardownStart t) fun a b =>
    storesWf a = true → live a t = true → serves a (partner t) = true → (tw a t).combined = [] →
    (tw a t).faultQ = e :: rest → e.step = .queued → e.ctx = k → e.others = [] → (ctxTw a t k).fenced = true →
    nodesOf a t k = [x] → x < 524288 → mapGet {} (tw a t).cat.nodes x = n → n.st = .done → n.ctx = k →
    n.wcount = false → n.locked = false → mapGet 0 (tw a t).sort.bind x = 0 →
    (∀ p ∈ (tw a t).lard.table, p.2.valid = true → p.2.ctx ≠ k) →
    (∀ p ∈ (tw a t).shelf.shards, p.2.ctx = k → p.2.st = .free) → (∀ p ∈ (tw a t).sort.slots, p.2.ctx ≠ k) →
    entriesOf a t k = [] → (∀ p ∈ (tw a t).office.tubes, p.2.ctx = k → p.2.st = .free) →
    (∀ p ∈ (tw a t).rack.lanes, ∀ c ∈ p.2.copies, c.ctx ≠ k) → (∀ p ∈ (tw a t).office.bowls, p.1 < 512) →
    (∀ p ∈ (tw a t).ctxs, ∀ c ∈ p.2.holdCopies, c.ctx ≠ k) →
      (ctxOf b k).st = .tearing ∧ (∀ j, j ≠ k → ctxOf b j = ctxOf a j)
        ∧ (tw b t).faultQ = { e with step := .sweep, swept := false } :: rest
        ∧ (tw b (partner t)).ctrlIn = (tw a (partner t)).ctrlIn ++ [.tear k] ∧ nodeOf b (nodeIdOf t x) = {}
        ∧ (∀ y, y ≠ x → mapGet {} (tw b t).cat.nodes y = mapGet {} (tw a t).cat.nodes y)
        ∧ (tw b t).office.bowls = (tw a t).office.bowls.filter (fun p => p.2.ctx != k || p.2.st == .free)
        ∧ changesOnly [.cat t, .acc t, .rack t, .shelf t, .ret t, .lard t, .sort t, .bank t, .office t, .ctxTws t, .faultQ t, .ctrlIn (partner t), .ctxs, .work, .errs, .ctrs] a b)
  ∧ (∀ (t : TwinId) (k x : Nat) (rest : List ControlItem) (n : Node), Does (.tear t) fun a b =>
    storesWf a = true → live a t = true → (tw a t).ctrlIn = .tear k :: rest → nodesOf a t k = [x] → x < 524288 →
    mapGet {} (tw a t).cat.nodes x = n → n.st = .done → n.ctx = k → n.wcount = false → n.locked = false →
    mapGet 0 (tw a t).sort.bind x = 0 → (∀ p ∈ (tw a t).lard.table, p.2.valid = true → p.2.ctx ≠ k) →
    (∀ p ∈ (tw a t).shelf.shards, p.2.ctx = k → p.2.st = .free) → (∀ p ∈ (tw a t).sort.slots, p.2.ctx ≠ k) →
    entriesOf a t k = [] → (∀ p ∈ (tw a t).office.tubes, p.2.ctx = k → p.2.st = .free) →
    (∀ p ∈ (tw a t).rack.lanes, ∀ c ∈ p.2.copies, c.ctx ≠ k) → (∀ p ∈ (tw a t).office.bowls, p.1 < 512) →
    (∀ p ∈ (tw a t).ctxs, ∀ c ∈ p.2.holdCopies, c.ctx ≠ k) →
      (tw b t).ctrlIn = rest ∧ (tw b (partner t)).ctrlIn = (tw a (partner t)).ctrlIn ++ [.swept k]
        ∧ nodeOf b (nodeIdOf t x) = {}
        ∧ (∀ y, y ≠ x → mapGet {} (tw b t).cat.nodes y = mapGet {} (tw a t).cat.nodes y)
        ∧ (tw b t).office.bowls = (tw a t).office.bowls.filter (fun p => p.2.ctx != k || p.2.st == .free)
        ∧ changesOnly [.cat t, .acc t, .rack t, .shelf t, .ret t, .lard t, .sort t, .bank t, .office t, .ctxTws t, .ctrlIn t, .ctrlIn (partner t), .ctxs, .work, .errs, .ctrs] a b)
  ∧ (∀ (t : TwinId) (k : Nat) (e : FaultEnt) (rest : List FaultEnt) (items : List ControlItem), Does (.swept t) fun a b =>
    (tw a t).halted = false → (tw a t).ctrlIn = .swept k :: items → (tw a t).faultQ = e :: rest → e.ctx = k → e.step = .sweep →
      (tw b t).faultQ = { e with swept := true, step := .wait } :: rest ∧ (tw b t).ctrlIn = items
        ∧ changesOnly [.faultQ t, .ctrlIn t] a b)
  ∧ (∀ (t : TwinId) (k : Nat) (e : FaultEnt) (rest : List FaultEnt), Does (.engineWaitEnd t) fun a b =>
    storesWf a = true → live a t = true → (tw a t).faultQ = e :: rest → e.step = .wait → e.ctx = k → e.others = [] →
    e.scrubs = [] → (∀ p ∈ a.engines, ∀ w ∈ p.2.tasks, w.ctx ≠ k) → bitOf (reg a blkKey 0x228) 63 = false →
    ringEn a k = false → bitOf (reg a (ctxKey k) 0x138) 4 = false →
      ctxOf b k = { ctxOf a k with scrubFail := true, st := if (ctxOf a k).tear = .fault then .down else .closed }
        ∧ (∀ j, j ≠ k → ctxOf b j = ctxOf a j) ∧ (tw b t).faultQ = rest ∧ changesOnly [.ctxs, .faultQ t] a b)
  ∧ (∀ (t : TwinId) (k : Nat) (e : FaultEnt) (rest : List FaultEnt) (u : ScrubUnit × Nat) (us : List (ScrubUnit × Nat)),
    Does (.engineWaitEnd t) fun a b =>
    storesWf a = true → live a t = true → (tw a t).faultQ = e :: rest → e.step = .wait → e.ctx = k → e.others = [] →
    (∀ p ∈ a.engines, ∀ w ∈ p.2.tasks, w.ctx ≠ k) → bitOf (reg a blkKey 0x228) 63 = true →
    joinUnits (ctxUnits a k) = u :: us →
      ctxOf b k = { ctxOf a k with scrubFail := false } ∧ (∀ j, j ≠ k → ctxOf b j = ctxOf a j)
        ∧ (tw b t).faultQ = { e with step := .scrub, scrubs := (u :: us).map (·.1) } :: rest
        ∧ b.out = (u :: us).map (fun v => .nocWrite t (scrubAddr a v.1) [2 ^ 63 + v.2 % 2 ^ 16])
        ∧ changesOnly [.ctxs, .faultQ t, .proof, .out] a b)
  ∧ (∀ (t : TwinId) (k : Nat) (e : FaultEnt) (rest : List FaultEnt), Does (.engineWaitLimit t) fun a b =>
    storesWf a = true → live a t = true → (tw a t).faultQ = e :: rest → e.step = .wait → e.ctx = k → e.others = [] →
      ∀ p ∈ a.engines, (∃ w ∈ p.2.tasks, w.ctx = k) → (engOf b p.1).inService = false)
  ∧ (∀ (t : TwinId) (k : Nat) (e : FaultEnt) (rest : List FaultEnt), Does (.engineWaitLimit t) fun a b =>
    storesWf a = true → live a t = true → (tw a t).faultQ = e :: rest → e.step = .wait → e.ctx = k → e.others = [] →
    e.scrubs = [] → (∀ p ∈ a.engines, ∀ w ∈ p.2.tasks, w.ctx ≠ k) → bitOf (reg a blkKey 0x228) 63 = false →
    ringEn a k = false → bitOf (reg a (ctxKey k) 0x138) 4 = false →
      ctxOf b k = { ctxOf a k with scrubFail := true, st := if (ctxOf a k).tear = .fault then .down else .closed }
        ∧ (∀ j, j ≠ k → ctxOf b j = ctxOf a j) ∧ (tw b t).faultQ = rest ∧ changesOnly [.ctxs, .faultQ t] a b)
  ∧ (∀ (t : TwinId) (k : Nat) (u : ScrubUnit) (v : Word64) (e : FaultEnt) (rest : List FaultEnt),
    Does (.scrubPoll t u (some v)) fun a b =>
    storesWf a = true → live a t = true → (tw a t).faultQ = e :: rest → e.step = .scrub → e.ctx = k → e.others = [] →
    e.scrubs = [u] → bitOf v.toNat 63 = false → ringEn a k = false → bitOf (reg a (ctxKey k) 0x138) 4 = false →
      ctxOf b k = { ctxOf a k with st := if (ctxOf a k).tear = .fault then .down else .closed }
        ∧ (∀ j, j ≠ k → ctxOf b j = ctxOf a j) ∧ (tw b t).faultQ = rest
        ∧ b.out = [.nocRead t (scrubAddr a u) 8] ∧ changesOnly [.ctxs, .faultQ t, .proof, .out] a b)
  ∧ (∀ (t : TwinId) (k : Nat) (u : ScrubUnit) (v : Word64) (e : FaultEnt) (rest : List FaultEnt),
    Does (.scrubPoll t u (some v)) fun a b =>
    storesWf a = true → live a t = true → (tw a t).faultQ = e :: rest → e.step = .scrub → e.ctx = k → e.others = [] →
    e.scrubs = [u] → bitOf v.toNat 63 = false → ringEn a k = true →
    ∀ c, c = ctxOf a k → ∀ ring, ring = reg a (ctxKey k) 0x120 → ∀ cfg, cfg = reg a (ctxKey k) 0x138 →
    ∀ vec, vec = 0x380 + 16 * fld cfg 3 0 → ∀ m, m = reg a (ctxKey k) (vec + 8) → ∀ down, down = (c.tear == .fault) →
      ctxOf b k = { c with st := if down then .down else .closed, head := (c.head + 1) % 2 ^ 32 }
        ∧ (∀ j, j ≠ k → ctxOf b j = ctxOf a j) ∧ (tw b t).faultQ = rest
        ∧ b.out = [.nocRead t (scrubAddr a u) 8,
              .hostWrite (fld ring 63 12 * 4096 + c.head % 2 ^ max 4 (fld ring 7 4) * 32)
                [(if down then 2 else 3) * 2 ^ 56 + k * 2 ^ 48
                    + (if down then fld c.faultStat 55 48 * 2 ^ 40 + fld c.faultStat 19 0 * 2 ^ 20 else 0),
                  a.time, b2n c.scrubFail * 2 ^ 8 + (if down then fld c.faultStat 47 40 else 0), c.head]]
            ++ (if bitOf cfg 4 && !(bitOf m 63) then [.hostMsg (fld (reg a (ctxKey k) vec) 63 2 * 4) (fld m 31 0)] else [])
        ∧ (∀ o, reg b (ctxKey k) o = if o = vec + 8 ∧ bitOf cfg 4 = true ∧ bitOf m 63 = true then m ||| 2 ^ 62
            else reg a (ctxKey k) o)
        ∧ ctr b (ctxKey k) 0x90 = satAdd ctrMax (ctr a (ctxKey k) 0x90) 1
        ∧ changesOnly [.ctxs, .faultQ t, .proof, .out, .regs, .ctrs] a b)
  ∧ (∀ (t : TwinId) (u : ScrubUnit) (answer : Option Word64) (e : FaultEnt) (rest : List FaultEnt),
    Does (.scrubPoll t u answer) fun a b =>
    live a t = true → (tw a t).faultQ = e :: rest → e.step = .scrub → u ∈ e.scrubs →
    (∀ v, answer = some v → bitOf v.toNat 63 = true) →
      b.out = [.nocRead t (scrubAddr a u) 8] ∧ changesOnly [.out] a b)
  ∧ (∀ (t : TwinId) (k : Nat) (e : FaultEnt) (rest : List FaultEnt), Does (.scrubLimit t) fun a b =>
    storesWf a = true → live a t = true → (tw a t).faultQ = e :: rest → e.step = .scrub → e.ctx = k → e.others = [] →
    ringEn a k = false → bitOf (reg a (ctxKey k) 0x138) 4 = false →
      ctxOf b k = { ctxOf a k with scrubFail := true, st := if (ctxOf a k).tear = .fault then .down else .closed }
        ∧ (∀ j, j ≠ k → ctxOf b j = ctxOf a j) ∧ (tw b t).faultQ = rest ∧ changesOnly [.ctxs, .faultQ t, .proof] a b)
  ∧ (∀ (t : TwinId) (ctx : CtxId) (h : Hand) (i : Nat) (r : CircRec) (c : Completion) (share : Option Nat),
      Does (.fenceEffect t ctx) fun a b =>
    storesWf a = true → (ctxTw a t ctx.toNat).fencePend = true → (tw a t).ret.deferred = [] → (tw a t).sort.slots = [] →
    (tw a t).ret.hand = some h → h.ctx = ctx.toNat → h.ends = .task i r c share →
    (tw a t).rack.keptNoRec = [] → (ctxTw a t (recOf a t i).ctx).inflHeld = false →
      (tw b t).ret.hand = none ∧ recOf b t i = {} ∧ (∀ j, j ≠ i → recOf b t j = recOf a t j)
        ∧ changesOnly [.ctxTws t, .ret t, .sort t, .desk t] a b)

/-- R285, R294 to R302: the Bake tick, the Bake Table and the notifier. At a boundary each twin in service loads LEFT
with the cap its walk computed, takes the boundary's frame position, and starts a walk for the next; a slot write
stores the slot but its reserved bits, or sets SLOT_BAD for a DOMAIN above 19 or FIRST above LAST; a NOTIFY request is
served in order: its record goes to the ring at HEAD and its vector is signalled, or it waits with the ring's error
while the ring is full; clearing MASK with PEND set sends the message; a TAIL write moves TAIL or sets TAIL_BAD; an
access a requester may not make is counted and recorded, and a read of it is answered with 0. -/
def Obligations.BakeAndNotifierAct : Prop :=
  (∀ (t : TwinId) (k d c : Nat), Does .bakeTick fun a b =>
    ∀ n, n = a.time / bakePeriod a → storesWf a = true → pendingPages a = [] → serves a t = true → k < 256 → d < 20 → c ≠ 0 →
    (∀ u, (tw a u).bake.walking = false) → (∀ u, (tw a u).ctxs = []) → (tw a t).bake.caps = [(k * 32 + d, c)] →
    (tw a (partner t)).bake.caps = [] →
      (ctxTw b t k).left = [(d, c)] ∧ (ctxTw b t k).loaded = [(d, c)] ∧ (∀ j, j ≠ k → ctxTw b t j = ctxTw a t j)
        ∧ (tw b t).bake = { (tw a t).bake with
            position := n % frameLen a, walking := true, next := 0, frame := (n + 1) % frameLen a, caps := [] }
        ∧ changesOnly [.bake t, .bake (partner t), .ctxTws t, .mgmt, .ctrs] a b)
  ∧ (∀ (src : Requester) (t : TwinId) (acc : Access) (value : Word64), Does (.bakeSlotWrite src t acc value) fun a b =>
    ∀ x, x = fld (reg a (twKey t bakeP) 0x100) 9 0 → ∀ v, v = mergeAcc (mapGet 0 (tw a t).bake.slots x) acc value.toNat →
    storesWf a = true → served a src (twKey t bakeP) = true → fld v 54 50 ≤ 19 → fld v 49 40 ≤ fld v 39 30 →
      mapGet 0 (tw b t).bake.slots x = v - fld v 29 20 * 2 ^ 20
        ∧ (∀ y, y ≠ x → mapGet 0 (tw b t).bake.slots y = mapGet 0 (tw a t).bake.slots y)
        ∧ (tw b t).bake.caps = (tw a t).bake.caps ∧ changesOnly [.bake t] a b)
  ∧ (∀ (src : Requester) (t : TwinId) (acc : Access) (value : Word64), Does (.bakeSlotWrite src t acc value) fun a b =>
    ∀ x, x = fld (reg a (twKey t bakeP) 0x100) 9 0 → ∀ v, v = mergeAcc (mapGet 0 (tw a t).bake.slots x) acc value.toNat →
    storesWf a = true → served a src (twKey t bakeP) = true → 19 < fld v 54 50 ∨ fld v 39 30 < fld v 49 40 →
      (pageOf b (twKey t bakeP)).errStat = (pageOf a (twKey t bakeP)).errStat ||| 2 ^ 1 ∧ changesOnly [.errs] a b)
  ∧ (∀ (ctx : CtxId) (r : NotifyReq) (rest : List NotifyReq), Does (.notifyRequest ctx) fun a b =>
    ∀ k, k = ctx.toNat → storesWf a = true → (ctxOf a k).notifyQ = r :: rest → unfenced a (homeOf r.node) k = true →
    ringEn a k = true → occupancy (ctxOf a k).head (ctxOf a k).tail < 2 ^ ringLog a k - 1 → bitOf r.layer 4 = false →
      b.out = [.hostWrite (fld (reg a (ctxKey k) 0x120) 63 12 * 4096 + (ctxOf a k).head % 2 ^ ringLog a k * 32)
          [2 ^ 56 + k * 2 ^ 48 + r.node * 2 ^ 20, a.time, r.desc, (ctxOf a k).head]]
        ∧ ctxOf b k = { ctxOf a k with notifyQ := rest, head := ((ctxOf a k).head + 1) % 2 ^ 32 }
        ∧ (∀ j, j ≠ k → ctxOf b j = ctxOf a j) ∧ ctr b (ctxKey k) 0x90 = satAdd ctrMax (ctr a (ctxKey k) 0x90) 1
        ∧ b.work = a.work ++ [.internalDone r.node] ∧ changesOnly [.ctxs, .out, .work, .ctrs] a b)
  ∧ (∀ (ctx : CtxId) (r : NotifyReq) (rest : List NotifyReq), Does (.notifyRequest ctx) fun a b =>
    ∀ k, k = ctx.toNat → storesWf a = true → (ctxOf a k).notifyQ = r :: rest → unfenced a (homeOf r.node) k = true →
    ringEn a k = false → bitOf r.layer 4 = true → bitOf (reg a (ctxKey k) (0x388 + 16 * fld r.layer 3 0)) 63 = false →
      b.out = [.hostMsg (fld (reg a (ctxKey k) (0x380 + 16 * fld r.layer 3 0)) 63 2 * 4)
          (fld (reg a (ctxKey k) (0x388 + 16 * fld r.layer 3 0)) 31 0)]
        ∧ ctxOf b k = { ctxOf a k with notifyQ := rest } ∧ (∀ j, j ≠ k → ctxOf b j = ctxOf a j)
        ∧ b.work = a.work ++ [.internalDone r.node] ∧ changesOnly [.ctxs, .out, .work] a b)
  ∧ (∀ (ctx : CtxId) (r : NotifyReq) (rest : List NotifyReq), Does (.notifyRequest ctx) fun a b =>
    ∀ k, k = ctx.toNat → storesWf a = true → (ctxOf a k).notifyQ = r :: rest → unfenced a (homeOf r.node) k = true →
    ringEn a k = true → 2 ^ ringLog a k - 1 ≤ occupancy (ctxOf a k).head (ctxOf a k).tail →
      (pageOf b (ctxKey k)).errStat = (pageOf a (ctxKey k)).errStat ||| 2 ^ 2 ∧ changesOnly [.errs] a b)
  ∧ (∀ (src : Requester) (ctx : CtxId) (vec : BitVec 4) (acc : Access) (value : Word64),
    Does (.msixUnmask src ctx vec acc value) fun a b =>
    ∀ k, k = ctx.toNat → ∀ off, off = 0x388 + 16 * vec.toNat → storesWf a = true → served a src (ctxKey k) = true →
    acc = .full → bitOf (reg a (ctxKey k) off) 62 = true → bitOf value.toNat 63 = false →
      b.out = [.hostMsg (fld (reg a (ctxKey k) (off - 8)) 63 2 * 4) (fld value.toNat 31 0)]
        ∧ reg b (ctxKey k) off = value.toNat % 2 ^ 32 ∧ changesOnly [.out, .regs] a b)
  ∧ (∀ (src : Requester) (ctx : CtxId) (acc : Access) (value : Word64), Does (.notifyTailWrite src ctx acc value) fun a b =>
    ∀ k, k = ctx.toNat → ∀ v, v = value.toNat % 2 ^ 32 → storesWf a = true → served a src (ctxKey k) = true →
    covers acc 0 = true → occupancy (ctxOf a k).head v ≤ 2 ^ ringLog a k →
      ctxOf b k = { ctxOf a k with tail := v } ∧ (∀ j, j ≠ k → ctxOf b j = ctxOf a j) ∧ changesOnly [.ctxs] a b)
  ∧ (∀ (src : Requester) (ctx : CtxId) (acc : Access) (value : Word64), Does (.notifyTailWrite src ctx acc value) fun a b =>
    ∀ k, k = ctx.toNat → storesWf a = true → served a src (ctxKey k) = true → covers acc 0 = true →
    2 ^ ringLog a k < occupancy (ctxOf a k).head (value.toNat % 2 ^ 32) →
      (pageOf b (ctxKey k)).errStat = (pageOf a (ctxKey k)).errStat ||| 2 ^ 3 ∧ changesOnly [.errs] a b)
  ∧ (∀ (port : BitVec 3) (fn : BitVec 8) (addr : BitVec 26) (isRead : Bool), Does (.hostAccessDenied port fn addr isRead) fun a b =>
    ∀ k off, storesWf a = true → placeOf addr.toNat = .page k off → held a (.host port fn) = false →
    gradeOf a (.host port fn) (if 256 ≤ k then some (k - 256) else none) = .denied →
      b.out = (if isRead then [.reply 0] else []) ∧ (pageOf b blkKey).errStat = (pageOf a blkKey).errStat ||| 2 ^ 1
        ∧ b.mgmt = { a.mgmt with denied := 2 ^ 63 + satAdd (2 ^ 32 - 1) (fld a.mgmt.denied 42 11) 1 * 2 ^ 11 + port.toNat % 8 * 2 ^ 8 + fn.toNat % 256 }
        ∧ changesOnly [.out, .mgmt, .errs] a b)

/-- R312, R313, R322: the words of the management cores. An ASK marks the core and goes to both Desks; a report takes
the thread the core runs to the state its outcome names and frees the core: YIELD to READY at the tail, WAIT to
WAITING or, with WAKE_PEND set, to READY, DELAY to DELAYED until DUE, PREEMPTED to READY at the head with READY_TIME
kept for a PREEMPT by level, and at the tail for one by slice, EXIT to WAITING with SAVED 0, FAULT to FAULTED; its ASK
bit then asks both Desks; a report of a thread that the core does not run sets BAD_REPORT and is ignored but for its
ASK bit, an ask from a core that runs a thread faults that thread first, and a PREEMPTED that nothing asked for is a
YIELD, both with BAD_REPORT; a WAKE goes to the thread's home Desk, where an allowed one readies a WAITING thread or
sets WAKE_PEND, and a refused one is counted and recorded. -/
def Obligations.ThreadPortWordsAct : Prop :=
  (∀ core : BitVec 3, Does (.ask core) fun a b =>
    ∀ c, c = core.toNat → storesWf a = true → a.boot.gated = false → (coreOf a c).running = none →
    (coreOf a c).inService = true → (coreOf a c).asking = false → deskAsked a .t0 = true → deskAsked a .t1 = true →
      coreOf b c = { coreOf a c with asking := true, reply0 := .awaited, reply1 := .awaited, window := false }
        ∧ (∀ n, n ≠ c → coreOf b n = coreOf a n)
        ∧ (∀ t, (tw b t).thrd = { (tw a t).thrd with deskIn := (tw a t).thrd.deskIn ++ [.ask c] })
        ∧ changesOnly [.thrd .t0, .thrd .t1, .arb] a b)
  ∧ (∀ core : BitVec 3, Does (.ask core) fun a b =>
    ∀ c, c = core.toNat → (coreOf a c).running = none → (coreOf a c).asking = true → changesOnly [] a b)
  ∧ (∀ (core : BitVec 3) (thread : BitVec 12) (asks : Bool), Does (.reportYield core thread asks) fun a b =>
    ∀ c, c = core.toNat → ∀ x, x = thread.toNat → ∀ t, t = threadTwin x → ∀ e, e = x % 2048 → storesWf a = true →
    a.boot.gated = false → (tw a t).halted = false → (coreOf a c).running = some x → a.arb.removing ≠ some c →
    (tw a t).thrd.asks = [] → (asks = true → mayAsk a c = true) →
    (coreOf a c).preempt = none →
      threadOf b x = { threadOf a x with st := .ready, saved := true, left := 0, due := 0, readyAt := a.time }
        ∧ (tw b t).thrd.ready = (tw a t).thrd.ready.erase e ++ [e] ∧ (tw b t).thrd.delays = (tw a t).thrd.delays.erase e
        ∧ (∀ n, n ≠ e → mapGet {} (tw b t).thrd.ents n = mapGet {} (tw a t).thrd.ents n)
        ∧ coreOf b c = askedCore asks { coreOf a c with running := none, preempt := none, expired := false }
        ∧ (∀ n, n ≠ c → coreOf b n = coreOf a n)
        ∧ (tw b t).thrd.deskIn = (tw a t).thrd.deskIn ++ askMsg asks c
        ∧ (tw b (partner t)).thrd = { (tw a (partner t)).thrd with deskIn := (tw a (partner t)).thrd.deskIn ++ askMsg asks c }
        ∧ changesOnly [.thrd t, .thrd (partner t), .arb] a b)
  ∧ (∀ (core : BitVec 3) (thread : BitVec 12) (asks : Bool) (arg : Word32), Does (.reportWait core thread asks arg) fun a b =>
    ∀ c, c = core.toNat → ∀ x, x = thread.toNat → ∀ t, t = threadTwin x → ∀ e, e = x % 2048 → storesWf a = true →
    a.boot.gated = false → (tw a t).halted = false → (coreOf a c).running = some x → a.arb.removing ≠ some c →
    (tw a t).thrd.asks = [] → (asks = true → mayAsk a c = true) →
    (coreOf a c).preempt = none → (threadOf a x).wakePend = false → arg.toNat ≠ 0 → (tw a t).thrd.delays = [] →
      threadOf b x = { threadOf a x with st := .waiting, saved := true, left := 0, due := delayNow a + arg.toNat }
        ∧ (tw b t).thrd.ready = (tw a t).thrd.ready.erase e ∧ (tw b t).thrd.delays = [e]
        ∧ (∀ n, n ≠ e → mapGet {} (tw b t).thrd.ents n = mapGet {} (tw a t).thrd.ents n)
        ∧ coreOf b c = askedCore asks { coreOf a c with running := none, preempt := none, expired := false }
        ∧ (∀ n, n ≠ c → coreOf b n = coreOf a n)
        ∧ (tw b t).thrd.deskIn = (tw a t).thrd.deskIn ++ askMsg asks c
        ∧ (tw b (partner t)).thrd = { (tw a (partner t)).thrd with deskIn := (tw a (partner t)).thrd.deskIn ++ askMsg asks c }
        ∧ changesOnly [.thrd t, .thrd (partner t), .arb] a b)
  ∧ (∀ (core : BitVec 3) (thread : BitVec 12) (asks : Bool) (arg : Word32), Does (.reportWait core thread asks arg) fun a b =>
    ∀ c, c = core.toNat → ∀ x, x = thread.toNat → ∀ t, t = threadTwin x → ∀ e, e = x % 2048 → storesWf a = true →
    a.boot.gated = false → (tw a t).halted = false → (coreOf a c).running = some x → a.arb.removing ≠ some c →
    (tw a t).thrd.asks = [] → (asks = true → mayAsk a c = true) →
    (coreOf a c).preempt = none → (threadOf a x).wakePend = true →
      threadOf b x = { threadOf a x with st := .ready, saved := true, wakePend := false, left := 0, due := 0, readyAt := a.time }
        ∧ (tw b t).thrd.ready = (tw a t).thrd.ready.erase e ++ [e] ∧ (tw b t).thrd.delays = (tw a t).thrd.delays.erase e
        ∧ (∀ n, n ≠ e → mapGet {} (tw b t).thrd.ents n = mapGet {} (tw a t).thrd.ents n)
        ∧ coreOf b c = askedCore asks { coreOf a c with running := none, preempt := none, expired := false }
        ∧ (∀ n, n ≠ c → coreOf b n = coreOf a n)
        ∧ (tw b t).thrd.deskIn = (tw a t).thrd.deskIn ++ askMsg asks c
        ∧ (tw b (partner t)).thrd = { (tw a (partner t)).thrd with deskIn := (tw a (partner t)).thrd.deskIn ++ askMsg asks c }
        ∧ changesOnly [.thrd t, .thrd (partner t), .arb] a b)
  ∧ (∀ (core : BitVec 3) (thread : BitVec 12) (asks : Bool) (arg : Word32), Does (.reportDelay core thread asks arg) fun a b =>
    ∀ c, c = core.toNat → ∀ x, x = thread.toNat → ∀ t, t = threadTwin x → ∀ e, e = x % 2048 → storesWf a = true →
    a.boot.gated = false → (tw a t).halted = false → (coreOf a c).running = some x → a.arb.removing ≠ some c →
    (tw a t).thrd.asks = [] → (asks = true → mayAsk a c = true) →
    (coreOf a c).preempt = none → arg.toNat ≠ 0 → (tw a t).thrd.delays = [] →
      threadOf b x = { threadOf a x with st := .delayed, saved := true, left := 0, due := delayNow a + arg.toNat }
        ∧ (tw b t).thrd.ready = (tw a t).thrd.ready.erase e ∧ (tw b t).thrd.delays = [e]
        ∧ (∀ n, n ≠ e → mapGet {} (tw b t).thrd.ents n = mapGet {} (tw a t).thrd.ents n)
        ∧ coreOf b c = askedCore asks { coreOf a c with running := none, preempt := none, expired := false }
        ∧ (∀ n, n ≠ c → coreOf b n = coreOf a n)
        ∧ (tw b t).thrd.deskIn = (tw a t).thrd.deskIn ++ askMsg asks c
        ∧ (tw b (partner t)).thrd = { (tw a (partner t)).thrd with deskIn := (tw a (partner t)).thrd.deskIn ++ askMsg asks c }
        ∧ changesOnly [.thrd t, .thrd (partner t), .arb] a b)
  ∧ (∀ (core : BitVec 3) (thread : BitVec 12) (asks : Bool), Does (.reportPreempted core thread asks) fun a b =>
    ∀ c, c = core.toNat → ∀ x, x = thread.toNat → ∀ t, t = threadTwin x → ∀ e, e = x % 2048 → storesWf a = true →
    a.boot.gated = false → (tw a t).halted = false → (coreOf a c).running = some x → a.arb.removing ≠ some c →
    (tw a t).thrd.asks = [] → (asks = true → mayAsk a c = true) →
    (coreOf a c).preempt = some (x, .level) →
      threadOf b x = { threadOf a x with st := .ready, saved := true, left := 0, due := 0 }
        ∧ (tw b t).thrd.ready = e :: (tw a t).thrd.ready.erase e ∧ (tw b t).thrd.delays = (tw a t).thrd.delays.erase e
        ∧ (∀ n, n ≠ e → mapGet {} (tw b t).thrd.ents n = mapGet {} (tw a t).thrd.ents n)
        ∧ coreOf b c = askedCore asks { coreOf a c with running := none, preempt := none, expired := false }
        ∧ (∀ n, n ≠ c → coreOf b n = coreOf a n)
        ∧ (tw b t).thrd.deskIn = (tw a t).thrd.deskIn ++ askMsg asks c
        ∧ (tw b (partner t)).thrd = { (tw a (partner t)).thrd with deskIn := (tw a (partner t)).thrd.deskIn ++ askMsg asks c }
        ∧ changesOnly [.thrd t, .thrd (partner t), .arb] a b)
  ∧ (∀ (core : BitVec 3) (thread : BitVec 12) (asks : Bool), Does (.reportPreempted core thread asks) fun a b =>
    ∀ c, c = core.toNat → ∀ x, x = thread.toNat → ∀ t, t = threadTwin x → ∀ e, e = x % 2048 → storesWf a = true →
    a.boot.gated = false → (tw a t).halted = false → (coreOf a c).running = some x → a.arb.removing ≠ some c →
    (tw a t).thrd.asks = [] → (asks = true → mayAsk a c = true) →
    (coreOf a c).preempt = some (x, .slice) →
      threadOf b x = { threadOf a x with st := .ready, saved := true, left := 0, due := 0, readyAt := a.time }
        ∧ (tw b t).thrd.ready = (tw a t).thrd.ready.erase e ++ [e] ∧ (tw b t).thrd.delays = (tw a t).thrd.delays.erase e
        ∧ (∀ n, n ≠ e → mapGet {} (tw b t).thrd.ents n = mapGet {} (tw a t).thrd.ents n)
        ∧ coreOf b c = askedCore asks { coreOf a c with running := none, preempt := none, expired := false }
        ∧ (∀ n, n ≠ c → coreOf b n = coreOf a n)
        ∧ (tw b t).thrd.deskIn = (tw a t).thrd.deskIn ++ askMsg asks c
        ∧ (tw b (partner t)).thrd = { (tw a (partner t)).thrd with deskIn := (tw a (partner t)).thrd.deskIn ++ askMsg asks c }
        ∧ changesOnly [.thrd t, .thrd (partner t), .arb] a b)
  ∧ (∀ (core : BitVec 3) (thread : BitVec 12) (asks : Bool), Does (.reportExit core thread asks) fun a b =>
    ∀ c, c = core.toNat → ∀ x, x = thread.toNat → ∀ t, t = threadTwin x → ∀ e, e = x % 2048 → storesWf a = true →
    a.boot.gated = false → (tw a t).halted = false → (coreOf a c).running = some x → a.arb.removing ≠ some c →
    (tw a t).thrd.asks = [] → (asks = true → mayAsk a c = true) →
    (coreOf a c).preempt = none →
      threadOf b x = { threadOf a x with st := .waiting, saved := false, left := 0, due := 0 }
        ∧ (tw b t).thrd.ready = (tw a t).thrd.ready.erase e ∧ (tw b t).thrd.delays = (tw a t).thrd.delays.erase e
        ∧ (∀ n, n ≠ e → mapGet {} (tw b t).thrd.ents n = mapGet {} (tw a t).thrd.ents n)
        ∧ coreOf b c = askedCore asks { coreOf a c with running := none, preempt := none, expired := false }
        ∧ (∀ n, n ≠ c → coreOf b n = coreOf a n)
        ∧ (tw b t).thrd.deskIn = (tw a t).thrd.deskIn ++ askMsg asks c
        ∧ (tw b (partner t)).thrd = { (tw a (partner t)).thrd with deskIn := (tw a (partner t)).thrd.deskIn ++ askMsg asks c }
        ∧ changesOnly [.thrd t, .thrd (partner t), .arb] a b)
  ∧ (∀ (core : BitVec 3) (thread : BitVec 12) (asks : Bool), Does (.reportFault core thread asks) fun a b =>
    ∀ c, c = core.toNat → ∀ x, x = thread.toNat → ∀ t, t = threadTwin x → ∀ e, e = x % 2048 → storesWf a = true →
    a.boot.gated = false → (tw a t).halted = false → (coreOf a c).running = some x → a.arb.removing ≠ some c →
    (tw a t).thrd.asks = [] → (asks = true → mayAsk a c = true) →
    (coreOf a c).preempt = none → (∀ q ∈ (tw a t).thrd.reserved, q.1 ≠ e) →
      threadOf b x = { threadOf a x with st := .faulted, left := 0, due := 0 }
        ∧ (tw b t).thrd.ready = (tw a t).thrd.ready.erase e ∧ (tw b t).thrd.delays = (tw a t).thrd.delays.erase e
        ∧ (tw b t).thrd.lastErr = 2 ^ 63 + 16 * 2 ^ 48 + c % 8 * 2 ^ 32 + x % 4096
        ∧ ctr b (twKey t thrdP) 0x78 = satAdd ctrMax (ctr a (twKey t thrdP) 0x78) 1
        ∧ (∀ n, n ≠ e → mapGet {} (tw b t).thrd.ents n = mapGet {} (tw a t).thrd.ents n)
        ∧ coreOf b c = askedCore asks { coreOf a c with running := none, preempt := none, expired := false }
        ∧ (∀ n, n ≠ c → coreOf b n = coreOf a n)
        ∧ (tw b t).thrd.deskIn = (tw a t).thrd.deskIn ++ askMsg asks c
        ∧ (tw b (partner t)).thrd = { (tw a (partner t)).thrd with deskIn := (tw a (partner t)).thrd.deskIn ++ askMsg asks c }
        ∧ changesOnly [.thrd t, .thrd (partner t), .arb, .ctrs] a b)
  ∧ (∀ (core : BitVec 3) (thread : BitVec 12) (asks : Bool) (arg : Word32) (c : Instr), Does c fun a b =>
    c ∈ [.reportYield core thread asks, .reportWait core thread asks arg, .reportDelay core thread asks arg, .reportPreempted core thread asks, .reportExit core thread asks, .reportFault core thread asks] →
    ∀ n, n = core.toNat → ∀ x, x = thread.toNat → ∀ t, t = threadTwin x → storesWf a = true → a.boot.gated = false →
    (tw a t).halted = false → (coreOf a n).running ≠ some x → (asks = true → (coreOf a n).running = none ∧ mayAsk a n = true) →
      (tw b t).thrd = { (tw a t).thrd with
            lastErr := 2 ^ 63 + 1 * 2 ^ 48 + n % 8 * 2 ^ 32 + x % 4096
            deskIn := (tw a t).thrd.deskIn ++ askMsg asks n }
        ∧ (tw b (partner t)).thrd = { (tw a (partner t)).thrd with deskIn := (tw a (partner t)).thrd.deskIn ++ askMsg asks n }
        ∧ (pageOf b (twKey t thrdP)).errStat = (pageOf a (twKey t thrdP)).errStat ||| 2 ^ 1
        ∧ coreOf b n = askedCore asks (coreOf a n) ∧ (∀ m, m ≠ n → coreOf b m = coreOf a m)
        ∧ changesOnly [.thrd t, .thrd (partner t), .arb, .errs] a b)
  ∧ (∀ (core : BitVec 3) (thread : BitVec 12) (arg : Word32) (y : Nat) (c : Instr), Does c fun a b =>
    c = .ask core ∨ (∃ asks, asks = true ∧ c ∈ [.reportYield core thread asks, .reportWait core thread asks arg, .reportDelay core thread asks arg, .reportPreempted core thread asks, .reportExit core thread asks, .reportFault core thread asks]) →
    ∀ n, n = core.toNat → ∀ t, t = threadTwin y → ∀ e, e = y % 2048 → storesWf a = true → a.boot.gated = false →
    (∀ u, (tw a u).halted = false) → (coreOf a n).running = some y → (c = .ask core ∨ thread.toNat ≠ y) → mayAsk a n = true →
    (coreOf a n).asking = false → (coreOf a n).preempt = none → a.arb.removing ≠ some n → (tw a t).thrd.asks = [] → (∀ q ∈ (tw a t).thrd.reserved, q.1 ≠ e) →
      threadOf b y = { threadOf a y with st := .faulted, left := 0, due := 0 }
        ∧ coreOf b n = askedCore true { coreOf a n with running := none, preempt := none, expired := false }
        ∧ (∀ m, m ≠ n → coreOf b m = coreOf a m) ∧ (tw b t).thrd.lastErr = 2 ^ 63 + 16 * 2 ^ 48 + n % 8 * 2 ^ 32 + y % 4096
        ∧ (pageOf b (twKey t thrdP)).errStat = (pageOf a (twKey t thrdP)).errStat ||| 2 ^ 1
        ∧ ctr b (twKey t thrdP) 0x78 = satAdd ctrMax (ctr a (twKey t thrdP) 0x78) 1
        ∧ (∀ u, (tw b u).thrd.deskIn = (tw a u).thrd.deskIn ++ [.ask n])
        ∧ changesOnly [.thrd .t0, .thrd .t1, .arb, .errs, .ctrs] a b)
  ∧ (∀ (core : BitVec 3) (thread : BitVec 12) (asks : Bool), Does (.reportPreempted core thread asks) fun a b =>
    ∀ c, c = core.toNat → ∀ x, x = thread.toNat → ∀ t, t = threadTwin x → ∀ e, e = x % 2048 → storesWf a = true →
    a.boot.gated = false → (tw a t).halted = false → (coreOf a c).running = some x → a.arb.removing ≠ some c →
    (tw a t).thrd.asks = [] → (asks = true → mayAsk a c = true) → (coreOf a c).preempt = none →
      threadOf b x = { threadOf a x with st := .ready, saved := true, left := 0, due := 0, readyAt := a.time }
        ∧ (tw b t).thrd.ready = (tw a t).thrd.ready.erase e ++ [e]
        ∧ (tw b t).thrd.lastErr = 2 ^ 63 + 1 * 2 ^ 48 + c % 8 * 2 ^ 32 + x % 4096
        ∧ (pageOf b (twKey t thrdP)).errStat = (pageOf a (twKey t thrdP)).errStat ||| 2 ^ 1
        ∧ coreOf b c = askedCore asks { coreOf a c with running := none, preempt := none, expired := false }
        ∧ (∀ n, n ≠ c → coreOf b n = coreOf a n) ∧ changesOnly [.thrd t, .thrd (partner t), .arb, .errs] a b)
  ∧ (∀ (core : BitVec 3) (thread : BitVec 12), Does (.wake core thread) fun a b =>
    ∀ c, c = core.toNat → ∀ x, x = thread.toNat → ∀ y, storesWf a = true → a.boot.gated = false →
    (coreOf a c).running = some y → (tw a (threadTwin y)).halted = false →
      (threadTwin y = threadTwin x →
          b.work = a.work ++ [.item (threadTwin x) (.wake x { core := c, free := (threadOf a y).priv, ctxV := (threadOf a y).ctxV, ctx := (threadOf a y).ctx })]
            ∧ changesOnly [.work] a b)
        ∧ (threadTwin y ≠ threadTwin x → serves a (threadTwin x) = true →
          (tw b (threadTwin x)).edgeIn = (tw a (threadTwin x)).edgeIn
              ++ [.wake x { core := c, free := (threadOf a y).priv, ctxV := (threadOf a y).ctxV, ctx := (threadOf a y).ctx }]
            ∧ changesOnly [.edgeIn (threadTwin x)] a b))
  ∧ (∀ (t : TwinId) (x : Nat) (w : WakeSrc) (rest : List EdgeItem), Does (.wakeItem t) fun a b =>
    ∀ e, e = x % 2048 → storesWf a = true → live a t = true → (tw a t).edgeIn = .wake x w :: rest → threadTwin x = t →
    (tw a t).thrd.asks = [] → w.free = true → (threadOf a x).st = .waiting → (threadOf a x).wakePend = false →
      threadOf b x = { threadOf a x with st := .ready, due := 0, readyAt := a.time }
        ∧ (∀ n, n ≠ e → mapGet {} (tw b t).thrd.ents n = mapGet {} (tw a t).thrd.ents n)
        ∧ (tw b t).thrd.ready = (tw a t).thrd.ready.erase e ++ [e] ∧ (tw b t).edgeIn = rest
        ∧ ctr b (twKey t thrdP) 0x58 = satAdd ctrMax (ctr a (twKey t thrdP) 0x58) 1
        ∧ changesOnly [.thrd t, .edgeIn t, .ctrs] a b)
  ∧ (∀ (t : TwinId) (x : Nat) (w : WakeSrc) (rest : List EdgeItem), Does (.wakeItem t) fun a b =>
    ∀ e, e = x % 2048 → storesWf a = true → live a t = true → (tw a t).edgeIn = .wake x w :: rest → threadTwin x = t →
    (tw a t).thrd.asks = [] → w.free = true → (threadOf a x).st = .running → (threadOf a x).wakePend = false →
      threadOf b x = { threadOf a x with wakePend := true } ∧ (tw b t).thrd.ready = (tw a t).thrd.ready
        ∧ (∀ n, n ≠ e → mapGet {} (tw b t).thrd.ents n = mapGet {} (tw a t).thrd.ents n)
        ∧ ctr b (twKey t thrdP) 0x58 = satAdd ctrMax (ctr a (twKey t thrdP) 0x58) 1 ∧ (tw b t).edgeIn = rest
        ∧ changesOnly [.thrd t, .edgeIn t, .ctrs] a b)
  ∧ (∀ (t : TwinId) (x : Nat) (w : WakeSrc) (rest : List EdgeItem), Does (.wakeItem t) fun a b =>
    ∀ e, e = x % 2048 → storesWf a = true → live a t = true → (tw a t).edgeIn = .wake x w :: rest → threadTwin x = t →
    (tw a t).thrd.asks = [] → w.free = false → w.ctxV = true → (threadOf a x).ctxV = false →
      (tw b t).thrd = { (tw a t).thrd with lastErr := 2 ^ 63 + 2 * 2 ^ 48 + w.ctx % 256 * 2 ^ 40 + w.core % 8 * 2 ^ 32 + x % 4096 }
        ∧ (pageOf b (twKey t thrdP)).errStat = (pageOf a (twKey t thrdP)).errStat ||| 2 ^ 2
        ∧ ctr b (twKey t thrdP) 0x68 = satAdd ctrMax (ctr a (twKey t thrdP) 0x68) 1 ∧ (tw b t).edgeIn = rest
        ∧ changesOnly [.thrd t, .edgeIn t, .errs, .ctrs] a b)

/-- R327, R330, R331: the commands of the THRD page. CREATE makes the selected FREE entry of the twin a thread that
WAITS, or is READY at the tail of its level with START; DESTROY frees an entry that does not run, and pre-empts one
that runs; SET gives it its level, class and slice; WAKE wakes it; QUERY copies it to DATA0 to DATA2; each reports
STATUS 0, or the code of the first check that fails. A REMOVE takes an idle core out of service and pre-empts the
thread of one that runs; a RESTORE puts it back, its record of the last thread given kept. -/
def Obligations.ThreadCommandsAct : Prop :=
  (∀ (src : Requester) (t : TwinId) (start : Bool), Does (.threadCreate src t start) fun a b =>
    ∀ x, x = threadSel a t → ∀ e, e = x % 2048 → ∀ d, d = dataThread (reg a (twKey t thrdP) 0x118) → storesWf a = true →
    served a src (twKey t thrdP) = true → thrdTakes a t = true → threadTwin x = t → (threadOf a x).st = .free → d.aff ≤ 8 →
    (tw a t).thrd.asks = [] →
      threadOf b x = (if start then { d with st := .ready, readyAt := a.time } else { d with st := .waiting })
        ∧ (∀ n, n ≠ e → mapGet {} (tw b t).thrd.ents n = mapGet {} (tw a t).thrd.ents n) ∧ (tw b t).thrd.stat = 0
        ∧ (tw b t).thrd.ready = (if start then (tw a t).thrd.ready.erase e ++ [e] else (tw a t).thrd.ready)
        ∧ changesOnly [.thrd t] a b)
  ∧ (∀ (src : Requester) (t : TwinId) (start : Bool), Does (.threadCreate src t start) fun a b =>
    ∀ x, x = threadSel a t → served a src (twKey t thrdP) = true → thrdTakes a t = true →
      (threadTwin x ≠ t → (tw b t).thrd = { (tw a t).thrd with stat := 1 } ∧ changesOnly [.thrd t] a b)
        ∧ (threadTwin x = t → (threadOf a x).st ≠ .free →
          (tw b t).thrd = { (tw a t).thrd with stat := 2 } ∧ changesOnly [.thrd t] a b)
        ∧ (threadTwin x = t → (threadOf a x).st = .free → 8 < (dataThread (reg a (twKey t thrdP) 0x118)).aff →
          (tw b t).thrd = { (tw a t).thrd with stat := 3 } ∧ changesOnly [.thrd t] a b))
  ∧ (∀ (src : Requester) (t : TwinId), Does (.threadDestroy src t) fun a b =>
    ∀ x, x = threadSel a t → ∀ e, e = x % 2048 → storesWf a = true → served a src (twKey t thrdP) = true →
    thrdTakes a t = true → threadTwin x = t → (threadOf a x).st ≠ .free → runsOn a x = none →
    (∀ q ∈ (tw a t).thrd.reserved, q.1 ≠ e) →
      threadOf b x = {} ∧ (∀ n, n ≠ e → mapGet {} (tw b t).thrd.ents n = mapGet {} (tw a t).thrd.ents n)
        ∧ (tw b t).thrd.stat = 0 ∧ (tw b t).thrd.ready = (tw a t).thrd.ready.erase e
        ∧ (tw b t).thrd.delays = (tw a t).thrd.delays.erase e ∧ changesOnly [.thrd t] a b)
  ∧ (∀ (src : Requester) (t : TwinId) (c : Nat), Does (.threadDestroy src t) fun a b =>
    ∀ x, x = threadSel a t → storesWf a = true → served a src (twKey t thrdP) = true → thrdTakes a t = true →
    threadTwin x = t → (threadOf a x).st ≠ .free → runsOn a x = some c → (coreOf a c).running = some x →
    (coreOf a c).preempt = none →
      (tw b t).thrd = { (tw a t).thrd with destroy := some x, stat := 0 }
        ∧ coreOf b c = { coreOf a c with preempt := some (x, .destroy) } ∧ (∀ n, n ≠ c → coreOf b n = coreOf a n)
        ∧ b.out.length = 1 ∧ changesOnly [.thrd t, .arb, .out] a b)
  ∧ (∀ (src : Requester) (t : TwinId), Does (.threadSet src t) fun a b =>
    ∀ x, x = threadSel a t → ∀ e, e = x % 2048 → ∀ d, d = dataThread (reg a (twKey t thrdP) 0x118) → storesWf a = true →
    served a src (twKey t thrdP) = true → thrdTakes a t = true → threadTwin x = t →
    (threadOf a x).st = .waiting ∨ (threadOf a x).st = .ready → d.aff ≤ 8 → runsOn a x = none → (tw a t).thrd.asks = [] →
      threadOf b x = { threadOf a x with level := d.level, aff := d.aff, slice := d.slice }
        ∧ (∀ n, n ≠ e → mapGet {} (tw b t).thrd.ents n = mapGet {} (tw a t).thrd.ents n) ∧ (tw b t).thrd.stat = 0
        ∧ (tw b t).thrd.ready = (if (threadOf a x).st = .ready then (tw a t).thrd.ready.erase e ++ [e] else (tw a t).thrd.ready)
        ∧ changesOnly [.thrd t] a b)
  ∧ (∀ (src : Requester) (t : TwinId), Does (.threadCmdWake src t) fun a b =>
    ∀ x, x = threadSel a t → ∀ e, e = x % 2048 → storesWf a = true → served a src (twKey t thrdP) = true →
    thrdTakes a t = true → threadTwin x = t → (threadOf a x).st = .waiting → (threadOf a x).wakePend = false →
    (tw a t).thrd.asks = [] →
      threadOf b x = { threadOf a x with st := .ready, due := 0, readyAt := a.time }
        ∧ (∀ n, n ≠ e → mapGet {} (tw b t).thrd.ents n = mapGet {} (tw a t).thrd.ents n) ∧ (tw b t).thrd.stat = 0
        ∧ (tw b t).thrd.ready = (tw a t).thrd.ready.erase e ++ [e]
        ∧ ctr b (twKey t thrdP) 0x58 = satAdd ctrMax (ctr a (twKey t thrdP) 0x58) 1 ∧ changesOnly [.thrd t, .ctrs] a b)
  ∧ (∀ (src : Requester) (t : TwinId), Does (.threadSet src t) fun a b =>
    ∀ x, x = threadSel a t → ∀ d, d = dataThread (reg a (twKey t thrdP) 0x118) → ∀ c, storesWf a = true →
    served a src (twKey t thrdP) = true → thrdTakes a t = true → threadTwin x = t → (threadOf a x).st = .running → d.aff ≤ 8 →
    runsOn a x = some c →
      threadOf b x = { threadOf a x with level := d.level, aff := d.aff, slice := d.slice }
        ∧ coreOf b c = { coreOf a c with runLevel := d.level } ∧ (∀ n, n ≠ c → coreOf b n = coreOf a n)
        ∧ (tw b t).thrd.stat = 0 ∧ changesOnly [.thrd t, .arb] a b)
  ∧ (∀ (src : Requester) (t : TwinId) (c : Instr), Does c fun a b =>
    c ∈ [.threadDestroy src t, .threadSet src t, .threadCmdWake src t, .threadQuery src t] → ∀ x, x = threadSel a t →
    ∀ st, served a src (twKey t thrdP) = true → thrdTakes a t = true →
    (threadTwin x ≠ t ∧ st = 1)
      ∨ (c ≠ .threadQuery src t ∧ threadTwin x = t ∧ (threadOf a x).st = .free ∧ st = 4)
      ∨ (c = .threadSet src t ∧ threadTwin x = t ∧ (threadOf a x).st ≠ .free ∧ 8 < (dataThread (reg a (twKey t thrdP) 0x118)).aff ∧ st = 3) →
      (tw b t).thrd = { (tw a t).thrd with stat := st } ∧ changesOnly [.thrd t] a b)
  ∧ (∀ (src : Requester) (t : TwinId), Does (.threadQuery src t) fun a b =>
    ∀ x, x = threadSel a t → storesWf a = true → served a src (twKey t thrdP) = true → thrdTakes a t = true →
    threadTwin x = t →
      reg b (twKey t thrdP) 0x118 = threadStCode (threadOf a x).st * 2 ^ 61 + b2n (threadOf a x).priv * 2 ^ 60
          + b2n (threadOf a x).ctxV * 2 ^ 59 + b2n (threadOf a x).saved * 2 ^ 58 + b2n (threadOf a x).wakePend * 2 ^ 57
          + (threadOf a x).level * 2 ^ 51 + (threadOf a x).aff * 2 ^ 47 + (threadOf a x).ctx * 2 ^ 39
          + (threadOf a x).core * 2 ^ 36 + (threadOf a x).slice * 2 ^ 24 + (threadOf a x).left * 2 ^ 12
        ∧ reg b (twKey t thrdP) 0x120 = (threadOf a x).due % 2 ^ 48 ∧ reg b (twKey t thrdP) 0x128 = (threadOf a x).readyAt
        ∧ (tw b t).thrd = { (tw a t).thrd with stat := 0 } ∧ changesOnly [.thrd t, .regs] a b)
  ∧ (∀ (src : Requester) (t : TwinId) (core : BitVec 3), Does (.coreRemove src t core) fun a b =>
    ∀ c, c = core.toNat → storesWf a = true → served a src (twKey t thrdP) = true → a.arb.removing = none →
      ((coreOf a c).running = none →
          coreOf b c = { coreOf a c with inService := false, asking := false, reply0 := .idle, reply1 := .idle, window := false }
            ∧ (∀ n, n ≠ c → coreOf b n = coreOf a n) ∧ changesOnly [.arb] a b)
        ∧ (∀ x, (coreOf a c).running = some x → (coreOf a c).preempt = none →
          b.arb.removing = some c ∧ coreOf b c = { coreOf a c with preempt := some (x, .remove) }
            ∧ (∀ n, n ≠ c → coreOf b n = coreOf a n) ∧ b.out.length = 1 ∧ changesOnly [.arb, .out] a b))
  ∧ (∀ (src : Requester) (t : TwinId) (core : BitVec 3), Does (.coreRestore src t core) fun a b =>
    ∀ c, c = core.toNat → storesWf a = true → served a src (twKey t thrdP) = true → a.arb.removing = none →
    (coreOf a c).inService = false →
      coreOf b c = { inService := true, lastV := (coreOf a c).lastV, lastCtx := (coreOf a c).lastCtx }
        ∧ (∀ n, n ≠ c → coreOf b n = coreOf a n) ∧ changesOnly [.arb] a b)

/-- R317 to R323: the Desks and the arbiter. An ASK that reaches a Desk is answered by an offer of its READY thread,
which is reserved, or by NONE, and is then held; of two offers for a core that asks the one of higher level is granted, then that of the
earlier READY_TIME, then Twin 0's, and the other is released; one offer is granted once the other Desk has answered NONE, but an unasked
one waits through a window while the other Desk's summary shows a rival; an offer for a core that asks no more is released; NONE is
recorded; TAKE starts the thread with its slice,
RELEASE frees its reservation; a summary records the best level of every class, and pre-empts the core of the
class that runs the lowest level below it, or at it with its slice expired; the limit of a PREEMPT takes the core
out of service and faults the thread; a delay tick counts the slices down and readies the threads whose DUE has come.
-/
def Obligations.DeskAndArbiterAct : Prop :=
  (∀ (t : TwinId) (c e : Nat) (rest : List DeskMsg) (h : Thread), Does (.deskAsk t) fun a b =>
    storesWf a = true → deskAsked a t = true → (tw a t).thrd.deskIn = .ask c :: rest → c < 8 → e < 2048 →
    bitOf (reg a (twKey t thrdP) 0x100) 63 = true → (tw a t).thrd.ready = [e] → (tw a t).thrd.reserved = [] →
    mapGet {} (tw a t).thrd.ents e = h → h.aff = c ∨ h.aff = 8 →
      (tw b t).thrd = { (tw a t).thrd with
          deskIn := rest, reserved := [(e, c)], asks := (tw a t).thrd.asks.filter (· != c), arbIn := (tw a t).thrd.arbIn ++ [.offer c { thread := twinNum t * 2048 + e, level := h.level, readyAt := h.readyAt, asked := true }] }
        ∧ changesOnly [.thrd t] a b)
  ∧ (∀ (t : TwinId) (c : Nat) (rest : List DeskMsg), Does (.deskAsk t) fun a b =>
    deskAsked a t = true → (tw a t).thrd.deskIn = .ask c :: rest →
    (bitOf (reg a (twKey t thrdP) 0x100) 63 = false ∨ (tw a t).thrd.ready = []) → c ∉ (tw a t).thrd.asks →
      (tw b t).thrd = { (tw a t).thrd with deskIn := rest, asks := (tw a t).thrd.asks ++ [c], arbIn := (tw a t).thrd.arbIn ++ [.none c] }
        ∧ changesOnly [.thrd t] a b)
  ∧ (∀ (t : TwinId) (c : Nat) (o : ThreadOffer) (rest : List ArbMsg), Does (.threadOffer t) fun a b =>
    ∀ x, x = o.thread → storesWf a = true → (tw a t).thrd.arbIn = .offer c o :: rest → threadTwin x = t →
    (x % 2048, c) ∈ (tw a t).thrd.reserved → (coreOf a c).asking = true → (coreOf a c).inService = true →
    (coreOf a c).window = false → offersOf (coreOf a c) = [] → replyOf (coreOf a c) (partner t) = .none →
    (o.asked = true ∨ rivalShown a (partner t) c o.level = false ∨ deskAsked a (partner t) = false) →
    ∀ w, w = Output.threadWord (grantWordOf a c x) →
      w ∈ b.out ∧ (bookOn a t = false → b.out = [w])
        ∧ coreOf b c = { coreOf a c with
            running := some x, asking := false, expired := false, given := true, lastV := (threadOf a x).ctxV, lastCtx := (threadOf a x).ctx, runLevel := (threadOf a x).level, reply0 := .idle, reply1 := .idle, window := false }
        ∧ (∀ n, n ≠ c → coreOf b n = coreOf a n)
        ∧ (tw b t).thrd = { (tw a t).thrd with
            arbIn := rest, asks := (tw a t).thrd.asks.filter (· != c), deskIn := (tw a t).thrd.deskIn ++ [.take c x] }
        ∧ (tw b (partner t)).thrd = { (tw a (partner t)).thrd with asks := (tw a (partner t)).thrd.asks.filter (· != c) }
        ∧ ctr b (twKey t thrdP) 0x40 = satAdd ctrMax (ctr a (twKey t thrdP) 0x40) 1
        ∧ changesOnly [.thrd t, .thrd (partner t), .obs t, .arb, .out, .ctrs] a b)
  ∧ (∀ (t : TwinId) (c : Nat) (o : ThreadOffer) (rest : List ArbMsg), Does (.threadOffer t) fun a b =>
    storesWf a = true → (tw a t).thrd.arbIn = .offer c o :: rest → threadTwin o.thread = t →
    (o.thread % 2048, c) ∈ (tw a t).thrd.reserved → (coreOf a c).asking = true → (coreOf a c).inService = true →
    (coreOf a c).window = false → offersOf (coreOf a c) = [] → replyOf (coreOf a c) (partner t) = .none →
    o.asked = false → deskAsked a (partner t) = true → rivalShown a (partner t) c o.level = true →
      replyOf (coreOf b c) t = .offered o ∧ replyOf (coreOf b c) (partner t) = .none ∧ (coreOf b c).window = true
        ∧ (coreOf b c).asking = true ∧ (∀ n, n ≠ c → coreOf b n = coreOf a n) ∧ b.out = []
        ∧ (tw b t).thrd = { (tw a t).thrd with arbIn := rest } ∧ changesOnly [.thrd t, .arb] a b)
  ∧ (∀ (t : TwinId) (c x : Nat) (o p : ThreadOffer) (win lose : ThreadOffer) (rest : List ArbMsg), Does (.threadOffer t) fun a b =>
    storesWf a = true → (tw a t).thrd.arbIn = .offer c o :: rest → threadTwin o.thread = t → threadTwin p.thread = partner t →
    (o.thread % 2048, c) ∈ (tw a t).thrd.reserved → (coreOf a c).asking = true → (coreOf a c).inService = true →
    replyOf (coreOf a c) t = .awaited ∨ replyOf (coreOf a c) t = .none → replyOf (coreOf a c) (partner t) = .offered p →
    (beats o p ∧ win = o ∧ lose = p) ∨ (¬ beats o p ∧ win = p ∧ lose = o) → x = win.thread →
    ∀ w, w = Output.threadWord (grantWordOf a c x) →
      w ∈ b.out ∧ (bookOn a (threadTwin x) = false → b.out = [w])
        ∧ coreOf b c = { coreOf a c with
            running := some x, asking := false, expired := false, given := true, lastV := (threadOf a x).ctxV, lastCtx := (threadOf a x).ctx, runLevel := (threadOf a x).level, reply0 := .idle, reply1 := .idle, window := false }
        ∧ (∀ n, n ≠ c → coreOf b n = coreOf a n)
        ∧ (tw b t).thrd.arbIn = rest
        ∧ (tw b (threadTwin x)).thrd.deskIn = (tw a (threadTwin x)).thrd.deskIn ++ [.take c x]
        ∧ (tw b (threadTwin lose.thread)).thrd.deskIn = (tw a (threadTwin lose.thread)).thrd.deskIn ++ [.release c lose.thread]
        ∧ changesOnly [.thrd .t0, .thrd .t1, .obs (threadTwin x), .arb, .out, .ctrs] a b)
  ∧ (∀ (t : TwinId) (c : Nat) (o : ThreadOffer) (rest : List ArbMsg), Does (.threadOffer t) fun a b =>
    (tw a t).thrd.arbIn = .offer c o :: rest → threadTwin o.thread = t → (o.thread % 2048, c) ∈ (tw a t).thrd.reserved →
    (coreOf a c).asking = false →
      (tw b t).thrd = { (tw a t).thrd with arbIn := rest, deskIn := (tw a t).thrd.deskIn ++ [.release c o.thread] }
        ∧ changesOnly [.thrd t] a b)
  ∧ (∀ (t : TwinId) (c : Nat) (rest : List ArbMsg), Does (.noneAnswer t) fun a b =>
    storesWf a = true → (tw a t).thrd.arbIn = .none c :: rest → (coreOf a c).asking = true →
    replyOf (coreOf a c) t = .awaited → replyOf (coreOf a c) (partner t) = .awaited ∨ replyOf (coreOf a c) (partner t) = .none →
      replyOf (coreOf b c) t = .none ∧ replyOf (coreOf b c) (partner t) = replyOf (coreOf a c) (partner t)
        ∧ (coreOf b c).asking = true ∧ (∀ n, n ≠ c → coreOf b n = coreOf a n)
        ∧ (tw b t).thrd = { (tw a t).thrd with arbIn := rest } ∧ changesOnly [.thrd t, .arb] a b)
  ∧ (∀ (t : TwinId) (c x : Nat) (rest : List DeskMsg), Does (.takeThread t) fun a b =>
    ∀ e, e = x % 2048 → storesWf a = true → live a t = true → (tw a t).thrd.deskIn = .take c x :: rest → threadTwin x = t →
    (threadOf a x).st = .ready → (coreOf a c).running = some x → (tw a t).thrd.asks = [] →
      threadOf b x = { threadOf a x with st := .running, core := c, left := (threadOf a x).slice }
        ∧ (∀ n, n ≠ e → mapGet {} (tw b t).thrd.ents n = mapGet {} (tw a t).thrd.ents n)
        ∧ (tw b t).thrd.ready = (tw a t).thrd.ready.erase e ∧ (tw b t).thrd.deskIn = rest
        ∧ (tw b t).thrd.reserved = (tw a t).thrd.reserved.filter (fun p => p.1 != e) ∧ changesOnly [.thrd t] a b)
  ∧ (∀ (t : TwinId) (c x : Nat) (rest : List DeskMsg), Does (.threadRelease t) fun a b =>
    live a t = true → (tw a t).thrd.deskIn = .release c x :: rest → (tw a t).thrd.asks = [] →
      (tw b t).thrd = { (tw a t).thrd with deskIn := rest, reserved := (tw a t).thrd.reserved.filter (fun p => p != (x % 2048, c)) }
        ∧ changesOnly [.thrd t] a b)
  ∧ (∀ (core : BitVec 3) (o : ThreadOffer), Does (.offerWindow core) fun a b =>
    ∀ c, c = core.toNat → ∀ x, x = o.thread → ∀ t, t = threadTwin x → storesWf a = true → (coreOf a c).window = true →
    (coreOf a c).asking = true → (coreOf a c).inService = true → replyOf (coreOf a c) t = .offered o →
    replyOf (coreOf a c) (partner t) = .none →
    ∀ w, w = Output.threadWord (grantWordOf a c x) →
      w ∈ b.out ∧ (bookOn a t = false → b.out = [w])
        ∧ coreOf b c = { coreOf a c with
            running := some x, asking := false, expired := false, given := true, lastV := (threadOf a x).ctxV, lastCtx := (threadOf a x).ctx, runLevel := (threadOf a x).level, reply0 := .idle, reply1 := .idle, window := false }
        ∧ (∀ n, n ≠ c → coreOf b n = coreOf a n)
        ∧ (tw b t).thrd = { (tw a t).thrd with
            asks := (tw a t).thrd.asks.filter (· != c), deskIn := (tw a t).thrd.deskIn ++ [.take c x] }
        ∧ (tw b (partner t)).thrd = { (tw a (partner t)).thrd with asks := (tw a (partner t)).thrd.asks.filter (· != c) }
        ∧ changesOnly [.thrd t, .thrd (partner t), .obs t, .arb, .out, .ctrs] a b)
  ∧ (∀ t : TwinId, Does (.threadSummary t) fun a b =>
    deskAsked a t = true → (∀ c, (coreOf a c).running = none) →
      (∀ cls, cls < 9 → mapGet 0 (match t with
          | .t0 => b.arb.sum0
          | .t1 => b.arb.sum1) cls = bestLevel a t cls)
        ∧ b.arb.cores = a.arb.cores ∧ changesOnly [.arb] a b)
  ∧ (∀ (t : TwinId) (cls lv c x off : Nat) (why : PreemptWhy), Does (.threadSummary t) fun a b =>
    storesWf a = true → deskAsked a t = true → cls < 9 → bestLevel a t cls = lv + 1 →
    (∀ k, k < 9 → k ≠ cls → bestLevel a t k = 0) →
    (match t with
      | .t0 => a.arb.sum1
      | .t1 => a.arb.sum0) = [] →
    (∀ d, d < 8 → inClass a cls d = true → (coreOf a d).asking = false ∧ (coreOf a d).preempt = none) →
    c < 8 → yieldsTo a cls lv c = true →
    (∀ d, d < 8 → yieldsTo a cls lv d = true →
      (coreOf a c).runLevel < (coreOf a d).runLevel ∨ ((coreOf a c).runLevel = (coreOf a d).runLevel ∧ c ≤ d)) →
    (coreOf a c).running = some x →
    ((coreOf a c).runLevel = lv ∧ why = .slice ∧ off = 0x50) ∨ ((coreOf a c).runLevel < lv ∧ why = .level ∧ off = 0x48) →
    ∀ w, w = Output.threadWord (stopWordOf a c x) →
      coreOf b c = { coreOf a c with preempt := some (x, why) } ∧ (∀ n, n ≠ c → coreOf b n = coreOf a n)
        ∧ w ∈ b.out ∧ (bookOn a (threadTwin x) = false → b.out = [w])
        ∧ ctr b (twKey (threadTwin x) thrdP) off = satAdd ctrMax (ctr a (twKey (threadTwin x) thrdP) off) 1
        ∧ changesOnly [.arb, .obs (threadTwin x), .out, .ctrs] a b)
  ∧ (∀ (core : BitVec 3) (x : Nat), Does (.preemptLimit core) fun a b =>
    ∀ c, c = core.toNat → ∀ t, t = threadTwin x → storesWf a = true → (coreOf a c).preempt = some (x, .level) →
    a.arb.removing ≠ some c → (∀ u, (tw a u).thrd.asks = []) → offersOf (coreOf a c) = [] → a.arb.sum0 = [] → a.arb.sum1 = [] →
      threadOf b x = { threadOf a x with st := .faulted, left := 0, due := 0 }
        ∧ (coreOf b c).inService = false ∧ (coreOf b c).running = none ∧ (coreOf b c).preempt = none
        ∧ (∀ n, n ≠ c → coreOf b n = coreOf a n)
        ∧ (tw b t).thrd.lastErr = 2 ^ 63 + 3 * 2 ^ 48 + c % 8 * 2 ^ 32 + x % 4096
        ∧ (pageOf b (twKey t thrdP)).errStat = (pageOf a (twKey t thrdP)).errStat ||| 2 ^ 3
        ∧ changesOnly [.thrd t, .arb, .errs, .ctrs] a b)
  ∧ (∀ (t : TwinId) (e : Nat), Does .delayTick fun a b =>
    storesWf a = true → live a t = true → e < 2048 → a.arb.sum0 = [] → a.arb.sum1 = [] → (∀ u, (tw a u).thrd.asks = []) →
    (tw a (partner t)).thrd.ents = [] → (tw a (partner t)).thrd.delays = [] →
    (∀ p ∈ (tw a t).thrd.ents, p.2.st ≠ .running) → (tw a t).thrd.delays = [e] →
    (mapGet {} (tw a t).thrd.ents e).due ≤ delayNow a →
      mapGet {} (tw b t).thrd.ents e
          = { mapGet {} (tw a t).thrd.ents e with st := .ready, due := 0, readyAt := delayNow a * 50000 }
        ∧ (∀ n, n ≠ e → mapGet {} (tw b t).thrd.ents n = mapGet {} (tw a t).thrd.ents n)
        ∧ (tw b t).thrd.delays = [] ∧ (tw b t).thrd.ready = (tw a t).thrd.ready.erase e ++ [e]
        ∧ ctr b (twKey t thrdP) 0x70 = satAdd ctrMax (ctr a (twKey t thrdP) 0x70) 1 ∧ changesOnly [.thrd t, .ctrs] a b)
  ∧ (∀ (t : TwinId) (e c : Nat) (h : Thread), Does .delayTick fun a b =>
    storesWf a = true → live a t = true → e < 2048 → a.arb.sum0 = [] → a.arb.sum1 = [] → (∀ u, (tw a u).thrd.asks = []) →
    (tw a (partner t)).thrd.ents = [] → (∀ u, (tw a u).thrd.delays = []) → (tw a t).thrd.ents = [(e, h)] →
    h.st = .running → h.slice ≠ 0 → h.left = 1 → runsOn a (twinNum t * 2048 + e) = some c →
      mapGet {} (tw b t).thrd.ents e = { h with left := 0 } ∧ coreOf b c = { coreOf a c with expired := true }
        ∧ (∀ n, n ≠ c → coreOf b n = coreOf a n) ∧ (tw b t).thrd.ready = (tw a t).thrd.ready
        ∧ changesOnly [.thrd t, .arb] a b)

/-- R334 to R338, R344: the power domains. A domain idle for its time is set to STOPPING and HOLD goes to the driving
twin, which answers ABORT or, withdrawing the port's claims and counting them, WITHDRAWN; ABORT takes the domain back
to RUN, its port going on unless a bank of it rises, and a port that was found ready meanwhile has its engines in
service; a matrix group's clock stops at once and a cluster's once OB_EMPTY has come and no flush of it is
outstanding, with the claims sampled since withdrawn too, or its engines leave service at the limit; a STOPPED domain
is gated on the conditions of R337 and on no other; an access that waits at a domain without a clock and CLK_OK are
recorded for the next tally tick; a bank's power good frees the port's claims; CLU_CTL sets the policy of the domain
selected, a POLICY of 3 reading back 3 and acting as 2 (the model's choice, log entry 46); a stretch sets STRETCHED.
The counters of the PWR page take these events at the next tally tick. -/
def Obligations.DomainsStopAndStart : Prop :=
  (∀ dom : BitVec 8, Does (.idleExpiry dom) fun a b =>
    ∀ d, d = dom.toNat → storesWf a = true → d < 144 → domBegun a d = true → pwrEnabled a = true →
    (domOf a d).st = .run → (domOf a d).policy < 2 →
      (domIdle a d = true → domOf b d = { domOf a d with st := .stopping, msg := .hold }
          ∧ (∀ n, n ≠ d → domOf b n = domOf a n) ∧ changesOnly [.proof] a b)
        ∧ (domIdle a d = false → changesOnly [] a b))
  ∧ (∀ dom : BitVec 8, Does (.hold dom) fun a b =>
    ∀ d, d = dom.toNat → storesWf a = true → (domOf a d).msg = .hold → live a (driving a d) = true →
      (quiet a d [driving a d] = false ∨ wakeCause a d = true → (∀ p ∈ a.engines, p.2.claims = []) →
          (∀ t, (tw a t).desk.heldGrants = []) →
          domOf b d = { domOf a d with msg := .abort } ∧ (∀ n, n ≠ d → domOf b n = domOf a n)
            ∧ mapGet false b.holds (portOfGroup d) = bankRising a d ∧ changesOnly [.proof, .holds] a b)
        ∧ (quiet a d [driving a d] = true → wakeCause a d = false →
          domOf b d = { domOf a d with msg := .withdrawn } ∧ (∀ n, n ≠ d → domOf b n = domOf a n)
            ∧ mapGet false b.holds (portOfGroup d) = true ∧ withdrawnPort d a b
            ∧ changesOnly [.proof, .holds, .engines] a b))
  ∧ (∀ (dom : BitVec 8) (i : Nat), Does (.abort dom) fun a b =>
    ∀ d, d = dom.toNat → storesWf a = true → (domOf a d).msg = .abort → (domOf a d).portReady = true →
    (domOf a d).serviced = false → (∀ p ∈ a.engines, p.2.claims = []) → (∀ t, (tw a t).desk.heldGrants = []) →
    i < (portEngines d).2 →
      (domOf b d).st = .run ∧ (domOf b d).serviced = true ∧ (engOf b ((portEngines d).1 + i)).inService = true
        ∧ (∀ n, n ≠ d → domOf b n = domOf a n)
        ∧ mapGet 0 b.proof.events 0x48 = mapGet 0 a.proof.events 0x48 + 1)
  ∧ (∀ dom : BitVec 8, Does (.abort dom) fun a b =>
    ∀ d, d = dom.toNat → storesWf a = true → (domOf a d).msg = .abort → (∀ p ∈ a.engines, p.2.claims = []) →
    (∀ t, (tw a t).desk.heldGrants = []) → ((domOf a d).portReady = true → (domOf a d).serviced = true) →
      domOf b d = { domOf a d with st := .run, msg := .none, idle := 0, accWake := false, obEmpty := false, clkOk := false }
        ∧ (∀ n, n ≠ d → domOf b n = domOf a n)
        ∧ mapGet 0 b.proof.events 0x48 = mapGet 0 a.proof.events 0x48 + 1
        ∧ mapGet false b.holds (portOfGroup d) = bankRising a d ∧ changesOnly [.proof, .holds] a b)
  ∧ (∀ dom : BitVec 8, Does (.withdrawn dom) fun a b =>
    ∀ d, d = dom.toNat → storesWf a = true → (domOf a d).msg = .withdrawn →
      (d < 128 → domOf b d = { domOf a d with msg := .draining } ∧ (∀ n, n ≠ d → domOf b n = domOf a n)
          ∧ changesOnly [.proof] a b)
        ∧ (128 ≤ d → domStopped d a b ∧ changesOnly [.proof, .engines, .out] a b))
  ∧ (∀ dom : BitVec 8, Does (.obEmpty dom) fun a b =>
    ∀ d, d = dom.toNat → storesWf a = true → (domOf a d).msg = .draining → d < 128 →
      ((flushOf a d).out = false →
          domStopped d a b ∧ flushOf b d = { flushOf a d with dirty := false }
            ∧ (∀ n, n ≠ d → flushOf b n = flushOf a n) ∧ changesOnly [.proof, .flushes, .engines, .out] a b)
        ∧ ((flushOf a d).out = true → domOf b d = { domOf a d with obEmpty := true }
            ∧ (∀ n, n ≠ d → domOf b n = domOf a n) ∧ changesOnly [.proof] a b))
  ∧ (∀ dom : BitVec 8, Does (.stopTimeout dom) fun a b =>
    ∀ d, d = dom.toNat → storesWf a = true → (domOf a d).msg = .draining → (domOf a d).obEmpty = false → d < 144 →
    (∀ p ∈ a.engines, p.2.claims = []) →
      domOf b d = { domOf a d with st := .run, msg := .none, idle := 0, clkOk := false, accWake := false }
        ∧ (∀ n, n ≠ d → domOf b n = domOf a n) ∧ mapGet false b.holds (portOfGroup d) = bankRising a d
        ∧ (∀ i, i < (portEngines d).2 → (engOf b ((portEngines d).1 + i)).inService = false))
  ∧ (∀ dom : BitVec 8, Does (.gateExpiry dom) fun a b =>
    ∀ d, d = dom.toNat → storesWf a = true →
      ((domOf a d).st = .stopped → fld (reg a pwrKey 0x118) 31 16 ≠ 0 → (domOf a d).policy = 0 →
        (d < 128 → mapGet 0 a.proof.banks d = 0 ∧ mapGet 0 a.proof.rising d = 0 ∧ tubeInCluster a d = false) →
          domOf b d = { domOf a d with st := .gated } ∧ (∀ n, n ≠ d → domOf b n = domOf a n) ∧ b.out = [.domPower d false]
            ∧ mapGet 0 b.proof.events 0x58 = mapGet 0 a.proof.events 0x58 + 1 ∧ changesOnly [.proof, .out] a b)
        ∧ ((domOf a d).st ≠ .stopped ∨ fld (reg a pwrKey 0x118) 31 16 = 0 ∨ (domOf a d).policy ≠ 0
            ∨ (d < 128 ∧ (mapGet 0 a.proof.banks d ≠ 0 ∨ mapGet 0 a.proof.rising d ≠ 0 ∨ tubeInCluster a d = true)) →
          changesOnly [] a b))
  ∧ (∀ cluster : BitVec 7, Does (.accessWake cluster) fun a b =>
    ∀ d, d = cluster.toNat → storesWf a = true →
      ((domOf a d).st = .stopping ∨ (domOf a d).st = .stopped ∨ (domOf a d).st = .gated →
          domOf b d = { domOf a d with accWake := true } ∧ (∀ n, n ≠ d → domOf b n = domOf a n) ∧ changesOnly [.proof] a b)
        ∧ ((domOf a d).st = .run ∨ (domOf a d).st = .starting → changesOnly [] a b))
  ∧ (∀ dom : BitVec 8, Does (.clkOk dom) fun a b =>
    ∀ d, d = dom.toNat → storesWf a = true → (domOf a d).st = .starting →
      domOf b d = { domOf a d with clkOk := true } ∧ (∀ n, n ≠ d → domOf b n = domOf a n) ∧ changesOnly [.proof] a b)
  ∧ (∀ (cluster : BitVec 7) (bank : BitVec 4), Does (.bankPowerGood cluster bank) fun a b =>
    ∀ c, c = cluster.toNat → ∀ n, n = bank.toNat → storesWf a = true → mapGet 0 a.proof.rising c = 2 ^ n →
    (domOf a c).st = .run → (∀ p ∈ a.engines, p.2.claims = []) → (∀ t, (tw a t).desk.heldGrants = []) →
      mapGet 0 b.proof.rising c = 0 ∧ mapGet 0 b.proof.banks c = (mapGet 0 a.proof.banks c ||| 2 ^ n)
        ∧ b.proof.doms = a.proof.doms ∧ mapGet false b.holds (portOfGroup c) = false ∧ changesOnly [.proof, .holds] a b)
  ∧ (∀ (src : Requester) (acc : Access) (value : Word64), Does (.cluCtlWrite src acc value) fun a b =>
    ∀ d, d = fld (reg a pwrKey 0x100) 7 0 → storesWf a = true → served a src pwrKey = true → covers acc 0 = true →
      (d ≤ 143 → domOf b d = { domOf a d with policy := value.toNat % 4 } ∧ (∀ n, n ≠ d → domOf b n = domOf a n)
          ∧ changesOnly [.proof] a b)
        ∧ (143 < d → changesOnly [] a b))
  ∧ (∀ dom : BitVec 8, Does (.clockStretch dom) fun a b =>
    ∀ d, d = dom.toNat → storesWf a = true → d ≤ 143 →
      domOf b d = { domOf a d with stretched := true } ∧ (∀ n, n ≠ d → domOf b n = domOf a n) ∧ changesOnly [.proof] a b)

/-- R339 to R345: power, voltage and time. At each period the Proofer reads the input power; a reading clears the
losses, stores P, its rounding and a negative P being free values (log entry 20), and under the cap moves the step by
one, down with the clocks first and up with the rails first; three lost readings in a row set FAILSAFE and PMB_LOST
and take the step to SAFE_STEP, in place of a change in progress (the model's choice, log entry 84); an alert reads
STATUS_WORD, once in a period (the model's choice, log entry 85), and bit 13 or 14 takes the step down by 2; the last
acknowledgement of an upward change starts the settling, whose end switches the clocks, which ends the change; an
unacknowledged command is sent once more and then sets AVS_FAIL; a GATE is refused while a context is open or a thread
runs, and else stops every domain and powers the islands down; LOAD waits for the tick or is refused, and SLEW is
replaced. -/
def Obligations.PowerAndTimeAct : Prop :=
  (Does .capPeriod fun a b =>
    bitOf (reg a pwrKey 0x130) 63 = true → bitOf (reg a pwrKey 0x130) 15 = false → capOn a = true →
      b.proof = { a.proof with reading := true, alerted := false } ∧ b.out = [.pmbus (fld (reg a pwrKey 0x130) 6 0) 0x97 (bitOf (reg a pwrKey 0x130) 17)] ∧ changesOnly [.proof, .out] a b)
  ∧ (Does .capPeriod fun a b =>
    bitOf (reg a pwrKey 0x130) 63 = true → bitOf (reg a pwrKey 0x130) 15 = true → capOn a = true →
      b.proof = { a.proof with reading := true, alerted := false }
        ∧ b.out = [.pmbus (fld (reg a pwrKey 0x130) 6 0) 0x88 (bitOf (reg a pwrKey 0x130) 17), .pmbus (fld (reg a pwrKey 0x130) 6 0) 0x89 (bitOf (reg a pwrKey 0x130) 17)]
        ∧ changesOnly [.proof, .out] a b)
  ∧ (∀ (w1 w2 : BitVec 16), Does (.pmbusReading w1 w2) fun a b =>
    ∀ p, p = powerOf a w1.toNat w2.toNat → storesWf a = true → a.proof.reading = true → capOn a = true →
    a.proof.change = none → a.proof.step ≤ 7 → fld (reg a pwrKey 0x120) 11 0 ≠ 0 →
      ((fld (reg a pwrKey 0x120) 11 0 : Int) * 2 ^ 32 < p → a.proof.step ≠ 0 →
          b.proof = { a.proof with
              reading := false, lost := 0, failsafe := false, pin := pinOf p w1.toNat w2.toNat, step := a.proof.step - 1, change := some { target := a.proof.step - 1 }, events := mapSet 0 a.proof.events 0x78 (mapGet 0 a.proof.events 0x78 + 1) }
            ∧ b.out = [.domFreq (stepMhz a (a.proof.step - 1))] ∧ changesOnly [.proof, .out] a b)
        ∧ (p < ((fld (reg a pwrKey 0x120) 11 0 : Int) - fld (reg a pwrKey 0x120) 43 32) * 2 ^ 32 → a.proof.step < 7 →
          p ≤ (fld (reg a pwrKey 0x120) 11 0 : Int) * 2 ^ 32 →
          b.proof = { a.proof with
              reading := false, lost := 0, failsafe := false, pin := pinOf p w1.toNat w2.toNat, change := some { target := a.proof.step + 1, up := true, stage := .volts, rails := engineRails } }
            ∧ b.out = engineRails.map (fun r => .avs r (stepMv a (a.proof.step + 1))) ∧ changesOnly [.proof, .out] a b)
        ∧ (((fld (reg a pwrKey 0x120) 11 0 : Int) - fld (reg a pwrKey 0x120) 43 32) * 2 ^ 32 ≤ p →
          p ≤ (fld (reg a pwrKey 0x120) 11 0 : Int) * 2 ^ 32 →
          b.proof = { a.proof with reading := false, lost := 0, failsafe := false, pin := pinOf p w1.toNat w2.toNat, change := none }
            ∧ b.out = [] ∧ changesOnly [.proof] a b))
  ∧ (Does .pmbusReadingLost fun a b =>
    storesWf a = true → a.proof.reading = true → a.proof.lost ≠ 2 →
      b.proof = { a.proof with
            reading := false, lost := a.proof.lost + 1, events := mapSet 0 a.proof.events 0x88 (mapGet 0 a.proof.events 0x88 + 1) }
        ∧ changesOnly [.proof] a b)
  ∧ (Does .pmbusReadingLost fun a b =>
    storesWf a = true → a.proof.reading = true → a.proof.lost = 2 → capOn a = true →
    fld (reg a pwrKey 0x120) 58 56 < a.proof.step →
      b.proof = { a.proof with
          reading := false, lost := 3, failsafe := true, step := fld (reg a pwrKey 0x120) 58 56, change := some { target := fld (reg a pwrKey 0x120) 58 56 }, events := b.proof.events }
        ∧ mapGet 0 b.proof.events 0x88 = mapGet 0 a.proof.events 0x88 + 1
        ∧ mapGet 0 b.proof.events 0x78 = mapGet 0 a.proof.events 0x78 + 1
        ∧ (pageOf b pwrKey).errStat = (pageOf a pwrKey).errStat ||| 2 ^ 2
        ∧ b.out = [.domFreq (stepMhz a (fld (reg a pwrKey 0x120) 58 56))] ∧ changesOnly [.proof, .out, .errs] a b)
  ∧ (∀ w : BitVec 16, Does (.pmbAlert w) fun a b =>
    storesWf a = true → bitOf (reg a pwrKey 0x130) 63 = true → bitOf w.toNat 13 = false → bitOf w.toNat 14 = false →
    a.proof.alerted = false →
      b.proof = { a.proof with alertWord := w.toNat, alerted := true }
        ∧ b.out = [.pmbus (fld (reg a pwrKey 0x130) 6 0) 0x79 (bitOf (reg a pwrKey 0x130) 17), .pmbus (fld (reg a pwrKey 0x130) 6 0) 0x03 (bitOf (reg a pwrKey 0x130) 17)]
        ∧ changesOnly [.proof, .out] a b)
  ∧ (∀ w : BitVec 16, Does (.pmbAlert w) fun a b =>
    storesWf a = true → bitOf (reg a pwrKey 0x130) 63 = true → bitOf w.toNat 13 = true ∨ bitOf w.toNat 14 = true →
    a.proof.alerted = false → a.proof.change = none → a.proof.step ≠ 0 →
      b.proof = { a.proof with alertWord := w.toNat, alerted := true, step := a.proof.step - 2, change := some { target := a.proof.step - 2 }, events := mapSet 0 a.proof.events 0x78 (mapGet 0 a.proof.events 0x78 + 1) }
        ∧ b.out = [.pmbus (fld (reg a pwrKey 0x130) 6 0) 0x79 (bitOf (reg a pwrKey 0x130) 17), .domFreq (stepMhz a (a.proof.step - 2)), .pmbus (fld (reg a pwrKey 0x130) 6 0) 0x03 (bitOf (reg a pwrKey 0x130) 17)]
        ∧ (pageOf b pwrKey).errStat = (pageOf a pwrKey).errStat ||| 2 ^ 3
        ∧ changesOnly [.proof, .out, .errs] a b)
  ∧ (∀ (r : Rail) (c : StepChange), Does (.avsAck r) fun a b =>
    r ∉ a.proof.initRails → a.proof.change = some c → c.stage = .volts → c.rails = [r] →
      b.proof = { a.proof with change := if c.up then some { c with rails := [], stage := .settling } else none }
        ∧ changesOnly [.proof] a b)
  ∧ (∀ (r : Rail) (c : StepChange), Does (.avsFail r) fun a b =>
    storesWf a = true → r ∉ a.proof.initRails → a.proof.change = some c → c.stage = .volts → r ∈ c.rails →
      (r ∉ c.resent → b.proof = { a.proof with change := some { c with resent := r :: c.resent } }
          ∧ b.out = [.avs r (stepMv a c.target)] ∧ changesOnly [.proof, .out] a b)
        ∧ (r ∈ c.resent → c.up = true → b.proof = { a.proof with change := none }
          ∧ (pageOf b pwrKey).errStat = (pageOf a pwrKey).errStat ||| 2 ^ 4 ∧ changesOnly [.proof, .errs] a b))
  ∧ (∀ c : StepChange, Does .settleExpiry fun a b =>
    a.proof.init ≠ .settling → a.proof.change = some c → c.stage = .settling →
      b.proof = { a.proof with change := some { c with stage := .switching } } ∧ b.out = [.domFreq (stepMhz a c.target)]
        ∧ changesOnly [.proof, .out] a b)
  ∧ (∀ c : StepChange, Does .clockSwitched fun a b =>
    storesWf a = true → a.proof.change = some c → c.stage = .switching →
      (c.up = true → b.proof = { a.proof with step := c.target, change := none, events := mapSet 0 a.proof.events 0x80 (mapGet 0 a.proof.events 0x80 + 1) }
          ∧ changesOnly [.proof] a b)
        ∧ (c.up = false → b.proof = { a.proof with change := some { c with stage := .volts, rails := engineRails } }
          ∧ b.out = engineRails.map (fun r => .avs r (stepMv a c.target)) ∧ changesOnly [.proof, .out] a b))
  ∧ (∀ src : Requester, Does (.blockGate src) fun a b =>
    storesWf a = true → served a src pwrKey = true →
      (anyOpen a = true → b.proof = { a.proof with gateStat := 1 }
          ∧ (pageOf b pwrKey).errStat = (pageOf a pwrKey).errStat ||| 2 ^ 1 ∧ changesOnly [.proof, .errs] a b)
        ∧ (anyOpen a = false → anyRunning a = true → b.proof = { a.proof with gateStat := 2 }
          ∧ (pageOf b pwrKey).errStat = (pageOf a pwrKey).errStat ||| 2 ^ 1 ∧ changesOnly [.proof, .errs] a b)
        ∧ (anyOpen a = false → anyRunning a = false → b.boot = { a.boot with gated := true } ∧ b.proof.gateStat = 0
          ∧ (∀ d, d < 144 → (domOf b d).st = .stopped)
          ∧ (∀ d, d < 144 → (domOf b d).stretched = ((domOf a d).stretched || ((domOf a d).st != .stopped && (domOf a d).st != .gated)))
          ∧ .islandPower .pair false ∈ b.out))
  ∧ (∀ (src : Requester) (value : Word64), Does (.timeLoad src value) fun a b =>
    storesWf a = true → served a src timeKey = true →
      (anyOpen a = false → b.proof = { a.proof with load := some value.toNat } ∧ b.time = a.time ∧ changesOnly [.proof] a b)
        ∧ (anyOpen a = true → (pageOf b timeKey).errStat = (pageOf a timeKey).errStat ||| 2 ^ 0 ∧ changesOnly [.errs] a b))
  ∧ (∀ (src : Requester) (value : BitVec 32), Does (.timeSlew src value) fun a b =>
    served a src timeKey = true → b.proof = { a.proof with slew := value.toInt } ∧ changesOnly [.proof] a b)

/-- R379 to R383, R392, R393: the optional counters, the freeze and the halt. A START zeroes its counters and runs
them, a STOP stops them; a raised freeze is recorded with its tick and goes to the partner, or is counted as ignored
while one is pending or held; it applies in both twins once the second tick after its raise has come, and at the next
tick at the latest (a command of its own within that tick is the model's choice, log entry 55), the counters as they
stand kept as the view, and with it the halts asked for; THAW ends the view once a tally tick has come after it and
resumes the halted twins, which apply the credits that fell to them, sample the words that waited and drive the grants
that were kept for them; the limit of a halt resumes its twin with HALT_STATUS 3. -/
def Obligations.FreezesAndHaltsAct : Prop :=
  (∀ (src : Requester) (t : TwinId) (i : BitVec 12), Does (.optStart src t i i) fun a b =>
    ∀ n, n = i.toNat → storesWf a = true → served a src (twKey t cntP) = true →
      mapGet {} (tw b t).obs.opts n = { mapGet {} (tw a t).obs.opts n with run := true, value := 0 }
        ∧ (∀ j, j ≠ n → mapGet {} (tw b t).obs.opts j = mapGet {} (tw a t).obs.opts j)
        ∧ (tw b t).obs.staged = (tw a t).obs.staged
        ∧ ctr b (twKey t cntP) 0x48 = satAdd ctrMax (ctr a (twKey t cntP) 0x48) 1 ∧ changesOnly [.obs t, .ctrs] a b)
  ∧ (∀ (src : Requester) (t : TwinId) (first last : BitVec 12), Does (.optStart src t first last) fun a b =>
    served a src (twKey t cntP) = true → last.toNat < first.toNat → changesOnly [] a b)
  ∧ (∀ (src : Requester) (t : TwinId) (i : BitVec 12), Does (.optStop src t i i) fun a b =>
    ∀ n, n = i.toNat → storesWf a = true → served a src (twKey t cntP) = true →
      mapGet {} (tw b t).obs.opts n = { mapGet {} (tw a t).obs.opts n with run := false }
        ∧ (∀ j, j ≠ n → mapGet {} (tw b t).obs.opts j = mapGet {} (tw a t).obs.opts j)
        ∧ (tw b t).obs.staged = (tw a t).obs.staged ∧ changesOnly [.obs t] a b)
  ∧ (∀ src : Requester, Does (.freeze src) fun a b =>
    served a src blkKey = true →
      (a.freeze.pending = false → a.freeze.frozen = none →
          b.freeze = { a.freeze with pending := true, tick := a.ticks, haltReq := 0 }
            ∧ (tw b .t1).ctrlIn = (tw a .t1).ctrlIn ++ [.freeze a.ticks] ∧ changesOnly [.freeze, .ctrlIn .t1] a b)
        ∧ (a.freeze.pending = true ∨ a.freeze.frozen ≠ none →
          b.freeze = { a.freeze with ignored := satAdd 255 a.freeze.ignored 1 } ∧ changesOnly [.freeze] a b))
  ∧ (∀ (src : Requester) (twins : BitVec 2), Does (.freezeHalt src twins) fun a b =>
    served a src blkKey = true → a.freeze.pending = false → a.freeze.frozen = none →
      b.freeze = { a.freeze with pending := true, tick := a.ticks, haltReq := twins.toNat }
        ∧ (tw b .t1).ctrlIn = (tw a .t1).ctrlIn ++ [.freeze a.ticks] ∧ changesOnly [.freeze, .ctrlIn .t1] a b)
  ∧ (∀ (t : TwinId) (n : Nat) (rest : List ControlItem), Does (.freezeItem t) fun a b =>
    (tw a t).ctrlIn = .freeze n :: rest → (tw b t).ctrlIn = rest ∧ changesOnly [.ctrlIn t] a b)
  ∧ (Does .freezeApply fun a b =>
    storesWf a = true → a.freeze.pending = true → a.freeze.tick + 2 ≤ a.ticks → a.freeze.haltReq = 0 →
      b.freeze = { a.freeze with
          pending := false, frozen := some (snapshot a), tickNs := a.time % 2 ^ 48, haltReq := 0, haltStatus := 0 }
        ∧ (∀ t, ctr b (twKey t cntP) 0x40 = satAdd ctrMax (ctr a (twKey t cntP) 0x40) 1)
        ∧ changesOnly [.freeze, .obs .t0, .obs .t1, .out, .errs, .ctrs] a b)
  ∧ (∀ t : TwinId, Does .freezeApply fun a b =>
    storesWf a = true → a.freeze.pending = true → a.freeze.tick + 2 ≤ a.ticks → a.freeze.haltReq = 2 ^ twinNum t → a.ctxs = [] → (tw a t).svc = .inService →
      b.freeze = { a.freeze with pending := false, frozen := some (snapshot a), tickNs := a.time % 2 ^ 48, haltReq := 0, haltStatus := 0 }
        ∧ (tw b t).halted = true ∧ changesOnly [.freeze, .halted t, .obs .t0, .obs .t1, .out, .errs, .ctrs] a b)
  ∧ (∀ src : Requester, Does (.thaw src) fun a b =>
    served a src blkKey = true →
      (a.freeze.frozen ≠ none → a.freeze.thawing = false → b.freeze = { a.freeze with thawing := true, thawTick := a.ticks }
          ∧ changesOnly [.freeze] a b)
        ∧ (a.freeze.frozen = none ∨ a.freeze.thawing = true → changesOnly [] a b))
  ∧ (Does .thawApply fun a b =>
    storesWf a = true → a.freeze.thawing = true → a.freeze.thawTick < a.ticks → (∀ t, (tw a t).halted = false) →
      b.freeze = { a.freeze with frozen := none, thawing := false }
        ∧ changesOnly [.freeze, .obs .t0, .obs .t1, .out, .errs, .ctrs] a b)
  ∧ (∀ t : TwinId, Does .thawApply fun a b =>
    storesWf a = true → a.freeze.thawing = true → a.freeze.thawTick < a.ticks → (tw a t).halted = true →
    (tw a (partner t)).halted = false → (∀ p ∈ a.engines, p.2.claims = []) → (∀ c, (coreOf a c).asking = false) →
    (tw a t).thrd.asks = [] → (tw a t).desk.heldGrants = [] →
      b.freeze = { a.freeze with frozen := none, thawing := false } ∧ (tw b t).halted = false ∧ (tw b t).crossing = []
        ∧ b.work = a.work ++ (a.heldSteps.filter (fun w => stepTwin w == some t) ++ .unbound 0 :: (tw a t).crossing.map .crossing)
        ∧ b.heldSteps = a.heldSteps.filter (fun w => stepTwin w != some t)
        ∧ changesOnly [.freeze, .halted t, .crossing t, .obs .t0, .obs .t1, .work, .heldSteps, .out, .errs, .ctrs] a b)
  ∧ (∀ t : TwinId, Does (.haltLimit t) fun a b =>
    (tw a t).halted = true → (∀ p ∈ a.engines, p.2.claims = []) → (∀ c, (coreOf a c).asking = false) → (tw a t).thrd.asks = [] →
    (tw a t).desk.heldGrants = [] →
      b.freeze = { a.freeze with haltStatus := 3 } ∧ (tw b t).halted = false ∧ (tw b t).crossing = []
        ∧ b.work = a.work ++ (a.heldSteps.filter (fun w => stepTwin w == some t) ++ .unbound 0 :: (tw a t).crossing.map .crossing)
        ∧ b.heldSteps = a.heldSteps.filter (fun w => stepTwin w != some t)
        ∧ changesOnly [.freeze, .halted t, .crossing t, .work, .heldSteps] a b)
  ∧ (∀ (t : TwinId) (w : GrantWord) (tag load : Nat) (dd : Int) (c : Claim), Does (.haltLimit t) fun a b =>
    ∀ g, g = (groupOf w.eng).getD 0 → storesWf a = true → (tw a t).halted = true → serves a t = true → primary a g = t →
    (tw a t).desk.heldGrants = [{ word := w, tag := tag, dd := dd, load := load }] → onPort (portOfGroup g) w.eng = true →
    portHeld a g = false → (engOf a w.eng).claims = [c] → c.seq = tag → (engOf a w.eng).inService = true →
    (ctxTw a t w.ctx).fenced = false → (∀ p ∈ a.engines, p.1 ≠ w.eng → p.2.claims = []) →
    (∀ n, (coreOf a n).asking = false) → (tw a t).thrd.asks = [] →
      b.out = [.grant (portOfGroup g) (grantBits w (!(engOf a w.eng).lastV || (engOf a w.eng).lastCtx != w.ctx))]
        ∧ (engOf b w.eng).claims = []
        ∧ (engOf b w.eng).tasks = (engOf a w.eng).tasks ++ [{ node := w.node, gen := w.gen, ctx := w.ctx, accepted := false }]
        ∧ (tw b t).desk.heldGrants = [] ∧ (tw b t).halted = false ∧ b.freeze = { a.freeze with haltStatus := 3 })

/-- R350 to R361, R370, R373: storage errors, targeted tests, heartbeats and the archive dump. The patrol counts its
passes at the last word of the last group (the model's choice, log entry 50); an error it finds is logged and counted
and its bank's test starts. A double-bit error of a twin's own state makes the twin fatal; one in a word of an open
context's range faults the context with DATA_LOST, one in no such word has no effect but the zero that is written; one
of a thread that runs on no core faults it, and one that runs is pre-empted; one of a counter makes it read 2^48 - 1
until it is cleared; one of a staged record drops it and counts it as lost; one of a duplicated word changes nothing
but the error bits, the counts and the log. The copy of the bank under test ends with the spare in its place; a march
test that finds nothing makes the bank the spare, rows that fit in the bank's spare rows are replaced and tested
again, and any more retire the bank; an injection is armed on a group of its page; a heartbeat and a kick are timed; a
timeout or FATAL asks for the latch, unless the pair is fatal; the watchdog makes its twin fatal with cause 4; the
record sweep ends, and the dump ends with its header, its sections and the header written in one step (the model's
choice, log entry 53), its poison list of at most 4,096 entries. -/
def Obligations.ErrorsAndHealthAct : Prop :=
  (∀ (t : TwinId) (group bank : BitVec 8) (word : BitVec 16), Does (.patrolRead t group bank word .clean) fun a b =>
    ∀ g, g = group.toNat → ∀ r, r = relTwin a t g → storesWf a = true →
      (g ≠ 0x14 ∨ bank.toNat ≠ 127 ∨ word.toNat ≠ 2047 → changesOnly [] a b)
        ∧ (g = 0x14 → bank.toNat = 127 → word.toNat = 2047 → bitOf (reg a (twKey t relP) 0x130) 63 = true →
          ctr b (twKey t relP) 0x78 = satAdd ctrMax (ctr a (twKey t relP) 0x78) 1 ∧ changesOnly [.ctrs] a b))
  ∧ (∀ (t : TwinId) (group bank : BitVec 8) (word : BitVec 16) (i : GroupInfo), Does (.patrolRead t group bank word .single) fun a b =>
    ∀ g, g = group.toNat → ∀ n, n = bank.toNat → storesWf a = true → groupInfo g = some i → i.cls = .twin →
    wordExists i n word.toNat = true → bitOf (reg a (twKey t relP) 0x130) 63 = true → (tw a t).svc ≠ .fatal →
    (tw a t).rel.test = none → (tw a t).rel.queue = [] → (sramOf a t g).noSpare = false →
      mapGet (0, 0) (tw b t).rel.log ((tw a t).rel.count % 64) = (logWord 0 false g n word.toNat none, a.time)
        ∧ (∀ j, j ≠ (tw a t).rel.count % 64 → mapGet (0, 0) (tw b t).rel.log j = mapGet (0, 0) (tw a t).rel.log j)
        ∧ (tw b t).rel.count = (tw a t).rel.count + 1
        ∧ (tw b t).rel.test = some { group := g, bank := n, phys := physOf (sramOf a t g) g n, logNo := (tw a t).rel.count, stage := if n = dataBanks g then .marching else .copying }
        ∧ sramOf b t g = { sramOf a t g with noSpare := true } ∧ (∀ j, j ≠ g → sramOf b t j = sramOf a t j)
        ∧ ctr b (twKey t relP) 0x40 = satAdd ctrMax (ctr a (twKey t relP) 0x40) 1
        ∧ (∀ k, k ∈ groupPages t g → (pageOf b k).errStat = (pageOf a k).errStat ||| 2 ^ 12)
        ∧ changesOnly [.rel t, .errs, .ctrs] a b)
  ∧ (∀ (t : TwinId) (group bank : BitVec 8) (word : BitVec 16) (i : GroupInfo), Does (.patrolRead t group bank word .double) fun a b =>
    ∀ g, g = group.toNat → ∀ n, n = bank.toNat → storesWf a = true → groupInfo g = some i → i.cls = .twin →
    wordExists i n word.toNat = true → bitOf (reg a (twKey t relP) 0x130) 63 = true → (tw a t).svc ≠ .fatal →
    (tw a t).rel.test = none → (tw a t).rel.queue = [] → (sramOf a t g).noSpare = false →
      b.work = a.work ++ [.twinFatal t 1]
        ∧ mapGet (0, 0) (tw b t).rel.log ((tw a t).rel.count % 64) = (logWord 1 false g n word.toNat none, a.time)
        ∧ ctr b (twKey t relP) 0x48 = satAdd ctrMax (ctr a (twKey t relP) 0x48) 1
        ∧ (∀ k, k ∈ groupPages t g → (pageOf b k).errStat = (pageOf a k).errStat ||| 2 ^ 15)
        ∧ changesOnly [.rel t, .work, .errs, .ctrs] a b)
  ∧ (∀ (t : TwinId) (group bank : BitVec 8) (word : BitVec 16) (i : GroupInfo) (k : Nat), Does (.patrolRead t group bank word .double) fun a b =>
    ∀ g, g = group.toNat → ∀ n, n = bank.toNat → ∀ w, w = linear i n word.toNat → ∀ r, r = relTwin a t g →
    storesWf a = true → groupInfo g = some i → i.cls = .ctx → n < i.banks → word.toNat < i.words →
    bitOf (reg a (twKey r relP) 0x130) 63 = true → (tw a r).svc ≠ .fatal → (tw a r).rel.test = none →
    (tw a r).rel.queue = [] → (sramOf a r g).noSpare = false → wordOwner a t g w = some k → (ctxOf a k).st = .opened →
      (ctxOf b k).st = .fenced ∧ (ctxOf b k).tear = .fault ∧ (ctxOf b k).faultStat = faultWord r 0xA0 0
        ∧ (ctxOf b k).faultTime = a.time
        ∧ mapGet (0, 0) (tw b (logTwin a t g)).rel.log ((tw a (logTwin a t g)).rel.count % 64) = (logWord 1 false g n word.toNat (some k), a.time)
        ∧ (g = 0x03 → mapGet 0 (tw b t).cat.fwd (2 * w) = 0 ∧ mapGet 0 (tw b t).cat.fwd (2 * w + 1) = 0)
        ∧ (∀ j, j ≠ k → ctxOf b j = ctxOf a j))
  ∧ (∀ (t : TwinId) (group bank : BitVec 8) (word : BitVec 16) (i : GroupInfo), Does (.patrolRead t group bank word .double) fun a b =>
    ∀ g, g = group.toNat → ∀ n, n = bank.toNat → ∀ w, w = linear i n word.toNat → ∀ r, r = relTwin a t g →
    storesWf a = true → groupInfo g = some i → i.cls = .ctx → n < i.banks → word.toNat < i.words →
    bitOf (reg a (twKey r relP) 0x130) 63 = true → (tw a r).svc ≠ .fatal → (tw a r).rel.test = none →
    (tw a r).rel.queue = [] → (sramOf a r g).noSpare = false →
    (∀ k, wordOwner a t g w = some k → (ctxOf a k).st ≠ .opened) →
      (g = 0x01 → nodeOf b (nodeIdOf t (w / 4)) = zeroNodeWord (w % 4) (nodeOf a (nodeIdOf t (w / 4))))
        ∧ (g = 0x03 → mapGet 0 (tw b t).cat.fwd (2 * w) = 0 ∧ mapGet 0 (tw b t).cat.fwd (2 * w + 1) = 0)
        ∧ ctr b (twKey r relP) 0x48 = satAdd ctrMax (ctr a (twKey r relP) 0x48) 1
        ∧ changesOnly [.cat t, .shelf t, .office t, .bank t, .fmt, .pair, .rel r, .rel (logTwin a t g), .errs, .ctrs] a b)
  ∧ (∀ (t : TwinId) (bank : BitVec 8) (word : BitVec 16) (x : Nat), Does (.patrolRead t 0x10 bank word .double) fun a b =>
    ∀ n, n = bank.toNat → storesWf a = true → n < 4 → word.toNat < 2048 →
    bitOf (reg a (twKey t relP) 0x130) 63 = true → (tw a t).svc ≠ .fatal → (tw a t).rel.test = none →
    (tw a t).rel.queue = [] → (sramOf a t 0x10).noSpare = false →
    x = threadId t ((n * 2048 + word.toNat) / 3) → n * 2048 + word.toNat < 6144 → (threadOf a x).st ≠ .free →
      (runsOn a x = none → (tw a t).thrd.reserved = [] →
          (threadOf b x).st = .faulted
            ∧ (tw b t).thrd.lastErr = 2 ^ 63 + 13 * 2 ^ 48 + x % 4096
            ∧ ctr b (twKey t thrdP) 0x78 = satAdd ctrMax (ctr a (twKey t thrdP) 0x78) 1
            ∧ changesOnly [.thrd t, .rel t, .errs, .ctrs] a b)
        ∧ (∀ c, runsOn a x = some c → (coreOf a c).preempt = none →
          (coreOf b c).preempt = some (x, .poison) ∧ (∃ w, b.out = [.threadWord w])
            ∧ changesOnly [.thrd t, .arb, .rel t, .out, .errs, .ctrs] a b))
  ∧ (∀ (t : TwinId) (bank : BitVec 8) (word : BitVec 16), Does (.patrolRead t 0x12 bank word .double) fun a b =>
    ∀ w, w = bank.toNat * 2048 + word.toNat →
    ∀ n, n = bank.toNat → storesWf a = true → n < 8 → word.toNat < 2048 →
    bitOf (reg a (twKey t relP) 0x130) 63 = true → (tw a t).svc ≠ .fatal → (tw a t).rel.test = none →
    (tw a t).rel.queue = [] → (sramOf a t 0x12).noSpare = false →
      (w < 384 → w % 24 < counterCount (w / 24) → ctr b (twKey t (w / 24)) (0x40 + 8 * (w % 24)) = ctrMax)
        ∧ (∀ k, k < 256 → w = 1024 + k * 24 + (w - 1024) % 24 → (w - 1024) % 24 < ctxCounters → 1024 ≤ w →
          ctr b (ctxKey k) (0x40 + 8 * ((w - 1024) % 24)) = ctrMax)
        ∧ (8192 ≤ w → w < 12288 → mapGet {} (tw b t).obs.opts (w - 8192) = { mapGet {} (tw a t).obs.opts (w - 8192) with value := ctrMax })
        ∧ changesOnly [.obs t, .rel t, .errs, .ctrs] a b)
  ∧ (∀ (t : TwinId) (bank : BitVec 8) (word : BitVec 16), Does (.patrolRead t 0x13 bank word .double) fun a b =>
    ∀ w, w = bank.toNat * 2048 + word.toNat →
    ∀ n, n = bank.toNat → storesWf a = true → n < 4 → word.toNat < 2048 →
    bitOf (reg a (twKey t relP) 0x130) 63 = true → (tw a t).svc ≠ .fatal → (tw a t).rel.test = none →
    (tw a t).rel.queue = [] → (sramOf a t 0x13).noSpare = false →
    w / 4 < (tw a t).obs.staged.length → ((tw a t).obs.ringOut = true → w / 4 ≠ 0) → bookOn a t = false →
      (tw b t).obs = { (tw a t).obs with staged := (tw a t).obs.staged.eraseIdx (w / 4), lostSince := (tw a t).obs.lostSince + 1 }
        ∧ ctr b (twKey t daybP) 0x50 = satAdd ctrMax (ctr a (twKey t daybP) 0x50) 1
        ∧ changesOnly [.obs t, .rel t, .errs, .ctrs] a b)
  ∧ (∀ (t : TwinId) (bank : BitVec 8) (word : BitVec 16), Does (.patrolRead t 0x22 bank word .double) fun a b =>
    ∀ n, n = bank.toNat → ∀ r, r = relTwin a t 0x22 → storesWf a = true → n < 8 → word.toNat < 2048 →
    bitOf (reg a (twKey r relP) 0x130) 63 = true → (tw a r).svc ≠ .fatal → (tw a r).rel.test = none →
    (tw a r).rel.queue = [] → (sramOf a r 0x22).noSpare = false →
      b.pair = { a.pair with groups := b.pair.groups }
        ∧ mapGet (0, 0) (tw b r).rel.log ((tw a r).rel.count % 64) = (logWord 1 false 0x22 n word.toNat none, a.time)
        ∧ ctr b (twKey r relP) 0x48 = satAdd ctrMax (ctr a (twKey r relP) 0x48) 1
        ∧ changesOnly [.pair, .rel r, .errs, .ctrs] a b)
  ∧ (∀ (t : TwinId) (k : BankTest), Does (.bankCopyEnd t) fun a b =>
    storesWf a = true → (tw a t).rel.test = some k → k.stage = .copying → (tw a t).svc ≠ .fatal →
      (tw b t).rel.test = some { k with stage := .marching }
        ∧ sramOf b t k.group = { sramOf a t k.group with
            place := mapSet 0 (sramOf a t k.group).place k.bank (spareOf (sramOf a t k.group) k.group + 1) }
        ∧ (∀ j, j ≠ k.group → sramOf b t j = sramOf a t j) ∧ changesOnly [.rel t] a b)
  ∧ (∀ (t : TwinId) (k : BankTest), Does (.marchTestEnd t 0) fun a b =>
    storesWf a = true → (tw a t).rel.test = some k → k.stage = .marching → (tw a t).svc ≠ .fatal →
    (tw a t).rel.queue = [] →
      (tw b t).rel.test = none ∧ sramOf b t k.group = { sramOf a t k.group with noSpare := false, spare := k.phys + 1 }
        ∧ (∀ j, j ≠ k.group → sramOf b t j = sramOf a t j)
        ∧ ctr b (twKey t relP) 0x50 = satAdd ctrMax (ctr a (twKey t relP) 0x50) 1 ∧ changesOnly [.rel t, .ctrs] a b)
  ∧ (∀ (t : TwinId) (f : Nat) (k : BankTest), Does (.marchTestEnd t f) fun a b =>
    storesWf a = true → (tw a t).rel.test = some k → k.stage ≠ .copying → (tw a t).svc ≠ .fatal → f ≠ 0 →
      (f ≤ rowsLeft (sramOf a t k.group) k.phys →
          (tw b t).rel.test = some { k with stage := .again }
            ∧ sramOf b t k.group = { sramOf a t k.group with
                rows := mapSet 0 (sramOf a t k.group).rows k.phys (mapGet 0 (sramOf a t k.group).rows k.phys + f) }
            ∧ (∀ j, j ≠ k.group → sramOf b t j = sramOf a t j)
            ∧ ctr b (twKey t relP) 0x60 = satAdd ctrMax (ctr a (twKey t relP) 0x60) f ∧ changesOnly [.rel t, .ctrs] a b)
        ∧ (rowsLeft (sramOf a t k.group) k.phys < f → (tw a t).rel.queue = [] →
          (tw b t).rel.test = none ∧ sramOf b t k.group = { sramOf a t k.group with retired := (sramOf a t k.group).retired + 1 }
            ∧ (∀ j, j ≠ k.group → sramOf b t j = sramOf a t j)
            ∧ ctr b (twKey t relP) 0x68 = satAdd ctrMax (ctr a (twKey t relP) 0x68) 1
            ∧ changesOnly [.rel t, .errs, .ctrs] a b))
  ∧ (∀ (src : Requester) (page : PageId) (value : Word64), Does (.errInjectWrite src page .full value) fun a b =>
    ∀ k, k = keyOf page → ∀ v, v = value.toNat → storesWf a = true → served a src k = true →
    k ∈ groupPages .t0 (fld v 55 48) ∨ k ∈ groupPages .t1 (fld v 55 48) →
      (fld v 57 56 = 1 ∨ fld v 57 56 = 2 →
          (pageOf b k).inj = b2n (bitOf v 63) * 2 ^ 63 + fld v 57 56 * 2 ^ 56 + fld v 55 48 * 2 ^ 48
            ∧ (∀ j, j ≠ k → pageOf b j = pageOf a j) ∧ changesOnly [.regs] a b)
        ∧ (fld v 57 56 ≠ 1 → fld v 57 56 ≠ 2 → changesOnly [] a b))
  ∧ (∀ t : TwinId, Does (.heartbeat t) fun a b =>
    serves a (partner t) = true → (tw b t).rel = { (tw a t).rel with beatAt := a.ticks } ∧ changesOnly [.rel t] a b)
  ∧ (∀ t : TwinId, Does (.heartbeatTimeout t) fun a b =>
    storesWf a = true → serves a t = true → (tw a (partner t)).svc = .inService → a.pair.latch ≠ some t → t ∉ a.pair.asks →
    a.pair.isFatal = false →
      b.pair = { a.pair with asks := a.pair.asks ++ [t] }
        ∧ (pageOf b (twKey t relP)).errStat = (pageOf a (twKey t relP)).errStat ||| 2 ^ 4 ∧ changesOnly [.pair, .errs] a b)
  ∧ (∀ t : TwinId, Does (.watchdog t) fun a b =>
    storesWf a = true → 7 ≤ a.phase → a.phase ≤ 9 → bitOf (reg a (twKey t relP) 0x138) 63 = true → (tw a t).svc = .inService →
    (tw a (partner t)).svc = .inService → a.pair.op = none → a.pair.isFatal = false → bitOf (reg a blkKey 0x250) 4 = false →
    (∀ c, (coreOf a c).running = none) → (∀ c, (coreOf a c).asking = false) →
      (tw b t).svc = .fatal ∧ (tw b t).edgeIn = [] ∧ (tw b t).claimIn = []
        ∧ (tw b (partner t)).ctrlIn = (tw a (partner t)).ctrlIn ++ [.fatal]
        ∧ b.pair = (match t with
            | .t0 => { a.pair with cause0 := 4, causeTime := a.time }
            | .t1 => { a.pair with cause1 := 4, causeTime := a.time })
        ∧ (pageOf b (twKey t relP)).errStat = (pageOf a (twKey t relP)).errStat ||| 2 ^ 5
        ∧ changesOnly [.svc t, .edgeIn t, .claimIn t, .thrd t, .ctrlIn (partner t), .arb, .pair, .heldSteps, .errs] a b)
  ∧ (∀ (src : Requester) (t : TwinId) (value : Word64), Does (.wdogKick src t value) fun a b =>
    served a src (twKey t relP) = true →
      (bitOf value.toNat 0 = true → (tw b t).rel = { (tw a t).rel with kickAt := a.ticks } ∧ changesOnly [.rel t] a b)
        ∧ (bitOf value.toNat 0 = false → changesOnly [] a b))
  ∧ (∀ (t : TwinId) (rest : List ControlItem), Does (.fatal t) fun a b =>
    (tw a t).ctrlIn = .fatal :: rest → serves a t = true → a.pair.latch ≠ some t → t ∉ a.pair.asks → a.pair.isFatal = false →
      b.pair = { a.pair with asks := a.pair.asks ++ [t] } ∧ (tw b t).ctrlIn = rest ∧ changesOnly [.pair, .ctrlIn t] a b)
  ∧ (∀ (t : TwinId) (rest : List ControlItem), Does (.fatal t) fun a b =>
    (tw a t).ctrlIn = .fatal :: rest → a.pair.isFatal = true → (tw b t).ctrlIn = rest ∧ changesOnly [.ctrlIn t] a b)
  ∧ (∀ t : TwinId, Does (.recordSweepEnd t) fun a b =>
    a.pair.latch = some t → a.pair.sweeping = true → live a t = true → (tw a t).desk.recs = [] → a.pair.isFatal = false →
      b.pair = (if bitOf (reg a blkKey 0x110) 63
          then { a.pair with sweeping := false, dumpBusy := true, dumpTwin := partner t } else { a.pair with sweeping := false })
        ∧ changesOnly [.pair] a b)
  ∧ (∀ (t : TwinId) (sections : BitVec 9) (poison : List (BitVec 8 × BitVec 32)), Does (.dumpEnd t sections poison) fun a b =>
    ∀ n, n = sections.toNat → ∀ f, f = partner t → ∀ base, base = fld (reg a blkKey 0x110) 47 20 * 2 ^ 20 → a.pair.dumpBusy = true → a.pair.dumpTwin = partner t → live a t = true →
      b.out = (((List.range 9).filter fun i => bitOf n i).map fun i =>
            .nocWrite f (base + dumpOffset i) (dumpSection a f ((poison.take 4096).map fun p => (p.1.toNat, p.2.toNat)) i))
          ++ [.nocWrite t base ([0x43544450 * 2 ^ 32 + 2 ^ 16 + twinNum (partner t) * 2 ^ 8 + (match partner t with
              | .t0 => a.pair.cause0
              | .t1 => a.pair.cause1) % 256,
            a.pair.causeTime % 2 ^ 64, a.time % 2 ^ 64, min 4096 poison.length * 2 ^ 48 + n % 2 ^ 9] ++ List.replicate 508 0)]
        ∧ b.pair = { a.pair with dumpBusy := false, dumpDone := true, dumpPartial := decide (n % 2 ^ 9 ≠ 0x1FF), dumpStatus := n % 2 ^ 9 }
        ∧ changesOnly [.pair, .out] a b)

/-- R360 to R369: the twins' changes of service. The latch goes to the oldest request: its twin takes over, drives
every port, and its partner is fatal; each open context that is homed in the partner, or has a range enabled in it, is
fenced with TWIN_LOST, the engines of the partner's ports are out of service with no claim and no task, the clusters
of those ports are DIRTY, what the partner sent is dropped and its summary entries are forgotten; the sweep of the
records closes each that names an engine of those ports, its node READY to be placed again. A DETACH that meets its
conditions drains the twin and HANDOVER passes its ports to the partner, and the full self-test ends it DETACHED; one
that does not meet them reports the first STATUS of 1, 4, 2 and 3 that applies (the order is the model's choice, log
entry 32). The receiver of HANDOVER takes the ports with their counters from zero, the clusters of the DIRTY mask, and
the claims held, each as newly sampled: it grants what its own racks give, and holds the rest. A REJOIN exchanges
RESYNC, which empties the channels, and HANDOVER gives the ports back and releases the latch; it reports STATUS 5
after a failed test, before it looks for 1 (the model's choice, log entry 32), and 1 unless the twin is DETACHED and
its partner IN_SERVICE. FAIL makes a twin fatal with cause 6; RECOVER of a fatal twin starts its test, whose failure
leaves it fatal with cause 8, and is refused with STATUS 1 when the pair is fatal (the model's choice, log entry 52),
which also fixes the order in which a takeover acts (log entry 51). The full self-test replaces failing rows while
rows are free, puts the spare in the place of a bank beyond repair, and fails, naming the group, when a group is left
a bank short. -/
def Obligations.TwinsChangeService : Prop :=
  (∀ (t : TwinId) (rest : List TwinId), Does .latchAnswer fun a b =>
    a.pair.asks = t :: rest → a.pair.latch = none → (tw a t).svc = .inService → (tw a (partner t)).svc = .inService →
    a.pair.isFatal = false →
      b.pair.latch = some t ∧ b.pair.driver = some t ∧ b.pair.sweeping = true ∧ b.pair.asks = rest
        ∧ (tw b t).svc = .inService ∧ (tw b (partner t)).svc = .fatal
        ∧ (match partner t with
            | .t0 => b.pair.cause0
            | .t1 => b.pair.cause1) = if partner t ∈ rest then 7 else 5)
  ∧ (∀ (t : TwinId) (rest : List TwinId) (k : Nat), Does .latchAnswer fun a b =>
    storesWf a = true → a.pair.asks = t :: rest → a.pair.latch = none → (tw a t).svc = .inService →
    (tw a (partner t)).svc = .inService → a.pair.isFatal = false → (ctxOf a k).st = .opened →
    (ctxOf a k).home = partner t ∨ usesTwin a (partner t) k = true →
      (ctxOf b k).st = .fenced ∧ (ctxOf b k).tear = .fault ∧ (ctxOf b k).faultStat = faultWord t 0x91 0
        ∧ (ctxOf b k).faultTime = a.time ∧ (ctxOf b k).home = (ctxOf a k).home)
  ∧ (∀ (t : TwinId) (rest : List TwinId) (e c : Nat), Does .latchAnswer fun a b =>
    storesWf a = true → a.pair.asks = t :: rest → a.pair.latch = none → (tw a t).svc = .inService →
    (tw a (partner t)).svc = .inService → a.pair.isFatal = false →
      (ownPort (partner t) e = true →
          (engOf b e).inService = false ∧ (engOf b e).claims = [] ∧ (engOf b e).tasks = [])
        ∧ (c < 128 → primaryOfGroup c = partner t → (flushOf b c).dirty = true)
        ∧ (tw b t).rack.sumRx = [] ∧ (tw b t).edgeIn = [] ∧ (tw b t).ctrlIn = [])
  ∧ (∀ (t : TwinId) (n i : Nat) (q : CircRec), Does (.recordSweepEnd t) fun a b =>
    storesWf a = true → a.pair.latch = some t → a.pair.sweeping = true → live a t = true → a.pair.isFatal = false →
    (tw a t).desk.recs = [(i, q)] → q.st = .issued ∨ q.st = .accepted → ownPort (partner t) q.eng = true →
    q.node = n → homeOf n = t → (nodeOf a n).st = .granted → (nodeOf a n).wcount = false →
    openRecOf a n q.gen = some (i, q) →
    unfenced a t q.ctx = true → (tw a t).rack.keptNoRec = [] → (ctxTw a t q.ctx).inflHeld = false →
      recOf b t i = {} ∧ nodeOf b n = { nodeOf a n with st := .ready, readyAt := a.time }
        ∧ b.work = a.work ++ [.place n false true] ∧ b.pair.sweeping = false
        ∧ (bookOn a t = false → b.out = [])
        ∧ changesOnly [.cat t, .desk t, .obs t, .pair, .work, .out, .ctrs] a b)
  ∧ (∀ (src : Requester) (t : TwinId), Does (.detach src t) fun a b =>
    served a src blkKey = true → a.pair.op = none →
    ∀ st, st = (if (tw a t).svc ≠ .inService then 1 else if (tw a (partner t)).svc ≠ .inService then 4
      else if ctxsIn a t ≠ [] then 2 else if (tw a t).thrd.ents.any (fun p => p.2.st != .free) = true then 3 else 0) →
      (st = 0 → (∀ p ∈ (tw a t).rack.lanes, p.2.copies = []) → (tw a t).ctxs = [] → a.arb.cores = [] →
          b.pair = { a.pair with op := some (.detach, t), handed := false, status := 0 } ∧ (tw b t).svc = .detaching
            ∧ changesOnly [.pair, .svc t, .rack t, .ctxTws t, .thrd t, .arb] a b)
        ∧ (st ≠ 0 → b.pair = { a.pair with status := st } ∧ changesOnly [.pair] a b))
  ∧ (∀ t : TwinId, Does (.detachDrained t) fun a b =>
    a.pair.op = some (.detach, t) → a.pair.handed = false → live a t = true → drained a t = true → resyncing a = false →
      b.pair = { a.pair with handed := true }
        ∧ (tw b (partner t)).ctrlIn = (tw a (partner t)).ctrlIn
            ++ [.handover { dirty := (a.flushes.filter fun p => primaryOfGroup p.1 == t && p.2.dirty).map (·.1) }]
        ∧ changesOnly [.pair, .ctrlIn (partner t)] a b)
  ∧ (∀ (t : TwinId) (rest : List ControlItem) (ds : List Nat), Does (.handover t) fun a b =>
    storesWf a = true → (tw a t).halted = false → (tw a t).ctrlIn = .handover { dirty := ds } :: rest →
    a.pair.op = some (.detach, partner t) → (∀ p ∈ a.engines, p.2.claims = []) ∨ (tw a t).rack.lanes = [] →
    (tw a (partner t)).svc ≠ .inService →
      b.pair = { a.pair with driver := some t } ∧ (tw b t).ctrlIn = rest
        ∧ (∀ c, flushOf b c = if c ∈ ds then { flushOf a c with dirty := true } else flushOf a c)
        ∧ (tw b t).obs = { (tw a t).obs with ports := (tw a t).obs.ports.filter fun p => primaryOfGroup p.1 == t }
        ∧ changesOnly [.pair, .ctrlIn t, .flushes, .obs t] a b)
  ∧ (∀ (t : TwinId) (rest : List ControlItem) (ds : List Nat) (e key x : Nat) (c : Claim) (l : Lane) (xs : List Nat),
    Does (.handover t) fun a b =>
    ∀ g, g = (groupOf e).getD 0 → storesWf a = true → live a t = true → (tw a (partner t)).svc ≠ .inService →
    (tw a t).ctrlIn = .handover { dirty := ds } :: rest → a.pair.op = some (.detach, partner t) → ownPort (partner t) e = true →
    (∀ p ∈ a.engines, p.1 ≠ e → p.2.claims = []) → (engOf a e).claims = [c] → c.fwd = false → c.lane = none →
    admissible { a with pair := { a.pair with driver := some t } } e = true → recsInUse a t < 65536 →
    key / 64 = g → key % 4 < 3 → (tw a t).rack.lanes = [(key, l)] → l.slots = x :: xs → l.copies = [] → laneCached l ≠ 0 →
    x < 524288 → nodeWhy a t g x = .ok → (nodeOf a (nodeIdOf t x)).kind ≠ kRebake → 0 < (groupBest a t g).1 →
      GrantedHere t e key x a b ∧ (engOf b e).claims = [] ∧ b.pair = { a.pair with driver := some t } ∧ (tw b t).ctrlIn = rest)
  ∧ (∀ (t : TwinId) (rest : List ControlItem) (ds : List Nat), Does (.handover t) fun a b =>
    storesWf a = true → (tw a t).halted = false → (tw a t).ctrlIn = .handover { dirty := ds } :: rest →
    a.pair.op = some (.rejoin, t) → (∀ p ∈ a.engines, p.2.claims = []) → (∀ c, (coreOf a c).asking = false) →
      b.pair = { a.pair with driver := none, op := none, handed := false, latch := none } ∧ (tw b t).svc = .inService
        ∧ (tw b t).ctrlIn = rest
        ∧ (∀ c, flushOf b c = if c ∈ ds then { flushOf a c with dirty := true } else flushOf a c)
        ∧ changesOnly [.pair, .svc t, .ctrlIn t, .shelf .t0, .shelf .t1, .work, .flushes] a b)
  ∧ (∀ (t : TwinId) (ok : Bool), Does (.fullSelfTestEnd t [] ok) fun a b =>
    ∀ w, w = 2 ^ 63 + b2n ok * 2 ^ 62 →
      (testRuns a t = true → (tw b t).rel = { (tw a t).rel with testStat := w }
          ∧ b.boot = (match t with
              | .t0 => { a.boot with test0 := some ok }
              | .t1 => { a.boot with test1 := some ok })
          ∧ changesOnly [.rel t, .boot] a b)
        ∧ (testRuns a t = false → a.pair.op = some (.detach, t) → a.pair.driver = some (partner t) →
          (∀ q, (tw a t).rel.test = some q → pairGroup q.group = false) →
          (tw b t).svc = .detached ∧ b.pair = { a.pair with op := none, handed := false } ∧ (tw b t).rel.testStat = w
            ∧ (tw b t).cat.nodes = [] ∧ (tw b t).shelf.shards = [] ∧ (∀ k, k ≠ t → tw b k = tw a k))
        ∧ (testRuns a t = false → a.pair.op = some (.recover, t) → ok = true →
          (∀ q, (tw a t).rel.test = some q → pairGroup q.group = false) →
          (tw b t).svc = .detached ∧ b.pair = { a.pair with op := none, handed := false } ∧ (tw b t).rel.testStat = w
            ∧ (∀ k, k ≠ t → tw b k = tw a k))
        ∧ (testRuns a t = false → a.pair.op = some (.recover, t) → ok = false → (tw a t).svc = .recovering →
          (∀ q, (tw a t).rel.test = some q → pairGroup q.group = false) → bitOf (reg a blkKey 0x250) 4 = false →
          (∀ c, (coreOf a c).running = none) → (∀ c, (coreOf a c).asking = false) →
          (tw b t).svc = .fatal ∧ b.pair = (match t with
              | .t0 => { a.pair with op := none, handed := false, cause0 := 8, causeTime := a.time }
              | .t1 => { a.pair with op := none, handed := false, cause1 := 8, causeTime := a.time })
            ∧ (tw b t).rel.testStat = w
            ∧ (∀ k, k ≠ t → tw b k = { tw a k with ctrlIn := (tw a k).ctrlIn ++ [.fatal] })))
  ∧ (∀ (t : TwinId) (g bank : BitVec 8) (n : BitVec 16) (ok : Bool),
    Does (.fullSelfTestEnd t [{ group := g, bank := bank, rows := [n] }] ok) fun a b =>
    ∀ x, x = sramOf a t g.toNat → ∀ phys, phys = physOf x g.toNat bank.toNat → ∀ free, free = 8 - mapGet 0 x.rows phys →
    testRuns a t = true → marches a t g.toNat bank.toNat = true → storesWf a = true →
      (n.toNat ≤ free → sramOf b t g.toNat = { x with rows := mapSet 0 x.rows phys (mapGet 0 x.rows phys + n.toNat) }
          ∧ (tw b t).rel.testStat = 2 ^ 63 + b2n ok * 2 ^ 62 ∧ testOf b.boot t = some ok)
        ∧ (free < n.toNat → bank.toNat < dataBanks g.toNat → x.noSpare = false →
          sramOf b t g.toNat = { x with
              place := mapSet 0 x.place bank.toNat (spareOf x g.toNat + 1), noSpare := true, retired := x.retired + 1 }
            ∧ (tw b t).rel.testStat = 2 ^ 63 + b2n ok * 2 ^ 62 ∧ testOf b.boot t = some ok)
        ∧ (free < n.toNat → bank.toNat < dataBanks g.toNat → x.noSpare = true →
          sramOf b t g.toNat = { x with retired := x.retired + 1 }
            ∧ (tw b t).rel.testStat = 2 ^ 63 + g.toNat * 2 ^ 48 ∧ testOf b.boot t = some false)
        ∧ (free < n.toNat → bank.toNat = dataBanks g.toNat →
          sramOf b t g.toNat = { x with noSpare := true, retired := x.retired + 1 }
            ∧ (tw b t).rel.testStat = 2 ^ 63 + b2n ok * 2 ^ 62 ∧ testOf b.boot t = some ok)
        ∧ (∀ h, h ≠ g.toNat → sramOf b t h = sramOf a t h) ∧ changesOnly [.rel t, .pair, .boot, .errs, .ctrs] a b)
  ∧ (∀ (src : Requester) (t : TwinId), Does (.rejoin src t) fun a b =>
    served a src blkKey = true → a.pair.op = none →
    ∀ st, st = (if bitOf (tw a t).rel.testStat 63 = true ∧ bitOf (tw a t).rel.testStat 62 = false then 5
      else if (tw a t).svc ≠ .detached ∨ (tw a (partner t)).svc ≠ .inService then 1 else 0) →
      (st = 0 → b.pair = { a.pair with op := some (.rejoin, t), handed := false, status := 0 }
          ∧ (tw b t).svc = .rejoining ∧ (∀ k, (tw b k).ctrlIn = (tw a k).ctrlIn ++ [.resync])
          ∧ changesOnly [.pair, .svc t, .ctrlIn .t0, .ctrlIn .t1] a b)
        ∧ (st ≠ 0 → b.pair = { a.pair with status := st } ∧ changesOnly [.pair] a b))
  ∧ (∀ (t : TwinId) (rest : List ControlItem), Does (.resync t) fun a b =>
    (tw a t).ctrlIn = .resync :: rest →
      (tw b t).ctrlIn = rest ∧ (tw b t).edgeIn = [] ∧ (tw b t).claimIn = []
        ∧ changesOnly [.edgeIn t, .claimIn t, .ctrlIn t] a b)
  ∧ (∀ (src : Requester) (t : TwinId), Does (.fail src t) fun a b =>
    storesWf a = true → served a src blkKey = true → a.pair.op = none → a.pair.isFatal = false → (tw a t).svc = .inService →
    (tw a (partner t)).svc = .inService → bitOf (reg a blkKey 0x250) 4 = false → (∀ c, (coreOf a c).running = none) →
    (∀ c, (coreOf a c).asking = false) →
      (tw b t).svc = .fatal ∧ (tw b t).edgeIn = [] ∧ (tw b t).claimIn = []
        ∧ (tw b (partner t)).ctrlIn = (tw a (partner t)).ctrlIn ++ [.fatal]
        ∧ b.pair = (match t with
            | .t0 => { a.pair with status := 0, cause0 := 6, causeTime := a.time }
            | .t1 => { a.pair with status := 0, cause1 := 6, causeTime := a.time })
        ∧ changesOnly [.svc t, .edgeIn t, .claimIn t, .thrd t, .ctrlIn (partner t), .arb, .pair, .heldSteps] a b)
  ∧ (∀ (src : Requester) (t : TwinId), Does (.recover src t) fun a b =>
    served a src blkKey = true → a.pair.op = none →
      ((tw a t).svc = .fatal → a.pair.dumpBusy = false → a.pair.isFatal = false →
          (tw b t).svc = .recovering ∧ b.pair = { a.pair with op := some (.recover, t), handed := false, status := 0 }
            ∧ (tw b t).cat.nodes = [] ∧ (∀ k, k ≠ t → tw b k = tw a k))
        ∧ ((tw a t).svc ≠ .fatal ∨ a.pair.dumpBusy = true ∨ a.pair.isFatal = true →
          b.pair = { a.pair with status := 1 } ∧ changesOnly [.pair] a b))

/-- R119, R209, R385, R389 to R391: the Day Book's ring, the wait-for graph, the inventory and the high-water marks.
The write of the oldest staged record is answered: WR and RECORDS count it, the records dropped meanwhile are carried
by one LOST record at the end of the buffer, the WAIT records that waited for room follow, as many as the buffer has
room for, and the next record is driven to its place, over the oldest of a full ring, where RD advances and LOST
counts first; one write is out at a time, and the graph's waits are read in the step of GO and its waiters again at
the end (the model's choices, log entry 54). A ring write that fails disables the ring with RING_IO; RD takes a value
between RD and WR; a GO that its STATUS turns away, the first of 1, 2 and 3 that applies (the model's choice, log
entry 32), leaves the last graph's count; any other starts the assembly, which ends with the count of its waits and
whether they hold a cycle, and stages a WAIT record for each, STALE where its waiter no longer waits so. A write of
INV_SEL selects an object and starts its read, which ends with the object's words as they are then (the model's
choice, log entry 56); HW_CLR takes a high-water mark to what is in use. -/
def Obligations.DayBookAndInventoryAct : Prop :=
  (∀ (t : TwinId) (r : TraceRec) (rest : List TraceRec), Does (.ringWriteAck t) fun a b =>
    ∀ o, o = (tw a t).obs → ∀ n, n = bookSize a t →
    ∀ lost : TraceRec, lost = { w0 := 0x0E * 2 ^ 56 + twinNum t * 2 ^ 47, time := a.time, w2 := o.lostSince % 2 ^ 32 } →
    ∀ all, all = rest ++ (if o.lostSince = 0 then [] else [lost]) ++ o.wfgOut → ∀ next, next = all.take 2048 →
    storesWf a = true → bookOn a t = true → o.ringOut = true → o.staged = r :: rest → rest.length < 2048 →
      ctr b (twKey t daybP) 0x40 = satAdd ctrMax (ctr a (twKey t daybP) 0x40) 1
        ∧ (next = [] → (tw b t).obs = { o with staged := [], wr := o.wr + 1, ringOut := false }
          ∧ ctr b (twKey t daybP) 0x48 = ctr a (twKey t daybP) 0x48 ∧ changesOnly [.obs t, .ctrs] a b)
        ∧ (∀ q qs, next = q :: qs →
          (tw b t).obs = { o with
              staged := next, wfgOut := all.drop 2048, lostSince := 0, wr := o.wr + 1, rd := if n ≤ o.wr + 1 - o.rd then o.rd + 1 else o.rd }
            ∧ ctr b (twKey t daybP) 0x48 = (if n ≤ o.wr + 1 - o.rd then satAdd ctrMax (ctr a (twKey t daybP) 0x48) 1
                else ctr a (twKey t daybP) 0x48)
            ∧ b.out = [.nocWrite t (fld (reg a (twKey t daybP) 0x100) 47 16 * 2 ^ 16 + ((o.wr + 1) % n) * 32)
                [q.w0, q.time, q.w2, q.hi3 * 2 ^ 32 + (o.wr + 1) % 2 ^ 32]]
            ∧ changesOnly [.obs t, .out, .ctrs] a b))
  ∧ (∀ t : TwinId, Does (.ringWriteAck t) fun a b => (tw a t).obs.ringOut = false → changesOnly [] a b)
  ∧ (∀ t : TwinId, Does (.ringIo t) fun a b =>
    storesWf a = true →
      (bookOn a t = true → (tw a t).obs.ringOut = true →
          reg b (twKey t daybP) 0x100 = reg a (twKey t daybP) 0x100 - 2 ^ 63
            ∧ (pageOf b (twKey t daybP)).errStat = (pageOf a (twKey t daybP)).errStat ||| 2 ^ 1
            ∧ (tw b t).obs = { (tw a t).obs with ringOut := false }
            ∧ (∀ key off, (key, off) ≠ (twKey t daybP, 0x100) → reg b key off = reg a key off)
            ∧ changesOnly [.obs t, .regs, .errs] a b)
        ∧ ((tw a t).obs.ringOut = false → changesOnly [] a b))
  ∧ (∀ (src : Requester) (t : TwinId) (acc : Access) (v : Word64), Does (.daybRdWrite src t acc v) fun a b =>
    ∀ n, n = mergeAcc (tw a t).obs.rd acc v.toNat → served a src (twKey t daybP) = true →
      ((tw a t).obs.rd ≤ n → n ≤ (tw a t).obs.wr →
          (tw b t).obs = { (tw a t).obs with rd := n } ∧ changesOnly [.obs t] a b)
        ∧ (n < (tw a t).obs.rd ∨ (tw a t).obs.wr < n → changesOnly [] a b))
  ∧ (∀ (src : Requester) (t : TwinId) (all : Bool) (ctx : CtxId), Does (.wfgGo src t all ctx) fun a b =>
    ∀ st, st = (if bitOf (reg a (twKey t daybP) 0x100) 63 = false then 1
      else if all = false ∧ ((ctxOf a ctx.toNat).st = .closed ∨ (ctxOf a ctx.toNat).home ≠ t) then 2
      else if (tw a t).halted = true then 3 else 0) →
    served a src (twKey t daybP) = true →
      ((tw a t).obs.wfgBusy = true → changesOnly [] a b)
        ∧ ((tw a t).obs.wfgBusy = false → st ≠ 0 →
          (tw b t).obs = { (tw a t).obs with wfgStat := setFld (tw a t).obs.wfgStat 59 56 st } ∧ changesOnly [.obs t] a b)
        ∧ ((tw a t).obs.wfgBusy = false → st = 0 →
          (∀ ks, ks = (if all then (a.ctxs.filter fun p => p.2.st == .opened && p.2.home == t).map (·.1) else [ctx.toNat]) →
            (tw b t).obs = { (tw a t).obs with
              wfgStat := setFld (tw a t).obs.wfgStat 59 56 0, wfgBusy := true, wfgAll := all, wfgCtx := ctx.toNat,
              wfgWaits := ks.map fun k => (k, waitsOf a k) })
            ∧ changesOnly [.obs t] a b))
  ∧ (∀ (t : TwinId) (ws : List (Nat × List Wait)), Does (.wfgEnd t) fun a b =>
    (tw a t).obs.wfgBusy = true → (tw a t).obs.wfgWaits = ws →
      (tw b t).obs.wfgBusy = false ∧ (tw b t).obs.wfgWaits = []
        ∧ (tw b t).obs.wfgStat = b2n (ws.any fun p => hasCycle p.2) * 2 ^ 62 + (ws.flatMap (·.2)).length % 2 ^ 32
        ∧ changesOnly [.obs t, .out, .ctrs] a b)
  ∧ (∀ (t : TwinId) (k : Nat) (w : Wait), Does (.wfgEnd t) fun a b =>
    ∀ stale, stale = !((waitsOf a k).any fun v =>
      v.tube == w.tube && v.waiter == w.waiter && v.kind == w.kind && v.on == w.on) →
    bookOn a t = true → (tw a t).obs.wfgBusy = true → (tw a t).obs.wfgWaits = [(k, [w])] → w.tube = false →
    (tw a t).obs.staged = [] →
      (tw b t).obs.staged = [{
        w0 := 0x10 * 2 ^ 56 + k % 256 * 2 ^ 48 + twinNum t * 2 ^ 47 + w.waiter % 2 ^ 20 * 2 ^ 20, time := a.time
        w2 := w.kind * 2 ^ 60 + w.on % 2 ^ 20 * 2 ^ 40 + w.detail % 2 ^ 40, hi3 := w.cf % 2 ^ 24 * 2 ^ 8 + b2n stale * 2 ^ 7 }])
  ∧ (∀ (src : Requester) (t : TwinId) (acc : Access) (v : Word64), Does (.invSel src t acc v) fun a b =>
    ∀ w, w = mergeAcc (reg a (twKey t invP) 0x100) acc v.toNat → storesWf a = true →
    served a src (twKey t invP) = true →
      reg b (twKey t invP) 0x100 = fld w 63 56 * 2 ^ 56 + fld w 23 0
        ∧ (tw b t).obs = { (tw a t).obs with invBusy := true, invData := [], invEp := [0, 0, 0] }
        ∧ (∀ key off, (key, off) ≠ (twKey t invP, 0x100) → reg b key off = reg a key off)
        ∧ (∀ key, key ≠ twKey t invP → (pageOf b key).errStat = (pageOf a key).errStat)
        ∧ (fld w 63 56 ≠ 8 → (tw b t).office = (tw a t).office ∧ b.out = [])
        ∧ changesOnly [.obs t, .office t, .out, .regs, .errs] a b)
  ∧ (∀ t : TwinId, Does (.invReadDone t) fun a b =>
    ∀ o, o = invObject a t (fld (reg a (twKey t invP) 0x100) 63 56) (fld (reg a (twKey t invP) 0x100) 23 0) →
    storesWf a = true → (tw a t).obs.invBusy = true →
    (fld (reg a (twKey t invP) 0x100) 63 56 = 8 →
      invReading a (twinNum t * 32768 + fld (reg a (twKey t invP) 0x100) 23 0) = false) →
      (tw b t).obs = { (tw a t).obs with invBusy := false, invData := o.getD [] }
        ∧ ctr b (twKey t invP) 0x40
          = (if o.isSome = true then satAdd ctrMax (ctr a (twKey t invP) 0x40) 1 else ctr a (twKey t invP) 0x40)
        ∧ changesOnly [.obs t, .ctrs] a b)
  ∧ (∀ (src : Requester) (t : TwinId), Does (.hwClr src t .desk) fun a b =>
    served a src (twKey t deskP) = true →
      (tw b t).desk = { (tw a t).desk with high := (tw a t).desk.recs.length } ∧ changesOnly [.desk t] a b)
  ∧ (∀ (src : Requester) (t : TwinId), Does (.hwClr src t .lard) fun a b =>
    served a src (twKey t lardP) = true →
      (tw b t).lard = { (tw a t).lard with high := (tw a t).lard.table.length } ∧ changesOnly [.lard t] a b)

/-- R395 to R401, R406: the resets and the steps of bring-up. A cold reset leaves every reset value and keeps the
fuses; a pin or a soft reset keeps global time and SLEW with them, a soft one only with its key; a WAKE of a gated
block runs from step 2 and keeps the Tally Banks, the PWR page, the Proofer's state and global time, and clears
PORT_READY of every port (the model's choice, log entry 57). The desk clock's lock switches the islands on; the third
good island ends step 2; the end of step 3 loads the fuses burned, a bank replacement putting the spare in its bank's
place; the ROM polls the boot area until its word is 1; an image with an error fails bring-up with its code, LOAD_IO
first, a wrong VERSION read as BAD_MAGIC and the CRC taken as CRC-32C (the model's choice, log entry 95), and the
second good image goes on to the self-test or past it, PHASE staying IMAGE until then; the end of step 5, or of step 4
where no test runs, sends the RESYNC of each twin that did not fail, and bring-up fails there where both twins failed
their tests (the model's choices, log entry 57). Word 6 of the boot area is written at each change of PHASE. -/
def Obligations.ResetsAndBringUpAct : Prop :=
  (Does .coldReset fun a b => b = {
      boot := { cause := 1 }, fuses := a.fuses, fuseBanks := a.fuseBanks, phase := 1
      out := [.nocWrite .t0 (bootArea + 48) [2 ^ 60]] })
  ∧ (Does .pinReset fun a b =>
    ∀ w : Twin, w = { cat := { walked := a.time / 1024 } } →
      (a.phase ≠ 0 → b = {
          tw0 := w, tw1 := w, proof := { slew := a.proof.slew }, boot := { cause := 2 }, fuses := a.fuses
          fuseBanks := a.fuseBanks, phase := 1, time := a.time, out := [.nocWrite .t0 (bootArea + 48) [2 ^ 60]] })
        ∧ (a.phase = 0 → b = a))
  ∧ (∀ (src : Requester) (v : Word64), Does (.softReset src v) fun a b =>
    ∀ w : Twin, w = { cat := { walked := a.time / 1024 } } → served a src blkKey = true →
      (fld v.toNat 63 48 = 0xC0DE → bitOf v.toNat 0 = true →
          b = {
            tw0 := w, tw1 := w, proof := { slew := a.proof.slew }, boot := { cause := 3 }, fuses := a.fuses
            fuseBanks := a.fuseBanks, phase := 1, time := a.time, out := [.nocWrite .t0 (bootArea + 48) [2 ^ 60]] })
        ∧ (fld v.toNat 63 48 ≠ 0xC0DE ∨ bitOf v.toNat 0 = false → b = a))
  ∧ (Does .hostWake fun a b =>
    storesWf a = true →
      (a.boot.gated = true → b.phase = 2 ∧ b.boot = { cause := 4 } ∧ b.mgmt = {} ∧ b.time = a.time ∧ b.fuses = a.fuses
          ∧ b.fuseBanks = a.fuseBanks
          ∧ (∀ t, ∀ k, k = (tw a t).bank → tw b t = {
              cat := { walked := a.time / 1024 }
              bank := { ents := k.ents, buf := k.buf, owed := k.owed, events := k.events } })
          ∧ pageOf b pwrKey = pageOf a pwrKey
          ∧ (∀ t, (pageOf b (twKey t talyP)).ctrs = (pageOf a (twKey t talyP)).ctrs)
          ∧ (∀ d, domOf b d = { domOf a d with portReady := false, serviced := false })
          ∧ b.proof = { a.proof with
              doms := b.proof.doms, begun := 0, slew := 0, load := none, initRails := []
              init := if a.proof.init = .idle then .idle else .done }
          ∧ b.ctxs = [] ∧ b.engines = []
          ∧ b.out = [.nocWrite .t0 (bootArea + 48) [2 * 2 ^ 60], .islandPower .twin0 true, .islandPower .twin1 true,
            .islandPower .pair true])
        ∧ (a.boot.gated = false → b = a))
  ∧ (Does .deskClockLocked fun a b =>
    (a.phase = 1 → b.phase = 2 ∧ b.boot = { a.boot with locked := true, error := 0 }
        ∧ b.out = [.nocWrite (bootTwin a) (bootArea + 48) [2 * 2 ^ 60], .islandPower .twin0 true, .islandPower .twin1 true,
          .islandPower .pair true]
        ∧ changesOnly [.boot, .phase, .out] a b)
      ∧ (a.phase ≠ 1 → b = a))
  ∧ (∀ i : Island, Does (.islandPowerGood i) fun a b =>
    (a.phase = 2 → i ∉ a.boot.good → a.boot.good.length ≠ 2 →
        b.boot = { a.boot with good := a.boot.good ++ [i] } ∧ changesOnly [.boot] a b)
      ∧ (a.phase = 2 → i ∉ a.boot.good → a.boot.good.length = 2 →
        b.boot = { a.boot with good := a.boot.good ++ [i], error := 0 } ∧ b.phase = 3
          ∧ b.out = [.nocWrite (bootTwin a) (bootArea + 48) [3 * 2 ^ 60]] ∧ changesOnly [.boot, .phase, .out] a b)
      ∧ (a.phase ≠ 2 ∨ i ∈ a.boot.good → b = a))
  ∧ (Does .zeroEnd fun a b =>
    (a.phase = 3 → b.phase = 4 ∧ b.boot = { a.boot with error := 0 } ∧ b.fuses = a.fuses
        ∧ b.out = [.nocWrite (bootTwin a) (bootArea + 48) [4 * 2 ^ 60]]
        ∧ changesOnly [.rel .t0, .rel .t1, .pair, .boot, .phase, .out] a b)
      ∧ (a.phase = 5 → a.boot.test0.isSome = true → a.boot.test1.isSome = true →
        ¬(a.boot.test0 = some false ∧ a.boot.test1 = some false) →
        b.phase = 6 ∧ b.boot = { a.boot with error := 0 }
          ∧ b.out = [.nocWrite (bootTwin a) (bootArea + 48) [6 * 2 ^ 60]]
          ∧ (∀ t, (tw b t).ctrlIn
            = (tw a t).ctrlIn ++ (if testOf a.boot (partner t) = some false then [] else [.resync]))
          ∧ changesOnly [.ctrlIn .t0, .ctrlIn .t1, .boot, .phase, .out] a b)
      ∧ (a.phase = 5 → a.boot.test0 = some false → a.boot.test1 = some false →
        b.phase = 10 ∧ b.boot = { a.boot with error := 5 } ∧ (∀ t, (tw b t).svc = .fatal) ∧ b.pair.isFatal = true
          ∧ b.pair.cause0 = 8 ∧ b.pair.cause1 = 8 ∧ b.pair.asks = []
          ∧ (bitOf (reg a blkKey 0x250) 4 = false → b.freeze = a.freeze ∧ (tw b .t1).ctrlIn = (tw a .t1).ctrlIn)
          ∧ (bitOf (reg a blkKey 0x250) 4 = true → a.freeze.pending = false → a.freeze.frozen = none →
            b.freeze = { a.freeze with pending := true, tick := a.ticks }
              ∧ (tw b .t1).ctrlIn = (tw a .t1).ctrlIn ++ [.freeze a.ticks])
          ∧ changesOnly [.svc .t0, .svc .t1, .ctrlIn .t1, .freeze, .pair, .boot, .phase, .out] a b))
  ∧ (∀ (t : TwinId) (g n bank : Nat), Does .zeroEnd fun a b =>
    storesWf a = true → a.phase = 3 → g < 256 → bank < 256 → n ≠ 0 → a.fuses = [(fuseKey t g bank, n)] →
    a.fuseBanks = [] →
      mapGet 0 (sramOf b t g).rows bank = n ∧ (∀ h, h ≠ g → sramOf b t h = sramOf a t h)
        ∧ (∀ k, k ≠ t → (tw b k).rel = (tw a k).rel))
  ∧ (∀ (t : TwinId) (g bank : Nat), Does .zeroEnd fun a b =>
    storesWf a = true → a.phase = 3 → g < 256 → bank < 256 → a.fuses = [] → a.fuseBanks = [(fuseBankKey t g, bank + 1)] →
      sramOf b t g = { sramOf a t g with
          noSpare := true, retired := 1, place := mapSet 0 (sramOf a t g).place bank (dataBanks g + 1) }
        ∧ (∀ h, h ≠ g → sramOf b t h = sramOf a t h) ∧ (∀ k, k ≠ t → (tw b k).rel = (tw a k).rel))
  ∧ (∀ (t : TwinId) (answer : Option Word64), Does (.bootPoll t answer) fun a b =>
    ∀ yes, yes = (match answer with
      | some v => decide (v.toNat % 2 ^ 32 = 1)
      | none => false) →
    a.phase = 4 → polledOf a.boot t = false → segOwner a (.twin t) ≠ some .tap →
      b.out = .nocRead t (bootArea + 56) 8 :: (if yes = true ∧ t = .t0 then [.nocRead .t0 bootArea 64] else [])
        ∧ b.boot = (match t with
          | .t0 => { a.boot with polled0 := yes }
          | .t1 => { a.boot with polled1 := yes })
        ∧ changesOnly [.boot, .out] a b)
  ∧ (∀ (t : TwinId) (answer : Option Word64), Does (.bootPoll t answer) fun a b =>
    a.phase ≠ 4 ∨ polledOf a.boot t = true ∨ segOwner a (.twin t) = some .tap → b = a)
  ∧ (∀ (t : TwinId) (header : List Word64) (image : List Byte) (ioError : Bool),
    Does (.imageLoadEnd t header image ioError) fun a b =>
    ∀ h, h = header.map (·.toNat) → ∀ len, len = h.getD 1 0 % 2 ^ 32 →
    ∀ bad, bad = (if fld (h.getD 0 0) 63 32 ≠ 0x43544657 ∨ fld (h.getD 0 0) 31 16 ≠ 1 then 1
      else if len < 4096 ∨ 524288 < len ∨ len % 4096 ≠ 0 then 2 else 0) →
    ∀ err, err = (if ioError = true then 4 else if bad ≠ 0 then bad
      else if h.getD 3 0 % 2 ^ 32 ≠ crc32c image then 3 else 0) →
    ∀ reads, reads = (if bad = 0 then [Output.nocRead t (bootArea + 0x1000) len] else []) →
    ∀ tests, tests = bitOf (h.getD 0 0) (if a.boot.cause = 1 then 0 else 1) →
    a.phase = 4 → a.boot.polled0 = true → polledOf a.boot t = true → loadedOf a.boot t = false → header.length = 8 →
    ioError = true ∨ bad ≠ 0 ∨ image.length = len →
      (err ≠ 0 → b.phase = 10 ∧ b.boot = { a.boot with error := err }
          ∧ b.out = reads ++ [.nocWrite (bootTwin a) (bootArea + 48) [10 * 2 ^ 60 + err * 2 ^ 56]]
          ∧ changesOnly [.boot, .phase, .out] a b)
        ∧ (err = 0 → (tw b t).rel = { (tw a t).rel with image := image, entry := some (h.getD 2 0 % 2 ^ 32) }
          ∧ loadedOf b.boot t = true ∧ b.boot.header = h ∧ b.boot.tested = tests)
        ∧ (err = 0 → loadedOf a.boot (partner t) = false →
          loadedOf b.boot (partner t) = false ∧ b.out = reads ∧ changesOnly [.rel t, .boot, .out] a b)
        ∧ (err = 0 → loadedOf a.boot (partner t) = true →
          loadedOf b.boot (partner t) = true ∧ b.boot.error = 0
            ∧ (tests = true → b.phase = 5 ∧ b.out = reads ++ [.nocWrite (bootTwin a) (bootArea + 48) [5 * 2 ^ 60]]
              ∧ changesOnly [.rel t, .boot, .phase, .out] a b)
            ∧ (tests = false → b.phase = 6 ∧ b.out = reads ++ [.nocWrite (bootTwin a) (bootArea + 48) [6 * 2 ^ 60]]
              ∧ (∀ k, (tw b k).ctrlIn
                = (tw a k).ctrlIn ++ (if testOf a.boot (partner k) = some false then [] else [.resync]))
              ∧ changesOnly [.rel t, .ctrlIn .t0, .ctrlIn .t1, .boot, .phase, .out] a b)))

/-- R33, R401 to R405, R407: the join, the way into service, the fuses and the test segments. Where both twins pass
and agree they enter service together, else one is left FATAL, which freezes the counters where ON_FATAL asks for it,
and the other drives every port; the management cores enter service, and a WAKE has the domains started again; the
Proofer starts the next 16 domains, each counted for the next tally tick as started from STOPPED or from GATED;
PORT_READY is noted, and the engines of a port whose domain does not run stay out of service; the firmware names the
manager and PHASE becomes READY; RUN declares service where its checks hold and reports ERROR 6 where they do not; one
burn writes one replacement, of a bank whose place the spare has taken or of one more row of it, while the TAP does
not own the segment (the model's choice, log entry 58); a segment goes to its first opener, where the state of the
block allows it as log entry 58 reads R33, and back at its owner's close. -/
def Obligations.ServiceComesUp : Prop :=
  (∀ ok0 ok1 : Bool, Does (.patternCheckEnd ok0 ok1) fun a b =>
    storesWf a = true → a.phase = 6 → a.boot.cause ≠ 4 → (∀ d, (domOf a d).portReady = false) →
    bitOf (reg a blkKey 0x250) 4 = false →
      b.phase = 7 ∧ b.boot = { a.boot with error := 0 } ∧ (∀ c, c < 8 → (coreOf b c).inService = true)
        ∧ (∀ t, (tw b t).rel = { (tw a t).rel with beatAt := a.ticks, kickAt := a.ticks })
        ∧ (a.boot.test0 = some false → (tw b .t0).svc = .fatal ∧ (tw b .t1).svc = .inService
          ∧ b.pair = { a.pair with cause0 := 8, causeTime := a.time, latch := some .t1, driver := some .t1 })
        ∧ (a.boot.test0 ≠ some false → a.boot.test1 = some false → (tw b .t1).svc = .fatal ∧ (tw b .t0).svc = .inService
          ∧ b.pair = { a.pair with cause1 := 8, causeTime := a.time, latch := some .t0, driver := some .t0 })
        ∧ (a.boot.test0 ≠ some false → a.boot.test1 ≠ some false → ok0 = true → ok1 = true →
          (tw b .t0).svc = .inService ∧ (tw b .t1).svc = .inService ∧ b.pair = a.pair)
        ∧ (a.boot.test0 ≠ some false → a.boot.test1 ≠ some false → ok0 = false ∨ ok1 = false →
          (tw b .t1).svc = .fatal ∧ (tw b .t0).svc = .inService
            ∧ b.pair = { a.pair with cause1 := 2, causeTime := a.time, latch := some .t0, driver := some .t0 })
        ∧ (∀ t, (tw b t).ctrlIn = (tw a t).ctrlIn.filter (· != .resync))
        ∧ changesOnly [.svc .t0, .svc .t1, .rel .t0, .rel .t1, .ctrlIn .t0, .ctrlIn .t1, .arb, .pair, .boot, .phase, .out] a b)
  ∧ (∀ ok0 ok1 : Bool, Does (.patternCheckEnd ok0 ok1) fun a b =>
    ∀ f : TwinId, f = (if a.boot.test0 = some false then .t0 else .t1) →
    storesWf a = true → a.phase = 6 → (∀ d, (domOf a d).portReady = false) → bitOf (reg a blkKey 0x250) 4 = true →
    a.freeze.pending = false → a.freeze.frozen = none →
    a.boot.test0 = some false ∨ a.boot.test1 = some false ∨ ok0 = false ∨ ok1 = false →
      (tw b f).svc = .fatal ∧ (tw b (partner f)).svc = .inService
        ∧ b.freeze = { a.freeze with pending := true, tick := a.ticks }
        ∧ (tw b (partner f)).ctrlIn = (tw a (partner f)).ctrlIn.filter (· != .resync) ++ [.freeze a.ticks])
  ∧ (∀ ok0 ok1 : Bool, Does (.patternCheckEnd ok0 ok1) fun a b =>
    storesWf a = true → a.phase = 6 → a.boot.cause = 4 → a.proof.init = .done → (∀ d, (domOf a d).portReady = false) →
      b.phase = 7 ∧ b.proof = { a.proof with init := .starting })
  ∧ (∀ p : Port, Does (.portReady p) fun a b =>
    ∀ d, d = portNum p → storesWf a = true →
    (144 ≤ d → a.phase < 7 ∨ 9 < a.phase) → (d < 144 → (domOf a d).st ≠ .run ∨ domBegun a d = false) →
      domOf b d = { domOf a d with portReady := true } ∧ (∀ j, j ≠ d → domOf b j = domOf a j)
        ∧ b.engines = a.engines ∧ changesOnly [.proof] a b)
  ∧ (∀ p : Port, Does (.portReady p) fun a b =>
    ∀ d, d = portNum p → storesWf a = true → (domOf a d).serviced = false →
    (144 ≤ d → 7 ≤ a.phase ∧ a.phase ≤ 9) → (d < 144 → (domOf a d).st = .run ∧ domBegun a d = true) →
      (domOf b d).portReady = true ∧ (domOf b d).serviced = true
        ∧ (∀ e, (portEngines d).1 ≤ e → e < (portEngines d).1 + (portEngines d).2 → (engOf b e).inService = true))
  ∧ (Does .domainGroupStart fun a b =>
    ∀ n, n = a.proof.begun → storesWf a = true → a.proof.init = .starting →
      b.proof.begun = n + 1 ∧ b.proof.init = (if n + 1 = 9 then .done else .starting)
        ∧ (∀ d, 16 * n ≤ d → d < 16 * n + 16 → domOf b d = { domOf a d with
            st := .starting, clkOk := false, fromGated := (domOf a d).st != .stopped, accWake := false, obEmpty := false,
            msg := .none, idle := 0 })
        ∧ (∀ d, d < 16 * n ∨ 16 * n + 16 ≤ d → domOf b d = domOf a d)
        ∧ mapGet 0 b.proof.events 0x50 = mapGet 0 a.proof.events 0x50
          + ((List.range 16).filter fun i => (domOf a (16 * n + i)).st == .stopped).length
        ∧ mapGet 0 b.proof.events 0x60 = mapGet 0 a.proof.events 0x60
          + ((List.range 16).filter fun i => (domOf a (16 * n + i)).st != .stopped).length
        ∧ changesOnly [.proof, .out] a b)
  ∧ (∀ (port : BitVec 3) (fn : BitVec 8), Does (.managerSet port fn) fun a b =>
    (a.phase = 7 → b.mgmt = { a.mgmt with manager := 2 ^ 63 + port.toNat * 2 ^ 8 + fn.toNat } ∧ b.phase = 8
        ∧ b.boot = { a.boot with readyUs := min (a.time / 1000) (2 ^ 32 - 1), error := 0 }
        ∧ b.out = [.nocWrite (bootTwin a) (bootArea + 48) [8 * 2 ^ 60]] ∧ changesOnly [.mgmt, .boot, .phase, .out] a b)
      ∧ (a.phase ≠ 7 → b = a))
  ∧ (∀ (src : Requester) (v : Word64), Does (.bootRun src v) fun a b =>
    served a src blkKey = true →
      (a.phase = 8 → bitOf v.toNat 0 = true → runReady a = true →
          b.phase = 9 ∧ b.boot = { a.boot with error := 0 }
            ∧ b.out = [.nocWrite (bootTwin a) (bootArea + 48) [9 * 2 ^ 60]] ∧ changesOnly [.boot, .phase, .out] a b)
        ∧ (a.phase = 8 → bitOf v.toNat 0 = true → runReady a = false →
          b.phase = 8 ∧ b.boot = { a.boot with error := 6 }
            ∧ b.out = [.nocWrite (bootTwin a) (bootArea + 48) [8 * 2 ^ 60 + 6 * 2 ^ 56]] ∧ changesOnly [.boot, .out] a b)
        ∧ (a.phase ≠ 8 ∨ bitOf v.toNat 0 = false → b = a))
  ∧ (∀ (t : TwinId) (g bank : BitVec 8) (ok : Bool), Does (.fuseBurn t g bank ok) fun a b =>
    ∀ key, key = fuseKey t g.toNat bank.toNat → ∀ gk, gk = fuseBankKey t g.toNat →
    ∀ whole, whole = (outOfUse a t g.toNat bank.toNat && mapGet 0 a.fuseBanks gk == 0) →
    ∀ row, row = decide (mapGet 0 a.fuses key < mapGet 0 (sramOf a t g.toNat).rows bank.toNat) →
    storesWf a = true → (tw a t).svc = .detached ∨ a.phase = 7 → tapHolds a t g.toNat = false →
      (whole = true → ok = true →
          mapGet 0 b.fuseBanks gk = bank.toNat + 1 ∧ (∀ j, j ≠ gk → mapGet 0 b.fuseBanks j = mapGet 0 a.fuseBanks j)
            ∧ changesOnly [.fuseBanks] a b)
        ∧ (whole = false → row = true → ok = true →
          mapGet 0 b.fuses key = mapGet 0 a.fuses key + 1 ∧ (∀ j, j ≠ key → mapGet 0 b.fuses j = mapGet 0 a.fuses j)
            ∧ changesOnly [.fuses] a b)
        ∧ (whole = true ∨ row = true → ok = false →
          (pageOf b (twKey t relP)).errStat = (pageOf a (twKey t relP)).errStat ||| 2 ^ 9 ∧ changesOnly [.errs] a b)
        ∧ (whole = false → row = false → b = a))
  ∧ (∀ (t : TwinId) (g bank : BitVec 8) (ok : Bool), Does (.fuseBurn t g bank ok) fun a b =>
    ((tw a t).svc ≠ .detached ∧ a.phase ≠ 7) ∨ tapHolds a t g.toNat = true → b = a)
  ∧ (∀ (who : SegmentParty) (g : Segment), Does (.segmentOpen who g) fun a b =>
    (segOwner a g = none → mayOpen a who g = true →
        segOwner b g = some who ∧ (∀ j, j ≠ g → segOwner b j = segOwner a j) ∧ b.mgmt.manager = a.mgmt.manager
          ∧ changesOnly [.mgmt] a b)
      ∧ (segOwner a g ≠ none ∨ mayOpen a who g = false → b = a))
  ∧ (∀ (who : SegmentParty) (g : Segment), Does (.segmentClose who g) fun a b =>
    (segOwner a g = some who →
        segOwner b g = none ∧ (∀ j, j ≠ g → segOwner b j = segOwner a j) ∧ b.mgmt.manager = a.mgmt.manager
          ∧ changesOnly [.mgmt] a b)
      ∧ (segOwner a g ≠ some who → b = a))

/-- R7, R9, R10, R285, R402, R411, R413, R415, R416: the registers. ENABLE takes the value written, is not cleared in
service but on the PWR page, whose first ENABLE sends the rails their voltages, and does nothing on a context page;
COMMIT applies the pending shadow of a page at once, or has it applied for a context page, and DISCARD drops it; a
read answers with the value of the register, the half asked for, or with zero outside every register or where the
function is denied; a write with no size of R9 is unsupported; ERR_STAT is cleared by ones; and a register that is
stored as written takes the bits that are its own. -/
def Obligations.RegistersAndShadowsAct : Prop :=
  (∀ (src : Requester) (page : PageId) (v : Bool), Does (.pageEnable src page v) fun a b =>
    ∀ key, key = keyOf page → storesWf a = true → served a src key = true →
      (256 ≤ key → b = a)
        ∧ (key < 256 → key ≠ pwrKey → a.phase = 9 → v = false →
          (pageOf b key).errStat = (pageOf a key).errStat ||| 2 ^ 0 ∧ (∀ j, j ≠ key → pageOf b j = pageOf a j)
            ∧ changesOnly [.errs] a b)
        ∧ (key < 256 → key ≠ pwrKey → a.phase ≠ 9 ∨ v = true →
          pageOf b key = { pageOf a key with enable := v } ∧ (∀ j, j ≠ key → pageOf b j = pageOf a j)
            ∧ changesOnly [.regs] a b)
        ∧ (key = pwrKey → v = true → a.proof.init ≠ .idle →
          pageOf b key = { pageOf a key with enable := v } ∧ (∀ j, j ≠ key → pageOf b j = pageOf a j)
            ∧ changesOnly [.regs] a b)
        ∧ (key = pwrKey → v = true → a.proof.init = .idle →
          pageOf b key = { pageOf a key with enable := v }
            ∧ b.proof = { a.proof with
              init := .rails, initRails := [.cts, .sram, .engineA, .engineB, .matrix], initResent := [] }
            ∧ b.out = [.avs .cts (initMv a .cts), .avs .sram (initMv a .sram), .avs .engineA (initMv a .engineA),
              .avs .engineB (initMv a .engineA), .avs .matrix (initMv a .engineA)]
            ∧ changesOnly [.proof, .out, .regs] a b))
  ∧ (∀ (src : Requester) (page : PageId), Does (.commit src page) fun a b =>
    ∀ key, key = keyOf page → storesWf a = true → served a src key = true →
      (shadowPend a key = false → b = a)
        ∧ (shadowPend a key = true → 256 ≤ key →
          ctxOf b (key - 256) = { ctxOf a (key - 256) with commitPend := (ctxOf a (key - 256)).commitPend + 1 }
            ∧ (∀ j, j ≠ key - 256 → ctxOf b j = ctxOf a j) ∧ changesOnly [.ctxs] a b)
        ∧ (∀ off v, key < 256 → key ≠ fmtKey → (pageOf a key).shadow = [(off, some v)] →
          reg b key off = blend (rwsMask (pageType key) off) (reg a key off) v ∧ (pageOf b key).shadow = []
            ∧ (pageOf b key).applied = a.time % 2 ^ 48 ∧ (∀ o, o ≠ off → reg b key o = reg a key o)
            ∧ (∀ j, j ≠ key → pageOf b j = pageOf a j) ∧ changesOnly [.regs] a b))
  ∧ (∀ k : CtxId, Does (.shadowApply k) fun a b =>
    ∀ n, n = k.toNat → storesWf a = true →
      ((ctxOf a n).commitPend = 0 → b = a)
        ∧ (∀ off v, 0 < (ctxOf a n).commitPend → (pageOf a (ctxKey n)).shadow = [(off, some v)] →
          isPartition off = false → (∀ t, (ctxTw a t n).inflHeld = false) →
          reg b (ctxKey n) off = blend (rwsMask 0x20 off) (reg a (ctxKey n) off) v
            ∧ (pageOf b (ctxKey n)).shadow = [] ∧ (pageOf b (ctxKey n)).applied = a.time % 2 ^ 48
            ∧ ctxOf b n = { ctxOf a n with commitPend := (ctxOf a n).commitPend - 1 } ∧ (∀ o, o ≠ off → reg b (ctxKey n) o = reg a (ctxKey n) o)
            ∧ (∀ j, j ≠ ctxKey n → pageOf b j = pageOf a j) ∧ (∀ j, j ≠ n → ctxOf b j = ctxOf a j)
            ∧ changesOnly [.ctxs, .regs] a b))
  ∧ (∀ (src : Requester) (page : PageId), Does (.discard src page) fun a b =>
    ∀ key, key = keyOf page → storesWf a = true → served a src key = true →
      pageOf b key = { pageOf a key with shadow := [] } ∧ (∀ j, j ≠ key → pageOf b j = pageOf a j)
        ∧ (key ≠ fmtKey → changesOnly [.regs] a b)
        ∧ (key = fmtKey → (∀ k, ctxOf b k = { ctxOf a k with selShadow := none }) ∧ changesOnly [.ctxs, .regs] a b))
  ∧ (∀ (src : Requester) (addr : BitVec 26) (size : Nat), Does (.registerRead src (.cts addr) size) fun a b =>
    held a src = false →
      (placeOf addr.toNat = .reserved → b.out = [.reply 0] ∧ changesOnly [.out] a b)
        ∧ (∀ key off at8, placeOf addr.toNat = .page key off → at8 = off / 8 * 8 → gradeOf a src (if 256 ≤ key then some (key - 256) else none) = .manager →
          ¬((key = twKey .t0 catP ∨ key = twKey .t1 catP) ∧ at8 = 0x120) →
          (∀ acc, accessOf off size = some acc →
              b.out = [.reply (partOf acc (regValue a key at8))] ∧ changesOnly [.out] a b)
            ∧ (accessOf off size = none → b.out = [.unsupported] ∧ changesOnly [.out] a b)))
  ∧ (∀ (port : BitVec 3) (fn : BitVec 8) (addr : BitVec 26) (size : Nat), Does (.registerRead (.host port fn) (.cts addr) size) fun a b =>
    ∀ key off, storesWf a = true → held a (.host port fn) = false → placeOf addr.toNat = .page key off →
    gradeOf a (.host port fn) (if 256 ≤ key then some (key - 256) else none) = .denied →
      b.out = [.reply 0] ∧ (pageOf b blkKey).errStat = (pageOf a blkKey).errStat ||| 2 ^ 1
        ∧ b.mgmt = { a.mgmt with denied := 2 ^ 63 + satAdd (2 ^ 32 - 1) (fld a.mgmt.denied 42 11) 1 * 2 ^ 11
            + port.toNat * 2 ^ 8 + fn.toNat }
        ∧ changesOnly [.mgmt, .out, .errs] a b)
  ∧ (∀ (src : Requester) (addr : BitVec 26) (size : Nat) (v : BitVec 512), Does (.registerWrite src (.cts addr) size v) fun a b =>
    (placeOf addr.toNat = .reserved → b = a)
      ∧ (∀ key off, placeOf addr.toNat = .page key off → served a src key = true → accessOf off size = none →
        b.out = [.unsupported] ∧ changesOnly [.out] a b))
  ∧ (∀ (src : Requester) (addr : BitVec 26) (v : BitVec 512), Does (.registerWrite src (.cts addr) 8 v) fun a b =>
    ∀ key, storesWf a = true → placeOf addr.toNat = .page key 0x18 → served a src key = true →
      (pageOf b key).errStat = (pageOf a key).errStat &&& (2 ^ 64 - 1 - v.toNat)
        ∧ (∀ j, j ≠ key → pageOf b j = pageOf a j) ∧ changesOnly [.errs] a b)
  ∧ (∀ (src : Requester) (addr : BitVec 26) (size : Nat) (v : BitVec 512), Does (.registerWrite src (.cts addr) size v) fun a b =>
    ∀ key o off acc m, storesWf a = true → placeOf addr.toNat = .page key o → off = o / 8 * 8 →
    accessOf o size = some acc → isPut key off = false → m = rwMask (pageType key) off &&& accMask acc → m ≠ 0 →
    served a src key = true → writeCommon key off acc v.toNat a = none → writeAction key off acc v.toNat a = none →
    lockedMask a key off = 0 → managerOnly (pageType key) off = 0 → rwsMask (pageType key) off = 0 →
    (pageType key, off) ∉ [(0x02, 0x120), (0x04, 0x118), (0x12, 0x100), (0x12, 0x130), (0x1B, 0x100)] →
      reg b key off = blend m (reg a key off) (placed acc v.toNat)
        ∧ (∀ j p, (j, p) ≠ (key, off) → reg b j p = reg a j p) ∧ changesOnly [.regs] a b)

/-- R412: PAGE_STAT of every page. A read of 8 B at 0x010 answers with ENABLED in [63], a copy of PAGE_CTRL.ENABLE;
with ERR_ANY in [62], whether a bit of ERR_STAT is set that ERR_MASK does not mask; with FROZEN in [61], where reads
of the page's counters return the values of the freeze; and with zero in [60:0]. Every field is RO: a write has no
effect; and every field is 0 at reset. -/
def Obligations.PageStatSummarisesThePage : Prop :=
  (∀ (src : Requester) (addr : BitVec 26), Does (.registerRead src (.cts addr) 8) fun a b =>
    ∀ key, placeOf addr.toNat = .page key 0x010 → held a src = false →
    gradeOf a src (if 256 ≤ key then some (key - 256) else none) = .manager
      ∨ gradeOf a src (if 256 ≤ key then some (key - 256) else none) = .owner →
    (pageOf a key).errMask < 2 ^ 64 →
      ∃ v, b.out = [.reply v] ∧ v < 2 ^ 64 ∧ bitOf v 63 = bitOf (regValue a key 0x008) 0
        ∧ (bitOf v 62 = true ↔ ∃ n, n < 64 ∧ bitOf (pageOf a key).errStat n = true ∧ bitOf (pageOf a key).errMask n = false)
        ∧ (bitOf v 61 = true ↔ ∃ f, a.freeze.frozen = some f
          ∧ ∀ off, 0x040 ≤ off → off < 0x100 → regValue a key off = mapGet 0 (mapGet [] f.pages key) off)
        ∧ fld v 60 0 = 0 ∧ changesOnly [.out] a b)
  ∧ (∀ (src : Requester) (addr : BitVec 26) (size : Nat) (v : BitVec 512), Does (.registerWrite src (.cts addr) size v) fun a b =>
    ∀ key o acc, placeOf addr.toNat = .page key o → o / 8 = 2 → accessOf o size = some acc → served a src key = true → b = a)
  ∧ (∀ key, regValue State.reset.blk key 0x010 = 0)

/-- R292: the Bake domains. Domains 0 to 15 are the rack groups 8d to 8d + 7, with the tiles of clusters 8d to 8d + 7;
domain 16 is the groups 128 to 143 with every matrix engine, 17 the groups 144 to 147 with every DMA channel, 18 the
groups 148 and 149 with every gather engine, and 19 the groups 150 and 151 with every scatter-reduce engine. -/
def Obligations.BakeDomainsAreTheTable : Prop :=
  (∀ g d, g < 152 → (domainOfGroup g = d ↔
    (d ≤ 15 ∧ 8 * d ≤ g ∧ g ≤ 8 * d + 7) ∨ (d = 16 ∧ 128 ≤ g ∧ g ≤ 143) ∨ (d = 17 ∧ 144 ≤ g ∧ g ≤ 147)
      ∨ (d = 18 ∧ 148 ≤ g ∧ g ≤ 149) ∨ (d = 19 ∧ 150 ≤ g ∧ g ≤ 151)))
  ∧ (∀ e, (engKind e = some .tile → ∃ g, groupOf e = some g ∧ domainOfGroup g = e / 64 / 8 ∧ e / 64 / 8 ≤ 15)
      ∧ (engKind e = some .matrix → ∃ g, groupOf e = some g ∧ domainOfGroup g = 16)
      ∧ (engKind e = some .dma → ∃ g, groupOf e = some g ∧ domainOfGroup g = 17)
      ∧ (engKind e = some .gather → ∃ g, groupOf e = some g ∧ domainOfGroup g = 18)
      ∧ (engKind e = some .scatter → ∃ g, groupOf e = some g ∧ domainOfGroup g = 19))

/-- R178: RET.DIRTY and RET.FLUSH_OUT. A read of 8 B of DIRTY answers in bit i with the DIRTY bit of cluster 2i + p,
and of FLUSH_OUT in bit i with whether a flush of that cluster is outstanding, p the twin's number, for the clusters
of which the twin is primary and zero for the others. Both are RO: a write has no effect; and both are 0 at reset. -/
def Obligations.FlushRegistersShowTheClusters : Prop :=
  (∀ (src : Requester) (addr : BitVec 26), Does (.registerRead src (.cts addr) 8) fun a b =>
    ∀ t off, placeOf addr.toNat = .page (twKey t retP) off → off = 0x130 ∨ off = 0x138 → storesWf a = true →
    held a src = false → gradeOf a src none = .manager →
      ∃ v, b.out = [.reply v] ∧ v < 2 ^ 64
        ∧ (∀ i, i < 64 → (bitOf v i = true ↔ primary a (2 * i + twinNum t) = t
          ∧ (if off = 0x130 then (flushOf a (2 * i + twinNum t)).dirty else (flushOf a (2 * i + twinNum t)).out) = true))
        ∧ changesOnly [.out] a b)
  ∧ (∀ (src : Requester) (addr : BitVec 26) (size : Nat) (v : BitVec 512), Does (.registerWrite src (.cts addr) size v) fun a b =>
    ∀ t o acc, placeOf addr.toNat = .page (twKey t retP) o → o / 8 * 8 = 0x130 ∨ o / 8 * 8 = 0x138 →
    accessOf o size = some acc → served a src (twKey t retP) = true → b = a)
  ∧ (∀ t, regValue State.reset.blk (twKey t retP) 0x130 = 0 ∧ regValue State.reset.blk (twKey t retP) 0x138 = 0)

/-- R365: a DETACH of twin D, written by the manager while no operation is in hand. It is refused with STATUS 1 where
D is not IN_SERVICE, 4 where the partner is not IN_SERVICE, 2 where a context that is not CLOSED is homed in D or has
a range enabled in D, and 3 where a thread homed in D is not FREE; where none of these holds it is accepted, and D is
DETACHING with STATUS 0. -/
def Obligations.DetachIsRefusedByItsCases : Prop :=
  ∀ (src : Requester) (t : TwinId), Does (.detach src t) fun a b =>
    ∀ refusal : Nat → Prop, (∀ n, refusal n ↔
      (n = 1 ∧ (tw a t).svc ≠ .inService) ∨ (n = 4 ∧ (tw a (partner t)).svc ≠ .inService)
        ∨ (n = 2 ∧ ∃ k, (ctxOf a k).st ≠ .closed ∧ ((ctxOf a k).home = t
          ∨ ∃ r : RangeReg, rangeEn (rangeGet (ctxTw a t k) r) = true))
        ∨ (n = 3 ∧ ∃ i, (mapGet {} (tw a t).thrd.ents i).st ≠ .free)) →
    storesWf a = true → served a src blkKey = true → a.pair.op = none →
      ((∃ n, refusal n) → refusal b.pair.status ∧ b.pair = { a.pair with status := b.pair.status } ∧ changesOnly [.pair] a b)
        ∧ ((∀ n, ¬ refusal n) → b.pair = { a.pair with op := some (.detach, t), handed := false, status := 0 }
          ∧ (tw b t).svc = .detaching)

/-- R286: the fields of a context page that belong to the manager: CTX_CFG, DESK_CFG.INFLIGHT_MAX, PLACE_CFG,
CLUSTER_MASK0, CLUSTER_MASK1 and MEM_PART. An owner's write to a register that holds one sets DENIED on the page,
leaves the manager-only fields, in effect and in the shadow, and applies the other fields of the write: MIX_TARGET of
DESK_CFG, the one such field, lands in the shadow. A write to every other register of the page, every command register
among them, does the same whether its requester is the owner or the manager. That a write of either half of such a
register sets DENIED is the model's reading (log entry 59). -/
def Obligations.OwnersLeaveTheManagersFields : Prop :=
  (∀ (src : Requester) (addr : BitVec 26) (size : Nat) (v : BitVec 512), Does (.registerWrite src (.cts addr) size v) fun a b =>
    ∀ k key o off acc old new, key = 256 + k → placeOf addr.toNat = .page key o → off = o / 8 * 8 →
    accessOf o size = some acc → storesWf a = true → held a src = false → gradeOf a src (some k) = .owner →
    off = 0x100 ∨ off = 0x208 ∨ off = 0x218 ∨ off = 0x220 ∨ off = 0x228 ∨ off = 0x230 →
    old = (mapGet none (pageOf a key).shadow off).getD (reg a key off) →
    new = (mapGet none (pageOf b key).shadow off).getD (reg b key off) →
      (pageOf b key).errStat = (pageOf a key).errStat ||| 2 ^ 1 ∧ reg b key off = reg a key off
        ∧ (off ≠ 0x208 → new = old)
        ∧ (off = 0x208 → ∀ n, n < 64 → bitOf new n = (if n ≤ 4 ∧ acc ≠ .hi then bitOf v.toNat n else bitOf old n))
        ∧ (∀ p, p ≠ off → reg b key p = reg a key p ∧ mapGet none (pageOf b key).shadow p = mapGet none (pageOf a key).shadow p)
        ∧ (∀ j, j ≠ key → pageOf b j = pageOf a j) ∧ changesOnly [.regs, .errs] a b)
  ∧ (∀ (owner manager : Requester) (addr : BitVec 26) (size : Nat) (v : BitVec 512) (s : State) (k key o off : Nat),
    key = 256 + k → placeOf addr.toNat = .page key o → off = o / 8 * 8 →
    off ≠ 0x100 → off ≠ 0x208 → off ≠ 0x218 → off ≠ 0x220 → off ≠ 0x228 → off ≠ 0x230 →
    held s.blk owner = false → held s.blk manager = false →
    gradeOf s.blk owner (some k) = .owner → gradeOf s.blk manager (some k) = .manager →
      exec (.registerWrite owner (.cts addr) size v) s = exec (.registerWrite manager (.cts addr) size v) s)

/-- R353, R355: an armed injection is consumed by the command that meets the word, and its error is handled in full. A
single-bit error in a thread entry that a QUERY of the Thread Desk reads is logged with INJECTED, counted and tested
for, and changes nothing else; a double-bit error in the shard entry that a QUERY of the Shelf List reads faults the
open context whose range holds the entry with DATA_LOST; with double-bit errors armed for both copies of the
duplicated words, a command that meets them makes the pair fatal. Which word a command meets first, and that a word is
read where the command names it, is the model's choice (log entry 49). -/
def Obligations.InjectedErrorsAreMet : Prop :=
  (∀ (src : Requester) (t : TwinId) (s : State), ∀ a, a = s.blk → ∀ k, k = twKey t thrdP → ∀ w, w = threadSel a t % 2048 * 3 →
    storesWf a = true → served a src k = true → thrdTakes a t = true → a.work = [] → (∀ u, canSendOn a u = false) →
    (pageOf a k).inj = 2 ^ 63 + 2 ^ 56 + 0x10 * 2 ^ 48 → (∀ j, j ≠ k → bitOf (pageOf a j).inj 63 = false) →
    (tw a t).rel.test = none → (tw a t).rel.queue = [] → (sramOf a t 0x10).noSpare = false →
      ∃ u : State, exec (.threadQuery src t) s = .next u ∧ u.pending = s.pending
        ∧ (pageOf u.blk k).inj = 2 ^ 56 + 0x10 * 2 ^ 48
        ∧ mapGet (0, 0) (tw u.blk t).rel.log ((tw a t).rel.count % 64) = (logWord 0 true 0x10 (w / 2048) (w % 2048) none, a.time)
        ∧ ctr u.blk (twKey t relP) 0x40 = satAdd ctrMax (ctr a (twKey t relP) 0x40) 1
        ∧ (pageOf u.blk k).errStat = (pageOf a k).errStat ||| 2 ^ 8 ||| 2 ^ 12
        ∧ (tw u.blk t).rel.test = some {
            group := 0x10, bank := w / 2048, phys := physOf (sramOf a t 0x10) 0x10 (w / 2048), logNo := (tw a t).rel.count, stage := .copying }
        ∧ (tw u.blk t).thrd.ents = (tw a t).thrd.ents ∧ u.blk.ctxs = a.ctxs)
  ∧ (∀ (src : Requester) (id : CtxId) (s : State), ∀ a, a = s.blk → ∀ k, k = id.toNat → ∀ x, x = shardSel a k → ∀ t, t = ownerOf x →
    ∀ w, w = x % 131072 * 3 →
    storesWf a = true → served a src (ctxKey k) = true → inShardRange a k x = true → serves a t = true → a.work = [] →
    (∀ u, canSendOn a u = false) → (pageOf a (twKey t shlfP)).inj = 2 ^ 63 + 2 * 2 ^ 56 + 0x08 * 2 ^ 48 →
    (∀ j, j ≠ twKey t shlfP → bitOf (pageOf a j).inj 63 = false) → wordOwner a t 0x08 w = some k → (ctxOf a k).st = .opened →
    entriesHeld a t < 64 →
    (tw a t).rel.test = none → (tw a t).rel.queue = [] → (sramOf a t 0x08).noSpare = false →
      ∃ u : State, exec (.shardQuery src id) s = .next u ∧ u.pending = s.pending
        ∧ (pageOf u.blk (twKey t shlfP)).inj = 2 * 2 ^ 56 + 0x08 * 2 ^ 48
        ∧ mapGet (0, 0) (tw u.blk t).rel.log ((tw a t).rel.count % 64) = (logWord 1 true 0x08 (w / 2048) (w % 2048) (some k), a.time)
        ∧ ctr u.blk (twKey t relP) 0x48 = satAdd ctrMax (ctr a (twKey t relP) 0x48) 1
        ∧ (ctxOf u.blk k).st = .fenced ∧ (ctxOf u.blk k).tear = .fault ∧ (ctxOf u.blk k).faultStat = faultWord t 0xA0 0
        ∧ (∀ j, j ≠ k → ctxOf u.blk j = ctxOf a j))
  ∧ (∀ (port : BitVec 3) (fn : BitVec 8) (s : State), ∀ a, a = s.blk →
    storesWf a = true → a.phase = 7 → a.mgmt.manager = 0 → a.work = [] → (∀ u, canSendOn a u = false) → (tw a .t0).svc = .inService →
    (pageOf a blkKey).inj = 2 ^ 63 + 2 * 2 ^ 56 + 0x22 * 2 ^ 48 → (pageOf a pwrKey).inj = 2 ^ 63 + 2 * 2 ^ 56 + 0x22 * 2 ^ 48 →
    (∀ j, j ≠ blkKey → j ≠ pwrKey → bitOf (pageOf a j).inj 63 = false) →
      ∃ u : State, exec (.managerSet port fn) s = .next u ∧ u.pending = s.pending ∧ u.blk.phase = 8
        ∧ u.blk.pair.isFatal = true ∧ bitOf (pageOf u.blk blkKey).inj 63 = false ∧ bitOf (pageOf u.blk pwrKey).inj 63 = false)
end

