-- ==== Sys2Proof/Laws/Maps.lean ====
section
/-! SUPPORT. The laws of the sparse stores: a read after a write, and that every operation keeps the canonical form. -/

namespace Sys2Proof.Machine

variable {α : Type}

/-! ### Reads after writes -/

/-- A write leaves every other index alone, in canonical form or not. -/
@[simp] theorem mapGet_mapSet_ne [DecidableEq α] (d : α) (m : SMap α) (k j : Nat) (v : α) (h : j ≠ k) :
    mapGet d (mapSet d m k v) j = mapGet d m j := by
  induction m with
  | nil => by_cases hv : v = d <;> simp [mapSet, mapGet, hv, h]
  | cons p m ih =>
    obtain ⟨i, w⟩ := p
    unfold mapSet
    by_cases h1 : k < i
    · by_cases hv : v = d <;> simp [h1, hv, mapGet, h]
    · by_cases h2 : k = i
      · subst h2
        by_cases hv : v = d <;> simp [hv, mapGet, h]
      · simp only [h1, h2, if_false, mapGet]
        rw [ih]

/-- A value that is not the default is read back at its index, in canonical form or not. -/
theorem mapGet_mapSet_of_ne [DecidableEq α] (d : α) (m : SMap α) (k : Nat) (v : α) (hv : v ≠ d) :
    mapGet d (mapSet d m k v) k = v := by
  induction m with
  | nil => simp [mapSet, mapGet, hv]
  | cons p m ih =>
    obtain ⟨i, w⟩ := p
    unfold mapSet
    by_cases h1 : k < i
    · simp [h1, hv, mapGet]
    · by_cases h2 : k = i
      · subst h2
        simp [hv, mapGet]
      · simp only [h1, h2, if_false, mapGet]
        exact ih

theorem mapGet_of_lt [DecidableEq α] (d : α) (m : SMap α) (lo k : Nat) (h : mapWfFrom d lo m = true) (hk : k < lo) :
    mapGet d m k = d := by
  induction m generalizing lo with
  | nil => rfl
  | cons p m ih =>
    obtain ⟨i, w⟩ := p
    simp only [mapWfFrom, Bool.and_eq_true, decide_eq_true_eq] at h
    have hne : k ≠ i := by omega
    simp only [mapGet, hne, if_false]
    exact ih (i + 1) h.2 (by omega)

theorem mapGet_mapSet_from [DecidableEq α] (d : α) (m : SMap α) (lo k : Nat) (v : α) (h : mapWfFrom d lo m = true) :
    mapGet d (mapSet d m k v) k = v := by
  by_cases hv : v = d
  · subst hv
    induction m generalizing lo with
    | nil => simp [mapSet, mapGet]
    | cons p m ih =>
      obtain ⟨i, w⟩ := p
      have hw := h
      simp only [mapWfFrom, Bool.and_eq_true, decide_eq_true_eq] at h
      unfold mapSet
      by_cases h1 : k < i
      · simp only [h1, if_true]
        have : mapWfFrom v i ((i, w) :: m) = true := by simp [mapWfFrom, h.1.2, h.2]
        exact mapGet_of_lt v _ i k this h1
      · by_cases h2 : k = i
        · subst h2
          simp only [Nat.lt_irrefl, if_false, if_true]
          exact mapGet_of_lt v m (k + 1) k h.2 (by omega)
        · simp only [h1, h2, if_false, mapGet]
          exact ih (i + 1) h.2
  · exact mapGet_mapSet_of_ne d m k v hv

/-- What is written is read back. -/
theorem mapGet_mapSet_same [DecidableEq α] (d : α) (m : SMap α) (k : Nat) (v : α) (h : mapWf d m = true) :
    mapGet d (mapSet d m k v) k = v := mapGet_mapSet_from d m 0 k v h

/-- A write of v at k reads as v at k and as before elsewhere. -/
theorem mapGet_mapSet [DecidableEq α] (d : α) (m : SMap α) (k j : Nat) (v : α) (h : mapWf d m = true) :
    mapGet d (mapSet d m k v) j = if j = k then v else mapGet d m j := by
  by_cases hj : j = k
  · subst hj; simp [mapGet_mapSet_same d m j v h]
  · simp [hj]

/-! ### The canonical form -/

theorem mapWfFrom_mono [DecidableEq α] (d : α) (m : SMap α) (lo lo' : Nat) (h : mapWfFrom d lo m = true) (hl : lo' ≤ lo) :
    mapWfFrom d lo' m = true := by
  cases m with
  | nil => rfl
  | cons p m =>
    obtain ⟨i, w⟩ := p
    simp only [mapWfFrom, Bool.and_eq_true, decide_eq_true_eq] at h ⊢
    exact ⟨⟨by omega, h.1.2⟩, h.2⟩

theorem mapWfFrom_mapSet [DecidableEq α] (d : α) (m : SMap α) (lo k : Nat) (v : α) (h : mapWfFrom d lo m = true)
    (hk : lo ≤ k) : mapWfFrom d lo (mapSet d m k v) = true := by
  induction m generalizing lo with
  | nil => by_cases hv : v = d <;> simp [mapSet, mapWfFrom, hv, hk]
  | cons p m ih =>
    obtain ⟨i, w⟩ := p
    simp only [mapWfFrom, Bool.and_eq_true, decide_eq_true_eq] at h
    unfold mapSet
    by_cases h1 : k < i
    · by_cases hv : v = d
      · simp [h1, hv, mapWfFrom, h]
      · simp [h1, hv, mapWfFrom, h, hk]
    · by_cases h2 : k = i
      · subst h2
        by_cases hv : v = d
        · simp only [Nat.lt_irrefl, if_false, if_true, hv]
          exact mapWfFrom_mono d m (k + 1) lo h.2 (by omega)
        · simp [hv, mapWfFrom, h]
      · simp only [h1, h2, if_false, mapWfFrom, Bool.and_eq_true, decide_eq_true_eq]
        exact ⟨h.1, ih (i + 1) h.2 (by omega)⟩

@[simp] theorem mapWf_nil [DecidableEq α] (d : α) : mapWf d [] = true := rfl

@[simp] theorem mapWf_mapSet [DecidableEq α] (d : α) (m : SMap α) (k : Nat) (v : α) (h : mapWf d m = true) :
    mapWf d (mapSet d m k v) = true := mapWfFrom_mapSet d m 0 k v h (Nat.zero_le k)

theorem mapWfFrom_mapAll [DecidableEq α] (d : α) (f : Nat → α → α) (m : SMap α) (lo : Nat)
    (h : mapWfFrom d lo m = true) : mapWfFrom d lo (mapAll d f m) = true := by
  induction m generalizing lo with
  | nil => rfl
  | cons p m ih =>
    obtain ⟨i, w⟩ := p
    simp only [mapWfFrom, Bool.and_eq_true, decide_eq_true_eq] at h
    have hm := ih (i + 1) h.2
    unfold mapAll at hm ⊢
    by_cases hv : f i w = d
    · simp only [List.filterMap_cons, hv, if_true]
      exact mapWfFrom_mono d _ (i + 1) lo hm (by omega)
    · simp only [List.filterMap_cons, hv, if_false, mapWfFrom, Bool.and_eq_true, decide_eq_true_eq]
      exact ⟨⟨h.1.1, hv⟩, hm⟩

@[simp] theorem mapWf_mapAll [DecidableEq α] (d : α) (f : Nat → α → α) (m : SMap α) (h : mapWf d m = true) :
    mapWf d (mapAll d f m) = true := mapWfFrom_mapAll d f m 0 h

theorem mapWfFrom_filter [DecidableEq α] (d : α) (p : Nat × α → Bool) (m : SMap α) (lo : Nat)
    (h : mapWfFrom d lo m = true) : mapWfFrom d lo (m.filter p) = true := by
  induction m generalizing lo with
  | nil => rfl
  | cons q m ih =>
    obtain ⟨i, w⟩ := q
    simp only [mapWfFrom, Bool.and_eq_true, decide_eq_true_eq] at h
    have hm := ih (i + 1) h.2
    by_cases hp : p (i, w) = true
    · simp only [List.filter_cons, hp, if_true, mapWfFrom, Bool.and_eq_true, decide_eq_true_eq]
      exact ⟨h.1, hm⟩
    · simp only [List.filter_cons, hp]
      exact mapWfFrom_mono d _ (i + 1) lo hm (by omega)

@[simp] theorem mapWf_filter [DecidableEq α] (d : α) (p : Nat × α → Bool) (m : SMap α) (h : mapWf d m = true) :
    mapWf d (m.filter p) = true := mapWfFrom_filter d p m 0 h

/-- Two stores in canonical form that read alike are one. -/
theorem mapGet_ext_from [DecidableEq α] (d : α) (m n : SMap α) (lo : Nat) (hm : mapWfFrom d lo m = true)
    (hn : mapWfFrom d lo n = true) (h : ∀ k, mapGet d m k = mapGet d n k) : m = n := by
  induction m generalizing n lo with
  | nil =>
    cases n with
    | nil => rfl
    | cons q n =>
      obtain ⟨j, w⟩ := q
      simp only [mapWfFrom, Bool.and_eq_true, decide_eq_true_eq] at hn
      have := h j
      simp [mapGet] at this
      exact absurd this.symm hn.1.2
  | cons p m ih =>
    obtain ⟨i, v⟩ := p
    have hm' := hm
    simp only [mapWfFrom, Bool.and_eq_true, decide_eq_true_eq] at hm
    cases n with
    | nil =>
      have := h i
      simp [mapGet] at this
      exact absurd this hm.1.2
    | cons q n =>
      obtain ⟨j, w⟩ := q
      have hn' := hn
      simp only [mapWfFrom, Bool.and_eq_true, decide_eq_true_eq] at hn
      have hij : i = j := by
        rcases Nat.lt_trichotomy i j with hlt | heq | hgt
        · have := h i
          have h2 : mapGet d ((j, w) :: n) i = d :=
            mapGet_of_lt d _ j i (by simp [mapWfFrom, hn.1.2, hn.2]) hlt
          rw [h2] at this; simp [mapGet] at this
          exact absurd this hm.1.2
        · exact heq
        · have := h j
          have h2 : mapGet d ((i, v) :: m) j = d :=
            mapGet_of_lt d _ i j (by simp [mapWfFrom, hm.1.2, hm.2]) hgt
          rw [h2] at this; simp [mapGet] at this
          exact absurd this.symm hn.1.2
      subst hij
      have hv : v = w := by have := h i; simpa [mapGet] using this
      subst hv
      congr 1
      refine ih n (i + 1) hm.2 hn.2 ?_
      intro k
      by_cases hk : k = i
      · subst hk
        rw [mapGet_of_lt d m (k + 1) k hm.2 (by omega), mapGet_of_lt d n (k + 1) k hn.2 (by omega)]
      · have := h k; simpa [mapGet, hk] using this

theorem mapGet_ext [DecidableEq α] (d : α) (m n : SMap α) (hm : mapWf d m = true) (hn : mapWf d n = true)
    (h : ∀ k, mapGet d m k = mapGet d n k) : m = n := mapGet_ext_from d m n 0 hm hn h

/-- What holds of the default and of every entry holds of every index. -/
theorem mapGet_of_all (P : α → Prop) (d : α) (m : SMap α) (hd : P d) (h : ∀ p ∈ m, P p.2) (k : Nat) : P (mapGet d m k) := by
  induction m with
  | nil => exact hd
  | cons p m ih =>
    unfold mapGet
    split
    · exact h p (by simp)
    · exact ih (fun q hq => h q (by simp [hq]))

theorem mapWf_setAll [DecidableEq α] (d : α) (l m : SMap α) (h : mapWf d m = true) :
    mapWf d (l.foldl (fun m p => mapSet d m p.1 p.2) m) = true := by
  induction l generalizing m with
  | nil => exact h
  | cons p l ih => exact ih _ (mapWf_mapSet d m p.1 p.2 h)

end Sys2Proof.Machine
end

