-- ==== Sys2Proof/Laws/State.lean ====
section
/-! SUPPORT. What each updater of the state leaves alone, one lemma a field, and reading back what was written. -/

namespace Sys2Proof.Machine

/-! ### upCtx -/

@[simp] theorem upCtx_tw0 (k : Nat) (f : Ctx → Ctx) (s : Block) : (upCtx k f s).tw0 = s.tw0 := rfl
@[simp] theorem upCtx_tw1 (k : Nat) (f : Ctx → Ctx) (s : Block) : (upCtx k f s).tw1 = s.tw1 := rfl
@[simp] theorem upCtx_pages (k : Nat) (f : Ctx → Ctx) (s : Block) : (upCtx k f s).pages = s.pages := rfl
@[simp] theorem upCtx_engines (k : Nat) (f : Ctx → Ctx) (s : Block) : (upCtx k f s).engines = s.engines := rfl
@[simp] theorem upCtx_flushes (k : Nat) (f : Ctx → Ctx) (s : Block) : (upCtx k f s).flushes = s.flushes := rfl
@[simp] theorem upCtx_holds (k : Nat) (f : Ctx → Ctx) (s : Block) : (upCtx k f s).holds = s.holds := rfl
@[simp] theorem upCtx_sendEps (k : Nat) (f : Ctx → Ctx) (s : Block) : (upCtx k f s).sendEps = s.sendEps := rfl
@[simp] theorem upCtx_recvEps (k : Nat) (f : Ctx → Ctx) (s : Block) : (upCtx k f s).recvEps = s.recvEps := rfl
@[simp] theorem upCtx_heldWrites (k : Nat) (f : Ctx → Ctx) (s : Block) : (upCtx k f s).heldWrites = s.heldWrites := rfl
@[simp] theorem upCtx_heldSteps (k : Nat) (f : Ctx → Ctx) (s : Block) : (upCtx k f s).heldSteps = s.heldSteps := rfl
@[simp] theorem upCtx_fmt (k : Nat) (f : Ctx → Ctx) (s : Block) : (upCtx k f s).fmt = s.fmt := rfl
@[simp] theorem upCtx_freeze (k : Nat) (f : Ctx → Ctx) (s : Block) : (upCtx k f s).freeze = s.freeze := rfl
@[simp] theorem upCtx_arb (k : Nat) (f : Ctx → Ctx) (s : Block) : (upCtx k f s).arb = s.arb := rfl
@[simp] theorem upCtx_proof (k : Nat) (f : Ctx → Ctx) (s : Block) : (upCtx k f s).proof = s.proof := rfl
@[simp] theorem upCtx_pair (k : Nat) (f : Ctx → Ctx) (s : Block) : (upCtx k f s).pair = s.pair := rfl
@[simp] theorem upCtx_boot (k : Nat) (f : Ctx → Ctx) (s : Block) : (upCtx k f s).boot = s.boot := rfl
@[simp] theorem upCtx_mgmt (k : Nat) (f : Ctx → Ctx) (s : Block) : (upCtx k f s).mgmt = s.mgmt := rfl
@[simp] theorem upCtx_fuses (k : Nat) (f : Ctx → Ctx) (s : Block) : (upCtx k f s).fuses = s.fuses := rfl
@[simp] theorem upCtx_fuseBanks (k : Nat) (f : Ctx → Ctx) (s : Block) : (upCtx k f s).fuseBanks = s.fuseBanks := rfl
@[simp] theorem upCtx_phase (k : Nat) (f : Ctx → Ctx) (s : Block) : (upCtx k f s).phase = s.phase := rfl
@[simp] theorem upCtx_claimSeq (k : Nat) (f : Ctx → Ctx) (s : Block) : (upCtx k f s).claimSeq = s.claimSeq := rfl
@[simp] theorem upCtx_serial (k : Nat) (f : Ctx → Ctx) (s : Block) : (upCtx k f s).serial = s.serial := rfl
@[simp] theorem upCtx_ticks (k : Nat) (f : Ctx → Ctx) (s : Block) : (upCtx k f s).ticks = s.ticks := rfl
@[simp] theorem upCtx_time (k : Nat) (f : Ctx → Ctx) (s : Block) : (upCtx k f s).time = s.time := rfl
@[simp] theorem upCtx_work (k : Nat) (f : Ctx → Ctx) (s : Block) : (upCtx k f s).work = s.work := rfl
@[simp] theorem upCtx_out (k : Nat) (f : Ctx → Ctx) (s : Block) : (upCtx k f s).out = s.out := rfl
@[simp] theorem upCtx_tw (k : Nat) (f : Ctx → Ctx) (s : Block) (t : TwinId) :
    tw (upCtx k f s) t = tw s t := by cases t <;> rfl

/-! ### upPage -/

@[simp] theorem upPage_tw0 (k : Nat) (f : Page → Page) (s : Block) : (upPage k f s).tw0 = s.tw0 := rfl
@[simp] theorem upPage_tw1 (k : Nat) (f : Page → Page) (s : Block) : (upPage k f s).tw1 = s.tw1 := rfl
@[simp] theorem upPage_ctxs (k : Nat) (f : Page → Page) (s : Block) : (upPage k f s).ctxs = s.ctxs := rfl
@[simp] theorem upPage_engines (k : Nat) (f : Page → Page) (s : Block) : (upPage k f s).engines = s.engines := rfl
@[simp] theorem upPage_flushes (k : Nat) (f : Page → Page) (s : Block) : (upPage k f s).flushes = s.flushes := rfl
@[simp] theorem upPage_holds (k : Nat) (f : Page → Page) (s : Block) : (upPage k f s).holds = s.holds := rfl
@[simp] theorem upPage_sendEps (k : Nat) (f : Page → Page) (s : Block) : (upPage k f s).sendEps = s.sendEps := rfl
@[simp] theorem upPage_recvEps (k : Nat) (f : Page → Page) (s : Block) : (upPage k f s).recvEps = s.recvEps := rfl
@[simp] theorem upPage_heldWrites (k : Nat) (f : Page → Page) (s : Block) : (upPage k f s).heldWrites = s.heldWrites := rfl
@[simp] theorem upPage_heldSteps (k : Nat) (f : Page → Page) (s : Block) : (upPage k f s).heldSteps = s.heldSteps := rfl
@[simp] theorem upPage_fmt (k : Nat) (f : Page → Page) (s : Block) : (upPage k f s).fmt = s.fmt := rfl
@[simp] theorem upPage_freeze (k : Nat) (f : Page → Page) (s : Block) : (upPage k f s).freeze = s.freeze := rfl
@[simp] theorem upPage_arb (k : Nat) (f : Page → Page) (s : Block) : (upPage k f s).arb = s.arb := rfl
@[simp] theorem upPage_proof (k : Nat) (f : Page → Page) (s : Block) : (upPage k f s).proof = s.proof := rfl
@[simp] theorem upPage_pair (k : Nat) (f : Page → Page) (s : Block) : (upPage k f s).pair = s.pair := rfl
@[simp] theorem upPage_boot (k : Nat) (f : Page → Page) (s : Block) : (upPage k f s).boot = s.boot := rfl
@[simp] theorem upPage_mgmt (k : Nat) (f : Page → Page) (s : Block) : (upPage k f s).mgmt = s.mgmt := rfl
@[simp] theorem upPage_fuses (k : Nat) (f : Page → Page) (s : Block) : (upPage k f s).fuses = s.fuses := rfl
@[simp] theorem upPage_fuseBanks (k : Nat) (f : Page → Page) (s : Block) : (upPage k f s).fuseBanks = s.fuseBanks := rfl
@[simp] theorem upPage_phase (k : Nat) (f : Page → Page) (s : Block) : (upPage k f s).phase = s.phase := rfl
@[simp] theorem upPage_claimSeq (k : Nat) (f : Page → Page) (s : Block) : (upPage k f s).claimSeq = s.claimSeq := rfl
@[simp] theorem upPage_serial (k : Nat) (f : Page → Page) (s : Block) : (upPage k f s).serial = s.serial := rfl
@[simp] theorem upPage_ticks (k : Nat) (f : Page → Page) (s : Block) : (upPage k f s).ticks = s.ticks := rfl
@[simp] theorem upPage_time (k : Nat) (f : Page → Page) (s : Block) : (upPage k f s).time = s.time := rfl
@[simp] theorem upPage_work (k : Nat) (f : Page → Page) (s : Block) : (upPage k f s).work = s.work := rfl
@[simp] theorem upPage_out (k : Nat) (f : Page → Page) (s : Block) : (upPage k f s).out = s.out := rfl
@[simp] theorem upPage_tw (k : Nat) (f : Page → Page) (s : Block) (t : TwinId) :
    tw (upPage k f s) t = tw s t := by cases t <;> rfl

/-! ### upEng -/

@[simp] theorem upEng_tw0 (e : Nat) (f : Engine → Engine) (s : Block) : (upEng e f s).tw0 = s.tw0 := rfl
@[simp] theorem upEng_tw1 (e : Nat) (f : Engine → Engine) (s : Block) : (upEng e f s).tw1 = s.tw1 := rfl
@[simp] theorem upEng_ctxs (e : Nat) (f : Engine → Engine) (s : Block) : (upEng e f s).ctxs = s.ctxs := rfl
@[simp] theorem upEng_pages (e : Nat) (f : Engine → Engine) (s : Block) : (upEng e f s).pages = s.pages := rfl
@[simp] theorem upEng_flushes (e : Nat) (f : Engine → Engine) (s : Block) : (upEng e f s).flushes = s.flushes := rfl
@[simp] theorem upEng_holds (e : Nat) (f : Engine → Engine) (s : Block) : (upEng e f s).holds = s.holds := rfl
@[simp] theorem upEng_sendEps (e : Nat) (f : Engine → Engine) (s : Block) : (upEng e f s).sendEps = s.sendEps := rfl
@[simp] theorem upEng_recvEps (e : Nat) (f : Engine → Engine) (s : Block) : (upEng e f s).recvEps = s.recvEps := rfl
@[simp] theorem upEng_heldWrites (e : Nat) (f : Engine → Engine) (s : Block) : (upEng e f s).heldWrites = s.heldWrites := rfl
@[simp] theorem upEng_heldSteps (e : Nat) (f : Engine → Engine) (s : Block) : (upEng e f s).heldSteps = s.heldSteps := rfl
@[simp] theorem upEng_fmt (e : Nat) (f : Engine → Engine) (s : Block) : (upEng e f s).fmt = s.fmt := rfl
@[simp] theorem upEng_freeze (e : Nat) (f : Engine → Engine) (s : Block) : (upEng e f s).freeze = s.freeze := rfl
@[simp] theorem upEng_arb (e : Nat) (f : Engine → Engine) (s : Block) : (upEng e f s).arb = s.arb := rfl
@[simp] theorem upEng_proof (e : Nat) (f : Engine → Engine) (s : Block) : (upEng e f s).proof = s.proof := rfl
@[simp] theorem upEng_pair (e : Nat) (f : Engine → Engine) (s : Block) : (upEng e f s).pair = s.pair := rfl
@[simp] theorem upEng_boot (e : Nat) (f : Engine → Engine) (s : Block) : (upEng e f s).boot = s.boot := rfl
@[simp] theorem upEng_mgmt (e : Nat) (f : Engine → Engine) (s : Block) : (upEng e f s).mgmt = s.mgmt := rfl
@[simp] theorem upEng_fuses (e : Nat) (f : Engine → Engine) (s : Block) : (upEng e f s).fuses = s.fuses := rfl
@[simp] theorem upEng_fuseBanks (e : Nat) (f : Engine → Engine) (s : Block) : (upEng e f s).fuseBanks = s.fuseBanks := rfl
@[simp] theorem upEng_phase (e : Nat) (f : Engine → Engine) (s : Block) : (upEng e f s).phase = s.phase := rfl
@[simp] theorem upEng_claimSeq (e : Nat) (f : Engine → Engine) (s : Block) :
    (upEng e f s).claimSeq = s.claimSeq := rfl
@[simp] theorem upEng_serial (e : Nat) (f : Engine → Engine) (s : Block) : (upEng e f s).serial = s.serial := rfl
@[simp] theorem upEng_ticks (e : Nat) (f : Engine → Engine) (s : Block) : (upEng e f s).ticks = s.ticks := rfl
@[simp] theorem upEng_time (e : Nat) (f : Engine → Engine) (s : Block) : (upEng e f s).time = s.time := rfl
@[simp] theorem upEng_work (e : Nat) (f : Engine → Engine) (s : Block) : (upEng e f s).work = s.work := rfl
@[simp] theorem upEng_out (e : Nat) (f : Engine → Engine) (s : Block) : (upEng e f s).out = s.out := rfl
@[simp] theorem upEng_tw (e : Nat) (f : Engine → Engine) (s : Block) (t : TwinId) :
    tw (upEng e f s) t = tw s t := by cases t <;> rfl

/-! ### upFlush -/

@[simp] theorem upFlush_tw0 (c : Nat) (f : Flush → Flush) (s : Block) : (upFlush c f s).tw0 = s.tw0 := rfl
@[simp] theorem upFlush_tw1 (c : Nat) (f : Flush → Flush) (s : Block) : (upFlush c f s).tw1 = s.tw1 := rfl
@[simp] theorem upFlush_ctxs (c : Nat) (f : Flush → Flush) (s : Block) : (upFlush c f s).ctxs = s.ctxs := rfl
@[simp] theorem upFlush_pages (c : Nat) (f : Flush → Flush) (s : Block) : (upFlush c f s).pages = s.pages := rfl
@[simp] theorem upFlush_engines (c : Nat) (f : Flush → Flush) (s : Block) :
    (upFlush c f s).engines = s.engines := rfl
@[simp] theorem upFlush_holds (c : Nat) (f : Flush → Flush) (s : Block) : (upFlush c f s).holds = s.holds := rfl
@[simp] theorem upFlush_sendEps (c : Nat) (f : Flush → Flush) (s : Block) :
    (upFlush c f s).sendEps = s.sendEps := rfl
@[simp] theorem upFlush_recvEps (c : Nat) (f : Flush → Flush) (s : Block) :
    (upFlush c f s).recvEps = s.recvEps := rfl
@[simp] theorem upFlush_heldWrites (c : Nat) (f : Flush → Flush) (s : Block) :
    (upFlush c f s).heldWrites = s.heldWrites := rfl
@[simp] theorem upFlush_heldSteps (c : Nat) (f : Flush → Flush) (s : Block) :
    (upFlush c f s).heldSteps = s.heldSteps := rfl
@[simp] theorem upFlush_fmt (c : Nat) (f : Flush → Flush) (s : Block) : (upFlush c f s).fmt = s.fmt := rfl
@[simp] theorem upFlush_freeze (c : Nat) (f : Flush → Flush) (s : Block) : (upFlush c f s).freeze = s.freeze := rfl
@[simp] theorem upFlush_arb (c : Nat) (f : Flush → Flush) (s : Block) : (upFlush c f s).arb = s.arb := rfl
@[simp] theorem upFlush_proof (c : Nat) (f : Flush → Flush) (s : Block) : (upFlush c f s).proof = s.proof := rfl
@[simp] theorem upFlush_pair (c : Nat) (f : Flush → Flush) (s : Block) : (upFlush c f s).pair = s.pair := rfl
@[simp] theorem upFlush_boot (c : Nat) (f : Flush → Flush) (s : Block) : (upFlush c f s).boot = s.boot := rfl
@[simp] theorem upFlush_mgmt (c : Nat) (f : Flush → Flush) (s : Block) : (upFlush c f s).mgmt = s.mgmt := rfl
@[simp] theorem upFlush_fuses (c : Nat) (f : Flush → Flush) (s : Block) : (upFlush c f s).fuses = s.fuses := rfl
@[simp] theorem upFlush_fuseBanks (c : Nat) (f : Flush → Flush) (s : Block) : (upFlush c f s).fuseBanks = s.fuseBanks := rfl
@[simp] theorem upFlush_phase (c : Nat) (f : Flush → Flush) (s : Block) : (upFlush c f s).phase = s.phase := rfl
@[simp] theorem upFlush_claimSeq (c : Nat) (f : Flush → Flush) (s : Block) :
    (upFlush c f s).claimSeq = s.claimSeq := rfl
@[simp] theorem upFlush_serial (c : Nat) (f : Flush → Flush) (s : Block) : (upFlush c f s).serial = s.serial := rfl
@[simp] theorem upFlush_ticks (c : Nat) (f : Flush → Flush) (s : Block) : (upFlush c f s).ticks = s.ticks := rfl
@[simp] theorem upFlush_time (c : Nat) (f : Flush → Flush) (s : Block) : (upFlush c f s).time = s.time := rfl
@[simp] theorem upFlush_work (c : Nat) (f : Flush → Flush) (s : Block) : (upFlush c f s).work = s.work := rfl
@[simp] theorem upFlush_out (c : Nat) (f : Flush → Flush) (s : Block) : (upFlush c f s).out = s.out := rfl
@[simp] theorem upFlush_tw (c : Nat) (f : Flush → Flush) (s : Block) (t : TwinId) :
    tw (upFlush c f s) t = tw s t := by cases t <;> rfl

/-! ### pushWork -/

@[simp] theorem pushWork_tw0 (ws : List Work) (s : Block) : (pushWork ws s).tw0 = s.tw0 := rfl
@[simp] theorem pushWork_tw1 (ws : List Work) (s : Block) : (pushWork ws s).tw1 = s.tw1 := rfl
@[simp] theorem pushWork_ctxs (ws : List Work) (s : Block) : (pushWork ws s).ctxs = s.ctxs := rfl
@[simp] theorem pushWork_pages (ws : List Work) (s : Block) : (pushWork ws s).pages = s.pages := rfl
@[simp] theorem pushWork_engines (ws : List Work) (s : Block) : (pushWork ws s).engines = s.engines := rfl
@[simp] theorem pushWork_flushes (ws : List Work) (s : Block) : (pushWork ws s).flushes = s.flushes := rfl
@[simp] theorem pushWork_holds (ws : List Work) (s : Block) : (pushWork ws s).holds = s.holds := rfl
@[simp] theorem pushWork_sendEps (ws : List Work) (s : Block) : (pushWork ws s).sendEps = s.sendEps := rfl
@[simp] theorem pushWork_recvEps (ws : List Work) (s : Block) : (pushWork ws s).recvEps = s.recvEps := rfl
@[simp] theorem pushWork_heldWrites (ws : List Work) (s : Block) : (pushWork ws s).heldWrites = s.heldWrites := rfl
@[simp] theorem pushWork_heldSteps (ws : List Work) (s : Block) : (pushWork ws s).heldSteps = s.heldSteps := rfl
@[simp] theorem pushWork_fmt (ws : List Work) (s : Block) : (pushWork ws s).fmt = s.fmt := rfl
@[simp] theorem pushWork_freeze (ws : List Work) (s : Block) : (pushWork ws s).freeze = s.freeze := rfl
@[simp] theorem pushWork_arb (ws : List Work) (s : Block) : (pushWork ws s).arb = s.arb := rfl
@[simp] theorem pushWork_proof (ws : List Work) (s : Block) : (pushWork ws s).proof = s.proof := rfl
@[simp] theorem pushWork_pair (ws : List Work) (s : Block) : (pushWork ws s).pair = s.pair := rfl
@[simp] theorem pushWork_boot (ws : List Work) (s : Block) : (pushWork ws s).boot = s.boot := rfl
@[simp] theorem pushWork_mgmt (ws : List Work) (s : Block) : (pushWork ws s).mgmt = s.mgmt := rfl
@[simp] theorem pushWork_fuses (ws : List Work) (s : Block) : (pushWork ws s).fuses = s.fuses := rfl
@[simp] theorem pushWork_fuseBanks (ws : List Work) (s : Block) : (pushWork ws s).fuseBanks = s.fuseBanks := rfl
@[simp] theorem pushWork_phase (ws : List Work) (s : Block) : (pushWork ws s).phase = s.phase := rfl
@[simp] theorem pushWork_claimSeq (ws : List Work) (s : Block) : (pushWork ws s).claimSeq = s.claimSeq := rfl
@[simp] theorem pushWork_serial (ws : List Work) (s : Block) : (pushWork ws s).serial = s.serial := rfl
@[simp] theorem pushWork_ticks (ws : List Work) (s : Block) : (pushWork ws s).ticks = s.ticks := rfl
@[simp] theorem pushWork_time (ws : List Work) (s : Block) : (pushWork ws s).time = s.time := rfl
@[simp] theorem pushWork_out (ws : List Work) (s : Block) : (pushWork ws s).out = s.out := rfl
@[simp] theorem pushWork_tw (ws : List Work) (s : Block) (t : TwinId) :
    tw (pushWork ws s) t = tw s t := by cases t <;> rfl

/-! ### emit -/

@[simp] theorem emit_tw0 (o : Output) (s : Block) : (emit o s).tw0 = s.tw0 := rfl
@[simp] theorem emit_tw1 (o : Output) (s : Block) : (emit o s).tw1 = s.tw1 := rfl
@[simp] theorem emit_ctxs (o : Output) (s : Block) : (emit o s).ctxs = s.ctxs := rfl
@[simp] theorem emit_pages (o : Output) (s : Block) : (emit o s).pages = s.pages := rfl
@[simp] theorem emit_engines (o : Output) (s : Block) : (emit o s).engines = s.engines := rfl
@[simp] theorem emit_flushes (o : Output) (s : Block) : (emit o s).flushes = s.flushes := rfl
@[simp] theorem emit_holds (o : Output) (s : Block) : (emit o s).holds = s.holds := rfl
@[simp] theorem emit_sendEps (o : Output) (s : Block) : (emit o s).sendEps = s.sendEps := rfl
@[simp] theorem emit_recvEps (o : Output) (s : Block) : (emit o s).recvEps = s.recvEps := rfl
@[simp] theorem emit_heldWrites (o : Output) (s : Block) : (emit o s).heldWrites = s.heldWrites := rfl
@[simp] theorem emit_heldSteps (o : Output) (s : Block) : (emit o s).heldSteps = s.heldSteps := rfl
@[simp] theorem emit_fmt (o : Output) (s : Block) : (emit o s).fmt = s.fmt := rfl
@[simp] theorem emit_freeze (o : Output) (s : Block) : (emit o s).freeze = s.freeze := rfl
@[simp] theorem emit_arb (o : Output) (s : Block) : (emit o s).arb = s.arb := rfl
@[simp] theorem emit_proof (o : Output) (s : Block) : (emit o s).proof = s.proof := rfl
@[simp] theorem emit_pair (o : Output) (s : Block) : (emit o s).pair = s.pair := rfl
@[simp] theorem emit_boot (o : Output) (s : Block) : (emit o s).boot = s.boot := rfl
@[simp] theorem emit_mgmt (o : Output) (s : Block) : (emit o s).mgmt = s.mgmt := rfl
@[simp] theorem emit_fuses (o : Output) (s : Block) : (emit o s).fuses = s.fuses := rfl
@[simp] theorem emit_fuseBanks (o : Output) (s : Block) : (emit o s).fuseBanks = s.fuseBanks := rfl
@[simp] theorem emit_phase (o : Output) (s : Block) : (emit o s).phase = s.phase := rfl
@[simp] theorem emit_claimSeq (o : Output) (s : Block) : (emit o s).claimSeq = s.claimSeq := rfl
@[simp] theorem emit_serial (o : Output) (s : Block) : (emit o s).serial = s.serial := rfl
@[simp] theorem emit_ticks (o : Output) (s : Block) : (emit o s).ticks = s.ticks := rfl
@[simp] theorem emit_time (o : Output) (s : Block) : (emit o s).time = s.time := rfl
@[simp] theorem emit_work (o : Output) (s : Block) : (emit o s).work = s.work := rfl
@[simp] theorem emit_tw (o : Output) (s : Block) (t : TwinId) :
    tw (emit o s) t = tw s t := by cases t <;> rfl

/-! ### setErr -/

@[simp] theorem setErr_tw0 (k n : Nat) (s : Block) : (setErr k n s).tw0 = s.tw0 := rfl
@[simp] theorem setErr_tw1 (k n : Nat) (s : Block) : (setErr k n s).tw1 = s.tw1 := rfl
@[simp] theorem setErr_ctxs (k n : Nat) (s : Block) : (setErr k n s).ctxs = s.ctxs := rfl
@[simp] theorem setErr_engines (k n : Nat) (s : Block) : (setErr k n s).engines = s.engines := rfl
@[simp] theorem setErr_flushes (k n : Nat) (s : Block) : (setErr k n s).flushes = s.flushes := rfl
@[simp] theorem setErr_holds (k n : Nat) (s : Block) : (setErr k n s).holds = s.holds := rfl
@[simp] theorem setErr_sendEps (k n : Nat) (s : Block) : (setErr k n s).sendEps = s.sendEps := rfl
@[simp] theorem setErr_recvEps (k n : Nat) (s : Block) : (setErr k n s).recvEps = s.recvEps := rfl
@[simp] theorem setErr_heldWrites (k n : Nat) (s : Block) : (setErr k n s).heldWrites = s.heldWrites := rfl
@[simp] theorem setErr_heldSteps (k n : Nat) (s : Block) : (setErr k n s).heldSteps = s.heldSteps := rfl
@[simp] theorem setErr_fmt (k n : Nat) (s : Block) : (setErr k n s).fmt = s.fmt := rfl
@[simp] theorem setErr_freeze (k n : Nat) (s : Block) : (setErr k n s).freeze = s.freeze := rfl
@[simp] theorem setErr_arb (k n : Nat) (s : Block) : (setErr k n s).arb = s.arb := rfl
@[simp] theorem setErr_proof (k n : Nat) (s : Block) : (setErr k n s).proof = s.proof := rfl
@[simp] theorem setErr_pair (k n : Nat) (s : Block) : (setErr k n s).pair = s.pair := rfl
@[simp] theorem setErr_boot (k n : Nat) (s : Block) : (setErr k n s).boot = s.boot := rfl
@[simp] theorem setErr_mgmt (k n : Nat) (s : Block) : (setErr k n s).mgmt = s.mgmt := rfl
@[simp] theorem setErr_fuses (k n : Nat) (s : Block) : (setErr k n s).fuses = s.fuses := rfl
@[simp] theorem setErr_fuseBanks (k n : Nat) (s : Block) : (setErr k n s).fuseBanks = s.fuseBanks := rfl
@[simp] theorem setErr_phase (k n : Nat) (s : Block) : (setErr k n s).phase = s.phase := rfl
@[simp] theorem setErr_claimSeq (k n : Nat) (s : Block) : (setErr k n s).claimSeq = s.claimSeq := rfl
@[simp] theorem setErr_serial (k n : Nat) (s : Block) : (setErr k n s).serial = s.serial := rfl
@[simp] theorem setErr_ticks (k n : Nat) (s : Block) : (setErr k n s).ticks = s.ticks := rfl
@[simp] theorem setErr_time (k n : Nat) (s : Block) : (setErr k n s).time = s.time := rfl
@[simp] theorem setErr_work (k n : Nat) (s : Block) : (setErr k n s).work = s.work := rfl
@[simp] theorem setErr_out (k n : Nat) (s : Block) : (setErr k n s).out = s.out := rfl
@[simp] theorem setErr_tw (k n : Nat) (s : Block) (t : TwinId) :
    tw (setErr k n s) t = tw s t := by cases t <;> rfl

/-! ### bump -/

@[simp] theorem bump_tw0 (k off n : Nat) (s : Block) : (bump k off n s).tw0 = s.tw0 := rfl
@[simp] theorem bump_tw1 (k off n : Nat) (s : Block) : (bump k off n s).tw1 = s.tw1 := rfl
@[simp] theorem bump_ctxs (k off n : Nat) (s : Block) : (bump k off n s).ctxs = s.ctxs := rfl
@[simp] theorem bump_engines (k off n : Nat) (s : Block) : (bump k off n s).engines = s.engines := rfl
@[simp] theorem bump_flushes (k off n : Nat) (s : Block) : (bump k off n s).flushes = s.flushes := rfl
@[simp] theorem bump_holds (k off n : Nat) (s : Block) : (bump k off n s).holds = s.holds := rfl
@[simp] theorem bump_sendEps (k off n : Nat) (s : Block) : (bump k off n s).sendEps = s.sendEps := rfl
@[simp] theorem bump_recvEps (k off n : Nat) (s : Block) : (bump k off n s).recvEps = s.recvEps := rfl
@[simp] theorem bump_heldWrites (k off n : Nat) (s : Block) : (bump k off n s).heldWrites = s.heldWrites := rfl
@[simp] theorem bump_heldSteps (k off n : Nat) (s : Block) : (bump k off n s).heldSteps = s.heldSteps := rfl
@[simp] theorem bump_fmt (k off n : Nat) (s : Block) : (bump k off n s).fmt = s.fmt := rfl
@[simp] theorem bump_freeze (k off n : Nat) (s : Block) : (bump k off n s).freeze = s.freeze := rfl
@[simp] theorem bump_arb (k off n : Nat) (s : Block) : (bump k off n s).arb = s.arb := rfl
@[simp] theorem bump_proof (k off n : Nat) (s : Block) : (bump k off n s).proof = s.proof := rfl
@[simp] theorem bump_pair (k off n : Nat) (s : Block) : (bump k off n s).pair = s.pair := rfl
@[simp] theorem bump_boot (k off n : Nat) (s : Block) : (bump k off n s).boot = s.boot := rfl
@[simp] theorem bump_mgmt (k off n : Nat) (s : Block) : (bump k off n s).mgmt = s.mgmt := rfl
@[simp] theorem bump_fuses (k off n : Nat) (s : Block) : (bump k off n s).fuses = s.fuses := rfl
@[simp] theorem bump_fuseBanks (k off n : Nat) (s : Block) : (bump k off n s).fuseBanks = s.fuseBanks := rfl
@[simp] theorem bump_phase (k off n : Nat) (s : Block) : (bump k off n s).phase = s.phase := rfl
@[simp] theorem bump_claimSeq (k off n : Nat) (s : Block) : (bump k off n s).claimSeq = s.claimSeq := rfl
@[simp] theorem bump_serial (k off n : Nat) (s : Block) : (bump k off n s).serial = s.serial := rfl
@[simp] theorem bump_ticks (k off n : Nat) (s : Block) : (bump k off n s).ticks = s.ticks := rfl
@[simp] theorem bump_time (k off n : Nat) (s : Block) : (bump k off n s).time = s.time := rfl
@[simp] theorem bump_work (k off n : Nat) (s : Block) : (bump k off n s).work = s.work := rfl
@[simp] theorem bump_out (k off n : Nat) (s : Block) : (bump k off n s).out = s.out := rfl
@[simp] theorem bump_tw (k off n : Nat) (s : Block) (t : TwinId) :
    tw (bump k off n s) t = tw s t := by cases t <;> rfl

/-! ### bumpCtx -/

@[simp] theorem bumpCtx_tw0 (k off n : Nat) (s : Block) : (bumpCtx k off n s).tw0 = s.tw0 := rfl
@[simp] theorem bumpCtx_tw1 (k off n : Nat) (s : Block) : (bumpCtx k off n s).tw1 = s.tw1 := rfl
@[simp] theorem bumpCtx_ctxs (k off n : Nat) (s : Block) : (bumpCtx k off n s).ctxs = s.ctxs := rfl
@[simp] theorem bumpCtx_engines (k off n : Nat) (s : Block) : (bumpCtx k off n s).engines = s.engines := rfl
@[simp] theorem bumpCtx_flushes (k off n : Nat) (s : Block) : (bumpCtx k off n s).flushes = s.flushes := rfl
@[simp] theorem bumpCtx_holds (k off n : Nat) (s : Block) : (bumpCtx k off n s).holds = s.holds := rfl
@[simp] theorem bumpCtx_sendEps (k off n : Nat) (s : Block) : (bumpCtx k off n s).sendEps = s.sendEps := rfl
@[simp] theorem bumpCtx_recvEps (k off n : Nat) (s : Block) : (bumpCtx k off n s).recvEps = s.recvEps := rfl
@[simp] theorem bumpCtx_heldWrites (k off n : Nat) (s : Block) : (bumpCtx k off n s).heldWrites = s.heldWrites := rfl
@[simp] theorem bumpCtx_heldSteps (k off n : Nat) (s : Block) : (bumpCtx k off n s).heldSteps = s.heldSteps := rfl
@[simp] theorem bumpCtx_fmt (k off n : Nat) (s : Block) : (bumpCtx k off n s).fmt = s.fmt := rfl
@[simp] theorem bumpCtx_freeze (k off n : Nat) (s : Block) : (bumpCtx k off n s).freeze = s.freeze := rfl
@[simp] theorem bumpCtx_arb (k off n : Nat) (s : Block) : (bumpCtx k off n s).arb = s.arb := rfl
@[simp] theorem bumpCtx_proof (k off n : Nat) (s : Block) : (bumpCtx k off n s).proof = s.proof := rfl
@[simp] theorem bumpCtx_pair (k off n : Nat) (s : Block) : (bumpCtx k off n s).pair = s.pair := rfl
@[simp] theorem bumpCtx_boot (k off n : Nat) (s : Block) : (bumpCtx k off n s).boot = s.boot := rfl
@[simp] theorem bumpCtx_mgmt (k off n : Nat) (s : Block) : (bumpCtx k off n s).mgmt = s.mgmt := rfl
@[simp] theorem bumpCtx_fuses (k off n : Nat) (s : Block) : (bumpCtx k off n s).fuses = s.fuses := rfl
@[simp] theorem bumpCtx_fuseBanks (k off n : Nat) (s : Block) : (bumpCtx k off n s).fuseBanks = s.fuseBanks := rfl
@[simp] theorem bumpCtx_phase (k off n : Nat) (s : Block) : (bumpCtx k off n s).phase = s.phase := rfl
@[simp] theorem bumpCtx_claimSeq (k off n : Nat) (s : Block) : (bumpCtx k off n s).claimSeq = s.claimSeq := rfl
@[simp] theorem bumpCtx_serial (k off n : Nat) (s : Block) : (bumpCtx k off n s).serial = s.serial := rfl
@[simp] theorem bumpCtx_ticks (k off n : Nat) (s : Block) : (bumpCtx k off n s).ticks = s.ticks := rfl
@[simp] theorem bumpCtx_time (k off n : Nat) (s : Block) : (bumpCtx k off n s).time = s.time := rfl
@[simp] theorem bumpCtx_work (k off n : Nat) (s : Block) : (bumpCtx k off n s).work = s.work := rfl
@[simp] theorem bumpCtx_out (k off n : Nat) (s : Block) : (bumpCtx k off n s).out = s.out := rfl
@[simp] theorem bumpCtx_tw (k off n : Nat) (s : Block) (t : TwinId) :
    tw (bumpCtx k off n s) t = tw s t := by cases t <;> rfl

/-! ### setReg -/

@[simp] theorem setReg_tw0 (k off v : Nat) (s : Block) : (setReg k off v s).tw0 = s.tw0 := rfl
@[simp] theorem setReg_tw1 (k off v : Nat) (s : Block) : (setReg k off v s).tw1 = s.tw1 := rfl
@[simp] theorem setReg_ctxs (k off v : Nat) (s : Block) : (setReg k off v s).ctxs = s.ctxs := rfl
@[simp] theorem setReg_engines (k off v : Nat) (s : Block) : (setReg k off v s).engines = s.engines := rfl
@[simp] theorem setReg_flushes (k off v : Nat) (s : Block) : (setReg k off v s).flushes = s.flushes := rfl
@[simp] theorem setReg_holds (k off v : Nat) (s : Block) : (setReg k off v s).holds = s.holds := rfl
@[simp] theorem setReg_sendEps (k off v : Nat) (s : Block) : (setReg k off v s).sendEps = s.sendEps := rfl
@[simp] theorem setReg_recvEps (k off v : Nat) (s : Block) : (setReg k off v s).recvEps = s.recvEps := rfl
@[simp] theorem setReg_heldWrites (k off v : Nat) (s : Block) : (setReg k off v s).heldWrites = s.heldWrites := rfl
@[simp] theorem setReg_heldSteps (k off v : Nat) (s : Block) : (setReg k off v s).heldSteps = s.heldSteps := rfl
@[simp] theorem setReg_fmt (k off v : Nat) (s : Block) : (setReg k off v s).fmt = s.fmt := rfl
@[simp] theorem setReg_freeze (k off v : Nat) (s : Block) : (setReg k off v s).freeze = s.freeze := rfl
@[simp] theorem setReg_arb (k off v : Nat) (s : Block) : (setReg k off v s).arb = s.arb := rfl
@[simp] theorem setReg_proof (k off v : Nat) (s : Block) : (setReg k off v s).proof = s.proof := rfl
@[simp] theorem setReg_pair (k off v : Nat) (s : Block) : (setReg k off v s).pair = s.pair := rfl
@[simp] theorem setReg_boot (k off v : Nat) (s : Block) : (setReg k off v s).boot = s.boot := rfl
@[simp] theorem setReg_mgmt (k off v : Nat) (s : Block) : (setReg k off v s).mgmt = s.mgmt := rfl
@[simp] theorem setReg_fuses (k off v : Nat) (s : Block) : (setReg k off v s).fuses = s.fuses := rfl
@[simp] theorem setReg_fuseBanks (k off v : Nat) (s : Block) : (setReg k off v s).fuseBanks = s.fuseBanks := rfl
@[simp] theorem setReg_phase (k off v : Nat) (s : Block) : (setReg k off v s).phase = s.phase := rfl
@[simp] theorem setReg_claimSeq (k off v : Nat) (s : Block) : (setReg k off v s).claimSeq = s.claimSeq := rfl
@[simp] theorem setReg_serial (k off v : Nat) (s : Block) : (setReg k off v s).serial = s.serial := rfl
@[simp] theorem setReg_ticks (k off v : Nat) (s : Block) : (setReg k off v s).ticks = s.ticks := rfl
@[simp] theorem setReg_time (k off v : Nat) (s : Block) : (setReg k off v s).time = s.time := rfl
@[simp] theorem setReg_work (k off v : Nat) (s : Block) : (setReg k off v s).work = s.work := rfl
@[simp] theorem setReg_out (k off v : Nat) (s : Block) : (setReg k off v s).out = s.out := rfl
@[simp] theorem setReg_tw (k off v : Nat) (s : Block) (t : TwinId) :
    tw (setReg k off v s) t = tw s t := by cases t <;> rfl

/-! ### setCmd -/

@[simp] theorem setCmd_tw0 (y : Bool) (n : Nat) (s : Block) : (setCmd y n s).tw0 = s.tw0 := rfl
@[simp] theorem setCmd_tw1 (y : Bool) (n : Nat) (s : Block) : (setCmd y n s).tw1 = s.tw1 := rfl
@[simp] theorem setCmd_ctxs (y : Bool) (n : Nat) (s : Block) : (setCmd y n s).ctxs = s.ctxs := rfl
@[simp] theorem setCmd_pages (y : Bool) (n : Nat) (s : Block) : (setCmd y n s).pages = s.pages := rfl
@[simp] theorem setCmd_engines (y : Bool) (n : Nat) (s : Block) : (setCmd y n s).engines = s.engines := rfl
@[simp] theorem setCmd_flushes (y : Bool) (n : Nat) (s : Block) : (setCmd y n s).flushes = s.flushes := rfl
@[simp] theorem setCmd_holds (y : Bool) (n : Nat) (s : Block) : (setCmd y n s).holds = s.holds := rfl
@[simp] theorem setCmd_sendEps (y : Bool) (n : Nat) (s : Block) : (setCmd y n s).sendEps = s.sendEps := rfl
@[simp] theorem setCmd_recvEps (y : Bool) (n : Nat) (s : Block) : (setCmd y n s).recvEps = s.recvEps := rfl
@[simp] theorem setCmd_heldWrites (y : Bool) (n : Nat) (s : Block) : (setCmd y n s).heldWrites = s.heldWrites := rfl
@[simp] theorem setCmd_heldSteps (y : Bool) (n : Nat) (s : Block) : (setCmd y n s).heldSteps = s.heldSteps := rfl
@[simp] theorem setCmd_fmt (y : Bool) (n : Nat) (s : Block) : (setCmd y n s).fmt = s.fmt := rfl
@[simp] theorem setCmd_freeze (y : Bool) (n : Nat) (s : Block) : (setCmd y n s).freeze = s.freeze := rfl
@[simp] theorem setCmd_arb (y : Bool) (n : Nat) (s : Block) : (setCmd y n s).arb = s.arb := rfl
@[simp] theorem setCmd_proof (y : Bool) (n : Nat) (s : Block) : (setCmd y n s).proof = s.proof := rfl
@[simp] theorem setCmd_pair (y : Bool) (n : Nat) (s : Block) : (setCmd y n s).pair = s.pair := rfl
@[simp] theorem setCmd_boot (y : Bool) (n : Nat) (s : Block) : (setCmd y n s).boot = s.boot := rfl
@[simp] theorem setCmd_fuses (y : Bool) (n : Nat) (s : Block) : (setCmd y n s).fuses = s.fuses := rfl
@[simp] theorem setCmd_fuseBanks (y : Bool) (n : Nat) (s : Block) : (setCmd y n s).fuseBanks = s.fuseBanks := rfl
@[simp] theorem setCmd_phase (y : Bool) (n : Nat) (s : Block) : (setCmd y n s).phase = s.phase := rfl
@[simp] theorem setCmd_claimSeq (y : Bool) (n : Nat) (s : Block) : (setCmd y n s).claimSeq = s.claimSeq := rfl
@[simp] theorem setCmd_serial (y : Bool) (n : Nat) (s : Block) : (setCmd y n s).serial = s.serial := rfl
@[simp] theorem setCmd_ticks (y : Bool) (n : Nat) (s : Block) : (setCmd y n s).ticks = s.ticks := rfl
@[simp] theorem setCmd_time (y : Bool) (n : Nat) (s : Block) : (setCmd y n s).time = s.time := rfl
@[simp] theorem setCmd_work (y : Bool) (n : Nat) (s : Block) : (setCmd y n s).work = s.work := rfl
@[simp] theorem setCmd_out (y : Bool) (n : Nat) (s : Block) : (setCmd y n s).out = s.out := rfl
@[simp] theorem setCmd_tw (y : Bool) (n : Nat) (s : Block) (t : TwinId) :
    tw (setCmd y n s) t = tw s t := by cases t <;> rfl

/-! ### upProof -/

@[simp] theorem upProof_tw0 (f : Proofer → Proofer) (s : Block) : (upProof f s).tw0 = s.tw0 := rfl
@[simp] theorem upProof_tw1 (f : Proofer → Proofer) (s : Block) : (upProof f s).tw1 = s.tw1 := rfl
@[simp] theorem upProof_ctxs (f : Proofer → Proofer) (s : Block) : (upProof f s).ctxs = s.ctxs := rfl
@[simp] theorem upProof_pages (f : Proofer → Proofer) (s : Block) : (upProof f s).pages = s.pages := rfl
@[simp] theorem upProof_engines (f : Proofer → Proofer) (s : Block) : (upProof f s).engines = s.engines := rfl
@[simp] theorem upProof_flushes (f : Proofer → Proofer) (s : Block) : (upProof f s).flushes = s.flushes := rfl
@[simp] theorem upProof_holds (f : Proofer → Proofer) (s : Block) : (upProof f s).holds = s.holds := rfl
@[simp] theorem upProof_sendEps (f : Proofer → Proofer) (s : Block) : (upProof f s).sendEps = s.sendEps := rfl
@[simp] theorem upProof_recvEps (f : Proofer → Proofer) (s : Block) : (upProof f s).recvEps = s.recvEps := rfl
@[simp] theorem upProof_heldWrites (f : Proofer → Proofer) (s : Block) : (upProof f s).heldWrites = s.heldWrites := rfl
@[simp] theorem upProof_heldSteps (f : Proofer → Proofer) (s : Block) : (upProof f s).heldSteps = s.heldSteps := rfl
@[simp] theorem upProof_fmt (f : Proofer → Proofer) (s : Block) : (upProof f s).fmt = s.fmt := rfl
@[simp] theorem upProof_freeze (f : Proofer → Proofer) (s : Block) : (upProof f s).freeze = s.freeze := rfl
@[simp] theorem upProof_arb (f : Proofer → Proofer) (s : Block) : (upProof f s).arb = s.arb := rfl
@[simp] theorem upProof_pair (f : Proofer → Proofer) (s : Block) : (upProof f s).pair = s.pair := rfl
@[simp] theorem upProof_boot (f : Proofer → Proofer) (s : Block) : (upProof f s).boot = s.boot := rfl
@[simp] theorem upProof_mgmt (f : Proofer → Proofer) (s : Block) : (upProof f s).mgmt = s.mgmt := rfl
@[simp] theorem upProof_fuses (f : Proofer → Proofer) (s : Block) : (upProof f s).fuses = s.fuses := rfl
@[simp] theorem upProof_fuseBanks (f : Proofer → Proofer) (s : Block) : (upProof f s).fuseBanks = s.fuseBanks := rfl
@[simp] theorem upProof_phase (f : Proofer → Proofer) (s : Block) : (upProof f s).phase = s.phase := rfl
@[simp] theorem upProof_claimSeq (f : Proofer → Proofer) (s : Block) : (upProof f s).claimSeq = s.claimSeq := rfl
@[simp] theorem upProof_serial (f : Proofer → Proofer) (s : Block) : (upProof f s).serial = s.serial := rfl
@[simp] theorem upProof_ticks (f : Proofer → Proofer) (s : Block) : (upProof f s).ticks = s.ticks := rfl
@[simp] theorem upProof_time (f : Proofer → Proofer) (s : Block) : (upProof f s).time = s.time := rfl
@[simp] theorem upProof_work (f : Proofer → Proofer) (s : Block) : (upProof f s).work = s.work := rfl
@[simp] theorem upProof_out (f : Proofer → Proofer) (s : Block) : (upProof f s).out = s.out := rfl
@[simp] theorem upProof_tw (f : Proofer → Proofer) (s : Block) (t : TwinId) :
    tw (upProof f s) t = tw s t := by cases t <;> rfl

/-! ### upDom -/

@[simp] theorem upDom_tw0 (d : Nat) (f : Dom → Dom) (s : Block) : (upDom d f s).tw0 = s.tw0 := rfl
@[simp] theorem upDom_tw1 (d : Nat) (f : Dom → Dom) (s : Block) : (upDom d f s).tw1 = s.tw1 := rfl
@[simp] theorem upDom_ctxs (d : Nat) (f : Dom → Dom) (s : Block) : (upDom d f s).ctxs = s.ctxs := rfl
@[simp] theorem upDom_pages (d : Nat) (f : Dom → Dom) (s : Block) : (upDom d f s).pages = s.pages := rfl
@[simp] theorem upDom_engines (d : Nat) (f : Dom → Dom) (s : Block) : (upDom d f s).engines = s.engines := rfl
@[simp] theorem upDom_flushes (d : Nat) (f : Dom → Dom) (s : Block) : (upDom d f s).flushes = s.flushes := rfl
@[simp] theorem upDom_holds (d : Nat) (f : Dom → Dom) (s : Block) : (upDom d f s).holds = s.holds := rfl
@[simp] theorem upDom_sendEps (d : Nat) (f : Dom → Dom) (s : Block) : (upDom d f s).sendEps = s.sendEps := rfl
@[simp] theorem upDom_recvEps (d : Nat) (f : Dom → Dom) (s : Block) : (upDom d f s).recvEps = s.recvEps := rfl
@[simp] theorem upDom_heldWrites (d : Nat) (f : Dom → Dom) (s : Block) : (upDom d f s).heldWrites = s.heldWrites := rfl
@[simp] theorem upDom_heldSteps (d : Nat) (f : Dom → Dom) (s : Block) : (upDom d f s).heldSteps = s.heldSteps := rfl
@[simp] theorem upDom_fmt (d : Nat) (f : Dom → Dom) (s : Block) : (upDom d f s).fmt = s.fmt := rfl
@[simp] theorem upDom_freeze (d : Nat) (f : Dom → Dom) (s : Block) : (upDom d f s).freeze = s.freeze := rfl
@[simp] theorem upDom_arb (d : Nat) (f : Dom → Dom) (s : Block) : (upDom d f s).arb = s.arb := rfl
@[simp] theorem upDom_pair (d : Nat) (f : Dom → Dom) (s : Block) : (upDom d f s).pair = s.pair := rfl
@[simp] theorem upDom_boot (d : Nat) (f : Dom → Dom) (s : Block) : (upDom d f s).boot = s.boot := rfl
@[simp] theorem upDom_mgmt (d : Nat) (f : Dom → Dom) (s : Block) : (upDom d f s).mgmt = s.mgmt := rfl
@[simp] theorem upDom_fuses (d : Nat) (f : Dom → Dom) (s : Block) : (upDom d f s).fuses = s.fuses := rfl
@[simp] theorem upDom_fuseBanks (d : Nat) (f : Dom → Dom) (s : Block) : (upDom d f s).fuseBanks = s.fuseBanks := rfl
@[simp] theorem upDom_phase (d : Nat) (f : Dom → Dom) (s : Block) : (upDom d f s).phase = s.phase := rfl
@[simp] theorem upDom_claimSeq (d : Nat) (f : Dom → Dom) (s : Block) : (upDom d f s).claimSeq = s.claimSeq := rfl
@[simp] theorem upDom_serial (d : Nat) (f : Dom → Dom) (s : Block) : (upDom d f s).serial = s.serial := rfl
@[simp] theorem upDom_ticks (d : Nat) (f : Dom → Dom) (s : Block) : (upDom d f s).ticks = s.ticks := rfl
@[simp] theorem upDom_time (d : Nat) (f : Dom → Dom) (s : Block) : (upDom d f s).time = s.time := rfl
@[simp] theorem upDom_work (d : Nat) (f : Dom → Dom) (s : Block) : (upDom d f s).work = s.work := rfl
@[simp] theorem upDom_out (d : Nat) (f : Dom → Dom) (s : Block) : (upDom d f s).out = s.out := rfl
@[simp] theorem upDom_tw (d : Nat) (f : Dom → Dom) (s : Block) (t : TwinId) :
    tw (upDom d f s) t = tw s t := by cases t <;> rfl

/-! ### upCore -/

@[simp] theorem upCore_tw0 (c : Nat) (f : Core → Core) (s : Block) : (upCore c f s).tw0 = s.tw0 := rfl
@[simp] theorem upCore_tw1 (c : Nat) (f : Core → Core) (s : Block) : (upCore c f s).tw1 = s.tw1 := rfl
@[simp] theorem upCore_ctxs (c : Nat) (f : Core → Core) (s : Block) : (upCore c f s).ctxs = s.ctxs := rfl
@[simp] theorem upCore_pages (c : Nat) (f : Core → Core) (s : Block) : (upCore c f s).pages = s.pages := rfl
@[simp] theorem upCore_engines (c : Nat) (f : Core → Core) (s : Block) : (upCore c f s).engines = s.engines := rfl
@[simp] theorem upCore_flushes (c : Nat) (f : Core → Core) (s : Block) : (upCore c f s).flushes = s.flushes := rfl
@[simp] theorem upCore_holds (c : Nat) (f : Core → Core) (s : Block) : (upCore c f s).holds = s.holds := rfl
@[simp] theorem upCore_sendEps (c : Nat) (f : Core → Core) (s : Block) : (upCore c f s).sendEps = s.sendEps := rfl
@[simp] theorem upCore_recvEps (c : Nat) (f : Core → Core) (s : Block) : (upCore c f s).recvEps = s.recvEps := rfl
@[simp] theorem upCore_heldWrites (c : Nat) (f : Core → Core) (s : Block) : (upCore c f s).heldWrites = s.heldWrites := rfl
@[simp] theorem upCore_heldSteps (c : Nat) (f : Core → Core) (s : Block) : (upCore c f s).heldSteps = s.heldSteps := rfl
@[simp] theorem upCore_fmt (c : Nat) (f : Core → Core) (s : Block) : (upCore c f s).fmt = s.fmt := rfl
@[simp] theorem upCore_freeze (c : Nat) (f : Core → Core) (s : Block) : (upCore c f s).freeze = s.freeze := rfl
@[simp] theorem upCore_proof (c : Nat) (f : Core → Core) (s : Block) : (upCore c f s).proof = s.proof := rfl
@[simp] theorem upCore_pair (c : Nat) (f : Core → Core) (s : Block) : (upCore c f s).pair = s.pair := rfl
@[simp] theorem upCore_boot (c : Nat) (f : Core → Core) (s : Block) : (upCore c f s).boot = s.boot := rfl
@[simp] theorem upCore_mgmt (c : Nat) (f : Core → Core) (s : Block) : (upCore c f s).mgmt = s.mgmt := rfl
@[simp] theorem upCore_fuses (c : Nat) (f : Core → Core) (s : Block) : (upCore c f s).fuses = s.fuses := rfl
@[simp] theorem upCore_fuseBanks (c : Nat) (f : Core → Core) (s : Block) : (upCore c f s).fuseBanks = s.fuseBanks := rfl
@[simp] theorem upCore_phase (c : Nat) (f : Core → Core) (s : Block) : (upCore c f s).phase = s.phase := rfl
@[simp] theorem upCore_claimSeq (c : Nat) (f : Core → Core) (s : Block) : (upCore c f s).claimSeq = s.claimSeq := rfl
@[simp] theorem upCore_serial (c : Nat) (f : Core → Core) (s : Block) : (upCore c f s).serial = s.serial := rfl
@[simp] theorem upCore_ticks (c : Nat) (f : Core → Core) (s : Block) : (upCore c f s).ticks = s.ticks := rfl
@[simp] theorem upCore_time (c : Nat) (f : Core → Core) (s : Block) : (upCore c f s).time = s.time := rfl
@[simp] theorem upCore_work (c : Nat) (f : Core → Core) (s : Block) : (upCore c f s).work = s.work := rfl
@[simp] theorem upCore_out (c : Nat) (f : Core → Core) (s : Block) : (upCore c f s).out = s.out := rfl
@[simp] theorem upCore_tw (c : Nat) (f : Core → Core) (s : Block) (t : TwinId) :
    tw (upCore c f s) t = tw s t := by cases t <;> rfl

/-! ### upPair -/

@[simp] theorem upPair_tw0 (f : PairSt → PairSt) (s : Block) : (upPair f s).tw0 = s.tw0 := rfl
@[simp] theorem upPair_tw1 (f : PairSt → PairSt) (s : Block) : (upPair f s).tw1 = s.tw1 := rfl
@[simp] theorem upPair_ctxs (f : PairSt → PairSt) (s : Block) : (upPair f s).ctxs = s.ctxs := rfl
@[simp] theorem upPair_pages (f : PairSt → PairSt) (s : Block) : (upPair f s).pages = s.pages := rfl
@[simp] theorem upPair_engines (f : PairSt → PairSt) (s : Block) : (upPair f s).engines = s.engines := rfl
@[simp] theorem upPair_flushes (f : PairSt → PairSt) (s : Block) : (upPair f s).flushes = s.flushes := rfl
@[simp] theorem upPair_holds (f : PairSt → PairSt) (s : Block) : (upPair f s).holds = s.holds := rfl
@[simp] theorem upPair_sendEps (f : PairSt → PairSt) (s : Block) : (upPair f s).sendEps = s.sendEps := rfl
@[simp] theorem upPair_recvEps (f : PairSt → PairSt) (s : Block) : (upPair f s).recvEps = s.recvEps := rfl
@[simp] theorem upPair_heldWrites (f : PairSt → PairSt) (s : Block) : (upPair f s).heldWrites = s.heldWrites := rfl
@[simp] theorem upPair_heldSteps (f : PairSt → PairSt) (s : Block) : (upPair f s).heldSteps = s.heldSteps := rfl
@[simp] theorem upPair_fmt (f : PairSt → PairSt) (s : Block) : (upPair f s).fmt = s.fmt := rfl
@[simp] theorem upPair_freeze (f : PairSt → PairSt) (s : Block) : (upPair f s).freeze = s.freeze := rfl
@[simp] theorem upPair_arb (f : PairSt → PairSt) (s : Block) : (upPair f s).arb = s.arb := rfl
@[simp] theorem upPair_proof (f : PairSt → PairSt) (s : Block) : (upPair f s).proof = s.proof := rfl
@[simp] theorem upPair_boot (f : PairSt → PairSt) (s : Block) : (upPair f s).boot = s.boot := rfl
@[simp] theorem upPair_mgmt (f : PairSt → PairSt) (s : Block) : (upPair f s).mgmt = s.mgmt := rfl
@[simp] theorem upPair_fuses (f : PairSt → PairSt) (s : Block) : (upPair f s).fuses = s.fuses := rfl
@[simp] theorem upPair_fuseBanks (f : PairSt → PairSt) (s : Block) : (upPair f s).fuseBanks = s.fuseBanks := rfl
@[simp] theorem upPair_phase (f : PairSt → PairSt) (s : Block) : (upPair f s).phase = s.phase := rfl
@[simp] theorem upPair_claimSeq (f : PairSt → PairSt) (s : Block) : (upPair f s).claimSeq = s.claimSeq := rfl
@[simp] theorem upPair_serial (f : PairSt → PairSt) (s : Block) : (upPair f s).serial = s.serial := rfl
@[simp] theorem upPair_ticks (f : PairSt → PairSt) (s : Block) : (upPair f s).ticks = s.ticks := rfl
@[simp] theorem upPair_time (f : PairSt → PairSt) (s : Block) : (upPair f s).time = s.time := rfl
@[simp] theorem upPair_work (f : PairSt → PairSt) (s : Block) : (upPair f s).work = s.work := rfl
@[simp] theorem upPair_out (f : PairSt → PairSt) (s : Block) : (upPair f s).out = s.out := rfl
@[simp] theorem upPair_tw (f : PairSt → PairSt) (s : Block) (t : TwinId) :
    tw (upPair f s) t = tw s t := by cases t <;> rfl

/-! ### setSend -/

@[simp] theorem setSend_tw0 (k : Nat) (e : SendEp) (s : Block) : (setSend k e s).tw0 = s.tw0 := rfl
@[simp] theorem setSend_tw1 (k : Nat) (e : SendEp) (s : Block) : (setSend k e s).tw1 = s.tw1 := rfl
@[simp] theorem setSend_ctxs (k : Nat) (e : SendEp) (s : Block) : (setSend k e s).ctxs = s.ctxs := rfl
@[simp] theorem setSend_pages (k : Nat) (e : SendEp) (s : Block) : (setSend k e s).pages = s.pages := rfl
@[simp] theorem setSend_engines (k : Nat) (e : SendEp) (s : Block) : (setSend k e s).engines = s.engines := rfl
@[simp] theorem setSend_flushes (k : Nat) (e : SendEp) (s : Block) : (setSend k e s).flushes = s.flushes := rfl
@[simp] theorem setSend_holds (k : Nat) (e : SendEp) (s : Block) : (setSend k e s).holds = s.holds := rfl
@[simp] theorem setSend_recvEps (k : Nat) (e : SendEp) (s : Block) : (setSend k e s).recvEps = s.recvEps := rfl
@[simp] theorem setSend_heldWrites (k : Nat) (e : SendEp) (s : Block) : (setSend k e s).heldWrites = s.heldWrites := rfl
@[simp] theorem setSend_heldSteps (k : Nat) (e : SendEp) (s : Block) : (setSend k e s).heldSteps = s.heldSteps := rfl
@[simp] theorem setSend_fmt (k : Nat) (e : SendEp) (s : Block) : (setSend k e s).fmt = s.fmt := rfl
@[simp] theorem setSend_freeze (k : Nat) (e : SendEp) (s : Block) : (setSend k e s).freeze = s.freeze := rfl
@[simp] theorem setSend_arb (k : Nat) (e : SendEp) (s : Block) : (setSend k e s).arb = s.arb := rfl
@[simp] theorem setSend_proof (k : Nat) (e : SendEp) (s : Block) : (setSend k e s).proof = s.proof := rfl
@[simp] theorem setSend_pair (k : Nat) (e : SendEp) (s : Block) : (setSend k e s).pair = s.pair := rfl
@[simp] theorem setSend_boot (k : Nat) (e : SendEp) (s : Block) : (setSend k e s).boot = s.boot := rfl
@[simp] theorem setSend_mgmt (k : Nat) (e : SendEp) (s : Block) : (setSend k e s).mgmt = s.mgmt := rfl
@[simp] theorem setSend_fuses (k : Nat) (e : SendEp) (s : Block) : (setSend k e s).fuses = s.fuses := rfl
@[simp] theorem setSend_fuseBanks (k : Nat) (e : SendEp) (s : Block) : (setSend k e s).fuseBanks = s.fuseBanks := rfl
@[simp] theorem setSend_phase (k : Nat) (e : SendEp) (s : Block) : (setSend k e s).phase = s.phase := rfl
@[simp] theorem setSend_claimSeq (k : Nat) (e : SendEp) (s : Block) : (setSend k e s).claimSeq = s.claimSeq := rfl
@[simp] theorem setSend_serial (k : Nat) (e : SendEp) (s : Block) : (setSend k e s).serial = s.serial := rfl
@[simp] theorem setSend_ticks (k : Nat) (e : SendEp) (s : Block) : (setSend k e s).ticks = s.ticks := rfl
@[simp] theorem setSend_time (k : Nat) (e : SendEp) (s : Block) : (setSend k e s).time = s.time := rfl
@[simp] theorem setSend_work (k : Nat) (e : SendEp) (s : Block) : (setSend k e s).work = s.work := rfl
@[simp] theorem setSend_out (k : Nat) (e : SendEp) (s : Block) : (setSend k e s).out = s.out := rfl
@[simp] theorem setSend_tw (k : Nat) (e : SendEp) (s : Block) (t : TwinId) :
    tw (setSend k e s) t = tw s t := by cases t <;> rfl

/-! ### setRecv -/

@[simp] theorem setRecv_tw0 (k : Nat) (e : RecvEp) (s : Block) : (setRecv k e s).tw0 = s.tw0 := rfl
@[simp] theorem setRecv_tw1 (k : Nat) (e : RecvEp) (s : Block) : (setRecv k e s).tw1 = s.tw1 := rfl
@[simp] theorem setRecv_ctxs (k : Nat) (e : RecvEp) (s : Block) : (setRecv k e s).ctxs = s.ctxs := rfl
@[simp] theorem setRecv_pages (k : Nat) (e : RecvEp) (s : Block) : (setRecv k e s).pages = s.pages := rfl
@[simp] theorem setRecv_engines (k : Nat) (e : RecvEp) (s : Block) : (setRecv k e s).engines = s.engines := rfl
@[simp] theorem setRecv_flushes (k : Nat) (e : RecvEp) (s : Block) : (setRecv k e s).flushes = s.flushes := rfl
@[simp] theorem setRecv_holds (k : Nat) (e : RecvEp) (s : Block) : (setRecv k e s).holds = s.holds := rfl
@[simp] theorem setRecv_sendEps (k : Nat) (e : RecvEp) (s : Block) : (setRecv k e s).sendEps = s.sendEps := rfl
@[simp] theorem setRecv_fmt (k : Nat) (e : RecvEp) (s : Block) : (setRecv k e s).fmt = s.fmt := rfl
@[simp] theorem setRecv_freeze (k : Nat) (e : RecvEp) (s : Block) : (setRecv k e s).freeze = s.freeze := rfl
@[simp] theorem setRecv_arb (k : Nat) (e : RecvEp) (s : Block) : (setRecv k e s).arb = s.arb := rfl
@[simp] theorem setRecv_proof (k : Nat) (e : RecvEp) (s : Block) : (setRecv k e s).proof = s.proof := rfl
@[simp] theorem setRecv_pair (k : Nat) (e : RecvEp) (s : Block) : (setRecv k e s).pair = s.pair := rfl
@[simp] theorem setRecv_boot (k : Nat) (e : RecvEp) (s : Block) : (setRecv k e s).boot = s.boot := rfl
@[simp] theorem setRecv_mgmt (k : Nat) (e : RecvEp) (s : Block) : (setRecv k e s).mgmt = s.mgmt := rfl
@[simp] theorem setRecv_fuses (k : Nat) (e : RecvEp) (s : Block) : (setRecv k e s).fuses = s.fuses := rfl
@[simp] theorem setRecv_fuseBanks (k : Nat) (e : RecvEp) (s : Block) : (setRecv k e s).fuseBanks = s.fuseBanks := rfl
@[simp] theorem setRecv_phase (k : Nat) (e : RecvEp) (s : Block) : (setRecv k e s).phase = s.phase := rfl
@[simp] theorem setRecv_claimSeq (k : Nat) (e : RecvEp) (s : Block) : (setRecv k e s).claimSeq = s.claimSeq := rfl
@[simp] theorem setRecv_serial (k : Nat) (e : RecvEp) (s : Block) : (setRecv k e s).serial = s.serial := rfl
@[simp] theorem setRecv_ticks (k : Nat) (e : RecvEp) (s : Block) : (setRecv k e s).ticks = s.ticks := rfl
@[simp] theorem setRecv_time (k : Nat) (e : RecvEp) (s : Block) : (setRecv k e s).time = s.time := rfl
@[simp] theorem setRecv_work (k : Nat) (e : RecvEp) (s : Block) : (setRecv k e s).work = s.work := rfl
@[simp] theorem setRecv_out (k : Nat) (e : RecvEp) (s : Block) : (setRecv k e s).out = s.out := rfl
@[simp] theorem setRecv_tw (k : Nat) (e : RecvEp) (s : Block) (t : TwinId) :
    tw (setRecv k e s) t = tw s t := by cases t <;> rfl

/-! ### setHold -/

@[simp] theorem setHold_tw0 (g : Nat) (v : Bool) (s : Block) : (setHold g v s).tw0 = s.tw0 := rfl
@[simp] theorem setHold_tw1 (g : Nat) (v : Bool) (s : Block) : (setHold g v s).tw1 = s.tw1 := rfl
@[simp] theorem setHold_ctxs (g : Nat) (v : Bool) (s : Block) : (setHold g v s).ctxs = s.ctxs := rfl
@[simp] theorem setHold_pages (g : Nat) (v : Bool) (s : Block) : (setHold g v s).pages = s.pages := rfl
@[simp] theorem setHold_engines (g : Nat) (v : Bool) (s : Block) : (setHold g v s).engines = s.engines := rfl
@[simp] theorem setHold_flushes (g : Nat) (v : Bool) (s : Block) : (setHold g v s).flushes = s.flushes := rfl
@[simp] theorem setHold_sendEps (g : Nat) (v : Bool) (s : Block) : (setHold g v s).sendEps = s.sendEps := rfl
@[simp] theorem setHold_recvEps (g : Nat) (v : Bool) (s : Block) : (setHold g v s).recvEps = s.recvEps := rfl
@[simp] theorem setHold_heldWrites (g : Nat) (v : Bool) (s : Block) : (setHold g v s).heldWrites = s.heldWrites := rfl
@[simp] theorem setHold_heldSteps (g : Nat) (v : Bool) (s : Block) : (setHold g v s).heldSteps = s.heldSteps := rfl
@[simp] theorem setHold_fmt (g : Nat) (v : Bool) (s : Block) : (setHold g v s).fmt = s.fmt := rfl
@[simp] theorem setHold_freeze (g : Nat) (v : Bool) (s : Block) : (setHold g v s).freeze = s.freeze := rfl
@[simp] theorem setHold_arb (g : Nat) (v : Bool) (s : Block) : (setHold g v s).arb = s.arb := rfl
@[simp] theorem setHold_proof (g : Nat) (v : Bool) (s : Block) : (setHold g v s).proof = s.proof := rfl
@[simp] theorem setHold_pair (g : Nat) (v : Bool) (s : Block) : (setHold g v s).pair = s.pair := rfl
@[simp] theorem setHold_boot (g : Nat) (v : Bool) (s : Block) : (setHold g v s).boot = s.boot := rfl
@[simp] theorem setHold_mgmt (g : Nat) (v : Bool) (s : Block) : (setHold g v s).mgmt = s.mgmt := rfl
@[simp] theorem setHold_fuses (g : Nat) (v : Bool) (s : Block) : (setHold g v s).fuses = s.fuses := rfl
@[simp] theorem setHold_fuseBanks (g : Nat) (v : Bool) (s : Block) : (setHold g v s).fuseBanks = s.fuseBanks := rfl
@[simp] theorem setHold_phase (g : Nat) (v : Bool) (s : Block) : (setHold g v s).phase = s.phase := rfl
@[simp] theorem setHold_claimSeq (g : Nat) (v : Bool) (s : Block) : (setHold g v s).claimSeq = s.claimSeq := rfl
@[simp] theorem setHold_serial (g : Nat) (v : Bool) (s : Block) : (setHold g v s).serial = s.serial := rfl
@[simp] theorem setHold_ticks (g : Nat) (v : Bool) (s : Block) : (setHold g v s).ticks = s.ticks := rfl
@[simp] theorem setHold_time (g : Nat) (v : Bool) (s : Block) : (setHold g v s).time = s.time := rfl
@[simp] theorem setHold_work (g : Nat) (v : Bool) (s : Block) : (setHold g v s).work = s.work := rfl
@[simp] theorem setHold_out (g : Nat) (v : Bool) (s : Block) : (setHold g v s).out = s.out := rfl
@[simp] theorem setHold_tw (g : Nat) (v : Bool) (s : Block) (t : TwinId) :
    tw (setHold g v s) t = tw s t := by cases t <;> rfl

/-! ### upTw -/

@[simp] theorem upTw_ctxs (t : TwinId) (f : Twin → Twin) (s : Block) :
    (upTw t f s).ctxs = s.ctxs := by cases t <;> rfl
@[simp] theorem upTw_pages (t : TwinId) (f : Twin → Twin) (s : Block) :
    (upTw t f s).pages = s.pages := by cases t <;> rfl
@[simp] theorem upTw_engines (t : TwinId) (f : Twin → Twin) (s : Block) :
    (upTw t f s).engines = s.engines := by cases t <;> rfl
@[simp] theorem upTw_flushes (t : TwinId) (f : Twin → Twin) (s : Block) :
    (upTw t f s).flushes = s.flushes := by cases t <;> rfl
@[simp] theorem upTw_holds (t : TwinId) (f : Twin → Twin) (s : Block) :
    (upTw t f s).holds = s.holds := by cases t <;> rfl
@[simp] theorem upTw_sendEps (t : TwinId) (f : Twin → Twin) (s : Block) :
    (upTw t f s).sendEps = s.sendEps := by cases t <;> rfl
@[simp] theorem upTw_recvEps (t : TwinId) (f : Twin → Twin) (s : Block) :
    (upTw t f s).recvEps = s.recvEps := by cases t <;> rfl
@[simp] theorem upTw_heldWrites (t : TwinId) (f : Twin → Twin) (s : Block) :
    (upTw t f s).heldWrites = s.heldWrites := by cases t <;> rfl
@[simp] theorem upTw_heldSteps (t : TwinId) (f : Twin → Twin) (s : Block) :
    (upTw t f s).heldSteps = s.heldSteps := by cases t <;> rfl
@[simp] theorem upTw_fmt (t : TwinId) (f : Twin → Twin) (s : Block) : (upTw t f s).fmt = s.fmt := by cases t <;> rfl
@[simp] theorem upTw_freeze (t : TwinId) (f : Twin → Twin) (s : Block) :
    (upTw t f s).freeze = s.freeze := by cases t <;> rfl
@[simp] theorem upTw_arb (t : TwinId) (f : Twin → Twin) (s : Block) : (upTw t f s).arb = s.arb := by cases t <;> rfl
@[simp] theorem upTw_proof (t : TwinId) (f : Twin → Twin) (s : Block) :
    (upTw t f s).proof = s.proof := by cases t <;> rfl
@[simp] theorem upTw_pair (t : TwinId) (f : Twin → Twin) (s : Block) :
    (upTw t f s).pair = s.pair := by cases t <;> rfl
@[simp] theorem upTw_boot (t : TwinId) (f : Twin → Twin) (s : Block) :
    (upTw t f s).boot = s.boot := by cases t <;> rfl
@[simp] theorem upTw_mgmt (t : TwinId) (f : Twin → Twin) (s : Block) :
    (upTw t f s).mgmt = s.mgmt := by cases t <;> rfl
@[simp] theorem upTw_fuses (t : TwinId) (f : Twin → Twin) (s : Block) :
    (upTw t f s).fuses = s.fuses := by cases t <;> rfl
@[simp] theorem upTw_fuseBanks (t : TwinId) (f : Twin → Twin) (s : Block) :
    (upTw t f s).fuseBanks = s.fuseBanks := by cases t <;> rfl
@[simp] theorem upTw_phase (t : TwinId) (f : Twin → Twin) (s : Block) :
    (upTw t f s).phase = s.phase := by cases t <;> rfl
@[simp] theorem upTw_claimSeq (t : TwinId) (f : Twin → Twin) (s : Block) :
    (upTw t f s).claimSeq = s.claimSeq := by cases t <;> rfl
@[simp] theorem upTw_serial (t : TwinId) (f : Twin → Twin) (s : Block) :
    (upTw t f s).serial = s.serial := by cases t <;> rfl
@[simp] theorem upTw_ticks (t : TwinId) (f : Twin → Twin) (s : Block) :
    (upTw t f s).ticks = s.ticks := by cases t <;> rfl
@[simp] theorem upTw_time (t : TwinId) (f : Twin → Twin) (s : Block) :
    (upTw t f s).time = s.time := by cases t <;> rfl
@[simp] theorem upTw_work (t : TwinId) (f : Twin → Twin) (s : Block) :
    (upTw t f s).work = s.work := by cases t <;> rfl
@[simp] theorem upTw_out (t : TwinId) (f : Twin → Twin) (s : Block) : (upTw t f s).out = s.out := by cases t <;> rfl
@[simp] theorem tw_upTw_same (t : TwinId) (f : Twin → Twin) (s : Block) : tw (upTw t f s) t = f (tw s t) := by
  cases t <;> rfl
@[simp] theorem tw_upTw_partner (t : TwinId) (f : Twin → Twin) (s : Block) :
    tw (upTw t f s) (partner t) = tw s (partner t) := by cases t <;> rfl
@[simp] theorem tw_upTw_of_partner (t : TwinId) (f : Twin → Twin) (s : Block) :
    tw (upTw (partner t) f s) t = tw s t := by cases t <;> rfl
theorem tw_upTw (t u : TwinId) (f : Twin → Twin) (s : Block) :
    tw (upTw t f s) u = if u = t then f (tw s t) else tw s u := by cases t <;> cases u <;> rfl

/-! ### optEvent -/

@[simp] theorem optEvent_ctxs (t : TwinId) (code k : Nat) (c : Bool) (g : Option Nat) (n : Nat) (s : Block) :
    (optEvent t code k c g n s).ctxs = s.ctxs := by
  simp [optEvent]

@[simp] theorem optEvent_pages (t : TwinId) (code k : Nat) (c : Bool) (g : Option Nat) (n : Nat) (s : Block) :
    (optEvent t code k c g n s).pages = s.pages := by
  simp [optEvent]

@[simp] theorem optEvent_engines (t : TwinId) (code k : Nat) (c : Bool) (g : Option Nat) (n : Nat) (s : Block) :
    (optEvent t code k c g n s).engines = s.engines := by
  simp [optEvent]

@[simp] theorem optEvent_flushes (t : TwinId) (code k : Nat) (c : Bool) (g : Option Nat) (n : Nat) (s : Block) :
    (optEvent t code k c g n s).flushes = s.flushes := by
  simp [optEvent]

@[simp] theorem optEvent_holds (t : TwinId) (code k : Nat) (c : Bool) (g : Option Nat) (n : Nat) (s : Block) :
    (optEvent t code k c g n s).holds = s.holds := by
  simp [optEvent]

@[simp] theorem optEvent_sendEps (t : TwinId) (code k : Nat) (c : Bool) (g : Option Nat) (n : Nat) (s : Block) :
    (optEvent t code k c g n s).sendEps = s.sendEps := by
  simp [optEvent]

@[simp] theorem optEvent_recvEps (t : TwinId) (code k : Nat) (c : Bool) (g : Option Nat) (n : Nat) (s : Block) :
    (optEvent t code k c g n s).recvEps = s.recvEps := by
  simp [optEvent]

@[simp] theorem optEvent_heldWrites (t : TwinId) (code k : Nat) (c : Bool) (g : Option Nat) (n : Nat) (s : Block) :
    (optEvent t code k c g n s).heldWrites = s.heldWrites := by
  simp [optEvent]

@[simp] theorem optEvent_heldSteps (t : TwinId) (code k : Nat) (c : Bool) (g : Option Nat) (n : Nat) (s : Block) :
    (optEvent t code k c g n s).heldSteps = s.heldSteps := by
  simp [optEvent]

@[simp] theorem optEvent_fmt (t : TwinId) (code k : Nat) (c : Bool) (g : Option Nat) (n : Nat) (s : Block) :
    (optEvent t code k c g n s).fmt = s.fmt := by
  simp [optEvent]

@[simp] theorem optEvent_freeze (t : TwinId) (code k : Nat) (c : Bool) (g : Option Nat) (n : Nat) (s : Block) :
    (optEvent t code k c g n s).freeze = s.freeze := by
  simp [optEvent]

@[simp] theorem optEvent_arb (t : TwinId) (code k : Nat) (c : Bool) (g : Option Nat) (n : Nat) (s : Block) :
    (optEvent t code k c g n s).arb = s.arb := by
  simp [optEvent]

@[simp] theorem optEvent_proof (t : TwinId) (code k : Nat) (c : Bool) (g : Option Nat) (n : Nat) (s : Block) :
    (optEvent t code k c g n s).proof = s.proof := by
  simp [optEvent]

@[simp] theorem optEvent_pair (t : TwinId) (code k : Nat) (c : Bool) (g : Option Nat) (n : Nat) (s : Block) :
    (optEvent t code k c g n s).pair = s.pair := by
  simp [optEvent]

@[simp] theorem optEvent_boot (t : TwinId) (code k : Nat) (c : Bool) (g : Option Nat) (n : Nat) (s : Block) :
    (optEvent t code k c g n s).boot = s.boot := by
  simp [optEvent]

@[simp] theorem optEvent_mgmt (t : TwinId) (code k : Nat) (c : Bool) (g : Option Nat) (n : Nat) (s : Block) :
    (optEvent t code k c g n s).mgmt = s.mgmt := by
  simp [optEvent]

@[simp] theorem optEvent_fuses (t : TwinId) (code k : Nat) (c : Bool) (g : Option Nat) (n : Nat) (s : Block) :
    (optEvent t code k c g n s).fuses = s.fuses := by
  simp [optEvent]

@[simp] theorem optEvent_fuseBanks (t : TwinId) (code k : Nat) (c : Bool) (g : Option Nat) (n : Nat) (s : Block) :
    (optEvent t code k c g n s).fuseBanks = s.fuseBanks := by
  simp [optEvent]

@[simp] theorem optEvent_phase (t : TwinId) (code k : Nat) (c : Bool) (g : Option Nat) (n : Nat) (s : Block) :
    (optEvent t code k c g n s).phase = s.phase := by
  simp [optEvent]

@[simp] theorem optEvent_claimSeq (t : TwinId) (code k : Nat) (c : Bool) (g : Option Nat) (n : Nat) (s : Block) :
    (optEvent t code k c g n s).claimSeq = s.claimSeq := by
  simp [optEvent]

@[simp] theorem optEvent_serial (t : TwinId) (code k : Nat) (c : Bool) (g : Option Nat) (n : Nat) (s : Block) :
    (optEvent t code k c g n s).serial = s.serial := by
  simp [optEvent]

@[simp] theorem optEvent_ticks (t : TwinId) (code k : Nat) (c : Bool) (g : Option Nat) (n : Nat) (s : Block) :
    (optEvent t code k c g n s).ticks = s.ticks := by
  simp [optEvent]

@[simp] theorem optEvent_time (t : TwinId) (code k : Nat) (c : Bool) (g : Option Nat) (n : Nat) (s : Block) :
    (optEvent t code k c g n s).time = s.time := by
  simp [optEvent]

@[simp] theorem optEvent_work (t : TwinId) (code k : Nat) (c : Bool) (g : Option Nat) (n : Nat) (s : Block) :
    (optEvent t code k c g n s).work = s.work := by
  simp [optEvent]

@[simp] theorem optEvent_out (t : TwinId) (code k : Nat) (c : Bool) (g : Option Nat) (n : Nat) (s : Block) :
    (optEvent t code k c g n s).out = s.out := by
  simp [optEvent]

@[simp] theorem optEvent_tw_cat (t : TwinId) (code k : Nat) (c : Bool) (g : Option Nat) (n : Nat) (s : Block) (u : TwinId) :
    (tw (optEvent t code k c g n s) u).cat = (tw s u).cat := by
  cases t <;> cases u <;> rfl

@[simp] theorem optEvent_tw_acc (t : TwinId) (code k : Nat) (c : Bool) (g : Option Nat) (n : Nat) (s : Block) (u : TwinId) :
    (tw (optEvent t code k c g n s) u).acc = (tw s u).acc := by
  cases t <;> cases u <;> rfl

@[simp] theorem optEvent_tw_rack (t : TwinId) (code k : Nat) (c : Bool) (g : Option Nat) (n : Nat) (s : Block) (u : TwinId) :
    (tw (optEvent t code k c g n s) u).rack = (tw s u).rack := by
  cases t <;> cases u <;> rfl

@[simp] theorem optEvent_tw_desk (t : TwinId) (code k : Nat) (c : Bool) (g : Option Nat) (n : Nat) (s : Block) (u : TwinId) :
    (tw (optEvent t code k c g n s) u).desk = (tw s u).desk := by
  cases t <;> cases u <;> rfl

@[simp] theorem optEvent_tw_shelf (t : TwinId) (code k : Nat) (c : Bool) (g : Option Nat) (n : Nat) (s : Block) (u : TwinId) :
    (tw (optEvent t code k c g n s) u).shelf = (tw s u).shelf := by
  cases t <;> cases u <;> rfl

@[simp] theorem optEvent_tw_ret (t : TwinId) (code k : Nat) (c : Bool) (g : Option Nat) (n : Nat) (s : Block) (u : TwinId) :
    (tw (optEvent t code k c g n s) u).ret = (tw s u).ret := by
  cases t <;> cases u <;> rfl

@[simp] theorem optEvent_tw_lard (t : TwinId) (code k : Nat) (c : Bool) (g : Option Nat) (n : Nat) (s : Block) (u : TwinId) :
    (tw (optEvent t code k c g n s) u).lard = (tw s u).lard := by
  cases t <;> cases u <;> rfl

@[simp] theorem optEvent_tw_ctxs (t : TwinId) (code k : Nat) (c : Bool) (g : Option Nat) (n : Nat) (s : Block) (u : TwinId) :
    (tw (optEvent t code k c g n s) u).ctxs = (tw s u).ctxs := by
  cases t <;> cases u <;> rfl

@[simp] theorem optEvent_tw_sort (t : TwinId) (code k : Nat) (c : Bool) (g : Option Nat) (n : Nat) (s : Block) (u : TwinId) :
    (tw (optEvent t code k c g n s) u).sort = (tw s u).sort := by
  cases t <;> cases u <;> rfl

@[simp] theorem optEvent_tw_bank (t : TwinId) (code k : Nat) (c : Bool) (g : Option Nat) (n : Nat) (s : Block) (u : TwinId) :
    (tw (optEvent t code k c g n s) u).bank = (tw s u).bank := by
  cases t <;> cases u <;> rfl

@[simp] theorem optEvent_tw_office (t : TwinId) (code k : Nat) (c : Bool) (g : Option Nat) (n : Nat) (s : Block) (u : TwinId) :
    (tw (optEvent t code k c g n s) u).office = (tw s u).office := by
  cases t <;> cases u <;> rfl

@[simp] theorem optEvent_tw_bake (t : TwinId) (code k : Nat) (c : Bool) (g : Option Nat) (n : Nat) (s : Block) (u : TwinId) :
    (tw (optEvent t code k c g n s) u).bake = (tw s u).bake := by
  cases t <;> cases u <;> rfl

@[simp] theorem optEvent_tw_thrd (t : TwinId) (code k : Nat) (c : Bool) (g : Option Nat) (n : Nat) (s : Block) (u : TwinId) :
    (tw (optEvent t code k c g n s) u).thrd = (tw s u).thrd := by
  cases t <;> cases u <;> rfl

@[simp] theorem optEvent_tw_rel (t : TwinId) (code k : Nat) (c : Bool) (g : Option Nat) (n : Nat) (s : Block) (u : TwinId) :
    (tw (optEvent t code k c g n s) u).rel = (tw s u).rel := by
  cases t <;> cases u <;> rfl

@[simp] theorem optEvent_tw_faultQ (t : TwinId) (code k : Nat) (c : Bool) (g : Option Nat) (n : Nat) (s : Block) (u : TwinId) :
    (tw (optEvent t code k c g n s) u).faultQ = (tw s u).faultQ := by
  cases t <;> cases u <;> rfl

@[simp] theorem optEvent_tw_combined (t : TwinId) (code k : Nat) (c : Bool) (g : Option Nat) (n : Nat) (s : Block) (u : TwinId) :
    (tw (optEvent t code k c g n s) u).combined = (tw s u).combined := by
  cases t <;> cases u <;> rfl

@[simp] theorem optEvent_tw_crossing (t : TwinId) (code k : Nat) (c : Bool) (g : Option Nat) (n : Nat) (s : Block) (u : TwinId) :
    (tw (optEvent t code k c g n s) u).crossing = (tw s u).crossing := by
  cases t <;> cases u <;> rfl

@[simp] theorem optEvent_tw_edgeIn (t : TwinId) (code k : Nat) (c : Bool) (g : Option Nat) (n : Nat) (s : Block) (u : TwinId) :
    (tw (optEvent t code k c g n s) u).edgeIn = (tw s u).edgeIn := by
  cases t <;> cases u <;> rfl

@[simp] theorem optEvent_tw_claimIn (t : TwinId) (code k : Nat) (c : Bool) (g : Option Nat) (n : Nat) (s : Block) (u : TwinId) :
    (tw (optEvent t code k c g n s) u).claimIn = (tw s u).claimIn := by
  cases t <;> cases u <;> rfl

@[simp] theorem optEvent_tw_ctrlIn (t : TwinId) (code k : Nat) (c : Bool) (g : Option Nat) (n : Nat) (s : Block) (u : TwinId) :
    (tw (optEvent t code k c g n s) u).ctrlIn = (tw s u).ctrlIn := by
  cases t <;> cases u <;> rfl

@[simp] theorem optEvent_tw_svc (t : TwinId) (code k : Nat) (c : Bool) (g : Option Nat) (n : Nat) (s : Block) (u : TwinId) :
    (tw (optEvent t code k c g n s) u).svc = (tw s u).svc := by
  cases t <;> cases u <;> rfl

@[simp] theorem optEvent_tw_halted (t : TwinId) (code k : Nat) (c : Bool) (g : Option Nat) (n : Nat) (s : Block) (u : TwinId) :
    (tw (optEvent t code k c g n s) u).halted = (tw s u).halted := by
  cases t <;> cases u <;> rfl

/-! ### upObs -/

@[simp] theorem upObs_ctxs (t : TwinId) (f : Obs → Obs) (s : Block) :
    (upObs t f s).ctxs = s.ctxs := by
  cases t <;> rfl

@[simp] theorem upObs_engines (t : TwinId) (f : Obs → Obs) (s : Block) :
    (upObs t f s).engines = s.engines := by
  cases t <;> rfl

@[simp] theorem upObs_flushes (t : TwinId) (f : Obs → Obs) (s : Block) :
    (upObs t f s).flushes = s.flushes := by
  cases t <;> rfl

@[simp] theorem upObs_holds (t : TwinId) (f : Obs → Obs) (s : Block) :
    (upObs t f s).holds = s.holds := by
  cases t <;> rfl

@[simp] theorem upObs_sendEps (t : TwinId) (f : Obs → Obs) (s : Block) :
    (upObs t f s).sendEps = s.sendEps := by
  cases t <;> rfl

@[simp] theorem upObs_recvEps (t : TwinId) (f : Obs → Obs) (s : Block) :
    (upObs t f s).recvEps = s.recvEps := by
  cases t <;> rfl

@[simp] theorem upObs_heldWrites (t : TwinId) (f : Obs → Obs) (s : Block) :
    (upObs t f s).heldWrites = s.heldWrites := by
  cases t <;> rfl

@[simp] theorem upObs_heldSteps (t : TwinId) (f : Obs → Obs) (s : Block) :
    (upObs t f s).heldSteps = s.heldSteps := by
  cases t <;> rfl

@[simp] theorem upObs_fmt (t : TwinId) (f : Obs → Obs) (s : Block) :
    (upObs t f s).fmt = s.fmt := by
  cases t <;> rfl

@[simp] theorem upObs_freeze (t : TwinId) (f : Obs → Obs) (s : Block) :
    (upObs t f s).freeze = s.freeze := by
  cases t <;> rfl

@[simp] theorem upObs_arb (t : TwinId) (f : Obs → Obs) (s : Block) :
    (upObs t f s).arb = s.arb := by
  cases t <;> rfl

@[simp] theorem upObs_proof (t : TwinId) (f : Obs → Obs) (s : Block) :
    (upObs t f s).proof = s.proof := by
  cases t <;> rfl

@[simp] theorem upObs_pair (t : TwinId) (f : Obs → Obs) (s : Block) :
    (upObs t f s).pair = s.pair := by
  cases t <;> rfl

@[simp] theorem upObs_boot (t : TwinId) (f : Obs → Obs) (s : Block) :
    (upObs t f s).boot = s.boot := by
  cases t <;> rfl

@[simp] theorem upObs_mgmt (t : TwinId) (f : Obs → Obs) (s : Block) :
    (upObs t f s).mgmt = s.mgmt := by
  cases t <;> rfl

@[simp] theorem upObs_fuses (t : TwinId) (f : Obs → Obs) (s : Block) :
    (upObs t f s).fuses = s.fuses := by
  cases t <;> rfl

@[simp] theorem upObs_fuseBanks (t : TwinId) (f : Obs → Obs) (s : Block) :
    (upObs t f s).fuseBanks = s.fuseBanks := by
  cases t <;> rfl

@[simp] theorem upObs_phase (t : TwinId) (f : Obs → Obs) (s : Block) :
    (upObs t f s).phase = s.phase := by
  cases t <;> rfl

@[simp] theorem upObs_claimSeq (t : TwinId) (f : Obs → Obs) (s : Block) :
    (upObs t f s).claimSeq = s.claimSeq := by
  cases t <;> rfl

@[simp] theorem upObs_serial (t : TwinId) (f : Obs → Obs) (s : Block) :
    (upObs t f s).serial = s.serial := by
  cases t <;> rfl

@[simp] theorem upObs_ticks (t : TwinId) (f : Obs → Obs) (s : Block) :
    (upObs t f s).ticks = s.ticks := by
  cases t <;> rfl

@[simp] theorem upObs_time (t : TwinId) (f : Obs → Obs) (s : Block) :
    (upObs t f s).time = s.time := by
  cases t <;> rfl

@[simp] theorem upObs_work (t : TwinId) (f : Obs → Obs) (s : Block) :
    (upObs t f s).work = s.work := by
  cases t <;> rfl

@[simp] theorem upObs_pages (t : TwinId) (f : Obs → Obs) (s : Block) :
    (upObs t f s).pages = s.pages := by
  cases t <;> rfl

@[simp] theorem upObs_out (t : TwinId) (f : Obs → Obs) (s : Block) :
    (upObs t f s).out = s.out := by
  cases t <;> rfl

@[simp] theorem upObs_tw_cat (t : TwinId) (f : Obs → Obs) (s : Block) (u : TwinId) :
    (tw (upObs t f s) u).cat = (tw s u).cat := by
  cases t <;> cases u <;> rfl

@[simp] theorem upObs_tw_acc (t : TwinId) (f : Obs → Obs) (s : Block) (u : TwinId) :
    (tw (upObs t f s) u).acc = (tw s u).acc := by
  cases t <;> cases u <;> rfl

@[simp] theorem upObs_tw_rack (t : TwinId) (f : Obs → Obs) (s : Block) (u : TwinId) :
    (tw (upObs t f s) u).rack = (tw s u).rack := by
  cases t <;> cases u <;> rfl

@[simp] theorem upObs_tw_desk (t : TwinId) (f : Obs → Obs) (s : Block) (u : TwinId) :
    (tw (upObs t f s) u).desk = (tw s u).desk := by
  cases t <;> cases u <;> rfl

@[simp] theorem upObs_tw_shelf (t : TwinId) (f : Obs → Obs) (s : Block) (u : TwinId) :
    (tw (upObs t f s) u).shelf = (tw s u).shelf := by
  cases t <;> cases u <;> rfl

@[simp] theorem upObs_tw_ret (t : TwinId) (f : Obs → Obs) (s : Block) (u : TwinId) :
    (tw (upObs t f s) u).ret = (tw s u).ret := by
  cases t <;> cases u <;> rfl

@[simp] theorem upObs_tw_lard (t : TwinId) (f : Obs → Obs) (s : Block) (u : TwinId) :
    (tw (upObs t f s) u).lard = (tw s u).lard := by
  cases t <;> cases u <;> rfl

@[simp] theorem upObs_tw_ctxs (t : TwinId) (f : Obs → Obs) (s : Block) (u : TwinId) :
    (tw (upObs t f s) u).ctxs = (tw s u).ctxs := by
  cases t <;> cases u <;> rfl

@[simp] theorem upObs_tw_sort (t : TwinId) (f : Obs → Obs) (s : Block) (u : TwinId) :
    (tw (upObs t f s) u).sort = (tw s u).sort := by
  cases t <;> cases u <;> rfl

@[simp] theorem upObs_tw_bank (t : TwinId) (f : Obs → Obs) (s : Block) (u : TwinId) :
    (tw (upObs t f s) u).bank = (tw s u).bank := by
  cases t <;> cases u <;> rfl

@[simp] theorem upObs_tw_office (t : TwinId) (f : Obs → Obs) (s : Block) (u : TwinId) :
    (tw (upObs t f s) u).office = (tw s u).office := by
  cases t <;> cases u <;> rfl

@[simp] theorem upObs_tw_bake (t : TwinId) (f : Obs → Obs) (s : Block) (u : TwinId) :
    (tw (upObs t f s) u).bake = (tw s u).bake := by
  cases t <;> cases u <;> rfl

@[simp] theorem upObs_tw_thrd (t : TwinId) (f : Obs → Obs) (s : Block) (u : TwinId) :
    (tw (upObs t f s) u).thrd = (tw s u).thrd := by
  cases t <;> cases u <;> rfl

@[simp] theorem upObs_tw_rel (t : TwinId) (f : Obs → Obs) (s : Block) (u : TwinId) :
    (tw (upObs t f s) u).rel = (tw s u).rel := by
  cases t <;> cases u <;> rfl

@[simp] theorem upObs_tw_faultQ (t : TwinId) (f : Obs → Obs) (s : Block) (u : TwinId) :
    (tw (upObs t f s) u).faultQ = (tw s u).faultQ := by
  cases t <;> cases u <;> rfl

@[simp] theorem upObs_tw_combined (t : TwinId) (f : Obs → Obs) (s : Block) (u : TwinId) :
    (tw (upObs t f s) u).combined = (tw s u).combined := by
  cases t <;> cases u <;> rfl

@[simp] theorem upObs_tw_crossing (t : TwinId) (f : Obs → Obs) (s : Block) (u : TwinId) :
    (tw (upObs t f s) u).crossing = (tw s u).crossing := by
  cases t <;> cases u <;> rfl

@[simp] theorem upObs_tw_edgeIn (t : TwinId) (f : Obs → Obs) (s : Block) (u : TwinId) :
    (tw (upObs t f s) u).edgeIn = (tw s u).edgeIn := by
  cases t <;> cases u <;> rfl

@[simp] theorem upObs_tw_claimIn (t : TwinId) (f : Obs → Obs) (s : Block) (u : TwinId) :
    (tw (upObs t f s) u).claimIn = (tw s u).claimIn := by
  cases t <;> cases u <;> rfl

@[simp] theorem upObs_tw_ctrlIn (t : TwinId) (f : Obs → Obs) (s : Block) (u : TwinId) :
    (tw (upObs t f s) u).ctrlIn = (tw s u).ctrlIn := by
  cases t <;> cases u <;> rfl

@[simp] theorem upObs_tw_svc (t : TwinId) (f : Obs → Obs) (s : Block) (u : TwinId) :
    (tw (upObs t f s) u).svc = (tw s u).svc := by
  cases t <;> cases u <;> rfl

@[simp] theorem upObs_tw_halted (t : TwinId) (f : Obs → Obs) (s : Block) (u : TwinId) :
    (tw (upObs t f s) u).halted = (tw s u).halted := by
  cases t <;> cases u <;> rfl

@[simp] theorem upObs_obs (t : TwinId) (f : Obs → Obs) (s : Block) : (tw (upObs t f s) t).obs = f (tw s t).obs := by
  cases t <;> rfl

@[simp] theorem upObs_partner (t u : TwinId) (f : Obs → Obs) (s : Block) (h : u ≠ t) : (tw (upObs t f s) u).obs = (tw s u).obs := by
  cases t <;> cases u <;> first | rfl | contradiction

/-! ### upRet -/

@[simp] theorem upRet_ctxs (t : TwinId) (f : Ret → Ret) (s : Block) :
    (upRet t f s).ctxs = s.ctxs := by
  cases t <;> rfl

@[simp] theorem upRet_engines (t : TwinId) (f : Ret → Ret) (s : Block) :
    (upRet t f s).engines = s.engines := by
  cases t <;> rfl

@[simp] theorem upRet_flushes (t : TwinId) (f : Ret → Ret) (s : Block) :
    (upRet t f s).flushes = s.flushes := by
  cases t <;> rfl

@[simp] theorem upRet_holds (t : TwinId) (f : Ret → Ret) (s : Block) :
    (upRet t f s).holds = s.holds := by
  cases t <;> rfl

@[simp] theorem upRet_sendEps (t : TwinId) (f : Ret → Ret) (s : Block) :
    (upRet t f s).sendEps = s.sendEps := by
  cases t <;> rfl

@[simp] theorem upRet_recvEps (t : TwinId) (f : Ret → Ret) (s : Block) :
    (upRet t f s).recvEps = s.recvEps := by
  cases t <;> rfl

@[simp] theorem upRet_heldWrites (t : TwinId) (f : Ret → Ret) (s : Block) :
    (upRet t f s).heldWrites = s.heldWrites := by
  cases t <;> rfl

@[simp] theorem upRet_heldSteps (t : TwinId) (f : Ret → Ret) (s : Block) :
    (upRet t f s).heldSteps = s.heldSteps := by
  cases t <;> rfl

@[simp] theorem upRet_fmt (t : TwinId) (f : Ret → Ret) (s : Block) :
    (upRet t f s).fmt = s.fmt := by
  cases t <;> rfl

@[simp] theorem upRet_freeze (t : TwinId) (f : Ret → Ret) (s : Block) :
    (upRet t f s).freeze = s.freeze := by
  cases t <;> rfl

@[simp] theorem upRet_arb (t : TwinId) (f : Ret → Ret) (s : Block) :
    (upRet t f s).arb = s.arb := by
  cases t <;> rfl

@[simp] theorem upRet_proof (t : TwinId) (f : Ret → Ret) (s : Block) :
    (upRet t f s).proof = s.proof := by
  cases t <;> rfl

@[simp] theorem upRet_pair (t : TwinId) (f : Ret → Ret) (s : Block) :
    (upRet t f s).pair = s.pair := by
  cases t <;> rfl

@[simp] theorem upRet_boot (t : TwinId) (f : Ret → Ret) (s : Block) :
    (upRet t f s).boot = s.boot := by
  cases t <;> rfl

@[simp] theorem upRet_mgmt (t : TwinId) (f : Ret → Ret) (s : Block) :
    (upRet t f s).mgmt = s.mgmt := by
  cases t <;> rfl

@[simp] theorem upRet_fuses (t : TwinId) (f : Ret → Ret) (s : Block) :
    (upRet t f s).fuses = s.fuses := by
  cases t <;> rfl

@[simp] theorem upRet_fuseBanks (t : TwinId) (f : Ret → Ret) (s : Block) :
    (upRet t f s).fuseBanks = s.fuseBanks := by
  cases t <;> rfl

@[simp] theorem upRet_phase (t : TwinId) (f : Ret → Ret) (s : Block) :
    (upRet t f s).phase = s.phase := by
  cases t <;> rfl

@[simp] theorem upRet_claimSeq (t : TwinId) (f : Ret → Ret) (s : Block) :
    (upRet t f s).claimSeq = s.claimSeq := by
  cases t <;> rfl

@[simp] theorem upRet_serial (t : TwinId) (f : Ret → Ret) (s : Block) :
    (upRet t f s).serial = s.serial := by
  cases t <;> rfl

@[simp] theorem upRet_ticks (t : TwinId) (f : Ret → Ret) (s : Block) :
    (upRet t f s).ticks = s.ticks := by
  cases t <;> rfl

@[simp] theorem upRet_time (t : TwinId) (f : Ret → Ret) (s : Block) :
    (upRet t f s).time = s.time := by
  cases t <;> rfl

@[simp] theorem upRet_work (t : TwinId) (f : Ret → Ret) (s : Block) :
    (upRet t f s).work = s.work := by
  cases t <;> rfl

@[simp] theorem upRet_pages (t : TwinId) (f : Ret → Ret) (s : Block) :
    (upRet t f s).pages = s.pages := by
  cases t <;> rfl

@[simp] theorem upRet_out (t : TwinId) (f : Ret → Ret) (s : Block) :
    (upRet t f s).out = s.out := by
  cases t <;> rfl

@[simp] theorem upRet_tw_cat (t : TwinId) (f : Ret → Ret) (s : Block) (u : TwinId) :
    (tw (upRet t f s) u).cat = (tw s u).cat := by
  cases t <;> cases u <;> rfl

@[simp] theorem upRet_tw_acc (t : TwinId) (f : Ret → Ret) (s : Block) (u : TwinId) :
    (tw (upRet t f s) u).acc = (tw s u).acc := by
  cases t <;> cases u <;> rfl

@[simp] theorem upRet_tw_rack (t : TwinId) (f : Ret → Ret) (s : Block) (u : TwinId) :
    (tw (upRet t f s) u).rack = (tw s u).rack := by
  cases t <;> cases u <;> rfl

@[simp] theorem upRet_tw_desk (t : TwinId) (f : Ret → Ret) (s : Block) (u : TwinId) :
    (tw (upRet t f s) u).desk = (tw s u).desk := by
  cases t <;> cases u <;> rfl

@[simp] theorem upRet_tw_shelf (t : TwinId) (f : Ret → Ret) (s : Block) (u : TwinId) :
    (tw (upRet t f s) u).shelf = (tw s u).shelf := by
  cases t <;> cases u <;> rfl

@[simp] theorem upRet_tw_obs (t : TwinId) (f : Ret → Ret) (s : Block) (u : TwinId) :
    (tw (upRet t f s) u).obs = (tw s u).obs := by
  cases t <;> cases u <;> rfl

@[simp] theorem upRet_tw_lard (t : TwinId) (f : Ret → Ret) (s : Block) (u : TwinId) :
    (tw (upRet t f s) u).lard = (tw s u).lard := by
  cases t <;> cases u <;> rfl

@[simp] theorem upRet_tw_ctxs (t : TwinId) (f : Ret → Ret) (s : Block) (u : TwinId) :
    (tw (upRet t f s) u).ctxs = (tw s u).ctxs := by
  cases t <;> cases u <;> rfl

@[simp] theorem upRet_tw_sort (t : TwinId) (f : Ret → Ret) (s : Block) (u : TwinId) :
    (tw (upRet t f s) u).sort = (tw s u).sort := by
  cases t <;> cases u <;> rfl

@[simp] theorem upRet_tw_bank (t : TwinId) (f : Ret → Ret) (s : Block) (u : TwinId) :
    (tw (upRet t f s) u).bank = (tw s u).bank := by
  cases t <;> cases u <;> rfl

@[simp] theorem upRet_tw_office (t : TwinId) (f : Ret → Ret) (s : Block) (u : TwinId) :
    (tw (upRet t f s) u).office = (tw s u).office := by
  cases t <;> cases u <;> rfl

@[simp] theorem upRet_tw_bake (t : TwinId) (f : Ret → Ret) (s : Block) (u : TwinId) :
    (tw (upRet t f s) u).bake = (tw s u).bake := by
  cases t <;> cases u <;> rfl

@[simp] theorem upRet_tw_thrd (t : TwinId) (f : Ret → Ret) (s : Block) (u : TwinId) :
    (tw (upRet t f s) u).thrd = (tw s u).thrd := by
  cases t <;> cases u <;> rfl

@[simp] theorem upRet_tw_rel (t : TwinId) (f : Ret → Ret) (s : Block) (u : TwinId) :
    (tw (upRet t f s) u).rel = (tw s u).rel := by
  cases t <;> cases u <;> rfl

@[simp] theorem upRet_tw_faultQ (t : TwinId) (f : Ret → Ret) (s : Block) (u : TwinId) :
    (tw (upRet t f s) u).faultQ = (tw s u).faultQ := by
  cases t <;> cases u <;> rfl

@[simp] theorem upRet_tw_combined (t : TwinId) (f : Ret → Ret) (s : Block) (u : TwinId) :
    (tw (upRet t f s) u).combined = (tw s u).combined := by
  cases t <;> cases u <;> rfl

@[simp] theorem upRet_tw_crossing (t : TwinId) (f : Ret → Ret) (s : Block) (u : TwinId) :
    (tw (upRet t f s) u).crossing = (tw s u).crossing := by
  cases t <;> cases u <;> rfl

@[simp] theorem upRet_tw_edgeIn (t : TwinId) (f : Ret → Ret) (s : Block) (u : TwinId) :
    (tw (upRet t f s) u).edgeIn = (tw s u).edgeIn := by
  cases t <;> cases u <;> rfl

@[simp] theorem upRet_tw_claimIn (t : TwinId) (f : Ret → Ret) (s : Block) (u : TwinId) :
    (tw (upRet t f s) u).claimIn = (tw s u).claimIn := by
  cases t <;> cases u <;> rfl

@[simp] theorem upRet_tw_ctrlIn (t : TwinId) (f : Ret → Ret) (s : Block) (u : TwinId) :
    (tw (upRet t f s) u).ctrlIn = (tw s u).ctrlIn := by
  cases t <;> cases u <;> rfl

@[simp] theorem upRet_tw_svc (t : TwinId) (f : Ret → Ret) (s : Block) (u : TwinId) :
    (tw (upRet t f s) u).svc = (tw s u).svc := by
  cases t <;> cases u <;> rfl

@[simp] theorem upRet_tw_halted (t : TwinId) (f : Ret → Ret) (s : Block) (u : TwinId) :
    (tw (upRet t f s) u).halted = (tw s u).halted := by
  cases t <;> cases u <;> rfl

@[simp] theorem upRet_ret (t : TwinId) (f : Ret → Ret) (s : Block) : (tw (upRet t f s) t).ret = f (tw s t).ret := by
  cases t <;> rfl

@[simp] theorem upRet_partner (t u : TwinId) (f : Ret → Ret) (s : Block) (h : u ≠ t) : (tw (upRet t f s) u).ret = (tw s u).ret := by
  cases t <;> cases u <;> first | rfl | contradiction

/-! ### driveRing -/

@[simp] theorem driveRing_ctxs (t : TwinId) (s : Block) :
    (driveRing t s).ctxs = s.ctxs := by
  unfold driveRing; (try simp only [])
  (repeat' split) <;> first | rfl | simp

@[simp] theorem driveRing_engines (t : TwinId) (s : Block) :
    (driveRing t s).engines = s.engines := by
  unfold driveRing; (try simp only [])
  (repeat' split) <;> first | rfl | simp

@[simp] theorem driveRing_flushes (t : TwinId) (s : Block) :
    (driveRing t s).flushes = s.flushes := by
  unfold driveRing; (try simp only [])
  (repeat' split) <;> first | rfl | simp

@[simp] theorem driveRing_holds (t : TwinId) (s : Block) :
    (driveRing t s).holds = s.holds := by
  unfold driveRing; (try simp only [])
  (repeat' split) <;> first | rfl | simp

@[simp] theorem driveRing_sendEps (t : TwinId) (s : Block) :
    (driveRing t s).sendEps = s.sendEps := by
  unfold driveRing; (try simp only [])
  (repeat' split) <;> first | rfl | simp

@[simp] theorem driveRing_recvEps (t : TwinId) (s : Block) :
    (driveRing t s).recvEps = s.recvEps := by
  unfold driveRing; (try simp only [])
  (repeat' split) <;> first | rfl | simp

@[simp] theorem driveRing_heldWrites (t : TwinId) (s : Block) :
    (driveRing t s).heldWrites = s.heldWrites := by
  unfold driveRing; (try simp only [])
  (repeat' split) <;> first | rfl | simp

@[simp] theorem driveRing_heldSteps (t : TwinId) (s : Block) :
    (driveRing t s).heldSteps = s.heldSteps := by
  unfold driveRing; (try simp only [])
  (repeat' split) <;> first | rfl | simp

@[simp] theorem driveRing_fmt (t : TwinId) (s : Block) :
    (driveRing t s).fmt = s.fmt := by
  unfold driveRing; (try simp only [])
  (repeat' split) <;> first | rfl | simp

@[simp] theorem driveRing_freeze (t : TwinId) (s : Block) :
    (driveRing t s).freeze = s.freeze := by
  unfold driveRing; (try simp only [])
  (repeat' split) <;> first | rfl | simp

@[simp] theorem driveRing_arb (t : TwinId) (s : Block) :
    (driveRing t s).arb = s.arb := by
  unfold driveRing; (try simp only [])
  (repeat' split) <;> first | rfl | simp

@[simp] theorem driveRing_proof (t : TwinId) (s : Block) :
    (driveRing t s).proof = s.proof := by
  unfold driveRing; (try simp only [])
  (repeat' split) <;> first | rfl | simp

@[simp] theorem driveRing_pair (t : TwinId) (s : Block) :
    (driveRing t s).pair = s.pair := by
  unfold driveRing; (try simp only [])
  (repeat' split) <;> first | rfl | simp

@[simp] theorem driveRing_boot (t : TwinId) (s : Block) :
    (driveRing t s).boot = s.boot := by
  unfold driveRing; (try simp only [])
  (repeat' split) <;> first | rfl | simp

@[simp] theorem driveRing_mgmt (t : TwinId) (s : Block) :
    (driveRing t s).mgmt = s.mgmt := by
  unfold driveRing; (try simp only [])
  (repeat' split) <;> first | rfl | simp

@[simp] theorem driveRing_fuses (t : TwinId) (s : Block) :
    (driveRing t s).fuses = s.fuses := by
  unfold driveRing; (try simp only [])
  (repeat' split) <;> first | rfl | simp

@[simp] theorem driveRing_fuseBanks (t : TwinId) (s : Block) :
    (driveRing t s).fuseBanks = s.fuseBanks := by
  unfold driveRing; (try simp only [])
  (repeat' split) <;> first | rfl | simp

@[simp] theorem driveRing_phase (t : TwinId) (s : Block) :
    (driveRing t s).phase = s.phase := by
  unfold driveRing; (try simp only [])
  (repeat' split) <;> first | rfl | simp

@[simp] theorem driveRing_claimSeq (t : TwinId) (s : Block) :
    (driveRing t s).claimSeq = s.claimSeq := by
  unfold driveRing; (try simp only [])
  (repeat' split) <;> first | rfl | simp

@[simp] theorem driveRing_serial (t : TwinId) (s : Block) :
    (driveRing t s).serial = s.serial := by
  unfold driveRing; (try simp only [])
  (repeat' split) <;> first | rfl | simp

@[simp] theorem driveRing_ticks (t : TwinId) (s : Block) :
    (driveRing t s).ticks = s.ticks := by
  unfold driveRing; (try simp only [])
  (repeat' split) <;> first | rfl | simp

@[simp] theorem driveRing_time (t : TwinId) (s : Block) :
    (driveRing t s).time = s.time := by
  unfold driveRing; (try simp only [])
  (repeat' split) <;> first | rfl | simp

@[simp] theorem driveRing_work (t : TwinId) (s : Block) :
    (driveRing t s).work = s.work := by
  unfold driveRing; (try simp only [])
  (repeat' split) <;> first | rfl | simp

@[simp] theorem driveRing_tw_cat (t : TwinId) (s : Block) (u : TwinId) :
    (tw (driveRing t s) u).cat = (tw s u).cat := by
  unfold driveRing; (try simp only [])
  (repeat' split) <;> first | rfl | simp

@[simp] theorem driveRing_tw_acc (t : TwinId) (s : Block) (u : TwinId) :
    (tw (driveRing t s) u).acc = (tw s u).acc := by
  unfold driveRing; (try simp only [])
  (repeat' split) <;> first | rfl | simp

@[simp] theorem driveRing_tw_rack (t : TwinId) (s : Block) (u : TwinId) :
    (tw (driveRing t s) u).rack = (tw s u).rack := by
  unfold driveRing; (try simp only [])
  (repeat' split) <;> first | rfl | simp

@[simp] theorem driveRing_tw_desk (t : TwinId) (s : Block) (u : TwinId) :
    (tw (driveRing t s) u).desk = (tw s u).desk := by
  unfold driveRing; (try simp only [])
  (repeat' split) <;> first | rfl | simp

@[simp] theorem driveRing_tw_shelf (t : TwinId) (s : Block) (u : TwinId) :
    (tw (driveRing t s) u).shelf = (tw s u).shelf := by
  unfold driveRing; (try simp only [])
  (repeat' split) <;> first | rfl | simp

@[simp] theorem driveRing_tw_ret (t : TwinId) (s : Block) (u : TwinId) :
    (tw (driveRing t s) u).ret = (tw s u).ret := by
  unfold driveRing; (try simp only [])
  (repeat' split) <;> first | rfl | simp

@[simp] theorem driveRing_tw_lard (t : TwinId) (s : Block) (u : TwinId) :
    (tw (driveRing t s) u).lard = (tw s u).lard := by
  unfold driveRing; (try simp only [])
  (repeat' split) <;> first | rfl | simp

@[simp] theorem driveRing_tw_ctxs (t : TwinId) (s : Block) (u : TwinId) :
    (tw (driveRing t s) u).ctxs = (tw s u).ctxs := by
  unfold driveRing; (try simp only [])
  (repeat' split) <;> first | rfl | simp

@[simp] theorem driveRing_tw_sort (t : TwinId) (s : Block) (u : TwinId) :
    (tw (driveRing t s) u).sort = (tw s u).sort := by
  unfold driveRing; (try simp only [])
  (repeat' split) <;> first | rfl | simp

@[simp] theorem driveRing_tw_bank (t : TwinId) (s : Block) (u : TwinId) :
    (tw (driveRing t s) u).bank = (tw s u).bank := by
  unfold driveRing; (try simp only [])
  (repeat' split) <;> first | rfl | simp

@[simp] theorem driveRing_tw_office (t : TwinId) (s : Block) (u : TwinId) :
    (tw (driveRing t s) u).office = (tw s u).office := by
  unfold driveRing; (try simp only [])
  (repeat' split) <;> first | rfl | simp

@[simp] theorem driveRing_tw_bake (t : TwinId) (s : Block) (u : TwinId) :
    (tw (driveRing t s) u).bake = (tw s u).bake := by
  unfold driveRing; (try simp only [])
  (repeat' split) <;> first | rfl | simp

@[simp] theorem driveRing_tw_thrd (t : TwinId) (s : Block) (u : TwinId) :
    (tw (driveRing t s) u).thrd = (tw s u).thrd := by
  unfold driveRing; (try simp only [])
  (repeat' split) <;> first | rfl | simp

@[simp] theorem driveRing_tw_rel (t : TwinId) (s : Block) (u : TwinId) :
    (tw (driveRing t s) u).rel = (tw s u).rel := by
  unfold driveRing; (try simp only [])
  (repeat' split) <;> first | rfl | simp

@[simp] theorem driveRing_tw_faultQ (t : TwinId) (s : Block) (u : TwinId) :
    (tw (driveRing t s) u).faultQ = (tw s u).faultQ := by
  unfold driveRing; (try simp only [])
  (repeat' split) <;> first | rfl | simp

@[simp] theorem driveRing_tw_combined (t : TwinId) (s : Block) (u : TwinId) :
    (tw (driveRing t s) u).combined = (tw s u).combined := by
  unfold driveRing; (try simp only [])
  (repeat' split) <;> first | rfl | simp

@[simp] theorem driveRing_tw_crossing (t : TwinId) (s : Block) (u : TwinId) :
    (tw (driveRing t s) u).crossing = (tw s u).crossing := by
  unfold driveRing; (try simp only [])
  (repeat' split) <;> first | rfl | simp

@[simp] theorem driveRing_tw_edgeIn (t : TwinId) (s : Block) (u : TwinId) :
    (tw (driveRing t s) u).edgeIn = (tw s u).edgeIn := by
  unfold driveRing; (try simp only [])
  (repeat' split) <;> first | rfl | simp

@[simp] theorem driveRing_tw_claimIn (t : TwinId) (s : Block) (u : TwinId) :
    (tw (driveRing t s) u).claimIn = (tw s u).claimIn := by
  unfold driveRing; (try simp only [])
  (repeat' split) <;> first | rfl | simp

@[simp] theorem driveRing_tw_ctrlIn (t : TwinId) (s : Block) (u : TwinId) :
    (tw (driveRing t s) u).ctrlIn = (tw s u).ctrlIn := by
  unfold driveRing; (try simp only [])
  (repeat' split) <;> first | rfl | simp

@[simp] theorem driveRing_tw_svc (t : TwinId) (s : Block) (u : TwinId) :
    (tw (driveRing t s) u).svc = (tw s u).svc := by
  unfold driveRing; (try simp only [])
  (repeat' split) <;> first | rfl | simp

@[simp] theorem driveRing_tw_halted (t : TwinId) (s : Block) (u : TwinId) :
    (tw (driveRing t s) u).halted = (tw s u).halted := by
  unfold driveRing; (try simp only [])
  (repeat' split) <;> first | rfl | simp

/-! ### stageRec -/

@[simp] theorem stageRec_ctxs (t : TwinId) (r : TraceRec) (s : Block) :
    (stageRec t r s).ctxs = s.ctxs := by
  unfold stageRec; (try simp only [])
  (repeat' split) <;> first | rfl | simp

@[simp] theorem stageRec_engines (t : TwinId) (r : TraceRec) (s : Block) :
    (stageRec t r s).engines = s.engines := by
  unfold stageRec; (try simp only [])
  (repeat' split) <;> first | rfl | simp

@[simp] theorem stageRec_flushes (t : TwinId) (r : TraceRec) (s : Block) :
    (stageRec t r s).flushes = s.flushes := by
  unfold stageRec; (try simp only [])
  (repeat' split) <;> first | rfl | simp

@[simp] theorem stageRec_holds (t : TwinId) (r : TraceRec) (s : Block) :
    (stageRec t r s).holds = s.holds := by
  unfold stageRec; (try simp only [])
  (repeat' split) <;> first | rfl | simp

@[simp] theorem stageRec_sendEps (t : TwinId) (r : TraceRec) (s : Block) :
    (stageRec t r s).sendEps = s.sendEps := by
  unfold stageRec; (try simp only [])
  (repeat' split) <;> first | rfl | simp

@[simp] theorem stageRec_recvEps (t : TwinId) (r : TraceRec) (s : Block) :
    (stageRec t r s).recvEps = s.recvEps := by
  unfold stageRec; (try simp only [])
  (repeat' split) <;> first | rfl | simp

@[simp] theorem stageRec_heldWrites (t : TwinId) (r : TraceRec) (s : Block) :
    (stageRec t r s).heldWrites = s.heldWrites := by
  unfold stageRec; (try simp only [])
  (repeat' split) <;> first | rfl | simp

@[simp] theorem stageRec_heldSteps (t : TwinId) (r : TraceRec) (s : Block) :
    (stageRec t r s).heldSteps = s.heldSteps := by
  unfold stageRec; (try simp only [])
  (repeat' split) <;> first | rfl | simp

@[simp] theorem stageRec_fmt (t : TwinId) (r : TraceRec) (s : Block) :
    (stageRec t r s).fmt = s.fmt := by
  unfold stageRec; (try simp only [])
  (repeat' split) <;> first | rfl | simp

@[simp] theorem stageRec_freeze (t : TwinId) (r : TraceRec) (s : Block) :
    (stageRec t r s).freeze = s.freeze := by
  unfold stageRec; (try simp only [])
  (repeat' split) <;> first | rfl | simp

@[simp] theorem stageRec_arb (t : TwinId) (r : TraceRec) (s : Block) :
    (stageRec t r s).arb = s.arb := by
  unfold stageRec; (try simp only [])
  (repeat' split) <;> first | rfl | simp

@[simp] theorem stageRec_proof (t : TwinId) (r : TraceRec) (s : Block) :
    (stageRec t r s).proof = s.proof := by
  unfold stageRec; (try simp only [])
  (repeat' split) <;> first | rfl | simp

@[simp] theorem stageRec_pair (t : TwinId) (r : TraceRec) (s : Block) :
    (stageRec t r s).pair = s.pair := by
  unfold stageRec; (try simp only [])
  (repeat' split) <;> first | rfl | simp

@[simp] theorem stageRec_boot (t : TwinId) (r : TraceRec) (s : Block) :
    (stageRec t r s).boot = s.boot := by
  unfold stageRec; (try simp only [])
  (repeat' split) <;> first | rfl | simp

@[simp] theorem stageRec_mgmt (t : TwinId) (r : TraceRec) (s : Block) :
    (stageRec t r s).mgmt = s.mgmt := by
  unfold stageRec; (try simp only [])
  (repeat' split) <;> first | rfl | simp

@[simp] theorem stageRec_fuses (t : TwinId) (r : TraceRec) (s : Block) :
    (stageRec t r s).fuses = s.fuses := by
  unfold stageRec; (try simp only [])
  (repeat' split) <;> first | rfl | simp

@[simp] theorem stageRec_fuseBanks (t : TwinId) (r : TraceRec) (s : Block) :
    (stageRec t r s).fuseBanks = s.fuseBanks := by
  unfold stageRec; (try simp only [])
  (repeat' split) <;> first | rfl | simp

@[simp] theorem stageRec_phase (t : TwinId) (r : TraceRec) (s : Block) :
    (stageRec t r s).phase = s.phase := by
  unfold stageRec; (try simp only [])
  (repeat' split) <;> first | rfl | simp

@[simp] theorem stageRec_claimSeq (t : TwinId) (r : TraceRec) (s : Block) :
    (stageRec t r s).claimSeq = s.claimSeq := by
  unfold stageRec; (try simp only [])
  (repeat' split) <;> first | rfl | simp

@[simp] theorem stageRec_serial (t : TwinId) (r : TraceRec) (s : Block) :
    (stageRec t r s).serial = s.serial := by
  unfold stageRec; (try simp only [])
  (repeat' split) <;> first | rfl | simp

@[simp] theorem stageRec_ticks (t : TwinId) (r : TraceRec) (s : Block) :
    (stageRec t r s).ticks = s.ticks := by
  unfold stageRec; (try simp only [])
  (repeat' split) <;> first | rfl | simp

@[simp] theorem stageRec_time (t : TwinId) (r : TraceRec) (s : Block) :
    (stageRec t r s).time = s.time := by
  unfold stageRec; (try simp only [])
  (repeat' split) <;> first | rfl | simp

@[simp] theorem stageRec_work (t : TwinId) (r : TraceRec) (s : Block) :
    (stageRec t r s).work = s.work := by
  unfold stageRec; (try simp only [])
  (repeat' split) <;> first | rfl | simp

@[simp] theorem stageRec_tw_cat (t : TwinId) (r : TraceRec) (s : Block) (u : TwinId) :
    (tw (stageRec t r s) u).cat = (tw s u).cat := by
  unfold stageRec; (try simp only [])
  (repeat' split) <;> first | rfl | simp

@[simp] theorem stageRec_tw_acc (t : TwinId) (r : TraceRec) (s : Block) (u : TwinId) :
    (tw (stageRec t r s) u).acc = (tw s u).acc := by
  unfold stageRec; (try simp only [])
  (repeat' split) <;> first | rfl | simp

@[simp] theorem stageRec_tw_rack (t : TwinId) (r : TraceRec) (s : Block) (u : TwinId) :
    (tw (stageRec t r s) u).rack = (tw s u).rack := by
  unfold stageRec; (try simp only [])
  (repeat' split) <;> first | rfl | simp

@[simp] theorem stageRec_tw_desk (t : TwinId) (r : TraceRec) (s : Block) (u : TwinId) :
    (tw (stageRec t r s) u).desk = (tw s u).desk := by
  unfold stageRec; (try simp only [])
  (repeat' split) <;> first | rfl | simp

@[simp] theorem stageRec_tw_shelf (t : TwinId) (r : TraceRec) (s : Block) (u : TwinId) :
    (tw (stageRec t r s) u).shelf = (tw s u).shelf := by
  unfold stageRec; (try simp only [])
  (repeat' split) <;> first | rfl | simp

@[simp] theorem stageRec_tw_ret (t : TwinId) (r : TraceRec) (s : Block) (u : TwinId) :
    (tw (stageRec t r s) u).ret = (tw s u).ret := by
  unfold stageRec; (try simp only [])
  (repeat' split) <;> first | rfl | simp

@[simp] theorem stageRec_tw_lard (t : TwinId) (r : TraceRec) (s : Block) (u : TwinId) :
    (tw (stageRec t r s) u).lard = (tw s u).lard := by
  unfold stageRec; (try simp only [])
  (repeat' split) <;> first | rfl | simp

@[simp] theorem stageRec_tw_ctxs (t : TwinId) (r : TraceRec) (s : Block) (u : TwinId) :
    (tw (stageRec t r s) u).ctxs = (tw s u).ctxs := by
  unfold stageRec; (try simp only [])
  (repeat' split) <;> first | rfl | simp

@[simp] theorem stageRec_tw_sort (t : TwinId) (r : TraceRec) (s : Block) (u : TwinId) :
    (tw (stageRec t r s) u).sort = (tw s u).sort := by
  unfold stageRec; (try simp only [])
  (repeat' split) <;> first | rfl | simp

@[simp] theorem stageRec_tw_bank (t : TwinId) (r : TraceRec) (s : Block) (u : TwinId) :
    (tw (stageRec t r s) u).bank = (tw s u).bank := by
  unfold stageRec; (try simp only [])
  (repeat' split) <;> first | rfl | simp

@[simp] theorem stageRec_tw_office (t : TwinId) (r : TraceRec) (s : Block) (u : TwinId) :
    (tw (stageRec t r s) u).office = (tw s u).office := by
  unfold stageRec; (try simp only [])
  (repeat' split) <;> first | rfl | simp

@[simp] theorem stageRec_tw_bake (t : TwinId) (r : TraceRec) (s : Block) (u : TwinId) :
    (tw (stageRec t r s) u).bake = (tw s u).bake := by
  unfold stageRec; (try simp only [])
  (repeat' split) <;> first | rfl | simp

@[simp] theorem stageRec_tw_thrd (t : TwinId) (r : TraceRec) (s : Block) (u : TwinId) :
    (tw (stageRec t r s) u).thrd = (tw s u).thrd := by
  unfold stageRec; (try simp only [])
  (repeat' split) <;> first | rfl | simp

@[simp] theorem stageRec_tw_rel (t : TwinId) (r : TraceRec) (s : Block) (u : TwinId) :
    (tw (stageRec t r s) u).rel = (tw s u).rel := by
  unfold stageRec; (try simp only [])
  (repeat' split) <;> first | rfl | simp

@[simp] theorem stageRec_tw_faultQ (t : TwinId) (r : TraceRec) (s : Block) (u : TwinId) :
    (tw (stageRec t r s) u).faultQ = (tw s u).faultQ := by
  unfold stageRec; (try simp only [])
  (repeat' split) <;> first | rfl | simp

@[simp] theorem stageRec_tw_combined (t : TwinId) (r : TraceRec) (s : Block) (u : TwinId) :
    (tw (stageRec t r s) u).combined = (tw s u).combined := by
  unfold stageRec; (try simp only [])
  (repeat' split) <;> first | rfl | simp

@[simp] theorem stageRec_tw_crossing (t : TwinId) (r : TraceRec) (s : Block) (u : TwinId) :
    (tw (stageRec t r s) u).crossing = (tw s u).crossing := by
  unfold stageRec; (try simp only [])
  (repeat' split) <;> first | rfl | simp

@[simp] theorem stageRec_tw_edgeIn (t : TwinId) (r : TraceRec) (s : Block) (u : TwinId) :
    (tw (stageRec t r s) u).edgeIn = (tw s u).edgeIn := by
  unfold stageRec; (try simp only [])
  (repeat' split) <;> first | rfl | simp

@[simp] theorem stageRec_tw_claimIn (t : TwinId) (r : TraceRec) (s : Block) (u : TwinId) :
    (tw (stageRec t r s) u).claimIn = (tw s u).claimIn := by
  unfold stageRec; (try simp only [])
  (repeat' split) <;> first | rfl | simp

@[simp] theorem stageRec_tw_ctrlIn (t : TwinId) (r : TraceRec) (s : Block) (u : TwinId) :
    (tw (stageRec t r s) u).ctrlIn = (tw s u).ctrlIn := by
  unfold stageRec; (try simp only [])
  (repeat' split) <;> first | rfl | simp

@[simp] theorem stageRec_tw_svc (t : TwinId) (r : TraceRec) (s : Block) (u : TwinId) :
    (tw (stageRec t r s) u).svc = (tw s u).svc := by
  unfold stageRec; (try simp only [])
  (repeat' split) <;> first | rfl | simp

@[simp] theorem stageRec_tw_halted (t : TwinId) (r : TraceRec) (s : Block) (u : TwinId) :
    (tw (stageRec t r s) u).halted = (tw s u).halted := by
  unfold stageRec; (try simp only [])
  (repeat' split) <;> first | rfl | simp

/-! ### traceAt -/

@[simp] theorem traceAt_ctxs (time : Nat) (t : TwinId) (ty : Nat) (k : Option Nat) (node aux w2 hi3 : Nat) (s : Block) :
    (traceAt time t ty k node aux w2 hi3 s).ctxs = s.ctxs := by
  unfold traceAt; (try simp only [])
  (repeat' split) <;> first | rfl | simp

@[simp] theorem traceAt_engines (time : Nat) (t : TwinId) (ty : Nat) (k : Option Nat) (node aux w2 hi3 : Nat) (s : Block) :
    (traceAt time t ty k node aux w2 hi3 s).engines = s.engines := by
  unfold traceAt; (try simp only [])
  (repeat' split) <;> first | rfl | simp

@[simp] theorem traceAt_flushes (time : Nat) (t : TwinId) (ty : Nat) (k : Option Nat) (node aux w2 hi3 : Nat) (s : Block) :
    (traceAt time t ty k node aux w2 hi3 s).flushes = s.flushes := by
  unfold traceAt; (try simp only [])
  (repeat' split) <;> first | rfl | simp

@[simp] theorem traceAt_holds (time : Nat) (t : TwinId) (ty : Nat) (k : Option Nat) (node aux w2 hi3 : Nat) (s : Block) :
    (traceAt time t ty k node aux w2 hi3 s).holds = s.holds := by
  unfold traceAt; (try simp only [])
  (repeat' split) <;> first | rfl | simp

@[simp] theorem traceAt_sendEps (time : Nat) (t : TwinId) (ty : Nat) (k : Option Nat) (node aux w2 hi3 : Nat) (s : Block) :
    (traceAt time t ty k node aux w2 hi3 s).sendEps = s.sendEps := by
  unfold traceAt; (try simp only [])
  (repeat' split) <;> first | rfl | simp

@[simp] theorem traceAt_recvEps (time : Nat) (t : TwinId) (ty : Nat) (k : Option Nat) (node aux w2 hi3 : Nat) (s : Block) :
    (traceAt time t ty k node aux w2 hi3 s).recvEps = s.recvEps := by
  unfold traceAt; (try simp only [])
  (repeat' split) <;> first | rfl | simp

@[simp] theorem traceAt_heldWrites (time : Nat) (t : TwinId) (ty : Nat) (k : Option Nat) (node aux w2 hi3 : Nat) (s : Block) :
    (traceAt time t ty k node aux w2 hi3 s).heldWrites = s.heldWrites := by
  unfold traceAt; (try simp only [])
  (repeat' split) <;> first | rfl | simp

@[simp] theorem traceAt_heldSteps (time : Nat) (t : TwinId) (ty : Nat) (k : Option Nat) (node aux w2 hi3 : Nat) (s : Block) :
    (traceAt time t ty k node aux w2 hi3 s).heldSteps = s.heldSteps := by
  unfold traceAt; (try simp only [])
  (repeat' split) <;> first | rfl | simp

@[simp] theorem traceAt_fmt (time : Nat) (t : TwinId) (ty : Nat) (k : Option Nat) (node aux w2 hi3 : Nat) (s : Block) :
    (traceAt time t ty k node aux w2 hi3 s).fmt = s.fmt := by
  unfold traceAt; (try simp only [])
  (repeat' split) <;> first | rfl | simp

@[simp] theorem traceAt_freeze (time : Nat) (t : TwinId) (ty : Nat) (k : Option Nat) (node aux w2 hi3 : Nat) (s : Block) :
    (traceAt time t ty k node aux w2 hi3 s).freeze = s.freeze := by
  unfold traceAt; (try simp only [])
  (repeat' split) <;> first | rfl | simp

@[simp] theorem traceAt_arb (time : Nat) (t : TwinId) (ty : Nat) (k : Option Nat) (node aux w2 hi3 : Nat) (s : Block) :
    (traceAt time t ty k node aux w2 hi3 s).arb = s.arb := by
  unfold traceAt; (try simp only [])
  (repeat' split) <;> first | rfl | simp

@[simp] theorem traceAt_proof (time : Nat) (t : TwinId) (ty : Nat) (k : Option Nat) (node aux w2 hi3 : Nat) (s : Block) :
    (traceAt time t ty k node aux w2 hi3 s).proof = s.proof := by
  unfold traceAt; (try simp only [])
  (repeat' split) <;> first | rfl | simp

@[simp] theorem traceAt_pair (time : Nat) (t : TwinId) (ty : Nat) (k : Option Nat) (node aux w2 hi3 : Nat) (s : Block) :
    (traceAt time t ty k node aux w2 hi3 s).pair = s.pair := by
  unfold traceAt; (try simp only [])
  (repeat' split) <;> first | rfl | simp

@[simp] theorem traceAt_boot (time : Nat) (t : TwinId) (ty : Nat) (k : Option Nat) (node aux w2 hi3 : Nat) (s : Block) :
    (traceAt time t ty k node aux w2 hi3 s).boot = s.boot := by
  unfold traceAt; (try simp only [])
  (repeat' split) <;> first | rfl | simp

@[simp] theorem traceAt_mgmt (time : Nat) (t : TwinId) (ty : Nat) (k : Option Nat) (node aux w2 hi3 : Nat) (s : Block) :
    (traceAt time t ty k node aux w2 hi3 s).mgmt = s.mgmt := by
  unfold traceAt; (try simp only [])
  (repeat' split) <;> first | rfl | simp

@[simp] theorem traceAt_fuses (time : Nat) (t : TwinId) (ty : Nat) (k : Option Nat) (node aux w2 hi3 : Nat) (s : Block) :
    (traceAt time t ty k node aux w2 hi3 s).fuses = s.fuses := by
  unfold traceAt; (try simp only [])
  (repeat' split) <;> first | rfl | simp

@[simp] theorem traceAt_fuseBanks (time : Nat) (t : TwinId) (ty : Nat) (k : Option Nat) (node aux w2 hi3 : Nat) (s : Block) :
    (traceAt time t ty k node aux w2 hi3 s).fuseBanks = s.fuseBanks := by
  unfold traceAt; (try simp only [])
  (repeat' split) <;> first | rfl | simp

@[simp] theorem traceAt_phase (time : Nat) (t : TwinId) (ty : Nat) (k : Option Nat) (node aux w2 hi3 : Nat) (s : Block) :
    (traceAt time t ty k node aux w2 hi3 s).phase = s.phase := by
  unfold traceAt; (try simp only [])
  (repeat' split) <;> first | rfl | simp

@[simp] theorem traceAt_claimSeq (time : Nat) (t : TwinId) (ty : Nat) (k : Option Nat) (node aux w2 hi3 : Nat) (s : Block) :
    (traceAt time t ty k node aux w2 hi3 s).claimSeq = s.claimSeq := by
  unfold traceAt; (try simp only [])
  (repeat' split) <;> first | rfl | simp

@[simp] theorem traceAt_serial (time : Nat) (t : TwinId) (ty : Nat) (k : Option Nat) (node aux w2 hi3 : Nat) (s : Block) :
    (traceAt time t ty k node aux w2 hi3 s).serial = s.serial := by
  unfold traceAt; (try simp only [])
  (repeat' split) <;> first | rfl | simp

@[simp] theorem traceAt_ticks (time : Nat) (t : TwinId) (ty : Nat) (k : Option Nat) (node aux w2 hi3 : Nat) (s : Block) :
    (traceAt time t ty k node aux w2 hi3 s).ticks = s.ticks := by
  unfold traceAt; (try simp only [])
  (repeat' split) <;> first | rfl | simp

@[simp] theorem traceAt_time (time : Nat) (t : TwinId) (ty : Nat) (k : Option Nat) (node aux w2 hi3 : Nat) (s : Block) :
    (traceAt time t ty k node aux w2 hi3 s).time = s.time := by
  unfold traceAt; (try simp only [])
  (repeat' split) <;> first | rfl | simp

@[simp] theorem traceAt_work (time : Nat) (t : TwinId) (ty : Nat) (k : Option Nat) (node aux w2 hi3 : Nat) (s : Block) :
    (traceAt time t ty k node aux w2 hi3 s).work = s.work := by
  unfold traceAt; (try simp only [])
  (repeat' split) <;> first | rfl | simp

@[simp] theorem traceAt_tw_cat (time : Nat) (t : TwinId) (ty : Nat) (k : Option Nat) (node aux w2 hi3 : Nat) (s : Block) (u : TwinId) :
    (tw (traceAt time t ty k node aux w2 hi3 s) u).cat = (tw s u).cat := by
  unfold traceAt; (try simp only [])
  (repeat' split) <;> first | rfl | simp

@[simp] theorem traceAt_tw_acc (time : Nat) (t : TwinId) (ty : Nat) (k : Option Nat) (node aux w2 hi3 : Nat) (s : Block) (u : TwinId) :
    (tw (traceAt time t ty k node aux w2 hi3 s) u).acc = (tw s u).acc := by
  unfold traceAt; (try simp only [])
  (repeat' split) <;> first | rfl | simp

@[simp] theorem traceAt_tw_rack (time : Nat) (t : TwinId) (ty : Nat) (k : Option Nat) (node aux w2 hi3 : Nat) (s : Block) (u : TwinId) :
    (tw (traceAt time t ty k node aux w2 hi3 s) u).rack = (tw s u).rack := by
  unfold traceAt; (try simp only [])
  (repeat' split) <;> first | rfl | simp

@[simp] theorem traceAt_tw_desk (time : Nat) (t : TwinId) (ty : Nat) (k : Option Nat) (node aux w2 hi3 : Nat) (s : Block) (u : TwinId) :
    (tw (traceAt time t ty k node aux w2 hi3 s) u).desk = (tw s u).desk := by
  unfold traceAt; (try simp only [])
  (repeat' split) <;> first | rfl | simp

@[simp] theorem traceAt_tw_shelf (time : Nat) (t : TwinId) (ty : Nat) (k : Option Nat) (node aux w2 hi3 : Nat) (s : Block) (u : TwinId) :
    (tw (traceAt time t ty k node aux w2 hi3 s) u).shelf = (tw s u).shelf := by
  unfold traceAt; (try simp only [])
  (repeat' split) <;> first | rfl | simp

@[simp] theorem traceAt_tw_ret (time : Nat) (t : TwinId) (ty : Nat) (k : Option Nat) (node aux w2 hi3 : Nat) (s : Block) (u : TwinId) :
    (tw (traceAt time t ty k node aux w2 hi3 s) u).ret = (tw s u).ret := by
  unfold traceAt; (try simp only [])
  (repeat' split) <;> first | rfl | simp

@[simp] theorem traceAt_tw_lard (time : Nat) (t : TwinId) (ty : Nat) (k : Option Nat) (node aux w2 hi3 : Nat) (s : Block) (u : TwinId) :
    (tw (traceAt time t ty k node aux w2 hi3 s) u).lard = (tw s u).lard := by
  unfold traceAt; (try simp only [])
  (repeat' split) <;> first | rfl | simp

@[simp] theorem traceAt_tw_ctxs (time : Nat) (t : TwinId) (ty : Nat) (k : Option Nat) (node aux w2 hi3 : Nat) (s : Block) (u : TwinId) :
    (tw (traceAt time t ty k node aux w2 hi3 s) u).ctxs = (tw s u).ctxs := by
  unfold traceAt; (try simp only [])
  (repeat' split) <;> first | rfl | simp

@[simp] theorem traceAt_tw_sort (time : Nat) (t : TwinId) (ty : Nat) (k : Option Nat) (node aux w2 hi3 : Nat) (s : Block) (u : TwinId) :
    (tw (traceAt time t ty k node aux w2 hi3 s) u).sort = (tw s u).sort := by
  unfold traceAt; (try simp only [])
  (repeat' split) <;> first | rfl | simp

@[simp] theorem traceAt_tw_bank (time : Nat) (t : TwinId) (ty : Nat) (k : Option Nat) (node aux w2 hi3 : Nat) (s : Block) (u : TwinId) :
    (tw (traceAt time t ty k node aux w2 hi3 s) u).bank = (tw s u).bank := by
  unfold traceAt; (try simp only [])
  (repeat' split) <;> first | rfl | simp

@[simp] theorem traceAt_tw_office (time : Nat) (t : TwinId) (ty : Nat) (k : Option Nat) (node aux w2 hi3 : Nat) (s : Block) (u : TwinId) :
    (tw (traceAt time t ty k node aux w2 hi3 s) u).office = (tw s u).office := by
  unfold traceAt; (try simp only [])
  (repeat' split) <;> first | rfl | simp

@[simp] theorem traceAt_tw_bake (time : Nat) (t : TwinId) (ty : Nat) (k : Option Nat) (node aux w2 hi3 : Nat) (s : Block) (u : TwinId) :
    (tw (traceAt time t ty k node aux w2 hi3 s) u).bake = (tw s u).bake := by
  unfold traceAt; (try simp only [])
  (repeat' split) <;> first | rfl | simp

@[simp] theorem traceAt_tw_thrd (time : Nat) (t : TwinId) (ty : Nat) (k : Option Nat) (node aux w2 hi3 : Nat) (s : Block) (u : TwinId) :
    (tw (traceAt time t ty k node aux w2 hi3 s) u).thrd = (tw s u).thrd := by
  unfold traceAt; (try simp only [])
  (repeat' split) <;> first | rfl | simp

@[simp] theorem traceAt_tw_rel (time : Nat) (t : TwinId) (ty : Nat) (k : Option Nat) (node aux w2 hi3 : Nat) (s : Block) (u : TwinId) :
    (tw (traceAt time t ty k node aux w2 hi3 s) u).rel = (tw s u).rel := by
  unfold traceAt; (try simp only [])
  (repeat' split) <;> first | rfl | simp

@[simp] theorem traceAt_tw_faultQ (time : Nat) (t : TwinId) (ty : Nat) (k : Option Nat) (node aux w2 hi3 : Nat) (s : Block) (u : TwinId) :
    (tw (traceAt time t ty k node aux w2 hi3 s) u).faultQ = (tw s u).faultQ := by
  unfold traceAt; (try simp only [])
  (repeat' split) <;> first | rfl | simp

@[simp] theorem traceAt_tw_combined (time : Nat) (t : TwinId) (ty : Nat) (k : Option Nat) (node aux w2 hi3 : Nat) (s : Block) (u : TwinId) :
    (tw (traceAt time t ty k node aux w2 hi3 s) u).combined = (tw s u).combined := by
  unfold traceAt; (try simp only [])
  (repeat' split) <;> first | rfl | simp

@[simp] theorem traceAt_tw_crossing (time : Nat) (t : TwinId) (ty : Nat) (k : Option Nat) (node aux w2 hi3 : Nat) (s : Block) (u : TwinId) :
    (tw (traceAt time t ty k node aux w2 hi3 s) u).crossing = (tw s u).crossing := by
  unfold traceAt; (try simp only [])
  (repeat' split) <;> first | rfl | simp

@[simp] theorem traceAt_tw_edgeIn (time : Nat) (t : TwinId) (ty : Nat) (k : Option Nat) (node aux w2 hi3 : Nat) (s : Block) (u : TwinId) :
    (tw (traceAt time t ty k node aux w2 hi3 s) u).edgeIn = (tw s u).edgeIn := by
  unfold traceAt; (try simp only [])
  (repeat' split) <;> first | rfl | simp

@[simp] theorem traceAt_tw_claimIn (time : Nat) (t : TwinId) (ty : Nat) (k : Option Nat) (node aux w2 hi3 : Nat) (s : Block) (u : TwinId) :
    (tw (traceAt time t ty k node aux w2 hi3 s) u).claimIn = (tw s u).claimIn := by
  unfold traceAt; (try simp only [])
  (repeat' split) <;> first | rfl | simp

@[simp] theorem traceAt_tw_ctrlIn (time : Nat) (t : TwinId) (ty : Nat) (k : Option Nat) (node aux w2 hi3 : Nat) (s : Block) (u : TwinId) :
    (tw (traceAt time t ty k node aux w2 hi3 s) u).ctrlIn = (tw s u).ctrlIn := by
  unfold traceAt; (try simp only [])
  (repeat' split) <;> first | rfl | simp

@[simp] theorem traceAt_tw_svc (time : Nat) (t : TwinId) (ty : Nat) (k : Option Nat) (node aux w2 hi3 : Nat) (s : Block) (u : TwinId) :
    (tw (traceAt time t ty k node aux w2 hi3 s) u).svc = (tw s u).svc := by
  unfold traceAt; (try simp only [])
  (repeat' split) <;> first | rfl | simp

@[simp] theorem traceAt_tw_halted (time : Nat) (t : TwinId) (ty : Nat) (k : Option Nat) (node aux w2 hi3 : Nat) (s : Block) (u : TwinId) :
    (tw (traceAt time t ty k node aux w2 hi3 s) u).halted = (tw s u).halted := by
  unfold traceAt; (try simp only [])
  (repeat' split) <;> first | rfl | simp

/-! ### trace -/

@[simp] theorem trace_ctxs (t : TwinId) (ty : Nat) (k : Option Nat) (node aux w2 hi3 : Nat) (s : Block) :
    (trace t ty k node aux w2 hi3 s).ctxs = s.ctxs := by
  simp [trace]

@[simp] theorem trace_engines (t : TwinId) (ty : Nat) (k : Option Nat) (node aux w2 hi3 : Nat) (s : Block) :
    (trace t ty k node aux w2 hi3 s).engines = s.engines := by
  simp [trace]

@[simp] theorem trace_flushes (t : TwinId) (ty : Nat) (k : Option Nat) (node aux w2 hi3 : Nat) (s : Block) :
    (trace t ty k node aux w2 hi3 s).flushes = s.flushes := by
  simp [trace]

@[simp] theorem trace_holds (t : TwinId) (ty : Nat) (k : Option Nat) (node aux w2 hi3 : Nat) (s : Block) :
    (trace t ty k node aux w2 hi3 s).holds = s.holds := by
  simp [trace]

@[simp] theorem trace_sendEps (t : TwinId) (ty : Nat) (k : Option Nat) (node aux w2 hi3 : Nat) (s : Block) :
    (trace t ty k node aux w2 hi3 s).sendEps = s.sendEps := by
  simp [trace]

@[simp] theorem trace_recvEps (t : TwinId) (ty : Nat) (k : Option Nat) (node aux w2 hi3 : Nat) (s : Block) :
    (trace t ty k node aux w2 hi3 s).recvEps = s.recvEps := by
  simp [trace]

@[simp] theorem trace_heldWrites (t : TwinId) (ty : Nat) (k : Option Nat) (node aux w2 hi3 : Nat) (s : Block) :
    (trace t ty k node aux w2 hi3 s).heldWrites = s.heldWrites := by
  simp [trace]

@[simp] theorem trace_heldSteps (t : TwinId) (ty : Nat) (k : Option Nat) (node aux w2 hi3 : Nat) (s : Block) :
    (trace t ty k node aux w2 hi3 s).heldSteps = s.heldSteps := by
  simp [trace]

@[simp] theorem trace_fmt (t : TwinId) (ty : Nat) (k : Option Nat) (node aux w2 hi3 : Nat) (s : Block) :
    (trace t ty k node aux w2 hi3 s).fmt = s.fmt := by
  simp [trace]

@[simp] theorem trace_freeze (t : TwinId) (ty : Nat) (k : Option Nat) (node aux w2 hi3 : Nat) (s : Block) :
    (trace t ty k node aux w2 hi3 s).freeze = s.freeze := by
  simp [trace]

@[simp] theorem trace_arb (t : TwinId) (ty : Nat) (k : Option Nat) (node aux w2 hi3 : Nat) (s : Block) :
    (trace t ty k node aux w2 hi3 s).arb = s.arb := by
  simp [trace]

@[simp] theorem trace_proof (t : TwinId) (ty : Nat) (k : Option Nat) (node aux w2 hi3 : Nat) (s : Block) :
    (trace t ty k node aux w2 hi3 s).proof = s.proof := by
  simp [trace]

@[simp] theorem trace_pair (t : TwinId) (ty : Nat) (k : Option Nat) (node aux w2 hi3 : Nat) (s : Block) :
    (trace t ty k node aux w2 hi3 s).pair = s.pair := by
  simp [trace]

@[simp] theorem trace_boot (t : TwinId) (ty : Nat) (k : Option Nat) (node aux w2 hi3 : Nat) (s : Block) :
    (trace t ty k node aux w2 hi3 s).boot = s.boot := by
  simp [trace]

@[simp] theorem trace_mgmt (t : TwinId) (ty : Nat) (k : Option Nat) (node aux w2 hi3 : Nat) (s : Block) :
    (trace t ty k node aux w2 hi3 s).mgmt = s.mgmt := by
  simp [trace]

@[simp] theorem trace_fuses (t : TwinId) (ty : Nat) (k : Option Nat) (node aux w2 hi3 : Nat) (s : Block) :
    (trace t ty k node aux w2 hi3 s).fuses = s.fuses := by
  simp [trace]

@[simp] theorem trace_fuseBanks (t : TwinId) (ty : Nat) (k : Option Nat) (node aux w2 hi3 : Nat) (s : Block) :
    (trace t ty k node aux w2 hi3 s).fuseBanks = s.fuseBanks := by
  simp [trace]

@[simp] theorem trace_phase (t : TwinId) (ty : Nat) (k : Option Nat) (node aux w2 hi3 : Nat) (s : Block) :
    (trace t ty k node aux w2 hi3 s).phase = s.phase := by
  simp [trace]

@[simp] theorem trace_claimSeq (t : TwinId) (ty : Nat) (k : Option Nat) (node aux w2 hi3 : Nat) (s : Block) :
    (trace t ty k node aux w2 hi3 s).claimSeq = s.claimSeq := by
  simp [trace]

@[simp] theorem trace_serial (t : TwinId) (ty : Nat) (k : Option Nat) (node aux w2 hi3 : Nat) (s : Block) :
    (trace t ty k node aux w2 hi3 s).serial = s.serial := by
  simp [trace]

@[simp] theorem trace_ticks (t : TwinId) (ty : Nat) (k : Option Nat) (node aux w2 hi3 : Nat) (s : Block) :
    (trace t ty k node aux w2 hi3 s).ticks = s.ticks := by
  simp [trace]

@[simp] theorem trace_time (t : TwinId) (ty : Nat) (k : Option Nat) (node aux w2 hi3 : Nat) (s : Block) :
    (trace t ty k node aux w2 hi3 s).time = s.time := by
  simp [trace]

@[simp] theorem trace_work (t : TwinId) (ty : Nat) (k : Option Nat) (node aux w2 hi3 : Nat) (s : Block) :
    (trace t ty k node aux w2 hi3 s).work = s.work := by
  simp [trace]

@[simp] theorem trace_tw_cat (t : TwinId) (ty : Nat) (k : Option Nat) (node aux w2 hi3 : Nat) (s : Block) (u : TwinId) :
    (tw (trace t ty k node aux w2 hi3 s) u).cat = (tw s u).cat := by
  simp [trace]

@[simp] theorem trace_tw_acc (t : TwinId) (ty : Nat) (k : Option Nat) (node aux w2 hi3 : Nat) (s : Block) (u : TwinId) :
    (tw (trace t ty k node aux w2 hi3 s) u).acc = (tw s u).acc := by
  simp [trace]

@[simp] theorem trace_tw_rack (t : TwinId) (ty : Nat) (k : Option Nat) (node aux w2 hi3 : Nat) (s : Block) (u : TwinId) :
    (tw (trace t ty k node aux w2 hi3 s) u).rack = (tw s u).rack := by
  simp [trace]

@[simp] theorem trace_tw_desk (t : TwinId) (ty : Nat) (k : Option Nat) (node aux w2 hi3 : Nat) (s : Block) (u : TwinId) :
    (tw (trace t ty k node aux w2 hi3 s) u).desk = (tw s u).desk := by
  simp [trace]

@[simp] theorem trace_tw_shelf (t : TwinId) (ty : Nat) (k : Option Nat) (node aux w2 hi3 : Nat) (s : Block) (u : TwinId) :
    (tw (trace t ty k node aux w2 hi3 s) u).shelf = (tw s u).shelf := by
  simp [trace]

@[simp] theorem trace_tw_ret (t : TwinId) (ty : Nat) (k : Option Nat) (node aux w2 hi3 : Nat) (s : Block) (u : TwinId) :
    (tw (trace t ty k node aux w2 hi3 s) u).ret = (tw s u).ret := by
  simp [trace]

@[simp] theorem trace_tw_lard (t : TwinId) (ty : Nat) (k : Option Nat) (node aux w2 hi3 : Nat) (s : Block) (u : TwinId) :
    (tw (trace t ty k node aux w2 hi3 s) u).lard = (tw s u).lard := by
  simp [trace]

@[simp] theorem trace_tw_ctxs (t : TwinId) (ty : Nat) (k : Option Nat) (node aux w2 hi3 : Nat) (s : Block) (u : TwinId) :
    (tw (trace t ty k node aux w2 hi3 s) u).ctxs = (tw s u).ctxs := by
  simp [trace]

@[simp] theorem trace_tw_sort (t : TwinId) (ty : Nat) (k : Option Nat) (node aux w2 hi3 : Nat) (s : Block) (u : TwinId) :
    (tw (trace t ty k node aux w2 hi3 s) u).sort = (tw s u).sort := by
  simp [trace]

@[simp] theorem trace_tw_bank (t : TwinId) (ty : Nat) (k : Option Nat) (node aux w2 hi3 : Nat) (s : Block) (u : TwinId) :
    (tw (trace t ty k node aux w2 hi3 s) u).bank = (tw s u).bank := by
  simp [trace]

@[simp] theorem trace_tw_office (t : TwinId) (ty : Nat) (k : Option Nat) (node aux w2 hi3 : Nat) (s : Block) (u : TwinId) :
    (tw (trace t ty k node aux w2 hi3 s) u).office = (tw s u).office := by
  simp [trace]

@[simp] theorem trace_tw_bake (t : TwinId) (ty : Nat) (k : Option Nat) (node aux w2 hi3 : Nat) (s : Block) (u : TwinId) :
    (tw (trace t ty k node aux w2 hi3 s) u).bake = (tw s u).bake := by
  simp [trace]

@[simp] theorem trace_tw_thrd (t : TwinId) (ty : Nat) (k : Option Nat) (node aux w2 hi3 : Nat) (s : Block) (u : TwinId) :
    (tw (trace t ty k node aux w2 hi3 s) u).thrd = (tw s u).thrd := by
  simp [trace]

@[simp] theorem trace_tw_rel (t : TwinId) (ty : Nat) (k : Option Nat) (node aux w2 hi3 : Nat) (s : Block) (u : TwinId) :
    (tw (trace t ty k node aux w2 hi3 s) u).rel = (tw s u).rel := by
  simp [trace]

@[simp] theorem trace_tw_faultQ (t : TwinId) (ty : Nat) (k : Option Nat) (node aux w2 hi3 : Nat) (s : Block) (u : TwinId) :
    (tw (trace t ty k node aux w2 hi3 s) u).faultQ = (tw s u).faultQ := by
  simp [trace]

@[simp] theorem trace_tw_combined (t : TwinId) (ty : Nat) (k : Option Nat) (node aux w2 hi3 : Nat) (s : Block) (u : TwinId) :
    (tw (trace t ty k node aux w2 hi3 s) u).combined = (tw s u).combined := by
  simp [trace]

@[simp] theorem trace_tw_crossing (t : TwinId) (ty : Nat) (k : Option Nat) (node aux w2 hi3 : Nat) (s : Block) (u : TwinId) :
    (tw (trace t ty k node aux w2 hi3 s) u).crossing = (tw s u).crossing := by
  simp [trace]

@[simp] theorem trace_tw_edgeIn (t : TwinId) (ty : Nat) (k : Option Nat) (node aux w2 hi3 : Nat) (s : Block) (u : TwinId) :
    (tw (trace t ty k node aux w2 hi3 s) u).edgeIn = (tw s u).edgeIn := by
  simp [trace]

@[simp] theorem trace_tw_claimIn (t : TwinId) (ty : Nat) (k : Option Nat) (node aux w2 hi3 : Nat) (s : Block) (u : TwinId) :
    (tw (trace t ty k node aux w2 hi3 s) u).claimIn = (tw s u).claimIn := by
  simp [trace]

@[simp] theorem trace_tw_ctrlIn (t : TwinId) (ty : Nat) (k : Option Nat) (node aux w2 hi3 : Nat) (s : Block) (u : TwinId) :
    (tw (trace t ty k node aux w2 hi3 s) u).ctrlIn = (tw s u).ctrlIn := by
  simp [trace]

@[simp] theorem trace_tw_svc (t : TwinId) (ty : Nat) (k : Option Nat) (node aux w2 hi3 : Nat) (s : Block) (u : TwinId) :
    (tw (trace t ty k node aux w2 hi3 s) u).svc = (tw s u).svc := by
  simp [trace]

@[simp] theorem trace_tw_halted (t : TwinId) (ty : Nat) (k : Option Nat) (node aux w2 hi3 : Nat) (s : Block) (u : TwinId) :
    (tw (trace t ty k node aux w2 hi3 s) u).halted = (tw s u).halted := by
  simp [trace]

/-! ### stageLost -/

@[simp] theorem stageLost_ctxs (t : TwinId) (s : Block) :
    (stageLost t s).ctxs = s.ctxs := by
  unfold stageLost; (try simp only [])
  (repeat' split) <;> first | rfl | simp

@[simp] theorem stageLost_engines (t : TwinId) (s : Block) :
    (stageLost t s).engines = s.engines := by
  unfold stageLost; (try simp only [])
  (repeat' split) <;> first | rfl | simp

@[simp] theorem stageLost_flushes (t : TwinId) (s : Block) :
    (stageLost t s).flushes = s.flushes := by
  unfold stageLost; (try simp only [])
  (repeat' split) <;> first | rfl | simp

@[simp] theorem stageLost_holds (t : TwinId) (s : Block) :
    (stageLost t s).holds = s.holds := by
  unfold stageLost; (try simp only [])
  (repeat' split) <;> first | rfl | simp

@[simp] theorem stageLost_sendEps (t : TwinId) (s : Block) :
    (stageLost t s).sendEps = s.sendEps := by
  unfold stageLost; (try simp only [])
  (repeat' split) <;> first | rfl | simp

@[simp] theorem stageLost_recvEps (t : TwinId) (s : Block) :
    (stageLost t s).recvEps = s.recvEps := by
  unfold stageLost; (try simp only [])
  (repeat' split) <;> first | rfl | simp

@[simp] theorem stageLost_heldWrites (t : TwinId) (s : Block) :
    (stageLost t s).heldWrites = s.heldWrites := by
  unfold stageLost; (try simp only [])
  (repeat' split) <;> first | rfl | simp

@[simp] theorem stageLost_heldSteps (t : TwinId) (s : Block) :
    (stageLost t s).heldSteps = s.heldSteps := by
  unfold stageLost; (try simp only [])
  (repeat' split) <;> first | rfl | simp

@[simp] theorem stageLost_fmt (t : TwinId) (s : Block) :
    (stageLost t s).fmt = s.fmt := by
  unfold stageLost; (try simp only [])
  (repeat' split) <;> first | rfl | simp

@[simp] theorem stageLost_freeze (t : TwinId) (s : Block) :
    (stageLost t s).freeze = s.freeze := by
  unfold stageLost; (try simp only [])
  (repeat' split) <;> first | rfl | simp

@[simp] theorem stageLost_arb (t : TwinId) (s : Block) :
    (stageLost t s).arb = s.arb := by
  unfold stageLost; (try simp only [])
  (repeat' split) <;> first | rfl | simp

@[simp] theorem stageLost_proof (t : TwinId) (s : Block) :
    (stageLost t s).proof = s.proof := by
  unfold stageLost; (try simp only [])
  (repeat' split) <;> first | rfl | simp

@[simp] theorem stageLost_pair (t : TwinId) (s : Block) :
    (stageLost t s).pair = s.pair := by
  unfold stageLost; (try simp only [])
  (repeat' split) <;> first | rfl | simp

@[simp] theorem stageLost_boot (t : TwinId) (s : Block) :
    (stageLost t s).boot = s.boot := by
  unfold stageLost; (try simp only [])
  (repeat' split) <;> first | rfl | simp

@[simp] theorem stageLost_mgmt (t : TwinId) (s : Block) :
    (stageLost t s).mgmt = s.mgmt := by
  unfold stageLost; (try simp only [])
  (repeat' split) <;> first | rfl | simp

@[simp] theorem stageLost_fuses (t : TwinId) (s : Block) :
    (stageLost t s).fuses = s.fuses := by
  unfold stageLost; (try simp only [])
  (repeat' split) <;> first | rfl | simp

@[simp] theorem stageLost_fuseBanks (t : TwinId) (s : Block) :
    (stageLost t s).fuseBanks = s.fuseBanks := by
  unfold stageLost; (try simp only [])
  (repeat' split) <;> first | rfl | simp

@[simp] theorem stageLost_phase (t : TwinId) (s : Block) :
    (stageLost t s).phase = s.phase := by
  unfold stageLost; (try simp only [])
  (repeat' split) <;> first | rfl | simp

@[simp] theorem stageLost_claimSeq (t : TwinId) (s : Block) :
    (stageLost t s).claimSeq = s.claimSeq := by
  unfold stageLost; (try simp only [])
  (repeat' split) <;> first | rfl | simp

@[simp] theorem stageLost_serial (t : TwinId) (s : Block) :
    (stageLost t s).serial = s.serial := by
  unfold stageLost; (try simp only [])
  (repeat' split) <;> first | rfl | simp

@[simp] theorem stageLost_ticks (t : TwinId) (s : Block) :
    (stageLost t s).ticks = s.ticks := by
  unfold stageLost; (try simp only [])
  (repeat' split) <;> first | rfl | simp

@[simp] theorem stageLost_time (t : TwinId) (s : Block) :
    (stageLost t s).time = s.time := by
  unfold stageLost; (try simp only [])
  (repeat' split) <;> first | rfl | simp

@[simp] theorem stageLost_work (t : TwinId) (s : Block) :
    (stageLost t s).work = s.work := by
  unfold stageLost; (try simp only [])
  (repeat' split) <;> first | rfl | simp

@[simp] theorem stageLost_tw_cat (t : TwinId) (s : Block) (u : TwinId) :
    (tw (stageLost t s) u).cat = (tw s u).cat := by
  unfold stageLost; (try simp only [])
  (repeat' split) <;> first | rfl | simp

@[simp] theorem stageLost_tw_acc (t : TwinId) (s : Block) (u : TwinId) :
    (tw (stageLost t s) u).acc = (tw s u).acc := by
  unfold stageLost; (try simp only [])
  (repeat' split) <;> first | rfl | simp

@[simp] theorem stageLost_tw_rack (t : TwinId) (s : Block) (u : TwinId) :
    (tw (stageLost t s) u).rack = (tw s u).rack := by
  unfold stageLost; (try simp only [])
  (repeat' split) <;> first | rfl | simp

@[simp] theorem stageLost_tw_desk (t : TwinId) (s : Block) (u : TwinId) :
    (tw (stageLost t s) u).desk = (tw s u).desk := by
  unfold stageLost; (try simp only [])
  (repeat' split) <;> first | rfl | simp

@[simp] theorem stageLost_tw_shelf (t : TwinId) (s : Block) (u : TwinId) :
    (tw (stageLost t s) u).shelf = (tw s u).shelf := by
  unfold stageLost; (try simp only [])
  (repeat' split) <;> first | rfl | simp

@[simp] theorem stageLost_tw_ret (t : TwinId) (s : Block) (u : TwinId) :
    (tw (stageLost t s) u).ret = (tw s u).ret := by
  unfold stageLost; (try simp only [])
  (repeat' split) <;> first | rfl | simp

@[simp] theorem stageLost_tw_lard (t : TwinId) (s : Block) (u : TwinId) :
    (tw (stageLost t s) u).lard = (tw s u).lard := by
  unfold stageLost; (try simp only [])
  (repeat' split) <;> first | rfl | simp

@[simp] theorem stageLost_tw_ctxs (t : TwinId) (s : Block) (u : TwinId) :
    (tw (stageLost t s) u).ctxs = (tw s u).ctxs := by
  unfold stageLost; (try simp only [])
  (repeat' split) <;> first | rfl | simp

@[simp] theorem stageLost_tw_sort (t : TwinId) (s : Block) (u : TwinId) :
    (tw (stageLost t s) u).sort = (tw s u).sort := by
  unfold stageLost; (try simp only [])
  (repeat' split) <;> first | rfl | simp

@[simp] theorem stageLost_tw_bank (t : TwinId) (s : Block) (u : TwinId) :
    (tw (stageLost t s) u).bank = (tw s u).bank := by
  unfold stageLost; (try simp only [])
  (repeat' split) <;> first | rfl | simp

@[simp] theorem stageLost_tw_office (t : TwinId) (s : Block) (u : TwinId) :
    (tw (stageLost t s) u).office = (tw s u).office := by
  unfold stageLost; (try simp only [])
  (repeat' split) <;> first | rfl | simp

@[simp] theorem stageLost_tw_bake (t : TwinId) (s : Block) (u : TwinId) :
    (tw (stageLost t s) u).bake = (tw s u).bake := by
  unfold stageLost; (try simp only [])
  (repeat' split) <;> first | rfl | simp

@[simp] theorem stageLost_tw_thrd (t : TwinId) (s : Block) (u : TwinId) :
    (tw (stageLost t s) u).thrd = (tw s u).thrd := by
  unfold stageLost; (try simp only [])
  (repeat' split) <;> first | rfl | simp

@[simp] theorem stageLost_tw_rel (t : TwinId) (s : Block) (u : TwinId) :
    (tw (stageLost t s) u).rel = (tw s u).rel := by
  unfold stageLost; (try simp only [])
  (repeat' split) <;> first | rfl | simp

@[simp] theorem stageLost_tw_faultQ (t : TwinId) (s : Block) (u : TwinId) :
    (tw (stageLost t s) u).faultQ = (tw s u).faultQ := by
  unfold stageLost; (try simp only [])
  (repeat' split) <;> first | rfl | simp

@[simp] theorem stageLost_tw_combined (t : TwinId) (s : Block) (u : TwinId) :
    (tw (stageLost t s) u).combined = (tw s u).combined := by
  unfold stageLost; (try simp only [])
  (repeat' split) <;> first | rfl | simp

@[simp] theorem stageLost_tw_crossing (t : TwinId) (s : Block) (u : TwinId) :
    (tw (stageLost t s) u).crossing = (tw s u).crossing := by
  unfold stageLost; (try simp only [])
  (repeat' split) <;> first | rfl | simp

@[simp] theorem stageLost_tw_edgeIn (t : TwinId) (s : Block) (u : TwinId) :
    (tw (stageLost t s) u).edgeIn = (tw s u).edgeIn := by
  unfold stageLost; (try simp only [])
  (repeat' split) <;> first | rfl | simp

@[simp] theorem stageLost_tw_claimIn (t : TwinId) (s : Block) (u : TwinId) :
    (tw (stageLost t s) u).claimIn = (tw s u).claimIn := by
  unfold stageLost; (try simp only [])
  (repeat' split) <;> first | rfl | simp

@[simp] theorem stageLost_tw_ctrlIn (t : TwinId) (s : Block) (u : TwinId) :
    (tw (stageLost t s) u).ctrlIn = (tw s u).ctrlIn := by
  unfold stageLost; (try simp only [])
  (repeat' split) <;> first | rfl | simp

@[simp] theorem stageLost_tw_svc (t : TwinId) (s : Block) (u : TwinId) :
    (tw (stageLost t s) u).svc = (tw s u).svc := by
  unfold stageLost; (try simp only [])
  (repeat' split) <;> first | rfl | simp

@[simp] theorem stageLost_tw_halted (t : TwinId) (s : Block) (u : TwinId) :
    (tw (stageLost t s) u).halted = (tw s u).halted := by
  unfold stageLost; (try simp only [])
  (repeat' split) <;> first | rfl | simp

/-! ### sendClaim -/

@[simp] theorem sendClaim_ctxs (d : TwinId) (i : ClaimItem) (s : Block) :
    (sendClaim d i s).ctxs = s.ctxs := by
  unfold sendClaim
  split <;> simp

@[simp] theorem sendClaim_pages (d : TwinId) (i : ClaimItem) (s : Block) :
    (sendClaim d i s).pages = s.pages := by
  unfold sendClaim
  split <;> simp

@[simp] theorem sendClaim_engines (d : TwinId) (i : ClaimItem) (s : Block) :
    (sendClaim d i s).engines = s.engines := by
  unfold sendClaim
  split <;> simp

@[simp] theorem sendClaim_flushes (d : TwinId) (i : ClaimItem) (s : Block) :
    (sendClaim d i s).flushes = s.flushes := by
  unfold sendClaim
  split <;> simp

@[simp] theorem sendClaim_holds (d : TwinId) (i : ClaimItem) (s : Block) :
    (sendClaim d i s).holds = s.holds := by
  unfold sendClaim
  split <;> simp

@[simp] theorem sendClaim_sendEps (d : TwinId) (i : ClaimItem) (s : Block) :
    (sendClaim d i s).sendEps = s.sendEps := by
  unfold sendClaim
  split <;> simp

@[simp] theorem sendClaim_recvEps (d : TwinId) (i : ClaimItem) (s : Block) :
    (sendClaim d i s).recvEps = s.recvEps := by
  unfold sendClaim
  split <;> simp

@[simp] theorem sendClaim_heldWrites (d : TwinId) (i : ClaimItem) (s : Block) :
    (sendClaim d i s).heldWrites = s.heldWrites := by
  unfold sendClaim
  split <;> simp

@[simp] theorem sendClaim_heldSteps (d : TwinId) (i : ClaimItem) (s : Block) :
    (sendClaim d i s).heldSteps = s.heldSteps := by
  unfold sendClaim
  split <;> simp

@[simp] theorem sendClaim_fmt (d : TwinId) (i : ClaimItem) (s : Block) :
    (sendClaim d i s).fmt = s.fmt := by
  unfold sendClaim
  split <;> simp

@[simp] theorem sendClaim_freeze (d : TwinId) (i : ClaimItem) (s : Block) :
    (sendClaim d i s).freeze = s.freeze := by
  unfold sendClaim
  split <;> simp

@[simp] theorem sendClaim_arb (d : TwinId) (i : ClaimItem) (s : Block) :
    (sendClaim d i s).arb = s.arb := by
  unfold sendClaim
  split <;> simp

@[simp] theorem sendClaim_proof (d : TwinId) (i : ClaimItem) (s : Block) :
    (sendClaim d i s).proof = s.proof := by
  unfold sendClaim
  split <;> simp

@[simp] theorem sendClaim_pair (d : TwinId) (i : ClaimItem) (s : Block) :
    (sendClaim d i s).pair = s.pair := by
  unfold sendClaim
  split <;> simp

@[simp] theorem sendClaim_boot (d : TwinId) (i : ClaimItem) (s : Block) :
    (sendClaim d i s).boot = s.boot := by
  unfold sendClaim
  split <;> simp

@[simp] theorem sendClaim_mgmt (d : TwinId) (i : ClaimItem) (s : Block) :
    (sendClaim d i s).mgmt = s.mgmt := by
  unfold sendClaim
  split <;> simp

@[simp] theorem sendClaim_fuses (d : TwinId) (i : ClaimItem) (s : Block) :
    (sendClaim d i s).fuses = s.fuses := by
  unfold sendClaim
  split <;> simp

@[simp] theorem sendClaim_fuseBanks (d : TwinId) (i : ClaimItem) (s : Block) :
    (sendClaim d i s).fuseBanks = s.fuseBanks := by
  unfold sendClaim
  split <;> simp

@[simp] theorem sendClaim_phase (d : TwinId) (i : ClaimItem) (s : Block) :
    (sendClaim d i s).phase = s.phase := by
  unfold sendClaim
  split <;> simp

@[simp] theorem sendClaim_claimSeq (d : TwinId) (i : ClaimItem) (s : Block) :
    (sendClaim d i s).claimSeq = s.claimSeq := by
  unfold sendClaim
  split <;> simp

@[simp] theorem sendClaim_serial (d : TwinId) (i : ClaimItem) (s : Block) :
    (sendClaim d i s).serial = s.serial := by
  unfold sendClaim
  split <;> simp

@[simp] theorem sendClaim_ticks (d : TwinId) (i : ClaimItem) (s : Block) :
    (sendClaim d i s).ticks = s.ticks := by
  unfold sendClaim
  split <;> simp

@[simp] theorem sendClaim_time (d : TwinId) (i : ClaimItem) (s : Block) :
    (sendClaim d i s).time = s.time := by
  unfold sendClaim
  split <;> simp

@[simp] theorem sendClaim_work (d : TwinId) (i : ClaimItem) (s : Block) :
    (sendClaim d i s).work = s.work := by
  unfold sendClaim
  split <;> simp

@[simp] theorem sendClaim_out (d : TwinId) (i : ClaimItem) (s : Block) :
    (sendClaim d i s).out = s.out := by
  unfold sendClaim
  split <;> simp

@[simp] theorem sendClaim_tw_cat (d : TwinId) (i : ClaimItem) (s : Block) (u : TwinId) :
    (tw (sendClaim d i s) u).cat = (tw s u).cat := by
  unfold sendClaim
  split
  · cases d <;> cases u <;> rfl
  · rfl

@[simp] theorem sendClaim_tw_acc (d : TwinId) (i : ClaimItem) (s : Block) (u : TwinId) :
    (tw (sendClaim d i s) u).acc = (tw s u).acc := by
  unfold sendClaim
  split
  · cases d <;> cases u <;> rfl
  · rfl

@[simp] theorem sendClaim_tw_rack (d : TwinId) (i : ClaimItem) (s : Block) (u : TwinId) :
    (tw (sendClaim d i s) u).rack = (tw s u).rack := by
  unfold sendClaim
  split
  · cases d <;> cases u <;> rfl
  · rfl

@[simp] theorem sendClaim_tw_desk (d : TwinId) (i : ClaimItem) (s : Block) (u : TwinId) :
    (tw (sendClaim d i s) u).desk = (tw s u).desk := by
  unfold sendClaim
  split
  · cases d <;> cases u <;> rfl
  · rfl

@[simp] theorem sendClaim_tw_shelf (d : TwinId) (i : ClaimItem) (s : Block) (u : TwinId) :
    (tw (sendClaim d i s) u).shelf = (tw s u).shelf := by
  unfold sendClaim
  split
  · cases d <;> cases u <;> rfl
  · rfl

@[simp] theorem sendClaim_tw_ret (d : TwinId) (i : ClaimItem) (s : Block) (u : TwinId) :
    (tw (sendClaim d i s) u).ret = (tw s u).ret := by
  unfold sendClaim
  split
  · cases d <;> cases u <;> rfl
  · rfl

@[simp] theorem sendClaim_tw_lard (d : TwinId) (i : ClaimItem) (s : Block) (u : TwinId) :
    (tw (sendClaim d i s) u).lard = (tw s u).lard := by
  unfold sendClaim
  split
  · cases d <;> cases u <;> rfl
  · rfl

@[simp] theorem sendClaim_tw_obs (d : TwinId) (i : ClaimItem) (s : Block) (u : TwinId) :
    (tw (sendClaim d i s) u).obs = (tw s u).obs := by
  unfold sendClaim
  split
  · cases d <;> cases u <;> rfl
  · rfl

@[simp] theorem sendClaim_tw_ctxs (d : TwinId) (i : ClaimItem) (s : Block) (u : TwinId) :
    (tw (sendClaim d i s) u).ctxs = (tw s u).ctxs := by
  unfold sendClaim
  split
  · cases d <;> cases u <;> rfl
  · rfl

@[simp] theorem sendClaim_tw_sort (d : TwinId) (i : ClaimItem) (s : Block) (u : TwinId) :
    (tw (sendClaim d i s) u).sort = (tw s u).sort := by
  unfold sendClaim
  split
  · cases d <;> cases u <;> rfl
  · rfl

@[simp] theorem sendClaim_tw_bank (d : TwinId) (i : ClaimItem) (s : Block) (u : TwinId) :
    (tw (sendClaim d i s) u).bank = (tw s u).bank := by
  unfold sendClaim
  split
  · cases d <;> cases u <;> rfl
  · rfl

@[simp] theorem sendClaim_tw_office (d : TwinId) (i : ClaimItem) (s : Block) (u : TwinId) :
    (tw (sendClaim d i s) u).office = (tw s u).office := by
  unfold sendClaim
  split
  · cases d <;> cases u <;> rfl
  · rfl

@[simp] theorem sendClaim_tw_bake (d : TwinId) (i : ClaimItem) (s : Block) (u : TwinId) :
    (tw (sendClaim d i s) u).bake = (tw s u).bake := by
  unfold sendClaim
  split
  · cases d <;> cases u <;> rfl
  · rfl

@[simp] theorem sendClaim_tw_thrd (d : TwinId) (i : ClaimItem) (s : Block) (u : TwinId) :
    (tw (sendClaim d i s) u).thrd = (tw s u).thrd := by
  unfold sendClaim
  split
  · cases d <;> cases u <;> rfl
  · rfl

@[simp] theorem sendClaim_tw_rel (d : TwinId) (i : ClaimItem) (s : Block) (u : TwinId) :
    (tw (sendClaim d i s) u).rel = (tw s u).rel := by
  unfold sendClaim
  split
  · cases d <;> cases u <;> rfl
  · rfl

@[simp] theorem sendClaim_tw_faultQ (d : TwinId) (i : ClaimItem) (s : Block) (u : TwinId) :
    (tw (sendClaim d i s) u).faultQ = (tw s u).faultQ := by
  unfold sendClaim
  split
  · cases d <;> cases u <;> rfl
  · rfl

@[simp] theorem sendClaim_tw_combined (d : TwinId) (i : ClaimItem) (s : Block) (u : TwinId) :
    (tw (sendClaim d i s) u).combined = (tw s u).combined := by
  unfold sendClaim
  split
  · cases d <;> cases u <;> rfl
  · rfl

@[simp] theorem sendClaim_tw_crossing (d : TwinId) (i : ClaimItem) (s : Block) (u : TwinId) :
    (tw (sendClaim d i s) u).crossing = (tw s u).crossing := by
  unfold sendClaim
  split
  · cases d <;> cases u <;> rfl
  · rfl

@[simp] theorem sendClaim_tw_edgeIn (d : TwinId) (i : ClaimItem) (s : Block) (u : TwinId) :
    (tw (sendClaim d i s) u).edgeIn = (tw s u).edgeIn := by
  unfold sendClaim
  split
  · cases d <;> cases u <;> rfl
  · rfl

@[simp] theorem sendClaim_tw_ctrlIn (d : TwinId) (i : ClaimItem) (s : Block) (u : TwinId) :
    (tw (sendClaim d i s) u).ctrlIn = (tw s u).ctrlIn := by
  unfold sendClaim
  split
  · cases d <;> cases u <;> rfl
  · rfl

@[simp] theorem sendClaim_tw_svc (d : TwinId) (i : ClaimItem) (s : Block) (u : TwinId) :
    (tw (sendClaim d i s) u).svc = (tw s u).svc := by
  unfold sendClaim
  split
  · cases d <;> cases u <;> rfl
  · rfl

@[simp] theorem sendClaim_tw_halted (d : TwinId) (i : ClaimItem) (s : Block) (u : TwinId) :
    (tw (sendClaim d i s) u).halted = (tw s u).halted := by
  unfold sendClaim
  split
  · cases d <;> cases u <;> rfl
  · rfl

/-! ### sendCtrl -/

@[simp] theorem sendCtrl_ctxs (d : TwinId) (i : ControlItem) (s : Block) :
    (sendCtrl d i s).ctxs = s.ctxs := by
  simp [sendCtrl]

@[simp] theorem sendCtrl_pages (d : TwinId) (i : ControlItem) (s : Block) :
    (sendCtrl d i s).pages = s.pages := by
  simp [sendCtrl]

@[simp] theorem sendCtrl_engines (d : TwinId) (i : ControlItem) (s : Block) :
    (sendCtrl d i s).engines = s.engines := by
  simp [sendCtrl]

@[simp] theorem sendCtrl_flushes (d : TwinId) (i : ControlItem) (s : Block) :
    (sendCtrl d i s).flushes = s.flushes := by
  simp [sendCtrl]

@[simp] theorem sendCtrl_holds (d : TwinId) (i : ControlItem) (s : Block) :
    (sendCtrl d i s).holds = s.holds := by
  simp [sendCtrl]

@[simp] theorem sendCtrl_sendEps (d : TwinId) (i : ControlItem) (s : Block) :
    (sendCtrl d i s).sendEps = s.sendEps := by
  simp [sendCtrl]

@[simp] theorem sendCtrl_recvEps (d : TwinId) (i : ControlItem) (s : Block) :
    (sendCtrl d i s).recvEps = s.recvEps := by
  simp [sendCtrl]

@[simp] theorem sendCtrl_heldWrites (d : TwinId) (i : ControlItem) (s : Block) :
    (sendCtrl d i s).heldWrites = s.heldWrites := by
  simp [sendCtrl]

@[simp] theorem sendCtrl_heldSteps (d : TwinId) (i : ControlItem) (s : Block) :
    (sendCtrl d i s).heldSteps = s.heldSteps := by
  simp [sendCtrl]

@[simp] theorem sendCtrl_fmt (d : TwinId) (i : ControlItem) (s : Block) :
    (sendCtrl d i s).fmt = s.fmt := by
  simp [sendCtrl]

@[simp] theorem sendCtrl_freeze (d : TwinId) (i : ControlItem) (s : Block) :
    (sendCtrl d i s).freeze = s.freeze := by
  simp [sendCtrl]

@[simp] theorem sendCtrl_arb (d : TwinId) (i : ControlItem) (s : Block) :
    (sendCtrl d i s).arb = s.arb := by
  simp [sendCtrl]

@[simp] theorem sendCtrl_proof (d : TwinId) (i : ControlItem) (s : Block) :
    (sendCtrl d i s).proof = s.proof := by
  simp [sendCtrl]

@[simp] theorem sendCtrl_pair (d : TwinId) (i : ControlItem) (s : Block) :
    (sendCtrl d i s).pair = s.pair := by
  simp [sendCtrl]

@[simp] theorem sendCtrl_boot (d : TwinId) (i : ControlItem) (s : Block) :
    (sendCtrl d i s).boot = s.boot := by
  simp [sendCtrl]

@[simp] theorem sendCtrl_mgmt (d : TwinId) (i : ControlItem) (s : Block) :
    (sendCtrl d i s).mgmt = s.mgmt := by
  simp [sendCtrl]

@[simp] theorem sendCtrl_fuses (d : TwinId) (i : ControlItem) (s : Block) :
    (sendCtrl d i s).fuses = s.fuses := by
  simp [sendCtrl]

@[simp] theorem sendCtrl_fuseBanks (d : TwinId) (i : ControlItem) (s : Block) :
    (sendCtrl d i s).fuseBanks = s.fuseBanks := by
  simp [sendCtrl]

@[simp] theorem sendCtrl_phase (d : TwinId) (i : ControlItem) (s : Block) :
    (sendCtrl d i s).phase = s.phase := by
  simp [sendCtrl]

@[simp] theorem sendCtrl_claimSeq (d : TwinId) (i : ControlItem) (s : Block) :
    (sendCtrl d i s).claimSeq = s.claimSeq := by
  simp [sendCtrl]

@[simp] theorem sendCtrl_serial (d : TwinId) (i : ControlItem) (s : Block) :
    (sendCtrl d i s).serial = s.serial := by
  simp [sendCtrl]

@[simp] theorem sendCtrl_ticks (d : TwinId) (i : ControlItem) (s : Block) :
    (sendCtrl d i s).ticks = s.ticks := by
  simp [sendCtrl]

@[simp] theorem sendCtrl_time (d : TwinId) (i : ControlItem) (s : Block) :
    (sendCtrl d i s).time = s.time := by
  simp [sendCtrl]

@[simp] theorem sendCtrl_work (d : TwinId) (i : ControlItem) (s : Block) :
    (sendCtrl d i s).work = s.work := by
  simp [sendCtrl]

@[simp] theorem sendCtrl_out (d : TwinId) (i : ControlItem) (s : Block) :
    (sendCtrl d i s).out = s.out := by
  simp [sendCtrl]

@[simp] theorem sendCtrl_tw_cat (d : TwinId) (i : ControlItem) (s : Block) (u : TwinId) :
    (tw (sendCtrl d i s) u).cat = (tw s u).cat := by
  cases d <;> cases u <;> rfl

@[simp] theorem sendCtrl_tw_acc (d : TwinId) (i : ControlItem) (s : Block) (u : TwinId) :
    (tw (sendCtrl d i s) u).acc = (tw s u).acc := by
  cases d <;> cases u <;> rfl

@[simp] theorem sendCtrl_tw_rack (d : TwinId) (i : ControlItem) (s : Block) (u : TwinId) :
    (tw (sendCtrl d i s) u).rack = (tw s u).rack := by
  cases d <;> cases u <;> rfl

@[simp] theorem sendCtrl_tw_desk (d : TwinId) (i : ControlItem) (s : Block) (u : TwinId) :
    (tw (sendCtrl d i s) u).desk = (tw s u).desk := by
  cases d <;> cases u <;> rfl

@[simp] theorem sendCtrl_tw_shelf (d : TwinId) (i : ControlItem) (s : Block) (u : TwinId) :
    (tw (sendCtrl d i s) u).shelf = (tw s u).shelf := by
  cases d <;> cases u <;> rfl

@[simp] theorem sendCtrl_tw_ret (d : TwinId) (i : ControlItem) (s : Block) (u : TwinId) :
    (tw (sendCtrl d i s) u).ret = (tw s u).ret := by
  cases d <;> cases u <;> rfl

@[simp] theorem sendCtrl_tw_lard (d : TwinId) (i : ControlItem) (s : Block) (u : TwinId) :
    (tw (sendCtrl d i s) u).lard = (tw s u).lard := by
  cases d <;> cases u <;> rfl

@[simp] theorem sendCtrl_tw_obs (d : TwinId) (i : ControlItem) (s : Block) (u : TwinId) :
    (tw (sendCtrl d i s) u).obs = (tw s u).obs := by
  cases d <;> cases u <;> rfl

@[simp] theorem sendCtrl_tw_ctxs (d : TwinId) (i : ControlItem) (s : Block) (u : TwinId) :
    (tw (sendCtrl d i s) u).ctxs = (tw s u).ctxs := by
  cases d <;> cases u <;> rfl

@[simp] theorem sendCtrl_tw_sort (d : TwinId) (i : ControlItem) (s : Block) (u : TwinId) :
    (tw (sendCtrl d i s) u).sort = (tw s u).sort := by
  cases d <;> cases u <;> rfl

@[simp] theorem sendCtrl_tw_bank (d : TwinId) (i : ControlItem) (s : Block) (u : TwinId) :
    (tw (sendCtrl d i s) u).bank = (tw s u).bank := by
  cases d <;> cases u <;> rfl

@[simp] theorem sendCtrl_tw_office (d : TwinId) (i : ControlItem) (s : Block) (u : TwinId) :
    (tw (sendCtrl d i s) u).office = (tw s u).office := by
  cases d <;> cases u <;> rfl

@[simp] theorem sendCtrl_tw_bake (d : TwinId) (i : ControlItem) (s : Block) (u : TwinId) :
    (tw (sendCtrl d i s) u).bake = (tw s u).bake := by
  cases d <;> cases u <;> rfl

@[simp] theorem sendCtrl_tw_thrd (d : TwinId) (i : ControlItem) (s : Block) (u : TwinId) :
    (tw (sendCtrl d i s) u).thrd = (tw s u).thrd := by
  cases d <;> cases u <;> rfl

@[simp] theorem sendCtrl_tw_rel (d : TwinId) (i : ControlItem) (s : Block) (u : TwinId) :
    (tw (sendCtrl d i s) u).rel = (tw s u).rel := by
  cases d <;> cases u <;> rfl

@[simp] theorem sendCtrl_tw_faultQ (d : TwinId) (i : ControlItem) (s : Block) (u : TwinId) :
    (tw (sendCtrl d i s) u).faultQ = (tw s u).faultQ := by
  cases d <;> cases u <;> rfl

@[simp] theorem sendCtrl_tw_combined (d : TwinId) (i : ControlItem) (s : Block) (u : TwinId) :
    (tw (sendCtrl d i s) u).combined = (tw s u).combined := by
  cases d <;> cases u <;> rfl

@[simp] theorem sendCtrl_tw_crossing (d : TwinId) (i : ControlItem) (s : Block) (u : TwinId) :
    (tw (sendCtrl d i s) u).crossing = (tw s u).crossing := by
  cases d <;> cases u <;> rfl

@[simp] theorem sendCtrl_tw_edgeIn (d : TwinId) (i : ControlItem) (s : Block) (u : TwinId) :
    (tw (sendCtrl d i s) u).edgeIn = (tw s u).edgeIn := by
  cases d <;> cases u <;> rfl

@[simp] theorem sendCtrl_tw_claimIn (d : TwinId) (i : ControlItem) (s : Block) (u : TwinId) :
    (tw (sendCtrl d i s) u).claimIn = (tw s u).claimIn := by
  cases d <;> cases u <;> rfl

@[simp] theorem sendCtrl_tw_svc (d : TwinId) (i : ControlItem) (s : Block) (u : TwinId) :
    (tw (sendCtrl d i s) u).svc = (tw s u).svc := by
  cases d <;> cases u <;> rfl

@[simp] theorem sendCtrl_tw_halted (d : TwinId) (i : ControlItem) (s : Block) (u : TwinId) :
    (tw (sendCtrl d i s) u).halted = (tw s u).halted := by
  cases d <;> cases u <;> rfl

/-! ### sendItem -/

@[simp] theorem sendItem_ctxs (a d : TwinId) (i : EdgeItem) (s : Block) :
    (sendItem a d i s).ctxs = s.ctxs := by
  unfold sendItem
  simp only []
  (repeat' split) <;> simp

@[simp] theorem sendItem_pages (a d : TwinId) (i : EdgeItem) (s : Block) (h : isCredit i = false) :
    (sendItem a d i s).pages = s.pages := by
  unfold sendItem
  (repeat' split) <;> simp_all

@[simp] theorem sendItem_engines (a d : TwinId) (i : EdgeItem) (s : Block) :
    (sendItem a d i s).engines = s.engines := by
  unfold sendItem
  simp only []
  (repeat' split) <;> simp

@[simp] theorem sendItem_flushes (a d : TwinId) (i : EdgeItem) (s : Block) :
    (sendItem a d i s).flushes = s.flushes := by
  unfold sendItem
  simp only []
  (repeat' split) <;> simp

@[simp] theorem sendItem_holds (a d : TwinId) (i : EdgeItem) (s : Block) :
    (sendItem a d i s).holds = s.holds := by
  unfold sendItem
  simp only []
  (repeat' split) <;> simp

@[simp] theorem sendItem_sendEps (a d : TwinId) (i : EdgeItem) (s : Block) :
    (sendItem a d i s).sendEps = s.sendEps := by
  unfold sendItem
  simp only []
  (repeat' split) <;> simp

@[simp] theorem sendItem_recvEps (a d : TwinId) (i : EdgeItem) (s : Block) :
    (sendItem a d i s).recvEps = s.recvEps := by
  unfold sendItem
  simp only []
  (repeat' split) <;> simp

@[simp] theorem sendItem_heldWrites (a d : TwinId) (i : EdgeItem) (s : Block) :
    (sendItem a d i s).heldWrites = s.heldWrites := by
  unfold sendItem
  simp only []
  (repeat' split) <;> simp

@[simp] theorem sendItem_heldSteps (a d : TwinId) (i : EdgeItem) (s : Block) :
    (sendItem a d i s).heldSteps = s.heldSteps := by
  unfold sendItem
  simp only []
  (repeat' split) <;> simp

@[simp] theorem sendItem_fmt (a d : TwinId) (i : EdgeItem) (s : Block) :
    (sendItem a d i s).fmt = s.fmt := by
  unfold sendItem
  simp only []
  (repeat' split) <;> simp

@[simp] theorem sendItem_freeze (a d : TwinId) (i : EdgeItem) (s : Block) :
    (sendItem a d i s).freeze = s.freeze := by
  unfold sendItem
  simp only []
  (repeat' split) <;> simp

@[simp] theorem sendItem_arb (a d : TwinId) (i : EdgeItem) (s : Block) :
    (sendItem a d i s).arb = s.arb := by
  unfold sendItem
  simp only []
  (repeat' split) <;> simp

@[simp] theorem sendItem_proof (a d : TwinId) (i : EdgeItem) (s : Block) :
    (sendItem a d i s).proof = s.proof := by
  unfold sendItem
  simp only []
  (repeat' split) <;> simp

@[simp] theorem sendItem_pair (a d : TwinId) (i : EdgeItem) (s : Block) :
    (sendItem a d i s).pair = s.pair := by
  unfold sendItem
  simp only []
  (repeat' split) <;> simp

@[simp] theorem sendItem_boot (a d : TwinId) (i : EdgeItem) (s : Block) :
    (sendItem a d i s).boot = s.boot := by
  unfold sendItem
  simp only []
  (repeat' split) <;> simp

@[simp] theorem sendItem_mgmt (a d : TwinId) (i : EdgeItem) (s : Block) :
    (sendItem a d i s).mgmt = s.mgmt := by
  unfold sendItem
  simp only []
  (repeat' split) <;> simp

@[simp] theorem sendItem_fuses (a d : TwinId) (i : EdgeItem) (s : Block) :
    (sendItem a d i s).fuses = s.fuses := by
  unfold sendItem
  simp only []
  (repeat' split) <;> simp

@[simp] theorem sendItem_fuseBanks (a d : TwinId) (i : EdgeItem) (s : Block) :
    (sendItem a d i s).fuseBanks = s.fuseBanks := by
  unfold sendItem
  simp only []
  (repeat' split) <;> simp

@[simp] theorem sendItem_phase (a d : TwinId) (i : EdgeItem) (s : Block) :
    (sendItem a d i s).phase = s.phase := by
  unfold sendItem
  simp only []
  (repeat' split) <;> simp

@[simp] theorem sendItem_claimSeq (a d : TwinId) (i : EdgeItem) (s : Block) :
    (sendItem a d i s).claimSeq = s.claimSeq := by
  unfold sendItem
  simp only []
  (repeat' split) <;> simp

@[simp] theorem sendItem_serial (a d : TwinId) (i : EdgeItem) (s : Block) :
    (sendItem a d i s).serial = s.serial := by
  unfold sendItem
  simp only []
  (repeat' split) <;> simp

@[simp] theorem sendItem_ticks (a d : TwinId) (i : EdgeItem) (s : Block) :
    (sendItem a d i s).ticks = s.ticks := by
  unfold sendItem
  simp only []
  (repeat' split) <;> simp

@[simp] theorem sendItem_time (a d : TwinId) (i : EdgeItem) (s : Block) :
    (sendItem a d i s).time = s.time := by
  unfold sendItem
  simp only []
  (repeat' split) <;> simp

@[simp] theorem sendItem_out (a d : TwinId) (i : EdgeItem) (s : Block) :
    (sendItem a d i s).out = s.out := by
  unfold sendItem
  simp only []
  (repeat' split) <;> simp

@[simp] theorem sendItem_tw_cat (a d : TwinId) (i : EdgeItem) (s : Block) (u : TwinId) :
    (tw (sendItem a d i s) u).cat = (tw s u).cat := by
  unfold sendItem
  simp only []
  (repeat' split) <;> first | rfl | (cases d <;> cases u <;> rfl)

@[simp] theorem sendItem_tw_acc (a d : TwinId) (i : EdgeItem) (s : Block) (u : TwinId) :
    (tw (sendItem a d i s) u).acc = (tw s u).acc := by
  unfold sendItem
  simp only []
  (repeat' split) <;> first | rfl | (cases d <;> cases u <;> rfl)

@[simp] theorem sendItem_tw_rack (a d : TwinId) (i : EdgeItem) (s : Block) (u : TwinId) :
    (tw (sendItem a d i s) u).rack = (tw s u).rack := by
  unfold sendItem
  simp only []
  (repeat' split) <;> first | rfl | (cases d <;> cases u <;> rfl)

@[simp] theorem sendItem_tw_desk (a d : TwinId) (i : EdgeItem) (s : Block) (u : TwinId) :
    (tw (sendItem a d i s) u).desk = (tw s u).desk := by
  unfold sendItem
  simp only []
  (repeat' split) <;> first | rfl | (cases d <;> cases u <;> rfl)

@[simp] theorem sendItem_tw_shelf (a d : TwinId) (i : EdgeItem) (s : Block) (u : TwinId) :
    (tw (sendItem a d i s) u).shelf = (tw s u).shelf := by
  unfold sendItem
  simp only []
  (repeat' split) <;> first | rfl | (cases d <;> cases u <;> rfl)

@[simp] theorem sendItem_tw_ret (a d : TwinId) (i : EdgeItem) (s : Block) (u : TwinId) :
    (tw (sendItem a d i s) u).ret = (tw s u).ret := by
  unfold sendItem
  simp only []
  (repeat' split) <;> first | rfl | (cases d <;> cases u <;> rfl)

@[simp] theorem sendItem_tw_lard (a d : TwinId) (i : EdgeItem) (s : Block) (u : TwinId) :
    (tw (sendItem a d i s) u).lard = (tw s u).lard := by
  unfold sendItem
  simp only []
  (repeat' split) <;> first | rfl | (cases d <;> cases u <;> rfl)

@[simp] theorem sendItem_tw_obs (a d : TwinId) (i : EdgeItem) (s : Block) (u : TwinId) :
    (tw (sendItem a d i s) u).obs = (tw s u).obs := by
  unfold sendItem
  simp only []
  (repeat' split) <;> first | rfl | (cases d <;> cases u <;> rfl)

@[simp] theorem sendItem_tw_ctxs (a d : TwinId) (i : EdgeItem) (s : Block) (u : TwinId) :
    (tw (sendItem a d i s) u).ctxs = (tw s u).ctxs := by
  unfold sendItem
  simp only []
  (repeat' split) <;> first | rfl | (cases d <;> cases u <;> rfl)

@[simp] theorem sendItem_tw_sort (a d : TwinId) (i : EdgeItem) (s : Block) (u : TwinId) :
    (tw (sendItem a d i s) u).sort = (tw s u).sort := by
  unfold sendItem
  simp only []
  (repeat' split) <;> first | rfl | (cases d <;> cases u <;> rfl)

@[simp] theorem sendItem_tw_bank (a d : TwinId) (i : EdgeItem) (s : Block) (u : TwinId) :
    (tw (sendItem a d i s) u).bank = (tw s u).bank := by
  unfold sendItem
  simp only []
  (repeat' split) <;> first | rfl | (cases d <;> cases u <;> rfl)

@[simp] theorem sendItem_tw_office (a d : TwinId) (i : EdgeItem) (s : Block) (u : TwinId) :
    (tw (sendItem a d i s) u).office = (tw s u).office := by
  unfold sendItem
  simp only []
  (repeat' split) <;> first | rfl | (cases d <;> cases u <;> rfl)

@[simp] theorem sendItem_tw_bake (a d : TwinId) (i : EdgeItem) (s : Block) (u : TwinId) :
    (tw (sendItem a d i s) u).bake = (tw s u).bake := by
  unfold sendItem
  simp only []
  (repeat' split) <;> first | rfl | (cases d <;> cases u <;> rfl)

@[simp] theorem sendItem_tw_thrd (a d : TwinId) (i : EdgeItem) (s : Block) (u : TwinId) :
    (tw (sendItem a d i s) u).thrd = (tw s u).thrd := by
  unfold sendItem
  simp only []
  (repeat' split) <;> first | rfl | (cases d <;> cases u <;> rfl)

@[simp] theorem sendItem_tw_rel (a d : TwinId) (i : EdgeItem) (s : Block) (u : TwinId) :
    (tw (sendItem a d i s) u).rel = (tw s u).rel := by
  unfold sendItem
  simp only []
  (repeat' split) <;> first | rfl | (cases d <;> cases u <;> rfl)

@[simp] theorem sendItem_tw_faultQ (a d : TwinId) (i : EdgeItem) (s : Block) (u : TwinId) :
    (tw (sendItem a d i s) u).faultQ = (tw s u).faultQ := by
  unfold sendItem
  simp only []
  (repeat' split) <;> first | rfl | (cases d <;> cases u <;> rfl)

@[simp] theorem sendItem_tw_combined (a d : TwinId) (i : EdgeItem) (s : Block) (u : TwinId) :
    (tw (sendItem a d i s) u).combined = (tw s u).combined := by
  unfold sendItem
  simp only []
  (repeat' split) <;> first | rfl | (cases d <;> cases u <;> rfl)

@[simp] theorem sendItem_tw_crossing (a d : TwinId) (i : EdgeItem) (s : Block) (u : TwinId) :
    (tw (sendItem a d i s) u).crossing = (tw s u).crossing := by
  unfold sendItem
  simp only []
  (repeat' split) <;> first | rfl | (cases d <;> cases u <;> rfl)

@[simp] theorem sendItem_tw_claimIn (a d : TwinId) (i : EdgeItem) (s : Block) (u : TwinId) :
    (tw (sendItem a d i s) u).claimIn = (tw s u).claimIn := by
  unfold sendItem
  simp only []
  (repeat' split) <;> first | rfl | (cases d <;> cases u <;> rfl)

@[simp] theorem sendItem_tw_ctrlIn (a d : TwinId) (i : EdgeItem) (s : Block) (u : TwinId) :
    (tw (sendItem a d i s) u).ctrlIn = (tw s u).ctrlIn := by
  unfold sendItem
  simp only []
  (repeat' split) <;> first | rfl | (cases d <;> cases u <;> rfl)

@[simp] theorem sendItem_tw_svc (a d : TwinId) (i : EdgeItem) (s : Block) (u : TwinId) :
    (tw (sendItem a d i s) u).svc = (tw s u).svc := by
  unfold sendItem
  simp only []
  (repeat' split) <;> first | rfl | (cases d <;> cases u <;> rfl)

@[simp] theorem sendItem_tw_halted (a d : TwinId) (i : EdgeItem) (s : Block) (u : TwinId) :
    (tw (sendItem a d i s) u).halted = (tw s u).halted := by
  unfold sendItem
  simp only []
  (repeat' split) <;> first | rfl | (cases d <;> cases u <;> rfl)

/-! ### The fields that the updaters touch -/

@[simp] theorem upCtx_ctxs (k : Nat) (f : Ctx → Ctx) (s : Block) : (upCtx k f s).ctxs = mapSet {} s.ctxs k (f (ctxOf s k)) := rfl
@[simp] theorem upEng_engines (k : Nat) (f : Engine → Engine) (s : Block) :
    (upEng k f s).engines = mapSet {} s.engines k (f (engOf s k)) := rfl
@[simp] theorem upFlush_flushes (k : Nat) (f : Flush → Flush) (s : Block) :
    (upFlush k f s).flushes = mapSet {} s.flushes k (f (flushOf s k)) := rfl
@[simp] theorem pushWork_work (ws : List Work) (s : Block) : (pushWork ws s).work = s.work ++ ws := rfl
@[simp] theorem emit_out (o : Output) (s : Block) : (emit o s).out = s.out ++ [o] := rfl
@[simp] theorem setCmd_mgmt (y : Bool) (n : Nat) (s : Block) :
    (setCmd y n s).mgmt = { s.mgmt with cmdBusy := y, cmdStat := n } := rfl
@[simp] theorem upProof_proof (f : Proofer → Proofer) (s : Block) : (upProof f s).proof = f s.proof := rfl
@[simp] theorem upPair_pair (f : PairSt → PairSt) (s : Block) : (upPair f s).pair = f s.pair := rfl
@[simp] theorem upDom_proof (d : Nat) (f : Dom → Dom) (s : Block) :
    (upDom d f s).proof = { s.proof with doms := mapSet {} s.proof.doms d (f (domOf s d)) } := rfl
@[simp] theorem upCore_arb (c : Nat) (f : Core → Core) (s : Block) :
    (upCore c f s).arb = { s.arb with cores := mapSet {} s.arb.cores c (f (coreOf s c)) } := rfl
@[simp] theorem setSend_sendEps (k : Nat) (e : SendEp) (s : Block) :
    (setSend k e s).sendEps = mapSet {} s.sendEps k e := rfl
@[simp] theorem setRecv_heldWrites (k : Nat) (e : RecvEp) (s : Block) : (setRecv k e s).heldWrites = s.heldWrites := rfl
@[simp] theorem setRecv_heldSteps (k : Nat) (e : RecvEp) (s : Block) : (setRecv k e s).heldSteps = s.heldSteps := rfl
@[simp] theorem setRecv_recvEps (k : Nat) (e : RecvEp) (s : Block) :
    (setRecv k e s).recvEps = mapSet {} s.recvEps k e := rfl
@[simp] theorem setHold_holds (g : Nat) (v : Bool) (s : Block) :
    (setHold g v s).holds = mapSet false s.holds (portOfGroup g) v := rfl
@[simp] theorem tw_same (s : Block) (t : TwinId) (a b c d e f g h i j k l m n o p q r u v w x y z aa) :
    tw ⟨s.tw0, s.tw1, a, b, c, d, e, f, g, h, i, j, k, l, m, n, o, p, q, r, u, v, w, x, y, z, aa⟩ t = tw s t := by
  cases t <;> rfl

/-! ### A field of an if -/

@[simp] theorem ite_tw0 (c : Prop) [Decidable c] (x y : Block) :
    (if c then x else y).tw0 = if c then x.tw0 else y.tw0 := apply_ite _ c x y

@[simp] theorem ite_tw1 (c : Prop) [Decidable c] (x y : Block) :
    (if c then x else y).tw1 = if c then x.tw1 else y.tw1 := apply_ite _ c x y

@[simp] theorem ite_ctxs (c : Prop) [Decidable c] (x y : Block) :
    (if c then x else y).ctxs = if c then x.ctxs else y.ctxs := apply_ite _ c x y

@[simp] theorem ite_pages (c : Prop) [Decidable c] (x y : Block) :
    (if c then x else y).pages = if c then x.pages else y.pages := apply_ite _ c x y

@[simp] theorem ite_engines (c : Prop) [Decidable c] (x y : Block) :
    (if c then x else y).engines = if c then x.engines else y.engines := apply_ite _ c x y

@[simp] theorem ite_flushes (c : Prop) [Decidable c] (x y : Block) :
    (if c then x else y).flushes = if c then x.flushes else y.flushes := apply_ite _ c x y

@[simp] theorem ite_holds (c : Prop) [Decidable c] (x y : Block) :
    (if c then x else y).holds = if c then x.holds else y.holds := apply_ite _ c x y

@[simp] theorem ite_sendEps (c : Prop) [Decidable c] (x y : Block) :
    (if c then x else y).sendEps = if c then x.sendEps else y.sendEps := apply_ite _ c x y

@[simp] theorem ite_recvEps (c : Prop) [Decidable c] (x y : Block) :
    (if c then x else y).recvEps = if c then x.recvEps else y.recvEps := apply_ite _ c x y

@[simp] theorem ite_heldWrites (c : Prop) [Decidable c] (x y : Block) :
    (if c then x else y).heldWrites = if c then x.heldWrites else y.heldWrites := apply_ite _ c x y

@[simp] theorem ite_heldSteps (c : Prop) [Decidable c] (x y : Block) :
    (if c then x else y).heldSteps = if c then x.heldSteps else y.heldSteps := apply_ite _ c x y

@[simp] theorem ite_fmt (c : Prop) [Decidable c] (x y : Block) :
    (if c then x else y).fmt = if c then x.fmt else y.fmt := apply_ite _ c x y

@[simp] theorem ite_freeze (c : Prop) [Decidable c] (x y : Block) :
    (if c then x else y).freeze = if c then x.freeze else y.freeze := apply_ite _ c x y

@[simp] theorem ite_arb (c : Prop) [Decidable c] (x y : Block) :
    (if c then x else y).arb = if c then x.arb else y.arb := apply_ite _ c x y

@[simp] theorem ite_proof (c : Prop) [Decidable c] (x y : Block) :
    (if c then x else y).proof = if c then x.proof else y.proof := apply_ite _ c x y

@[simp] theorem ite_pair (c : Prop) [Decidable c] (x y : Block) :
    (if c then x else y).pair = if c then x.pair else y.pair := apply_ite _ c x y

@[simp] theorem ite_boot (c : Prop) [Decidable c] (x y : Block) :
    (if c then x else y).boot = if c then x.boot else y.boot := apply_ite _ c x y

@[simp] theorem ite_mgmt (c : Prop) [Decidable c] (x y : Block) :
    (if c then x else y).mgmt = if c then x.mgmt else y.mgmt := apply_ite _ c x y

@[simp] theorem ite_fuses (c : Prop) [Decidable c] (x y : Block) :
    (if c then x else y).fuses = if c then x.fuses else y.fuses := apply_ite _ c x y

@[simp] theorem ite_fuseBanks (c : Prop) [Decidable c] (x y : Block) :
    (if c then x else y).fuseBanks = if c then x.fuseBanks else y.fuseBanks := apply_ite _ c x y

@[simp] theorem ite_phase (c : Prop) [Decidable c] (x y : Block) :
    (if c then x else y).phase = if c then x.phase else y.phase := apply_ite _ c x y

@[simp] theorem ite_claimSeq (c : Prop) [Decidable c] (x y : Block) :
    (if c then x else y).claimSeq = if c then x.claimSeq else y.claimSeq := apply_ite _ c x y

@[simp] theorem ite_serial (c : Prop) [Decidable c] (x y : Block) :
    (if c then x else y).serial = if c then x.serial else y.serial := apply_ite _ c x y

@[simp] theorem ite_ticks (c : Prop) [Decidable c] (x y : Block) :
    (if c then x else y).ticks = if c then x.ticks else y.ticks := apply_ite _ c x y

@[simp] theorem ite_time (c : Prop) [Decidable c] (x y : Block) :
    (if c then x else y).time = if c then x.time else y.time := apply_ite _ c x y

@[simp] theorem ite_work (c : Prop) [Decidable c] (x y : Block) :
    (if c then x else y).work = if c then x.work else y.work := apply_ite _ c x y

@[simp] theorem ite_out (c : Prop) [Decidable c] (x y : Block) :
    (if c then x else y).out = if c then x.out else y.out := apply_ite _ c x y

@[simp] theorem ite_tw (c : Prop) [Decidable c] (x y : Block) (t : TwinId) :
    tw (if c then x else y) t = if c then tw x t else tw y t := apply_ite (fun b => tw b t) c x y

@[simp] theorem ite_twin_cat (c : Prop) [Decidable c] (x y : Twin) :
    (if c then x else y).cat = if c then x.cat else y.cat := apply_ite _ c x y

@[simp] theorem ite_twin_acc (c : Prop) [Decidable c] (x y : Twin) :
    (if c then x else y).acc = if c then x.acc else y.acc := apply_ite _ c x y

@[simp] theorem ite_twin_rack (c : Prop) [Decidable c] (x y : Twin) :
    (if c then x else y).rack = if c then x.rack else y.rack := apply_ite _ c x y

@[simp] theorem ite_twin_desk (c : Prop) [Decidable c] (x y : Twin) :
    (if c then x else y).desk = if c then x.desk else y.desk := apply_ite _ c x y

@[simp] theorem ite_twin_shelf (c : Prop) [Decidable c] (x y : Twin) :
    (if c then x else y).shelf = if c then x.shelf else y.shelf := apply_ite _ c x y

@[simp] theorem ite_twin_ret (c : Prop) [Decidable c] (x y : Twin) :
    (if c then x else y).ret = if c then x.ret else y.ret := apply_ite _ c x y

@[simp] theorem ite_twin_lard (c : Prop) [Decidable c] (x y : Twin) :
    (if c then x else y).lard = if c then x.lard else y.lard := apply_ite _ c x y

@[simp] theorem ite_twin_obs (c : Prop) [Decidable c] (x y : Twin) :
    (if c then x else y).obs = if c then x.obs else y.obs := apply_ite _ c x y

@[simp] theorem ite_twin_ctxs (c : Prop) [Decidable c] (x y : Twin) :
    (if c then x else y).ctxs = if c then x.ctxs else y.ctxs := apply_ite _ c x y

@[simp] theorem ite_twin_sort (c : Prop) [Decidable c] (x y : Twin) :
    (if c then x else y).sort = if c then x.sort else y.sort := apply_ite _ c x y

@[simp] theorem ite_twin_bank (c : Prop) [Decidable c] (x y : Twin) :
    (if c then x else y).bank = if c then x.bank else y.bank := apply_ite _ c x y

@[simp] theorem ite_twin_office (c : Prop) [Decidable c] (x y : Twin) :
    (if c then x else y).office = if c then x.office else y.office := apply_ite _ c x y

@[simp] theorem ite_twin_bake (c : Prop) [Decidable c] (x y : Twin) :
    (if c then x else y).bake = if c then x.bake else y.bake := apply_ite _ c x y

@[simp] theorem ite_twin_thrd (c : Prop) [Decidable c] (x y : Twin) :
    (if c then x else y).thrd = if c then x.thrd else y.thrd := apply_ite _ c x y

@[simp] theorem ite_twin_rel (c : Prop) [Decidable c] (x y : Twin) :
    (if c then x else y).rel = if c then x.rel else y.rel := apply_ite _ c x y

@[simp] theorem ite_twin_faultQ (c : Prop) [Decidable c] (x y : Twin) :
    (if c then x else y).faultQ = if c then x.faultQ else y.faultQ := apply_ite _ c x y

@[simp] theorem ite_twin_combined (c : Prop) [Decidable c] (x y : Twin) :
    (if c then x else y).combined = if c then x.combined else y.combined := apply_ite _ c x y

@[simp] theorem ite_twin_crossing (c : Prop) [Decidable c] (x y : Twin) :
    (if c then x else y).crossing = if c then x.crossing else y.crossing := apply_ite _ c x y

@[simp] theorem ite_twin_edgeIn (c : Prop) [Decidable c] (x y : Twin) :
    (if c then x else y).edgeIn = if c then x.edgeIn else y.edgeIn := apply_ite _ c x y

@[simp] theorem ite_twin_claimIn (c : Prop) [Decidable c] (x y : Twin) :
    (if c then x else y).claimIn = if c then x.claimIn else y.claimIn := apply_ite _ c x y

@[simp] theorem ite_twin_ctrlIn (c : Prop) [Decidable c] (x y : Twin) :
    (if c then x else y).ctrlIn = if c then x.ctrlIn else y.ctrlIn := apply_ite _ c x y

@[simp] theorem ite_twin_svc (c : Prop) [Decidable c] (x y : Twin) :
    (if c then x else y).svc = if c then x.svc else y.svc := apply_ite _ c x y

@[simp] theorem ite_twin_halted (c : Prop) [Decidable c] (x y : Twin) :
    (if c then x else y).halted = if c then x.halted else y.halted := apply_ite _ c x y

/-! ### Reading what was written -/

@[simp] theorem bump_ctr_same (k off n : Nat) (s : Block) (h : mapWf {} s.pages = true)
    (hc : mapWf 0 (pageOf s k).ctrs = true) : ctr (bump k off n s) k off = satAdd ctrMax (ctr s k off) n := by
  simp [ctr, bump, upPage, pageOf, mapGet_mapSet_same, h] at *
  simp [mapGet_mapSet_same, hc]

@[simp] theorem ctxOf_upCtx_same (k : Nat) (f : Ctx → Ctx) (s : Block) (h : mapWf {} s.ctxs = true) :
    ctxOf (upCtx k f s) k = f (ctxOf s k) := by
  simp [ctxOf, upCtx, mapGet_mapSet_same, h]

@[simp] theorem ctxOf_upCtx_ne (k j : Nat) (f : Ctx → Ctx) (s : Block) (h : j ≠ k) :
    ctxOf (upCtx k f s) j = ctxOf s j := by
  simp [ctxOf, upCtx, mapGet_mapSet_ne, h]

@[simp] theorem engOf_upEng_same (k : Nat) (f : Engine → Engine) (s : Block) (h : mapWf {} s.engines = true) :
    engOf (upEng k f s) k = f (engOf s k) := by
  simp [engOf, upEng, mapGet_mapSet_same, h]

@[simp] theorem engOf_upEng_ne (k j : Nat) (f : Engine → Engine) (s : Block) (h : j ≠ k) :
    engOf (upEng k f s) j = engOf s j := by
  simp [engOf, upEng, mapGet_mapSet_ne, h]

@[simp] theorem pageOf_upPage_same (k : Nat) (f : Page → Page) (s : Block) (h : mapWf {} s.pages = true) :
    pageOf (upPage k f s) k = f (pageOf s k) := by
  simp [pageOf, upPage, mapGet_mapSet_same, h]

@[simp] theorem pageOf_upPage_ne (k j : Nat) (f : Page → Page) (s : Block) (h : j ≠ k) :
    pageOf (upPage k f s) j = pageOf s j := by
  simp [pageOf, upPage, mapGet_mapSet_ne, h]

end Sys2Proof.Machine
end

