-- ==== Sys2Proof/Laws/Deeds.lean ====
section
/-! SUPPORT. Every command's own effect as a function on the block, so that a law about all commands is a law about
these functions: exec runs the command's deed (Machine/Settle.lean, run). -/

namespace Sys2Proof.Machine

/-- The command's own effect, as its meaning in the Rows files gives it. -/
def deed : Instr → Block → Block
  | .claim port word => takeWord (.claim port word)
  | .claimResample eng => resample eng.toNat
  | .accept port r => takeWord (.accept port r)
  | .complete port r => takeWord (.complete port r)
  | .fault port r => takeWord (.fault port r)
  | .acceptTimeout eng => acceptTimeout eng.toNat
  | .laneRefill t lane => onTwin t (laneRefill t (laneKey lane.group.toNat lane.lc lane.level.toNat lane.lane.toNat))
  | .fwdClaim t => (claimCmd t (fun i => match i with
    | .fwdClaim .. => true
    | _ => false))
  | .decline t => (claimCmd t (fun i => match i with
    | .decline .. => true
    | _ => false))
  | .grant t => (claimCmd t (fun i => match i with
    | .grant .. => true
    | _ => false))
  | .grantReturn t => (claimCmd t (fun i => match i with
    | .grantReturn .. => true
    | _ => false))
  | .acceptItem t => (claimCmd t (fun i => match i with
    | .acceptItem .. => true
    | _ => false))
  | .completeItem t => (claimCmd t (fun i => match i with
    | .complete .. => true
    | _ => false))
  | .proxy t => (claimCmd t (fun i => match i with
    | .proxy .. => true
    | _ => false))
  | .proxyGrant t => (claimCmd t (fun i => match i with
    | .proxyGrant .. => true
    | _ => false))
  | .proxyRefused t => (claimCmd t (fun i => match i with
    | .proxyRefused .. => true
    | _ => false))
  | .proxyBack t => (claimCmd t (fun i => match i with
    | .proxyBack .. => true
    | _ => false))
  | .summaryEntry t entry => onTwin t (summaryEntry t entry.toNat)
  | .credit t => (edgeCmd t (fun i => match i with
    | .credit c => !c.skip
    | _ => false))
  | .skipCredit t => (edgeCmd t (fun i => match i with
    | .credit c => c.skip
    | _ => false))
  | .wheelWalk t => onTwin t (wheelWalk t)
  | .nodeWrite src ctx off data => windowBytes src ctx.toNat off.toNat data
  | .edgeWrite src ctx off data => windowBytes src ctx.toNat off.toNat data
  | .reservedAreaWrite src ctx _ => windowTake src ctx.toNat [.reserved]
  | .nodeBank src ctx whole operand => windowCmd src ctx.toNat 0xF000 whole (.nodeBank operand.toNat)
  | .edgeBank src ctx whole operand => windowCmd src ctx.toNat 0xF008 whole (.edgeBank operand.toNat)
  | .rearm src ctx whole => windowCmd src ctx.toNat 0xF010 whole .rearm
  | .mirrorClose src ctx whole => windowCmd src ctx.toNat 0xF018 whole .mirrorClose
  | .mirrorCloseEffect t ctx => onTwin t (mirrorCloseEffect t ctx.toNat)
  | .release src ctx whole => windowCmd src ctx.toNat 0xF020 whole .release
  | .mark src ctx whole operand => windowCmd src ctx.toNat 0xF028 whole (.mark operand.toNat)
  | .parkedWrite ctx => parkedWrite ctx.toNat
  | .sweepEnd t ctx => onTwin t (sweepEnd t ctx.toNat)
  | .mirrorRequest t => (edgeCmd t (fun i => match i with
    | .mirrorReq .. => true
    | _ => false))
  | .mirrorAppend t => (edgeCmd t (fun i => match i with
    | .append .. => true
    | _ => false))
  | .mirrorAck t => (edgeCmd t (fun i => match i with
    | .mirrorAck .. => true
    | _ => false))
  | .closeMarker t => (edgeCmd t (fun i => match i with
    | .closeMarker .. => true
    | _ => false))
  | .targetRead t => (edgeCmd t (fun i => match i with
    | .targetRead .. => true
    | _ => false))
  | .targetAnswer t => (edgeCmd t (fun i => match i with
    | .targetAns .. => true
    | _ => false))
  | .moveReq t => (edgeCmd t (fun i => match i with
    | .moveReq .. => true
    | _ => false))
  | .loc t => (edgeCmd t (fun i => match i with
    | .loc .. => true
    | _ => false))
  | .locAck t => (edgeCmd t (fun i => match i with
    | .locAck .. => true
    | _ => false))
  | .writerInc t => (edgeCmd t (fun i => match i with
    | .writerInc .. => true
    | _ => false))
  | .writerDec t => (edgeCmd t (fun i => match i with
    | .writerDec .. => true
    | _ => false))
  | .service t => (edgeCmd t (fun i => match i with
    | .service .. => true
    | _ => false))
  | .descWriteAck shard => onTwin (ownerOf shard.toNat) (descAnswer shard.toNat true)
  | .descWriteError shard => onTwin (ownerOf shard.toNat) (descAnswer shard.toNat false)
  | .shardAlloc src ctx cluster toCluster pin =>
    pageCmd src (ctxKey ctx.toNat) (shardAlloc ctx.toNat cluster.toNat toCluster pin)
  | .shardFree src ctx => pageCmd src (ctxKey ctx.toNat) (shardFree ctx.toNat)
  | .shardMove src ctx cluster toCluster => pageCmd src (ctxKey ctx.toNat) (shardMove ctx.toNat cluster.toNat toCluster)
  | .shardQuery src ctx => pageCmd src (ctxKey ctx.toNat) (shardQuery ctx.toNat)
  | .engineRemove src t wholePort eng => pageCmd src (twKey t shlfP) (engineCtl t false wholePort eng.toNat)
  | .engineRestore src t wholePort eng => pageCmd src (twKey t shlfP) (engineCtl t true wholePort eng.toNat)
  | .flushReq t => (edgeCmd t (fun i => match i with
    | .flushReq .. => true
    | _ => false))
  | .flushDone t => (edgeCmd t (fun i => match i with
    | .flushDone .. => true
    | _ => false))
  | .flushAckRead cluster answer => flushAckRead cluster.toNat (answer.map (·.toNat))
  | .flushRetry what => (match what with
    | .flush cluster => flushRetry cluster.toNat
    | .drain t => drainRetry t)
  | .flushTimeout cluster => flushTimeout cluster.toNat
  | .drainReadAnswer t point ok => drainAnswer t point ok
  | .drainTimeout t => drainTimeout t
  | .offer t => (edgeCmd t (fun i => match i with
    | .offer .. => true
    | _ => false))
  | .answer t => (edgeCmd t (fun i => match i with
    | .answer .. => true
    | _ => false))
  | .gRead t => (edgeCmd t (fun i => match i with
    | .gRead .. => true
    | _ => false))
  | .gData t => (edgeCmd t (fun i => match i with
    | .gData .. => true
    | _ => false))
  | .gMark t => (edgeCmd t (fun i => match i with
    | .gMark .. => true
    | _ => false))
  | .trigger t => (edgeCmd t (fun i => match i with
    | .trigger .. => true
    | _ => false))
  | .releaseItem t => (edgeCmd t (fun i => match i with
    | .release .. => true
    | _ => false))
  | .recipeSweepEnd => recipeSweepEnd
  | .headerReadDone t slot header => headerReadDone t slot.toNat (header.map (·.toNat))
  | .scoreReadDone t slot line scores => scoreReadDone t slot.toNat line (scores.map (·.toNat))
  | .selectionWriteAck t slot => selectionWriteAck t slot.toNat
  | .batch t => (edgeCmd t (fun i => match i with
    | .batch .. => true
    | _ => false))
  | .sortCancel src ctx => pageCmd src (ctxKey ctx.toNat) (sortCancel ctx.toNat)
  | .epochBump t => (edgeCmd t (fun i => match i with
    | .epochBump .. => true
    | _ => false))
  | .cancelPoint ctx => cancelPoint ctx.toNat
  | .routeIo t slot which => routeIo t slot.toNat which
  | .tallyPacket packet => tallyPacket packet.toNat
  | .tallyTick => tallyTick
  | .tallyAlloc src ctx => pageCmd src (ctxKey ctx.toNat) (tallyCommand ctx.toNat 1)
  | .tallyFree src ctx => pageCmd src (ctxKey ctx.toNat) (tallyCommand ctx.toNat 2)
  | .tallyArm src ctx => pageCmd src (ctxKey ctx.toNat) (tallyCommand ctx.toNat 3)
  | .tallyDisarm src ctx => pageCmd src (ctxKey ctx.toNat) (tallyCommand ctx.toNat 4)
  | .tallyResume src ctx => pageCmd src (ctxKey ctx.toNat) (tallyCommand ctx.toNat 5)
  | .tallyReset src ctx => pageCmd src (ctxKey ctx.toNat) (tallyCommand ctx.toNat 6)
  | .tallyAdd src ctx => pageCmd src (ctxKey ctx.toNat) (tallyCommand ctx.toNat 7)
  | .tallyQuery src ctx => pageCmd src (ctxKey ctx.toNat) (tallyCommand ctx.toNat 8)
  | .tubeOpen src ctx => pageCmd src (ctxKey ctx.toNat) (tubeOpen ctx.toNat)
  | .tubeClose src ctx => pageCmd src (ctxKey ctx.toNat) (tubeClose ctx.toNat)
  | .tubeQuery src ctx => pageCmd src (ctxKey ctx.toNat) (tubeQuery ctx.toNat)
  | .epWriteAck tube => epWriteAck tube.toNat
  | .epReadAnswer tube => epReadAnswer tube.toNat
  | .tubeIo tube => tubeIo tube.toNat
  | .txSend tag eng slot len srcOff beats =>
    onCluster eng.toNat (txSend tag.toNat eng.toNat slot.toNat len.toNat srcOff.toNat (beats.map (·.toNat)))
  | .beatArrival eng slot => onCluster eng.toNat (beatArrival eng.toNat slot.toNat)
  | .rxMbox tag eng slot => onCluster eng.toNat (rxMbox tag.toNat eng.toNat slot.toNat)
  | .rxDone tag eng slot => onCluster eng.toNat (rxEnd false tag.toNat eng.toNat slot.toNat)
  | .rxDrop tag eng slot => onCluster eng.toNat (rxEnd true tag.toNat eng.toNat slot.toNat)
  | .creditReturn eng slot => onCluster eng.toNat (creditReturn eng.toNat slot.toNat)
  | .bowlOpen src ctx => pageCmd src (ctxKey ctx.toNat) (bowlOpen ctx.toNat)
  | .bowlClose src ctx => pageCmd src (ctxKey ctx.toNat) (bowlClose ctx.toNat)
  | .bowlQuery src ctx => pageCmd src (ctxKey ctx.toNat) (bowlQuery ctx.toNat)
  | .bowlReset src ctx => pageCmd src (ctxKey ctx.toNat) (bowlReset ctx.toNat)
  | .bowlPut src t put => putAccess src t (bowlPut t put.toNat)
  | .blockHeaderRead bowl header => blockHeaderRead bowl.toNat (header.map (·.toNat))
  | .selectionRead bowl header counts => selectionRead bowl.toNat (header.map (·.toNat)) (counts.map (·.toNat))
  | .resultWriteAck bowl => resultWriteAck bowl.toNat
  | .bowlIo bowl => bowlIo bowl.toNat
  | .ctxOpen src home => pageCmd src blkKey (ctxOpen home)
  | .openEffect ctx => openEffect ctx.toNat
  | .ctxClose src => pageCmd src blkKey ctxClose
  | .ctxFault src => pageCmd src blkKey ctxFault
  | .ctxCtlClose src ctx => pageCmd src (ctxKey ctx.toNat) (ctxCtlClose ctx.toNat)
  | .fenceItem t => fenceItem t
  | .fenceEffect t ctx => fenceEffect t ctx.toNat
  | .teardownStart t => teardownStart t
  | .tear t => tearAt t
  | .swept t => sweptAt t
  | .engineWaitEnd t => engineWaitEnd t
  | .engineWaitLimit t => engineWaitLimit t
  | .scrubPoll t what answer => scrubPoll t what (answer.map (·.toNat))
  | .scrubLimit t => scrubLimit t
  | .bakeTick => bakeTick
  | .bakeSlotWrite src t acc value => pageCmd src (twKey t bakeP) (writeSlot t acc value.toNat)
  | .notifyRequest ctx => notifyRequest ctx.toNat
  | .msixUnmask src ctx vec acc value => pageCmd src (ctxKey ctx.toNat) (writeMsix ctx.toNat vec.toNat acc value.toNat)
  | .notifyTailWrite src ctx acc value => pageCmd src (ctxKey ctx.toNat) (writeTail ctx.toNat acc value.toNat)
  | .hostAccessDenied port fn addr isRead => hostAccessDenied port.toNat fn.toNat addr.toNat isRead
  | .ask core => takeWord (.ask core)
  | .reportYield core thread asks => takeWord (.reportYield core thread asks)
  | .reportWait core thread asks arg => takeWord (.reportWait core thread asks arg)
  | .reportDelay core thread asks arg => takeWord (.reportDelay core thread asks arg)
  | .reportPreempted core thread asks => takeWord (.reportPreempted core thread asks)
  | .reportExit core thread asks => takeWord (.reportExit core thread asks)
  | .reportFault core thread asks => takeWord (.reportFault core thread asks)
  | .wake core thread => takeWord (.wake core thread)
  | .wakeItem t => (edgeCmd t (fun i => match i with
    | .wake .. => true
    | _ => false))
  | .deskAsk t => deskAsk t
  | .threadOffer t => threadOffer t
  | .noneAnswer t => noneAnswer t
  | .takeThread t => takeThread t
  | .threadRelease t => threadRelease t
  | .offerWindow core => offerWindow core.toNat
  | .threadSummary t => threadSummary t
  | .preemptLimit core => preemptLimit core.toNat
  | .delayTick => delayTick
  | .threadCreate src t start => pageCmd src (twKey t thrdP) (threadCreate t start)
  | .threadDestroy src t => pageCmd src (twKey t thrdP) (threadDestroy t)
  | .threadSet src t => pageCmd src (twKey t thrdP) (threadSet t)
  | .threadCmdWake src t => pageCmd src (twKey t thrdP) (threadCmdWake t)
  | .threadQuery src t => pageCmd src (twKey t thrdP) (threadQuery t)
  | .coreRemove src t core => pageCmd src (twKey t thrdP) (coreRemove core.toNat)
  | .coreRestore src t core => pageCmd src (twKey t thrdP) (coreRestore core.toNat)
  | .idleExpiry dom => idleExpiry dom.toNat
  | .hold dom => holdAt dom.toNat
  | .abort dom => abortAt dom.toNat
  | .withdrawn dom => withdrawnAt dom.toNat
  | .obEmpty dom => obEmpty dom.toNat
  | .stopTimeout dom => stopTimeout dom.toNat
  | .gateExpiry dom => gateExpiry dom.toNat
  | .accessWake cluster => accessWake cluster.toNat
  | .clkOk dom => clkOk dom.toNat
  | .bankPowerGood cluster bank => bankPowerGood cluster.toNat bank.toNat
  | .cluCtlWrite src acc value => pageCmd src pwrKey (fun s => if covers acc 0 then cluCtl value.toNat s else s)
  | .clockStretch dom => clockStretch dom.toNat
  | .capPeriod => capPeriod
  | .pmbusReading w1 w2 => pmbusReading w1.toNat w2.toNat
  | .pmbusReadingLost => pmbusLost
  | .pmbAlert statusWord => pmbAlert statusWord.toNat
  | .avsAck rail => avsAck rail
  | .avsFail rail => avsFail rail
  | .settleExpiry => settleExpiry
  | .clockSwitched => clockSwitched
  | .blockGate src => pageCmd src pwrKey blockGate
  | .timeLoad src value => pageCmd src timeKey (timeLoad value.toNat)
  | .timeSlew src value => pageCmd src timeKey (timeSlew value.toNat)
  | .patrolRead t group bank word err => patrolRead t group.toNat bank.toNat word.toNat err
  | .bankCopyEnd t => bankCopyEnd t
  | .marchTestEnd t failingRows => marchTestEnd t failingRows
  | .errInjectWrite src page acc value => pageCmd src (keyOf page) (writeInject (keyOf page) acc value.toNat)
  | .heartbeat t => heartbeat t
  | .heartbeatTimeout t => heartbeatTimeout t
  | .watchdog t => watchdog t
  | .wdogKick src t value => pageCmd src (twKey t relP) (wdogKick t value.toNat)
  | .fatal t => fatalAt t
  | .latchAnswer => latchAnswer
  | .recordSweepEnd t => recordSweepEnd t
  | .dumpEnd t sections poison => dumpEnd t sections.toNat (poison.map fun p => (p.1.toNat, p.2.toNat))
  | .detach src t => pageCmd src blkKey (pairCtl (detach t))
  | .detachDrained t => detachDrained t
  | .handover t => handoverAt t
  | .fullSelfTestEnd t fails logicOk => fullSelfTestEnd t (fails.map failNat) logicOk
  | .rejoin src t => pageCmd src blkKey (pairCtl (rejoin t))
  | .resync t => resyncAt t
  | .fail src t => pageCmd src blkKey (pairCtl (failTwin t))
  | .recover src t => pageCmd src blkKey (pairCtl (recover t))
  | .freeze src => pageCmd src blkKey (freezeCmd 0)
  | .freezeHalt src twins => pageCmd src blkKey (freezeCmd twins.toNat)
  | .freezeItem t => freezeItem t
  | .freezeApply => freezeApply
  | .thaw src => pageCmd src blkKey thawCmd
  | .thawApply => thawApply
  | .haltLimit t => haltLimit t
  | .optStart src t first last => pageCmd src (twKey t cntP) (optCmd t true first.toNat last.toNat)
  | .optStop src t first last => pageCmd src (twKey t cntP) (optCmd t false first.toNat last.toNat)
  | .ringWriteAck t => ringWriteAck t
  | .ringIo t => ringIo t
  | .daybRdWrite src t acc value => pageCmd src (twKey t daybP) (daybRdWrite t acc value.toNat)
  | .wfgGo src t all ctx => pageCmd src (twKey t daybP) (wfgGo t all ctx.toNat)
  | .wfgEnd t => wfgEnd t
  | .invSel src t acc value => pageCmd src (twKey t invP) (invSel t acc value.toNat)
  | .invReadDone t => invReadDone t
  | .hwClr src t page => pageCmd src (twKey t (hwClrP page)) (hwClr t page)
  | .coldReset => coldReset
  | .pinReset => pinReset
  | .softReset src value => pageCmd src blkKey (softReset value.toNat)
  | .hostWake => hostWake
  | .deskClockLocked => deskClockLocked
  | .islandPowerGood island => islandPowerGood island
  | .zeroEnd => zeroEnd
  | .bootPoll t answer => bootPoll t (answer.map (·.toNat))
  | .imageLoadEnd t header image ioError => imageLoadEnd t (header.map (·.toNat)) image ioError
  | .patternCheckEnd ok0 ok1 => patternCheckEnd ok0 ok1
  | .portReady port => portReady (portNum port)
  | .domainGroupStart => domainGroupStart
  | .managerSet port fn => managerSet port.toNat fn.toNat
  | .bootRun src value => pageCmd src blkKey (bootRun value.toNat)
  | .fuseBurn t group bank ok => fuseBurn t group.toNat bank.toNat ok
  | .pageEnable src page value => pageCmd src (keyOf page) (pageEnable (keyOf page) value)
  | .commit src page => pageCmd src (keyOf page) (commitPage (keyOf page))
  | .shadowApply ctx => shadowApply ctx.toNat
  | .discard src page => pageCmd src (keyOf page) (discardPage (keyOf page))
  | .registerWrite src addr size value => onSlot addr (writeAt src addr size value.toNat)
  | .segmentOpen who seg => segmentOpen who seg
  | .segmentClose who seg => segmentClose who seg
  | .sourceCopyEnd eng slot => onCluster eng.toNat (sourceCopyEnd eng.toNat slot.toNat)
  | .blockDataRead bowl block result => blockDataRead bowl.toNat (block.map (·.toNat)) (result.map (·.toNat))
  | .registerRead src addr size => onSlot addr (readAt src addr size)

theorem exec_deed (c : Instr) (s : State) : exec c s = runReading (readsOf c) (deed c) s := by
  cases c <;> rfl

/-- A command's next state: the block after its deed and what follows from it; the queue is the state's. -/
theorem exec_next (c : Instr) (s : State) : exec c s = .next { s with blk := effect (readsOf c) (deed c) s.blk } :=
  exec_deed c s

theorem exec_blk {c : Instr} {s t : State} (h : exec c s = .next t) : t.blk = effect (readsOf c) (deed c) s.blk := by
  rw [exec_next] at h
  cases h
  rfl

end Sys2Proof.Machine
end

