-- ==== Sys2Proof/Laws/StoresBase.lean ====
section
/-! SUPPORT. The canonical form of the sparse stores (Safety.lean, storesWf): its parts, and what setting one store asks. -/

namespace Sys2Proof.Machine

open Sys2Proof.Safety

set_option maxRecDepth 8000
set_option linter.unusedTactic false
set_option linter.unreachableTactic false
set_option linter.unusedSimpArgs false
set_option linter.unusedVariables false

@[simp] theorem catWf_mk (a0 a1 a2 a3 a4 a5 a6) :
    catWf (⟨a0, a1, a2, a3, a4, a5, a6⟩ : Cat) = (mapWf {} a0 && mapWf 0 a1 && mapWf 0 a2 && mapWf [] a3) := rfl

@[simp] theorem catWf_nodes {c : Cat} (h : catWf c = true) : mapWf {} c.nodes = true := by
  simp only [catWf, Bool.and_eq_true] at h
  exact h.1.1.1

@[simp] theorem catWf_fwd {c : Cat} (h : catWf c = true) : mapWf 0 c.fwd = true := by
  simp only [catWf, Bool.and_eq_true] at h
  exact h.1.1.2

@[simp] theorem catWf_mir {c : Cat} (h : catWf c = true) : mapWf 0 c.mir = true := by
  simp only [catWf, Bool.and_eq_true] at h
  exact h.1.2

@[simp] theorem catWf_wheel {c : Cat} (h : catWf c = true) : mapWf [] c.wheel = true := by
  simp only [catWf, Bool.and_eq_true] at h
  exact h.2

@[simp] theorem accWf_mk (a0 a1 a2) :
    accWf (⟨a0, a1, a2⟩ : Acc) = (mapWf false a0) := rfl

@[simp] theorem accWf_locks {c : Acc} (h : accWf c = true) : mapWf false c.locks = true := h

@[simp] theorem rackWf_mk (a0 a1 a2 a3 a4 a5 a6 a7) :
    rackWf (⟨a0, a1, a2, a3, a4, a5, a6, a7⟩ : Rack) = (mapWf {} a0 && mapWf [] a1 && mapWf 0 a3 && mapWf 0 a4 && mapWf 0 a6 && mapWf 0 a7 && mapWf (0, 0) a5) := rfl

@[simp] theorem rackWf_lanes {c : Rack} (h : rackWf c = true) : mapWf {} c.lanes = true := by
  simp only [rackWf, Bool.and_eq_true] at h
  exact h.1.1.1.1.1.1

@[simp] theorem rackWf_proxyOut {c : Rack} (h : rackWf c = true) : mapWf [] c.proxyOut = true := by
  simp only [rackWf, Bool.and_eq_true] at h
  exact h.1.1.1.1.1.2

@[simp] theorem rackWf_rr {c : Rack} (h : rackWf c = true) : mapWf 0 c.rr = true := by
  simp only [rackWf, Bool.and_eq_true] at h
  exact h.1.1.1.1.2

@[simp] theorem rackWf_mix {c : Rack} (h : rackWf c = true) : mapWf 0 c.mix = true := by
  simp only [rackWf, Bool.and_eq_true] at h
  exact h.1.1.1.2

@[simp] theorem rackWf_sumRx {c : Rack} (h : rackWf c = true) : mapWf 0 c.sumRx = true := by
  simp only [rackWf, Bool.and_eq_true] at h
  exact h.1.1.2

@[simp] theorem rackWf_sumAt {c : Rack} (h : rackWf c = true) : mapWf 0 c.sumAt = true := by
  simp only [rackWf, Bool.and_eq_true] at h
  exact h.1.2

@[simp] theorem rackWf_sumTx {c : Rack} (h : rackWf c = true) : mapWf (0, 0) c.sumTx = true := by
  simp only [rackWf, Bool.and_eq_true] at h
  exact h.2

@[simp] theorem deskWf_mk (a0 a1 a2 a3 a4) :
    deskWf (⟨a0, a1, a2, a3, a4⟩ : Desk) = (mapWf {} a0) := rfl

@[simp] theorem deskWf_recs {c : Desk} (h : deskWf c = true) : mapWf {} c.recs = true := h

@[simp] theorem shelfWf_mk (a0 a1 a2 a3 a4 a5 a6 a7 a8) :
    shelfWf (⟨a0, a1, a2, a3, a4, a5, a6, a7, a8⟩ : Shelf) = (mapWf {} a0 && mapWf 0xFF a1 && mapWf {} a4 && mapWf false a6 && mapWf 0 a7) := rfl

@[simp] theorem shelfWf_shards {c : Shelf} (h : shelfWf c = true) : mapWf {} c.shards = true := by
  simp only [shelfWf, Bool.and_eq_true] at h
  exact h.1.1.1.1

@[simp] theorem shelfWf_locs {c : Shelf} (h : shelfWf c = true) : mapWf 0xFF c.locs = true := by
  simp only [shelfWf, Bool.and_eq_true] at h
  exact h.1.1.1.2

@[simp] theorem shelfWf_waits {c : Shelf} (h : shelfWf c = true) : mapWf {} c.waits = true := by
  simp only [shelfWf, Bool.and_eq_true] at h
  exact h.1.1.2

@[simp] theorem shelfWf_served {c : Shelf} (h : shelfWf c = true) : mapWf false c.served = true := by
  simp only [shelfWf, Bool.and_eq_true] at h
  exact h.1.2

@[simp] theorem shelfWf_owners {c : Shelf} (h : shelfWf c = true) : mapWf 0 c.owners = true := by
  simp only [shelfWf, Bool.and_eq_true] at h
  exact h.2

@[simp] theorem retWf_mk (a0 a1 a2 a3 a4 a5 a6 a7 a8 a9) :
    retWf (⟨a0, a1, a2, a3, a4, a5, a6, a7, a8, a9⟩ : Ret) = (mapWf {} a0) := rfl

@[simp] theorem retWf_narrow {c : Ret} (h : retWf c = true) : mapWf {} c.narrow = true := h

@[simp] theorem lardWf_mk (a0 a1 a2 a3 a4) :
    lardWf (⟨a0, a1, a2, a3, a4⟩ : Lard) = (mapWf {} a0 && mapWf [] a1) := rfl

@[simp] theorem lardWf_table {c : Lard} (h : lardWf c = true) : mapWf {} c.table = true := by
  simp only [lardWf, Bool.and_eq_true] at h
  exact h.1

@[simp] theorem lardWf_offers {c : Lard} (h : lardWf c = true) : mapWf [] c.offers = true := by
  simp only [lardWf, Bool.and_eq_true] at h
  exact h.2

@[simp] theorem obsWf_mk (a0 a1 a2 a3 a4 a5 a6 a7 a8 a9 a10 a11 a12 a13 a14 a15 a16) :
    obsWf (⟨a0, a1, a2, a3, a4, a5, a6, a7, a8, a9, a10, a11, a12, a13, a14, a15, a16⟩ : Obs) = (mapWf {} a12 && mapWf {} a13) := rfl

@[simp] theorem obsWf_ports {c : Obs} (h : obsWf c = true) : mapWf {} c.ports = true := by
  simp only [obsWf, Bool.and_eq_true] at h
  exact h.1

@[simp] theorem obsWf_opts {c : Obs} (h : obsWf c = true) : mapWf {} c.opts = true := by
  simp only [obsWf, Bool.and_eq_true] at h
  exact h.2

@[simp] theorem sortWf_mk (a0 a1 a2 a3 a4) :
    sortWf (⟨a0, a1, a2, a3, a4⟩ : Sorter) = (mapWf {} a0 && mapWf {} a2 && mapWf 0 a3) := rfl

@[simp] theorem sortWf_slots {c : Sorter} (h : sortWf c = true) : mapWf {} c.slots = true := by
  simp only [sortWf, Bool.and_eq_true] at h
  exact h.1.1

@[simp] theorem sortWf_mir {c : Sorter} (h : sortWf c = true) : mapWf {} c.mir = true := by
  simp only [sortWf, Bool.and_eq_true] at h
  exact h.1.2

@[simp] theorem sortWf_bind {c : Sorter} (h : sortWf c = true) : mapWf 0 c.bind = true := by
  simp only [sortWf, Bool.and_eq_true] at h
  exact h.2

@[simp] theorem bankWf_mk (a0 a1 a2 a3 a4 a5 a6 a7 a8) :
    bankWf (⟨a0, a1, a2, a3, a4, a5, a6, a7, a8⟩ : Bank) = (mapWf {} a0 && mapWf 0 a8) := rfl

@[simp] theorem bankWf_ents {c : Bank} (h : bankWf c = true) : mapWf {} c.ents = true := by
  simp only [bankWf, Bool.and_eq_true] at h
  exact h.1

@[simp] theorem bankWf_events {c : Bank} (h : bankWf c = true) : mapWf 0 c.events = true := by
  simp only [bankWf, Bool.and_eq_true] at h
  exact h.2

@[simp] theorem officeWf_mk (a0 a1 a2) :
    officeWf (⟨a0, a1, a2⟩ : Office) = (mapWf {} a0 && mapWf {} a1) := rfl

@[simp] theorem officeWf_tubes {c : Office} (h : officeWf c = true) : mapWf {} c.tubes = true := by
  simp only [officeWf, Bool.and_eq_true] at h
  exact h.1

@[simp] theorem officeWf_bowls {c : Office} (h : officeWf c = true) : mapWf {} c.bowls = true := by
  simp only [officeWf, Bool.and_eq_true] at h
  exact h.2

@[simp] theorem bakeWf_mk (a0 a1 a2 a3 a4 a5) :
    bakeWf (⟨a0, a1, a2, a3, a4, a5⟩ : Bake) = (mapWf 0 a0 && mapWf 0 a4) := rfl

@[simp] theorem bakeWf_slots {c : Bake} (h : bakeWf c = true) : mapWf 0 c.slots = true := by
  simp only [bakeWf, Bool.and_eq_true] at h
  exact h.1

@[simp] theorem bakeWf_caps {c : Bake} (h : bakeWf c = true) : mapWf 0 c.caps = true := by
  simp only [bakeWf, Bool.and_eq_true] at h
  exact h.2

@[simp] theorem thrdWf_mk (a0 a1 a2 a3 a4 a5 a6 a7 a8 a9) :
    thrdWf (⟨a0, a1, a2, a3, a4, a5, a6, a7, a8, a9⟩ : ThreadDesk) = (mapWf {} a0) := rfl

@[simp] theorem thrdWf_ents {c : ThreadDesk} (h : thrdWf c = true) : mapWf {} c.ents = true := h

@[simp] theorem relWf_mk (a0 a1 a2 a3 a4 a5 a6 a7 a8 a9) :
    relWf (⟨a0, a1, a2, a3, a4, a5, a6, a7, a8, a9⟩ : RelUnit) = (mapWf (0, 0) a0 && mapWf {} a2) := rfl

@[simp] theorem relWf_log {c : RelUnit} (h : relWf c = true) : mapWf (0, 0) c.log = true := by
  simp only [relWf, Bool.and_eq_true] at h
  exact h.1

@[simp] theorem relWf_groups {c : RelUnit} (h : relWf c = true) : mapWf {} c.groups = true := by
  simp only [relWf, Bool.and_eq_true] at h
  exact h.2

@[simp] theorem arbWf_mk (a0 a1 a2 a3) :
    arbWf (⟨a0, a1, a2, a3⟩ : Arb) = (mapWf {} a0 && mapWf 0 a1 && mapWf 0 a2) := rfl

@[simp] theorem arbWf_cores {c : Arb} (h : arbWf c = true) : mapWf {} c.cores = true := by
  simp only [arbWf, Bool.and_eq_true] at h
  exact h.1.1

@[simp] theorem arbWf_sum0 {c : Arb} (h : arbWf c = true) : mapWf 0 c.sum0 = true := by
  simp only [arbWf, Bool.and_eq_true] at h
  exact h.1.2

@[simp] theorem arbWf_sum1 {c : Arb} (h : arbWf c = true) : mapWf 0 c.sum1 = true := by
  simp only [arbWf, Bool.and_eq_true] at h
  exact h.2

@[simp] theorem proofWf_mk (a0 a1 a2 a3 a4 a5 a6 a7 a8 a9 a10 a11 a12 a13 a14 a15 a16 a17 a18) :
    proofWf (⟨a0, a1, a2, a3, a4, a5, a6, a7, a8, a9, a10, a11, a12, a13, a14, a15, a16, a17, a18⟩ : Proofer) = (mapWf {} a0 && mapWf 0 a5 && mapWf 0 a6 && mapWf 0 a18) := rfl

@[simp] theorem proofWf_doms {c : Proofer} (h : proofWf c = true) : mapWf {} c.doms = true := by
  simp only [proofWf, Bool.and_eq_true] at h
  exact h.1.1.1

@[simp] theorem proofWf_banks {c : Proofer} (h : proofWf c = true) : mapWf 0 c.banks = true := by
  simp only [proofWf, Bool.and_eq_true] at h
  exact h.1.1.2

@[simp] theorem proofWf_rising {c : Proofer} (h : proofWf c = true) : mapWf 0 c.rising = true := by
  simp only [proofWf, Bool.and_eq_true] at h
  exact h.1.2

@[simp] theorem proofWf_events {c : Proofer} (h : proofWf c = true) : mapWf 0 c.events = true := by
  simp only [proofWf, Bool.and_eq_true] at h
  exact h.2

@[simp] theorem twinWf_mk (a0 a1 a2 a3 a4 a5 a6 a7 a8 a9 a10 a11 a12 a13 a14 a15 a16 a17 a18 a19 a20 a21 a22) :
    twinWf (⟨a0, a1, a2, a3, a4, a5, a6, a7, a8, a9, a10, a11, a12, a13, a14, a15, a16, a17, a18, a19, a20, a21, a22⟩ : Twin) =
      (catWf a0 && accWf a1 && rackWf a2 && deskWf a3 && shelfWf a4 && retWf a5 && lardWf a6 && obsWf a7 && mapWf {} a8 && sortWf a9 && bankWf a10 && officeWf a11 && bakeWf a12 && thrdWf a13 && relWf a14) := rfl

@[simp] theorem twinWf_cat {c : Twin} (h : twinWf c = true) : catWf c.cat = true := by
  simp only [twinWf, Bool.and_eq_true] at h
  exact h.1.1.1.1.1.1.1.1.1.1.1.1.1.1

@[simp] theorem twinWf_acc {c : Twin} (h : twinWf c = true) : accWf c.acc = true := by
  simp only [twinWf, Bool.and_eq_true] at h
  exact h.1.1.1.1.1.1.1.1.1.1.1.1.1.2

@[simp] theorem twinWf_rack {c : Twin} (h : twinWf c = true) : rackWf c.rack = true := by
  simp only [twinWf, Bool.and_eq_true] at h
  exact h.1.1.1.1.1.1.1.1.1.1.1.1.2

@[simp] theorem twinWf_desk {c : Twin} (h : twinWf c = true) : deskWf c.desk = true := by
  simp only [twinWf, Bool.and_eq_true] at h
  exact h.1.1.1.1.1.1.1.1.1.1.1.2

@[simp] theorem twinWf_shelf {c : Twin} (h : twinWf c = true) : shelfWf c.shelf = true := by
  simp only [twinWf, Bool.and_eq_true] at h
  exact h.1.1.1.1.1.1.1.1.1.1.2

@[simp] theorem twinWf_ret {c : Twin} (h : twinWf c = true) : retWf c.ret = true := by
  simp only [twinWf, Bool.and_eq_true] at h
  exact h.1.1.1.1.1.1.1.1.1.2

@[simp] theorem twinWf_lard {c : Twin} (h : twinWf c = true) : lardWf c.lard = true := by
  simp only [twinWf, Bool.and_eq_true] at h
  exact h.1.1.1.1.1.1.1.1.2

@[simp] theorem twinWf_obs {c : Twin} (h : twinWf c = true) : obsWf c.obs = true := by
  simp only [twinWf, Bool.and_eq_true] at h
  exact h.1.1.1.1.1.1.1.2

@[simp] theorem twinWf_ctxs {c : Twin} (h : twinWf c = true) : mapWf {} c.ctxs = true := by
  simp only [twinWf, Bool.and_eq_true] at h
  exact h.1.1.1.1.1.1.2

@[simp] theorem twinWf_sort {c : Twin} (h : twinWf c = true) : sortWf c.sort = true := by
  simp only [twinWf, Bool.and_eq_true] at h
  exact h.1.1.1.1.1.2

@[simp] theorem twinWf_bank {c : Twin} (h : twinWf c = true) : bankWf c.bank = true := by
  simp only [twinWf, Bool.and_eq_true] at h
  exact h.1.1.1.1.2

@[simp] theorem twinWf_office {c : Twin} (h : twinWf c = true) : officeWf c.office = true := by
  simp only [twinWf, Bool.and_eq_true] at h
  exact h.1.1.1.2

@[simp] theorem twinWf_bake {c : Twin} (h : twinWf c = true) : bakeWf c.bake = true := by
  simp only [twinWf, Bool.and_eq_true] at h
  exact h.1.1.2

@[simp] theorem twinWf_thrd {c : Twin} (h : twinWf c = true) : thrdWf c.thrd = true := by
  simp only [twinWf, Bool.and_eq_true] at h
  exact h.1.2

@[simp] theorem twinWf_rel {c : Twin} (h : twinWf c = true) : relWf c.rel = true := by
  simp only [twinWf, Bool.and_eq_true] at h
  exact h.2

@[simp] theorem storesWf_same (s : Block) (a9 a11 a15 a16 a19 a20 a21 a22 a23 a24 a25 a26) :
    storesWf ⟨s.tw0, s.tw1, s.ctxs, s.pages, s.engines, s.flushes, s.holds, s.sendEps, s.recvEps, a9, s.fmt, a11, s.arb, s.proof, s.pair, a15, a16, s.fuses, s.fuseBanks, a19, a20, a21, a22, a23, a24, a25, a26⟩ = storesWf s := rfl

@[simp low] theorem storesWf_mk (a0 a1 a2 a3 a4 a5 a6 a7 a8 a9 a10 a11 a12 a13 a14 a15 a16 a17 a18 a19 a20 a21 a22 a23 a24 a25 a26) :
    storesWf ⟨a0, a1, a2, a3, a4, a5, a6, a7, a8, a9, a10, a11, a12, a13, a14, a15, a16, a17, a18, a19, a20, a21, a22, a23, a24, a25, a26⟩ =
      (twinWf a0 && twinWf a1 && mapWf {} a2 && pagesWf a3 && mapWf {} a4 && mapWf {} a5 && mapWf false a6 && mapWf {} a7 && mapWf {} a8 && mapWf {} a10.entries && arbWf a12 && proofWf a13 && mapWf 0 a17 && mapWf {} a14.groups && mapWf 0 a18) := rfl

@[simp] theorem storesWf_tw0 {b : Block} (h : storesWf b = true) : twinWf b.tw0 = true := by
  simp only [storesWf, Bool.and_eq_true] at h
  exact h.1.1.1.1.1.1.1.1.1.1.1.1.1.1

theorem storesWf_tw0_set (b : Block) (m : Twin) (h : storesWf b = true) (hm : twinWf m = true) :
    storesWf { b with tw0 := m } = true := by
  simp only [storesWf, Bool.and_eq_true] at h ⊢
  exact ⟨⟨⟨⟨⟨⟨⟨⟨⟨⟨⟨⟨⟨⟨hm, h.1.1.1.1.1.1.1.1.1.1.1.1.1.2⟩, h.1.1.1.1.1.1.1.1.1.1.1.1.2⟩, h.1.1.1.1.1.1.1.1.1.1.1.2⟩, h.1.1.1.1.1.1.1.1.1.1.2⟩, h.1.1.1.1.1.1.1.1.1.2⟩, h.1.1.1.1.1.1.1.1.2⟩, h.1.1.1.1.1.1.1.2⟩, h.1.1.1.1.1.1.2⟩, h.1.1.1.1.1.2⟩, h.1.1.1.1.2⟩, h.1.1.1.2⟩, h.1.1.2⟩, h.1.2⟩, h.2⟩

@[simp] theorem storesWf_tw1 {b : Block} (h : storesWf b = true) : twinWf b.tw1 = true := by
  simp only [storesWf, Bool.and_eq_true] at h
  exact h.1.1.1.1.1.1.1.1.1.1.1.1.1.2

theorem storesWf_tw1_set (b : Block) (m : Twin) (h : storesWf b = true) (hm : twinWf m = true) :
    storesWf { b with tw1 := m } = true := by
  simp only [storesWf, Bool.and_eq_true] at h ⊢
  exact ⟨⟨⟨⟨⟨⟨⟨⟨⟨⟨⟨⟨⟨⟨h.1.1.1.1.1.1.1.1.1.1.1.1.1.1, hm⟩, h.1.1.1.1.1.1.1.1.1.1.1.1.2⟩, h.1.1.1.1.1.1.1.1.1.1.1.2⟩, h.1.1.1.1.1.1.1.1.1.1.2⟩, h.1.1.1.1.1.1.1.1.1.2⟩, h.1.1.1.1.1.1.1.1.2⟩, h.1.1.1.1.1.1.1.2⟩, h.1.1.1.1.1.1.2⟩, h.1.1.1.1.1.2⟩, h.1.1.1.1.2⟩, h.1.1.1.2⟩, h.1.1.2⟩, h.1.2⟩, h.2⟩

@[simp] theorem storesWf_ctxs {b : Block} (h : storesWf b = true) : mapWf {} b.ctxs = true := by
  simp only [storesWf, Bool.and_eq_true] at h
  exact h.1.1.1.1.1.1.1.1.1.1.1.1.2

theorem storesWf_ctxs_set (b : Block) (m : SMap Ctx) (h : storesWf b = true) (hm : mapWf {} m = true) :
    storesWf { b with ctxs := m } = true := by
  simp only [storesWf, Bool.and_eq_true] at h ⊢
  exact ⟨⟨⟨⟨⟨⟨⟨⟨⟨⟨⟨⟨⟨⟨h.1.1.1.1.1.1.1.1.1.1.1.1.1.1, h.1.1.1.1.1.1.1.1.1.1.1.1.1.2⟩, hm⟩, h.1.1.1.1.1.1.1.1.1.1.1.2⟩, h.1.1.1.1.1.1.1.1.1.1.2⟩, h.1.1.1.1.1.1.1.1.1.2⟩, h.1.1.1.1.1.1.1.1.2⟩, h.1.1.1.1.1.1.1.2⟩, h.1.1.1.1.1.1.2⟩, h.1.1.1.1.1.2⟩, h.1.1.1.1.2⟩, h.1.1.1.2⟩, h.1.1.2⟩, h.1.2⟩, h.2⟩

theorem storesWf_pagesWf {b : Block} (h : storesWf b = true) : pagesWf b.pages = true := by
  simp only [storesWf, Bool.and_eq_true] at h
  exact h.1.1.1.1.1.1.1.1.1.1.1.2

theorem pagesWf_map {m : SMap Page} (h : pagesWf m = true) : mapWf {} m = true := by
  simp only [pagesWf, Bool.and_eq_true] at h
  exact h.1

@[simp] theorem storesWf_pages {b : Block} (h : storesWf b = true) : mapWf {} b.pages = true :=
  pagesWf_map (storesWf_pagesWf h)

theorem pageWf_mapGet_all (m : SMap Page) (k : Nat) (h : m.all (fun p => pageWf p.2) = true) :
    pageWf (mapGet {} m k) = true := by
  induction m with
  | nil => rfl
  | cons p m ih =>
    simp only [List.all_cons, Bool.and_eq_true] at h
    unfold mapGet
    split
    · exact h.1
    · exact ih h.2

/-- Every page of a canonical page store is canonical. -/
theorem pageWf_mapGet {m : SMap Page} (h : pagesWf m = true) (k : Nat) : pageWf (mapGet {} m k) = true := by
  simp only [pagesWf, Bool.and_eq_true] at h
  exact pageWf_mapGet_all m k h.2

theorem pageAll_mapSet (m : SMap Page) (k : Nat) (v : Page) (h : m.all (fun p => pageWf p.2) = true)
    (hv : pageWf v = true) : (mapSet {} m k v).all (fun p => pageWf p.2) = true := by
  induction m with
  | nil => by_cases h' : v = {} <;> simp [mapSet, h', hv]
  | cons p m ih =>
    simp only [List.all_cons, Bool.and_eq_true] at h
    unfold mapSet
    repeat' split
    all_goals try simp only [List.all_cons, Bool.and_eq_true]
    all_goals first | exact ⟨h.1, h.2⟩ | exact ⟨hv, h.1, h.2⟩ | exact h.2 | exact ⟨hv, h.2⟩ | exact ⟨h.1, ih h.2⟩

theorem pagesWf_mapSet (m : SMap Page) (k : Nat) (v : Page) (h : pagesWf m = true) (hv : pageWf v = true) :
    pagesWf (mapSet {} m k v) = true := by
  simp only [pagesWf, Bool.and_eq_true] at h ⊢
  exact ⟨mapWf_mapSet _ _ _ _ h.1, pageAll_mapSet m k v h.2 hv⟩

theorem pagesWf_mapAll (m : SMap Page) (f : Nat → Page → Page) (h : pagesWf m = true)
    (hf : ∀ k p, pageWf p = true → pageWf (f k p) = true) : pagesWf (mapAll {} f m) = true := by
  simp only [pagesWf, Bool.and_eq_true] at h ⊢
  refine ⟨mapWf_mapAll _ _ _ h.1, ?_⟩
  rw [List.all_eq_true] at h ⊢
  intro q hq
  simp only [mapAll, List.mem_filterMap] at hq
  obtain ⟨p, hp, e⟩ := hq
  split at e
  · cases e
  · cases e
    exact hf _ _ (h.2 p hp)

theorem storesWf_pages_set (b : Block) (m : SMap Page) (h : storesWf b = true) (hm : pagesWf m = true) :
    storesWf { b with pages := m } = true := by
  simp only [storesWf, Bool.and_eq_true] at h ⊢
  exact ⟨⟨⟨⟨⟨⟨⟨⟨⟨⟨⟨⟨⟨⟨h.1.1.1.1.1.1.1.1.1.1.1.1.1.1, h.1.1.1.1.1.1.1.1.1.1.1.1.1.2⟩, h.1.1.1.1.1.1.1.1.1.1.1.1.2⟩, hm⟩, h.1.1.1.1.1.1.1.1.1.1.2⟩, h.1.1.1.1.1.1.1.1.1.2⟩, h.1.1.1.1.1.1.1.1.2⟩, h.1.1.1.1.1.1.1.2⟩, h.1.1.1.1.1.1.2⟩, h.1.1.1.1.1.2⟩, h.1.1.1.1.2⟩, h.1.1.1.2⟩, h.1.1.2⟩, h.1.2⟩, h.2⟩

@[simp] theorem storesWf_engines {b : Block} (h : storesWf b = true) : mapWf {} b.engines = true := by
  simp only [storesWf, Bool.and_eq_true] at h
  exact h.1.1.1.1.1.1.1.1.1.1.2

theorem storesWf_engines_set (b : Block) (m : SMap Engine) (h : storesWf b = true) (hm : mapWf {} m = true) :
    storesWf { b with engines := m } = true := by
  simp only [storesWf, Bool.and_eq_true] at h ⊢
  exact ⟨⟨⟨⟨⟨⟨⟨⟨⟨⟨⟨⟨⟨⟨h.1.1.1.1.1.1.1.1.1.1.1.1.1.1, h.1.1.1.1.1.1.1.1.1.1.1.1.1.2⟩, h.1.1.1.1.1.1.1.1.1.1.1.1.2⟩, h.1.1.1.1.1.1.1.1.1.1.1.2⟩, hm⟩, h.1.1.1.1.1.1.1.1.1.2⟩, h.1.1.1.1.1.1.1.1.2⟩, h.1.1.1.1.1.1.1.2⟩, h.1.1.1.1.1.1.2⟩, h.1.1.1.1.1.2⟩, h.1.1.1.1.2⟩, h.1.1.1.2⟩, h.1.1.2⟩, h.1.2⟩, h.2⟩

@[simp] theorem storesWf_flushes {b : Block} (h : storesWf b = true) : mapWf {} b.flushes = true := by
  simp only [storesWf, Bool.and_eq_true] at h
  exact h.1.1.1.1.1.1.1.1.1.2

theorem storesWf_flushes_set (b : Block) (m : SMap Flush) (h : storesWf b = true) (hm : mapWf {} m = true) :
    storesWf { b with flushes := m } = true := by
  simp only [storesWf, Bool.and_eq_true] at h ⊢
  exact ⟨⟨⟨⟨⟨⟨⟨⟨⟨⟨⟨⟨⟨⟨h.1.1.1.1.1.1.1.1.1.1.1.1.1.1, h.1.1.1.1.1.1.1.1.1.1.1.1.1.2⟩, h.1.1.1.1.1.1.1.1.1.1.1.1.2⟩, h.1.1.1.1.1.1.1.1.1.1.1.2⟩, h.1.1.1.1.1.1.1.1.1.1.2⟩, hm⟩, h.1.1.1.1.1.1.1.1.2⟩, h.1.1.1.1.1.1.1.2⟩, h.1.1.1.1.1.1.2⟩, h.1.1.1.1.1.2⟩, h.1.1.1.1.2⟩, h.1.1.1.2⟩, h.1.1.2⟩, h.1.2⟩, h.2⟩

@[simp] theorem storesWf_holds {b : Block} (h : storesWf b = true) : mapWf false b.holds = true := by
  simp only [storesWf, Bool.and_eq_true] at h
  exact h.1.1.1.1.1.1.1.1.2

theorem storesWf_holds_set (b : Block) (m : SMap Bool) (h : storesWf b = true) (hm : mapWf false m = true) :
    storesWf { b with holds := m } = true := by
  simp only [storesWf, Bool.and_eq_true] at h ⊢
  exact ⟨⟨⟨⟨⟨⟨⟨⟨⟨⟨⟨⟨⟨⟨h.1.1.1.1.1.1.1.1.1.1.1.1.1.1, h.1.1.1.1.1.1.1.1.1.1.1.1.1.2⟩, h.1.1.1.1.1.1.1.1.1.1.1.1.2⟩, h.1.1.1.1.1.1.1.1.1.1.1.2⟩, h.1.1.1.1.1.1.1.1.1.1.2⟩, h.1.1.1.1.1.1.1.1.1.2⟩, hm⟩, h.1.1.1.1.1.1.1.2⟩, h.1.1.1.1.1.1.2⟩, h.1.1.1.1.1.2⟩, h.1.1.1.1.2⟩, h.1.1.1.2⟩, h.1.1.2⟩, h.1.2⟩, h.2⟩

@[simp] theorem storesWf_sendEps {b : Block} (h : storesWf b = true) : mapWf {} b.sendEps = true := by
  simp only [storesWf, Bool.and_eq_true] at h
  exact h.1.1.1.1.1.1.1.2

theorem storesWf_sendEps_set (b : Block) (m : SMap SendEp) (h : storesWf b = true) (hm : mapWf {} m = true) :
    storesWf { b with sendEps := m } = true := by
  simp only [storesWf, Bool.and_eq_true] at h ⊢
  exact ⟨⟨⟨⟨⟨⟨⟨⟨⟨⟨⟨⟨⟨⟨h.1.1.1.1.1.1.1.1.1.1.1.1.1.1, h.1.1.1.1.1.1.1.1.1.1.1.1.1.2⟩, h.1.1.1.1.1.1.1.1.1.1.1.1.2⟩, h.1.1.1.1.1.1.1.1.1.1.1.2⟩, h.1.1.1.1.1.1.1.1.1.1.2⟩, h.1.1.1.1.1.1.1.1.1.2⟩, h.1.1.1.1.1.1.1.1.2⟩, hm⟩, h.1.1.1.1.1.1.2⟩, h.1.1.1.1.1.2⟩, h.1.1.1.1.2⟩, h.1.1.1.2⟩, h.1.1.2⟩, h.1.2⟩, h.2⟩

@[simp] theorem storesWf_recvEps {b : Block} (h : storesWf b = true) : mapWf {} b.recvEps = true := by
  simp only [storesWf, Bool.and_eq_true] at h
  exact h.1.1.1.1.1.1.2

theorem storesWf_recvEps_set (b : Block) (m : SMap RecvEp) (h : storesWf b = true) (hm : mapWf {} m = true) :
    storesWf { b with recvEps := m } = true := by
  simp only [storesWf, Bool.and_eq_true] at h ⊢
  exact ⟨⟨⟨⟨⟨⟨⟨⟨⟨⟨⟨⟨⟨⟨h.1.1.1.1.1.1.1.1.1.1.1.1.1.1, h.1.1.1.1.1.1.1.1.1.1.1.1.1.2⟩, h.1.1.1.1.1.1.1.1.1.1.1.1.2⟩, h.1.1.1.1.1.1.1.1.1.1.1.2⟩, h.1.1.1.1.1.1.1.1.1.1.2⟩, h.1.1.1.1.1.1.1.1.1.2⟩, h.1.1.1.1.1.1.1.1.2⟩, h.1.1.1.1.1.1.1.2⟩, hm⟩, h.1.1.1.1.1.2⟩, h.1.1.1.1.2⟩, h.1.1.1.2⟩, h.1.1.2⟩, h.1.2⟩, h.2⟩

@[simp] theorem storesWf_fmt {b : Block} (h : storesWf b = true) : mapWf {} b.fmt.entries = true := by
  simp only [storesWf, Bool.and_eq_true] at h
  exact h.1.1.1.1.1.2

theorem storesWf_fmt_set (b : Block) (m : Fmt) (h : storesWf b = true) (hm : mapWf {} m.entries = true) :
    storesWf { b with fmt := m } = true := by
  simp only [storesWf, Bool.and_eq_true] at h ⊢
  exact ⟨⟨⟨⟨⟨⟨⟨⟨⟨⟨⟨⟨⟨⟨h.1.1.1.1.1.1.1.1.1.1.1.1.1.1, h.1.1.1.1.1.1.1.1.1.1.1.1.1.2⟩, h.1.1.1.1.1.1.1.1.1.1.1.1.2⟩, h.1.1.1.1.1.1.1.1.1.1.1.2⟩, h.1.1.1.1.1.1.1.1.1.1.2⟩, h.1.1.1.1.1.1.1.1.1.2⟩, h.1.1.1.1.1.1.1.1.2⟩, h.1.1.1.1.1.1.1.2⟩, h.1.1.1.1.1.1.2⟩, hm⟩, h.1.1.1.1.2⟩, h.1.1.1.2⟩, h.1.1.2⟩, h.1.2⟩, h.2⟩

@[simp] theorem storesWf_arb {b : Block} (h : storesWf b = true) : arbWf b.arb = true := by
  simp only [storesWf, Bool.and_eq_true] at h
  exact h.1.1.1.1.2

theorem storesWf_arb_set (b : Block) (m : Arb) (h : storesWf b = true) (hm : arbWf m = true) :
    storesWf { b with arb := m } = true := by
  simp only [storesWf, Bool.and_eq_true] at h ⊢
  exact ⟨⟨⟨⟨⟨⟨⟨⟨⟨⟨⟨⟨⟨⟨h.1.1.1.1.1.1.1.1.1.1.1.1.1.1, h.1.1.1.1.1.1.1.1.1.1.1.1.1.2⟩, h.1.1.1.1.1.1.1.1.1.1.1.1.2⟩, h.1.1.1.1.1.1.1.1.1.1.1.2⟩, h.1.1.1.1.1.1.1.1.1.1.2⟩, h.1.1.1.1.1.1.1.1.1.2⟩, h.1.1.1.1.1.1.1.1.2⟩, h.1.1.1.1.1.1.1.2⟩, h.1.1.1.1.1.1.2⟩, h.1.1.1.1.1.2⟩, hm⟩, h.1.1.1.2⟩, h.1.1.2⟩, h.1.2⟩, h.2⟩

@[simp] theorem storesWf_proof {b : Block} (h : storesWf b = true) : proofWf b.proof = true := by
  simp only [storesWf, Bool.and_eq_true] at h
  exact h.1.1.1.2

theorem storesWf_proof_set (b : Block) (m : Proofer) (h : storesWf b = true) (hm : proofWf m = true) :
    storesWf { b with proof := m } = true := by
  simp only [storesWf, Bool.and_eq_true] at h ⊢
  exact ⟨⟨⟨⟨⟨⟨⟨⟨⟨⟨⟨⟨⟨⟨h.1.1.1.1.1.1.1.1.1.1.1.1.1.1, h.1.1.1.1.1.1.1.1.1.1.1.1.1.2⟩, h.1.1.1.1.1.1.1.1.1.1.1.1.2⟩, h.1.1.1.1.1.1.1.1.1.1.1.2⟩, h.1.1.1.1.1.1.1.1.1.1.2⟩, h.1.1.1.1.1.1.1.1.1.2⟩, h.1.1.1.1.1.1.1.1.2⟩, h.1.1.1.1.1.1.1.2⟩, h.1.1.1.1.1.1.2⟩, h.1.1.1.1.1.2⟩, h.1.1.1.1.2⟩, hm⟩, h.1.1.2⟩, h.1.2⟩, h.2⟩

@[simp] theorem storesWf_fuses {b : Block} (h : storesWf b = true) : mapWf 0 b.fuses = true := by
  simp only [storesWf, Bool.and_eq_true] at h
  exact h.1.1.2

theorem storesWf_fuses_set (b : Block) (m : SMap Nat) (h : storesWf b = true) (hm : mapWf 0 m = true) :
    storesWf { b with fuses := m } = true := by
  simp only [storesWf, Bool.and_eq_true] at h ⊢
  exact ⟨⟨⟨⟨⟨⟨⟨⟨⟨⟨⟨⟨⟨⟨h.1.1.1.1.1.1.1.1.1.1.1.1.1.1, h.1.1.1.1.1.1.1.1.1.1.1.1.1.2⟩, h.1.1.1.1.1.1.1.1.1.1.1.1.2⟩, h.1.1.1.1.1.1.1.1.1.1.1.2⟩, h.1.1.1.1.1.1.1.1.1.1.2⟩, h.1.1.1.1.1.1.1.1.1.2⟩, h.1.1.1.1.1.1.1.1.2⟩, h.1.1.1.1.1.1.1.2⟩, h.1.1.1.1.1.1.2⟩, h.1.1.1.1.1.2⟩, h.1.1.1.1.2⟩, h.1.1.1.2⟩, hm⟩, h.1.2⟩, h.2⟩

@[simp] theorem storesWf_pair {b : Block} (h : storesWf b = true) : mapWf {} b.pair.groups = true := by
  simp only [storesWf, Bool.and_eq_true] at h
  exact h.1.2

theorem storesWf_pair_set (b : Block) (m : PairSt) (h : storesWf b = true) (hm : mapWf {} m.groups = true) :
    storesWf { b with pair := m } = true := by
  simp only [storesWf, Bool.and_eq_true] at h ⊢
  exact ⟨⟨⟨⟨⟨⟨⟨⟨⟨⟨⟨⟨⟨⟨h.1.1.1.1.1.1.1.1.1.1.1.1.1.1, h.1.1.1.1.1.1.1.1.1.1.1.1.1.2⟩, h.1.1.1.1.1.1.1.1.1.1.1.1.2⟩, h.1.1.1.1.1.1.1.1.1.1.1.2⟩, h.1.1.1.1.1.1.1.1.1.1.2⟩, h.1.1.1.1.1.1.1.1.1.2⟩, h.1.1.1.1.1.1.1.1.2⟩, h.1.1.1.1.1.1.1.2⟩, h.1.1.1.1.1.1.2⟩, h.1.1.1.1.1.2⟩, h.1.1.1.1.2⟩, h.1.1.1.2⟩, h.1.1.2⟩, hm⟩, h.2⟩

@[simp] theorem storesWf_fuseBanks {b : Block} (h : storesWf b = true) : mapWf 0 b.fuseBanks = true := by
  simp only [storesWf, Bool.and_eq_true] at h
  exact h.2

theorem storesWf_fuseBanks_set (b : Block) (m : SMap Nat) (h : storesWf b = true) (hm : mapWf 0 m = true) :
    storesWf { b with fuseBanks := m } = true := by
  simp only [storesWf, Bool.and_eq_true] at h ⊢
  exact ⟨⟨⟨⟨⟨⟨⟨⟨⟨⟨⟨⟨⟨⟨h.1.1.1.1.1.1.1.1.1.1.1.1.1.1, h.1.1.1.1.1.1.1.1.1.1.1.1.1.2⟩, h.1.1.1.1.1.1.1.1.1.1.1.1.2⟩, h.1.1.1.1.1.1.1.1.1.1.1.2⟩, h.1.1.1.1.1.1.1.1.1.1.2⟩, h.1.1.1.1.1.1.1.1.1.2⟩, h.1.1.1.1.1.1.1.1.2⟩, h.1.1.1.1.1.1.1.2⟩, h.1.1.1.1.1.1.2⟩, h.1.1.1.1.1.2⟩, h.1.1.1.1.2⟩, h.1.1.1.2⟩, h.1.1.2⟩, h.1.2⟩, hm⟩

@[simp] theorem twinWf_tw {b : Block} (h : storesWf b = true) (t : TwinId) : twinWf (tw b t) = true := by
  cases t <;> simp [tw, h]

theorem wf_upTw (t : TwinId) (f : Twin → Twin) (s : Block) (h : storesWf s = true)
    (hf : ∀ w, twinWf w = true → twinWf (f w) = true) : storesWf (upTw t f s) = true := by
  cases t
  · exact storesWf_tw0_set _ _ h (hf _ (storesWf_tw0 h))
  · exact storesWf_tw1_set _ _ h (hf _ (storesWf_tw1 h))

theorem wf_forEach {α : Type} (xs : List α) (f : α → Block → Block) (s : Block)
    (h : storesWf s = true) (hf : ∀ x s, storesWf s = true → storesWf (f x s) = true) : storesWf (forEach xs f s) = true := by
  unfold forEach
  induction xs generalizing s with
  | nil => exact h
  | cons x xs ih => exact ih _ (hf x s h)

theorem foldl_wf {α : Type} (xs : List α) (f : Block → α → Block) (s : Block)
    (h : storesWf s = true) (hf : ∀ s x, storesWf s = true → storesWf (f s x) = true) : storesWf (xs.foldl f s) = true := by
  induction xs generalizing s with
  | nil => exact h
  | cons x xs ih => exact ih _ (hf s x h)

theorem foldl_snd_wf {α β : Type} (xs : List α) (f : β × Block → α → β × Block) (r : β × Block)
    (h : storesWf r.2 = true) (hf : ∀ r x, storesWf r.2 = true → storesWf (f r x).2 = true) : storesWf (xs.foldl f r).2 = true := by
  induction xs generalizing r with
  | nil => exact h
  | cons x xs ih => exact ih _ (hf r x h)

theorem foldl_map_wf {α β : Type} [DecidableEq β] (d : β) (xs : List α) (f : SMap β → α → SMap β) (m : SMap β)
    (h : mapWf d m = true) (hf : ∀ m x, mapWf d m = true → mapWf d (f m x) = true) : mapWf d (xs.foldl f m) = true := by
  induction xs generalizing m with
  | nil => exact h
  | cons x xs ih => exact ih _ (hf m x h)

theorem mapWf_keepOld {α : Type} [DecidableEq α] (mine : α → Bool) (d : α) (old new : SMap α) (h : mapWf d new = true) :
    mapWf d (keepOld mine d old new) = true :=
  mapWf_setAll _ _ _ (mapWf_filter _ _ _ h)

end Sys2Proof.Machine
end

