-- ==== Sys2Proof/Laws/StoresA.lean ====
section
/-! SUPPORT. The operations keep the canonical form of every store, part 1 of 4: one lemma per operation. -/

namespace Sys2Proof.Machine

open Sys2Proof.Safety

set_option maxRecDepth 8000
set_option linter.unusedTactic false
set_option linter.unreachableTactic false
set_option linter.unusedSimpArgs false
set_option linter.unusedVariables false

theorem storesWf_tw {b : Block} {t : TwinId} (h : storesWf b = true) : twinWf (tw b t) = true := by
  cases t
  · exact storesWf_tw0 h
  · exact storesWf_tw1 h

theorem wf_upCtx (k : Nat) (f : Ctx → Ctx) (s : Block) (h : storesWf s = true) : storesWf (upCtx k f s) = true := by
  exact storesWf_ctxs_set _ _ h (mapWf_mapSet _ _ _ _ (storesWf_ctxs h))

theorem wf_upCtxTw (t : TwinId) (k : Nat) (f : CtxTw → CtxTw) (s : Block) (h : storesWf s = true) :
    storesWf (upCtxTw t k f s) = true := by
  unfold upCtxTw
  (try simp only [])
  repeat' first
      | with_reducible assumption | with_reducible apply wf_upTw | split
      | (intro w hw; simp only [twinWf, catWf, accWf, rackWf, deskWf, shelfWf, retWf, lardWf, sortWf, bankWf, officeWf, obsWf, bakeWf, thrdWf, relWf, arbWf, proofWf, pageWf, Bool.and_eq_true] at hw ⊢; simp [hw]; done)
      | (intro _ _ _) | (simp only [storesWf_same])

theorem wf_setNode (id : Nat) (n : Node) (s : Block) (h : storesWf s = true) : storesWf (setNode id n s) = true := by
  unfold setNode
  (try simp only [])
  repeat' first
      | with_reducible assumption | with_reducible apply wf_upTw | split
      | (intro w hw; simp only [twinWf, catWf, accWf, rackWf, deskWf, shelfWf, retWf, lardWf, sortWf, bankWf, officeWf, obsWf, bakeWf, thrdWf, relWf, arbWf, proofWf, pageWf, Bool.and_eq_true] at hw ⊢; simp [hw]; done)
      | (intro _ _ _) | (simp only [storesWf_same])

theorem wf_setOwner (t : TwinId) (x v : Nat) (s : Block) (h : storesWf s = true) :
    storesWf (setOwner t x v s) = true := by
  unfold setOwner
  (try simp only [])
  repeat' first
      | with_reducible assumption | with_reducible apply wf_upTw | split
      | (intro w hw; simp only [twinWf, catWf, accWf, rackWf, deskWf, shelfWf, retWf, lardWf, sortWf, bankWf, officeWf, obsWf, bakeWf, thrdWf, relWf, arbWf, proofWf, pageWf, Bool.and_eq_true] at hw ⊢; simp [hw]; done)
      | (intro _ _ _) | (simp only [storesWf_same]) | (simp only [id_eq])

theorem wf_upNode (id : Nat) (f : Node → Node) (s : Block) (h : storesWf s = true) :
    storesWf (upNode id f s) = true := by
  unfold upNode
  (try simp only [])
  repeat' first
      | with_reducible assumption | with_reducible apply wf_setNode | split | (intro _ _ _)
      | (simp only [storesWf_same])

theorem wf_upEng (e : Nat) (f : Engine → Engine) (s : Block) (h : storesWf s = true) :
    storesWf (upEng e f s) = true := by
  exact storesWf_engines_set _ _ h (mapWf_mapSet _ _ _ _ (storesWf_engines h))

theorem wf_upFlush (c : Nat) (f : Flush → Flush) (s : Block) (h : storesWf s = true) :
    storesWf (upFlush c f s) = true := by
  exact storesWf_flushes_set _ _ h (mapWf_mapSet _ _ _ _ (storesWf_flushes h))

theorem wf_setRec (t : TwinId) (i : Nat) (r : CircRec) (s : Block) (h : storesWf s = true) :
    storesWf (setRec t i r s) = true := by
  unfold setRec
  (try simp only [])
  repeat' first
      | with_reducible assumption | with_reducible apply wf_upTw | split
      | (intro w hw; simp only [twinWf, catWf, accWf, rackWf, deskWf, shelfWf, retWf, lardWf, sortWf, bankWf, officeWf, obsWf, bakeWf, thrdWf, relWf, arbWf, proofWf, pageWf, Bool.and_eq_true] at hw ⊢; simp [hw]; done)
      | (intro _ _ _) | (simp only [storesWf_same])

theorem wf_pushWork (ws : List Work) (s : Block) (h : storesWf s = true) : storesWf (pushWork ws s) = true := by
  unfold pushWork
  (try simp only [])
  repeat' first | with_reducible assumption | split | (intro _ _ _) | (simp only [storesWf_same])

theorem wf_beforeAgain (x : Work) (s : Block) (h : storesWf s = true) :
    storesWf (beforeAgain x s) = true := by
  unfold beforeAgain
  (try simp only [])
  repeat' first
      | with_reducible assumption | split
      | (intro w hw; simp only [twinWf, catWf, accWf, rackWf, deskWf, shelfWf, retWf, lardWf, sortWf, bankWf, officeWf, obsWf, bakeWf, thrdWf, relWf, arbWf, proofWf, pageWf, Bool.and_eq_true] at hw ⊢; simp [hw]; done)
      | (intro _ _ _) | (simp only [storesWf_same]) | (simp only [id_eq])

theorem wf_retryFirst (t : TwinId) (s : Block) (h : storesWf s = true) :
    storesWf (retryFirst t s) = true := by
  unfold retryFirst
  (try simp only [])
  repeat' first
      | with_reducible assumption | with_reducible apply wf_pushWork | split
      | (intro w hw; simp only [twinWf, catWf, accWf, rackWf, deskWf, shelfWf, retWf, lardWf, sortWf, bankWf, officeWf, obsWf, bakeWf, thrdWf, relWf, arbWf, proofWf, pageWf, Bool.and_eq_true] at hw ⊢; simp [hw]; done)
      | (intro _ _ _) | (simp only [storesWf_same]) | (simp only [id_eq])

theorem wf_placeFirst (id : Nat) (s : Block) (h : storesWf s = true) :
    storesWf (placeFirst id s) = true := by
  unfold placeFirst
  (try simp only [])
  repeat' first
      | with_reducible assumption | with_reducible apply wf_beforeAgain | split
      | (intro w hw; simp only [twinWf, catWf, accWf, rackWf, deskWf, shelfWf, retWf, lardWf, sortWf, bankWf, officeWf, obsWf, bakeWf, thrdWf, relWf, arbWf, proofWf, pageWf, Bool.and_eq_true] at hw ⊢; simp [hw]; done)
      | (intro _ _ _) | (simp only [storesWf_same]) | (simp only [id_eq])

theorem wf_emit (o : Output) (s : Block) (h : storesWf s = true) : storesWf (emit o s) = true := by
  unfold emit
  (try simp only [])
  repeat' first | with_reducible assumption | split | (intro _ _ _) | (simp only [storesWf_same])

theorem wf_upPage (key : Nat) (f : Page → Page) (s : Block) (h : storesWf s = true)
    (hf : ∀ p, pageWf p = true → pageWf (f p) = true) : storesWf (upPage key f s) = true :=
  storesWf_pages_set _ _ h
    (pagesWf_mapSet _ _ _ (storesWf_pagesWf h) (hf _ (pageWf_mapGet (storesWf_pagesWf h) key)))

theorem wf_setReg (key : Nat) (off : Nat) (v : Nat) (s : Block) (h : storesWf s = true) :
    storesWf (setReg key off v s) = true := by
  unfold setReg
  (try simp only [])
  repeat' first
      | with_reducible assumption | with_reducible apply wf_upPage | split
      | (intro w hw; simp only [twinWf, catWf, accWf, rackWf, deskWf, shelfWf, retWf, lardWf, sortWf, bankWf, officeWf, obsWf, bakeWf, thrdWf, relWf, arbWf, proofWf, pageWf, Bool.and_eq_true] at hw ⊢; simp [hw]; done)
      | (intro _ _ _) | (simp only [storesWf_same])

theorem wf_setErr (key : Nat) (bit : Nat) (s : Block) (h : storesWf s = true) :
    storesWf (setErr key bit s) = true := by
  unfold setErr
  (try simp only [])
  repeat' first
      | with_reducible assumption | with_reducible apply wf_upPage | split
      | (intro w hw; simp only [twinWf, catWf, accWf, rackWf, deskWf, shelfWf, retWf, lardWf, sortWf, bankWf, officeWf, obsWf, bakeWf, thrdWf, relWf, arbWf, proofWf, pageWf, Bool.and_eq_true] at hw ⊢; simp [hw]; done)
      | (intro _ _ _) | (simp only [storesWf_same])

theorem wf_bump (key : Nat) (off : Nat) (n : Nat) (s : Block) (h : storesWf s = true) :
    storesWf (bump key off n s) = true := by
  unfold bump
  (try simp only [])
  repeat' first
      | with_reducible assumption | with_reducible apply wf_upPage | split
      | (intro w hw; simp only [twinWf, catWf, accWf, rackWf, deskWf, shelfWf, retWf, lardWf, sortWf, bankWf, officeWf, obsWf, bakeWf, thrdWf, relWf, arbWf, proofWf, pageWf, Bool.and_eq_true] at hw ⊢; simp [hw]; done)
      | (intro _ _ _) | (simp only [storesWf_same])

theorem wf_bumpCtx (k : Nat) (off : Nat) (n : Nat) (s : Block) (h : storesWf s = true) :
    storesWf (bumpCtx k off n s) = true := by
  unfold bumpCtx
  (try simp only [])
  repeat' first
      | with_reducible assumption | with_reducible apply wf_bump | split | (intro _ _ _)
      | (simp only [storesWf_same])

theorem wf_discardIn (t : TwinId) (s : Block) (h : storesWf s = true) :
    storesWf (discardIn t s) = true := by
  unfold discardIn
  (try simp only [])
  repeat' first
      | with_reducible assumption | with_reducible apply wf_bump | split
      | (intro w hw; simp only [twinWf, catWf, accWf, rackWf, deskWf, shelfWf, retWf, lardWf, sortWf, bankWf, officeWf, obsWf, bakeWf, thrdWf, relWf, arbWf, proofWf, pageWf, Bool.and_eq_true] at hw ⊢; simp [hw]; done)
      | (intro _ _ _) | (simp only [storesWf_same]) | (simp only [id_eq])

theorem wf_offerHeld (s : Block) (h : storesWf s = true) :
    storesWf (offerHeld s) = true := by
  unfold offerHeld
  (try simp only [])
  repeat' first
      | with_reducible assumption | with_reducible apply wf_pushWork | split
      | (intro w hw; simp only [twinWf, catWf, accWf, rackWf, deskWf, shelfWf, retWf, lardWf, sortWf, bankWf, officeWf, obsWf, bakeWf, thrdWf, relWf, arbWf, proofWf, pageWf, Bool.and_eq_true] at hw ⊢; simp [hw]; done)
      | (intro _ _ _) | (simp only [storesWf_same]) | (simp only [id_eq])

theorem wf_optEvent (t : TwinId) (code : Nat) (k : Nat) (useCtx : Bool) (group : Option Nat) (n : Nat)
    (s : Block) (h : storesWf s = true) :
    storesWf (optEvent t code k useCtx group n s) = true := by
  unfold optEvent
  (try simp only [])
  repeat' first
      | with_reducible assumption | with_reducible apply wf_upTw | split
      | (intro w hw; simp only [twinWf, catWf, accWf, rackWf, deskWf, shelfWf, retWf, lardWf, sortWf, bankWf, officeWf, obsWf, bakeWf, thrdWf, relWf, arbWf, proofWf, pageWf, Bool.and_eq_true] at hw ⊢; simp [hw]; done)
      | (intro _ _ _) | (simp only [storesWf_same])

theorem wf_upObs (t : TwinId) (f : Obs → Obs) (s : Block) (h : storesWf s = true)
    (hf : ∀ w, obsWf w = true → obsWf (f w) = true) : storesWf (upObs t f s) = true := by
  unfold upObs
  refine wf_upTw t _ s h ?_
  intro w hw
  simp only [twinWf, Bool.and_eq_true] at hw ⊢
  simp [hw, hf]

theorem wf_driveRing (t : TwinId) (s : Block) (h : storesWf s = true) :
    storesWf (driveRing t s) = true := by
  unfold driveRing
  (try simp only [])
  repeat' first
      | with_reducible assumption | with_reducible apply wf_upObs | with_reducible apply wf_emit
      | with_reducible apply wf_bump | split
      | (intro w hw; simp only [twinWf, catWf, accWf, rackWf, deskWf, shelfWf, retWf, lardWf, sortWf, bankWf, officeWf, obsWf, bakeWf, thrdWf, relWf, arbWf, proofWf, pageWf, Bool.and_eq_true] at hw ⊢; simp [hw]; done)
      | (intro _ _ _) | (simp only [storesWf_same]) | (simp only [id_eq])

theorem wf_stageRec (t : TwinId) (r : TraceRec) (s : Block) (h : storesWf s = true) :
    storesWf (stageRec t r s) = true := by
  unfold stageRec
  (try simp only [])
  repeat' first
      | with_reducible assumption | with_reducible apply wf_bump | with_reducible apply wf_upObs
      | with_reducible apply wf_driveRing | split
      | (intro w hw; simp only [twinWf, catWf, accWf, rackWf, deskWf, shelfWf, retWf, lardWf, sortWf, bankWf, officeWf, obsWf, bakeWf, thrdWf, relWf, arbWf, proofWf, pageWf, Bool.and_eq_true] at hw ⊢; simp [hw]; done)
      | (intro _ _ _) | (simp only [storesWf_same]) | (simp only [id_eq])

theorem wf_stageLost (t : TwinId) (s : Block) (h : storesWf s = true) :
    storesWf (stageLost t s) = true := by
  unfold stageLost
  (try simp only [])
  repeat' first
      | with_reducible assumption | with_reducible apply wf_stageRec | with_reducible apply wf_upObs | split
      | (intro w hw; simp only [twinWf, catWf, accWf, rackWf, deskWf, shelfWf, retWf, lardWf, sortWf, bankWf, officeWf, obsWf, bakeWf, thrdWf, relWf, arbWf, proofWf, pageWf, Bool.and_eq_true] at hw ⊢; simp [hw]; done)
      | (intro _ _ _) | (simp only [storesWf_same]) | (simp only [id_eq])

theorem wf_traceAt (time : Nat) (t : TwinId) (ty : Nat) (k : Option Nat) (node aux w2 hi3 : Nat) (s : Block) (h : storesWf s = true) :
    storesWf (traceAt time t ty k node aux w2 hi3 s) = true := by
  unfold traceAt
  (try simp only [])
  repeat' first
      | with_reducible assumption | with_reducible apply wf_stageRec | split
      | (intro w hw; simp only [twinWf, catWf, accWf, rackWf, deskWf, shelfWf, retWf, lardWf, sortWf, bankWf, officeWf, obsWf, bakeWf, thrdWf, relWf, arbWf, proofWf, pageWf, Bool.and_eq_true] at hw ⊢; simp [hw]; done)
      | (intro _ _ _) | (simp only [storesWf_same]) | (simp only [id_eq])

theorem wf_stageWaits (t : TwinId) (rs : List TraceRec) (s : Block) (h : storesWf s = true) :
    storesWf (stageWaits t rs s) = true := by
  induction rs generalizing s with
  | nil => exact h
  | cons r rs ih =>
    unfold stageWaits; split
    · exact wf_upObs _ _ _ h (fun w hw => by simpa [obsWf] using hw)
    · exact ih _ (wf_stageRec _ _ _ h)

theorem wf_trace (t : TwinId) (ty : Nat) (k : Option Nat) (node aux w2 hi3 : Nat) (s : Block) (h : storesWf s = true) :
    storesWf (trace t ty k node aux w2 hi3 s) = true := by
  unfold trace
  (try simp only [])
  repeat' first
      | with_reducible assumption | with_reducible apply wf_traceAt | split
      | (intro w hw; simp only [twinWf, catWf, accWf, rackWf, deskWf, shelfWf, retWf, lardWf, sortWf, bankWf, officeWf, obsWf, bakeWf, thrdWf, relWf, arbWf, proofWf, pageWf, Bool.and_eq_true] at hw ⊢; simp [hw]; done)
      | (intro _ _ _) | (simp only [storesWf_same]) | (simp only [id_eq])

theorem wf_sendItem (frm dst : TwinId) (i : EdgeItem) (s : Block) (h : storesWf s = true) :
    storesWf (sendItem frm dst i s) = true := by
  unfold sendItem
  (try simp only [])
  repeat' first
      | with_reducible assumption | with_reducible apply wf_pushWork | with_reducible apply wf_upTw
      | with_reducible apply wf_bump | split
      | (intro w hw; simp only [twinWf, catWf, accWf, rackWf, deskWf, shelfWf, retWf, lardWf, sortWf, bankWf, officeWf, obsWf, bakeWf, thrdWf, relWf, arbWf, proofWf, pageWf, Bool.and_eq_true] at hw ⊢; simp [hw]; done)
      | (intro _ _ _) | (simp only [storesWf_same]) | (simp only [id_eq])

theorem wf_sendClaim (dst : TwinId) (i : ClaimItem) (s : Block) (h : storesWf s = true) :
    storesWf (sendClaim dst i s) = true := by
  unfold sendClaim
  (try simp only [])
  repeat' first
      | with_reducible assumption | with_reducible apply wf_upTw | split
      | (intro w hw; simp only [twinWf, catWf, accWf, rackWf, deskWf, shelfWf, retWf, lardWf, sortWf, bankWf, officeWf, obsWf, bakeWf, thrdWf, relWf, arbWf, proofWf, pageWf, Bool.and_eq_true] at hw ⊢; simp [hw]; done)
      | (intro _ _ _) | (simp only [storesWf_same])

theorem wf_sendCtrl (dst : TwinId) (i : ControlItem) (s : Block) (h : storesWf s = true) :
    storesWf (sendCtrl dst i s) = true := by
  unfold sendCtrl
  (try simp only [])
  repeat' first
      | with_reducible assumption | with_reducible apply wf_upTw | split
      | (intro w hw; simp only [twinWf, catWf, accWf, rackWf, deskWf, shelfWf, retWf, lardWf, sortWf, bankWf, officeWf, obsWf, bakeWf, thrdWf, relWf, arbWf, proofWf, pageWf, Bool.and_eq_true] at hw ⊢; simp [hw]; done)
      | (intro _ _ _) | (simp only [storesWf_same])

theorem wf_raiseFreeze (t : TwinId) (s : Block) (h : storesWf s = true) : storesWf (raiseFreeze t s) = true := by
  unfold raiseFreeze
  (try simp only [])
  repeat' first
      | with_reducible assumption | with_reducible apply wf_sendCtrl | split | (intro _ _ _)
      | (simp only [storesWf_same])

theorem wf_raiseFence (t : TwinId) (k : Nat) (s : Block) (h : storesWf s = true) :
    storesWf (raiseFence t k s) = true := by
  unfold raiseFence
  (try simp only [])
  repeat' first
      | with_reducible assumption | with_reducible apply wf_upCtxTw | split
      | (intro w hw; simp only [twinWf, catWf, accWf, rackWf, deskWf, shelfWf, retWf, lardWf, sortWf, bankWf, officeWf, obsWf, bakeWf, thrdWf, relWf, arbWf, proofWf, pageWf, Bool.and_eq_true] at hw ⊢; simp [hw]; done)
      | (intro _ _ _) | (simp only [storesWf_same])

theorem wf_queueFault (t : TwinId) (k : Nat) (s : Block) (h : storesWf s = true) :
    storesWf (queueFault t k s) = true := by
  unfold queueFault
  (try simp only [])
  repeat' first
      | with_reducible assumption | with_reducible apply wf_pushWork | with_reducible apply wf_setErr
      | with_reducible apply wf_upTw | split
      | (intro w hw; simp only [twinWf, catWf, accWf, rackWf, deskWf, shelfWf, retWf, lardWf, sortWf, bankWf, officeWf, obsWf, bakeWf, thrdWf, relWf, arbWf, proofWf, pageWf, Bool.and_eq_true] at hw ⊢; simp [hw]; done)
      | (intro _ _ _) | (simp only [storesWf_same]) | (simp only [id_eq])

theorem wf_raiseFault (t : TwinId) (k : Nat) (code : Nat) (node : Nat) (s : Block) (h : storesWf s = true) :
    storesWf (raiseFault t k code node s) = true := by
  unfold raiseFault
  (try simp only [])
  repeat' first
      | with_reducible assumption | with_reducible apply wf_trace | with_reducible apply wf_raiseFreeze
      | with_reducible apply wf_raiseFence | with_reducible apply wf_upCtx | with_reducible apply wf_sendCtrl
      | with_reducible apply wf_queueFault | split
      | (intro w hw; simp only [twinWf, catWf, accWf, rackWf, deskWf, shelfWf, retWf, lardWf, sortWf, bankWf, officeWf, obsWf, bakeWf, thrdWf, relWf, arbWf, proofWf, pageWf, Bool.and_eq_true] at hw ⊢; simp [hw]; done)
      | (intro _ _ _) | (simp only [storesWf_same])

theorem wf_wheelUnlink (id : Nat) (n : Node) (s : Block) (h : storesWf s = true) :
    storesWf (wheelUnlink id n s) = true := by
  unfold wheelUnlink
  (try simp only [])
  repeat' first
      | with_reducible assumption | with_reducible apply wf_upTw | split
      | (intro w hw; simp only [twinWf, catWf, accWf, rackWf, deskWf, shelfWf, retWf, lardWf, sortWf, bankWf, officeWf, obsWf, bakeWf, thrdWf, relWf, arbWf, proofWf, pageWf, Bool.and_eq_true] at hw ⊢; simp [hw]; done)
      | (intro _ _ _) | (simp only [storesWf_same])

theorem wf_wheelLink (id : Nat) (n : Node) (s : Block) (h : storesWf s = true) :
    storesWf (wheelLink id n s) = true := by
  unfold wheelLink
  (try simp only [])
  repeat' first
      | with_reducible assumption | with_reducible apply wf_upTw | split
      | (intro w hw; simp only [twinWf, catWf, accWf, rackWf, deskWf, shelfWf, retWf, lardWf, sortWf, bankWf, officeWf, obsWf, bakeWf, thrdWf, relWf, arbWf, proofWf, pageWf, Bool.and_eq_true] at hw ⊢; simp [hw]; done)
      | (intro _ _ _) | (simp only [storesWf_same])

theorem wf_rackUnlink (id : Nat) (s : Block) (h : storesWf s = true) :
    storesWf (rackUnlink id s) = true := by
  unfold rackUnlink
  (try simp only [])
  repeat' first
      | with_reducible assumption | with_reducible apply wf_retryFirst | with_reducible apply wf_upTw | split
      | (intro w hw; simp only [twinWf, catWf, accWf, rackWf, deskWf, shelfWf, retWf, lardWf, sortWf, bankWf, officeWf, obsWf, bakeWf, thrdWf, relWf, arbWf, proofWf, pageWf, Bool.and_eq_true] at hw ⊢; simp [hw]; done)
      | (intro _ _ _) | (simp only [storesWf_same]) | (simp only [id_eq])

theorem wf_narrowFree (id : Nat) (s : Block) (h : storesWf s = true) : storesWf (narrowFree id s) = true := by
  unfold narrowFree
  (try simp only [])
  repeat' first
      | with_reducible assumption | with_reducible apply wf_upTw | split
      | (intro w hw; simp only [twinWf, catWf, accWf, rackWf, deskWf, shelfWf, retWf, lardWf, sortWf, bankWf, officeWf, obsWf, bakeWf, thrdWf, relWf, arbWf, proofWf, pageWf, Bool.and_eq_true] at hw ⊢; simp [hw]; done)
      | (intro _ _ _) | (simp only [storesWf_same])

theorem wf_unbind (id : Nat) (s : Block) (h : storesWf s = true) : storesWf (unbind id s) = true := by
  unfold unbind
  (try simp only [])
  repeat' first
      | with_reducible assumption | with_reducible apply wf_pushWork | with_reducible apply wf_upTw | split
      | (intro w hw; simp only [twinWf, catWf, accWf, rackWf, deskWf, shelfWf, retWf, lardWf, sortWf, bankWf, officeWf, obsWf, bakeWf, thrdWf, relWf, arbWf, proofWf, pageWf, Bool.and_eq_true] at hw ⊢; simp [hw]; done)
      | (intro _ _ _) | (simp only [storesWf_same])

theorem wf_setSweep (q rest : List Nat) (s : Block) (h : storesWf s = true) : storesWf (setSweep q rest s) = true :=
  storesWf_fmt_set _ _ h (storesWf_fmt h)

theorem wf_unitUnlink (id : Nat) (s : Block) (h : storesWf s = true) :
    storesWf (unitUnlink id s) = true := by
  unfold unitUnlink
  (try simp only [])
  repeat' first
      | with_reducible assumption | with_reducible apply wf_upCtx | with_reducible apply wf_upTw
      | with_reducible apply wf_setSweep | split
      | (intro w hw; simp only [twinWf, catWf, accWf, rackWf, deskWf, shelfWf, retWf, lardWf, sortWf, bankWf, officeWf, obsWf, bakeWf, thrdWf, relWf, arbWf, proofWf, pageWf, Bool.and_eq_true] at hw ⊢; simp [hw]; done)
      | (intro _ _ _) | (simp only [storesWf_same]) | (simp only [id_eq])

theorem wf_faultNode (id : Nat) (s : Block) (h : storesWf s = true) :
    storesWf (faultNode id s) = true := by
  unfold faultNode
  (try simp only [])
  repeat' first
      | with_reducible assumption | with_reducible apply wf_wheelUnlink | with_reducible apply wf_rackUnlink
      | with_reducible apply wf_unitUnlink | with_reducible apply wf_unbind | with_reducible apply wf_narrowFree
      | with_reducible apply wf_upNode | split
      | (intro w hw; simp only [twinWf, catWf, accWf, rackWf, deskWf, shelfWf, retWf, lardWf, sortWf, bankWf, officeWf, obsWf, bakeWf, thrdWf, relWf, arbWf, proofWf, pageWf, Bool.and_eq_true] at hw ⊢; simp [hw]; done)
      | (intro _ _ _) | (simp only [storesWf_same]) | (simp only [id_eq])

theorem wf_catFault (t : TwinId) (k : Nat) (code : Nat) (src : Nat) (node : Nat) (s : Block) (h : storesWf s = true) :
    storesWf (catFault t k code src node s) = true := by
  unfold catFault
  (try simp only [])
  repeat' first
      | with_reducible assumption | with_reducible apply wf_raiseFault | with_reducible apply wf_bump
      | with_reducible apply wf_upTw | with_reducible apply wf_setErr | split
      | (intro w hw; simp only [twinWf, catWf, accWf, rackWf, deskWf, shelfWf, retWf, lardWf, sortWf, bankWf, officeWf, obsWf, bakeWf, thrdWf, relWf, arbWf, proofWf, pageWf, Bool.and_eq_true] at hw ⊢; simp [hw]; done)
      | (intro _ _ _) | (simp only [storesWf_same])

theorem wf_countReady (t : TwinId) (k : Nat) (s : Block) (h : storesWf s = true) :
    storesWf (countReady t k s) = true := by
  unfold countReady
  (try simp only [])
  repeat' first
      | with_reducible assumption | with_reducible apply wf_optEvent | with_reducible apply wf_bump | split
      | (intro w hw; simp only [twinWf, catWf, accWf, rackWf, deskWf, shelfWf, retWf, lardWf, sortWf, bankWf, officeWf, obsWf, bakeWf, thrdWf, relWf, arbWf, proofWf, pageWf, Bool.and_eq_true] at hw ⊢; simp [hw]; done)
      | (intro _ _ _) | (simp only [storesWf_same]) | (simp only [id_eq])

theorem wf_readyTrace (id org orgId : Nat) (s : Block) (h : storesWf s = true) :
    storesWf (readyTrace id org orgId s) = true := by
  unfold readyTrace
  (try simp only [])
  repeat' first
      | with_reducible assumption | with_reducible apply wf_trace | split
      | (intro w hw; simp only [twinWf, catWf, accWf, rackWf, deskWf, shelfWf, retWf, lardWf, sortWf, bankWf, officeWf, obsWf, bakeWf, thrdWf, relWf, arbWf, proofWf, pageWf, Bool.and_eq_true] at hw ⊢; simp [hw]; done)
      | (intro _ _ _) | (simp only [storesWf_same]) | (simp only [id_eq])

theorem wf_makeReady (id org orgId : Nat) (s : Block) (h : storesWf s = true) :
    storesWf (makeReady id org orgId s) = true := by
  unfold makeReady
  (try simp only [])
  repeat' first
      | with_reducible assumption | with_reducible apply wf_upNode | with_reducible apply wf_countReady
      | with_reducible apply wf_readyTrace | with_reducible apply wf_placeFirst | with_reducible apply wf_pushWork
      | split
      | (intro w hw; simp only [twinWf, catWf, accWf, rackWf, deskWf, shelfWf, retWf, lardWf, sortWf, bankWf, officeWf, obsWf, bakeWf, thrdWf, relWf, arbWf, proofWf, pageWf, Bool.and_eq_true] at hw ⊢; simp [hw]; done)
      | (intro _ _ _) | (simp only [storesWf_same]) | (simp only [id_eq])

theorem wf_makeSkipped (id : Nat) (org : Nat) (orgId : Nat) (s : Block) (h : storesWf s = true) :
    storesWf (makeSkipped id org orgId s) = true := by
  unfold makeSkipped
  (try simp only [])
  repeat' first
      | with_reducible assumption | with_reducible apply wf_upNode | with_reducible apply wf_optEvent
      | with_reducible apply wf_bump | with_reducible apply wf_trace | with_reducible apply wf_pushWork
      | with_reducible apply wf_unbind | split
      | (intro w hw; simp only [twinWf, catWf, accWf, rackWf, deskWf, shelfWf, retWf, lardWf, sortWf, bankWf, officeWf, obsWf, bakeWf, thrdWf, relWf, arbWf, proofWf, pageWf, Bool.and_eq_true] at hw ⊢; simp [hw]; done)
      | (intro _ _ _) | (simp only [storesWf_same])

theorem wf_evaluate (id : Nat) (org : Nat) (orgId : Nat) (s : Block) (h : storesWf s = true) :
    storesWf (evaluate id org orgId s) = true := by
  unfold evaluate
  (try simp only [])
  repeat' first
      | with_reducible assumption | with_reducible apply wf_wheelUnlink | with_reducible apply wf_makeSkipped
      | with_reducible apply wf_makeReady | with_reducible apply wf_wheelLink | split | (intro _ _ _)
      | (simp only [storesWf_same])

theorem wf_setFlag (t : TwinId) (id : Nat) (c : Credit) (s : Block) (h : storesWf s = true) :
    storesWf (setFlag t id c s) = true := by
  unfold setFlag
  (try simp only [])
  repeat' first
      | with_reducible assumption | with_reducible apply wf_bumpCtx | with_reducible apply wf_bump
      | with_reducible apply wf_upNode | split
      | (intro w hw; simp only [twinWf, catWf, accWf, rackWf, deskWf, shelfWf, retWf, lardWf, sortWf, bankWf, officeWf, obsWf, bakeWf, thrdWf, relWf, arbWf, proofWf, pageWf, Bool.and_eq_true] at hw ⊢; simp [hw]; done)
      | (intro _ _ _) | (simp only [storesWf_same])

theorem wf_triggerCheck (id : Nat) (before : Nat) (s : Block) (h : storesWf s = true) :
    storesWf (triggerCheck id before s) = true := by
  unfold triggerCheck
  (try simp only [])
  repeat' first
      | with_reducible assumption | with_reducible apply wf_sendItem | split | (intro _ _ _)
      | (simp only [storesWf_same])

theorem wf_sortFault (t : TwinId) (k : Nat) (code : Nat) (reason : Nat) (node : Nat) (s : Block)
    (h : storesWf s = true) :
    storesWf (sortFault t k code reason node s) = true := by
  unfold sortFault
  (try simp only [])
  repeat' first
      | with_reducible assumption | with_reducible apply wf_raiseFault | with_reducible apply wf_upTw
      | with_reducible apply wf_setErr | split
      | (intro w hw; simp only [twinWf, catWf, accWf, rackWf, deskWf, shelfWf, retWf, lardWf, sortWf, bankWf, officeWf, obsWf, bakeWf, thrdWf, relWf, arbWf, proofWf, pageWf, Bool.and_eq_true] at hw ⊢; simp [hw]; done)
      | (intro _ _ _) | (simp only [storesWf_same])

theorem wf_bindCredit (id : Nat) (c : Credit) (r : List Credit × Block) (h : storesWf r.2 = true) :
    storesWf (bindCredit id c r).2 = true := by
  unfold bindCredit
  (try simp only [])
  repeat' first
      | with_reducible assumption | with_reducible apply wf_sortFault | with_reducible apply wf_upTw | split
      | (intro w hw; simp only [twinWf, catWf, accWf, rackWf, deskWf, shelfWf, retWf, lardWf, sortWf, bankWf, officeWf, obsWf, bakeWf, thrdWf, relWf, arbWf, proofWf, pageWf, Bool.and_eq_true] at hw ⊢; simp [hw]; done)
      | (intro _ _ _) | (simp only [storesWf_same]) | (simp only [id_eq])

theorem wf_binds (id : Nat) (l : List Credit) (r : List Credit × Block) (h : storesWf r.2 = true) :
    storesWf (List.foldl (fun r c => bindCredit id c r) r l).2 = true :=
  foldl_snd_wf l _ r h (fun r c hr => wf_bindCredit id c r hr)

theorem wf_creditNode (id : Nat) (cs : List Credit) (s : Block) (h : storesWf s = true) :
    storesWf (creditNode id cs s) = true := by
  unfold creditNode
  (try simp only [])
  repeat' first
      | with_reducible assumption | with_reducible apply wf_forEach | with_reducible apply wf_catFault
      | with_reducible apply wf_bindCredit | with_reducible apply wf_faultNode | with_reducible apply wf_upNode
      | with_reducible apply wf_setFlag | with_reducible apply wf_optEvent | with_reducible apply wf_bump
      | with_reducible apply wf_evaluate | with_reducible apply foldl_wf | with_reducible apply foldl_snd_wf | split
      | (intro w hw; simp only [twinWf, catWf, accWf, rackWf, deskWf, shelfWf, retWf, lardWf, sortWf, bankWf, officeWf, obsWf, bakeWf, thrdWf, relWf, arbWf, proofWf, pageWf, Bool.and_eq_true] at hw ⊢; simp [hw]; done)
      | (intro _ _ _) | (simp only [storesWf_same]) | (simp only [id_eq])

theorem wf_leaveCount (c : Credit) (s : Block) (h : storesWf s = true) : storesWf (leaveCount c s) = true := by
  unfold leaveCount
  (try simp only [])
  repeat' first
      | with_reducible assumption | with_reducible apply wf_pushWork | with_reducible apply wf_upTw | split
      | (intro w hw; simp only [twinWf, catWf, accWf, rackWf, deskWf, shelfWf, retWf, lardWf, sortWf, bankWf, officeWf, obsWf, bakeWf, thrdWf, relWf, arbWf, proofWf, pageWf, Bool.and_eq_true] at hw ⊢; simp [hw]; done)
      | (intro _ _ _) | (simp only [storesWf_same])

theorem wf_applyCredits (cs : List Credit) (s : Block) (h : storesWf s = true) :
    storesWf (applyCredits cs s) = true := by
  unfold applyCredits
  (try simp only [])
  repeat' first
      | with_reducible assumption | with_reducible apply wf_forEach | with_reducible apply wf_creditNode
      | with_reducible apply wf_triggerCheck | with_reducible apply wf_leaveCount | split
      | (intro w hw; simp only [twinWf, catWf, accWf, rackWf, deskWf, shelfWf, retWf, lardWf, sortWf, bankWf, officeWf, obsWf, bakeWf, thrdWf, relWf, arbWf, proofWf, pageWf, Bool.and_eq_true] at hw ⊢; simp [hw]; done)
      | (intro _ _ _) | (simp only [storesWf_same]) | (simp only [id_eq])

theorem wf_sealed (id : Nat) (s : Block) (h : storesWf s = true) : storesWf (sealed id s) = true := by
  unfold sealed
  (try simp only [])
  repeat' first
      | with_reducible assumption | with_reducible apply wf_bump | with_reducible apply wf_upNode | split
      | (intro w hw; simp only [twinWf, catWf, accWf, rackWf, deskWf, shelfWf, retWf, lardWf, sortWf, bankWf, officeWf, obsWf, bakeWf, thrdWf, relWf, arbWf, proofWf, pageWf, Bool.and_eq_true] at hw ⊢; simp [hw]; done)
      | (intro _ _ _) | (simp only [storesWf_same])

theorem wf_walkBucket (t : TwinId) (b : Nat) (s : Block) (h : storesWf s = true) :
    storesWf (walkBucket t b s) = true := by
  unfold walkBucket
  (try simp only [])
  repeat' first
      | with_reducible assumption | with_reducible apply wf_evaluate | with_reducible apply wf_bump
      | with_reducible apply wf_forEach | split | (intro _ _ _) | (simp only [storesWf_same])

theorem wf_wheelWalk (t : TwinId) (s : Block) (h : storesWf s = true) : storesWf (wheelWalk t s) = true := by
  unfold wheelWalk
  (try simp only [])
  repeat' first
      | with_reducible assumption | with_reducible apply wf_walkBucket | with_reducible apply wf_upTw | split
      | (intro w hw; simp only [twinWf, catWf, accWf, rackWf, deskWf, shelfWf, retWf, lardWf, sortWf, bankWf, officeWf, obsWf, bakeWf, thrdWf, relWf, arbWf, proofWf, pageWf, Bool.and_eq_true] at hw ⊢; simp [hw]; done)
      | (intro _ _ _) | (simp only [storesWf_same])

theorem wf_refuse (t : TwinId) (k : Nat) (code : Nat) (bank : Nat) (off : Nat) (s : Block) (h : storesWf s = true) :
    storesWf (refuse t k code bank off s) = true := by
  unfold refuse
  (try simp only [])
  repeat' first
      | with_reducible assumption | with_reducible apply wf_raiseFault | with_reducible apply wf_upCtx
      | with_reducible apply wf_bump | with_reducible apply wf_setErr | with_reducible apply wf_upTw | split
      | (intro w hw; simp only [twinWf, catWf, accWf, rackWf, deskWf, shelfWf, retWf, lardWf, sortWf, bankWf, officeWf, obsWf, bakeWf, thrdWf, relWf, arbWf, proofWf, pageWf, Bool.and_eq_true] at hw ⊢; simp [hw]; done)
      | (intro _ _ _) | (simp only [storesWf_same])

theorem wf_sealFail (t : TwinId) (id : Nat) (k : Nat) (code : Nat) (bank : Nat) (off : Nat) (s : Block)
    (h : storesWf s = true) :
    storesWf (sealFail t id k code bank off s) = true := by
  unfold sealFail
  (try simp only [])
  repeat' first
      | with_reducible assumption | with_reducible apply wf_refuse | with_reducible apply wf_faultNode | split
      | (intro _ _ _) | (simp only [storesWf_same])

theorem wf_locksFold (m : SMap Bool) (b n : Nat) (v : Bool) (h : mapWf false m = true) :
    mapWf false (List.foldl (fun m i => mapSet false m (b + i) v) m (List.range n)) = true :=
  foldl_map_wf _ _ _ _ h (fun m x hm => by simp [hm])

theorem wf_lockList (v : Bool) (id : Nat) (n : Node) (s : Block) (h : storesWf s = true) :
    storesWf (lockList v id n s) = true := by
  unfold lockList
  refine wf_upTw _ _ s h ?_
  intro w hw; simp only [twinWf, catWf, accWf, rackWf, deskWf, shelfWf, retWf, lardWf, sortWf, bankWf, officeWf, obsWf, bakeWf, thrdWf, relWf, arbWf, proofWf, pageWf, Bool.and_eq_true] at hw ⊢; simp [hw, wf_locksFold]

theorem wf_enterLoading (k : Nat) (id : Nat) (s : Block) (h : storesWf s = true) :
    storesWf (enterLoading k id s) = true := by
  unfold enterLoading
  (try simp only [])
  repeat' first
      | with_reducible assumption | with_reducible apply wf_setNode | with_reducible apply wf_lockList
      | with_reducible apply wf_upNode | split
      | (intro w hw; simp only [twinWf, catWf, accWf, rackWf, deskWf, shelfWf, retWf, lardWf, sortWf, bankWf, officeWf, obsWf, bakeWf, thrdWf, relWf, arbWf, proofWf, pageWf, Bool.and_eq_true] at hw ⊢; simp [hw]; done)
      | (intro _ _ _) | (simp only [storesWf_same])

theorem wf_applyAppend (f : Nat) (sNode : Nat) (g : Nat) (k : Nat) (word : Nat) (s : Block) (h : storesWf s = true) :
    storesWf (applyAppend f sNode g k word s) = true := by
  unfold applyAppend
  (try simp only [])
  repeat' first
      | with_reducible assumption | with_reducible apply wf_sealFail | with_reducible apply wf_bump
      | with_reducible apply wf_upNode | with_reducible apply wf_upTw | split
      | (intro w hw; simp only [twinWf, catWf, accWf, rackWf, deskWf, shelfWf, retWf, lardWf, sortWf, bankWf, officeWf, obsWf, bakeWf, thrdWf, relWf, arbWf, proofWf, pageWf, Bool.and_eq_true] at hw ⊢; simp [hw]; done)
      | (intro _ _ _) | (simp only [storesWf_same])

theorem wf_applyMirrorReq (g k kind : Nat) (lc : Bool) (level larder d cap : Nat) (s : Block) (h : storesWf s = true) :
    storesWf (applyMirrorReq g k kind lc level larder d cap s) = true := by
  unfold applyMirrorReq
  (try simp only [])
  repeat' first
      | with_reducible assumption | with_reducible apply wf_enterLoading | with_reducible apply wf_upCtxTw
      | with_reducible apply wf_upNode | split
      | (intro w hw; simp only [twinWf, catWf, accWf, rackWf, deskWf, shelfWf, retWf, lardWf, sortWf, bankWf, officeWf, obsWf, bakeWf, thrdWf, relWf, arbWf, proofWf, pageWf, Bool.and_eq_true] at hw ⊢; simp [hw]; done)
      | (intro _ _ _) | (simp only [storesWf_same]) | (simp only [id_eq])

theorem wf_mirrorSteps (w : MirWork) (s : Block) (h : storesWf s = true) : storesWf (mirrorSteps w s) = true := by
  unfold mirrorSteps
  (try simp only [])
  repeat' first
      | with_reducible assumption | with_reducible apply wf_applyMirrorReq | with_reducible apply wf_upTw
      | with_reducible apply wf_sendItem | with_reducible apply wf_applyAppend | with_reducible apply wf_pushWork
      | with_reducible apply wf_upNode | with_reducible apply wf_forEach | split
      | (intro w hw; simp only [twinWf, catWf, accWf, rackWf, deskWf, shelfWf, retWf, lardWf, sortWf, bankWf, officeWf, obsWf, bakeWf, thrdWf, relWf, arbWf, proofWf, pageWf, Bool.and_eq_true] at hw ⊢; simp [hw]; done)
      | (intro _ _ _) | (simp only [storesWf_same])

theorem wf_startMirror (f k bank off : Nat) (s : Block) (h : storesWf s = true) :
    storesWf (startMirror f k bank off s) = true := by
  unfold startMirror
  (try simp only [])
  repeat' first
      | with_reducible assumption | with_reducible apply wf_upNode | with_reducible apply wf_upTw
      | with_reducible apply wf_mirrorSteps | with_reducible apply wf_forEach | with_reducible apply wf_sendItem | split
      | (intro w hw; simp only [twinWf, catWf, accWf, rackWf, deskWf, shelfWf, retWf, lardWf, sortWf, bankWf, officeWf, obsWf, bakeWf, thrdWf, relWf, arbWf, proofWf, pageWf, Bool.and_eq_true] at hw ⊢; simp [hw]; done)
      | (intro _ _ _) | (simp only [storesWf_same]) | (simp only [id_eq])

theorem wf_applyTargetAns (t : TwinId) (f : Nat) (i : Nat) (en : Bool) (m : Nat) (s : Block) (h : storesWf s = true) :
    storesWf (applyTargetAns t f i en m s) = true := by
  unfold applyTargetAns
  (try simp only [])
  repeat' first
      | with_reducible assumption | with_reducible apply wf_upTw | with_reducible apply wf_mirrorSteps | split
      | (intro w hw; simp only [twinWf, catWf, accWf, rackWf, deskWf, shelfWf, retWf, lardWf, sortWf, bankWf, officeWf, obsWf, bakeWf, thrdWf, relWf, arbWf, proofWf, pageWf, Bool.and_eq_true] at hw ⊢; simp [hw]; done)
      | (intro _ _ _) | (simp only [storesWf_same])

theorem wf_applyMirrorAck (t : TwinId) (f : Nat) (s : Block) (h : storesWf s = true) :
    storesWf (applyMirrorAck t f s) = true := by
  unfold applyMirrorAck
  (try simp only [])
  repeat' first
      | with_reducible assumption | with_reducible apply wf_pushWork | with_reducible apply wf_upNode
      | with_reducible apply wf_upTw | split
      | (intro w hw; simp only [twinWf, catWf, accWf, rackWf, deskWf, shelfWf, retWf, lardWf, sortWf, bankWf, officeWf, obsWf, bakeWf, thrdWf, relWf, arbWf, proofWf, pageWf, Bool.and_eq_true] at hw ⊢; simp [hw]; done)
      | (intro _ _ _) | (simp only [storesWf_same])

theorem wf_sealNode (k : Nat) (id : Nat) (bank : Nat) (off : Nat) (s : Block) (h : storesWf s = true) :
    storesWf (sealNode k id bank off s) = true := by
  unfold sealNode
  (try simp only [])
  repeat' first
      | with_reducible assumption | with_reducible apply wf_catFault | with_reducible apply wf_faultNode
      | with_reducible apply wf_sealFail | with_reducible apply wf_upNode | with_reducible apply wf_lockList
      | with_reducible apply wf_pushWork | with_reducible apply wf_sealed | with_reducible apply wf_startMirror
      | split
      | (intro w hw; simp only [twinWf, catWf, accWf, rackWf, deskWf, shelfWf, retWf, lardWf, sortWf, bankWf, officeWf, obsWf, bakeWf, thrdWf, relWf, arbWf, proofWf, pageWf, Bool.and_eq_true] at hw ⊢; simp [hw]; done)
      | (intro _ _ _) | (simp only [storesWf_same])

theorem wf_nodeWord (k bank off : Nat) (data : List Byte) (slot j : Nat) (s : Block) (h : storesWf s = true) :
    storesWf (nodeWord k bank off data slot j s) = true := by
  unfold nodeWord
  (try simp only [])
  repeat' first
      | with_reducible assumption | with_reducible apply wf_refuse | with_reducible apply wf_enterLoading
      | with_reducible apply wf_upCtx | with_reducible apply wf_upNode | with_reducible apply wf_sealNode | split
      | (intro w hw; simp only [twinWf, catWf, accWf, rackWf, deskWf, shelfWf, retWf, lardWf, sortWf, bankWf, officeWf, obsWf, bakeWf, thrdWf, relWf, arbWf, proofWf, pageWf, Bool.and_eq_true] at hw ⊢; simp [hw]; done)
      | (intro _ _ _) | (simp only [storesWf_same]) | (simp only [id_eq])

theorem wf_nodePart (k bank off : Nat) (data : List Byte) (s : Block) (h : storesWf s = true) :
    storesWf (nodePart k bank off data s) = true := by
  unfold nodePart
  (try simp only [])
  repeat' first
      | with_reducible assumption | with_reducible apply wf_forEach | with_reducible apply wf_nodeWord | split
      | (intro w hw; simp only [twinWf, catWf, accWf, rackWf, deskWf, shelfWf, retWf, lardWf, sortWf, bankWf, officeWf, obsWf, bakeWf, thrdWf, relWf, arbWf, proofWf, pageWf, Bool.and_eq_true] at hw ⊢; simp [hw]; done)
      | (intro _ _ _) | (simp only [storesWf_same]) | (simp only [id_eq])

theorem wf_edgeWord (k : Nat) (bank : Nat) (off : Nat) (data : List Byte) (slot : Nat) (s : Block)
    (h : storesWf s = true) :
    storesWf (edgeWord k bank off data slot s) = true := by
  unfold edgeWord
  (try simp only [])
  repeat' first
      | with_reducible assumption | with_reducible apply wf_refuse | with_reducible apply wf_bump
      | with_reducible apply wf_upTw | split
      | (intro w hw; simp only [twinWf, catWf, accWf, rackWf, deskWf, shelfWf, retWf, lardWf, sortWf, bankWf, officeWf, obsWf, bakeWf, thrdWf, relWf, arbWf, proofWf, pageWf, Bool.and_eq_true] at hw ⊢; simp [hw]; done)
      | (intro _ _ _) | (simp only [storesWf_same])

theorem wf_edgePart (k bank off : Nat) (data : List Byte) (s : Block) (h : storesWf s = true) :
    storesWf (edgePart k bank off data s) = true := by
  unfold edgePart
  (try simp only [])
  repeat' first
      | with_reducible assumption | with_reducible apply wf_forEach | with_reducible apply wf_edgeWord | split
      | (intro w hw; simp only [twinWf, catWf, accWf, rackWf, deskWf, shelfWf, retWf, lardWf, sortWf, bankWf, officeWf, obsWf, bakeWf, thrdWf, relWf, arbWf, proofWf, pageWf, Bool.and_eq_true] at hw ⊢; simp [hw]; done)
      | (intro _ _ _) | (simp only [storesWf_same]) | (simp only [id_eq])

theorem wf_rearmTwin (t : TwinId) (k : Nat) (s : Block) (h : storesWf s = true) :
    storesWf (rearmTwin t k s) = true := by
  unfold rearmTwin
  (try simp only [])
  repeat' first
      | with_reducible assumption | with_reducible apply wf_unbind | with_reducible apply wf_narrowFree
      | with_reducible apply wf_upNode | with_reducible apply wf_bump | with_reducible apply wf_upCtxTw
      | with_reducible apply wf_pushWork | with_reducible apply wf_forEach | split
      | (intro w hw; simp only [twinWf, catWf, accWf, rackWf, deskWf, shelfWf, retWf, lardWf, sortWf, bankWf, officeWf, obsWf, bakeWf, thrdWf, relWf, arbWf, proofWf, pageWf, Bool.and_eq_true] at hw ⊢; simp [hw]; done)
      | (intro _ _ _) | (simp only [storesWf_same])

theorem wf_closeNode (t : TwinId) (k : Nat) (x : Nat) (s : Block) (h : storesWf s = true) :
    storesWf (closeNode t k x s) = true := by
  unfold closeNode
  (try simp only [])
  repeat' first
      | with_reducible assumption | with_reducible apply wf_upNode | with_reducible apply wf_pushWork
      | with_reducible apply wf_sealed | with_reducible apply wf_catFault | with_reducible apply wf_faultNode | split
      | (intro w hw; simp only [twinWf, catWf, accWf, rackWf, deskWf, shelfWf, retWf, lardWf, sortWf, bankWf, officeWf, obsWf, bakeWf, thrdWf, relWf, arbWf, proofWf, pageWf, Bool.and_eq_true] at hw ⊢; simp [hw]; done)
      | (intro _ _ _) | (simp only [storesWf_same])

theorem wf_sendMarker (t : TwinId) (k : Nat) (s : Block) (h : storesWf s = true) :
    storesWf (sendMarker t k s) = true := by
  unfold sendMarker
  (try simp only [])
  repeat' first
      | with_reducible assumption | with_reducible apply wf_sendItem | split | (intro _ _ _)
      | (simp only [storesWf_same])

theorem wf_mirrorClose (k : Nat) (t : TwinId) (s : Block) (h : storesWf s = true) :
    storesWf (mirrorClose k t s) = true := by
  unfold mirrorClose
  (try simp only [])
  repeat' first
      | with_reducible assumption | with_reducible apply wf_upCtxTw | split
      | (intro w hw; simp only [twinWf, catWf, accWf, rackWf, deskWf, shelfWf, retWf, lardWf, sortWf, bankWf, officeWf, obsWf, bakeWf, thrdWf, relWf, arbWf, proofWf, pageWf, Bool.and_eq_true] at hw ⊢; simp [hw]; done)
      | (intro _ _ _) | (simp only [storesWf_same]) | (simp only [id_eq])

theorem wf_mirrorCloseEffect (t : TwinId) (k : Nat) (s : Block) (h : storesWf s = true) :
    storesWf (mirrorCloseEffect t k s) = true := by
  unfold mirrorCloseEffect
  (try simp only [])
  repeat' first
      | with_reducible assumption | with_reducible apply wf_forEach | with_reducible apply wf_closeNode
      | with_reducible apply wf_upCtx | with_reducible apply wf_upCtxTw | with_reducible apply wf_sendMarker | split
      | (intro w hw; simp only [twinWf, catWf, accWf, rackWf, deskWf, shelfWf, retWf, lardWf, sortWf, bankWf, officeWf, obsWf, bakeWf, thrdWf, relWf, arbWf, proofWf, pageWf, Bool.and_eq_true] at hw ⊢; simp [hw]; done)
      | (intro _ _ _) | (simp only [storesWf_same]) | (simp only [id_eq])

theorem wf_discardWrite (k : Nat) (s : Block) (h : storesWf s = true) :
    storesWf (discardWrite k s) = true := by
  unfold discardWrite
  (try simp only [])
  repeat' first
      | with_reducible assumption | with_reducible apply wf_discardIn | split
      | (intro w hw; simp only [twinWf, catWf, accWf, rackWf, deskWf, shelfWf, retWf, lardWf, sortWf, bankWf, officeWf, obsWf, bakeWf, thrdWf, relWf, arbWf, proofWf, pageWf, Bool.and_eq_true] at hw ⊢; simp [hw]; done)
      | (intro _ _ _) | (simp only [storesWf_same]) | (simp only [id_eq])

theorem wf_upLane (t : TwinId) (key : Nat) (f : Lane → Lane) (s : Block) (h : storesWf s = true) :
    storesWf (upLane t key f s) = true := by
  unfold upLane
  (try simp only [])
  repeat' first
      | with_reducible assumption | with_reducible apply wf_upTw | split
      | (intro w hw; simp only [twinWf, catWf, accWf, rackWf, deskWf, shelfWf, retWf, lardWf, sortWf, bankWf, officeWf, obsWf, bakeWf, thrdWf, relWf, arbWf, proofWf, pageWf, Bool.and_eq_true] at hw ⊢; simp [hw]; done)
      | (intro _ _ _) | (simp only [storesWf_same])

theorem wf_highWater (t : TwinId) (s : Block) (h : storesWf s = true) : storesWf (highWater t s) = true := by
  unfold highWater
  (try simp only [])
  repeat' first
      | with_reducible assumption | with_reducible apply wf_upTw | split
      | (intro w hw; simp only [twinWf, catWf, accWf, rackWf, deskWf, shelfWf, retWf, lardWf, sortWf, bankWf, officeWf, obsWf, bakeWf, thrdWf, relWf, arbWf, proofWf, pageWf, Bool.and_eq_true] at hw ⊢; simp [hw]; done)
      | (intro _ _ _) | (simp only [storesWf_same])

theorem wf_openRec (t : TwinId) (r : CircRec) (s : Block) (h : storesWf s = true) :
    storesWf (openRec t r s) = true := by
  unfold openRec
  (try simp only [])
  repeat' first
      | with_reducible assumption | with_reducible apply wf_highWater | with_reducible apply wf_setRec | split
      | (intro _ _ _) | (simp only [storesWf_same])

theorem wf_closeRec (t : TwinId) (i : Nat) (s : Block) (h : storesWf s = true) :
    storesWf (closeRec t i s) = true := by
  unfold closeRec
  (try simp only [])
  repeat' first
      | with_reducible assumption | with_reducible apply wf_setRec | with_reducible apply wf_pushWork | split
      | (intro _ _ _) | (simp only [storesWf_same])

theorem wf_writersInc (id : Nat) (s : Block) (h : storesWf s = true) : storesWf (writersInc id s) = true := by
  unfold writersInc
  (try simp only [])
  repeat' first
      | with_reducible assumption | with_reducible apply wf_sendItem | with_reducible apply wf_upNode | split
      | (intro w hw; simp only [twinWf, catWf, accWf, rackWf, deskWf, shelfWf, retWf, lardWf, sortWf, bankWf, officeWf, obsWf, bakeWf, thrdWf, relWf, arbWf, proofWf, pageWf, Bool.and_eq_true] at hw ⊢; simp [hw]; done)
      | (intro _ _ _) | (simp only [storesWf_same])

theorem wf_writersDec (id : Nat) (s : Block) (h : storesWf s = true) : storesWf (writersDec id s) = true := by
  unfold writersDec
  (try simp only [])
  repeat' first
      | with_reducible assumption | with_reducible apply wf_sendItem | with_reducible apply wf_upNode | split
      | (intro w hw; simp only [twinWf, catWf, accWf, rackWf, deskWf, shelfWf, retWf, lardWf, sortWf, bankWf, officeWf, obsWf, bakeWf, thrdWf, relWf, arbWf, proofWf, pageWf, Bool.and_eq_true] at hw ⊢; simp [hw]; done)
      | (intro _ _ _) | (simp only [storesWf_same])

theorem wf_heldTrace (t : TwinId) (k : Nat) (node : Nat) (g : Nat) (why : Why) (s : Block) (h : storesWf s = true) :
    storesWf (heldTrace t k node g why s) = true := by
  unfold heldTrace
  (try simp only [])
  repeat' first
      | with_reducible assumption | with_reducible apply wf_trace | with_reducible apply wf_optEvent
      | with_reducible apply wf_bump | split | (intro _ _ _) | (simp only [storesWf_same])

theorem wf_holdNode (t : TwinId) (g x : Nat) (why : Why) (s : Block) (h : storesWf s = true) :
    storesWf (holdNode t g x why s) = true := by
  unfold holdNode
  (try simp only [])
  repeat' first
      | with_reducible assumption | with_reducible apply wf_heldTrace | with_reducible apply wf_upCtxTw
      | with_reducible apply wf_upNode | split
      | (intro w hw; simp only [twinWf, catWf, accWf, rackWf, deskWf, shelfWf, retWf, lardWf, sortWf, bankWf, officeWf, obsWf, bakeWf, thrdWf, relWf, arbWf, proofWf, pageWf, Bool.and_eq_true] at hw ⊢; simp [hw]; done)
      | (intro _ _ _) | (simp only [storesWf_same]) | (simp only [id_eq])

theorem wf_holdCopy (t : TwinId) (c : Copy) (s : Block) (h : storesWf s = true) :
    storesWf (holdCopy t c s) = true := by
  unfold holdCopy
  (try simp only [])
  repeat' first
      | with_reducible assumption | with_reducible apply wf_heldTrace | with_reducible apply wf_upCtxTw | split
      | (intro w hw; simp only [twinWf, catWf, accWf, rackWf, deskWf, shelfWf, retWf, lardWf, sortWf, bankWf, officeWf, obsWf, bakeWf, thrdWf, relWf, arbWf, proofWf, pageWf, Bool.and_eq_true] at hw ⊢; simp [hw]; done)
      | (intro _ _ _) | (simp only [storesWf_same])

theorem wf_dropHead (t : TwinId) (key : Nat) (s : Block) (h : storesWf s = true) :
    storesWf (dropHead t key s) = true := by
  unfold dropHead
  (try simp only [])
  repeat' first
      | with_reducible assumption | with_reducible apply wf_upLane | with_reducible apply wf_holdNode
      | with_reducible apply wf_holdCopy | split
      | (intro w hw; simp only [twinWf, catWf, accWf, rackWf, deskWf, shelfWf, retWf, lardWf, sortWf, bankWf, officeWf, obsWf, bakeWf, thrdWf, relWf, arbWf, proofWf, pageWf, Bool.and_eq_true] at hw ⊢; simp [hw]; done)
      | (intro _ _ _) | (simp only [storesWf_same])

theorem wf_clearHeads (t : TwinId) (key f : Nat) (s : Block) (h : storesWf s = true) :
    storesWf (clearHeads t key f s) = true := by
  induction f generalizing s with
  | zero => exact h
  | succ f ih =>
    unfold clearHeads
    repeat' first
        | with_reducible assumption | with_reducible apply ih | with_reducible apply wf_dropHead | split
        | (intro _ _ _) | (simp only [storesWf_same])

theorem wf_pickLanes (t : TwinId) (ks : List Nat) (s : Block) (h : storesWf s = true) :
    storesWf (pickLanes t ks s).2 = true := by
  induction ks generalizing s with
  | nil => exact h
  | cons k ks ih =>
    unfold pickLanes
    have hc := wf_clearHeads t k (laneCount (laneOf s t k)) s h
    generalize clearHeads t k (laneCount (laneOf s t k)) s = s1 at hc
    dsimp only
    split
    · exact hc
    · exact ih _ hc

theorem wf_pick (t : TwinId) (g : Nat) (d : Int) (s : Block) (h : storesWf s = true) :
    storesWf (pick t g d s).2 = true := by
  unfold pick
  (try simp only [])
  repeat' first
      | with_reducible assumption | with_reducible apply wf_pickLanes | split | (intro _ _ _)
      | (simp only [storesWf_same])

theorem wf_rrAdvance (t : TwinId) (key : Nat) (s : Block) (h : storesWf s = true) :
    storesWf (rrAdvance t key s) = true := by
  unfold rrAdvance
  (try simp only [])
  repeat' first
      | with_reducible assumption | with_reducible apply wf_upTw | split
      | (intro w hw; simp only [twinWf, catWf, accWf, rackWf, deskWf, shelfWf, retWf, lardWf, sortWf, bankWf, officeWf, obsWf, bakeWf, thrdWf, relWf, arbWf, proofWf, pageWf, Bool.and_eq_true] at hw ⊢; simp [hw]; done)
      | (intro _ _ _) | (simp only [storesWf_same])

theorem wf_mixApply (t : TwinId) (g : Nat) (dd : Int) (s : Block) (h : storesWf s = true) :
    storesWf (mixApply t g dd s) = true := by
  unfold mixApply
  (try simp only [])
  repeat' first
      | with_reducible assumption | with_reducible apply wf_upTw | split
      | (intro w hw; simp only [twinWf, catWf, accWf, rackWf, deskWf, shelfWf, retWf, lardWf, sortWf, bankWf, officeWf, obsWf, bakeWf, thrdWf, relWf, arbWf, proofWf, pageWf, Bool.and_eq_true] at hw ⊢; simp [hw]; done)
      | (intro _ _ _) | (simp only [storesWf_same])

theorem wf_useCtx (k : Nat) (s : Block) (h : storesWf s = true) : storesWf (useCtx k s) = true := by
  unfold useCtx
  (try simp only [])
  repeat' first
      | with_reducible assumption | with_reducible apply wf_upCtx | split
      | (intro w hw; simp only [twinWf, catWf, accWf, rackWf, deskWf, shelfWf, retWf, lardWf, sortWf, bankWf, officeWf, obsWf, bakeWf, thrdWf, relWf, arbWf, proofWf, pageWf, Bool.and_eq_true] at hw ⊢; simp [hw]; done)
      | (intro _ _ _) | (simp only [storesWf_same])

theorem wf_chargeGrant (t : TwinId) (k : Nat) (g : Nat) (lc : Bool) (s : Block) (h : storesWf s = true) :
    storesWf (chargeGrant t k g lc s) = true := by
  unfold chargeGrant
  (try simp only [])
  repeat' first
      | with_reducible assumption | with_reducible apply wf_upCtxTw | with_reducible apply wf_bumpCtx
      | with_reducible apply wf_bump | split
      | (intro w hw; simp only [twinWf, catWf, accWf, rackWf, deskWf, shelfWf, retWf, lardWf, sortWf, bankWf, officeWf, obsWf, bakeWf, thrdWf, relWf, arbWf, proofWf, pageWf, Bool.and_eq_true] at hw ⊢; simp [hw]; done)
      | (intro _ _ _) | (simp only [storesWf_same])

theorem wf_grantTrace (t : TwinId) (w : GrantWord) (via : Bool) (key : Nat) (readyAt : Nat) (s : Block)
    (h : storesWf s = true) :
    storesWf (grantTrace t w via key readyAt s) = true := by
  unfold grantTrace
  (try simp only [])
  repeat' first
      | with_reducible assumption | with_reducible apply wf_trace | split | (intro _ _ _)
      | (simp only [storesWf_same])

theorem wf_rebakeRuns (id : Nat) (s : Block) (h : storesWf s = true) :
    storesWf (rebakeRuns id s) = true := by
  unfold rebakeRuns
  (try simp only [])
  repeat' first
      | with_reducible assumption | with_reducible apply wf_upTw | split
      | (intro w hw; simp only [twinWf, catWf, accWf, rackWf, deskWf, shelfWf, retWf, lardWf, sortWf, bankWf, officeWf, obsWf, bakeWf, thrdWf, relWf, arbWf, proofWf, pageWf, Bool.and_eq_true] at hw ⊢; simp [hw]; done)
      | (intro _ _ _) | (simp only [storesWf_same]) | (simp only [id_eq])

theorem wf_grantNode (t : TwinId) (key x eng : Nat) (via : Bool) (s : Block) (h : storesWf s = true) :
    storesWf (grantNode t key x eng via s).2.2 = true := by
  unfold grantNode
  (try simp only [])
  repeat' first
      | with_reducible assumption | with_reducible apply wf_rrAdvance | with_reducible apply wf_upLane
      | with_reducible apply wf_upNode | with_reducible apply wf_openRec | with_reducible apply wf_rebakeRuns
      | with_reducible apply wf_narrowFree | with_reducible apply wf_useCtx | with_reducible apply wf_chargeGrant
      | with_reducible apply wf_optEvent | with_reducible apply wf_grantTrace | split
      | (intro w hw; simp only [twinWf, catWf, accWf, rackWf, deskWf, shelfWf, retWf, lardWf, sortWf, bankWf, officeWf, obsWf, bakeWf, thrdWf, relWf, arbWf, proofWf, pageWf, Bool.and_eq_true] at hw ⊢; simp [hw]; done)
      | (intro _ _ _) | (simp only [storesWf_same]) | (simp only [id_eq])

theorem wf_grantCopy (t : TwinId) (key : Nat) (c : Copy) (eng seq : Nat) (s : Block) (h : storesWf s = true) :
    storesWf (grantCopy t key c eng seq s).2 = true := by
  unfold grantCopy
  (try simp only [])
  repeat' first
      | with_reducible assumption | with_reducible apply wf_rrAdvance | with_reducible apply wf_upLane
      | with_reducible apply wf_sendClaim | with_reducible apply wf_useCtx | with_reducible apply wf_chargeGrant
      | with_reducible apply wf_grantTrace | with_reducible apply wf_optEvent | split
      | (intro w hw; simp only [twinWf, catWf, accWf, rackWf, deskWf, shelfWf, retWf, lardWf, sortWf, bankWf, officeWf, obsWf, bakeWf, thrdWf, relWf, arbWf, proofWf, pageWf, Bool.and_eq_true] at hw ⊢; simp [hw]; done)
      | (intro _ _ _) | (simp only [storesWf_same]) | (simp only [id_eq])

theorem wf_drive (t : TwinId) (w : GrantWord) (s : Block) (h : storesWf s = true) :
    storesWf (drive t w s) = true := by
  unfold drive
  (try simp only [])
  repeat' first
      | with_reducible assumption | with_reducible apply wf_upEng | with_reducible apply wf_bumpCtx
      | with_reducible apply wf_bump | with_reducible apply wf_upTw | with_reducible apply wf_emit | split
      | (intro w hw; simp only [twinWf, catWf, accWf, rackWf, deskWf, shelfWf, retWf, lardWf, sortWf, bankWf, officeWf, obsWf, bakeWf, thrdWf, relWf, arbWf, proofWf, pageWf, Bool.and_eq_true] at hw ⊢; simp [hw]; done)
      | (intro _ _ _) | (simp only [storesWf_same])

theorem wf_upClaim (e : Nat) (seq : Nat) (f : Claim → Claim) (s : Block) (h : storesWf s = true) :
    storesWf (upClaim e seq f s) = true := by
  unfold upClaim
  (try simp only [])
  repeat' first
      | with_reducible assumption | with_reducible apply wf_upEng | split
      | (intro w hw; simp only [twinWf, catWf, accWf, rackWf, deskWf, shelfWf, retWf, lardWf, sortWf, bankWf, officeWf, obsWf, bakeWf, thrdWf, relWf, arbWf, proofWf, pageWf, Bool.and_eq_true] at hw ⊢; simp [hw]; done)
      | (intro _ _ _) | (simp only [storesWf_same])

theorem wf_dropClaim (e : Nat) (seq : Nat) (s : Block) (h : storesWf s = true) :
    storesWf (dropClaim e seq s) = true := by
  unfold dropClaim
  (try simp only [])
  repeat' first
      | with_reducible assumption | with_reducible apply wf_upEng | split
      | (intro w hw; simp only [twinWf, catWf, accWf, rackWf, deskWf, shelfWf, retWf, lardWf, sortWf, bankWf, officeWf, obsWf, bakeWf, thrdWf, relWf, arbWf, proofWf, pageWf, Bool.and_eq_true] at hw ⊢; simp [hw]; done)
      | (intro _ _ _) | (simp only [storesWf_same])

theorem wf_countMix (t : TwinId) (g load : Nat) (s : Block) (h : storesWf s = true) :
    storesWf (countMix t g load s) = true := by
  unfold countMix
  (try simp only [])
  repeat' first
      | with_reducible assumption | with_reducible apply wf_bump | split
      | (intro w hw; simp only [twinWf, catWf, accWf, rackWf, deskWf, shelfWf, retWf, lardWf, sortWf, bankWf, officeWf, obsWf, bakeWf, thrdWf, relWf, arbWf, proofWf, pageWf, Bool.and_eq_true] at hw ⊢; simp [hw]; done)
      | (intro _ _ _) | (simp only [storesWf_same]) | (simp only [id_eq])

theorem wf_grantLocal (t : TwinId) (key e seq : Nat) (s : Block) (h : storesWf s = true) :
    storesWf (grantLocal t key e seq s) = true := by
  unfold grantLocal
  (try simp only [])
  repeat' first
      | with_reducible assumption | with_reducible apply wf_grantNode | with_reducible apply wf_countMix
      | with_reducible apply wf_mixApply | with_reducible apply wf_bump | with_reducible apply wf_drive
      | with_reducible apply wf_dropClaim | with_reducible apply wf_grantCopy | split
      | (intro w hw; simp only [twinWf, catWf, accWf, rackWf, deskWf, shelfWf, retWf, lardWf, sortWf, bankWf, officeWf, obsWf, bakeWf, thrdWf, relWf, arbWf, proofWf, pageWf, Bool.and_eq_true] at hw ⊢; simp [hw]; done)
      | (intro _ _ _) | (simp only [storesWf_same]) | (simp only [id_eq])

theorem wf_grantOrWait (t : TwinId) (key : Nat) (e : Nat) (seq : Nat) (s : Block) (h : storesWf s = true) :
    storesWf (grantOrWait t key e seq s) = true := by
  unfold grantOrWait
  (try simp only [])
  repeat' first
      | with_reducible assumption | with_reducible apply wf_upClaim | with_reducible apply wf_grantLocal | split
      | (intro w hw; simp only [twinWf, catWf, accWf, rackWf, deskWf, shelfWf, retWf, lardWf, sortWf, bankWf, officeWf, obsWf, bakeWf, thrdWf, relWf, arbWf, proofWf, pageWf, Bool.and_eq_true] at hw ⊢; simp [hw]; done)
      | (intro _ _ _) | (simp only [storesWf_same])

theorem wf_tryServe (t : TwinId) (e : Nat) (seq : Nat) (c : Claim) (s : Block) (h : storesWf s = true) :
    storesWf (tryServe t e seq c s) = true := by
  unfold tryServe
  simp only []
  have hp := wf_pick t ((groupOf e).getD 0) (mapGet 0 (tw s t).rack.mix ((groupOf e).getD 0)) s h
  repeat' first
      | with_reducible assumption | (simp_all only []) | with_reducible apply wf_pick
      | with_reducible apply wf_grantOrWait | with_reducible apply wf_bump | with_reducible apply wf_sendClaim
      | with_reducible apply wf_upClaim | split
      | (intro w hw; simp only [twinWf, catWf, accWf, rackWf, deskWf, shelfWf, retWf, lardWf, sortWf, bankWf, officeWf, obsWf, bakeWf, thrdWf, relWf, arbWf, proofWf, pageWf, Bool.and_eq_true] at hw ⊢; simp [hw]; done)
      | (intro _ _ _) | (simp only [storesWf_same])

theorem wf_tryOldest (e : Nat) (s : Block) (h : storesWf s = true) : storesWf (tryOldest e s) = true := by
  unfold tryOldest
  (try simp only [])
  repeat' first
      | with_reducible assumption | with_reducible apply wf_tryServe | split | (intro _ _ _)
      | (simp only [storesWf_same])

theorem wf_resample (e : Nat) (s : Block) (h : storesWf s = true) : storesWf (resample e s) = true := by
  unfold resample
  (try simp only [])
  repeat' first
      | with_reducible assumption | with_reducible apply wf_tryOldest | with_reducible apply wf_forEach | split
      | (intro _ _ _) | (simp only [storesWf_same])

theorem wf_countHeld (e seq : Nat) (s : Block) (h : storesWf s = true) :
    storesWf (countHeld e seq s) = true := by
  unfold countHeld
  (try simp only [])
  repeat' first
      | with_reducible assumption | with_reducible apply wf_optEvent | split
      | (intro w hw; simp only [twinWf, catWf, accWf, rackWf, deskWf, shelfWf, retWf, lardWf, sortWf, bankWf, officeWf, obsWf, bakeWf, thrdWf, relWf, arbWf, proofWf, pageWf, Bool.and_eq_true] at hw ⊢; simp [hw]; done)
      | (intro _ _ _) | (simp only [storesWf_same]) | (simp only [id_eq])

theorem wf_deskErr (t : TwinId) (bit : Nat) (e : Nat) (node : Nat) (s : Block) (h : storesWf s = true) :
    storesWf (deskErr t bit e node s) = true := by
  unfold deskErr
  (try simp only [])
  repeat' first
      | with_reducible assumption | with_reducible apply wf_upTw | with_reducible apply wf_setErr | split
      | (intro w hw; simp only [twinWf, catWf, accWf, rackWf, deskWf, shelfWf, retWf, lardWf, sortWf, bankWf, officeWf, obsWf, bakeWf, thrdWf, relWf, arbWf, proofWf, pageWf, Bool.and_eq_true] at hw ⊢; simp [hw]; done)
      | (intro _ _ _) | (simp only [storesWf_same])

theorem wf_claimWord (p w : Nat) (s : Block) (h : storesWf s = true) :
    storesWf (claimWord p w s) = true := by
  unfold claimWord
  (try simp only [])
  repeat' first
      | with_reducible assumption | with_reducible apply wf_bump | with_reducible apply wf_deskErr
      | with_reducible apply wf_upEng | with_reducible apply wf_countHeld | with_reducible apply wf_resample | split
      | (intro w hw; simp only [twinWf, catWf, accWf, rackWf, deskWf, shelfWf, retWf, lardWf, sortWf, bankWf, officeWf, obsWf, bakeWf, thrdWf, relWf, arbWf, proofWf, pageWf, Bool.and_eq_true] at hw ⊢; simp [hw]; done)
      | (intro _ _ _) | (simp only [storesWf_same]) | (simp only [id_eq])

theorem wf_grantForwarded (t : TwinId) (key e tag : Nat) (s : Block) (h : storesWf s = true) :
    storesWf (grantForwarded t key e tag s) = true := by
  unfold grantForwarded
  (try simp only [])
  repeat' first
      | with_reducible assumption | with_reducible apply wf_grantNode | with_reducible apply wf_sendClaim
      | with_reducible apply wf_bump | split
      | (intro w hw; simp only [twinWf, catWf, accWf, rackWf, deskWf, shelfWf, retWf, lardWf, sortWf, bankWf, officeWf, obsWf, bakeWf, thrdWf, relWf, arbWf, proofWf, pageWf, Bool.and_eq_true] at hw ⊢; simp [hw]; done)
      | (intro _ _ _) | (simp only [storesWf_same]) | (simp only [id_eq])

theorem wf_decline (t : TwinId) (e tag : Nat) (s : Block) (h : storesWf s = true) :
    storesWf (decline t e tag s) = true := by
  unfold decline
  (try simp only [])
  repeat' first
      | with_reducible assumption | with_reducible apply wf_sendClaim | with_reducible apply wf_bump | split
      | (intro w hw; simp only [twinWf, catWf, accWf, rackWf, deskWf, shelfWf, retWf, lardWf, sortWf, bankWf, officeWf, obsWf, bakeWf, thrdWf, relWf, arbWf, proofWf, pageWf, Bool.and_eq_true] at hw ⊢; simp [hw]; done)
      | (intro _ _ _) | (simp only [storesWf_same]) | (simp only [id_eq])

theorem wf_fwdClaimAt (t : TwinId) (e : Nat) (g : Nat) (d : Int) (tag : Nat) (s : Block) (h : storesWf s = true) :
    storesWf (fwdClaimAt t e g d tag s) = true := by
  unfold fwdClaimAt
  simp only []
  have hp := wf_pick t g d s h
  repeat' first
      | with_reducible assumption | (simp_all; done) | with_reducible apply wf_pick | with_reducible apply wf_upTw
      | with_reducible apply wf_grantForwarded | with_reducible apply wf_decline | split
      | (intro w hw; simp only [twinWf, catWf, accWf, rackWf, deskWf, shelfWf, retWf, lardWf, sortWf, bankWf, officeWf, obsWf, bakeWf, thrdWf, relWf, arbWf, proofWf, pageWf, Bool.and_eq_true] at hw ⊢; simp [hw]; done)
      | (intro _ _ _) | (simp only [storesWf_same])

theorem wf_claimGoesOn (t : TwinId) (key e seq : Nat) (s : Block) (h : storesWf s = true) :
    storesWf (claimGoesOn t key e seq s) = true := by
  unfold claimGoesOn
  (try simp only [])
  repeat' first
      | with_reducible assumption | with_reducible apply wf_upClaim | with_reducible apply wf_countHeld
      | with_reducible apply wf_grantOrWait | with_reducible apply wf_tryServe | split
      | (intro w hw; simp only [twinWf, catWf, accWf, rackWf, deskWf, shelfWf, retWf, lardWf, sortWf, bankWf, officeWf, obsWf, bakeWf, thrdWf, relWf, arbWf, proofWf, pageWf, Bool.and_eq_true] at hw ⊢; simp [hw]; done)
      | (intro _ _ _) | (simp only [storesWf_same]) | (simp only [id_eq])

theorem wf_forwardedGoesOn (t : TwinId) (key : Nat) (f : FwdClaim) (s : Block) (h : storesWf s = true) :
    storesWf (forwardedGoesOn t key f s) = true := by
  unfold forwardedGoesOn
  (try simp only [])
  repeat' first
      | with_reducible assumption | with_reducible apply wf_upTw | with_reducible apply wf_grantForwarded
      | with_reducible apply wf_fwdClaimAt | split
      | (intro w hw; simp only [twinWf, catWf, accWf, rackWf, deskWf, shelfWf, retWf, lardWf, sortWf, bankWf, officeWf, obsWf, bakeWf, thrdWf, relWf, arbWf, proofWf, pageWf, Bool.and_eq_true] at hw ⊢; simp [hw]; done)
      | (intro _ _ _) | (simp only [storesWf_same]) | (simp only [id_eq])

theorem wf_laneRefill (t : TwinId) (key : Nat) (s : Block) (h : storesWf s = true) :
    storesWf (laneRefill t key s) = true := by
  unfold laneRefill
  (try simp only [])
  repeat' first
      | with_reducible assumption | with_reducible apply wf_upLane | with_reducible apply wf_forEach
      | with_reducible apply wf_forwardedGoesOn | with_reducible apply wf_claimGoesOn | split
      | (intro w hw; simp only [twinWf, catWf, accWf, rackWf, deskWf, shelfWf, retWf, lardWf, sortWf, bankWf, officeWf, obsWf, bakeWf, thrdWf, relWf, arbWf, proofWf, pageWf, Bool.and_eq_true] at hw ⊢; simp [hw]; done)
      | (intro _ _ _) | (simp only [storesWf_same]) | (simp only [id_eq])

theorem wf_declineAt (t : TwinId) (e tag newer : Nat) (s : Block) (h : storesWf s = true) :
    storesWf (declineAt t e tag newer s) = true := by
  unfold declineAt
  (try simp only [])
  repeat' first
      | with_reducible assumption | with_reducible apply wf_upClaim | with_reducible apply wf_countHeld
      | with_reducible apply wf_tryServe | split
      | (intro w hw; simp only [twinWf, catWf, accWf, rackWf, deskWf, shelfWf, retWf, lardWf, sortWf, bankWf, officeWf, obsWf, bakeWf, thrdWf, relWf, arbWf, proofWf, pageWf, Bool.and_eq_true] at hw ⊢; simp [hw]; done)
      | (intro _ _ _) | (simp only [storesWf_same]) | (simp only [id_eq])

theorem wf_sendReturn (t : TwinId) (node gen : Nat) (fenced : Bool) (s : Block) (h : storesWf s = true) :
    storesWf (sendReturn t node gen fenced s) = true := by
  unfold sendReturn
  (try simp only [])
  repeat' first
      | with_reducible assumption | with_reducible apply wf_sendClaim | with_reducible apply wf_bump | split
      | (intro w hw; simp only [twinWf, catWf, accWf, rackWf, deskWf, shelfWf, retWf, lardWf, sortWf, bankWf, officeWf, obsWf, bakeWf, thrdWf, relWf, arbWf, proofWf, pageWf, Bool.and_eq_true] at hw ⊢; simp [hw]; done)
      | (intro _ _ _) | (simp only [storesWf_same]) | (simp only [id_eq])

theorem wf_grantAt (t : TwinId) (w : GrantWord) (tag : Nat) (dd : Int) (load : Nat) (s : Block) (h : storesWf s = true) :
    storesWf (grantAt t w tag dd load s) = true := by
  unfold grantAt
  (try simp only [])
  repeat' first
      | with_reducible assumption | with_reducible apply wf_sendReturn | with_reducible apply wf_dropClaim
      | with_reducible apply wf_countHeld | with_reducible apply wf_resample | with_reducible apply wf_upClaim
      | with_reducible apply wf_upTw | with_reducible apply wf_drive | with_reducible apply wf_mixApply
      | with_reducible apply wf_countMix | split
      | (intro w hw; simp only [twinWf, catWf, accWf, rackWf, deskWf, shelfWf, retWf, lardWf, sortWf, bankWf, officeWf, obsWf, bakeWf, thrdWf, relWf, arbWf, proofWf, pageWf, Bool.and_eq_true] at hw ⊢; simp [hw]; done)
      | (intro _ _ _) | (simp only [storesWf_same]) | (simp only [id_eq])

theorem wf_returnNode (node gen : Nat) (fenced : Bool) (s : Block) (h : storesWf s = true) :
    storesWf (returnNode node gen fenced s) = true := by
  unfold returnNode
  (try simp only [])
  repeat' first
      | with_reducible assumption | with_reducible apply wf_writersDec | with_reducible apply wf_closeRec
      | with_reducible apply wf_pushWork | with_reducible apply wf_readyTrace | with_reducible apply wf_countReady
      | with_reducible apply wf_upNode | split
      | (intro w hw; simp only [twinWf, catWf, accWf, rackWf, deskWf, shelfWf, retWf, lardWf, sortWf, bankWf, officeWf, obsWf, bakeWf, thrdWf, relWf, arbWf, proofWf, pageWf, Bool.and_eq_true] at hw ⊢; simp [hw]; done)
      | (intro _ _ _) | (simp only [storesWf_same]) | (simp only [id_eq])

theorem wf_acceptRec (node gen : Nat) (stale : Bool) (s : Block) (h : storesWf s = true) :
    storesWf (acceptRec node gen stale s) = true := by
  unfold acceptRec
  (try simp only [])
  repeat' first
      | with_reducible assumption | with_reducible apply wf_setRec | with_reducible apply wf_deskErr
      | with_reducible apply wf_bump | split
      | (intro w hw; simp only [twinWf, catWf, accWf, rackWf, deskWf, shelfWf, retWf, lardWf, sortWf, bankWf, officeWf, obsWf, bakeWf, thrdWf, relWf, arbWf, proofWf, pageWf, Bool.and_eq_true] at hw ⊢; simp [hw]; done)
      | (intro _ _ _) | (simp only [storesWf_same]) | (simp only [id_eq])

theorem wf_acceptWord (p : Nat) (e node gen : Nat) (s : Block) (h : storesWf s = true) :
    storesWf (acceptWord p e node gen s) = true := by
  unfold acceptWord
  (try simp only [])
  repeat' first
      | with_reducible assumption | with_reducible apply wf_bump | with_reducible apply wf_deskErr
      | with_reducible apply wf_sendClaim | with_reducible apply wf_upEng | with_reducible apply wf_acceptRec | split
      | (intro w hw; simp only [twinWf, catWf, accWf, rackWf, deskWf, shelfWf, retWf, lardWf, sortWf, bankWf, officeWf, obsWf, bakeWf, thrdWf, relWf, arbWf, proofWf, pageWf, Bool.and_eq_true] at hw ⊢; simp [hw]; done)
      | (intro _ _ _) | (simp only [storesWf_same]) | (simp only [id_eq])

theorem wf_summaryEntry (t : TwinId) (i : Nat) (s : Block) (h : storesWf s = true) :
    storesWf (summaryEntry t i s) = true := by
  unfold summaryEntry
  (try simp only [])
  repeat' first
      | with_reducible assumption | with_reducible apply wf_upTw | with_reducible apply wf_bump
      | with_reducible apply wf_forEach | with_reducible apply wf_upClaim | with_reducible apply wf_tryServe | split
      | (intro w hw; simp only [twinWf, catWf, accWf, rackWf, deskWf, shelfWf, retWf, lardWf, sortWf, bankWf, officeWf, obsWf, bakeWf, thrdWf, relWf, arbWf, proofWf, pageWf, Bool.and_eq_true] at hw ⊢; simp [hw]; done)
      | (intro _ _ _) | (simp only [storesWf_same]) | (simp only [id_eq])

theorem wf_countPlaced (t : TwinId) (n : Node) (g : Nat) (s : Block) (h : storesWf s = true) :
    storesWf (countPlaced t n g s) = true := by
  unfold countPlaced
  (try simp only [])
  repeat' first
      | with_reducible assumption | with_reducible apply wf_bump | split
      | (intro w hw; simp only [twinWf, catWf, accWf, rackWf, deskWf, shelfWf, retWf, lardWf, sortWf, bankWf, officeWf, obsWf, bakeWf, thrdWf, relWf, arbWf, proofWf, pageWf, Bool.and_eq_true] at hw ⊢; simp [hw]; done)
      | (intro _ _ _) | (simp only [storesWf_same]) | (simp only [id_eq])

theorem wf_appendLane (id g : Nat) (s : Block) (h : storesWf s = true) :
    storesWf (appendLane id g s) = true := by
  unfold appendLane
  (try simp only [])
  repeat' first
      | with_reducible assumption | with_reducible apply wf_writersInc | with_reducible apply wf_upLane
      | with_reducible apply wf_optEvent | with_reducible apply wf_bump | with_reducible apply wf_countPlaced | split
      | (intro w hw; simp only [twinWf, catWf, accWf, rackWf, deskWf, shelfWf, retWf, lardWf, sortWf, bankWf, officeWf, obsWf, bakeWf, thrdWf, relWf, arbWf, proofWf, pageWf, Bool.and_eq_true] at hw ⊢; simp [hw]; done)
      | (intro _ _ _) | (simp only [storesWf_same]) | (simp only [id_eq])

theorem wf_keepOwn (id g : Nat) (s : Block) (h : storesWf s = true) :
    storesWf (keepOwn id g s) = true := by
  unfold keepOwn
  (try simp only [])
  repeat' first
      | with_reducible assumption | with_reducible apply wf_optEvent | with_reducible apply wf_bump
      | with_reducible apply wf_upLane | split
      | (intro w hw; simp only [twinWf, catWf, accWf, rackWf, deskWf, shelfWf, retWf, lardWf, sortWf, bankWf, officeWf, obsWf, bakeWf, thrdWf, relWf, arbWf, proofWf, pageWf, Bool.and_eq_true] at hw ⊢; simp [hw]; done)
      | (intro _ _ _) | (simp only [storesWf_same]) | (simp only [id_eq])

theorem wf_handOver (id g : Nat) (s : Block) (h : storesWf s = true) :
    storesWf (handOver id g s) = true := by
  unfold handOver
  (try simp only [])
  repeat' first
      | with_reducible assumption | with_reducible apply wf_holdNode | with_reducible apply wf_upTw
      | with_reducible apply wf_keepOwn | with_reducible apply wf_writersInc | with_reducible apply wf_openRec
      | with_reducible apply wf_sendClaim | split
      | (intro w hw; simp only [twinWf, catWf, accWf, rackWf, deskWf, shelfWf, retWf, lardWf, sortWf, bankWf, officeWf, obsWf, bakeWf, thrdWf, relWf, arbWf, proofWf, pageWf, Bool.and_eq_true] at hw ⊢; simp [hw]; done)
      | (intro _ _ _) | (simp only [storesWf_same]) | (simp only [id_eq])

theorem wf_rackIn (id g : Nat) (s : Block) (h : storesWf s = true) :
    storesWf (rackIn id g s) = true := by
  unfold rackIn
  (try simp only [])
  repeat' first
      | with_reducible assumption | with_reducible apply wf_upNode | with_reducible apply wf_handOver
      | with_reducible apply wf_countPlaced | with_reducible apply wf_appendLane | split
      | (intro w hw; simp only [twinWf, catWf, accWf, rackWf, deskWf, shelfWf, retWf, lardWf, sortWf, bankWf, officeWf, obsWf, bakeWf, thrdWf, relWf, arbWf, proofWf, pageWf, Bool.and_eq_true] at hw ⊢; simp [hw]; done)
      | (intro _ _ _) | (simp only [storesWf_same]) | (simp only [id_eq])

theorem wf_appendCopy (t : TwinId) (c : Copy) (s : Block) (h : storesWf s = true) :
    storesWf (appendCopy t c s) = true := by
  unfold appendCopy
  (try simp only [])
  repeat' first
      | with_reducible assumption | with_reducible apply wf_optEvent | with_reducible apply wf_bump
      | with_reducible apply wf_upLane | split
      | (intro w hw; simp only [twinWf, catWf, accWf, rackWf, deskWf, shelfWf, retWf, lardWf, sortWf, bankWf, officeWf, obsWf, bakeWf, thrdWf, relWf, arbWf, proofWf, pageWf, Bool.and_eq_true] at hw ⊢; simp [hw]; done)
      | (intro _ _ _) | (simp only [storesWf_same]) | (simp only [id_eq])

theorem wf_sendBack (t : TwinId) (heldToo : Bool) (p : Copy → Bool) (s : Block) (h : storesWf s = true) :
    storesWf (sendBack t heldToo p s) = true := by
  unfold sendBack
  (try simp only [])
  repeat' first
      | with_reducible assumption | with_reducible apply wf_forEach | with_reducible apply wf_sendClaim
      | with_reducible apply wf_upTw | split
      | (intro w hw; simp only [twinWf, catWf, accWf, rackWf, deskWf, shelfWf, retWf, lardWf, sortWf, bankWf, officeWf, obsWf, bakeWf, thrdWf, relWf, arbWf, proofWf, pageWf, Bool.and_eq_true] at hw ⊢; simp [hw]; done)
      | (intro _ _ _) | (simp only [storesWf_same]) | (simp only [id_eq])

theorem wf_proxyAt (t : TwinId) (c : Copy) (s : Block) (h : storesWf s = true) :
    storesWf (proxyAt t c s) = true := by
  unfold proxyAt
  (try simp only [])
  repeat' first
      | with_reducible assumption | with_reducible apply wf_sendClaim | with_reducible apply wf_setErr
      | with_reducible apply wf_bump | with_reducible apply wf_appendCopy | split
      | (intro w hw; simp only [twinWf, catWf, accWf, rackWf, deskWf, shelfWf, retWf, lardWf, sortWf, bankWf, officeWf, obsWf, bakeWf, thrdWf, relWf, arbWf, proofWf, pageWf, Bool.and_eq_true] at hw ⊢; simp [hw]; done)
      | (intro _ _ _) | (simp only [storesWf_same]) | (simp only [id_eq])

theorem wf_proxyLeave (node : Nat) (g : Nat) (s : Block) (h : storesWf s = true) :
    storesWf (proxyLeave node g s) = true := by
  unfold proxyLeave
  (try simp only [])
  repeat' first
      | with_reducible assumption | with_reducible apply wf_upTw | split
      | (intro w hw; simp only [twinWf, catWf, accWf, rackWf, deskWf, shelfWf, retWf, lardWf, sortWf, bankWf, officeWf, obsWf, bakeWf, thrdWf, relWf, arbWf, proofWf, pageWf, Bool.and_eq_true] at hw ⊢; simp [hw]; done)
      | (intro _ _ _) | (simp only [storesWf_same])

theorem wf_releaseReservation (node : Nat) (s : Block) (h : storesWf s = true) :
    storesWf (releaseReservation node s) = true := by
  unfold releaseReservation
  (try simp only [])
  repeat' first
      | with_reducible assumption | with_reducible apply wf_closeRec | split | (intro _ _ _)
      | (simp only [storesWf_same])

theorem wf_proxyGrantAt (node gen eng : Nat) (s : Block) (h : storesWf s = true) :
    storesWf (proxyGrantAt node gen eng s) = true := by
  unfold proxyGrantAt
  (try simp only [])
  repeat' first
      | with_reducible assumption | with_reducible apply wf_proxyLeave | with_reducible apply wf_upNode
      | with_reducible apply wf_setRec | with_reducible apply wf_pushWork | with_reducible apply wf_rebakeRuns
      | with_reducible apply wf_narrowFree | split
      | (intro w hw; simp only [twinWf, catWf, accWf, rackWf, deskWf, shelfWf, retWf, lardWf, sortWf, bankWf, officeWf, obsWf, bakeWf, thrdWf, relWf, arbWf, proofWf, pageWf, Bool.and_eq_true] at hw ⊢; simp [hw]; done)
      | (intro _ _ _) | (simp only [storesWf_same]) | (simp only [id_eq])

theorem wf_proxyRefusedAt (node : Nat) (s : Block) (h : storesWf s = true) :
    storesWf (proxyRefusedAt node s) = true := by
  unfold proxyRefusedAt
  (try simp only [])
  repeat' first
      | with_reducible assumption | with_reducible apply wf_keepOwn | with_reducible apply wf_releaseReservation
      | with_reducible apply wf_proxyLeave | split
      | (intro w hw; simp only [twinWf, catWf, accWf, rackWf, deskWf, shelfWf, retWf, lardWf, sortWf, bankWf, officeWf, obsWf, bakeWf, thrdWf, relWf, arbWf, proofWf, pageWf, Bool.and_eq_true] at hw ⊢; simp [hw]; done)
      | (intro _ _ _) | (simp only [storesWf_same]) | (simp only [id_eq])

theorem wf_proxyBackAt (node : Nat) (s : Block) (h : storesWf s = true) : storesWf (proxyBackAt node s) = true := by
  unfold proxyBackAt
  (try simp only [])
  repeat' first
      | with_reducible assumption | with_reducible apply wf_pushWork | with_reducible apply wf_writersDec
      | with_reducible apply wf_releaseReservation | with_reducible apply wf_proxyLeave | split | (intro _ _ _)
      | (simp only [storesWf_same])

theorem wf_retryProxy (t : TwinId) (g : Nat) (s : Block) (h : storesWf s = true) :
    storesWf (retryProxy t g s) = true := by
  unfold retryProxy
  (try simp only [])
  repeat' first
      | with_reducible assumption | with_reducible apply wf_handOver | with_reducible apply wf_upTw
      | with_reducible apply wf_upLane | split
      | (intro w hw; simp only [twinWf, catWf, accWf, rackWf, deskWf, shelfWf, retWf, lardWf, sortWf, bankWf, officeWf, obsWf, bakeWf, thrdWf, relWf, arbWf, proofWf, pageWf, Bool.and_eq_true] at hw ⊢; simp [hw]; done)
      | (intro _ _ _) | (simp only [storesWf_same])

theorem wf_holdRelease (t : TwinId) (k : Nat) (s : Block) (h : storesWf s = true) :
    storesWf (holdRelease t k s) = true := by
  unfold holdRelease
  (try simp only [])
  repeat' first
      | with_reducible assumption | with_reducible apply wf_upCtxTw | with_reducible apply wf_bump
      | with_reducible apply wf_forEach | with_reducible apply wf_appendCopy | with_reducible apply wf_pushWork
      | with_reducible apply wf_writersDec | split
      | (intro w hw; simp only [twinWf, catWf, accWf, rackWf, deskWf, shelfWf, retWf, lardWf, sortWf, bankWf, officeWf, obsWf, bakeWf, thrdWf, relWf, arbWf, proofWf, pageWf, Bool.and_eq_true] at hw ⊢; simp [hw]; done)
      | (intro _ _ _) | (simp only [storesWf_same]) | (simp only [id_eq])

theorem wf_driveFlush (c : Nat) (ws : List Waiter) (s : Block) (h : storesWf s = true) :
    storesWf (driveFlush c ws s) = true := by
  unfold driveFlush
  (try simp only [])
  repeat' first
      | with_reducible assumption | with_reducible apply wf_upFlush | with_reducible apply wf_optEvent
      | with_reducible apply wf_bump | with_reducible apply wf_emit | split
      | (intro w hw; simp only [twinWf, catWf, accWf, rackWf, deskWf, shelfWf, retWf, lardWf, sortWf, bankWf, officeWf, obsWf, bakeWf, thrdWf, relWf, arbWf, proofWf, pageWf, Bool.and_eq_true] at hw ⊢; simp [hw]; done)
      | (intro _ _ _) | (simp only [storesWf_same]) | (simp only [id_eq])

theorem wf_localNeed (c : Nat) (w : Waiter) (s : Block) (h : storesWf s = true) :
    storesWf (localNeed c w s) = true := by
  unfold localNeed
  (try simp only [])
  repeat' first
      | with_reducible assumption | with_reducible apply wf_pushWork | with_reducible apply wf_setErr
      | with_reducible apply wf_upFlush | with_reducible apply wf_driveFlush | split
      | (intro w hw; simp only [twinWf, catWf, accWf, rackWf, deskWf, shelfWf, retWf, lardWf, sortWf, bankWf, officeWf, obsWf, bakeWf, thrdWf, relWf, arbWf, proofWf, pageWf, Bool.and_eq_true] at hw ⊢; simp [hw]; done)
      | (intro _ _ _) | (simp only [storesWf_same])

theorem wf_askFlush (t : TwinId) (what : Option Nat) (w : Waiter) (s : Block) (h : storesWf s = true) :
    storesWf (askFlush t what w s) = true := by
  unfold askFlush
  (try simp only [])
  repeat' first
      | with_reducible assumption | with_reducible apply wf_sendItem | with_reducible apply wf_upTw | split
      | (intro w hw; simp only [twinWf, catWf, accWf, rackWf, deskWf, shelfWf, retWf, lardWf, sortWf, bankWf, officeWf, obsWf, bakeWf, thrdWf, relWf, arbWf, proofWf, pageWf, Bool.and_eq_true] at hw ⊢; simp [hw]; done)
      | (intro _ _ _) | (simp only [storesWf_same])

theorem wf_needFlush (t : TwinId) (c : Nat) (w : Waiter) (s : Block) (h : storesWf s = true) :
    storesWf (needFlush t c w s) = true := by
  unfold needFlush
  (try simp only [])
  repeat' first
      | with_reducible assumption | with_reducible apply wf_localNeed | with_reducible apply wf_askFlush | split
      | (intro _ _ _) | (simp only [storesWf_same])

theorem wf_issueDrain (t : TwinId) (ws : List Waiter) (s : Block) (h : storesWf s = true) :
    storesWf (issueDrain t ws s) = true := by
  unfold issueDrain
  (try simp only [])
  repeat' first
      | with_reducible assumption | with_reducible apply wf_bump | with_reducible apply wf_upTw
      | with_reducible apply wf_emit | with_reducible apply wf_pushWork | split
      | (intro w hw; simp only [twinWf, catWf, accWf, rackWf, deskWf, shelfWf, retWf, lardWf, sortWf, bankWf, officeWf, obsWf, bakeWf, thrdWf, relWf, arbWf, proofWf, pageWf, Bool.and_eq_true] at hw ⊢; simp [hw]; done)
      | (intro _ _ _) | (simp only [storesWf_same])

theorem wf_needDrain (t : TwinId) (w : Waiter) (s : Block) (h : storesWf s = true) :
    storesWf (needDrain t w s) = true := by
  unfold needDrain
  (try simp only [])
  repeat' first
      | with_reducible assumption | with_reducible apply wf_upTw | with_reducible apply wf_issueDrain | split
      | (intro w hw; simp only [twinWf, catWf, accWf, rackWf, deskWf, shelfWf, retWf, lardWf, sortWf, bankWf, officeWf, obsWf, bakeWf, thrdWf, relWf, arbWf, proofWf, pageWf, Bool.and_eq_true] at hw ⊢; simp [hw]; done)
      | (intro _ _ _) | (simp only [storesWf_same])

theorem wf_endDrain (t : TwinId) (ok : Bool) (s : Block) (h : storesWf s = true) :
    storesWf (endDrain t ok s) = true := by
  unfold endDrain
  (try simp only [])
  repeat' first
      | with_reducible assumption | with_reducible apply wf_pushWork | with_reducible apply wf_upTw
      | with_reducible apply wf_issueDrain | split
      | (intro w hw; simp only [twinWf, catWf, accWf, rackWf, deskWf, shelfWf, retWf, lardWf, sortWf, bankWf, officeWf, obsWf, bakeWf, thrdWf, relWf, arbWf, proofWf, pageWf, Bool.and_eq_true] at hw ⊢; simp [hw]; done)
      | (intro _ _ _) | (simp only [storesWf_same])

theorem wf_endFlush (c : Nat) (ok : Bool) (s : Block) (h : storesWf s = true) :
    storesWf (endFlush c ok s) = true := by
  unfold endFlush
  (try simp only [])
  repeat' first
      | with_reducible assumption | with_reducible apply wf_trace | with_reducible apply wf_upFlush
      | with_reducible apply wf_pushWork | with_reducible apply wf_driveFlush | with_reducible apply wf_localNeed
      | with_reducible apply wf_forEach | split
      | (intro w hw; simp only [twinWf, catWf, accWf, rackWf, deskWf, shelfWf, retWf, lardWf, sortWf, bankWf, officeWf, obsWf, bakeWf, thrdWf, relWf, arbWf, proofWf, pageWf, Bool.and_eq_true] at hw ⊢; simp [hw]; done)
      | (intro _ _ _) | (simp only [storesWf_same])

theorem wf_flushAckRead (c : Nat) (answer : Option Nat) (s : Block) (h : storesWf s = true) :
    storesWf (flushAckRead c answer s) = true := by
  unfold flushAckRead
  (try simp only [])
  repeat' first
      | with_reducible assumption | with_reducible apply wf_endFlush | with_reducible apply wf_upFlush | split
      | (intro w hw; simp only [twinWf, catWf, accWf, rackWf, deskWf, shelfWf, retWf, lardWf, sortWf, bankWf, officeWf, obsWf, bakeWf, thrdWf, relWf, arbWf, proofWf, pageWf, Bool.and_eq_true] at hw ⊢; simp [hw]; done)
      | (intro _ _ _) | (simp only [storesWf_same])

theorem wf_flushRetry (c : Nat) (s : Block) (h : storesWf s = true) : storesWf (flushRetry c s) = true := by
  unfold flushRetry
  (try simp only [])
  repeat' first
      | with_reducible assumption | with_reducible apply wf_emit | with_reducible apply wf_upFlush | split
      | (intro w hw; simp only [twinWf, catWf, accWf, rackWf, deskWf, shelfWf, retWf, lardWf, sortWf, bankWf, officeWf, obsWf, bakeWf, thrdWf, relWf, arbWf, proofWf, pageWf, Bool.and_eq_true] at hw ⊢; simp [hw]; done)
      | (intro _ _ _) | (simp only [storesWf_same])

theorem wf_drainRetry (t : TwinId) (s : Block) (h : storesWf s = true) : storesWf (drainRetry t s) = true := by
  unfold drainRetry
  (try simp only [])
  repeat' first
      | with_reducible assumption | with_reducible apply wf_emit | with_reducible apply wf_upTw | split
      | (intro w hw; simp only [twinWf, catWf, accWf, rackWf, deskWf, shelfWf, retWf, lardWf, sortWf, bankWf, officeWf, obsWf, bakeWf, thrdWf, relWf, arbWf, proofWf, pageWf, Bool.and_eq_true] at hw ⊢; simp [hw]; done)
      | (intro _ _ _) | (simp only [storesWf_same])

theorem wf_drainAnswer (t : TwinId) (point : DrainPoint) (ok : Bool) (s : Block) (h : storesWf s = true) :
    storesWf (drainAnswer t point ok s) = true := by
  unfold drainAnswer
  (try simp only [])
  repeat' first
      | with_reducible assumption | with_reducible apply wf_upTw | with_reducible apply wf_endDrain | split
      | (intro w hw; simp only [twinWf, catWf, accWf, rackWf, deskWf, shelfWf, retWf, lardWf, sortWf, bankWf, officeWf, obsWf, bakeWf, thrdWf, relWf, arbWf, proofWf, pageWf, Bool.and_eq_true] at hw ⊢; simp [hw]; done)
      | (intro _ _ _) | (simp only [storesWf_same])

theorem wf_flushReqAt (t : TwinId) (what : Option Nat) (tag : Nat) (s : Block) (h : storesWf s = true) :
    storesWf (flushReqAt t what tag s) = true := by
  unfold flushReqAt
  (try simp only [])
  repeat' first
      | with_reducible assumption | with_reducible apply wf_localNeed | with_reducible apply wf_sendItem
      | with_reducible apply wf_upTw | with_reducible apply wf_forEach | split
      | (intro w hw; simp only [twinWf, catWf, accWf, rackWf, deskWf, shelfWf, retWf, lardWf, sortWf, bankWf, officeWf, obsWf, bakeWf, thrdWf, relWf, arbWf, proofWf, pageWf, Bool.and_eq_true] at hw ⊢; simp [hw]; done)
      | (intro _ _ _) | (simp only [storesWf_same])

theorem wf_flushDoneAt (t : TwinId) (tag : Nat) (timeout : Bool) (s : Block) (h : storesWf s = true) :
    storesWf (flushDoneAt t tag timeout s) = true := by
  unfold flushDoneAt
  (try simp only [])
  repeat' first
      | with_reducible assumption | with_reducible apply wf_pushWork | with_reducible apply wf_upTw | split
      | (intro w hw; simp only [twinWf, catWf, accWf, rackWf, deskWf, shelfWf, retWf, lardWf, sortWf, bankWf, officeWf, obsWf, bakeWf, thrdWf, relWf, arbWf, proofWf, pageWf, Bool.and_eq_true] at hw ⊢; simp [hw]; done)
      | (intro _ _ _) | (simp only [storesWf_same])

theorem wf_remoteAllEnd (t : TwinId) (tag : Nat) (ok : Bool) (s : Block) (h : storesWf s = true) :
    storesWf (remoteAllEnd t tag ok s) = true := by
  unfold remoteAllEnd
  (try simp only [])
  repeat' first
      | with_reducible assumption | with_reducible apply wf_sendItem | with_reducible apply wf_upTw | split
      | (intro w hw; simp only [twinWf, catWf, accWf, rackWf, deskWf, shelfWf, retWf, lardWf, sortWf, bankWf, officeWf, obsWf, bakeWf, thrdWf, relWf, arbWf, proofWf, pageWf, Bool.and_eq_true] at hw ⊢; simp [hw]; done)
      | (intro _ _ _) | (simp only [storesWf_same])

theorem wf_upShard (shard : Nat) (f : Shard → Shard) (s : Block) (h : storesWf s = true) :
    storesWf (upShard shard f s) = true := by
  unfold upShard
  (try simp only [])
  repeat' first
      | with_reducible assumption | with_reducible apply wf_upTw | split
      | (intro w hw; simp only [twinWf, catWf, accWf, rackWf, deskWf, shelfWf, retWf, lardWf, sortWf, bankWf, officeWf, obsWf, bakeWf, thrdWf, relWf, arbWf, proofWf, pageWf, Bool.and_eq_true] at hw ⊢; simp [hw]; done)
      | (intro _ _ _) | (simp only [storesWf_same])

theorem wf_setLoc (t : TwinId) (shard : Nat) (w : Nat) (s : Block) (h : storesWf s = true) :
    storesWf (setLoc t shard w s) = true := by
  unfold setLoc
  (try simp only [])
  repeat' first
      | with_reducible assumption | with_reducible apply wf_upTw | split
      | (intro w hw; simp only [twinWf, catWf, accWf, rackWf, deskWf, shelfWf, retWf, lardWf, sortWf, bankWf, officeWf, obsWf, bakeWf, thrdWf, relWf, arbWf, proofWf, pageWf, Bool.and_eq_true] at hw ⊢; simp [hw]; done)
      | (intro _ _ _) | (simp only [storesWf_same])

theorem wf_publish (shard : Nat) (alloc : Bool) (s : Block) (h : storesWf s = true) :
    storesWf (publish shard alloc s) = true := by
  unfold publish
  (try simp only [])
  repeat' first
      | with_reducible assumption | with_reducible apply wf_setLoc | with_reducible apply wf_sendItem | split
      | (intro _ _ _) | (simp only [storesWf_same])

theorem wf_shelfFault (t : TwinId) (k : Nat) (code : Nat) (shard : Nat) (node : Nat) (s : Block)
    (h : storesWf s = true) :
    storesWf (shelfFault t k code shard node s) = true := by
  unfold shelfFault
  (try simp only [])
  repeat' first
      | with_reducible assumption | with_reducible apply wf_raiseFault | with_reducible apply wf_upTw
      | with_reducible apply wf_setErr | split
      | (intro w hw; simp only [twinWf, catWf, accWf, rackWf, deskWf, shelfWf, retWf, lardWf, sortWf, bankWf, officeWf, obsWf, bakeWf, thrdWf, relWf, arbWf, proofWf, pageWf, Bool.and_eq_true] at hw ⊢; simp [hw]; done)
      | (intro _ _ _) | (simp only [storesWf_same])

theorem wf_upWait (t : TwinId) (i : Nat) (f : WaitEnt → WaitEnt) (s : Block) (h : storesWf s = true) :
    storesWf (upWait t i f s) = true := by
  unfold upWait
  (try simp only [])
  repeat' first
      | with_reducible assumption | with_reducible apply wf_upTw | split
      | (intro w hw; simp only [twinWf, catWf, accWf, rackWf, deskWf, shelfWf, retWf, lardWf, sortWf, bankWf, officeWf, obsWf, bakeWf, thrdWf, relWf, arbWf, proofWf, pageWf, Bool.and_eq_true] at hw ⊢; simp [hw]; done)
      | (intro _ _ _) | (simp only [storesWf_same])

theorem wf_linkInsWait (id : Nat) (s : Block) (h : storesWf s = true) :
    storesWf (linkInsWait id s) = true := by
  unfold linkInsWait
  (try simp only [])
  repeat' first
      | with_reducible assumption | with_reducible apply wf_trace | with_reducible apply wf_bump
      | with_reducible apply wf_upTw | split
      | (intro w hw; simp only [twinWf, catWf, accWf, rackWf, deskWf, shelfWf, retWf, lardWf, sortWf, bankWf, officeWf, obsWf, bakeWf, thrdWf, relWf, arbWf, proofWf, pageWf, Bool.and_eq_true] at hw ⊢; simp [hw]; done)
      | (intro _ _ _) | (simp only [storesWf_same]) | (simp only [id_eq])

theorem wf_waitOn (id : Nat) (shard : Nat) (s : Block) (h : storesWf s = true) :
    storesWf (waitOn id shard s) = true := by
  unfold waitOn
  (try simp only [])
  repeat' first
      | with_reducible assumption | with_reducible apply wf_linkInsWait | with_reducible apply wf_trace
      | with_reducible apply wf_upWait | split
      | (intro w hw; simp only [twinWf, catWf, accWf, rackWf, deskWf, shelfWf, retWf, lardWf, sortWf, bankWf, officeWf, obsWf, bakeWf, thrdWf, relWf, arbWf, proofWf, pageWf, Bool.and_eq_true] at hw ⊢; simp [hw]; done)
      | (intro _ _ _) | (simp only [storesWf_same])

theorem wf_moveTrace (t : TwinId) (k : Nat) (ends : Bool) (shard src code copy : Nat) (s : Block) (h : storesWf s = true) :
    storesWf (moveTrace t k ends shard src code copy s) = true := by
  unfold moveTrace
  (try simp only [])
  repeat' first
      | with_reducible assumption | with_reducible apply wf_trace | split
      | (intro w hw; simp only [twinWf, catWf, accWf, rackWf, deskWf, shelfWf, retWf, lardWf, sortWf, bankWf, officeWf, obsWf, bakeWf, thrdWf, relWf, arbWf, proofWf, pageWf, Bool.and_eq_true] at hw ⊢; simp [hw]; done)
      | (intro _ _ _) | (simp only [storesWf_same]) | (simp only [id_eq])

theorem wf_startMove (m : MoveWant) (i x : Nat) (s : Block) (h : storesWf s = true) :
    storesWf (startMove m i x s) = true := by
  unfold startMove
  (try simp only [])
  repeat' first
      | with_reducible assumption | with_reducible apply wf_upWait | with_reducible apply wf_setNode
      | with_reducible apply wf_setOwner | with_reducible apply wf_upShard | with_reducible apply wf_upTw
      | with_reducible apply wf_emit | with_reducible apply wf_publish | with_reducible apply wf_moveTrace
      | with_reducible apply wf_bump | with_reducible apply wf_optEvent | split
      | (intro w hw; simp only [twinWf, catWf, accWf, rackWf, deskWf, shelfWf, retWf, lardWf, sortWf, bankWf, officeWf, obsWf, bakeWf, thrdWf, relWf, arbWf, proofWf, pageWf, Bool.and_eq_true] at hw ⊢; simp [hw]; done)
      | (intro _ _ _) | (simp only [storesWf_same]) | (simp only [id_eq])

theorem wf_freeCopy (t : TwinId) (copy : Nat) (s : Block) (h : storesWf s = true) :
    storesWf (freeCopy t copy s) = true := by
  unfold freeCopy
  (try simp only [])
  repeat' first
      | with_reducible assumption | with_reducible apply wf_setNode | with_reducible apply wf_setOwner | split
      | (intro w hw; simp only [twinWf, catWf, accWf, rackWf, deskWf, shelfWf, retWf, lardWf, sortWf, bankWf, officeWf, obsWf, bakeWf, thrdWf, relWf, arbWf, proofWf, pageWf, Bool.and_eq_true] at hw ⊢; simp [hw]; done)
      | (intro _ _ _) | (simp only [storesWf_same]) | (simp only [id_eq])

theorem wf_decideMove (m : MoveWant) (s : Block) (h : storesWf s = true) : storesWf (decideMove m s) = true := by
  unfold decideMove
  (try simp only [])
  repeat' first
      | with_reducible assumption | with_reducible apply wf_startMove | with_reducible apply wf_upTw | split
      | (intro w hw; simp only [twinWf, catWf, accWf, rackWf, deskWf, shelfWf, retWf, lardWf, sortWf, bankWf, officeWf, obsWf, bakeWf, thrdWf, relWf, arbWf, proofWf, pageWf, Bool.and_eq_true] at hw ⊢; simp [hw]; done)
      | (intro _ _ _) | (simp only [storesWf_same])

theorem wf_sealCopy (shard : Nat) (s : Block) (h : storesWf s = true) : storesWf (sealCopy shard s) = true := by
  unfold sealCopy
  (try simp only [])
  repeat' first
      | with_reducible assumption | with_reducible apply wf_pushWork | with_reducible apply wf_sealed
      | with_reducible apply wf_upNode | split
      | (intro w hw; simp only [twinWf, catWf, accWf, rackWf, deskWf, shelfWf, retWf, lardWf, sortWf, bankWf, officeWf, obsWf, bakeWf, thrdWf, relWf, arbWf, proofWf, pageWf, Bool.and_eq_true] at hw ⊢; simp [hw]; done)
      | (intro _ _ _) | (simp only [storesWf_same])

theorem wf_upMove (shard : Nat) (f : Move → Move) (s : Block) (h : storesWf s = true) :
    storesWf (upMove shard f s) = true := by
  unfold upMove
  (try simp only [])
  repeat' first
      | with_reducible assumption | with_reducible apply wf_upTw | split
      | (intro w hw; simp only [twinWf, catWf, accWf, rackWf, deskWf, shelfWf, retWf, lardWf, sortWf, bankWf, officeWf, obsWf, bakeWf, thrdWf, relWf, arbWf, proofWf, pageWf, Bool.and_eq_true] at hw ⊢; simp [hw]; done)
      | (intro _ _ _) | (simp only [storesWf_same])

theorem wf_dropMove (shard : Nat) (s : Block) (h : storesWf s = true) : storesWf (dropMove shard s) = true := by
  unfold dropMove
  (try simp only [])
  repeat' first
      | with_reducible assumption | with_reducible apply wf_upTw | split
      | (intro w hw; simp only [twinWf, catWf, accWf, rackWf, deskWf, shelfWf, retWf, lardWf, sortWf, bankWf, officeWf, obsWf, bakeWf, thrdWf, relWf, arbWf, proofWf, pageWf, Bool.and_eq_true] at hw ⊢; simp [hw]; done)
      | (intro _ _ _) | (simp only [storesWf_same])

theorem wf_releaseWaiters (t : TwinId) (shard : Nat) (s : Block) (h : storesWf s = true) :
    storesWf (releaseWaiters t shard s) = true := by
  unfold releaseWaiters
  (try simp only [])
  repeat' first
      | with_reducible assumption | with_reducible apply wf_upWait | with_reducible apply wf_retryFirst
      | with_reducible apply wf_pushWork | split
      | (intro w hw; simp only [twinWf, catWf, accWf, rackWf, deskWf, shelfWf, retWf, lardWf, sortWf, bankWf, officeWf, obsWf, bakeWf, thrdWf, relWf, arbWf, proofWf, pageWf, Bool.and_eq_true] at hw ⊢; simp [hw]; done)
      | (intro _ _ _) | (simp only [storesWf_same]) | (simp only [id_eq])

theorem wf_larderCredit (t : TwinId) (k : Nat) (g : Nat) (src : Nat) (s : Block) (h : storesWf s = true) :
    storesWf (larderCredit t k g src s) = true := by
  unfold larderCredit
  (try simp only [])
  repeat' first
      | with_reducible assumption | with_reducible apply wf_sendItem | split | (intro _ _ _)
      | (simp only [storesWf_same])

theorem wf_endMove (shard : Nat) (s : Block) (h : storesWf s = true) :
    storesWf (endMove shard s) = true := by
  unfold endMove
  (try simp only [])
  repeat' first
      | with_reducible assumption | with_reducible apply wf_upShard | with_reducible apply wf_publish
      | with_reducible apply wf_freeCopy | with_reducible apply wf_dropMove | with_reducible apply wf_upWait
      | with_reducible apply wf_moveTrace | with_reducible apply wf_bump | with_reducible apply wf_larderCredit
      | with_reducible apply wf_retryFirst | with_reducible apply wf_releaseWaiters | split
      | (intro w hw; simp only [twinWf, catWf, accWf, rackWf, deskWf, shelfWf, retWf, lardWf, sortWf, bankWf, officeWf, obsWf, bakeWf, thrdWf, relWf, arbWf, proofWf, pageWf, Bool.and_eq_true] at hw ⊢; simp [hw]; done)
      | (intro _ _ _) | (simp only [storesWf_same]) | (simp only [id_eq])

theorem wf_failMove (shard : Nat) (unsealed : Bool) (s : Block) (h : storesWf s = true) :
    storesWf (failMove shard unsealed s) = true := by
  unfold failMove
  (try simp only [])
  repeat' first
      | with_reducible assumption | with_reducible apply wf_moveTrace | with_reducible apply wf_publish
      | with_reducible apply wf_upShard | with_reducible apply wf_freeCopy | with_reducible apply wf_upWait
      | with_reducible apply wf_shelfFault | with_reducible apply wf_retryFirst | with_reducible apply wf_dropMove
      | split
      | (intro w hw; simp only [twinWf, catWf, accWf, rackWf, deskWf, shelfWf, retWf, lardWf, sortWf, bankWf, officeWf, obsWf, bakeWf, thrdWf, relWf, arbWf, proofWf, pageWf, Bool.and_eq_true] at hw ⊢; simp [hw]; done)
      | (intro _ _ _) | (simp only [storesWf_same]) | (simp only [id_eq])

theorem wf_descAnswer (shard : Nat) (ok : Bool) (s : Block) (h : storesWf s = true) :
    storesWf (descAnswer shard ok s) = true := by
  unfold descAnswer
  (try simp only [])
  repeat' first
      | with_reducible assumption | with_reducible apply wf_sealCopy | with_reducible apply wf_upMove
      | with_reducible apply wf_failMove | split
      | (intro w hw; simp only [twinWf, catWf, accWf, rackWf, deskWf, shelfWf, retWf, lardWf, sortWf, bankWf, officeWf, obsWf, bakeWf, thrdWf, relWf, arbWf, proofWf, pageWf, Bool.and_eq_true] at hw ⊢; simp [hw]; done)
      | (intro _ _ _) | (simp only [storesWf_same])

theorem wf_moveReqAt (shard base dest : Nat) (lc : Bool) (level : Nat) (load : Bool) (s : Block) (h : storesWf s = true) :
    storesWf (moveReqAt shard base dest lc level load s) = true := by
  unfold moveReqAt
  (try simp only [])
  repeat' first
      | with_reducible assumption | with_reducible apply wf_sendItem | with_reducible apply wf_decideMove | split
      | (intro w hw; simp only [twinWf, catWf, accWf, rackWf, deskWf, shelfWf, retWf, lardWf, sortWf, bankWf, officeWf, obsWf, bakeWf, thrdWf, relWf, arbWf, proofWf, pageWf, Bool.and_eq_true] at hw ⊢; simp [hw]; done)
      | (intro _ _ _) | (simp only [storesWf_same]) | (simp only [id_eq])

theorem wf_locAt (t : TwinId) (shard : Nat) (code : Nat) (k : Nat) (hi : Option Nat) (s : Block)
    (h : storesWf s = true) :
    storesWf (locAt t shard code k hi s) = true := by
  unfold locAt
  (try simp only [])
  repeat' first
      | with_reducible assumption | with_reducible apply wf_setLoc | with_reducible apply wf_sendItem
      | with_reducible apply wf_releaseWaiters | split | (intro _ _ _) | (simp only [storesWf_same])

theorem wf_writerIncAt (shard : Nat) (s : Block) (h : storesWf s = true) : storesWf (writerIncAt shard s) = true := by
  unfold writerIncAt
  (try simp only [])
  repeat' first
      | with_reducible assumption | with_reducible apply wf_upShard | split
      | (intro w hw; simp only [twinWf, catWf, accWf, rackWf, deskWf, shelfWf, retWf, lardWf, sortWf, bankWf, officeWf, obsWf, bakeWf, thrdWf, relWf, arbWf, proofWf, pageWf, Bool.and_eq_true] at hw ⊢; simp [hw]; done)
      | (intro _ _ _) | (simp only [storesWf_same])

theorem wf_writerDecAt (shard : Nat) (s : Block) (h : storesWf s = true) : storesWf (writerDecAt shard s) = true := by
  unfold writerDecAt
  (try simp only [])
  repeat' first
      | with_reducible assumption | with_reducible apply wf_upShard | with_reducible apply wf_pushWork | split
      | (intro w hw; simp only [twinWf, catWf, accWf, rackWf, deskWf, shelfWf, retWf, lardWf, sortWf, bankWf, officeWf, obsWf, bakeWf, thrdWf, relWf, arbWf, proofWf, pageWf, Bool.and_eq_true] at hw ⊢; simp [hw]; done)
      | (intro _ _ _) | (simp only [storesWf_same])

theorem wf_appendTo (id g : Nat) (s : Block) (h : storesWf s = true) :
    storesWf (appendTo id g s) = true := by
  unfold appendTo
  (try simp only [])
  repeat' first
      | with_reducible assumption | with_reducible apply wf_rackIn | with_reducible apply wf_needFlush
      | with_reducible apply wf_bump | with_reducible apply wf_upTw | split
      | (intro w hw; simp only [twinWf, catWf, accWf, rackWf, deskWf, shelfWf, retWf, lardWf, sortWf, bankWf, officeWf, obsWf, bakeWf, thrdWf, relWf, arbWf, proofWf, pageWf, Bool.and_eq_true] at hw ⊢; simp [hw]; done)
      | (intro _ _ _) | (simp only [storesWf_same]) | (simp only [id_eq])

theorem wf_requestMove (id shard dest : Nat) (forLoad : Bool) (s : Block) (h : storesWf s = true) :
    storesWf (requestMove id shard dest forLoad s) = true := by
  unfold requestMove
  (try simp only [])
  repeat' first
      | with_reducible assumption | with_reducible apply wf_linkInsWait | with_reducible apply wf_waitOn
      | with_reducible apply wf_decideMove | with_reducible apply wf_sendItem | split
      | (intro w hw; simp only [twinWf, catWf, accWf, rackWf, deskWf, shelfWf, retWf, lardWf, sortWf, bankWf, officeWf, obsWf, bakeWf, thrdWf, relWf, arbWf, proofWf, pageWf, Bool.and_eq_true] at hw ⊢; simp [hw]; done)
      | (intro _ _ _) | (simp only [storesWf_same]) | (simp only [id_eq])

theorem wf_place (id : Nat) (released again : Bool) (s : Block) (h : storesWf s = true) :
    storesWf (place id released again s) = true := by
  unfold place
  (try simp only [])
  repeat' first
      | with_reducible assumption | with_reducible apply wf_bump | with_reducible apply wf_trace
      | with_reducible apply wf_upCtxTw | with_reducible apply wf_appendTo | with_reducible apply wf_waitOn
      | with_reducible apply wf_requestMove | with_reducible apply wf_shelfFault | split
      | (intro w hw; simp only [twinWf, catWf, accWf, rackWf, deskWf, shelfWf, retWf, lardWf, sortWf, bankWf, officeWf, obsWf, bakeWf, thrdWf, relWf, arbWf, proofWf, pageWf, Bool.and_eq_true] at hw ⊢; simp [hw]; done)
      | (intro _ _ _) | (simp only [storesWf_same]) | (simp only [id_eq])

theorem wf_retryMove (m : MoveWant) (s : Block) (h : storesWf s = true) :
    storesWf (retryMove m s) = true := by
  unfold retryMove
  (try simp only [])
  repeat' first
      | with_reducible assumption | with_reducible apply wf_larderCredit | with_reducible apply wf_decideMove | split
      | (intro w hw; simp only [twinWf, catWf, accWf, rackWf, deskWf, shelfWf, retWf, lardWf, sortWf, bankWf, officeWf, obsWf, bakeWf, thrdWf, relWf, arbWf, proofWf, pageWf, Bool.and_eq_true] at hw ⊢; simp [hw]; done)
      | (intro _ _ _) | (simp only [storesWf_same]) | (simp only [id_eq])

theorem wf_retryMoves (t : TwinId) (s : Block) (h : storesWf s = true) :
    storesWf (retryMoves t s) = true := by
  unfold retryMoves
  (try simp only [])
  repeat' first
      | with_reducible assumption | with_reducible apply wf_forEach | with_reducible apply wf_retryMove
      | with_reducible apply wf_upTw | split
      | (intro w hw; simp only [twinWf, catWf, accWf, rackWf, deskWf, shelfWf, retWf, lardWf, sortWf, bankWf, officeWf, obsWf, bakeWf, thrdWf, relWf, arbWf, proofWf, pageWf, Bool.and_eq_true] at hw ⊢; simp [hw]; done)
      | (intro _ _ _) | (simp only [storesWf_same]) | (simp only [id_eq])

theorem wf_retryWaits (t : TwinId) (s : Block) (h : storesWf s = true) :
    storesWf (retryWaits t s) = true := by
  unfold retryWaits
  (try simp only [])
  repeat' first
      | with_reducible assumption | with_reducible apply wf_forEach | with_reducible apply wf_place
      | with_reducible apply wf_upTw | split
      | (intro w hw; simp only [twinWf, catWf, accWf, rackWf, deskWf, shelfWf, retWf, lardWf, sortWf, bankWf, officeWf, obsWf, bakeWf, thrdWf, relWf, arbWf, proofWf, pageWf, Bool.and_eq_true] at hw ⊢; simp [hw]; done)
      | (intro _ _ _) | (simp only [storesWf_same]) | (simp only [id_eq])

theorem wf_setShardStat (k : Nat) (st : Nat) (s : Block) (h : storesWf s = true) :
    storesWf (setShardStat k st s) = true := by
  unfold setShardStat
  (try simp only [])
  repeat' first
      | with_reducible assumption | with_reducible apply wf_upCtx | split
      | (intro w hw; simp only [twinWf, catWf, accWf, rackWf, deskWf, shelfWf, retWf, lardWf, sortWf, bankWf, officeWf, obsWf, bakeWf, thrdWf, relWf, arbWf, proofWf, pageWf, Bool.and_eq_true] at hw ⊢; simp [hw]; done)
      | (intro _ _ _) | (simp only [storesWf_same])

theorem wf_shardCmd (k : Nat) (f : Nat → Block → Block) (s : Block) (h : storesWf s = true)
    (hf : ∀ x s, storesWf s = true → storesWf (f x s) = true) : storesWf (shardCmd k f s) = true := by
  unfold shardCmd; simp only []; (repeat' split)
  · exact wf_setShardStat _ _ _ h
  · exact h
  · exact hf _ _ h

theorem wf_shardChange (k : Nat) (f : Nat → Block → Block) (s : Block) (h : storesWf s = true)
    (hf : ∀ x s, storesWf s = true → storesWf (f x s) = true) : storesWf (shardChange k f s) = true := by
  unfold shardChange; split
  · exact wf_shardCmd k f s h hf
  · exact h

theorem wf_shardAlloc (k cluster : Nat) (toCluster pin : Bool) (s : Block) (h : storesWf s = true) :
    storesWf (shardAlloc k cluster toCluster pin s) = true := by
  unfold shardAlloc
  refine wf_shardChange k _ s h (fun x s h => ?_)
  (try simp only [])
  repeat' first
      | with_reducible assumption | with_reducible apply wf_setShardStat | with_reducible apply wf_publish
      | with_reducible apply wf_upShard | split | (intro _ _ _)

end Sys2Proof.Machine
end

