-- ==== Sys2Proof/Laws/StoresB.lean ====
section
/-! SUPPORT. The operations keep the canonical form of every store, part 2 of 4: one lemma per operation. -/

namespace Sys2Proof.Machine

open Sys2Proof.Safety

set_option maxRecDepth 8000
set_option linter.unusedTactic false
set_option linter.unreachableTactic false
set_option linter.unusedSimpArgs false
set_option linter.unusedVariables false

theorem wf_shardFree (k : Nat) (s : Block) (h : storesWf s = true) : storesWf (shardFree k s) = true := by
  unfold shardFree
  refine wf_shardChange k _ s h (fun x s h => ?_)
  (try simp only [])
  repeat' first
      | with_reducible assumption | with_reducible apply wf_setShardStat | with_reducible apply wf_publish
      | with_reducible apply wf_upShard | with_reducible apply wf_upTw | split
      | (intro w hw; simp only [twinWf, catWf, accWf, rackWf, deskWf, shelfWf, retWf, lardWf, sortWf, bankWf, officeWf, obsWf, bakeWf, thrdWf, relWf, arbWf, proofWf, pageWf, Bool.and_eq_true] at hw ⊢; simp [hw]; done)
      | (intro _ _ _)

theorem wf_shardMove (k cluster : Nat) (toCluster : Bool) (s : Block) (h : storesWf s = true) :
    storesWf (shardMove k cluster toCluster s) = true := by
  unfold shardMove
  refine wf_shardChange k _ s h (fun x s h => ?_)
  (try simp only [])
  repeat' first
      | with_reducible assumption | with_reducible apply wf_setShardStat | with_reducible apply wf_decideMove | split
      | (intro _ _ _)

theorem wf_shardQuery (k : Nat) (s : Block) (h : storesWf s = true) : storesWf (shardQuery k s) = true := by
  unfold shardQuery
  exact wf_shardCmd k _ s h (fun x s h => wf_setShardStat _ _ _ (wf_setReg _ _ _ _ (wf_setReg _ _ _ _ (wf_setReg _ _ _ _ h))))

theorem wf_sweepLanes (t : TwinId) (p : Nat → Bool) (mine : Nat → Bool) (s : Block) (h : storesWf s = true) :
    storesWf (sweepLanes t p mine s) = true := by
  unfold sweepLanes
  (try simp only [])
  repeat' first
      | with_reducible assumption | with_reducible apply wf_upTw | with_reducible apply wf_pushWork
      | with_reducible apply wf_writersDec | with_reducible apply wf_forEach | split
      | (intro w hw; simp only [twinWf, catWf, accWf, rackWf, deskWf, shelfWf, retWf, lardWf, sortWf, bankWf, officeWf, obsWf, bakeWf, thrdWf, relWf, arbWf, proofWf, pageWf, Bool.and_eq_true] at hw ⊢; simp [hw]; done)
      | (intro _ _ _) | (simp only [storesWf_same])

theorem wf_evacuate (t : TwinId) (evac : Bool) (p : Shard → Bool) (s : Block) (h : storesWf s = true) :
    storesWf (evacuate t evac p s) = true := by
  unfold evacuate
  (try simp only [])
  repeat' first
      | with_reducible assumption | with_reducible apply wf_forEach | with_reducible apply wf_decideMove | split
      | (intro w hw; simp only [twinWf, catWf, accWf, rackWf, deskWf, shelfWf, retWf, lardWf, sortWf, bankWf, officeWf, obsWf, bakeWf, thrdWf, relWf, arbWf, proofWf, pageWf, Bool.and_eq_true] at hw ⊢; simp [hw]; done)
      | (intro _ _ _) | (simp only [storesWf_same]) | (simp only [id_eq])

theorem wf_replaceUnplaced (t : TwinId) (k : Nat) (s : Block) (h : storesWf s = true) :
    storesWf (replaceUnplaced t k s) = true := by
  unfold replaceUnplaced
  (try simp only [])
  repeat' first
      | with_reducible assumption | with_reducible apply wf_pushWork | with_reducible apply wf_upCtxTw | split
      | (intro w hw; simp only [twinWf, catWf, accWf, rackWf, deskWf, shelfWf, retWf, lardWf, sortWf, bankWf, officeWf, obsWf, bakeWf, thrdWf, relWf, arbWf, proofWf, pageWf, Bool.and_eq_true] at hw ⊢; simp [hw]; done)
      | (intro _ _ _) | (simp only [storesWf_same])

theorem wf_partitionChange (k : Nat) (gained : Bool) (s : Block) (h : storesWf s = true) :
    storesWf (partitionChange k gained s) = true := by
  unfold partitionChange
  (try simp only [])
  repeat' first
      | with_reducible assumption | with_reducible apply wf_sweepLanes | with_reducible apply wf_evacuate
      | with_reducible apply wf_replaceUnplaced | with_reducible apply wf_emit | split
      | (intro w hw; simp only [twinWf, catWf, accWf, rackWf, deskWf, shelfWf, retWf, lardWf, sortWf, bankWf, officeWf, obsWf, bakeWf, thrdWf, relWf, arbWf, proofWf, pageWf, Bool.and_eq_true] at hw ⊢; simp [hw]; done)
      | (intro _ _ _) | (simp only [storesWf_same]) | (simp only [id_eq])

theorem wf_sweepGroup (t : TwinId) (g : Nat) (s : Block) (h : storesWf s = true) :
    storesWf (sweepGroup t g s) = true := by
  unfold sweepGroup
  (try simp only [])
  repeat' first
      | with_reducible assumption | with_reducible apply wf_sweepLanes | with_reducible apply wf_sendBack
      | with_reducible apply wf_evacuate | split
      | (intro w hw; simp only [twinWf, catWf, accWf, rackWf, deskWf, shelfWf, retWf, lardWf, sortWf, bankWf, officeWf, obsWf, bakeWf, thrdWf, relWf, arbWf, proofWf, pageWf, Bool.and_eq_true] at hw ⊢; simp [hw]; done)
      | (intro _ _ _) | (simp only [storesWf_same]) | (simp only [id_eq])

theorem wf_removeEngine (e : Nat) (s : Block) (h : storesWf s = true) :
    storesWf (removeEngine e s) = true := by
  unfold removeEngine
  (try simp only [])
  repeat' first
      | with_reducible assumption | with_reducible apply wf_upEng | with_reducible apply wf_bump
      | with_reducible apply wf_forEach | with_reducible apply wf_returnNode | with_reducible apply wf_sendReturn
      | with_reducible apply wf_sweepGroup | with_reducible apply wf_sendItem | split
      | (intro w hw; simp only [twinWf, catWf, accWf, rackWf, deskWf, shelfWf, retWf, lardWf, sortWf, bankWf, officeWf, obsWf, bakeWf, thrdWf, relWf, arbWf, proofWf, pageWf, Bool.and_eq_true] at hw ⊢; simp [hw]; done)
      | (intro _ _ _) | (simp only [storesWf_same]) | (simp only [id_eq])

theorem wf_replaceFor (t : TwinId) (g : Nat) (s : Block) (h : storesWf s = true) :
    storesWf (replaceFor t g s) = true := by
  unfold replaceFor
  (try simp only [])
  repeat' first
      | with_reducible assumption | with_reducible apply wf_forEach | with_reducible apply wf_replaceUnplaced | split
      | (intro w hw; simp only [twinWf, catWf, accWf, rackWf, deskWf, shelfWf, retWf, lardWf, sortWf, bankWf, officeWf, obsWf, bakeWf, thrdWf, relWf, arbWf, proofWf, pageWf, Bool.and_eq_true] at hw ⊢; simp [hw]; done)
      | (intro _ _ _) | (simp only [storesWf_same]) | (simp only [id_eq])

theorem wf_groupUpAt (t : TwinId) (g : Nat) (s : Block) (h : storesWf s = true) :
    storesWf (groupUpAt t g s) = true := by
  unfold groupUpAt
  (try simp only [])
  repeat' first
      | with_reducible assumption | with_reducible apply wf_replaceFor | with_reducible apply wf_upTw | split
      | (intro w hw; simp only [twinWf, catWf, accWf, rackWf, deskWf, shelfWf, retWf, lardWf, sortWf, bankWf, officeWf, obsWf, bakeWf, thrdWf, relWf, arbWf, proofWf, pageWf, Bool.and_eq_true] at hw ⊢; simp [hw]; done)
      | (intro _ _ _) | (simp only [storesWf_same]) | (simp only [id_eq])

theorem wf_restoreEngine (e : Nat) (s : Block) (h : storesWf s = true) :
    storesWf (restoreEngine e s) = true := by
  unfold restoreEngine
  (try simp only [])
  repeat' first
      | with_reducible assumption | with_reducible apply wf_upEng | with_reducible apply wf_replaceFor
      | with_reducible apply wf_groupUpAt | with_reducible apply wf_sendItem | split
      | (intro w hw; simp only [twinWf, catWf, accWf, rackWf, deskWf, shelfWf, retWf, lardWf, sortWf, bankWf, officeWf, obsWf, bakeWf, thrdWf, relWf, arbWf, proofWf, pageWf, Bool.and_eq_true] at hw ⊢; simp [hw]; done)
      | (intro _ _ _) | (simp only [storesWf_same]) | (simp only [id_eq])

theorem wf_serviceAt (t : TwinId) (g : Nat) (up : Bool) (s : Block) (h : storesWf s = true) :
    storesWf (serviceAt t g up s) = true := by
  unfold serviceAt
  (try simp only [])
  repeat' first
      | with_reducible assumption | with_reducible apply wf_upTw | with_reducible apply wf_groupUpAt
      | with_reducible apply wf_sweepGroup | split
      | (intro w hw; simp only [twinWf, catWf, accWf, rackWf, deskWf, shelfWf, retWf, lardWf, sortWf, bankWf, officeWf, obsWf, bakeWf, thrdWf, relWf, arbWf, proofWf, pageWf, Bool.and_eq_true] at hw ⊢; simp [hw]; done)
      | (intro _ _ _) | (simp only [storesWf_same]) | (simp only [id_eq])

theorem wf_engineCtl (t : TwinId) (restore wholePort : Bool) (e : Nat) (s : Block) (h : storesWf s = true) :
    storesWf (engineCtl t restore wholePort e s) = true := by
  unfold engineCtl
  (try simp only [])
  repeat' first
      | with_reducible assumption | with_reducible apply wf_setErr | with_reducible apply wf_forEach
      | with_reducible apply wf_restoreEngine | with_reducible apply wf_removeEngine | split
      | (intro w hw; simp only [twinWf, catWf, accWf, rackWf, deskWf, shelfWf, retWf, lardWf, sortWf, bankWf, officeWf, obsWf, bakeWf, thrdWf, relWf, arbWf, proofWf, pageWf, Bool.and_eq_true] at hw ⊢; simp [hw]; done)
      | (intro _ _ _) | (simp only [storesWf_same]) | (simp only [id_eq])

theorem wf_acceptTimeout (e : Nat) (s : Block) (h : storesWf s = true) : storesWf (acceptTimeout e s) = true := by
  unfold acceptTimeout
  (try simp only [])
  repeat' first
      | with_reducible assumption | with_reducible apply wf_removeEngine | with_reducible apply wf_bump
      | with_reducible apply wf_deskErr | split | (intro _ _ _) | (simp only [storesWf_same])

theorem wf_upSort (t : TwinId) (f : Sorter → Sorter) (s : Block) (h : storesWf s = true)
    (hf : ∀ w, sortWf w = true → sortWf (f w) = true) : storesWf (upSort t f s) = true := by
  unfold upSort
  refine wf_upTw t _ s h ?_
  intro w hw
  simp only [twinWf, Bool.and_eq_true] at hw ⊢
  simp [hw, hf]

theorem wf_setBatch (t : TwinId) (x : Nat) (b : Batch) (s : Block) (h : storesWf s = true) :
    storesWf (setBatch t x b s) = true := by
  unfold setBatch
  (try simp only [])
  repeat' first
      | with_reducible assumption | with_reducible apply wf_upSort | split
      | (intro w hw; simp only [twinWf, catWf, accWf, rackWf, deskWf, shelfWf, retWf, lardWf, sortWf, bankWf, officeWf, obsWf, bakeWf, thrdWf, relWf, arbWf, proofWf, pageWf, Bool.and_eq_true] at hw ⊢; simp [hw]; done)
      | (intro _ _ _) | (simp only [storesWf_same])

theorem wf_batchAt (t : TwinId) (i k : Nat) (news : SlotNews) (s : Block) (h : storesWf s = true) :
    storesWf (batchAt t i k news s) = true := by
  unfold batchAt
  (try simp only [])
  repeat' first
      | with_reducible assumption | with_reducible apply wf_upSort | split
      | (intro w hw; simp only [twinWf, catWf, accWf, rackWf, deskWf, shelfWf, retWf, lardWf, sortWf, bankWf, officeWf, obsWf, bakeWf, thrdWf, relWf, arbWf, proofWf, pageWf, Bool.and_eq_true] at hw ⊢; simp [hw]; done)
      | (intro _ _ _) | (simp only [storesWf_same]) | (simp only [id_eq])

theorem wf_mirrorBatch (t : TwinId) (x k : Nat) (news : SlotNews) (epoch : Nat) (s : Block) (h : storesWf s = true) :
    storesWf (mirrorBatch t x k news epoch s) = true := by
  unfold mirrorBatch
  (try simp only [])
  repeat' first
      | with_reducible assumption | with_reducible apply wf_sendItem | with_reducible apply wf_batchAt | split
      | (intro w hw; simp only [twinWf, catWf, accWf, rackWf, deskWf, shelfWf, retWf, lardWf, sortWf, bankWf, officeWf, obsWf, bakeWf, thrdWf, relWf, arbWf, proofWf, pageWf, Bool.and_eq_true] at hw ⊢; simp [hw]; done)
      | (intro _ _ _) | (simp only [storesWf_same]) | (simp only [id_eq])

theorem wf_upDeferred (t : TwinId) (p : Deferred → Bool) (f : Deferred → Deferred) (s : Block)
    (h : storesWf s = true) :
    storesWf (upDeferred t p f s) = true := by
  unfold upDeferred
  (try simp only [])
  repeat' first
      | with_reducible assumption | with_reducible apply wf_upTw | split
      | (intro w hw; simp only [twinWf, catWf, accWf, rackWf, deskWf, shelfWf, retWf, lardWf, sortWf, bankWf, officeWf, obsWf, bakeWf, thrdWf, relWf, arbWf, proofWf, pageWf, Bool.and_eq_true] at hw ⊢; simp [hw]; done)
      | (intro _ _ _) | (simp only [storesWf_same])

theorem wf_recheckSlot (sel : Nat) (s : Block) (h : storesWf s = true) :
    storesWf (recheckSlot sel s) = true := by
  unfold recheckSlot
  (try simp only [])
  repeat' first
      | with_reducible assumption | with_reducible apply wf_pushWork | split
      | (intro w hw; simp only [twinWf, catWf, accWf, rackWf, deskWf, shelfWf, retWf, lardWf, sortWf, bankWf, officeWf, obsWf, bakeWf, thrdWf, relWf, arbWf, proofWf, pageWf, Bool.and_eq_true] at hw ⊢; simp [hw]; done)
      | (intro _ _ _) | (simp only [storesWf_same]) | (simp only [id_eq])

theorem wf_finishDeferred (t : TwinId) (id : Nat) (s : Block) (h : storesWf s = true) :
    storesWf (finishDeferred t id s) = true := by
  unfold finishDeferred
  (try simp only [])
  repeat' first
      | with_reducible assumption | with_reducible apply wf_upTw | with_reducible apply wf_recheckSlot
      | with_reducible apply wf_closeRec | split
      | (intro w hw; simp only [twinWf, catWf, accWf, rackWf, deskWf, shelfWf, retWf, lardWf, sortWf, bankWf, officeWf, obsWf, bakeWf, thrdWf, relWf, arbWf, proofWf, pageWf, Bool.and_eq_true] at hw ⊢; simp [hw]; done)
      | (intro _ _ _) | (simp only [storesWf_same]) | (simp only [id_eq])

theorem wf_unpark (t : TwinId) (node : Nat) (gen : Nat) (s : Block) (h : storesWf s = true) :
    storesWf (unpark t node gen s) = true := by
  unfold unpark
  (try simp only [])
  repeat' first
      | with_reducible assumption | with_reducible apply wf_finishDeferred | with_reducible apply wf_upDeferred
      | split
      | (intro w hw; simp only [twinWf, catWf, accWf, rackWf, deskWf, shelfWf, retWf, lardWf, sortWf, bankWf, officeWf, obsWf, bakeWf, thrdWf, relWf, arbWf, proofWf, pageWf, Bool.and_eq_true] at hw ⊢; simp [hw]; done)
      | (intro _ _ _) | (simp only [storesWf_same])

theorem wf_openSlot (t : TwinId) (x : Nat) (b : Batch) (s : Block) (h : storesWf s = true) :
    storesWf (openSlot t x b s) = true := by
  unfold openSlot
  (try simp only [])
  repeat' first
      | with_reducible assumption | with_reducible apply wf_setBatch | with_reducible apply wf_mirrorBatch
      | with_reducible apply wf_bump | with_reducible apply wf_needFlush | with_reducible apply wf_emit | split
      | (intro w hw; simp only [twinWf, catWf, accWf, rackWf, deskWf, shelfWf, retWf, lardWf, sortWf, bankWf, officeWf, obsWf, bakeWf, thrdWf, relWf, arbWf, proofWf, pageWf, Bool.and_eq_true] at hw ⊢; simp [hw]; done)
      | (intro _ _ _) | (simp only [storesWf_same]) | (simp only [id_eq])

theorem wf_openBatch (t : TwinId) (route : Nat) (gen : Nat) (k : Nat) (cluster : Nat) (s : Block)
    (h : storesWf s = true) :
    storesWf (openBatch t route gen k cluster s) = true := by
  unfold openBatch
  (try simp only [])
  repeat' first
      | with_reducible assumption | with_reducible apply wf_openSlot | with_reducible apply wf_upSort | split
      | (intro w hw; simp only [twinWf, catWf, accWf, rackWf, deskWf, shelfWf, retWf, lardWf, sortWf, bankWf, officeWf, obsWf, bakeWf, thrdWf, relWf, arbWf, proofWf, pageWf, Bool.and_eq_true] at hw ⊢; simp [hw]; done)
      | (intro _ _ _) | (simp only [storesWf_same])

theorem wf_takeParked (t : TwinId) (s : Block) (h : storesWf s = true) : storesWf (takeParked t s) = true := by
  unfold takeParked
  (try simp only [])
  repeat' first
      | with_reducible assumption | with_reducible apply wf_unpark | with_reducible apply wf_openSlot
      | with_reducible apply wf_upSort | split
      | (intro w hw; simp only [twinWf, catWf, accWf, rackWf, deskWf, shelfWf, retWf, lardWf, sortWf, bankWf, officeWf, obsWf, bakeWf, thrdWf, relWf, arbWf, proofWf, pageWf, Bool.and_eq_true] at hw ⊢; simp [hw]; done)
      | (intro _ _ _) | (simp only [storesWf_same])

theorem wf_freeSlot (t : TwinId) (x : Nat) (s : Block) (h : storesWf s = true) :
    storesWf (freeSlot t x s) = true := by
  unfold freeSlot
  (try simp only [])
  repeat' first
      | with_reducible assumption | with_reducible apply wf_takeParked | with_reducible apply wf_mirrorBatch
      | with_reducible apply wf_setBatch | split
      | (intro w hw; simp only [twinWf, catWf, accWf, rackWf, deskWf, shelfWf, retWf, lardWf, sortWf, bankWf, officeWf, obsWf, bakeWf, thrdWf, relWf, arbWf, proofWf, pageWf, Bool.and_eq_true] at hw ⊢; simp [hw]; done)
      | (intro _ _ _) | (simp only [storesWf_same]) | (simp only [id_eq])

theorem wf_freeCheck (t : TwinId) (x : Nat) (s : Block) (h : storesWf s = true) :
    storesWf (freeCheck t x s) = true := by
  unfold freeCheck
  (try simp only [])
  repeat' first
      | with_reducible assumption | with_reducible apply wf_freeSlot | split | (intro _ _ _)
      | (simp only [storesWf_same])

theorem wf_startScores (t : TwinId) (x : Nat) (s : Block) (h : storesWf s = true) :
    storesWf (startScores t x s) = true := by
  unfold startScores
  (try simp only [])
  repeat' first
      | with_reducible assumption | with_reducible apply wf_emit | with_reducible apply wf_setBatch
      | with_reducible apply wf_forEach | split | (intro _ _ _) | (simp only [storesWf_same])

theorem wf_headerReadDone (t : TwinId) (x : Nat) (header : List Nat) (s : Block) (h : storesWf s = true) :
    storesWf (headerReadDone t x header s) = true := by
  unfold headerReadDone
  (try simp only [])
  repeat' first
      | with_reducible assumption | with_reducible apply wf_sortFault | with_reducible apply wf_freeSlot
      | with_reducible apply wf_startScores | with_reducible apply wf_setBatch | split | (intro _ _ _)
      | (simp only [storesWf_same])

theorem wf_batchFlushed (t : TwinId) (id : Nat) (s : Block) (h : storesWf s = true) :
    storesWf (batchFlushed t id s) = true := by
  unfold batchFlushed
  (try simp only [])
  repeat' first
      | with_reducible assumption | with_reducible apply wf_startScores | with_reducible apply wf_setBatch | split
      | (intro _ _ _) | (simp only [storesWf_same])

theorem wf_writeLines (t : TwinId) (addr : Nat) (words : List Nat) (s : Block) (h : storesWf s = true) :
    storesWf (writeLines t addr words s) = true := by
  unfold writeLines
  (try simp only [])
  repeat' first
      | with_reducible assumption | with_reducible apply wf_emit | with_reducible apply wf_forEach | split
      | (intro _ _ _) | (simp only [storesWf_same])

theorem wf_settleSelection (t : TwinId) (x : Nat) (s : Block) (h : storesWf s = true) :
    storesWf (settleSelection t x s) = true := by
  unfold settleSelection
  (try simp only [])
  repeat' first
      | with_reducible assumption | with_reducible apply wf_writeLines | with_reducible apply wf_setBatch
      | with_reducible apply wf_forEach | split | (intro _ _ _) | (simp only [storesWf_same])

theorem wf_scoreReadDone (t : TwinId) (x : Nat) (line : Nat) (scores : List Nat) (s : Block) (h : storesWf s = true) :
    storesWf (scoreReadDone t x line scores s) = true := by
  unfold scoreReadDone
  (try simp only [])
  repeat' first
      | with_reducible assumption | with_reducible apply wf_bump | with_reducible apply wf_setBatch
      | with_reducible apply wf_settleSelection | split | (intro _ _ _) | (simp only [storesWf_same])

theorem wf_sendResolved (t : TwinId) (cs : List Credit) (s : Block) (h : storesWf s = true) :
    storesWf (sendResolved t cs s) = true := by
  unfold sendResolved
  (try simp only [])
  repeat' first
      | with_reducible assumption | with_reducible apply wf_bump | with_reducible apply wf_forEach
      | with_reducible apply wf_sendItem | with_reducible apply wf_pushWork | split
      | (intro w hw; simp only [twinWf, catWf, accWf, rackWf, deskWf, shelfWf, retWf, lardWf, sortWf, bankWf, officeWf, obsWf, bakeWf, thrdWf, relWf, arbWf, proofWf, pageWf, Bool.and_eq_true] at hw ⊢; simp [hw]; done)
      | (intro _ _ _) | (simp only [storesWf_same]) | (simp only [id_eq])

theorem wf_resolveBatch (t : TwinId) (x : Nat) (s : Block) (h : storesWf s = true) :
    storesWf (resolveBatch t x s) = true := by
  unfold resolveBatch
  (try simp only [])
  repeat' first
      | with_reducible assumption | with_reducible apply wf_sendResolved | with_reducible apply wf_setBatch
      | with_reducible apply wf_sortFault | with_reducible apply wf_pushWork | split | (intro _ _ _)
      | (simp only [storesWf_same])

theorem wf_selectionWriteAck (t : TwinId) (x : Nat) (s : Block) (h : storesWf s = true) :
    storesWf (selectionWriteAck t x s) = true := by
  unfold selectionWriteAck
  (try simp only [])
  repeat' first
      | with_reducible assumption | with_reducible apply wf_setBatch | with_reducible apply wf_pushWork
      | with_reducible apply wf_resolveBatch | with_reducible apply wf_bump | split | (intro _ _ _)
      | (simp only [storesWf_same])

theorem wf_handEdge (t : TwinId) (gen : Nat) (c : Credit) (s : Block) (h : storesWf s = true) :
    storesWf (handEdge t gen c s) = true := by
  unfold handEdge
  (try simp only [])
  repeat' first
      | with_reducible assumption | with_reducible apply wf_sortFault | with_reducible apply wf_sendResolved
      | with_reducible apply wf_setBatch | with_reducible apply wf_resolveBatch | with_reducible apply wf_upSort
      | split
      | (intro w hw; simp only [twinWf, catWf, accWf, rackWf, deskWf, shelfWf, retWf, lardWf, sortWf, bankWf, officeWf, obsWf, bakeWf, thrdWf, relWf, arbWf, proofWf, pageWf, Bool.and_eq_true] at hw ⊢; simp [hw]; done)
      | (intro _ _ _) | (simp only [storesWf_same])

theorem wf_listEnd (t : TwinId) (route : Nat) (gen : Nat) (s : Block) (h : storesWf s = true) :
    storesWf (listEnd t route gen s) = true := by
  unfold listEnd
  (try simp only [])
  repeat' first
      | with_reducible assumption | with_reducible apply wf_pushWork | with_reducible apply wf_setBatch
      | with_reducible apply wf_upSort | split
      | (intro w hw; simp only [twinWf, catWf, accWf, rackWf, deskWf, shelfWf, retWf, lardWf, sortWf, bankWf, officeWf, obsWf, bakeWf, thrdWf, relWf, arbWf, proofWf, pageWf, Bool.and_eq_true] at hw ⊢; simp [hw]; done)
      | (intro _ _ _) | (simp only [storesWf_same])

theorem wf_unboundAt (sel : Nat) (s : Block) (h : storesWf s = true) :
    storesWf (unboundAt sel s) = true := by
  unfold unboundAt
  (try simp only [])
  repeat' first
      | with_reducible assumption | with_reducible apply wf_forEach | with_reducible apply wf_resolveBatch
      | with_reducible apply wf_freeCheck | split
      | (intro w hw; simp only [twinWf, catWf, accWf, rackWf, deskWf, shelfWf, retWf, lardWf, sortWf, bankWf, officeWf, obsWf, bakeWf, thrdWf, relWf, arbWf, proofWf, pageWf, Bool.and_eq_true] at hw ⊢; simp [hw]; done)
      | (intro _ _ _) | (simp only [storesWf_same]) | (simp only [id_eq])

theorem wf_cancelSlots (t : TwinId) (k : Nat) (s : Block) (h : storesWf s = true) :
    storesWf (cancelSlots t k s) = true := by
  unfold cancelSlots
  (try simp only [])
  repeat' first
      | with_reducible assumption | with_reducible apply wf_forEach | with_reducible apply wf_pushWork
      | with_reducible apply wf_mirrorBatch | with_reducible apply wf_bump | with_reducible apply wf_setBatch
      | with_reducible apply wf_upSort | split
      | (intro w hw; simp only [twinWf, catWf, accWf, rackWf, deskWf, shelfWf, retWf, lardWf, sortWf, bankWf, officeWf, obsWf, bakeWf, thrdWf, relWf, arbWf, proofWf, pageWf, Bool.and_eq_true] at hw ⊢; simp [hw]; done)
      | (intro _ _ _) | (simp only [storesWf_same]) | (simp only [id_eq])

theorem wf_sortCancel (k : Nat) (s : Block) (h : storesWf s = true) : storesWf (sortCancel k s) = true := by
  unfold sortCancel
  (try simp only [])
  repeat' first
      | with_reducible assumption | with_reducible apply wf_sendItem | with_reducible apply wf_upCtx | split
      | (intro w hw; simp only [twinWf, catWf, accWf, rackWf, deskWf, shelfWf, retWf, lardWf, sortWf, bankWf, officeWf, obsWf, bakeWf, thrdWf, relWf, arbWf, proofWf, pageWf, Bool.and_eq_true] at hw ⊢; simp [hw]; done)
      | (intro _ _ _) | (simp only [storesWf_same])

theorem wf_cancelIn (t : TwinId) (k : Nat) (s : Block) (h : storesWf s = true) :
    storesWf (cancelIn t k s) = true := by
  unfold cancelIn
  (try simp only [])
  repeat' first
      | with_reducible assumption | with_reducible apply wf_cancelSlots | with_reducible apply wf_upTw | split
      | (intro w hw; simp only [twinWf, catWf, accWf, rackWf, deskWf, shelfWf, retWf, lardWf, sortWf, bankWf, officeWf, obsWf, bakeWf, thrdWf, relWf, arbWf, proofWf, pageWf, Bool.and_eq_true] at hw ⊢; simp [hw]; done)
      | (intro _ _ _) | (simp only [storesWf_same]) | (simp only [id_eq])

theorem wf_cancelBatches (k : Nat) (s : Block) (h : storesWf s = true) :
    storesWf (cancelBatches k s) = true := by
  unfold cancelBatches
  (try simp only [])
  repeat' first
      | with_reducible assumption | with_reducible apply wf_cancelIn | with_reducible apply wf_upCtx | split
      | (intro w hw; simp only [twinWf, catWf, accWf, rackWf, deskWf, shelfWf, retWf, lardWf, sortWf, bankWf, officeWf, obsWf, bakeWf, thrdWf, relWf, arbWf, proofWf, pageWf, Bool.and_eq_true] at hw ⊢; simp [hw]; done)
      | (intro _ _ _) | (simp only [storesWf_same]) | (simp only [id_eq])

theorem wf_sortFence (t : TwinId) (k : Nat) (s : Block) (h : storesWf s = true) :
    storesWf (sortFence t k s) = true := by
  unfold sortFence
  (try simp only [])
  repeat' first
      | with_reducible assumption | with_reducible apply wf_upSort | with_reducible apply wf_pushWork
      | with_reducible apply wf_freeSlot | with_reducible apply wf_forEach | split
      | (intro w hw; simp only [twinWf, catWf, accWf, rackWf, deskWf, shelfWf, retWf, lardWf, sortWf, bankWf, officeWf, obsWf, bakeWf, thrdWf, relWf, arbWf, proofWf, pageWf, Bool.and_eq_true] at hw ⊢; simp [hw]; done)
      | (intro _ _ _) | (simp only [storesWf_same])

theorem wf_routeIo (t : TwinId) (x : Nat) (which : RouteAccess) (s : Block) (h : storesWf s = true) :
    storesWf (routeIo t x which s) = true := by
  unfold routeIo
  (try simp only [])
  repeat' first
      | with_reducible assumption | with_reducible apply wf_sortFault | with_reducible apply wf_freeSlot | split
      | (intro _ _ _) | (simp only [storesWf_same])

theorem wf_freeNode (id : Nat) (s : Block) (h : storesWf s = true) :
    storesWf (freeNode id s) = true := by
  unfold freeNode
  (try simp only [])
  repeat' first
      | with_reducible assumption | with_reducible apply wf_wheelUnlink | with_reducible apply wf_rackUnlink
      | with_reducible apply wf_releaseReservation | with_reducible apply wf_unitUnlink
      | with_reducible apply wf_closeRec | with_reducible apply wf_unbind | with_reducible apply wf_narrowFree
      | with_reducible apply wf_writersDec | with_reducible apply wf_lockList | with_reducible apply wf_upTw
      | with_reducible apply wf_setNode | with_reducible apply wf_upCtxTw | with_reducible apply wf_retryFirst
      | with_reducible apply wf_setOwner | split
      | (intro w hw; simp only [twinWf, catWf, accWf, rackWf, deskWf, shelfWf, retWf, lardWf, sortWf, bankWf, officeWf, obsWf, bakeWf, thrdWf, relWf, arbWf, proofWf, pageWf, Bool.and_eq_true] at hw ⊢; simp [hw]; done)
      | (intro _ _ _) | (simp only [storesWf_same]) | (simp only [id_eq])

theorem wf_chargeKept (k : Nat) (cls : Nat) (n : Nat) (s : Block) (h : storesWf s = true) :
    storesWf (chargeKept k cls n s) = true := by
  unfold chargeKept
  (try simp only [])
  repeat' first
      | with_reducible assumption | with_reducible apply wf_upCtx | split
      | (intro w hw; simp only [twinWf, catWf, accWf, rackWf, deskWf, shelfWf, retWf, lardWf, sortWf, bankWf, officeWf, obsWf, bakeWf, thrdWf, relWf, arbWf, proofWf, pageWf, Bool.and_eq_true] at hw ⊢; simp [hw]; done)
      | (intro _ _ _) | (simp only [storesWf_same])

theorem wf_chargeSpilled (k : Nat) (cls : Nat) (n : Nat) (s : Block) (h : storesWf s = true) :
    storesWf (chargeSpilled k cls n s) = true := by
  unfold chargeSpilled
  (try simp only [])
  repeat' first
      | with_reducible assumption | with_reducible apply wf_upCtx | split
      | (intro w hw; simp only [twinWf, catWf, accWf, rackWf, deskWf, shelfWf, retWf, lardWf, sortWf, bankWf, officeWf, obsWf, bakeWf, thrdWf, relWf, arbWf, proofWf, pageWf, Bool.and_eq_true] at hw ⊢; simp [hw]; done)
      | (intro _ _ _) | (simp only [storesWf_same])

theorem wf_lardFault (t : TwinId) (k : Nat) (code : Nat) (reason : Nat) (node : Nat) (s : Block)
    (h : storesWf s = true) :
    storesWf (lardFault t k code reason node s) = true := by
  unfold lardFault
  (try simp only [])
  repeat' first
      | with_reducible assumption | with_reducible apply wf_raiseFault | with_reducible apply wf_upTw
      | with_reducible apply wf_setErr | split
      | (intro w hw; simp only [twinWf, catWf, accWf, rackWf, deskWf, shelfWf, retWf, lardWf, sortWf, bankWf, officeWf, obsWf, bakeWf, thrdWf, relWf, arbWf, proofWf, pageWf, Bool.and_eq_true] at hw ⊢; simp [hw]; done)
      | (intro _ _ _) | (simp only [storesWf_same])

theorem wf_gMarkAt (g : Nat) (stash : Nat) (spilled : Bool) (pend : Bool) (s : Block) (h : storesWf s = true) :
    storesWf (gMarkAt g stash spilled pend s) = true := by
  unfold gMarkAt
  (try simp only [])
  repeat' first
      | with_reducible assumption | with_reducible apply wf_upNode | with_reducible apply wf_sendItem | split
      | (intro w hw; simp only [twinWf, catWf, accWf, rackWf, deskWf, shelfWf, retWf, lardWf, sortWf, bankWf, officeWf, obsWf, bakeWf, thrdWf, relWf, arbWf, proofWf, pageWf, Bool.and_eq_true] at hw ⊢; simp [hw]; done)
      | (intro _ _ _) | (simp only [storesWf_same])

theorem wf_upEntry (t : TwinId) (i : Nat) (f : Rebake → Rebake) (s : Block) (h : storesWf s = true) :
    storesWf (upEntry t i f s) = true := by
  unfold upEntry
  (try simp only [])
  repeat' first
      | with_reducible assumption | with_reducible apply wf_upTw | split
      | (intro w hw; simp only [twinWf, catWf, accWf, rackWf, deskWf, shelfWf, retWf, lardWf, sortWf, bankWf, officeWf, obsWf, bakeWf, thrdWf, relWf, arbWf, proofWf, pageWf, Bool.and_eq_true] at hw ⊢; simp [hw]; done)
      | (intro _ _ _) | (simp only [storesWf_same])

theorem wf_makeRebake (t : TwinId) (o : Offer) (g : GInfo) (ins : List Nat) (i x : Nat) (s : Block) (h : storesWf s = true) :
    storesWf (makeRebake t o g ins i x s) = true := by
  unfold makeRebake
  (try simp only [])
  repeat' first
      | with_reducible assumption | with_reducible apply wf_upEntry | with_reducible apply wf_sealed
      | with_reducible apply wf_setNode | with_reducible apply wf_setOwner | with_reducible apply wf_forEach
      | with_reducible apply wf_upTw | with_reducible apply wf_bump | split
      | (intro w hw; simp only [twinWf, catWf, accWf, rackWf, deskWf, shelfWf, retWf, lardWf, sortWf, bankWf, officeWf, obsWf, bakeWf, thrdWf, relWf, arbWf, proofWf, pageWf, Bool.and_eq_true] at hw ⊢; simp [hw]; done)
      | (intro _ _ _) | (simp only [storesWf_same]) | (simp only [id_eq])

theorem wf_triggerAt (t : TwinId) (g : Nat) (k : Nat) (s : Block) (h : storesWf s = true) :
    storesWf (triggerAt t g k s) = true := by
  unfold triggerAt
  (try simp only [])
  repeat' first
      | with_reducible assumption | with_reducible apply wf_bump | with_reducible apply wf_upEntry
      | with_reducible apply wf_pushWork | split
      | (intro w hw; simp only [twinWf, catWf, accWf, rackWf, deskWf, shelfWf, retWf, lardWf, sortWf, bankWf, officeWf, obsWf, bakeWf, thrdWf, relWf, arbWf, proofWf, pageWf, Bool.and_eq_true] at hw ⊢; simp [hw]; done)
      | (intro _ _ _) | (simp only [storesWf_same])

theorem wf_dropEntry (t : TwinId) (i : Nat) (s : Block) (h : storesWf s = true) :
    storesWf (dropEntry t i s) = true := by
  unfold dropEntry
  (try simp only [])
  repeat' first
      | with_reducible assumption | with_reducible apply wf_upTw | split
      | (intro w hw; simp only [twinWf, catWf, accWf, rackWf, deskWf, shelfWf, retWf, lardWf, sortWf, bankWf, officeWf, obsWf, bakeWf, thrdWf, relWf, arbWf, proofWf, pageWf, Bool.and_eq_true] at hw ⊢; simp [hw]; done)
      | (intro _ _ _) | (simp only [storesWf_same])

theorem wf_sendMark (t : TwinId) (g : Nat) (stash : Nat) (spilled : Bool) (pend : Bool) (s : Block)
    (h : storesWf s = true) :
    storesWf (sendMark t g stash spilled pend s) = true := by
  unfold sendMark
  (try simp only [])
  repeat' first
      | with_reducible assumption | with_reducible apply wf_sendItem | split | (intro _ _ _)
      | (simp only [storesWf_same])

theorem wf_sendAnswer (t : TwinId) (o : Offer) (send : Bool) (consumers : List Nat) (s : Block)
    (h : storesWf s = true) :
    storesWf (sendAnswer t o send consumers s) = true := by
  unfold sendAnswer
  (try simp only [])
  repeat' first
      | with_reducible assumption | with_reducible apply wf_sendItem | split | (intro _ _ _)
      | (simp only [storesWf_same])

theorem wf_lardTrace (t : TwinId) (o : Offer) (code : Nat) (s : Block) (h : storesWf s = true) :
    storesWf (lardTrace t o code s) = true := by
  unfold lardTrace
  (try simp only [])
  repeat' first
      | with_reducible assumption | with_reducible apply wf_trace | split | (intro _ _ _)
      | (simp only [storesWf_same])

theorem wf_declareStash (t : TwinId) (o : Offer) (g : GInfo) (s : Block) (h : storesWf s = true) :
    storesWf (declareStash t o g s).2 = true := by
  unfold declareStash
  (try simp only [])
  repeat' first
      | with_reducible assumption | with_reducible apply wf_publish | with_reducible apply wf_upShard | split
      | (intro w hw; simp only [twinWf, catWf, accWf, rackWf, deskWf, shelfWf, retWf, lardWf, sortWf, bankWf, officeWf, obsWf, bakeWf, thrdWf, relWf, arbWf, proofWf, pageWf, Bool.and_eq_true] at hw ⊢; simp [hw]; done)
      | (intro _ _ _) | (simp only [storesWf_same])

theorem wf_keepStash (t : TwinId) (o : Offer) (consumers : List Nat) (s : Block) (h : storesWf s = true) :
    storesWf (keepStash t o consumers s) = true := by
  unfold keepStash
  (try simp only [])
  repeat' first
      | with_reducible assumption | with_reducible apply wf_lardTrace | with_reducible apply wf_sendAnswer
      | with_reducible apply wf_sendMark | with_reducible apply wf_bump | with_reducible apply wf_chargeKept | split
      | (intro _ _ _) | (simp only [storesWf_same])

theorem wf_spillStash (t : TwinId) (o : Offer) (g : GInfo) (declared answered forced : Bool) (s : Block) (h : storesWf s = true) :
    storesWf (spillStash t o g declared answered forced s) = true := by
  unfold spillStash
  (try simp only [])
  repeat' first
      | with_reducible assumption | with_reducible apply wf_lardTrace | with_reducible apply wf_lardFault
      | with_reducible apply wf_bump | with_reducible apply wf_chargeSpilled | with_reducible apply wf_sendMark
      | with_reducible apply wf_larderCredit | with_reducible apply wf_sendAnswer | with_reducible apply wf_decideMove
      | split
      | (intro w hw; simp only [twinWf, catWf, accWf, rackWf, deskWf, shelfWf, retWf, lardWf, sortWf, bankWf, officeWf, obsWf, bakeWf, thrdWf, relWf, arbWf, proofWf, pageWf, Bool.and_eq_true] at hw ⊢; simp [hw]; done)
      | (intro _ _ _) | (simp only [storesWf_same]) | (simp only [id_eq])

theorem wf_keepRebake (t : TwinId) (o : Offer) (s : Block) (h : storesWf s = true) :
    storesWf (keepRebake t o s) = true := by
  unfold keepRebake
  (try simp only [])
  repeat' first
      | with_reducible assumption | with_reducible apply wf_keepStash | with_reducible apply wf_bump
      | with_reducible apply wf_dropEntry | split | (intro _ _ _) | (simp only [storesWf_same])

theorem wf_decideRebake (t : TwinId) (o : Offer) (g : GInfo) (declared : Bool) (s : Block) (h : storesWf s = true) :
    storesWf (decideRebake t o g declared s) = true := by
  unfold decideRebake
  (try simp only [])
  repeat' first
      | with_reducible assumption | with_reducible apply wf_spillStash | with_reducible apply wf_lardTrace
      | with_reducible apply wf_sendMark | with_reducible apply wf_makeRebake | with_reducible apply wf_setErr
      | split | (intro _ _ _) | (simp only [storesWf_same])

theorem wf_nextOffer (t : TwinId) (k : Nat) (s : Block) (h : storesWf s = true) :
    storesWf (nextOffer t k s) = true := by
  unfold nextOffer
  (try simp only [])
  repeat' first
      | with_reducible assumption | with_reducible apply wf_upTw | with_reducible apply wf_pushWork | split
      | (intro w hw; simp only [twinWf, catWf, accWf, rackWf, deskWf, shelfWf, retWf, lardWf, sortWf, bankWf, officeWf, obsWf, bakeWf, thrdWf, relWf, arbWf, proofWf, pageWf, Bool.and_eq_true] at hw ⊢; simp [hw]; done)
      | (intro _ _ _) | (simp only [storesWf_same])

theorem wf_decideOffer (t : TwinId) (k : Nat) (o : Offer) (answered : Bool) (g : GInfo) (s : Block) (h : storesWf s = true) :
    storesWf (decideOffer t k o answered g s) = true := by
  unfold decideOffer
  (try simp only [])
  repeat' first
      | with_reducible assumption | with_reducible apply wf_nextOffer | with_reducible apply wf_decideRebake
      | with_reducible apply wf_bump | with_reducible apply wf_lardTrace | with_reducible apply wf_sendAnswer
      | with_reducible apply wf_lardFault | with_reducible apply wf_declareStash | with_reducible apply wf_keepRebake
      | with_reducible apply wf_keepStash | with_reducible apply wf_sendItem | with_reducible apply wf_upTw
      | with_reducible apply wf_spillStash | split
      | (intro w hw; simp only [twinWf, catWf, accWf, rackWf, deskWf, shelfWf, retWf, lardWf, sortWf, bankWf, officeWf, obsWf, bakeWf, thrdWf, relWf, arbWf, proofWf, pageWf, Bool.and_eq_true] at hw ⊢; simp [hw]; done)
      | (intro _ _ _) | (simp only [storesWf_same]) | (simp only [id_eq])

theorem wf_takeOffer (t : TwinId) (k : Nat) (s : Block) (h : storesWf s = true) :
    storesWf (takeOffer t k s) = true := by
  unfold takeOffer
  (try simp only [])
  repeat' first
      | with_reducible assumption | with_reducible apply wf_decideOffer | with_reducible apply wf_sendItem | split
      | (intro _ _ _) | (simp only [storesWf_same])

theorem wf_offerAt (t : TwinId) (o : Offer) (s : Block) (h : storesWf s = true) :
    storesWf (offerAt t o s) = true := by
  unfold offerAt
  (try simp only [])
  repeat' first
      | with_reducible assumption | with_reducible apply wf_upTw | with_reducible apply wf_takeOffer | split
      | (intro w hw; simp only [twinWf, catWf, accWf, rackWf, deskWf, shelfWf, retWf, lardWf, sortWf, bankWf, officeWf, obsWf, bakeWf, thrdWf, relWf, arbWf, proofWf, pageWf, Bool.and_eq_true] at hw ⊢; simp [hw]; done)
      | (intro _ _ _) | (simp only [storesWf_same])

theorem wf_gDataAt (t : TwinId) (k : Nat) (g : GInfo) (s : Block) (h : storesWf s = true) :
    storesWf (gDataAt t k g s) = true := by
  unfold gDataAt
  (try simp only [])
  repeat' first
      | with_reducible assumption | with_reducible apply wf_decideOffer | split | (intro _ _ _)
      | (simp only [storesWf_same])

theorem wf_releaseAt (t : TwinId) (g : Nat) (k : Nat) (stash : Nat) (spilled : Bool) (cls : Nat) (s : Block)
    (h : storesWf s = true) :
    storesWf (releaseAt t g k stash spilled cls s) = true := by
  unfold releaseAt
  (try simp only [])
  repeat' first
      | with_reducible assumption | with_reducible apply wf_bump | with_reducible apply wf_sendMark
      | with_reducible apply wf_upCtx | split
      | (intro w hw; simp only [twinWf, catWf, accWf, rackWf, deskWf, shelfWf, retWf, lardWf, sortWf, bankWf, officeWf, obsWf, bakeWf, thrdWf, relWf, arbWf, proofWf, pageWf, Bool.and_eq_true] at hw ⊢; simp [hw]; done)
      | (intro _ _ _) | (simp only [storesWf_same])

theorem wf_lardClear (t : TwinId) (k : Nat) (s : Block) (h : storesWf s = true) :
    storesWf (lardClear t k s) = true := by
  unfold lardClear
  (try simp only [])
  repeat' first
      | with_reducible assumption | with_reducible apply wf_forEach | with_reducible apply wf_freeNode
      | with_reducible apply wf_upCtx | with_reducible apply wf_upTw | split
      | (intro w hw; simp only [twinWf, catWf, accWf, rackWf, deskWf, shelfWf, retWf, lardWf, sortWf, bankWf, officeWf, obsWf, bakeWf, thrdWf, relWf, arbWf, proofWf, pageWf, Bool.and_eq_true] at hw ⊢; simp [hw]; done)
      | (intro _ _ _) | (simp only [storesWf_same]) | (simp only [id_eq])

theorem wf_upRecipe (i : Nat) (f : Recipe → Recipe) (s : Block) (h : storesWf s = true) :
    storesWf (upRecipe i f s) = true := by
  exact storesWf_fmt_set _ _ h (mapWf_mapSet _ _ _ _ (storesWf_fmt h))

theorem wf_expReport (k : Nat) (layer : Nat) (e : Nat) (s : Block) (h : storesWf s = true) :
    storesWf (expReport k layer e s) = true := by
  unfold expReport
  (try simp only [])
  repeat' first
      | with_reducible assumption | with_reducible apply wf_bump | with_reducible apply wf_upRecipe | split
      | (intro w hw; simp only [twinWf, catWf, accWf, rackWf, deskWf, shelfWf, retWf, lardWf, sortWf, bankWf, officeWf, obsWf, bakeWf, thrdWf, relWf, arbWf, proofWf, pageWf, Bool.and_eq_true] at hw ⊢; simp [hw]; done)
      | (intro _ _ _) | (simp only [storesWf_same])

theorem wf_stepMarkReady (id : Nat) (s : Block) (h : storesWf s = true) :
    storesWf (stepMarkReady id s) = true := by
  unfold stepMarkReady
  (try simp only [])
  repeat' first
      | with_reducible assumption | with_reducible apply wf_setSweep | split
      | (intro w hw; simp only [twinWf, catWf, accWf, rackWf, deskWf, shelfWf, retWf, lardWf, sortWf, bankWf, officeWf, obsWf, bakeWf, thrdWf, relWf, arbWf, proofWf, pageWf, Bool.and_eq_true] at hw ⊢; simp [hw]; done)
      | (intro _ _ _) | (simp only [storesWf_same]) | (simp only [id_eq])

theorem wf_recipeSweepEnd (s : Block) (h : storesWf s = true) :
    storesWf (recipeSweepEnd s) = true := by
  unfold recipeSweepEnd
  (try simp only [])
  repeat' first
      | with_reducible assumption | with_reducible apply wf_forEach | with_reducible apply wf_upRecipe
      | with_reducible apply wf_bump | with_reducible apply wf_upCtx | with_reducible apply wf_pushWork
      | with_reducible apply wf_setSweep | split
      | (intro w hw; simp only [twinWf, catWf, accWf, rackWf, deskWf, shelfWf, retWf, lardWf, sortWf, bankWf, officeWf, obsWf, bakeWf, thrdWf, relWf, arbWf, proofWf, pageWf, Bool.and_eq_true] at hw ⊢; simp [hw]; done)
      | (intro _ _ _) | (simp only [storesWf_same]) | (simp only [id_eq])

theorem wf_recipeOpen (k : Nat) (s : Block) (h : storesWf s = true) : storesWf (recipeOpen k s) = true := by
  unfold recipeOpen
  (try simp only [])
  repeat' first
      | with_reducible assumption | with_reducible apply wf_upRecipe | with_reducible apply wf_forEach | split
      | (intro w hw; simp only [twinWf, catWf, accWf, rackWf, deskWf, shelfWf, retWf, lardWf, sortWf, bankWf, officeWf, obsWf, bakeWf, thrdWf, relWf, arbWf, proofWf, pageWf, Bool.and_eq_true] at hw ⊢; simp [hw]; done)
      | (intro _ _ _) | (simp only [storesWf_same])

theorem wf_retFault (t : TwinId) (k : Nat) (code : Nat) (engCode : Nat) (eng : Nat) (node : Nat) (s : Block)
    (h : storesWf s = true) :
    storesWf (retFault t k code engCode eng node s) = true := by
  unfold retFault
  (try simp only [])
  repeat' first
      | with_reducible assumption | with_reducible apply wf_raiseFault | with_reducible apply wf_upTw
      | with_reducible apply wf_setErr | split
      | (intro w hw; simp only [twinWf, catWf, accWf, rackWf, deskWf, shelfWf, retWf, lardWf, sortWf, bankWf, officeWf, obsWf, bakeWf, thrdWf, relWf, arbWf, proofWf, pageWf, Bool.and_eq_true] at hw ⊢; simp [hw]; done)
      | (intro _ _ _) | (simp only [storesWf_same])

theorem wf_narrowAccept (t : TwinId) (target cluster : Nat) (s : Block) (h : storesWf s = true) :
    storesWf (narrowAccept t target cluster s).2 = true := by
  unfold narrowAccept
  (try simp only [])
  repeat' first
      | with_reducible assumption | with_reducible apply wf_upTw | split
      | (intro w hw; simp only [twinWf, catWf, accWf, rackWf, deskWf, shelfWf, retWf, lardWf, sortWf, bankWf, officeWf, obsWf, bakeWf, thrdWf, relWf, arbWf, proofWf, pageWf, Bool.and_eq_true] at hw ⊢; simp [hw]; done)
      | (intro _ _ _) | (simp only [storesWf_same]) | (simp only [id_eq])

theorem wf_creditNeed (t : TwinId) (rel : Rel) (need : Nat) (c : Credit) (s : Block) (h : storesWf s = true) :
    storesWf (creditNeed t rel need c s).2 = true := by
  unfold creditNeed
  (try simp only [])
  repeat' first
      | with_reducible assumption | with_reducible apply wf_narrowAccept | split
      | (intro w hw; simp only [twinWf, catWf, accWf, rackWf, deskWf, shelfWf, retWf, lardWf, sortWf, bankWf, officeWf, obsWf, bakeWf, thrdWf, relWf, arbWf, proofWf, pageWf, Bool.and_eq_true] at hw ⊢; simp [hw]; done)
      | (intro _ _ _) | (simp only [storesWf_same]) | (simp only [id_eq])

theorem wf_sendChunk (t : TwinId) (gen : Nat) (cs : List Credit) (s : Block) (h : storesWf s = true) :
    storesWf (sendChunk t gen cs s) = true := by
  unfold sendChunk
  (try simp only [])
  repeat' first
      | with_reducible assumption | with_reducible apply wf_forEach | with_reducible apply wf_handEdge
      | with_reducible apply wf_pushWork | with_reducible apply wf_sendItem | split
      | (intro w hw; simp only [twinWf, catWf, accWf, rackWf, deskWf, shelfWf, retWf, lardWf, sortWf, bankWf, officeWf, obsWf, bakeWf, thrdWf, relWf, arbWf, proofWf, pageWf, Bool.and_eq_true] at hw ⊢; simp [hw]; done)
      | (intro _ _ _) | (simp only [storesWf_same]) | (simp only [id_eq])

theorem wf_walkCredit (t : TwinId) (full : Nat → Bool) (a : Walk) (c : Credit) (h : storesWf a.st = true) :
    storesWf (walkCredit t full a c).st = true := by
  unfold walkCredit
  simp only []
  (repeat' split) <;> first
    | exact h
    | (with_reducible exact wf_catFault _ _ _ _ _ _ h)
    | (with_reducible exact wf_creditNeed _ _ _ _ _ h)
theorem foldl_st_wf {α : Type} (xs : List α) (f : Walk → α → Walk) (p : Walk) (h : storesWf p.st = true)
    (hf : ∀ p x, storesWf p.st = true → storesWf (f p x).st = true) : storesWf (xs.foldl f p).st = true := by
  induction xs generalizing p with
  | nil => exact h
  | cons x xs ih => exact ih _ (hf p x h)

theorem wf_walkChunk (t : TwinId) (hd : Hand) (cs : List Credit) (s : Block) (h : storesWf s = true) :
    storesWf (walkChunk t hd cs s).st = true := by
  unfold walkChunk
  exact wf_sendChunk _ _ _ _ (foldl_st_wf cs _ _ h (fun a c ha => wf_walkCredit t _ a c ha))

theorem wf_upRet (t : TwinId) (f : Ret → Ret) (s : Block) (h : storesWf s = true)
    (hf : ∀ w, retWf w = true → retWf (f w) = true) : storesWf (upRet t f s) = true := by
  unfold upRet
  refine wf_upTw t _ s h ?_
  intro w hw
  have hr := hf _ (twinWf_ret hw)
  simp only [twinWf, Bool.and_eq_true] at hw ⊢
  simp [hw, hr]

theorem wf_walked (t : TwinId) (id : Nat) (s : Block) (h : storesWf s = true) : storesWf (walked t id s) = true := by
  unfold walked
  (try simp only [])
  repeat' first
      | with_reducible assumption | with_reducible apply wf_optEvent | with_reducible apply wf_bump | split
      | (intro _ _ _) | (simp only [storesWf_same])

theorem wf_reportRelease (t : TwinId) (id : Nat) (s : Block) (h : storesWf s = true) :
    storesWf (reportRelease t id s) = true := by
  unfold reportRelease
  (try simp only [])
  repeat' first
      | with_reducible assumption | with_reducible apply wf_sendItem | split | (intro _ _ _)
      | (simp only [storesWf_same])

theorem wf_raiseNeed (t : TwinId) (d : Deferred) (s : Block) (h : storesWf s = true) :
    storesWf (raiseNeed t d s) = true := by
  unfold raiseNeed
  (try simp only [])
  repeat' first
      | with_reducible assumption | with_reducible apply wf_needFlush | with_reducible apply wf_needDrain | split
      | (intro _ _ _) | (simp only [storesWf_same])

theorem wf_endList (t : TwinId) (node : Nat) (gen : Nat) (s : Block) (h : storesWf s = true) :
    storesWf (endList t node gen s) = true := by
  unfold endList
  (try simp only [])
  repeat' first
      | with_reducible assumption | with_reducible apply wf_listEnd | split | (intro _ _ _)
      | (simp only [storesWf_same])

theorem wf_loseDeferred (t : TwinId) (id : Nat) (s : Block) (h : storesWf s = true) :
    storesWf (loseDeferred t id s) = true := by
  unfold loseDeferred
  (try simp only [])
  repeat' first
      | with_reducible assumption | with_reducible apply wf_upTw | with_reducible apply wf_retFault
      | with_reducible apply wf_recheckSlot | with_reducible apply wf_closeRec | split
      | (intro w hw; simp only [twinWf, catWf, accWf, rackWf, deskWf, shelfWf, retWf, lardWf, sortWf, bankWf, officeWf, obsWf, bakeWf, thrdWf, relWf, arbWf, proofWf, pageWf, Bool.and_eq_true] at hw ⊢; simp [hw]; done)
      | (intro _ _ _) | (simp only [storesWf_same]) | (simp only [id_eq])

theorem wf_completeTrace (t : TwinId) (k : Option Nat) (outcome : Nat) (c : Completion) (ns : Nat) (s : Block) (h : storesWf s = true) :
    storesWf (completeTrace t k outcome c ns s) = true := by
  unfold completeTrace
  (try simp only [])
  repeat' first
      | with_reducible assumption | with_reducible apply wf_traceAt | split
      | (intro w hw; simp only [twinWf, catWf, accWf, rackWf, deskWf, shelfWf, retWf, lardWf, sortWf, bankWf, officeWf, obsWf, bakeWf, thrdWf, relWf, arbWf, proofWf, pageWf, Bool.and_eq_true] at hw ⊢; simp [hw]; done)
      | (intro _ _ _) | (simp only [storesWf_same]) | (simp only [id_eq])

theorem wf_plainTrace (t : TwinId) (k node outcome gen : Nat) (s : Block) (h : storesWf s = true) :
    storesWf (plainTrace t k node outcome gen s) = true := by
  unfold plainTrace
  (try simp only [])
  repeat' first
      | with_reducible assumption | with_reducible apply wf_trace | split
      | (intro w hw; simp only [twinWf, catWf, accWf, rackWf, deskWf, shelfWf, retWf, lardWf, sortWf, bankWf, officeWf, obsWf, bakeWf, thrdWf, relWf, arbWf, proofWf, pageWf, Bool.and_eq_true] at hw ⊢; simp [hw]; done)
      | (intro _ _ _) | (simp only [storesWf_same]) | (simp only [id_eq])

theorem wf_staleReport (t : TwinId) (c : Completion) (s : Block) (h : storesWf s = true) :
    storesWf (staleReport t c s) = true := by
  unfold staleReport
  (try simp only [])
  repeat' first
      | with_reducible assumption | with_reducible apply wf_completeTrace | with_reducible apply wf_optEvent
      | with_reducible apply wf_bump | split
      | (intro w hw; simp only [twinWf, catWf, accWf, rackWf, deskWf, shelfWf, retWf, lardWf, sortWf, bankWf, officeWf, obsWf, bakeWf, thrdWf, relWf, arbWf, proofWf, pageWf, Bool.and_eq_true] at hw ⊢; simp [hw]; done)
      | (intro _ _ _) | (simp only [storesWf_same]) | (simp only [id_eq])

theorem wf_account (t : TwinId) (k : Nat) (r : CircRec) (c : Completion) (s : Block) (h : storesWf s = true) :
    storesWf (account t k r c s) = true := by
  unfold account
  (try simp only [])
  repeat' first
      | with_reducible assumption | with_reducible apply wf_completeTrace | with_reducible apply wf_optEvent
      | with_reducible apply wf_bumpCtx | with_reducible apply wf_bump | split
      | (intro w hw; simp only [twinWf, catWf, accWf, rackWf, deskWf, shelfWf, retWf, lardWf, sortWf, bankWf, officeWf, obsWf, bakeWf, thrdWf, relWf, arbWf, proofWf, pageWf, Bool.and_eq_true] at hw ⊢; simp [hw]; done)
      | (intro _ _ _) | (simp only [storesWf_same]) | (simp only [id_eq])

theorem wf_keepDeferred (t : TwinId) (i : Nat) (r : CircRec) (d : Deferred) (share : Option Nat) (s : Block) (h : storesWf s = true) :
    storesWf (keepDeferred t i r d share s) = true := by
  unfold keepDeferred
  (try simp only [])
  repeat' first
      | with_reducible assumption | with_reducible apply wf_setRec | with_reducible apply wf_closeRec
      | with_reducible apply wf_upTw | with_reducible apply wf_raiseNeed | split
      | (intro w hw; simp only [twinWf, catWf, accWf, rackWf, deskWf, shelfWf, retWf, lardWf, sortWf, bankWf, officeWf, obsWf, bakeWf, thrdWf, relWf, arbWf, proofWf, pageWf, Bool.and_eq_true] at hw ⊢; simp [hw]; done)
      | (intro _ _ _) | (simp only [storesWf_same]) | (simp only [id_eq])

theorem wf_offerStash (t : TwinId) (id cluster : Nat) (s : Block) (h : storesWf s = true) :
    storesWf (offerStash t id cluster s) = true := by
  unfold offerStash
  (try simp only [])
  repeat' first
      | with_reducible assumption | with_reducible apply wf_sendItem | split
      | (intro w hw; simp only [twinWf, catWf, accWf, rackWf, deskWf, shelfWf, retWf, lardWf, sortWf, bankWf, officeWf, obsWf, bakeWf, thrdWf, relWf, arbWf, proofWf, pageWf, Bool.and_eq_true] at hw ⊢; simp [hw]; done)
      | (intro _ _ _) | (simp only [storesWf_same]) | (simp only [id_eq])

theorem wf_grantedDone (id : Nat) (s : Block) (h : storesWf s = true) :
    storesWf (grantedDone id s) = true := by
  unfold grantedDone
  (try simp only [])
  repeat' first
      | with_reducible assumption | with_reducible apply wf_upNode | split
      | (intro w hw; simp only [twinWf, catWf, accWf, rackWf, deskWf, shelfWf, retWf, lardWf, sortWf, bankWf, officeWf, obsWf, bakeWf, thrdWf, relWf, arbWf, proofWf, pageWf, Bool.and_eq_true] at hw ⊢; simp [hw]; done)
      | (intro _ _ _) | (simp only [storesWf_same]) | (simp only [id_eq])

theorem wf_taskEnds (t : TwinId) (i : Nat) (r : CircRec) (c : Completion) (share : Option Nat) (h : Hand) (s : Block) (hs : storesWf s = true) :
    storesWf (taskEnds t i r c share h s) = true := by
  unfold taskEnds
  (try simp only [])
  repeat' first
      | with_reducible assumption | with_reducible apply wf_keepDeferred | with_reducible apply wf_closeRec
      | with_reducible apply wf_endList | split
      | (intro w hw; simp only [twinWf, catWf, accWf, rackWf, deskWf, shelfWf, retWf, lardWf, sortWf, bankWf, officeWf, obsWf, bakeWf, thrdWf, relWf, arbWf, proofWf, pageWf, Bool.and_eq_true] at hw ⊢; simp [hw]; done)
      | (intro _ _ _) | (simp only [storesWf_same]) | (simp only [id_eq])

theorem wf_answerEnds (t : TwinId) (d : Deferred) (h : Hand) (s : Block) (hs : storesWf s = true) :
    storesWf (answerEnds t d h s) = true := by
  unfold answerEnds
  (try simp only [])
  repeat' first
      | with_reducible assumption | with_reducible apply wf_upDeferred | with_reducible apply wf_finishDeferred
      | with_reducible apply wf_raiseNeed | split
      | (intro w hw; simp only [twinWf, catWf, accWf, rackWf, deskWf, shelfWf, retWf, lardWf, sortWf, bankWf, officeWf, obsWf, bakeWf, thrdWf, relWf, arbWf, proofWf, pageWf, Bool.and_eq_true] at hw ⊢; simp [hw]; done)
      | (intro _ _ _) | (simp only [storesWf_same]) | (simp only [id_eq])

theorem wf_handEnds (t : TwinId) (h : Hand) (s : Block) (hs : storesWf s = true) :
    storesWf (handEnds t h s) = true := by
  unfold handEnds
  (try simp only [])
  repeat' first
      | with_reducible assumption | with_reducible apply wf_taskEnds | with_reducible apply wf_answerEnds
      | with_reducible apply wf_upDeferred | with_reducible apply wf_finishDeferred | with_reducible apply wf_endList
      | split
      | (intro w hw; simp only [twinWf, catWf, accWf, rackWf, deskWf, shelfWf, retWf, lardWf, sortWf, bankWf, officeWf, obsWf, bakeWf, thrdWf, relWf, arbWf, proofWf, pageWf, Bool.and_eq_true] at hw ⊢; simp [hw]; done)
      | (intro _ _ _) | (simp only [storesWf_same]) | (simp only [id_eq])

theorem wf_walkList (t : TwinId) (css : List (List Credit)) (hd : Hand) (s : Block) (h : storesWf s = true) :
    storesWf (walkList t css hd s) = true := by
  induction css generalizing hd s with
  | nil => exact wf_handEnds _ _ _ h
  | cons cs css ih =>
    unfold walkList
    simp only []
    have hc := wf_walkChunk t hd cs s h
    split
    · exact ih _ _ hc
    · exact wf_upRet _ _ _ hc (fun w hw => by simpa [retWf] using hw)

theorem wf_startHand (t : TwinId) (h : Hand) (s : Block) (hs : storesWf s = true) :
    storesWf (startHand t h s) = true := by
  unfold startHand
  (try simp only [])
  repeat' first
      | with_reducible assumption | with_reducible apply wf_walkList | split
      | (intro w hw; simp only [twinWf, catWf, accWf, rackWf, deskWf, shelfWf, retWf, lardWf, sortWf, bankWf, officeWf, obsWf, bakeWf, thrdWf, relWf, arbWf, proofWf, pageWf, Bool.and_eq_true] at hw ⊢; simp [hw]; done)
      | (intro _ _ _) | (simp only [storesWf_same]) | (simp only [id_eq])

theorem wf_sendOn (t : TwinId) (s : Block) (h : storesWf s = true) :
    storesWf (sendOn t s) = true := by
  unfold sendOn
  (try simp only [])
  repeat' first
      | with_reducible assumption | with_reducible apply wf_startHand | with_reducible apply wf_upRet | split
      | (intro w hw; simp only [twinWf, catWf, accWf, rackWf, deskWf, shelfWf, retWf, lardWf, sortWf, bankWf, officeWf, obsWf, bakeWf, thrdWf, relWf, arbWf, proofWf, pageWf, Bool.and_eq_true] at hw ⊢; simp [hw]; done)
      | (intro _ _ _) | (simp only [storesWf_same]) | (simp only [id_eq])

theorem wf_widenedNow (t : TwinId) (id : Nat) (s : Block) (h : storesWf s = true) :
    storesWf (widenedNow t id s) = true := by
  unfold widenedNow
  (try simp only [])
  repeat' first
      | with_reducible assumption | with_reducible apply wf_startHand | with_reducible apply wf_upDeferred | split
      | (intro w hw; simp only [twinWf, catWf, accWf, rackWf, deskWf, shelfWf, retWf, lardWf, sortWf, bankWf, officeWf, obsWf, bakeWf, thrdWf, relWf, arbWf, proofWf, pageWf, Bool.and_eq_true] at hw ⊢; simp [hw]; done)
      | (intro _ _ _) | (simp only [storesWf_same]) | (simp only [id_eq])

theorem wf_answerNow (t : TwinId) (node : Nat) (send : Bool) (consumers : List Nat) (s : Block) (h : storesWf s = true) :
    storesWf (answerNow t node send consumers s) = true := by
  unfold answerNow
  (try simp only [])
  repeat' first
      | with_reducible assumption | with_reducible apply wf_finishDeferred | with_reducible apply wf_upDeferred
      | with_reducible apply wf_upTw | with_reducible apply wf_startHand | split
      | (intro w hw; simp only [twinWf, catWf, accWf, rackWf, deskWf, shelfWf, retWf, lardWf, sortWf, bankWf, officeWf, obsWf, bakeWf, thrdWf, relWf, arbWf, proofWf, pageWf, Bool.and_eq_true] at hw ⊢; simp [hw]; done)
      | (intro _ _ _) | (simp only [storesWf_same]) | (simp only [id_eq])

theorem wf_taskCredits (t : TwinId) (i : Nat) (r : CircRec) (c : Completion) (share : Option Nat) (s : Block) (h : storesWf s = true) :
    storesWf (taskCredits t i r c share s) = true := by
  unfold taskCredits
  (try simp only [])
  repeat' first
      | with_reducible assumption | with_reducible apply wf_offerStash | with_reducible apply wf_startHand
      | with_reducible apply wf_walked | split
      | (intro w hw; simp only [twinWf, catWf, accWf, rackWf, deskWf, shelfWf, retWf, lardWf, sortWf, bankWf, officeWf, obsWf, bakeWf, thrdWf, relWf, arbWf, proofWf, pageWf, Bool.and_eq_true] at hw ⊢; simp [hw]; done)
      | (intro _ _ _) | (simp only [storesWf_same]) | (simp only [id_eq])

theorem wf_taskDone (t : TwinId) (i : Nat) (r : CircRec) (c : Completion) (s : Block) (h : storesWf s = true) :
    storesWf (taskDone t i r c s) = true := by
  unfold taskDone
  (try simp only [])
  repeat' first
      | with_reducible assumption | with_reducible apply wf_unbind | with_reducible apply wf_grantedDone
      | with_reducible apply wf_endMove | with_reducible apply wf_closeRec | with_reducible apply wf_expReport
      | with_reducible apply wf_reportRelease | with_reducible apply wf_taskCredits | with_reducible apply wf_openBatch
      | split
      | (intro w hw; simp only [twinWf, catWf, accWf, rackWf, deskWf, shelfWf, retWf, lardWf, sortWf, bankWf, officeWf, obsWf, bakeWf, thrdWf, relWf, arbWf, proofWf, pageWf, Bool.and_eq_true] at hw ⊢; simp [hw]; done)
      | (intro _ _ _) | (simp only [storesWf_same]) | (simp only [id_eq])

theorem wf_completionNow (t : TwinId) (c : Completion) (s : Block) (h : storesWf s = true) :
    storesWf (completionNow t c s) = true := by
  unfold completionNow
  (try simp only [])
  repeat' first
      | with_reducible assumption | with_reducible apply wf_staleReport | with_reducible apply wf_writersDec
      | with_reducible apply wf_completeTrace | with_reducible apply wf_bumpCtx | with_reducible apply wf_bump
      | with_reducible apply wf_closeRec | with_reducible apply wf_unbind | with_reducible apply wf_grantedDone
      | with_reducible apply wf_account | with_reducible apply wf_retFault | with_reducible apply wf_faultNode
      | with_reducible apply wf_failMove | with_reducible apply wf_taskDone | split
      | (intro w hw; simp only [twinWf, catWf, accWf, rackWf, deskWf, shelfWf, retWf, lardWf, sortWf, bankWf, officeWf, obsWf, bakeWf, thrdWf, relWf, arbWf, proofWf, pageWf, Bool.and_eq_true] at hw ⊢; simp [hw]; done)
      | (intro _ _ _) | (simp only [storesWf_same]) | (simp only [id_eq])

theorem wf_skipNow (id : Nat) (s : Block) (h : storesWf s = true) :
    storesWf (skipNow id s) = true := by
  unfold skipNow
  (try simp only [])
  repeat' first
      | with_reducible assumption | with_reducible apply wf_walked | with_reducible apply wf_bumpCtx
      | with_reducible apply wf_bump | with_reducible apply wf_plainTrace | with_reducible apply wf_startHand
      | with_reducible apply wf_reportRelease | split
      | (intro w hw; simp only [twinWf, catWf, accWf, rackWf, deskWf, shelfWf, retWf, lardWf, sortWf, bankWf, officeWf, obsWf, bakeWf, thrdWf, relWf, arbWf, proofWf, pageWf, Bool.and_eq_true] at hw ⊢; simp [hw]; done)
      | (intro _ _ _) | (simp only [storesWf_same]) | (simp only [id_eq])

theorem wf_internalNow (id : Nat) (s : Block) (h : storesWf s = true) :
    storesWf (internalNow id s) = true := by
  unfold internalNow
  (try simp only [])
  repeat' first
      | with_reducible assumption | with_reducible apply wf_plainTrace | with_reducible apply wf_walked
      | with_reducible apply wf_upNode | with_reducible apply wf_startHand | with_reducible apply wf_reportRelease
      | split
      | (intro w hw; simp only [twinWf, catWf, accWf, rackWf, deskWf, shelfWf, retWf, lardWf, sortWf, bankWf, officeWf, obsWf, bakeWf, thrdWf, relWf, arbWf, proofWf, pageWf, Bool.and_eq_true] at hw ⊢; simp [hw]; done)
      | (intro _ _ _) | (simp only [storesWf_same]) | (simp only [id_eq])

theorem wf_laterNow (t : TwinId) (l : RetLater) (s : Block) (h : storesWf s = true) :
    storesWf (laterNow t l s) = true := by
  unfold laterNow
  (try simp only [])
  repeat' first
      | with_reducible assumption | with_reducible apply wf_completionNow | with_reducible apply wf_skipNow
      | with_reducible apply wf_internalNow | with_reducible apply wf_answerNow | with_reducible apply wf_widenedNow
      | split
      | (intro w hw; simp only [twinWf, catWf, accWf, rackWf, deskWf, shelfWf, retWf, lardWf, sortWf, bankWf, officeWf, obsWf, bakeWf, thrdWf, relWf, arbWf, proofWf, pageWf, Bool.and_eq_true] at hw ⊢; simp [hw]; done)
      | (intro _ _ _) | (simp only [storesWf_same]) | (simp only [id_eq])

theorem wf_enter (t : TwinId) (l : RetLater) (s : Block) (h : storesWf s = true) :
    storesWf (enter t l s) = true := by
  unfold enter
  (try simp only [])
  repeat' first
      | with_reducible assumption | with_reducible apply wf_upRet | with_reducible apply wf_laterNow | split
      | (intro w hw; simp only [twinWf, catWf, accWf, rackWf, deskWf, shelfWf, retWf, lardWf, sortWf, bankWf, officeWf, obsWf, bakeWf, thrdWf, relWf, arbWf, proofWf, pageWf, Bool.and_eq_true] at hw ⊢; simp [hw]; done)
      | (intro _ _ _) | (simp only [storesWf_same]) | (simp only [id_eq])

theorem wf_completionAt (t : TwinId) (c : Completion) (s : Block) (h : storesWf s = true) :
    storesWf (completionAt t c s) = true := by
  unfold completionAt
  (try simp only [])
  repeat' first
      | with_reducible assumption | with_reducible apply wf_enter | split
      | (intro w hw; simp only [twinWf, catWf, accWf, rackWf, deskWf, shelfWf, retWf, lardWf, sortWf, bankWf, officeWf, obsWf, bakeWf, thrdWf, relWf, arbWf, proofWf, pageWf, Bool.and_eq_true] at hw ⊢; simp [hw]; done)
      | (intro _ _ _) | (simp only [storesWf_same]) | (simp only [id_eq])

theorem wf_skipDone (id : Nat) (s : Block) (h : storesWf s = true) :
    storesWf (skipDone id s) = true := by
  unfold skipDone
  (try simp only [])
  repeat' first
      | with_reducible assumption | with_reducible apply wf_enter | split
      | (intro w hw; simp only [twinWf, catWf, accWf, rackWf, deskWf, shelfWf, retWf, lardWf, sortWf, bankWf, officeWf, obsWf, bakeWf, thrdWf, relWf, arbWf, proofWf, pageWf, Bool.and_eq_true] at hw ⊢; simp [hw]; done)
      | (intro _ _ _) | (simp only [storesWf_same]) | (simp only [id_eq])

theorem wf_internalDone (id : Nat) (s : Block) (h : storesWf s = true) :
    storesWf (internalDone id s) = true := by
  unfold internalDone
  (try simp only [])
  repeat' first
      | with_reducible assumption | with_reducible apply wf_enter | split
      | (intro w hw; simp only [twinWf, catWf, accWf, rackWf, deskWf, shelfWf, retWf, lardWf, sortWf, bankWf, officeWf, obsWf, bakeWf, thrdWf, relWf, arbWf, proofWf, pageWf, Bool.and_eq_true] at hw ⊢; simp [hw]; done)
      | (intro _ _ _) | (simp only [storesWf_same]) | (simp only [id_eq])

theorem wf_answerAt (t : TwinId) (node : Nat) (send : Bool) (consumers : List Nat) (s : Block) (h : storesWf s = true) :
    storesWf (answerAt t node send consumers s) = true := by
  unfold answerAt
  (try simp only [])
  repeat' first
      | with_reducible assumption | with_reducible apply wf_enter | split
      | (intro w hw; simp only [twinWf, catWf, accWf, rackWf, deskWf, shelfWf, retWf, lardWf, sortWf, bankWf, officeWf, obsWf, bakeWf, thrdWf, relWf, arbWf, proofWf, pageWf, Bool.and_eq_true] at hw ⊢; simp [hw]; done)
      | (intro _ _ _) | (simp only [storesWf_same]) | (simp only [id_eq])

theorem wf_resumeDeferred (t : TwinId) (id : Nat) (s : Block) (h : storesWf s = true) :
    storesWf (resumeDeferred t id s) = true := by
  unfold resumeDeferred
  (try simp only [])
  repeat' first
      | with_reducible assumption | with_reducible apply wf_enter | split
      | (intro w hw; simp only [twinWf, catWf, accWf, rackWf, deskWf, shelfWf, retWf, lardWf, sortWf, bankWf, officeWf, obsWf, bakeWf, thrdWf, relWf, arbWf, proofWf, pageWf, Bool.and_eq_true] at hw ⊢; simp [hw]; done)
      | (intro _ _ _) | (simp only [storesWf_same]) | (simp only [id_eq])

theorem wf_completeWord (p : Nat) (c : Completion) (s : Block) (h : storesWf s = true) :
    storesWf (completeWord p c s) = true := by
  unfold completeWord
  (try simp only [])
  repeat' first
      | with_reducible assumption | with_reducible apply wf_bump | with_reducible apply wf_deskErr
      | with_reducible apply wf_upEng | with_reducible apply wf_upFlush | with_reducible apply wf_completionAt
      | with_reducible apply wf_sendClaim | with_reducible apply wf_staleReport | split
      | (intro w hw; simp only [twinWf, catWf, accWf, rackWf, deskWf, shelfWf, retWf, lardWf, sortWf, bankWf, officeWf, obsWf, bakeWf, thrdWf, relWf, arbWf, proofWf, pageWf, Bool.and_eq_true] at hw ⊢; simp [hw]; done)
      | (intro _ _ _) | (simp only [storesWf_same]) | (simp only [id_eq])

theorem wf_fenceStep (t : TwinId) (id : Nat) (s : Block) (h : storesWf s = true) :
    storesWf (fenceStep t id s) = true := by
  unfold fenceStep
  (try simp only [])
  repeat' first
      | with_reducible assumption | with_reducible apply wf_upTw | with_reducible apply wf_needDrain
      | with_reducible apply wf_pushWork | split
      | (intro w hw; simp only [twinWf, catWf, accWf, rackWf, deskWf, shelfWf, retWf, lardWf, sortWf, bankWf, officeWf, obsWf, bakeWf, thrdWf, relWf, arbWf, proofWf, pageWf, Bool.and_eq_true] at hw ⊢; simp [hw]; done)
      | (intro _ _ _) | (simp only [storesWf_same])

theorem wf_fenceReady (id : Nat) (s : Block) (h : storesWf s = true) :
    storesWf (fenceReady id s) = true := by
  unfold fenceReady
  (try simp only [])
  repeat' first
      | with_reducible assumption | with_reducible apply wf_pushWork | with_reducible apply wf_internalDone
      | with_reducible apply wf_upTw | with_reducible apply wf_forEach | with_reducible apply wf_localNeed
      | with_reducible apply wf_fenceStep | with_reducible apply wf_askFlush | split
      | (intro w hw; simp only [twinWf, catWf, accWf, rackWf, deskWf, shelfWf, retWf, lardWf, sortWf, bankWf, officeWf, obsWf, bakeWf, thrdWf, relWf, arbWf, proofWf, pageWf, Bool.and_eq_true] at hw ⊢; simp [hw]; done)
      | (intro _ _ _) | (simp only [storesWf_same]) | (simp only [id_eq])

theorem wf_loseFence (t : TwinId) (id : Nat) (s : Block) (h : storesWf s = true) :
    storesWf (loseFence t id s) = true := by
  unfold loseFence
  (try simp only [])
  repeat' first
      | with_reducible assumption | with_reducible apply wf_retFault | with_reducible apply wf_upTw | split
      | (intro w hw; simp only [twinWf, catWf, accWf, rackWf, deskWf, shelfWf, retWf, lardWf, sortWf, bankWf, officeWf, obsWf, bakeWf, thrdWf, relWf, arbWf, proofWf, pageWf, Bool.and_eq_true] at hw ⊢; simp [hw]; done)
      | (intro _ _ _) | (simp only [storesWf_same])

theorem wf_appendFlushed (t : TwinId) (id : Nat) (s : Block) (h : storesWf s = true) :
    storesWf (appendFlushed t id s) = true := by
  unfold appendFlushed
  (try simp only [])
  repeat' first
      | with_reducible assumption | with_reducible apply wf_narrowFree | with_reducible apply wf_waitOn
      | with_reducible apply wf_rackIn | with_reducible apply wf_pushWork | with_reducible apply wf_place | split
      | (intro w hw; simp only [twinWf, catWf, accWf, rackWf, deskWf, shelfWf, retWf, lardWf, sortWf, bankWf, officeWf, obsWf, bakeWf, thrdWf, relWf, arbWf, proofWf, pageWf, Bool.and_eq_true] at hw ⊢; simp [hw]; done)
      | (intro _ _ _) | (simp only [storesWf_same]) | (simp only [id_eq])

theorem wf_loseAppend (t : TwinId) (id : Nat) (s : Block) (h : storesWf s = true) :
    storesWf (loseAppend t id s) = true := by
  unfold loseAppend
  (try simp only [])
  repeat' first
      | with_reducible assumption | with_reducible apply wf_retFault | with_reducible apply wf_narrowFree | split
      | (intro _ _ _) | (simp only [storesWf_same])

theorem wf_deferredFlushed (t : TwinId) (id : Nat) (ok : Bool) (s : Block) (h : storesWf s = true) :
    storesWf (deferredFlushed t id ok s) = true := by
  unfold deferredFlushed
  (try simp only [])
  repeat' first
      | with_reducible assumption | with_reducible apply wf_loseDeferred | with_reducible apply wf_needDrain
      | with_reducible apply wf_upDeferred | with_reducible apply wf_resumeDeferred | split
      | (intro w hw; simp only [twinWf, catWf, accWf, rackWf, deskWf, shelfWf, retWf, lardWf, sortWf, bankWf, officeWf, obsWf, bakeWf, thrdWf, relWf, arbWf, proofWf, pageWf, Bool.and_eq_true] at hw ⊢; simp [hw]; done)
      | (intro _ _ _) | (simp only [storesWf_same]) | (simp only [id_eq])

theorem wf_batchFlushEnded (t : TwinId) (id : Nat) (ok : Bool) (s : Block) (h : storesWf s = true) :
    storesWf (batchFlushEnded t id ok s) = true := by
  unfold batchFlushEnded
  (try simp only [])
  repeat' first
      | with_reducible assumption | with_reducible apply wf_batchFlushed | with_reducible apply wf_retFault | split
      | (intro w hw; simp only [twinWf, catWf, accWf, rackWf, deskWf, shelfWf, retWf, lardWf, sortWf, bankWf, officeWf, obsWf, bakeWf, thrdWf, relWf, arbWf, proofWf, pageWf, Bool.and_eq_true] at hw ⊢; simp [hw]; done)
      | (intro _ _ _) | (simp only [storesWf_same]) | (simp only [id_eq])

theorem wf_flushEnded (w : Waiter) (ok : Bool) (s : Block) (h : storesWf s = true) :
    storesWf (flushEnded w ok s) = true := by
  unfold flushEnded
  (try simp only [])
  repeat' first
      | with_reducible assumption | with_reducible apply wf_deferredFlushed | with_reducible apply wf_fenceStep
      | with_reducible apply wf_loseFence | with_reducible apply wf_appendFlushed | with_reducible apply wf_loseAppend
      | with_reducible apply wf_batchFlushEnded | with_reducible apply wf_sendItem | with_reducible apply wf_remoteAllEnd
      | split
      | (intro w hw; simp only [twinWf, catWf, accWf, rackWf, deskWf, shelfWf, retWf, lardWf, sortWf, bankWf, officeWf, obsWf, bakeWf, thrdWf, relWf, arbWf, proofWf, pageWf, Bool.and_eq_true] at hw ⊢; simp [hw]; done)
      | (intro _ _ _) | (simp only [storesWf_same]) | (simp only [id_eq])

theorem wf_drainEnded (w : Waiter) (ok : Bool) (s : Block) (h : storesWf s = true) :
    storesWf (drainEnded w ok s) = true := by
  unfold drainEnded
  (try simp only [])
  repeat' first
      | with_reducible assumption | with_reducible apply wf_resumeDeferred | with_reducible apply wf_loseDeferred
      | with_reducible apply wf_fenceStep | with_reducible apply wf_loseFence | split | (intro _ _ _)
      | (simp only [storesWf_same])

theorem wf_flushTimeout (c : Nat) (s : Block) (h : storesWf s = true) : storesWf (flushTimeout c s) = true := by
  unfold flushTimeout
  (try simp only [])
  repeat' first
      | with_reducible assumption | with_reducible apply wf_removeEngine | with_reducible apply wf_setErr
      | with_reducible apply wf_endFlush | with_reducible apply wf_forEach | split | (intro _ _ _)
      | (simp only [storesWf_same])

theorem wf_drainTimeout (t : TwinId) (s : Block) (h : storesWf s = true) : storesWf (drainTimeout t s) = true := by
  unfold drainTimeout
  (try simp only [])
  repeat' first
      | with_reducible assumption | with_reducible apply wf_endDrain | with_reducible apply wf_setErr | split
      | (intro _ _ _) | (simp only [storesWf_same])

theorem wf_dropHand (t : TwinId) (k : Nat) (s : Block) (h : storesWf s = true) :
    storesWf (dropHand t k s) = true := by
  unfold dropHand
  (try simp only [])
  repeat' first
      | with_reducible assumption | with_reducible apply wf_upRet | with_reducible apply wf_closeRec | split
      | (intro w hw; simp only [twinWf, catWf, accWf, rackWf, deskWf, shelfWf, retWf, lardWf, sortWf, bankWf, officeWf, obsWf, bakeWf, thrdWf, relWf, arbWf, proofWf, pageWf, Bool.and_eq_true] at hw ⊢; simp [hw]; done)
      | (intro _ _ _) | (simp only [storesWf_same]) | (simp only [id_eq])

theorem wf_retFence (t : TwinId) (k : Nat) (s : Block) (h : storesWf s = true) :
    storesWf (retFence t k s) = true := by
  unfold retFence
  (try simp only [])
  repeat' first
      | with_reducible assumption | with_reducible apply wf_upRet | with_reducible apply wf_dropHand
      | with_reducible apply wf_forEach | with_reducible apply wf_closeRec | split
      | (intro w hw; simp only [twinWf, catWf, accWf, rackWf, deskWf, shelfWf, retWf, lardWf, sortWf, bankWf, officeWf, obsWf, bakeWf, thrdWf, relWf, arbWf, proofWf, pageWf, Bool.and_eq_true] at hw ⊢; simp [hw]; done)
      | (intro _ _ _) | (simp only [storesWf_same]) | (simp only [id_eq])

theorem wf_upBank (t : TwinId) (f : Bank → Bank) (s : Block) (h : storesWf s = true)
    (hf : ∀ w, bankWf w = true → bankWf (f w) = true) : storesWf (upBank t f s) = true := by
  unfold upBank
  refine wf_upTw t _ s h ?_
  intro w hw
  simp only [twinWf, Bool.and_eq_true] at hw ⊢
  simp [hw, hf]

theorem wf_setTally (t : TwinId) (i : Nat) (e : Tally) (s : Block) (h : storesWf s = true) :
    storesWf (setTally t i e s) = true := by
  unfold setTally
  (try simp only [])
  repeat' first
      | with_reducible assumption | with_reducible apply wf_upBank | split
      | (intro w hw; simp only [twinWf, catWf, accWf, rackWf, deskWf, shelfWf, retWf, lardWf, sortWf, bankWf, officeWf, obsWf, bakeWf, thrdWf, relWf, arbWf, proofWf, pageWf, Bool.and_eq_true] at hw ⊢; simp [hw]; done)
      | (intro _ _ _) | (simp only [storesWf_same])

theorem wf_countTaly (t : TwinId) (off n : Nat) (s : Block) (h : storesWf s = true) :
    storesWf (countTaly t off n s) = true := by
  unfold countTaly
  (try simp only [])
  repeat' first
      | with_reducible assumption | with_reducible apply wf_upBank | split
      | (intro w hw; simp only [twinWf, catWf, accWf, rackWf, deskWf, shelfWf, retWf, lardWf, sortWf, bankWf, officeWf, obsWf, bakeWf, thrdWf, relWf, arbWf, proofWf, pageWf, Bool.and_eq_true] at hw ⊢; simp [hw]; done)
      | (intro _ _ _) | (simp only [storesWf_same]) | (simp only [id_eq])

theorem wf_talyTick (t : TwinId) (s : Block) (h : storesWf s = true) :
    storesWf (talyTick t s) = true := by
  unfold talyTick
  (try simp only [])
  repeat' first
      | with_reducible assumption | with_reducible apply wf_forEach | with_reducible apply wf_bump
      | with_reducible apply wf_upBank | split
      | (intro w hw; simp only [twinWf, catWf, accWf, rackWf, deskWf, shelfWf, retWf, lardWf, sortWf, bankWf, officeWf, obsWf, bakeWf, thrdWf, relWf, arbWf, proofWf, pageWf, Bool.and_eq_true] at hw ⊢; simp [hw]; done)
      | (intro _ _ _) | (simp only [storesWf_same]) | (simp only [id_eq])

theorem wf_dropPacket (t : TwinId) (p reason off : Nat) (s : Block) (h : storesWf s = true) :
    storesWf (dropPacket t p reason off s) = true := by
  unfold dropPacket
  (try simp only [])
  repeat' first
      | with_reducible assumption | with_reducible apply wf_upBank | with_reducible apply wf_setErr
      | with_reducible apply wf_countTaly | split
      | (intro w hw; simp only [twinWf, catWf, accWf, rackWf, deskWf, shelfWf, retWf, lardWf, sortWf, bankWf, officeWf, obsWf, bakeWf, thrdWf, relWf, arbWf, proofWf, pageWf, Bool.and_eq_true] at hw ⊢; simp [hw]; done)
      | (intro _ _ _) | (simp only [storesWf_same]) | (simp only [id_eq])

theorem wf_returnLink (t : TwinId) (n : Nat) (s : Block) (h : storesWf s = true) :
    storesWf (returnLink t n s) = true := by
  unfold returnLink
  (try simp only [])
  repeat' first
      | with_reducible assumption | with_reducible apply wf_upBank | with_reducible apply wf_emit | split
      | (intro w hw; simp only [twinWf, catWf, accWf, rackWf, deskWf, shelfWf, retWf, lardWf, sortWf, bankWf, officeWf, obsWf, bakeWf, thrdWf, relWf, arbWf, proofWf, pageWf, Bool.and_eq_true] at hw ⊢; simp [hw]; done)
      | (intro _ _ _) | (simp only [storesWf_same]) | (simp only [id_eq])

theorem wf_tallyPacket (p : Nat) (s : Block) (h : storesWf s = true) :
    storesWf (tallyPacket p s) = true := by
  unfold tallyPacket
  (try simp only [])
  repeat' first
      | with_reducible assumption | with_reducible apply wf_returnLink | with_reducible apply wf_dropPacket
      | with_reducible apply wf_upBank | split
      | (intro w hw; simp only [twinWf, catWf, accWf, rackWf, deskWf, shelfWf, retWf, lardWf, sortWf, bankWf, officeWf, obsWf, bakeWf, thrdWf, relWf, arbWf, proofWf, pageWf, Bool.and_eq_true] at hw ⊢; simp [hw]; done)
      | (intro _ _ _) | (simp only [storesWf_same]) | (simp only [id_eq])

theorem wf_dropBuffered (sv : TwinId) (s : Block) (h : storesWf s = true) :
    storesWf (dropBuffered sv s) = true := by
  unfold dropBuffered
  (try simp only [])
  repeat' first
      | with_reducible assumption | with_reducible apply wf_returnLink | with_reducible apply wf_forEach
      | with_reducible apply wf_dropPacket | with_reducible apply wf_upBank | split
      | (intro w hw; simp only [twinWf, catWf, accWf, rackWf, deskWf, shelfWf, retWf, lardWf, sortWf, bankWf, officeWf, obsWf, bakeWf, thrdWf, relWf, arbWf, proofWf, pageWf, Bool.and_eq_true] at hw ⊢; simp [hw]; done)
      | (intro _ _ _) | (simp only [storesWf_same]) | (simp only [id_eq])

theorem wf_setLocks (t : TwinId) (base : Nat) (len : Nat) (v : Bool) (s : Block) (h : storesWf s = true) :
    storesWf (setLocks t base len v s) = true := by
  unfold setLocks
  refine wf_upTw _ _ s h ?_
  intro w hw; simp only [twinWf, catWf, accWf, rackWf, deskWf, shelfWf, retWf, lardWf, sortWf, bankWf, officeWf, obsWf, bakeWf, thrdWf, relWf, arbWf, proofWf, pageWf, Bool.and_eq_true] at hw ⊢; simp [hw, wf_locksFold]

theorem wf_dropLate (t : TwinId) (i : Nat) (s : Block) (h : storesWf s = true) :
    storesWf (dropLate t i s) = true := by
  unfold dropLate
  (try simp only [])
  repeat' first
      | with_reducible assumption | with_reducible apply wf_upBank | split
      | (intro w hw; simp only [twinWf, catWf, accWf, rackWf, deskWf, shelfWf, retWf, lardWf, sortWf, bankWf, officeWf, obsWf, bakeWf, thrdWf, relWf, arbWf, proofWf, pageWf, Bool.and_eq_true] at hw ⊢; simp [hw]; done)
      | (intro _ _ _) | (simp only [storesWf_same]) | (simp only [id_eq])

theorem wf_disarm (t : TwinId) (i : Nat) (s : Block) (h : storesWf s = true) :
    storesWf (disarm t i s) = true := by
  unfold disarm
  (try simp only [])
  repeat' first
      | with_reducible assumption | with_reducible apply wf_setTally | with_reducible apply wf_dropLate
      | with_reducible apply wf_setLocks | split
      | (intro w hw; simp only [twinWf, catWf, accWf, rackWf, deskWf, shelfWf, retWf, lardWf, sortWf, bankWf, officeWf, obsWf, bakeWf, thrdWf, relWf, arbWf, proofWf, pageWf, Bool.and_eq_true] at hw ⊢; simp [hw]; done)
      | (intro _ _ _) | (simp only [storesWf_same]) | (simp only [id_eq])

theorem wf_freeTally (t : TwinId) (i : Nat) (s : Block) (h : storesWf s = true) :
    storesWf (freeTally t i s) = true := by
  unfold freeTally
  (try simp only [])
  repeat' first
      | with_reducible assumption | with_reducible apply wf_setTally | with_reducible apply wf_dropLate
      | with_reducible apply wf_setLocks | split
      | (intro w hw; simp only [twinWf, catWf, accWf, rackWf, deskWf, shelfWf, retWf, lardWf, sortWf, bankWf, officeWf, obsWf, bakeWf, thrdWf, relWf, arbWf, proofWf, pageWf, Bool.and_eq_true] at hw ⊢; simp [hw]; done)
      | (intro _ _ _) | (simp only [storesWf_same]) | (simp only [id_eq])

theorem wf_tallyEffect (c : TallyCmd) (t : TwinId) (i : Nat) (e : Tally) (s : Block) (h : storesWf s = true) :
    storesWf (tallyEffect c t i e s) = true := by
  unfold tallyEffect
  (try simp only [])
  repeat' first
      | with_reducible assumption | with_reducible apply wf_setTally | with_reducible apply wf_freeTally
      | with_reducible apply wf_setLocks | with_reducible apply wf_disarm | with_reducible apply wf_dropLate | split
      | (intro w hw; simp only [twinWf, catWf, accWf, rackWf, deskWf, shelfWf, retWf, lardWf, sortWf, bankWf, officeWf, obsWf, bakeWf, thrdWf, relWf, arbWf, proofWf, pageWf, Bool.and_eq_true] at hw ⊢; simp [hw]; done)
      | (intro _ _ _) | (simp only [storesWf_same]) | (simp only [id_eq])

theorem wf_tallyCommand (k op : Nat) (s : Block) (h : storesWf s = true) :
    storesWf (tallyCommand k op s) = true := by
  unfold tallyCommand
  (try simp only [])
  repeat' first
      | with_reducible assumption | with_reducible apply wf_upCtx | with_reducible apply wf_upBank | split
      | (intro w hw; simp only [twinWf, catWf, accWf, rackWf, deskWf, shelfWf, retWf, lardWf, sortWf, bankWf, officeWf, obsWf, bakeWf, thrdWf, relWf, arbWf, proofWf, pageWf, Bool.and_eq_true] at hw ⊢; simp [hw]; done)
      | (intro _ _ _) | (simp only [storesWf_same]) | (simp only [id_eq])

theorem wf_dropCmds (t : TwinId) (p : TallyCmd → Bool) (s : Block) (h : storesWf s = true) :
    storesWf (dropCmds t p s) = true := by
  unfold dropCmds
  (try simp only [])
  repeat' first
      | with_reducible assumption | with_reducible apply wf_forEach | with_reducible apply wf_upCtx
      | with_reducible apply wf_upBank | split
      | (intro w hw; simp only [twinWf, catWf, accWf, rackWf, deskWf, shelfWf, retWf, lardWf, sortWf, bankWf, officeWf, obsWf, bakeWf, thrdWf, relWf, arbWf, proofWf, pageWf, Bool.and_eq_true] at hw ⊢; simp [hw]; done)
      | (intro _ _ _) | (simp only [storesWf_same]) | (simp only [id_eq])

theorem wf_applyTallyCmd (t : TwinId) (c : TallyCmd) (s : Block) (h : storesWf s = true) :
    storesWf (applyTallyCmd t c s) = true := by
  unfold applyTallyCmd
  (try simp only [])
  repeat' first
      | with_reducible assumption | with_reducible apply wf_upCtx | with_reducible apply wf_bump
      | with_reducible apply wf_tallyEffect | split
      | (intro w hw; simp only [twinWf, catWf, accWf, rackWf, deskWf, shelfWf, retWf, lardWf, sortWf, bankWf, officeWf, obsWf, bakeWf, thrdWf, relWf, arbWf, proofWf, pageWf, Bool.and_eq_true] at hw ⊢; simp [hw]; done)
      | (intro _ _ _) | (simp only [storesWf_same])

theorem wf_saturate (t : TwinId) (i : Nat) (k : Nat) (s : Block) (h : storesWf s = true) :
    storesWf (saturate t i k s) = true := by
  unfold saturate
  (try simp only [])
  repeat' first
      | with_reducible assumption | with_reducible apply wf_raiseFault | with_reducible apply wf_upBank
      | with_reducible apply wf_setErr | split
      | (intro w hw; simp only [twinWf, catWf, accWf, rackWf, deskWf, shelfWf, retWf, lardWf, sortWf, bankWf, officeWf, obsWf, bakeWf, thrdWf, relWf, arbWf, proofWf, pageWf, Bool.and_eq_true] at hw ⊢; simp [hw]; done)
      | (intro _ _ _) | (simp only [storesWf_same])

theorem wf_addCount (t : TwinId) (i : Nat) (n : Nat) (s : Block) (h : storesWf s = true) :
    storesWf (addCount t i n s) = true := by
  unfold addCount
  (try simp only [])
  repeat' first
      | with_reducible assumption | with_reducible apply wf_saturate | with_reducible apply wf_setTally | split
      | (intro _ _ _) | (simp only [storesWf_same])

theorem wf_takePacket (t : TwinId) (p : Nat) (r : SMap Nat × Block) (h : storesWf r.2 = true) :
    storesWf (takePacket t p r).2 = true := by
  unfold takePacket
  (try simp only [])
  repeat' first
      | with_reducible assumption | with_reducible apply wf_dropPacket | with_reducible apply wf_bump | split
      | (intro w hw; simp only [twinWf, catWf, accWf, rackWf, deskWf, shelfWf, retWf, lardWf, sortWf, bankWf, officeWf, obsWf, bakeWf, thrdWf, relWf, arbWf, proofWf, pageWf, Bool.and_eq_true] at hw ⊢; simp [hw]; done)
      | (intro _ _ _) | (simp only [storesWf_same]) | (simp only [id_eq])

theorem wf_fireEdge (t : TwinId) (i : Nat) (w : Nat) (s : Block) (h : storesWf s = true) :
    storesWf (fireEdge t i w s) = true := by
  unfold fireEdge
  (try simp only [])
  repeat' first
      | with_reducible assumption | with_reducible apply wf_bump | with_reducible apply wf_setTally
      | with_reducible apply wf_trace | with_reducible apply wf_optEvent | with_reducible apply wf_sendItem | split
      | (intro _ _ _) | (simp only [storesWf_same])

theorem wf_fireEntry (t : TwinId) (i n : Nat) (s : Block) (h : storesWf s = true) :
    storesWf (fireEntry t i n s).2 = true := by
  induction n generalizing s with
  | zero => exact h
  | succ n ih =>
    unfold fireEntry
    repeat' first
        | with_reducible assumption | with_reducible apply ih | with_reducible apply wf_fireEdge | split
        | (intro _ _ _) | (simp only [storesWf_same])

theorem wf_fireAll (t : TwinId) (l : List (Nat × Nat)) (b : Nat) (s : Block) (h : storesWf s = true) :
    storesWf (fireAll t l b s).2.2 = true := by
  induction l generalizing b s with
  | nil => exact h
  | cons p l ih =>
    unfold fireAll
    simp only []
    repeat' first
        | with_reducible assumption | with_reducible apply ih | with_reducible apply wf_fireEntry
        | with_reducible apply wf_fireEntry | split | (intro _ _ _) | (simp only [storesWf_same])

theorem wf_fireTick (t : TwinId) (s : Block) (h : storesWf s = true) :
    storesWf (fireTick t s) = true := by
  unfold fireTick
  (try simp only [])
  repeat' first
      | with_reducible assumption | with_reducible apply wf_fireAll | with_reducible apply wf_bump
      | with_reducible apply wf_upBank | split
      | (intro w hw; simp only [twinWf, catWf, accWf, rackWf, deskWf, shelfWf, retWf, lardWf, sortWf, bankWf, officeWf, obsWf, bakeWf, thrdWf, relWf, arbWf, proofWf, pageWf, Bool.and_eq_true] at hw ⊢; simp [hw]; done)
      | (intro _ _ _) | (simp only [storesWf_same]) | (simp only [id_eq])

theorem wf_packets (t : TwinId) (l : List Nat) (r : SMap Nat × Block) (h : storesWf r.2 = true) :
    storesWf (List.foldl (fun r p => takePacket t p r) r l).2 = true :=
  foldl_snd_wf l _ r h (fun r c hr => wf_takePacket t c r hr)

theorem wf_bankTick (t : TwinId) (s : Block) (h : storesWf s = true) :
    storesWf (bankTick t s) = true := by
  unfold bankTick
  (try simp only [])
  repeat' first
      | with_reducible assumption | with_reducible apply wf_bump | with_reducible apply wf_upBank
      | with_reducible apply wf_forEach | with_reducible apply wf_applyTallyCmd | with_reducible apply wf_takePacket
      | with_reducible apply wf_addCount | with_reducible apply wf_returnLink | with_reducible apply wf_fireTick
      | with_reducible apply wf_talyTick | with_reducible apply wf_setReg | with_reducible apply foldl_wf
      | with_reducible apply foldl_snd_wf | split
      | (intro w hw; simp only [twinWf, catWf, accWf, rackWf, deskWf, shelfWf, retWf, lardWf, sortWf, bankWf, officeWf, obsWf, bakeWf, thrdWf, relWf, arbWf, proofWf, pageWf, Bool.and_eq_true] at hw ⊢; simp [hw]; done)
      | (intro _ _ _) | (simp only [storesWf_same]) | (simp only [id_eq])

theorem wf_tallyRelease (t : TwinId) (k : Nat) (s : Block) (h : storesWf s = true) :
    storesWf (tallyRelease t k s) = true := by
  unfold tallyRelease
  (try simp only [])
  repeat' first
      | with_reducible assumption | with_reducible apply wf_disarm | with_reducible apply wf_forEach | split
      | (intro _ _ _) | (simp only [storesWf_same])

theorem wf_tallyTear (t : TwinId) (k : Nat) (s : Block) (h : storesWf s = true) :
    storesWf (tallyTear t k s) = true := by
  unfold tallyTear
  (try simp only [])
  repeat' first
      | with_reducible assumption | with_reducible apply wf_forEach | with_reducible apply wf_freeTally
      | with_reducible apply wf_upBank | with_reducible apply wf_dropCmds | split
      | (intro w hw; simp only [twinWf, catWf, accWf, rackWf, deskWf, shelfWf, retWf, lardWf, sortWf, bankWf, officeWf, obsWf, bakeWf, thrdWf, relWf, arbWf, proofWf, pageWf, Bool.and_eq_true] at hw ⊢; simp [hw]; done)
      | (intro _ _ _) | (simp only [storesWf_same]) | (simp only [id_eq])

theorem wf_tallyGate (t : TwinId) (s : Block) (h : storesWf s = true) : storesWf (tallyGate t s) = true := by
  unfold tallyGate
  (try simp only [])
  repeat' first
      | with_reducible assumption | with_reducible apply wf_upBank | split
      | (intro w hw; simp only [twinWf, catWf, accWf, rackWf, deskWf, shelfWf, retWf, lardWf, sortWf, bankWf, officeWf, obsWf, bakeWf, thrdWf, relWf, arbWf, proofWf, pageWf, Bool.and_eq_true] at hw ⊢; simp [hw]; done)
      | (intro _ _ _) | (simp only [storesWf_same])

theorem wf_upOffice (t : TwinId) (f : Office → Office) (s : Block) (h : storesWf s = true)
    (hf : ∀ w, officeWf w = true → officeWf (f w) = true) : storesWf (upOffice t f s) = true := by
  unfold upOffice
  refine wf_upTw t _ s h ?_
  intro w hw
  simp only [twinWf, Bool.and_eq_true] at hw ⊢
  simp [hw, hf]

theorem wf_setTube (x : Nat) (e : Tube) (s : Block) (h : storesWf s = true) : storesWf (setTube x e s) = true := by
  unfold setTube
  (try simp only [])
  repeat' first
      | with_reducible assumption | with_reducible apply wf_upOffice | split
      | (intro w hw; simp only [twinWf, catWf, accWf, rackWf, deskWf, shelfWf, retWf, lardWf, sortWf, bankWf, officeWf, obsWf, bakeWf, thrdWf, relWf, arbWf, proofWf, pageWf, Bool.and_eq_true] at hw ⊢; simp [hw]; done)
      | (intro _ _ _) | (simp only [storesWf_same])

theorem wf_setSend (key : Nat) (e : SendEp) (s : Block) (h : storesWf s = true) :
    storesWf (setSend key e s) = true := by
  exact storesWf_sendEps_set _ _ h (mapWf_mapSet _ _ _ _ (storesWf_sendEps h))

theorem wf_setRecv (key : Nat) (e : RecvEp) (s : Block) (h : storesWf s = true) :
    storesWf (setRecv key e s) = true := by
  exact storesWf_recvEps_set _ _ h (mapWf_mapSet _ _ _ _ (storesWf_recvEps h))

theorem wf_returnCredits (txKey : Nat) (k : Nat) (s : Block) (h : storesWf s = true) :
    storesWf (returnCredits txKey k s) = true := by
  unfold returnCredits
  (try simp only [])
  repeat' first
      | with_reducible assumption | with_reducible apply wf_setSend | split | (intro _ _ _)
      | (simp only [storesWf_same])

theorem wf_freed (key : Nat) (k : Nat) (r : RecvEp) (s : Block) (h : storesWf s = true) :
    storesWf (freed key k r s) = true := by
  unfold freed
  (try simp only [])
  repeat' first
      | with_reducible assumption | with_reducible apply wf_returnCredits | with_reducible apply wf_setRecv | split
      | (intro _ _ _) | (simp only [storesWf_same])

theorem wf_writeEp (x : Nat) (e : Tube) (dir : Nat) (s : Block) (h : storesWf s = true) :
    storesWf (writeEp x e dir s) = true := by
  unfold writeEp
  (try simp only [])
  repeat' first
      | with_reducible assumption | with_reducible apply wf_emit | split | (intro _ _ _)
      | (simp only [storesWf_same])

theorem wf_readEp (x : Nat) (e : Tube) (dir : Nat) (s : Block) (h : storesWf s = true) :
    storesWf (readEp x e dir s) = true := by
  unfold readEp
  (try simp only [])
  repeat' first
      | with_reducible assumption | with_reducible apply wf_emit | split | (intro _ _ _)
      | (simp only [storesWf_same])

theorem wf_tubeDone (k : Nat) (st : Nat) (s : Block) (h : storesWf s = true) : storesWf (tubeDone k st s) = true := by
  unfold tubeDone
  (try simp only [])
  repeat' first
      | with_reducible assumption | with_reducible apply wf_upCtx | split
      | (intro w hw; simp only [twinWf, catWf, accWf, rackWf, deskWf, shelfWf, retWf, lardWf, sortWf, bankWf, officeWf, obsWf, bakeWf, thrdWf, relWf, arbWf, proofWf, pageWf, Bool.and_eq_true] at hw ⊢; simp [hw]; done)
      | (intro _ _ _) | (simp only [storesWf_same])

theorem wf_officeFault (t : TwinId) (k : Nat) (code : Nat) (isBowl : Bool) (x : Nat) (s : Block)
    (h : storesWf s = true) :
    storesWf (officeFault t k code isBowl x s) = true := by
  unfold officeFault
  (try simp only [])
  repeat' first
      | with_reducible assumption | with_reducible apply wf_raiseFault | with_reducible apply wf_upOffice
      | with_reducible apply wf_setErr | split
      | (intro w hw; simp only [twinWf, catWf, accWf, rackWf, deskWf, shelfWf, retWf, lardWf, sortWf, bankWf, officeWf, obsWf, bakeWf, thrdWf, relWf, arbWf, proofWf, pageWf, Bool.and_eq_true] at hw ⊢; simp [hw]; done)
      | (intro _ _ _) | (simp only [storesWf_same])

theorem wf_tubeOpen (k : Nat) (s : Block) (h : storesWf s = true) : storesWf (tubeOpen k s) = true := by
  unfold tubeOpen
  (try simp only [])
  repeat' first
      | with_reducible assumption | with_reducible apply wf_tubeDone | with_reducible apply wf_upCtx
      | with_reducible apply wf_writeEp | with_reducible apply wf_setTube | split
      | (intro w hw; simp only [twinWf, catWf, accWf, rackWf, deskWf, shelfWf, retWf, lardWf, sortWf, bankWf, officeWf, obsWf, bakeWf, thrdWf, relWf, arbWf, proofWf, pageWf, Bool.and_eq_true] at hw ⊢; simp [hw]; done)
      | (intro _ _ _) | (simp only [storesWf_same])

theorem wf_startClose (x : Nat) (busy : Bool) (s : Block) (h : storesWf s = true) :
    storesWf (startClose x busy s) = true := by
  unfold startClose
  (try simp only [])
  repeat' first
      | with_reducible assumption | with_reducible apply wf_writeEp | with_reducible apply wf_setTube | split
      | (intro _ _ _) | (simp only [storesWf_same])

theorem wf_tubeClose (k : Nat) (s : Block) (h : storesWf s = true) : storesWf (tubeClose k s) = true := by
  unfold tubeClose
  (try simp only [])
  repeat' first
      | with_reducible assumption | with_reducible apply wf_tubeDone | with_reducible apply wf_upCtx
      | with_reducible apply wf_startClose | split
      | (intro w hw; simp only [twinWf, catWf, accWf, rackWf, deskWf, shelfWf, retWf, lardWf, sortWf, bankWf, officeWf, obsWf, bakeWf, thrdWf, relWf, arbWf, proofWf, pageWf, Bool.and_eq_true] at hw ⊢; simp [hw]; done)
      | (intro _ _ _) | (simp only [storesWf_same])

theorem wf_setTubeData (k : Nat) (i : Nat) (v : Nat) (s : Block) (h : storesWf s = true) :
    storesWf (setTubeData k i v s) = true := by
  unfold setTubeData
  (try simp only [])
  repeat' first
      | with_reducible assumption | with_reducible apply wf_setReg | split | (intro _ _ _)
      | (simp only [storesWf_same])

theorem wf_tubeQuery (k : Nat) (s : Block) (h : storesWf s = true) : storesWf (tubeQuery k s) = true := by
  unfold tubeQuery
  (try simp only [])
  repeat' first
      | with_reducible assumption | with_reducible apply wf_tubeDone | with_reducible apply wf_setTubeData
      | with_reducible apply wf_readEp | with_reducible apply wf_upCtx | with_reducible apply wf_setTube | split
      | (intro w hw; simp only [twinWf, catWf, accWf, rackWf, deskWf, shelfWf, retWf, lardWf, sortWf, bankWf, officeWf, obsWf, bakeWf, thrdWf, relWf, arbWf, proofWf, pageWf, Bool.and_eq_true] at hw ⊢; simp [hw]; done)
      | (intro _ _ _) | (simp only [storesWf_same])

theorem wf_midRead (x : Nat) (e : Tube) (o : TubeOp) (s : Block) (h : storesWf s = true) :
    storesWf (midRead x e o s) = true := by
  unfold midRead
  (try simp only [])
  repeat' first
      | with_reducible assumption | with_reducible apply wf_setTubeData | with_reducible apply wf_upTw | split
      | (intro w hw; simp only [twinWf, catWf, accWf, rackWf, deskWf, shelfWf, retWf, lardWf, sortWf, bankWf, officeWf, obsWf, bakeWf, thrdWf, relWf, arbWf, proofWf, pageWf, Bool.and_eq_true] at hw ⊢; simp [hw]; done)
      | (intro _ _ _) | (simp only [storesWf_same]) | (simp only [id_eq])

theorem wf_lastRead (x : Nat) (e : Tube) (o : TubeOp) (s : Block) (h : storesWf s = true) :
    storesWf (lastRead x e o s) = true := by
  unfold lastRead
  (try simp only [])
  repeat' first
      | with_reducible assumption | with_reducible apply wf_tubeDone | with_reducible apply wf_setTubeData
      | with_reducible apply wf_upTw | split
      | (intro w hw; simp only [twinWf, catWf, accWf, rackWf, deskWf, shelfWf, retWf, lardWf, sortWf, bankWf, officeWf, obsWf, bakeWf, thrdWf, relWf, arbWf, proofWf, pageWf, Bool.and_eq_true] at hw ⊢; simp [hw]; done)
      | (intro _ _ _) | (simp only [storesWf_same]) | (simp only [id_eq])

theorem wf_invReadTube (x : Nat) (s : Block) (h : storesWf s = true) :
    storesWf (invReadTube x s) = true := by
  unfold invReadTube
  (try simp only [])
  repeat' first
      | with_reducible assumption | with_reducible apply wf_readEp | with_reducible apply wf_setTube | split
      | (intro w hw; simp only [twinWf, catWf, accWf, rackWf, deskWf, shelfWf, retWf, lardWf, sortWf, bankWf, officeWf, obsWf, bakeWf, thrdWf, relWf, arbWf, proofWf, pageWf, Bool.and_eq_true] at hw ⊢; simp [hw]; done)
      | (intro _ _ _) | (simp only [storesWf_same]) | (simp only [id_eq])

theorem wf_answerReads (x : Nat) (e : Tube) (s : Block) (h : storesWf s = true) :
    storesWf (answerReads x e s) = true := by
  unfold answerReads
  (try simp only [])
  repeat' first
      | with_reducible assumption | with_reducible apply wf_forEach | with_reducible apply wf_lastRead
      | with_reducible apply wf_midRead | split
      | (intro w hw; simp only [twinWf, catWf, accWf, rackWf, deskWf, shelfWf, retWf, lardWf, sortWf, bankWf, officeWf, obsWf, bakeWf, thrdWf, relWf, arbWf, proofWf, pageWf, Bool.and_eq_true] at hw ⊢; simp [hw]; done)
      | (intro _ _ _) | (simp only [storesWf_same]) | (simp only [id_eq])

theorem wf_endTube (x st : Nat) (s : Block) (h : storesWf s = true) :
    storesWf (endTube x st s) = true := by
  unfold endTube
  (try simp only [])
  repeat' first
      | with_reducible assumption | with_reducible apply wf_answerReads | with_reducible apply wf_tubeDone
      | with_reducible apply wf_setTube | with_reducible apply wf_setRecv | with_reducible apply wf_setSend | split
      | (intro w hw; simp only [twinWf, catWf, accWf, rackWf, deskWf, shelfWf, retWf, lardWf, sortWf, bankWf, officeWf, obsWf, bakeWf, thrdWf, relWf, arbWf, proofWf, pageWf, Bool.and_eq_true] at hw ⊢; simp [hw]; done)
      | (intro _ _ _) | (simp only [storesWf_same]) | (simp only [id_eq])

theorem wf_epWriteAck (x : Nat) (s : Block) (h : storesWf s = true) : storesWf (epWriteAck x s) = true := by
  unfold epWriteAck
  (try simp only [])
  repeat' first
      | with_reducible assumption | with_reducible apply wf_setTube | with_reducible apply wf_setRecv
      | with_reducible apply wf_writeEp | with_reducible apply wf_setSend | with_reducible apply wf_tubeDone
      | with_reducible apply wf_bump | with_reducible apply wf_readEp | with_reducible apply wf_endTube | split
      | (intro _ _ _) | (simp only [storesWf_same])

theorem wf_epReadAnswer (x : Nat) (s : Block) (h : storesWf s = true) :
    storesWf (epReadAnswer x s) = true := by
  unfold epReadAnswer
  (try simp only [])
  repeat' first
      | with_reducible assumption | with_reducible apply wf_setTube | with_reducible apply wf_readEp
      | with_reducible apply wf_writeEp | with_reducible apply wf_midRead | with_reducible apply wf_lastRead | split
      | (intro w hw; simp only [twinWf, catWf, accWf, rackWf, deskWf, shelfWf, retWf, lardWf, sortWf, bankWf, officeWf, obsWf, bakeWf, thrdWf, relWf, arbWf, proofWf, pageWf, Bool.and_eq_true] at hw ⊢; simp [hw]; done)
      | (intro _ _ _) | (simp only [storesWf_same]) | (simp only [id_eq])

theorem wf_tubeIo (x : Nat) (s : Block) (h : storesWf s = true) :
    storesWf (tubeIo x s) = true := by
  unfold tubeIo
  (try simp only [])
  repeat' first
      | with_reducible assumption | with_reducible apply wf_endTube | with_reducible apply wf_setSend
      | with_reducible apply wf_officeFault | with_reducible apply wf_bump | with_reducible apply wf_forEach
      | with_reducible apply wf_tubeDone | split
      | (intro w hw; simp only [twinWf, catWf, accWf, rackWf, deskWf, shelfWf, retWf, lardWf, sortWf, bankWf, officeWf, obsWf, bakeWf, thrdWf, relWf, arbWf, proofWf, pageWf, Bool.and_eq_true] at hw ⊢; simp [hw]; done)
      | (intro _ _ _) | (simp only [storesWf_same]) | (simp only [id_eq])

theorem wf_tubePartition (t : TwinId) (k : Nat) (s : Block) (h : storesWf s = true) :
    storesWf (tubePartition t k s) = true := by
  unfold tubePartition
  (try simp only [])
  repeat' first
      | with_reducible assumption | with_reducible apply wf_startClose | with_reducible apply wf_bump
      | with_reducible apply wf_forEach | split | (intro _ _ _) | (simp only [storesWf_same])

theorem wf_tubeTear (t : TwinId) (k : Nat) (s : Block) (h : storesWf s = true) :
    storesWf (tubeTear t k s) = true := by
  unfold tubeTear
  (try simp only [])
  repeat' first
      | with_reducible assumption | with_reducible apply wf_startClose | with_reducible apply wf_forEach | split
      | (intro _ _ _) | (simp only [storesWf_same])

theorem wf_txSend (tag : Nat) (eng : Nat) (slot : Nat) (len : Nat) (src : Nat) (words : List Nat)
    (s : Block) (h : storesWf s = true) :
    storesWf (txSend tag eng slot len src words s) = true := by
  unfold txSend
  (try simp only [])
  repeat' first
      | with_reducible assumption | with_reducible apply wf_setSend | with_reducible apply wf_setRecv | split
      | (intro _ _ _) | (simp only [storesWf_same])

theorem wf_sourceCopyEnd (eng : Nat) (slot : Nat) (s : Block) (h : storesWf s = true) :
    storesWf (sourceCopyEnd eng slot s) = true := by
  unfold sourceCopyEnd
  (try simp only [])
  repeat' first
      | with_reducible assumption | with_reducible apply wf_setSend | split | (intro _ _ _)
      | (simp only [storesWf_same])

theorem wf_creditReturn (eng : Nat) (slot : Nat) (s : Block) (h : storesWf s = true) :
    storesWf (creditReturn eng slot s) = true := by
  unfold creditReturn
  (try simp only [])
  repeat' first
      | with_reducible assumption | with_reducible apply wf_setSend | split | (intro _ _ _)
      | (simp only [storesWf_same])

theorem wf_beatArrival (eng : Nat) (slot : Nat) (s : Block) (h : storesWf s = true) :
    storesWf (beatArrival eng slot s) = true := by
  unfold beatArrival
  (try simp only [])
  repeat' first
      | with_reducible assumption | with_reducible apply wf_freed | split | (intro _ _ _)
      | (simp only [storesWf_same])

theorem wf_rxMbox (tag : Nat) (eng : Nat) (slot : Nat) (s : Block) (h : storesWf s = true) :
    storesWf (rxMbox tag eng slot s) = true := by
  unfold rxMbox
  (try simp only [])
  repeat' first
      | with_reducible assumption | with_reducible apply wf_emit | with_reducible apply wf_setRecv
      | with_reducible apply wf_returnCredits | split | (intro _ _ _) | (simp only [storesWf_same])

theorem wf_rxEnd (drop : Bool) (tag : Nat) (eng : Nat) (slot : Nat) (s : Block) (h : storesWf s = true) :
    storesWf (rxEnd drop tag eng slot s) = true := by
  unfold rxEnd
  (try simp only [])
  repeat' first
      | with_reducible assumption | with_reducible apply wf_freed | split | (intro _ _ _)
      | (simp only [storesWf_same])

theorem wf_slotRead (tag eng : Nat) (receive : Bool) (slot off size : Nat) (s : Block) (h : storesWf s = true) :
    storesWf (slotRead tag eng receive slot off size s) = true := by
  unfold slotRead
  (try simp only [])
  repeat' first
      | with_reducible assumption | with_reducible apply wf_emit | with_reducible apply wf_rxMbox | split
      | (intro w hw; simp only [twinWf, catWf, accWf, rackWf, deskWf, shelfWf, retWf, lardWf, sortWf, bankWf, officeWf, obsWf, bakeWf, thrdWf, relWf, arbWf, proofWf, pageWf, Bool.and_eq_true] at hw ⊢; simp [hw]; done)
      | (intro _ _ _) | (simp only [storesWf_same]) | (simp only [id_eq])

theorem wf_slotWriteReg (tag eng : Nat) (receive : Bool) (slot off size v : Nat) (s : Block) (h : storesWf s = true) :
    storesWf (slotWriteReg tag eng receive slot off size v s) = true := by
  unfold slotWriteReg
  (try simp only [])
  repeat' first
      | with_reducible assumption | with_reducible apply wf_setRecv | split
      | (intro w hw; simp only [twinWf, catWf, accWf, rackWf, deskWf, shelfWf, retWf, lardWf, sortWf, bankWf, officeWf, obsWf, bakeWf, thrdWf, relWf, arbWf, proofWf, pageWf, Bool.and_eq_true] at hw ⊢; simp [hw]; done)
      | (intro _ _ _) | (simp only [storesWf_same]) | (simp only [id_eq])

theorem wf_setBowl (x : Nat) (b : Bowl) (s : Block) (h : storesWf s = true) : storesWf (setBowl x b s) = true := by
  unfold setBowl
  (try simp only [])
  repeat' first
      | with_reducible assumption | with_reducible apply wf_upOffice | split
      | (intro w hw; simp only [twinWf, catWf, accWf, rackWf, deskWf, shelfWf, retWf, lardWf, sortWf, bankWf, officeWf, obsWf, bakeWf, thrdWf, relWf, arbWf, proofWf, pageWf, Bool.and_eq_true] at hw ⊢; simp [hw]; done)
      | (intro _ _ _) | (simp only [storesWf_same])

theorem wf_bowlDone (k : Nat) (st : Nat) (s : Block) (h : storesWf s = true) : storesWf (bowlDone k st s) = true := by
  unfold bowlDone
  (try simp only [])
  repeat' first
      | with_reducible assumption | with_reducible apply wf_upCtx | split
      | (intro w hw; simp only [twinWf, catWf, accWf, rackWf, deskWf, shelfWf, retWf, lardWf, sortWf, bankWf, officeWf, obsWf, bakeWf, thrdWf, relWf, arbWf, proofWf, pageWf, Bool.and_eq_true] at hw ⊢; simp [hw]; done)
      | (intro _ _ _) | (simp only [storesWf_same])

theorem wf_bowlOpen (k : Nat) (s : Block) (h : storesWf s = true) : storesWf (bowlOpen k s) = true := by
  unfold bowlOpen
  (try simp only [])
  repeat' first
      | with_reducible assumption | with_reducible apply wf_bowlDone | with_reducible apply wf_bump
      | with_reducible apply wf_setBowl | split | (intro _ _ _) | (simp only [storesWf_same])

theorem wf_bowlQuery (k : Nat) (s : Block) (h : storesWf s = true) : storesWf (bowlQuery k s) = true := by
  unfold bowlQuery
  (try simp only [])
  repeat' first
      | with_reducible assumption | with_reducible apply wf_bowlDone | with_reducible apply wf_setReg | split
      | (intro _ _ _) | (simp only [storesWf_same])

theorem wf_readHeader (x : Nat) (s : Block) (h : storesWf s = true) : storesWf (readHeader x s) = true := by
  unfold readHeader
  (try simp only [])
  repeat' first
      | with_reducible assumption | with_reducible apply wf_emit | with_reducible apply wf_setBowl | split
      | (intro _ _ _) | (simp only [storesWf_same])

theorem wf_takePut (x : Nat) (s : Block) (h : storesWf s = true) : storesWf (takePut x s) = true := by
  unfold takePut
  (try simp only [])
  repeat' first
      | with_reducible assumption | with_reducible apply wf_needFlush | with_reducible apply wf_setBowl
      | with_reducible apply wf_readHeader | split | (intro _ _ _) | (simp only [storesWf_same])

theorem wf_bowlFlushed (x : Nat) (id : Nat) (s : Block) (h : storesWf s = true) :
    storesWf (bowlFlushed x id s) = true := by
  unfold bowlFlushed
  (try simp only [])
  repeat' first
      | with_reducible assumption | with_reducible apply wf_readHeader | split | (intro _ _ _)
      | (simp only [storesWf_same])

theorem wf_dropPut (t : TwinId) (off : Nat) (s : Block) (h : storesWf s = true) :
    storesWf (dropPut t off s) = true := by
  unfold dropPut
  (try simp only [])
  repeat' first
      | with_reducible assumption | with_reducible apply wf_setErr | with_reducible apply wf_bump | split
      | (intro _ _ _) | (simp only [storesWf_same])

theorem wf_bowlPut (t : TwinId) (p : Nat) (s : Block) (h : storesWf s = true) : storesWf (bowlPut t p s) = true := by
  unfold bowlPut
  (try simp only [])
  repeat' first
      | with_reducible assumption | with_reducible apply wf_bump | with_reducible apply wf_dropPut
      | with_reducible apply wf_takePut | with_reducible apply wf_setBowl | split | (intro _ _ _)
      | (simp only [storesWf_same])

theorem wf_dropQueued (x : Nat) (s : Block) (h : storesWf s = true) :
    storesWf (dropQueued x s) = true := by
  unfold dropQueued
  (try simp only [])
  repeat' first
      | with_reducible assumption | with_reducible apply wf_setErr | with_reducible apply wf_bump
      | with_reducible apply wf_setBowl | split
      | (intro w hw; simp only [twinWf, catWf, accWf, rackWf, deskWf, shelfWf, retWf, lardWf, sortWf, bankWf, officeWf, obsWf, bakeWf, thrdWf, relWf, arbWf, proofWf, pageWf, Bool.and_eq_true] at hw ⊢; simp [hw]; done)
      | (intro _ _ _) | (simp only [storesWf_same]) | (simp only [id_eq])

theorem wf_freeBowl (x : Nat) (s : Block) (h : storesWf s = true) :
    storesWf (freeBowl x s) = true := by
  unfold freeBowl
  (try simp only [])
  repeat' first
      | with_reducible assumption | with_reducible apply wf_bump | with_reducible apply wf_setBowl
      | with_reducible apply wf_dropQueued | split
      | (intro w hw; simp only [twinWf, catWf, accWf, rackWf, deskWf, shelfWf, retWf, lardWf, sortWf, bankWf, officeWf, obsWf, bakeWf, thrdWf, relWf, arbWf, proofWf, pageWf, Bool.and_eq_true] at hw ⊢; simp [hw]; done)
      | (intro _ _ _) | (simp only [storesWf_same]) | (simp only [id_eq])

theorem wf_bowlClose (k : Nat) (s : Block) (h : storesWf s = true) :
    storesWf (bowlClose k s) = true := by
  unfold bowlClose
  (try simp only [])
  repeat' first
      | with_reducible assumption | with_reducible apply wf_bowlDone | with_reducible apply wf_freeBowl | split
      | (intro w hw; simp only [twinWf, catWf, accWf, rackWf, deskWf, shelfWf, retWf, lardWf, sortWf, bankWf, officeWf, obsWf, bakeWf, thrdWf, relWf, arbWf, proofWf, pageWf, Bool.and_eq_true] at hw ⊢; simp [hw]; done)
      | (intro _ _ _) | (simp only [storesWf_same]) | (simp only [id_eq])

theorem wf_bowlTear (t : TwinId) (k : Nat) (s : Block) (h : storesWf s = true) :
    storesWf (bowlTear t k s) = true := by
  unfold bowlTear
  (try simp only [])
  repeat' first
      | with_reducible assumption | with_reducible apply wf_forEach | with_reducible apply wf_freeBowl | split
      | (intro w hw; simp only [twinWf, catWf, accWf, rackWf, deskWf, shelfWf, retWf, lardWf, sortWf, bankWf, officeWf, obsWf, bakeWf, thrdWf, relWf, arbWf, proofWf, pageWf, Bool.and_eq_true] at hw ⊢; simp [hw]; done)
      | (intro _ _ _) | (simp only [storesWf_same]) | (simp only [id_eq])

theorem wf_abandon (x : Nat) (s : Block) (h : storesWf s = true) :
    storesWf (abandon x s) = true := by
  unfold abandon
  (try simp only [])
  repeat' first
      | with_reducible assumption | with_reducible apply wf_takePut | with_reducible apply wf_setBowl | split
      | (intro w hw; simp only [twinWf, catWf, accWf, rackWf, deskWf, shelfWf, retWf, lardWf, sortWf, bankWf, officeWf, obsWf, bakeWf, thrdWf, relWf, arbWf, proofWf, pageWf, Bool.and_eq_true] at hw ⊢; simp [hw]; done)
      | (intro _ _ _) | (simp only [storesWf_same]) | (simp only [id_eq])

theorem wf_bowlReset (k : Nat) (s : Block) (h : storesWf s = true) : storesWf (bowlReset k s) = true := by
  unfold bowlReset
  (try simp only [])
  repeat' first
      | with_reducible assumption | with_reducible apply wf_bowlDone | with_reducible apply wf_abandon | split
      | (intro _ _ _) | (simp only [storesWf_same])

theorem wf_bowlCancel (k : Nat) (s : Block) (h : storesWf s = true) : storesWf (bowlCancel k s) = true := by
  unfold bowlCancel
  (try simp only [])
  repeat' first
      | with_reducible assumption | with_reducible apply wf_abandon | with_reducible apply wf_forEach | split
      | (intro _ _ _) | (simp only [storesWf_same])

theorem wf_cancelPoint (k : Nat) (s : Block) (h : storesWf s = true) :
    storesWf (cancelPoint k s) = true := by
  unfold cancelPoint
  (try simp only [])
  repeat' first
      | with_reducible assumption | with_reducible apply wf_bowlCancel | with_reducible apply wf_cancelBatches | split
      | (intro w hw; simp only [twinWf, catWf, accWf, rackWf, deskWf, shelfWf, retWf, lardWf, sortWf, bankWf, officeWf, obsWf, bakeWf, thrdWf, relWf, arbWf, proofWf, pageWf, Bool.and_eq_true] at hw ⊢; simp [hw]; done)
      | (intro _ _ _) | (simp only [storesWf_same]) | (simp only [id_eq])

theorem wf_epochBumpAt (t : TwinId) (k epoch : Nat) (s : Block) (h : storesWf s = true) :
    storesWf (epochBumpAt t k epoch s) = true := by
  unfold epochBumpAt
  (try simp only [])
  repeat' first
      | with_reducible assumption | with_reducible apply wf_cancelPoint | with_reducible apply wf_cancelSlots | split
      | (intro w hw; simp only [twinWf, catWf, accWf, rackWf, deskWf, shelfWf, retWf, lardWf, sortWf, bankWf, officeWf, obsWf, bakeWf, thrdWf, relWf, arbWf, proofWf, pageWf, Bool.and_eq_true] at hw ⊢; simp [hw]; done)
      | (intro _ _ _) | (simp only [storesWf_same]) | (simp only [id_eq])

theorem wf_bowlFault (x code : Nat) (s : Block) (h : storesWf s = true) :
    storesWf (bowlFault x code s) = true := by
  unfold bowlFault
  (try simp only [])
  repeat' first
      | with_reducible assumption | with_reducible apply wf_officeFault | with_reducible apply wf_dropQueued
      | with_reducible apply wf_setBowl | split
      | (intro w hw; simp only [twinWf, catWf, accWf, rackWf, deskWf, shelfWf, retWf, lardWf, sortWf, bankWf, officeWf, obsWf, bakeWf, thrdWf, relWf, arbWf, proofWf, pageWf, Bool.and_eq_true] at hw ⊢; simp [hw]; done)
      | (intro _ _ _) | (simp only [storesWf_same]) | (simp only [id_eq])

theorem wf_faultPut (x code : Nat) (s : Block) (h : storesWf s = true) :
    storesWf (faultPut x code s) = true := by
  unfold faultPut
  (try simp only [])
  repeat' first
      | with_reducible assumption | with_reducible apply wf_bowlFault | with_reducible apply wf_setErr | split
      | (intro w hw; simp only [twinWf, catWf, accWf, rackWf, deskWf, shelfWf, retWf, lardWf, sortWf, bankWf, officeWf, obsWf, bakeWf, thrdWf, relWf, arbWf, proofWf, pageWf, Bool.and_eq_true] at hw ⊢; simp [hw]; done)
      | (intro _ _ _) | (simp only [storesWf_same]) | (simp only [id_eq])

theorem wf_addNext (x : Nat) (s : Block) (h : storesWf s = true) :
    storesWf (addNext x s) = true := by
  unfold addNext
  (try simp only [])
  repeat' first
      | with_reducible assumption | with_reducible apply wf_emit | with_reducible apply wf_setBowl | split
      | (intro w hw; simp only [twinWf, catWf, accWf, rackWf, deskWf, shelfWf, retWf, lardWf, sortWf, bankWf, officeWf, obsWf, bakeWf, thrdWf, relWf, arbWf, proofWf, pageWf, Bool.and_eq_true] at hw ⊢; simp [hw]; done)
      | (intro _ _ _) | (simp only [storesWf_same]) | (simp only [id_eq])

theorem wf_commit (x : Nat) (cs : List Contrib) (s : Block) (h : storesWf s = true) :
    storesWf (commit x cs s) = true := by
  unfold commit
  (try simp only [])
  repeat' first
      | with_reducible assumption | with_reducible apply wf_addNext | with_reducible apply wf_setBowl | split
      | (intro w hw; simp only [twinWf, catWf, accWf, rackWf, deskWf, shelfWf, retWf, lardWf, sortWf, bankWf, officeWf, obsWf, bakeWf, thrdWf, relWf, arbWf, proofWf, pageWf, Bool.and_eq_true] at hw ⊢; simp [hw]; done)
      | (intro _ _ _) | (simp only [storesWf_same]) | (simp only [id_eq])

theorem wf_advance (x : Nat) (l : List Nat) (s : Block) (h : storesWf s = true) :
    storesWf (advance x l s) = true := by
  induction l generalizing s with
  | nil => unfold advance; exact wf_setBowl _ _ _ h
  | cons n l ih =>
    unfold advance
    simp only []
    repeat' first
        | with_reducible assumption | with_reducible apply ih | with_reducible apply wf_setBowl
        | with_reducible apply wf_commit | with_reducible apply wf_setErr | with_reducible apply wf_bump | split
        | (intro _ _ _) | (simp only [storesWf_same])

theorem wf_endRound (x : Nat) (s : Block) (h : storesWf s = true) : storesWf (endRound x s) = true := by
  unfold endRound
  (try simp only [])
  repeat' first
      | with_reducible assumption | with_reducible apply wf_bump | with_reducible apply wf_setBowl
      | with_reducible apply wf_sendItem | split | (intro _ _ _) | (simp only [storesWf_same])

theorem wf_fixLanes (x : Nat) (lanes : List Nat) (s : Block) (h : storesWf s = true) :
    storesWf (fixLanes x lanes s) = true := by
  unfold fixLanes
  (try simp only [])
  repeat' first
      | with_reducible assumption | with_reducible apply wf_setErr | with_reducible apply wf_bump
      | with_reducible apply wf_takePut | with_reducible apply wf_endRound | with_reducible apply wf_advance
      | with_reducible apply wf_setBowl | split | (intro _ _ _) | (simp only [storesWf_same])

theorem wf_startRound (x epoch selAddr : Nat) (s : Block) (h : storesWf s = true) :
    storesWf (startRound x epoch selAddr s) = true := by
  unfold startRound
  (try simp only [])
  repeat' first
      | with_reducible assumption | with_reducible apply wf_forEach | with_reducible apply wf_emit
      | with_reducible apply wf_setBowl | with_reducible apply wf_fixLanes | split
      | (intro w hw; simp only [twinWf, catWf, accWf, rackWf, deskWf, shelfWf, retWf, lardWf, sortWf, bankWf, officeWf, obsWf, bakeWf, thrdWf, relWf, arbWf, proofWf, pageWf, Bool.and_eq_true] at hw ⊢; simp [hw]; done)
      | (intro _ _ _) | (simp only [storesWf_same]) | (simp only [id_eq])

theorem wf_takeContrib (x : Nat) (c : Contrib) (s : Block) (h : storesWf s = true) :
    storesWf (takeContrib x c s) = true := by
  unfold takeContrib
  (try simp only [])
  repeat' first
      | with_reducible assumption | with_reducible apply wf_dropPut | with_reducible apply wf_commit
      | with_reducible apply wf_advance | with_reducible apply wf_faultPut | with_reducible apply wf_setBowl | split
      | (intro w hw; simp only [twinWf, catWf, accWf, rackWf, deskWf, shelfWf, retWf, lardWf, sortWf, bankWf, officeWf, obsWf, bakeWf, thrdWf, relWf, arbWf, proofWf, pageWf, Bool.and_eq_true] at hw ⊢; simp [hw]; done)
      | (intro _ _ _) | (simp only [storesWf_same]) | (simp only [id_eq])

end Sys2Proof.Machine
end

