-- ==== Sys2Proof/Laws/StoresC.lean ====
section
/-! SUPPORT. The operations keep the canonical form of every store, part 3 of 4: one lemma per operation. -/

namespace Sys2Proof.Machine

open Sys2Proof.Safety

set_option maxRecDepth 8000
set_option linter.unusedTactic false
set_option linter.unreachableTactic false
set_option linter.unusedSimpArgs false
set_option linter.unusedVariables false

theorem wf_processHeader (x p : Nat) (w0 w1 w2 : Nat) (s : Block) (h : storesWf s = true) :
    storesWf (processHeader x p w0 w1 w2 s) = true := by
  unfold processHeader
  (try simp only [])
  repeat' first
      | with_reducible assumption | with_reducible apply wf_dropPut | with_reducible apply wf_faultPut
      | with_reducible apply wf_startRound | with_reducible apply wf_takeContrib | split
      | (intro w hw; simp only [twinWf, catWf, accWf, rackWf, deskWf, shelfWf, retWf, lardWf, sortWf, bankWf, officeWf, obsWf, bakeWf, thrdWf, relWf, arbWf, proofWf, pageWf, Bool.and_eq_true] at hw ⊢; simp [hw]; done)
      | (intro _ _ _) | (simp only [storesWf_same]) | (simp only [id_eq])

theorem wf_blockHeaderRead (x : Nat) (hh : List Nat) (s : Block) (h : storesWf s = true) :
    storesWf (blockHeaderRead x hh s) = true := by
  unfold blockHeaderRead
  (try simp only [])
  repeat' first
      | with_reducible assumption | with_reducible apply wf_setBowl | with_reducible apply wf_takePut
      | with_reducible apply wf_endRound | with_reducible apply wf_processHeader | split | (intro _ _ _)
      | (simp only [storesWf_same])

theorem wf_selectionRead (x : Nat) (hh : List Nat) (counts : List Nat) (s : Block) (h : storesWf s = true) :
    storesWf (selectionRead x hh counts s) = true := by
  unfold selectionRead
  (try simp only [])
  repeat' first
      | with_reducible assumption | with_reducible apply wf_bowlFault | with_reducible apply wf_fixLanes | split
      | (intro _ _ _) | (simp only [storesWf_same])

theorem wf_blockDataRead (x : Nat) (block result : List Nat) (s : Block) (h : storesWf s = true) :
    storesWf (blockDataRead x block result s) = true := by
  unfold blockDataRead
  (try simp only [])
  repeat' first
      | with_reducible assumption | with_reducible apply wf_bump | with_reducible apply wf_emit
      | with_reducible apply wf_setBowl | split
      | (intro w hw; simp only [twinWf, catWf, accWf, rackWf, deskWf, shelfWf, retWf, lardWf, sortWf, bankWf, officeWf, obsWf, bakeWf, thrdWf, relWf, arbWf, proofWf, pageWf, Bool.and_eq_true] at hw ⊢; simp [hw]; done)
      | (intro _ _ _) | (simp only [storesWf_same]) | (simp only [id_eq])

theorem wf_resultWriteAck (x : Nat) (s : Block) (h : storesWf s = true) :
    storesWf (resultWriteAck x s) = true := by
  unfold resultWriteAck
  (try simp only [])
  repeat' first
      | with_reducible assumption | with_reducible apply wf_takePut | with_reducible apply wf_endRound
      | with_reducible apply wf_addNext | with_reducible apply wf_setBowl | split
      | (intro w hw; simp only [twinWf, catWf, accWf, rackWf, deskWf, shelfWf, retWf, lardWf, sortWf, bankWf, officeWf, obsWf, bakeWf, thrdWf, relWf, arbWf, proofWf, pageWf, Bool.and_eq_true] at hw ⊢; simp [hw]; done)
      | (intro _ _ _) | (simp only [storesWf_same]) | (simp only [id_eq])

theorem wf_bowlIo (x : Nat) (s : Block) (h : storesWf s = true) : storesWf (bowlIo x s) = true := by
  unfold bowlIo
  (try simp only [])
  repeat' first
      | with_reducible assumption | with_reducible apply wf_bowlFault | split | (intro _ _ _)
      | (simp only [storesWf_same])

theorem wf_writeShadow (key : Nat) (off : Nat) (mask : Nat) (v : Nat) (s : Block) (h : storesWf s = true) :
    storesWf (writeShadow key off mask v s) = true := by
  unfold writeShadow
  (try simp only [])
  repeat' first
      | with_reducible assumption | with_reducible apply wf_upPage | split
      | (intro w hw; simp only [twinWf, catWf, accWf, rackWf, deskWf, shelfWf, retWf, lardWf, sortWf, bankWf, officeWf, obsWf, bakeWf, thrdWf, relWf, arbWf, proofWf, pageWf, Bool.and_eq_true] at hw ⊢; simp [hw]; done)
      | (intro _ _ _) | (simp only [storesWf_same])

theorem wf_partitionEffect (k : Nat) (gained : Bool) (s : Block) (h : storesWf s = true) :
    storesWf (partitionEffect k gained s) = true := by
  unfold partitionEffect
  (try simp only [])
  repeat' first
      | with_reducible assumption | with_reducible apply wf_tubePartition | with_reducible apply wf_partitionChange
      | split
      | (intro w hw; simp only [twinWf, catWf, accWf, rackWf, deskWf, shelfWf, retWf, lardWf, sortWf, bankWf, officeWf, obsWf, bakeWf, thrdWf, relWf, arbWf, proofWf, pageWf, Bool.and_eq_true] at hw ⊢; simp [hw]; done)
      | (intro _ _ _) | (simp only [storesWf_same]) | (simp only [id_eq])

theorem wf_inflightCheck (k : Nat) (s : Block) (h : storesWf s = true) : storesWf (inflightCheck k s) = true := by
  unfold inflightCheck
  (try simp only [])
  repeat' first
      | with_reducible assumption | with_reducible apply wf_pushWork | split | (intro _ _ _)
      | (simp only [storesWf_same])

theorem wf_applyPage (key : Nat) (s : Block) (h : storesWf s = true) :
    storesWf (applyPage key s) = true := by
  unfold applyPage
  (try simp only [])
  repeat' first
      | with_reducible assumption | with_reducible apply wf_forEach | with_reducible apply wf_setReg
      | with_reducible apply wf_upPage | with_reducible apply wf_upCtx | with_reducible apply wf_partitionEffect
      | with_reducible apply wf_inflightCheck | split
      | (intro w hw; simp only [twinWf, catWf, accWf, rackWf, deskWf, shelfWf, retWf, lardWf, sortWf, bankWf, officeWf, obsWf, bakeWf, thrdWf, relWf, arbWf, proofWf, pageWf, Bool.and_eq_true] at hw ⊢; simp [hw]; done)
      | (intro _ _ _) | (simp only [storesWf_same]) | (simp only [id_eq])

theorem wf_applyAll (s : Block) (h : storesWf s = true) : storesWf (applyAll s) = true := by
  unfold applyAll
  (try simp only [])
  repeat' first
      | with_reducible assumption | with_reducible apply wf_applyPage | with_reducible apply wf_forEach | split
      | (intro _ _ _) | (simp only [storesWf_same])

theorem wf_commitPage (key : Nat) (s : Block) (h : storesWf s = true) :
    storesWf (commitPage key s) = true := by
  unfold commitPage
  (try simp only [])
  repeat' first
      | with_reducible assumption | with_reducible apply wf_applyPage | with_reducible apply wf_upCtx | split
      | (intro w hw; simp only [twinWf, catWf, accWf, rackWf, deskWf, shelfWf, retWf, lardWf, sortWf, bankWf, officeWf, obsWf, bakeWf, thrdWf, relWf, arbWf, proofWf, pageWf, Bool.and_eq_true] at hw ⊢; simp [hw]; done)
      | (intro _ _ _) | (simp only [storesWf_same]) | (simp only [id_eq])

theorem wf_shadowApply (k : Nat) (s : Block) (h : storesWf s = true) :
    storesWf (shadowApply k s) = true := by
  unfold shadowApply
  (try simp only [])
  repeat' first
      | with_reducible assumption | with_reducible apply wf_applyPage | with_reducible apply wf_upCtx | split
      | (intro w hw; simp only [twinWf, catWf, accWf, rackWf, deskWf, shelfWf, retWf, lardWf, sortWf, bankWf, officeWf, obsWf, bakeWf, thrdWf, relWf, arbWf, proofWf, pageWf, Bool.and_eq_true] at hw ⊢; simp [hw]; done)
      | (intro _ _ _) | (simp only [storesWf_same]) | (simp only [id_eq])

theorem wf_discardPage (key : Nat) (s : Block) (h : storesWf s = true) : storesWf (discardPage key s) = true := by
  unfold discardPage
  (try simp only [])
  repeat' first
      | with_reducible assumption | with_reducible apply wf_upPage | with_reducible apply wf_upCtx
      | with_reducible apply wf_forEach | split
      | (intro w hw; simp only [twinWf, catWf, accWf, rackWf, deskWf, shelfWf, retWf, lardWf, sortWf, bankWf, officeWf, obsWf, bakeWf, thrdWf, relWf, arbWf, proofWf, pageWf, Bool.and_eq_true] at hw ⊢; simp [hw]; done)
      | (intro _ _ _) | (simp only [storesWf_same])

theorem wf_upBake (t : TwinId) (f : Bake → Bake) (s : Block) (h : storesWf s = true)
    (hf : ∀ w, bakeWf w = true → bakeWf (f w) = true) : storesWf (upBake t f s) = true := by
  unfold upBake
  refine wf_upTw t _ s h ?_
  intro w hw
  simp only [twinWf, Bool.and_eq_true] at hw ⊢
  simp [hw, hf]

theorem wf_walkTo (t : TwinId) (n : Nat) (s : Block) (h : storesWf s = true) : storesWf (walkTo t n s) = true := by
  unfold walkTo
  (try simp only [])
  split
  · exact h
  · apply wf_bump
    apply wf_upBake _ _ _ h
    intro w hw
    simp only [bakeWf, Bool.and_eq_true] at hw ⊢
    refine ⟨hw.1, ?_⟩
    apply foldl_map_wf
    · exact (by simp [storesWf_tw h, twinWf_bake, bakeWf_caps] : mapWf 0 (tw s t).bake.caps = true)
    · intro m x hm; simp [hm]

theorem wf_walkTick (t : TwinId) (s : Block) (h : storesWf s = true) : storesWf (walkTick t s) = true := by
  unfold walkTick
  (try simp only [])
  repeat' first
      | with_reducible assumption | with_reducible apply wf_walkTo | split | (intro _ _ _)
      | (simp only [storesWf_same])

theorem wf_shortfalls (t : TwinId) (s : Block) (h : storesWf s = true) :
    storesWf (shortfalls t s) = true := by
  unfold shortfalls
  (try simp only [])
  repeat' first
      | with_reducible assumption | with_reducible apply wf_forEach | with_reducible apply wf_bumpCtx
      | with_reducible apply wf_bump | split
      | (intro w hw; simp only [twinWf, catWf, accWf, rackWf, deskWf, shelfWf, retWf, lardWf, sortWf, bankWf, officeWf, obsWf, bakeWf, thrdWf, relWf, arbWf, proofWf, pageWf, Bool.and_eq_true] at hw ⊢; simp [hw]; done)
      | (intro _ _ _) | (simp only [storesWf_same]) | (simp only [id_eq])

theorem wf_loadCaps (t : TwinId) (s : Block) (h : storesWf s = true) : storesWf (loadCaps t s) = true := by
  unfold loadCaps
  (try simp only [])
  repeat' first
      | with_reducible assumption | with_reducible apply wf_upCtxTw | with_reducible apply wf_forEach | split
      | (intro w hw; simp only [twinWf, catWf, accWf, rackWf, deskWf, shelfWf, retWf, lardWf, sortWf, bankWf, officeWf, obsWf, bakeWf, thrdWf, relWf, arbWf, proofWf, pageWf, Bool.and_eq_true] at hw ⊢; simp [hw]; done)
      | (intro _ _ _) | (simp only [storesWf_same])

theorem wf_releaseHeld (t : TwinId) (s : Block) (h : storesWf s = true) : storesWf (releaseHeld t s) = true := by
  unfold releaseHeld
  (try simp only [])
  repeat' first
      | with_reducible assumption | with_reducible apply wf_pushWork | with_reducible apply wf_bumpCtx
      | with_reducible apply wf_forEach | split | (intro _ _ _) | (simp only [storesWf_same])

theorem wf_bakeTwin (t : TwinId) (n : Nat) (s : Block) (h : storesWf s = true) :
    storesWf (bakeTwin t n s) = true := by
  unfold bakeTwin
  (try simp only [])
  repeat' first
      | with_reducible assumption | with_reducible apply wf_releaseHeld | with_reducible apply wf_loadCaps
      | with_reducible apply wf_bump | with_reducible apply wf_upBake | split
      | (intro w hw; simp only [twinWf, catWf, accWf, rackWf, deskWf, shelfWf, retWf, lardWf, sortWf, bankWf, officeWf, obsWf, bakeWf, thrdWf, relWf, arbWf, proofWf, pageWf, Bool.and_eq_true] at hw ⊢; simp [hw]; done)
      | (intro _ _ _) | (simp only [storesWf_same])

theorem wf_reserveVictim (s : Block) (h : storesWf s = true) :
    storesWf (reserveVictim s) = true := by
  unfold reserveVictim
  (try simp only [])
  repeat' first
      | with_reducible assumption | with_reducible apply foldl_wf | with_reducible apply foldl_snd_wf | split
      | (intro w hw; simp only [twinWf, catWf, accWf, rackWf, deskWf, shelfWf, retWf, lardWf, sortWf, bankWf, officeWf, obsWf, bakeWf, thrdWf, relWf, arbWf, proofWf, pageWf, Bool.and_eq_true] at hw ⊢; simp [hw]; done)
      | (intro _ _ _) | (simp only [storesWf_same]) | (simp only [id_eq])

theorem wf_bakeTick (s : Block) (h : storesWf s = true) : storesWf (bakeTick s) = true := by
  unfold bakeTick
  (try simp only [])
  repeat' first
      | with_reducible assumption | with_reducible apply wf_walkTo | with_reducible apply wf_applyAll
      | with_reducible apply wf_shortfalls | with_reducible apply wf_reserveVictim | with_reducible apply wf_bakeTwin
      | split | (intro _ _ _) | (simp only [storesWf_same])

theorem wf_slotWrite (t : TwinId) (v : Nat) (s : Block) (h : storesWf s = true) :
    storesWf (slotWrite t v s) = true := by
  unfold slotWrite
  (try simp only [])
  repeat' first
      | with_reducible assumption | with_reducible apply wf_setErr | with_reducible apply wf_upBake | split
      | (intro w hw; simp only [twinWf, catWf, accWf, rackWf, deskWf, shelfWf, retWf, lardWf, sortWf, bankWf, officeWf, obsWf, bakeWf, thrdWf, relWf, arbWf, proofWf, pageWf, Bool.and_eq_true] at hw ⊢; simp [hw]; done)
      | (intro _ _ _) | (simp only [storesWf_same])

theorem wf_writeRecord (k : Nat) (w0 : Nat) (w2 : Nat) (s : Block) (h : storesWf s = true) :
    storesWf (writeRecord k w0 w2 s) = true := by
  unfold writeRecord
  (try simp only [])
  repeat' first
      | with_reducible assumption | with_reducible apply wf_bumpCtx | with_reducible apply wf_upCtx
      | with_reducible apply wf_emit | split
      | (intro w hw; simp only [twinWf, catWf, accWf, rackWf, deskWf, shelfWf, retWf, lardWf, sortWf, bankWf, officeWf, obsWf, bakeWf, thrdWf, relWf, arbWf, proofWf, pageWf, Bool.and_eq_true] at hw ⊢; simp [hw]; done)
      | (intro _ _ _) | (simp only [storesWf_same])

theorem wf_msixSignal (k : Nat) (v : Nat) (s : Block) (h : storesWf s = true) :
    storesWf (msixSignal k v s) = true := by
  unfold msixSignal
  (try simp only [])
  repeat' first
      | with_reducible assumption | with_reducible apply wf_setReg | with_reducible apply wf_emit | split
      | (intro _ _ _) | (simp only [storesWf_same])

theorem wf_msixWrite (k : Nat) (v : Nat) (value : Nat) (s : Block) (h : storesWf s = true) :
    storesWf (msixWrite k v value s) = true := by
  unfold msixWrite
  (try simp only [])
  repeat' first
      | with_reducible assumption | with_reducible apply wf_setReg | with_reducible apply wf_msixSignal | split
      | (intro _ _ _) | (simp only [storesWf_same])

theorem wf_notifyRequest (k : Nat) (s : Block) (h : storesWf s = true) : storesWf (notifyRequest k s) = true := by
  unfold notifyRequest
  (try simp only [])
  repeat' first
      | with_reducible assumption | with_reducible apply wf_upCtx | with_reducible apply wf_setErr
      | with_reducible apply wf_writeRecord | with_reducible apply wf_msixSignal | with_reducible apply wf_pushWork
      | split
      | (intro w hw; simp only [twinWf, catWf, accWf, rackWf, deskWf, shelfWf, retWf, lardWf, sortWf, bankWf, officeWf, obsWf, bakeWf, thrdWf, relWf, arbWf, proofWf, pageWf, Bool.and_eq_true] at hw ⊢; simp [hw]; done)
      | (intro _ _ _) | (simp only [storesWf_same])

theorem wf_tailWrite (k : Nat) (v : Nat) (s : Block) (h : storesWf s = true) : storesWf (tailWrite k v s) = true := by
  unfold tailWrite
  (try simp only [])
  repeat' first
      | with_reducible assumption | with_reducible apply wf_setErr | with_reducible apply wf_upCtx | split
      | (intro w hw; simp only [twinWf, catWf, accWf, rackWf, deskWf, shelfWf, retWf, lardWf, sortWf, bankWf, officeWf, obsWf, bakeWf, thrdWf, relWf, arbWf, proofWf, pageWf, Bool.and_eq_true] at hw ⊢; simp [hw]; done)
      | (intro _ _ _) | (simp only [storesWf_same])

theorem wf_notifyReady (id : Nat) (s : Block) (h : storesWf s = true) : storesWf (notifyReady id s) = true := by
  unfold notifyReady
  (try simp only [])
  repeat' first
      | with_reducible assumption | with_reducible apply wf_upCtx | split
      | (intro w hw; simp only [twinWf, catWf, accWf, rackWf, deskWf, shelfWf, retWf, lardWf, sortWf, bankWf, officeWf, obsWf, bakeWf, thrdWf, relWf, arbWf, proofWf, pageWf, Bool.and_eq_true] at hw ⊢; simp [hw]; done)
      | (intro _ _ _) | (simp only [storesWf_same])

theorem wf_setCmd (busy : Bool) (st : Nat) (s : Block) (h : storesWf s = true) :
    storesWf (setCmd busy st s) = true := by
  unfold setCmd
  (try simp only [])
  repeat' first | with_reducible assumption | split | (intro _ _ _) | (simp only [storesWf_same])

theorem wf_ctxOpen (home : TwinId) (s : Block) (h : storesWf s = true) : storesWf (ctxOpen home s) = true := by
  unfold ctxOpen
  (try simp only [])
  repeat' first
      | with_reducible assumption | with_reducible apply wf_setCmd | with_reducible apply wf_upCtx | split
      | (intro w hw; simp only [twinWf, catWf, accWf, rackWf, deskWf, shelfWf, retWf, lardWf, sortWf, bankWf, officeWf, obsWf, bakeWf, thrdWf, relWf, arbWf, proofWf, pageWf, Bool.and_eq_true] at hw ⊢; simp [hw]; done)
      | (intro _ _ _) | (simp only [storesWf_same])

theorem wf_openEffect (k : Nat) (s : Block) (h : storesWf s = true) :
    storesWf (openEffect k s) = true := by
  unfold openEffect
  (try simp only [])
  repeat' first
      | with_reducible assumption | with_reducible apply wf_upCtx | with_reducible apply wf_upCtxTw
      | with_reducible apply wf_upPage | with_reducible apply wf_setCmd | with_reducible apply wf_recipeOpen
      | with_reducible apply wf_offerHeld | with_reducible apply wf_forEach | with_reducible apply wf_discardIn | split
      | (intro w hw; simp only [twinWf, catWf, accWf, rackWf, deskWf, shelfWf, retWf, lardWf, sortWf, bankWf, officeWf, obsWf, bakeWf, thrdWf, relWf, arbWf, proofWf, pageWf, Bool.and_eq_true] at hw ⊢; simp [hw]; done)
      | (intro _ _ _) | (simp only [storesWf_same]) | (simp only [id_eq])

theorem wf_closeOpen (k : Nat) (s : Block) (h : storesWf s = true) :
    storesWf (closeOpen k s) = true := by
  unfold closeOpen
  (try simp only [])
  repeat' first
      | with_reducible assumption | with_reducible apply wf_upCtx | with_reducible apply wf_queueFault
      | with_reducible apply wf_sendCtrl | with_reducible apply wf_raiseFence | split
      | (intro w hw; simp only [twinWf, catWf, accWf, rackWf, deskWf, shelfWf, retWf, lardWf, sortWf, bankWf, officeWf, obsWf, bakeWf, thrdWf, relWf, arbWf, proofWf, pageWf, Bool.and_eq_true] at hw ⊢; simp [hw]; done)
      | (intro _ _ _) | (simp only [storesWf_same]) | (simp only [id_eq])

theorem wf_closeCtx (k : Nat) (s : Block) (h : storesWf s = true) :
    storesWf (closeCtx k s).2 = true := by
  unfold closeCtx
  (try simp only [])
  repeat' first
      | with_reducible assumption | with_reducible apply wf_closeOpen | with_reducible apply wf_upCtx | split
      | (intro w hw; simp only [twinWf, catWf, accWf, rackWf, deskWf, shelfWf, retWf, lardWf, sortWf, bankWf, officeWf, obsWf, bakeWf, thrdWf, relWf, arbWf, proofWf, pageWf, Bool.and_eq_true] at hw ⊢; simp [hw]; done)
      | (intro _ _ _) | (simp only [storesWf_same]) | (simp only [id_eq])

theorem wf_ctxClose (s : Block) (h : storesWf s = true) : storesWf (ctxClose s) = true := by
  unfold ctxClose
  (try simp only [])
  repeat' first
      | with_reducible assumption | with_reducible apply wf_closeCtx | with_reducible apply wf_setCmd | split
      | (intro _ _ _) | (simp only [storesWf_same])

theorem wf_ctxFault (s : Block) (h : storesWf s = true) : storesWf (ctxFault s) = true := by
  unfold ctxFault
  (try simp only [])
  repeat' first
      | with_reducible assumption | with_reducible apply wf_setCmd | with_reducible apply wf_raiseFault | split
      | (intro _ _ _) | (simp only [storesWf_same])

theorem wf_ctxCtlClose (k : Nat) (s : Block) (h : storesWf s = true) : storesWf (ctxCtlClose k s) = true := by
  unfold ctxCtlClose
  (try simp only [])
  repeat' first
      | with_reducible assumption | with_reducible apply wf_closeCtx | split | (intro _ _ _)
      | (simp only [storesWf_same])

theorem takeCtrl_wf {t : TwinId} {p : ControlItem → Bool} {s : Block} {r : ControlItem × Block} (h : storesWf s = true) (e : takeCtrl t p s = some r) : storesWf r.2 = true := by
  unfold takeCtrl at e
  (repeat' split at e) <;> cases e <;> (simp only []; first | with_reducible exact wf_upThrd _ _ _ h (fun w hw => by simpa [thrdWf] using hw) | exact wf_upTw _ _ _ h (fun w hw => by simp only [twinWf, catWf, accWf, rackWf, deskWf, shelfWf, retWf, lardWf, sortWf, bankWf, officeWf, obsWf, bakeWf, thrdWf, relWf, arbWf, proofWf, pageWf, Bool.and_eq_true] at hw ⊢; simp [hw]))
theorem wf_takeHeld {t : TwinId} {p : ControlItem → Bool} {s : Block} {r : ControlItem × Block} (h : storesWf s = true)
    (e : takeHeld t p s = some r) : storesWf r.2 = true := by
  unfold takeHeld at e; split at e
  · cases e
  · exact takeCtrl_wf h e

theorem wf_fenceItem (t : TwinId) (s : Block) (h : storesWf s = true) : storesWf (fenceItem t s) = true := by
  unfold fenceItem
  (try simp only [])
  repeat' first
      | with_reducible assumption
      | (have hk := wf_takeHeld ‹storesWf _ = true› ‹takeHeld _ _ _ = some _›; with_reducible exact hk)
      | with_reducible apply wf_raiseFence | with_reducible apply wf_queueFault | split | (intro _ _ _)
      | (simp only [storesWf_same])

theorem wf_fenceEffect (t : TwinId) (k : Nat) (s : Block) (h : storesWf s = true) :
    storesWf (fenceEffect t k s) = true := by
  unfold fenceEffect
  (try simp only [])
  repeat' first
      | with_reducible assumption | with_reducible apply wf_upCtxTw | with_reducible apply wf_sortFence
      | with_reducible apply wf_retFence | split
      | (intro w hw; simp only [twinWf, catWf, accWf, rackWf, deskWf, shelfWf, retWf, lardWf, sortWf, bankWf, officeWf, obsWf, bakeWf, thrdWf, relWf, arbWf, proofWf, pageWf, Bool.and_eq_true] at hw ⊢; simp [hw]; done)
      | (intro _ _ _) | (simp only [storesWf_same])

theorem wf_sweepShards (t : TwinId) (k : Nat) (s : Block) (h : storesWf s = true) :
    storesWf (sweepShards t k s) = true := by
  unfold sweepShards
  (try simp only [])
  repeat' first
      | with_reducible assumption | with_reducible apply wf_publish | with_reducible apply wf_upShard
      | with_reducible apply wf_dropMove | with_reducible apply wf_upTw | with_reducible apply wf_forEach | split
      | (intro w hw; simp only [twinWf, catWf, accWf, rackWf, deskWf, shelfWf, retWf, lardWf, sortWf, bankWf, officeWf, obsWf, bakeWf, thrdWf, relWf, arbWf, proofWf, pageWf, Bool.and_eq_true] at hw ⊢; simp [hw]; done)
      | (intro _ _ _) | (simp only [storesWf_same])

theorem wf_freeWaits (t : TwinId) (s : Block) (h : storesWf s = true) :
    storesWf (freeWaits t s) = true := by
  unfold freeWaits
  (try simp only [])
  repeat' first
      | with_reducible assumption | with_reducible apply wf_retryFirst | with_reducible apply wf_upTw | split
      | (intro w hw; simp only [twinWf, catWf, accWf, rackWf, deskWf, shelfWf, retWf, lardWf, sortWf, bankWf, officeWf, obsWf, bakeWf, thrdWf, relWf, arbWf, proofWf, pageWf, Bool.and_eq_true] at hw ⊢; simp [hw]; done)
      | (intro _ _ _) | (simp only [storesWf_same]) | (simp only [id_eq])

theorem wf_sweepCtx (t : TwinId) (k : Nat) (s : Block) (h : storesWf s = true) :
    storesWf (sweepCtx t k s) = true := by
  unfold sweepCtx
  (try simp only [])
  repeat' first
      | with_reducible assumption | with_reducible apply wf_forEach | with_reducible apply wf_freeNode
      | with_reducible apply wf_freeWaits | with_reducible apply wf_sweepShards | with_reducible apply wf_sendBack
      | with_reducible apply wf_lardClear | with_reducible apply wf_bowlTear | with_reducible apply wf_tubeTear
      | with_reducible apply wf_tallyTear | with_reducible apply wf_sortFence | with_reducible apply wf_upTw
      | with_reducible apply wf_upCtxTw | split
      | (intro w hw; simp only [twinWf, catWf, accWf, rackWf, deskWf, shelfWf, retWf, lardWf, sortWf, bankWf, officeWf, obsWf, bakeWf, thrdWf, relWf, arbWf, proofWf, pageWf, Bool.and_eq_true] at hw ⊢; simp [hw]; done)
      | (intro _ _ _) | (simp only [storesWf_same]) | (simp only [id_eq])

theorem wf_upHead (t : TwinId) (f : FaultEnt → FaultEnt) (s : Block) (h : storesWf s = true) :
    storesWf (upHead t f s) = true := by
  unfold upHead
  (try simp only [])
  repeat' first
      | with_reducible assumption | with_reducible apply wf_upTw | split
      | (intro w hw; simp only [twinWf, catWf, accWf, rackWf, deskWf, shelfWf, retWf, lardWf, sortWf, bankWf, officeWf, obsWf, bakeWf, thrdWf, relWf, arbWf, proofWf, pageWf, Bool.and_eq_true] at hw ⊢; simp [hw]; done)
      | (intro _ _ _) | (simp only [storesWf_same])

theorem wf_joinCombined (t : TwinId) (s : Block) (h : storesWf s = true) :
    storesWf (joinCombined t s) = true := by
  unfold joinCombined
  (try simp only [])
  repeat' first
      | with_reducible assumption | with_reducible apply wf_upTw | split
      | (intro w hw; simp only [twinWf, catWf, accWf, rackWf, deskWf, shelfWf, retWf, lardWf, sortWf, bankWf, officeWf, obsWf, bakeWf, thrdWf, relWf, arbWf, proofWf, pageWf, Bool.and_eq_true] at hw ⊢; simp [hw]; done)
      | (intro _ _ _) | (simp only [storesWf_same]) | (simp only [id_eq])

theorem wf_teardownStart (t : TwinId) (s : Block) (h : storesWf s = true) : storesWf (teardownStart t s) = true := by
  unfold teardownStart
  (try simp only [])
  repeat' first
      | with_reducible assumption | with_reducible apply wf_joinCombined | with_reducible apply wf_upCtx
      | with_reducible apply wf_upHead | with_reducible apply wf_sendCtrl | with_reducible apply wf_sweepCtx
      | with_reducible apply wf_forEach | split
      | (intro w hw; simp only [twinWf, catWf, accWf, rackWf, deskWf, shelfWf, retWf, lardWf, sortWf, bankWf, officeWf, obsWf, bakeWf, thrdWf, relWf, arbWf, proofWf, pageWf, Bool.and_eq_true] at hw ⊢; simp [hw]; done)
      | (intro _ _ _) | (simp only [storesWf_same])

theorem wf_tearAt (t : TwinId) (s : Block) (h : storesWf s = true) : storesWf (tearAt t s) = true := by
  unfold tearAt
  (try simp only [])
  repeat' first
      | with_reducible assumption
      | (have hk := wf_takeHeld ‹storesWf _ = true› ‹takeHeld _ _ _ = some _›; with_reducible exact hk)
      | with_reducible apply wf_sendCtrl | with_reducible apply wf_sweepCtx | split | (intro _ _ _)
      | (simp only [storesWf_same])

theorem wf_sweptAt (t : TwinId) (s : Block) (h : storesWf s = true) : storesWf (sweptAt t s) = true := by
  unfold sweptAt
  (try simp only [])
  repeat' first
      | with_reducible assumption
      | (have hk := wf_takeHeld ‹storesWf _ = true› ‹takeHeld _ _ _ = some _›; with_reducible exact hk)
      | with_reducible apply wf_upHead | split
      | (intro w hw; simp only [twinWf, catWf, accWf, rackWf, deskWf, shelfWf, retWf, lardWf, sortWf, bankWf, officeWf, obsWf, bakeWf, thrdWf, relWf, arbWf, proofWf, pageWf, Bool.and_eq_true] at hw ⊢; simp [hw]; done)
      | (intro _ _ _) | (simp only [storesWf_same])

theorem wf_reportCtx (k : Nat) (s : Block) (h : storesWf s = true) : storesWf (reportCtx k s) = true := by
  unfold reportCtx
  (try simp only [])
  repeat' first
      | with_reducible assumption | with_reducible apply wf_writeRecord | with_reducible apply wf_msixSignal
      | with_reducible apply wf_upCtx | split
      | (intro w hw; simp only [twinWf, catWf, accWf, rackWf, deskWf, shelfWf, retWf, lardWf, sortWf, bankWf, officeWf, obsWf, bakeWf, thrdWf, relWf, arbWf, proofWf, pageWf, Bool.and_eq_true] at hw ⊢; simp [hw]; done)
      | (intro _ _ _) | (simp only [storesWf_same])

theorem wf_upDom (d : Nat) (f : Dom → Dom) (s : Block) (h : storesWf s = true) : storesWf (upDom d f s) = true := by
  unfold upDom
  have ha := storesWf_proof h
  refine storesWf_proof_set _ _ h ?_
  simp only [proofWf, Bool.and_eq_true] at ha ⊢
  exact ⟨⟨⟨mapWf_mapSet _ _ _ _ ha.1.1.1, ha.1.1.2⟩, ha.1.2⟩, ha.2⟩

theorem wf_reportTeardown (t : TwinId) (s : Block) (h : storesWf s = true) :
    storesWf (reportTeardown t s) = true := by
  unfold reportTeardown
  (try simp only [])
  repeat' first
      | with_reducible assumption | with_reducible apply wf_upTw | with_reducible apply wf_forEach
      | with_reducible apply wf_reportCtx | split
      | (intro w hw; simp only [twinWf, catWf, accWf, rackWf, deskWf, shelfWf, retWf, lardWf, sortWf, bankWf, officeWf, obsWf, bakeWf, thrdWf, relWf, arbWf, proofWf, pageWf, Bool.and_eq_true] at hw ⊢; simp [hw]; done)
      | (intro _ _ _) | (simp only [storesWf_same]) | (simp only [id_eq])

theorem wf_startScrub (t : TwinId) (s : Block) (h : storesWf s = true) :
    storesWf (startScrub t s) = true := by
  unfold startScrub
  (try simp only [])
  repeat' first
      | with_reducible assumption | with_reducible apply wf_forEach | with_reducible apply wf_upCtx
      | with_reducible apply wf_reportTeardown | with_reducible apply wf_emit | with_reducible apply wf_upHead | split
      | (intro w hw; simp only [twinWf, catWf, accWf, rackWf, deskWf, shelfWf, retWf, lardWf, sortWf, bankWf, officeWf, obsWf, bakeWf, thrdWf, relWf, arbWf, proofWf, pageWf, Bool.and_eq_true] at hw ⊢; simp [hw]; done)
      | (intro _ _ _) | (simp only [storesWf_same]) | (simp only [id_eq])

theorem wf_engineWaitEnd (t : TwinId) (s : Block) (h : storesWf s = true) : storesWf (engineWaitEnd t s) = true := by
  unfold engineWaitEnd
  (try simp only [])
  repeat' first
      | with_reducible assumption | with_reducible apply wf_startScrub | split | (intro _ _ _)
      | (simp only [storesWf_same])

theorem wf_teardownWaitLimit (t : TwinId) (s : Block) (h : storesWf s = true) :
    storesWf (teardownWaitLimit t s) = true := by
  unfold teardownWaitLimit
  (try simp only [])
  repeat' first
      | with_reducible assumption | with_reducible apply wf_startScrub | with_reducible apply wf_removeEngine
      | with_reducible apply wf_forEach | split | (intro _ _ _) | (simp only [storesWf_same])

theorem wf_scrubPoll (t : TwinId) (u : ScrubUnit) (answer : Option Nat) (s : Block) (h : storesWf s = true) :
    storesWf (scrubPoll t u answer s) = true := by
  unfold scrubPoll
  (try simp only [])
  repeat' first
      | with_reducible assumption | with_reducible apply wf_emit | with_reducible apply wf_upHead
      | with_reducible apply wf_reportTeardown | split
      | (intro w hw; simp only [twinWf, catWf, accWf, rackWf, deskWf, shelfWf, retWf, lardWf, sortWf, bankWf, officeWf, obsWf, bakeWf, thrdWf, relWf, arbWf, proofWf, pageWf, Bool.and_eq_true] at hw ⊢; simp [hw]; done)
      | (intro _ _ _) | (simp only [storesWf_same]) | (simp only [id_eq])

theorem wf_scrubLimit (t : TwinId) (s : Block) (h : storesWf s = true) : storesWf (scrubLimit t s) = true := by
  unfold scrubLimit
  (try simp only [])
  repeat' first
      | with_reducible assumption | with_reducible apply wf_reportTeardown | with_reducible apply wf_upCtx
      | with_reducible apply wf_forEach | split
      | (intro w hw; simp only [twinWf, catWf, accWf, rackWf, deskWf, shelfWf, retWf, lardWf, sortWf, bankWf, officeWf, obsWf, bakeWf, thrdWf, relWf, arbWf, proofWf, pageWf, Bool.and_eq_true] at hw ⊢; simp [hw]; done)
      | (intro _ _ _) | (simp only [storesWf_same])

theorem wf_denyAccess (port : Nat) (fn : Nat) (s : Block) (h : storesWf s = true) :
    storesWf (denyAccess port fn s) = true := by
  unfold denyAccess
  (try simp only [])
  repeat' first
      | with_reducible assumption | with_reducible apply wf_setErr | split | (intro _ _ _)
      | (simp only [storesWf_same])

theorem wf_denyOf (src : Requester) (s : Block) (h : storesWf s = true) : storesWf (denyOf src s) = true := by
  unfold denyOf
  (try simp only [])
  repeat' first
      | with_reducible assumption | with_reducible apply wf_denyAccess | split | (intro _ _ _)
      | (simp only [storesWf_same])

theorem wf_pageServe (src : Requester) (key : Nat) (f : Grade → Block → Block) (s : Block) (h : storesWf s = true)
    (hf : ∀ g s, storesWf s = true → storesWf (f g s) = true) : storesWf (pageServe src key f s) = true := by
  unfold pageServe
  (try simp only [])
  repeat' first
      | with_reducible assumption | with_reducible apply hf | with_reducible apply wf_denyOf | split | (intro _ _ _)
      | (simp only [storesWf_same])

theorem wf_pageAccess (src : Requester) (key : Nat) (f : Grade → Block → Block) (s : Block) (h : storesWf s = true)
    (hf : ∀ g s, storesWf s = true → storesWf (f g s) = true) : storesWf (pageAccess src key f s) = true :=
  wf_pageServe src key _ s h (fun g s hs => by
    split
    · exact hf g s hs
    · exact hs)

theorem wf_pageCmd (src : Requester) (key : Nat) (f : Block → Block) (s : Block) (h : storesWf s = true) (hf : ∀ s, storesWf s = true → storesWf (f s) = true) : storesWf (pageCmd src key f s) = true :=
  wf_pageAccess src key _ s h (fun _ s hs => hf s hs)

theorem wf_countWrite (t : TwinId) (s : Block) (h : storesWf s = true) : storesWf (countWrite t s) = true := by
  unfold countWrite
  (try simp only [])
  repeat' first
      | with_reducible assumption | with_reducible apply wf_bump | split | (intro _ _ _)
      | (simp only [storesWf_same])

theorem wf_releaseTwin (t : TwinId) (k : Nat) (s : Block) (h : storesWf s = true) :
    storesWf (releaseTwin t k s) = true := by
  unfold releaseTwin
  (try simp only [])
  repeat' first
      | with_reducible assumption | with_reducible apply wf_forEach | with_reducible apply wf_freeNode
      | with_reducible apply wf_tallyRelease | with_reducible apply wf_sendBack | with_reducible apply wf_upTw
      | with_reducible apply wf_upCtxTw | split
      | (intro w hw; simp only [twinWf, catWf, accWf, rackWf, deskWf, shelfWf, retWf, lardWf, sortWf, bankWf, officeWf, obsWf, bakeWf, thrdWf, relWf, arbWf, proofWf, pageWf, Bool.and_eq_true] at hw ⊢; simp [hw]; done)
      | (intro _ _ _) | (simp only [storesWf_same]) | (simp only [id_eq])

theorem wf_inServing (f : TwinId → Nat → Block → Block) (k : Nat) (s : Block) (h : storesWf s = true)
    (hf : ∀ t k s, storesWf s = true → storesWf (f t k s) = true) :
    storesWf (inServing f k s) = true := by
  unfold inServing
  (try simp only [])
  repeat' first
      | with_reducible assumption | with_reducible apply hf | split | (intro _ _ _) | (simp only [storesWf_same])

theorem wf_releaseAll (k : Nat) (s : Block) (h : storesWf s = true) : storesWf (releaseAll k s) = true := by
  unfold releaseAll
  (try simp only [])
  repeat' first
      | with_reducible assumption | with_reducible apply wf_upCtx | with_reducible apply wf_inServing
      | with_reducible apply wf_releaseTwin | split
      | (intro w hw; simp only [twinWf, catWf, accWf, rackWf, deskWf, shelfWf, retWf, lardWf, sortWf, bankWf, officeWf, obsWf, bakeWf, thrdWf, relWf, arbWf, proofWf, pageWf, Bool.and_eq_true] at hw ⊢; simp [hw]; done)
      | (intro _ _ _) | (simp only [storesWf_same])

theorem wf_rearmAll (k : Nat) (s : Block) (h : storesWf s = true) : storesWf (rearmAll k s) = true := by
  unfold rearmAll
  (try simp only [])
  repeat' first
      | with_reducible assumption | with_reducible apply wf_inServing | with_reducible apply wf_rearmTwin | split
      | (intro _ _ _) | (simp only [storesWf_same])

theorem wf_select (k : Nat) (f : Ctx → Ctx) (s : Block) (h : storesWf s = true) :
    storesWf (select k f s) = true := by
  unfold select
  (try simp only [])
  repeat' first
      | with_reducible assumption | with_reducible apply wf_upCtx | split
      | (intro w hw; simp only [twinWf, catWf, accWf, rackWf, deskWf, shelfWf, retWf, lardWf, sortWf, bankWf, officeWf, obsWf, bakeWf, thrdWf, relWf, arbWf, proofWf, pageWf, Bool.and_eq_true] at hw ⊢; simp [hw]; done)
      | (intro _ _ _) | (simp only [storesWf_same]) | (simp only [id_eq])

theorem wf_applyPart (k : Nat) (named : TwinId) (banks : Nat × Nat) (c : WinCmd) (s : Block) (h : storesWf s = true) :
    storesWf (applyPart k named banks c s) = true := by
  unfold applyPart
  (try simp only [])
  repeat' first
      | with_reducible assumption | with_reducible apply wf_nodePart | with_reducible apply wf_edgePart
      | with_reducible apply wf_select | with_reducible apply wf_rearmAll | with_reducible apply wf_mirrorClose
      | with_reducible apply wf_releaseAll | with_reducible apply wf_upCtx | with_reducible apply wf_refuse | split
      | (intro w hw; simp only [twinWf, catWf, accWf, rackWf, deskWf, shelfWf, retWf, lardWf, sortWf, bankWf, officeWf, obsWf, bakeWf, thrdWf, relWf, arbWf, proofWf, pageWf, Bool.and_eq_true] at hw ⊢; simp [hw]; done)
      | (intro _ _ _) | (simp only [storesWf_same]) | (simp only [id_eq])

theorem wf_runParts (k : Nat) (named : TwinId) (banks : Nat × Nat) (counted : Bool) (l : List WinCmd) (s : Block)
    (h : storesWf s = true) : storesWf (runParts k named banks counted l s).2 = true := by
  induction l generalizing counted s with
  | nil => exact h
  | cons c l ih =>
    unfold runParts
    simp only []
    repeat' first
        | with_reducible assumption | with_reducible apply ih | with_reducible apply wf_discardIn
        | with_reducible apply wf_applyPart | with_reducible apply wf_countWrite | split

theorem wf_takeTurn (k : Nat) (w : ParkedWrite) (s : Block) (h : storesWf s = true) :
    storesWf (takeTurn k w s).2 = true := by
  unfold takeTurn
  simp only []
  split
  · split
    · exact h
    · exact wf_discardIn _ _ h
  · have hr := wf_runParts k w.named (w.banks.getD (selectors s k)) w.banks.isSome w.parts s h
    split <;> simp_all

theorem wf_takeWin (k : Nat) (parts : List WinCmd) (s : Block) (h : storesWf s = true) :
    storesWf (takeWin k parts s) = true := by
  unfold takeWin
  simp only []
  have ht := wf_takeTurn k { named := nodeTwin (selectors s k), parts := parts } s h
  repeat' first
      | with_reducible assumption | (simp_all only []; done) | with_reducible apply wf_discardIn
      | with_reducible apply wf_upCtx | split

theorem wf_winAccess (src : Requester) (k : Nat) (f : Block → Block) (s : Block) (h : storesWf s = true)
    (hf : ∀ s, storesWf s = true → storesWf (f s) = true) :
    storesWf (winAccess src k f s) = true := by
  unfold winAccess
  (try simp only [])
  repeat' first
      | with_reducible assumption | with_reducible apply hf | with_reducible apply wf_discardWrite
      | with_reducible apply wf_denyOf | split | (intro _ _ _) | (simp only [storesWf_same])

theorem wf_windowTake (src : Requester) (k : Nat) (parts : List WinCmd) (s : Block) (h : storesWf s = true) :
    storesWf (windowTake src k parts s) = true := by
  unfold windowTake
  (try simp only [])
  repeat' first
      | with_reducible assumption | with_reducible apply wf_winAccess | with_reducible apply wf_takeWin | split
      | (intro w hw; simp only [twinWf, catWf, accWf, rackWf, deskWf, shelfWf, retWf, lardWf, sortWf, bankWf, officeWf, obsWf, bakeWf, thrdWf, relWf, arbWf, proofWf, pageWf, Bool.and_eq_true] at hw ⊢; simp [hw]; done)
      | (intro _ _ _) | (simp only [storesWf_same]) | (simp only [id_eq])

theorem wf_windowBytes (src : Requester) (k off : Nat) (data : List Byte) (s : Block) (h : storesWf s = true) :
    storesWf (windowBytes src k off data s) = true := by
  unfold windowBytes
  (try simp only [])
  repeat' first
      | with_reducible assumption | with_reducible apply wf_windowTake | split
      | (intro w hw; simp only [twinWf, catWf, accWf, rackWf, deskWf, shelfWf, retWf, lardWf, sortWf, bankWf, officeWf, obsWf, bakeWf, thrdWf, relWf, arbWf, proofWf, pageWf, Bool.and_eq_true] at hw ⊢; simp [hw]; done)
      | (intro _ _ _) | (simp only [storesWf_same]) | (simp only [id_eq])

theorem wf_windowCmd (src : Requester) (k off : Nat) (whole : Bool) (c : WinCmd) (s : Block) (h : storesWf s = true) :
    storesWf (windowCmd src k off whole c s) = true := by
  unfold windowCmd
  (try simp only [])
  repeat' first
      | with_reducible assumption | with_reducible apply wf_windowTake | split
      | (intro w hw; simp only [twinWf, catWf, accWf, rackWf, deskWf, shelfWf, retWf, lardWf, sortWf, bankWf, officeWf, obsWf, bakeWf, thrdWf, relWf, arbWf, proofWf, pageWf, Bool.and_eq_true] at hw ⊢; simp [hw]; done)
      | (intro _ _ _) | (simp only [storesWf_same]) | (simp only [id_eq])

theorem wf_parkedWrite (k : Nat) (s : Block) (h : storesWf s = true) : storesWf (parkedWrite k s) = true := by
  unfold parkedWrite
  split
  · exact h
  · rename_i w rest _
    simp only []
    have ht := wf_takeTurn k w (upCtx k (fun c => { c with parked := rest }) s) (wf_upCtx _ _ _ h)
    split
    · rename_i heq
      exact wf_offerHeld _ (by rw [heq] at ht; exact ht)
    · rename_i heq
      exact wf_offerHeld _ (wf_upCtx _ _ _ (by rw [heq] at ht; exact ht))

theorem wf_sweepEnd (t : TwinId) (k : Nat) (s : Block) (h : storesWf s = true) :
    storesWf (sweepEnd t k s) = true := by
  unfold sweepEnd
  (try simp only [])
  repeat' first
      | with_reducible assumption | with_reducible apply wf_bump | with_reducible apply wf_upCtxTw
      | with_reducible apply wf_upBank | with_reducible apply wf_refuse | split
      | (intro w hw; simp only [twinWf, catWf, accWf, rackWf, deskWf, shelfWf, retWf, lardWf, sortWf, bankWf, officeWf, obsWf, bakeWf, thrdWf, relWf, arbWf, proofWf, pageWf, Bool.and_eq_true] at hw ⊢; simp [hw]; done)
      | (intro _ _ _) | (simp only [storesWf_same]) | (simp only [id_eq])

theorem wf_upThrd (t : TwinId) (f : ThreadDesk → ThreadDesk) (s : Block) (h : storesWf s = true)
    (hf : ∀ w, thrdWf w = true → thrdWf (f w) = true) : storesWf (upThrd t f s) = true := by
  unfold upThrd
  refine wf_upTw t _ s h ?_
  intro w hw
  simp only [twinWf, Bool.and_eq_true] at hw ⊢
  simp [hw, hf]

theorem wf_upThread (x : Nat) (f : Thread → Thread) (s : Block) (h : storesWf s = true) :
    storesWf (upThread x f s) = true := by
  unfold upThread
  (try simp only [])
  repeat' first
      | with_reducible assumption | with_reducible apply wf_upThrd | split
      | (intro w hw; simp only [twinWf, catWf, accWf, rackWf, deskWf, shelfWf, retWf, lardWf, sortWf, bankWf, officeWf, obsWf, bakeWf, thrdWf, relWf, arbWf, proofWf, pageWf, Bool.and_eq_true] at hw ⊢; simp [hw]; done)
      | (intro _ _ _) | (simp only [storesWf_same])

theorem wf_upCore (c : Nat) (f : Core → Core) (s : Block) (h : storesWf s = true) :
    storesWf (upCore c f s) = true := by
  unfold upCore
  have ha := storesWf_arb h
  refine storesWf_arb_set _ _ h ?_
  simp only [arbWf, Bool.and_eq_true] at ha ⊢
  exact ⟨⟨mapWf_mapSet _ _ _ _ ha.1.1, ha.1.2⟩, ha.2⟩

theorem wf_threadErr (x : Nat) (core : Nat) (code : Nat) (ctx : Nat) (s : Block) (h : storesWf s = true) :
    storesWf (threadErr x core code ctx s) = true := by
  unfold threadErr
  (try simp only [])
  repeat' first
      | with_reducible assumption | with_reducible apply wf_upThrd | split
      | (intro w hw; simp only [twinWf, catWf, accWf, rackWf, deskWf, shelfWf, retWf, lardWf, sortWf, bankWf, officeWf, obsWf, bakeWf, thrdWf, relWf, arbWf, proofWf, pageWf, Bool.and_eq_true] at hw ⊢; simp [hw]; done)
      | (intro _ _ _) | (simp only [storesWf_same])

theorem wf_threadErrBit (x : Nat) (core : Nat) (bit : Nat) (ctx : Nat) (s : Block) (h : storesWf s = true) :
    storesWf (threadErrBit x core bit ctx s) = true := by
  unfold threadErrBit
  (try simp only [])
  repeat' first
      | with_reducible assumption | with_reducible apply wf_threadErr | with_reducible apply wf_setErr | split
      | (intro _ _ _) | (simp only [storesWf_same])

theorem wf_threadUnlink (x : Nat) (s : Block) (h : storesWf s = true) : storesWf (threadUnlink x s) = true := by
  unfold threadUnlink
  (try simp only [])
  repeat' first
      | with_reducible assumption | with_reducible apply wf_upThrd | split
      | (intro w hw; simp only [twinWf, catWf, accWf, rackWf, deskWf, shelfWf, retWf, lardWf, sortWf, bankWf, officeWf, obsWf, bakeWf, thrdWf, relWf, arbWf, proofWf, pageWf, Bool.and_eq_true] at hw ⊢; simp [hw]; done)
      | (intro _ _ _) | (simp only [storesWf_same])

theorem wf_threadReady (x : Nat) (atHead : Bool) (time : Nat) (s : Block) (h : storesWf s = true) :
    storesWf (threadReady x atHead time s) = true := by
  unfold threadReady
  (try simp only [])
  repeat' first
      | with_reducible assumption | with_reducible apply wf_upThread | with_reducible apply wf_threadUnlink
      | with_reducible apply wf_upThrd | split
      | (intro w hw; simp only [twinWf, catWf, accWf, rackWf, deskWf, shelfWf, retWf, lardWf, sortWf, bankWf, officeWf, obsWf, bakeWf, thrdWf, relWf, arbWf, proofWf, pageWf, Bool.and_eq_true] at hw ⊢; simp [hw]; done)
      | (intro _ _ _) | (simp only [storesWf_same])

theorem wf_threadSleep (x : Nat) (st : ThreadState) (due : Nat) (s : Block) (h : storesWf s = true) :
    storesWf (threadSleep x st due s) = true := by
  unfold threadSleep
  (try simp only [])
  repeat' first
      | with_reducible assumption | with_reducible apply wf_upThread | with_reducible apply wf_threadUnlink
      | with_reducible apply wf_upThrd | split
      | (intro w hw; simp only [twinWf, catWf, accWf, rackWf, deskWf, shelfWf, retWf, lardWf, sortWf, bankWf, officeWf, obsWf, bakeWf, thrdWf, relWf, arbWf, proofWf, pageWf, Bool.and_eq_true] at hw ⊢; simp [hw]; done)
      | (intro _ _ _) | (simp only [storesWf_same])

theorem wf_wakeThread (x : Nat) (s : Block) (h : storesWf s = true) : storesWf (wakeThread x s) = true := by
  unfold wakeThread
  (try simp only [])
  repeat' first
      | with_reducible assumption | with_reducible apply wf_bump | with_reducible apply wf_threadReady
      | with_reducible apply wf_upThread | split
      | (intro w hw; simp only [twinWf, catWf, accWf, rackWf, deskWf, shelfWf, retWf, lardWf, sortWf, bankWf, officeWf, obsWf, bakeWf, thrdWf, relWf, arbWf, proofWf, pageWf, Bool.and_eq_true] at hw ⊢; simp [hw]; done)
      | (intro _ _ _) | (simp only [storesWf_same])

theorem wf_wakeThreads (x n : Nat) (s : Block) (h : storesWf s = true) :
    storesWf (wakeThreads x n s) = true := by
  unfold wakeThreads
  (try simp only [])
  repeat' first
      | with_reducible assumption | with_reducible apply wf_wakeThread | with_reducible apply wf_bump | split
      | (intro w hw; simp only [twinWf, catWf, accWf, rackWf, deskWf, shelfWf, retWf, lardWf, sortWf, bankWf, officeWf, obsWf, bakeWf, thrdWf, relWf, arbWf, proofWf, pageWf, Bool.and_eq_true] at hw ⊢; simp [hw]; done)
      | (intro _ _ _) | (simp only [storesWf_same]) | (simp only [id_eq])

theorem wf_refuseWake (x : Nat) (w : WakeSrc) (s : Block) (h : storesWf s = true) :
    storesWf (refuseWake x w s) = true := by
  unfold refuseWake
  (try simp only [])
  repeat' first
      | with_reducible assumption | with_reducible apply wf_bump | with_reducible apply wf_threadErrBit | split
      | (intro _ _ _) | (simp only [storesWf_same])

theorem wf_wakesAt (x : Nat) (ws : List WakeSrc) (s : Block) (h : storesWf s = true) :
    storesWf (wakesAt x ws s) = true := by
  unfold wakesAt
  (try simp only [])
  repeat' first
      | with_reducible assumption | with_reducible apply wf_forEach | with_reducible apply wf_refuseWake
      | with_reducible apply wf_wakeThreads | split
      | (intro w hw; simp only [twinWf, catWf, accWf, rackWf, deskWf, shelfWf, retWf, lardWf, sortWf, bankWf, officeWf, obsWf, bakeWf, thrdWf, relWf, arbWf, proofWf, pageWf, Bool.and_eq_true] at hw ⊢; simp [hw]; done)
      | (intro _ _ _) | (simp only [storesWf_same]) | (simp only [id_eq])

theorem wf_sendOffer (t : TwinId) (c : Nat) (o : ThreadOffer) (s : Block) (h : storesWf s = true) :
    storesWf (sendOffer t c o s) = true := by
  unfold sendOffer
  (try simp only [])
  repeat' first
      | with_reducible assumption | with_reducible apply wf_upThrd | split
      | (intro w hw; simp only [twinWf, catWf, accWf, rackWf, deskWf, shelfWf, retWf, lardWf, sortWf, bankWf, officeWf, obsWf, bakeWf, thrdWf, relWf, arbWf, proofWf, pageWf, Bool.and_eq_true] at hw ⊢; simp [hw]; done)
      | (intro _ _ _) | (simp only [storesWf_same])

theorem wf_offerUnasked (t : TwinId) (l : List Nat) (s : Block) (h : storesWf s = true) :
    storesWf (offerUnasked t l s) = true := by
  induction l generalizing s with
  | nil => exact h
  | cons n l ih =>
    unfold offerUnasked
    repeat' first
        | with_reducible assumption | with_reducible apply ih | with_reducible apply wf_sendOffer | split
        | (intro _ _ _) | (simp only [storesWf_same])

theorem wf_deskSettle (t : TwinId) (s : Block) (h : storesWf s = true) : storesWf (deskSettle t s) = true := by
  unfold deskSettle
  (try simp only [])
  repeat' first
      | with_reducible assumption | with_reducible apply wf_offerUnasked | split | (intro _ _ _)
      | (simp only [storesWf_same])

theorem wf_sendAsks (c : Nat) (s : Block) (h : storesWf s = true) : storesWf (sendAsks c s) = true := by
  unfold sendAsks
  (try simp only [])
  repeat' first
      | with_reducible assumption | with_reducible apply wf_upThrd | with_reducible apply wf_upCore | split
      | (intro w hw; simp only [twinWf, catWf, accWf, rackWf, deskWf, shelfWf, retWf, lardWf, sortWf, bankWf, officeWf, obsWf, bakeWf, thrdWf, relWf, arbWf, proofWf, pageWf, Bool.and_eq_true] at hw ⊢; simp [hw]; done)
      | (intro _ _ _) | (simp only [storesWf_same])

theorem wf_threadTrace (x : Nat) (c : Nat) (code : Nat) (s : Block) (h : storesWf s = true) :
    storesWf (threadTrace x c code s) = true := by
  unfold threadTrace
  (try simp only [])
  repeat' first
      | with_reducible assumption | with_reducible apply wf_trace | split | (intro _ _ _)
      | (simp only [storesWf_same])

theorem wf_sendRelease (c : Nat) (o : ThreadOffer) (s : Block) (h : storesWf s = true) :
    storesWf (sendRelease c o s) = true := by
  unfold sendRelease
  (try simp only [])
  repeat' first
      | with_reducible assumption | with_reducible apply wf_upThrd | split
      | (intro w hw; simp only [twinWf, catWf, accWf, rackWf, deskWf, shelfWf, retWf, lardWf, sortWf, bankWf, officeWf, obsWf, bakeWf, thrdWf, relWf, arbWf, proofWf, pageWf, Bool.and_eq_true] at hw ⊢; simp [hw]; done)
      | (intro _ _ _) | (simp only [storesWf_same]) | (simp only [id_eq])

theorem wf_askServed (c : Nat) (s : Block) (h : storesWf s = true) :
    storesWf (askServed c s) = true := by
  unfold askServed
  (try simp only [])
  repeat' first
      | with_reducible assumption | with_reducible apply wf_upThrd | split
      | (intro w hw; simp only [twinWf, catWf, accWf, rackWf, deskWf, shelfWf, retWf, lardWf, sortWf, bankWf, officeWf, obsWf, bakeWf, thrdWf, relWf, arbWf, proofWf, pageWf, Bool.and_eq_true] at hw ⊢; simp [hw]; done)
      | (intro _ _ _) | (simp only [storesWf_same]) | (simp only [id_eq])

theorem wf_coreOut (c : Nat) (s : Block) (h : storesWf s = true) :
    storesWf (coreOut c s) = true := by
  unfold coreOut
  (try simp only [])
  repeat' first
      | with_reducible assumption | with_reducible apply wf_askServed | with_reducible apply wf_forEach
      | with_reducible apply wf_sendRelease | with_reducible apply wf_upCore | split
      | (intro w hw; simp only [twinWf, catWf, accWf, rackWf, deskWf, shelfWf, retWf, lardWf, sortWf, bankWf, officeWf, obsWf, bakeWf, thrdWf, relWf, arbWf, proofWf, pageWf, Bool.and_eq_true] at hw ⊢; simp [hw]; done)
      | (intro _ _ _) | (simp only [storesWf_same]) | (simp only [id_eq])

theorem wf_grantThread (c : Nat) (o : ThreadOffer) (loser : Option ThreadOffer) (s : Block) (h : storesWf s = true) :
    storesWf (grantThread c o loser s) = true := by
  unfold grantThread
  (try simp only [])
  repeat' first
      | with_reducible assumption | with_reducible apply wf_emit | with_reducible apply wf_threadTrace
      | with_reducible apply wf_bump | with_reducible apply wf_upCore | with_reducible apply wf_upThrd
      | with_reducible apply wf_askServed | with_reducible apply wf_sendRelease | split
      | (intro w hw; simp only [twinWf, catWf, accWf, rackWf, deskWf, shelfWf, retWf, lardWf, sortWf, bankWf, officeWf, obsWf, bakeWf, thrdWf, relWf, arbWf, proofWf, pageWf, Bool.and_eq_true] at hw ⊢; simp [hw]; done)
      | (intro _ _ _) | (simp only [storesWf_same]) | (simp only [id_eq])

theorem wf_decideAsk (c : Nat) (windowOver : Bool) (s : Block) (h : storesWf s = true) :
    storesWf (decideAsk c windowOver s) = true := by
  unfold decideAsk
  (try simp only [])
  repeat' first
      | with_reducible assumption | with_reducible apply wf_grantThread | with_reducible apply wf_upCore | split
      | (intro w hw; simp only [twinWf, catWf, accWf, rackWf, deskWf, shelfWf, retWf, lardWf, sortWf, bankWf, officeWf, obsWf, bakeWf, thrdWf, relWf, arbWf, proofWf, pageWf, Bool.and_eq_true] at hw ⊢; simp [hw]; done)
      | (intro _ _ _) | (simp only [storesWf_same]) | (simp only [id_eq])

theorem wf_drivePreempt (c : Nat) (why : PreemptWhy) (s : Block) (h : storesWf s = true) :
    storesWf (drivePreempt c why s) = true := by
  unfold drivePreempt
  (try simp only [])
  repeat' first
      | with_reducible assumption | with_reducible apply wf_threadTrace | with_reducible apply wf_bump
      | with_reducible apply wf_emit | with_reducible apply wf_upCore | split
      | (intro w hw; simp only [twinWf, catWf, accWf, rackWf, deskWf, shelfWf, retWf, lardWf, sortWf, bankWf, officeWf, obsWf, bakeWf, thrdWf, relWf, arbWf, proofWf, pageWf, Bool.and_eq_true] at hw ⊢; simp [hw]; done)
      | (intro _ _ _) | (simp only [storesWf_same]) | (simp only [id_eq])

theorem wf_preemptAll (s : Block) (h : storesWf s = true) : storesWf (preemptAll s) = true := by
  unfold preemptAll
  (try simp only [])
  repeat' first
      | with_reducible assumption | with_reducible apply wf_drivePreempt | with_reducible apply wf_forEach | split
      | (intro _ _ _) | (simp only [storesWf_same])

theorem wf_withdrawOffer (x : Nat) (s : Block) (h : storesWf s = true) :
    storesWf (withdrawOffer x s) = true := by
  unfold withdrawOffer
  (try simp only [])
  repeat' first
      | with_reducible assumption | with_reducible apply wf_threadUnlink | with_reducible apply wf_forEach
      | with_reducible apply wf_decideAsk | with_reducible apply wf_upCore | with_reducible apply wf_upThrd | split
      | (intro w hw; simp only [twinWf, catWf, accWf, rackWf, deskWf, shelfWf, retWf, lardWf, sortWf, bankWf, officeWf, obsWf, bakeWf, thrdWf, relWf, arbWf, proofWf, pageWf, Bool.and_eq_true] at hw ⊢; simp [hw]; done)
      | (intro _ _ _) | (simp only [storesWf_same]) | (simp only [id_eq])

theorem wf_threadFault (x core code : Nat) (s : Block) (h : storesWf s = true) :
    storesWf (threadFault x core code s) = true := by
  unfold threadFault
  (try simp only [])
  repeat' first
      | with_reducible assumption | with_reducible apply wf_bump | with_reducible apply wf_threadErr
      | with_reducible apply wf_upThread | with_reducible apply wf_withdrawOffer | split
      | (intro w hw; simp only [twinWf, catWf, accWf, rackWf, deskWf, shelfWf, retWf, lardWf, sortWf, bankWf, officeWf, obsWf, bakeWf, thrdWf, relWf, arbWf, proofWf, pageWf, Bool.and_eq_true] at hw ⊢; simp [hw]; done)
      | (intro _ _ _) | (simp only [storesWf_same]) | (simp only [id_eq])

theorem wf_threadFree (x : Nat) (s : Block) (h : storesWf s = true) :
    storesWf (threadFree x s) = true := by
  unfold threadFree
  (try simp only [])
  repeat' first
      | with_reducible assumption | with_reducible apply wf_upThrd | with_reducible apply wf_upThread
      | with_reducible apply wf_withdrawOffer | split
      | (intro w hw; simp only [twinWf, catWf, accWf, rackWf, deskWf, shelfWf, retWf, lardWf, sortWf, bankWf, officeWf, obsWf, bakeWf, thrdWf, relWf, arbWf, proofWf, pageWf, Bool.and_eq_true] at hw ⊢; simp [hw]; done)
      | (intro _ _ _) | (simp only [storesWf_same]) | (simp only [id_eq])

theorem wf_applyOutcome (x : Nat) (core : Nat) (o : ThreadOutcome) (why : Option PreemptWhy) (s : Block)
    (h : storesWf s = true) :
    storesWf (applyOutcome x core o why s) = true := by
  unfold applyOutcome
  (try simp only [])
  repeat' first
      | with_reducible assumption | with_reducible apply wf_upThread | with_reducible apply wf_threadReady
      | with_reducible apply wf_threadSleep | with_reducible apply wf_threadFault | split
      | (intro w hw; simp only [twinWf, catWf, accWf, rackWf, deskWf, shelfWf, retWf, lardWf, sortWf, bankWf, officeWf, obsWf, bakeWf, thrdWf, relWf, arbWf, proofWf, pageWf, Bool.and_eq_true] at hw ⊢; simp [hw]; done)
      | (intro _ _ _) | (simp only [storesWf_same])

theorem wf_coreFreed (c : Nat) (s : Block) (h : storesWf s = true) : storesWf (coreFreed c s) = true := by
  unfold coreFreed
  have h1 := wf_upCore c (fun k => { k with running := none, preempt := none, expired := false }) s h
  generalize upCore c (fun k => { k with running := none, preempt := none, expired := false }) s = s1 at h1
  dsimp only
  split
  · have h2 := wf_coreOut c s1 h1
    exact storesWf_arb_set _ _ h2 (storesWf_arb h2 :)
  · exact h1

theorem wf_reportThread (c : Nat) (x : Nat) (o : ThreadOutcome) (s : Block) (h : storesWf s = true) :
    storesWf (reportThread c x o s) = true := by
  unfold reportThread
  (try simp only [])
  repeat' first
      | with_reducible assumption | with_reducible apply wf_coreFreed | with_reducible apply wf_deskSettle
      | with_reducible apply wf_threadFree | with_reducible apply wf_threadFault
      | with_reducible apply wf_applyOutcome | with_reducible apply wf_threadErrBit | split | (intro _ _ _)
      | (simp only [storesWf_same])

theorem wf_askWord (c : Nat) (s : Block) (h : storesWf s = true) :
    storesWf (askWord c s) = true := by
  unfold askWord
  (try simp only [])
  repeat' first
      | with_reducible assumption | with_reducible apply wf_reportThread | with_reducible apply wf_threadErrBit
      | with_reducible apply wf_sendAsks | split
      | (intro w hw; simp only [twinWf, catWf, accWf, rackWf, deskWf, shelfWf, retWf, lardWf, sortWf, bankWf, officeWf, obsWf, bakeWf, thrdWf, relWf, arbWf, proofWf, pageWf, Bool.and_eq_true] at hw ⊢; simp [hw]; done)
      | (intro _ _ _) | (simp only [storesWf_same]) | (simp only [id_eq])

theorem wf_reportWord (c x : Nat) (asks : Bool) (o : ThreadOutcome) (s : Block) (h : storesWf s = true) :
    storesWf (reportWord c x asks o s) = true := by
  unfold reportWord
  (try simp only [])
  repeat' first
      | with_reducible assumption | with_reducible apply wf_reportThread | with_reducible apply wf_threadErrBit
      | with_reducible apply wf_askWord | split
      | (intro w hw; simp only [twinWf, catWf, accWf, rackWf, deskWf, shelfWf, retWf, lardWf, sortWf, bankWf, officeWf, obsWf, bakeWf, thrdWf, relWf, arbWf, proofWf, pageWf, Bool.and_eq_true] at hw ⊢; simp [hw]; done)
      | (intro _ _ _) | (simp only [storesWf_same]) | (simp only [id_eq])

theorem wf_wakeWord (c : Nat) (x : Nat) (s : Block) (h : storesWf s = true) : storesWf (wakeWord c x s) = true := by
  unfold wakeWord
  (try simp only [])
  repeat' first
      | with_reducible assumption | with_reducible apply wf_refuseWake | with_reducible apply wf_sendItem | split
      | (intro _ _ _) | (simp only [storesWf_same])

theorem wf_threadWakeReady (id : Nat) (s : Block) (h : storesWf s = true) :
    storesWf (threadWakeReady id s) = true := by
  unfold threadWakeReady
  (try simp only [])
  repeat' first
      | with_reducible assumption | with_reducible apply wf_pushWork | with_reducible apply wf_internalDone
      | with_reducible apply wf_sendItem | split
      | (intro w hw; simp only [twinWf, catWf, accWf, rackWf, deskWf, shelfWf, retWf, lardWf, sortWf, bankWf, officeWf, obsWf, bakeWf, thrdWf, relWf, arbWf, proofWf, pageWf, Bool.and_eq_true] at hw ⊢; simp [hw]; done)
      | (intro _ _ _) | (simp only [storesWf_same]) | (simp only [id_eq])

theorem wf_wakeItem (t : TwinId) (x : Nat) (ws : List WakeSrc) (s : Block) (h : storesWf s = true) :
    storesWf (wakeItem t x ws s) = true := by
  unfold wakeItem
  (try simp only [])
  repeat' first
      | with_reducible assumption | with_reducible apply wf_deskSettle | with_reducible apply wf_wakesAt | split
      | (intro w hw; simp only [twinWf, catWf, accWf, rackWf, deskWf, shelfWf, retWf, lardWf, sortWf, bankWf, officeWf, obsWf, bakeWf, thrdWf, relWf, arbWf, proofWf, pageWf, Bool.and_eq_true] at hw ⊢; simp [hw]; done)
      | (intro _ _ _) | (simp only [storesWf_same]) | (simp only [id_eq])

theorem takeDesk_wf {t : TwinId} {p : DeskMsg → Bool} {s : Block} {r : DeskMsg × Block} (h : storesWf s = true) (e : takeDesk t p s = some r) : storesWf r.2 = true := by
  unfold takeDesk at e
  (repeat' split at e) <;> cases e <;> (simp only []; first | with_reducible exact wf_upThrd _ _ _ h (fun w hw => by simpa [thrdWf] using hw) | exact wf_upTw _ _ _ h (fun w hw => by simp only [twinWf, catWf, accWf, rackWf, deskWf, shelfWf, retWf, lardWf, sortWf, bankWf, officeWf, obsWf, bakeWf, thrdWf, relWf, arbWf, proofWf, pageWf, Bool.and_eq_true] at hw ⊢; simp [hw]))

theorem wf_deskAsk (t : TwinId) (s : Block) (h : storesWf s = true) : storesWf (deskAsk t s) = true := by
  unfold deskAsk
  (try simp only [])
  repeat' first
      | with_reducible assumption
      | (have hk := takeDesk_wf ‹storesWf _ = true› ‹takeDesk _ _ _ = some _›; with_reducible exact hk)
      | with_reducible apply wf_sendOffer | with_reducible apply wf_upThrd | split
      | (intro w hw; simp only [twinWf, catWf, accWf, rackWf, deskWf, shelfWf, retWf, lardWf, sortWf, bankWf, officeWf, obsWf, bakeWf, thrdWf, relWf, arbWf, proofWf, pageWf, Bool.and_eq_true] at hw ⊢; simp [hw]; done)
      | (intro _ _ _) | (simp only [storesWf_same])

theorem takeArb_wf {t : TwinId} {p : ArbMsg → Bool} {s : Block} {r : ArbMsg × Block} (h : storesWf s = true) (e : takeArb t p s = some r) : storesWf r.2 = true := by
  unfold takeArb at e
  (repeat' split at e) <;> cases e <;> (simp only []; first | with_reducible exact wf_upThrd _ _ _ h (fun w hw => by simpa [thrdWf] using hw) | exact wf_upTw _ _ _ h (fun w hw => by simp only [twinWf, catWf, accWf, rackWf, deskWf, shelfWf, retWf, lardWf, sortWf, bankWf, officeWf, obsWf, bakeWf, thrdWf, relWf, arbWf, proofWf, pageWf, Bool.and_eq_true] at hw ⊢; simp [hw]))

theorem wf_threadOffer (t : TwinId) (s : Block) (h : storesWf s = true) : storesWf (threadOffer t s) = true := by
  unfold threadOffer
  (try simp only [])
  repeat' first
      | with_reducible assumption | with_reducible apply wf_sendRelease
      | (have hk := takeArb_wf ‹storesWf _ = true› ‹takeArb _ _ _ = some _›; with_reducible exact hk)
      | with_reducible apply wf_decideAsk | with_reducible apply wf_upCore | with_reducible apply wf_upThrd | split
      | (intro w hw; simp only [twinWf, catWf, accWf, rackWf, deskWf, shelfWf, retWf, lardWf, sortWf, bankWf, officeWf, obsWf, bakeWf, thrdWf, relWf, arbWf, proofWf, pageWf, Bool.and_eq_true] at hw ⊢; simp [hw]; done)
      | (intro _ _ _) | (simp only [storesWf_same])

theorem wf_noneAnswer (t : TwinId) (s : Block) (h : storesWf s = true) : storesWf (noneAnswer t s) = true := by
  unfold noneAnswer
  (try simp only [])
  repeat' first
      | with_reducible assumption
      | (have hk := takeArb_wf ‹storesWf _ = true› ‹takeArb _ _ _ = some _›; with_reducible exact hk)
      | with_reducible apply wf_decideAsk | with_reducible apply wf_upCore | split
      | (intro w hw; simp only [twinWf, catWf, accWf, rackWf, deskWf, shelfWf, retWf, lardWf, sortWf, bankWf, officeWf, obsWf, bakeWf, thrdWf, relWf, arbWf, proofWf, pageWf, Bool.and_eq_true] at hw ⊢; simp [hw]; done)
      | (intro _ _ _) | (simp only [storesWf_same])

theorem wf_takeThread (t : TwinId) (s : Block) (h : storesWf s = true) : storesWf (takeThread t s) = true := by
  unfold takeThread
  (try simp only [])
  repeat' first
      | with_reducible assumption
      | (have hk := takeDesk_wf ‹storesWf _ = true› ‹takeDesk _ _ _ = some _›; with_reducible exact hk)
      | with_reducible apply wf_deskSettle | with_reducible apply wf_upThread | with_reducible apply wf_threadUnlink
      | split
      | (intro w hw; simp only [twinWf, catWf, accWf, rackWf, deskWf, shelfWf, retWf, lardWf, sortWf, bankWf, officeWf, obsWf, bakeWf, thrdWf, relWf, arbWf, proofWf, pageWf, Bool.and_eq_true] at hw ⊢; simp [hw]; done)
      | (intro _ _ _) | (simp only [storesWf_same])

theorem wf_threadRelease (t : TwinId) (s : Block) (h : storesWf s = true) : storesWf (threadRelease t s) = true := by
  unfold threadRelease
  (try simp only [])
  repeat' first
      | with_reducible assumption
      | (have hk := takeDesk_wf ‹storesWf _ = true› ‹takeDesk _ _ _ = some _›; with_reducible exact hk)
      | with_reducible apply wf_deskSettle | with_reducible apply wf_upThrd | split
      | (intro w hw; simp only [twinWf, catWf, accWf, rackWf, deskWf, shelfWf, retWf, lardWf, sortWf, bankWf, officeWf, obsWf, bakeWf, thrdWf, relWf, arbWf, proofWf, pageWf, Bool.and_eq_true] at hw ⊢; simp [hw]; done)
      | (intro _ _ _) | (simp only [storesWf_same])

theorem wf_offerWindow (c : Nat) (s : Block) (h : storesWf s = true) : storesWf (offerWindow c s) = true := by
  unfold offerWindow
  (try simp only [])
  repeat' first
      | with_reducible assumption | with_reducible apply wf_decideAsk | split | (intro _ _ _)
      | (simp only [storesWf_same])

theorem wf_threadSummary (t : TwinId) (s : Block) (h : storesWf s = true) : storesWf (threadSummary t s) = true := by
  unfold threadSummary
  split
  · exact h
  · dsimp only
    apply wf_preemptAll
    have ha := storesWf_arb h
    generalize hm : List.foldl _ _ _ = m
    have hmw : mapWf 0 m = true := by
      subst hm; apply foldl_map_wf _ _ _ _ (mapWf_nil _); intro m x hx; exact mapWf_mapSet _ _ _ _ hx
    cases t <;> (refine storesWf_arb_set _ _ h ?_; simp only [arbWf, Bool.and_eq_true] at ha ⊢; simp [ha, hmw])

theorem wf_preemptLimit (c : Nat) (s : Block) (h : storesWf s = true) :
    storesWf (preemptLimit c s) = true := by
  unfold preemptLimit
  (try simp only [])
  repeat' first
      | with_reducible assumption | with_reducible apply wf_threadErrBit | with_reducible apply wf_coreFreed
      | with_reducible apply wf_coreOut | with_reducible apply wf_threadFree | with_reducible apply wf_threadFault
      | with_reducible apply wf_preemptAll | with_reducible apply wf_deskSettle | split
      | (intro w hw; simp only [twinWf, catWf, accWf, rackWf, deskWf, shelfWf, retWf, lardWf, sortWf, bankWf, officeWf, obsWf, bakeWf, thrdWf, relWf, arbWf, proofWf, pageWf, Bool.and_eq_true] at hw ⊢; simp [hw]; done)
      | (intro _ _ _) | (simp only [storesWf_same]) | (simp only [id_eq])

theorem wf_sliceTick (t : TwinId) (s : Block) (h : storesWf s = true) :
    storesWf (sliceTick t s) = true := by
  unfold sliceTick
  (try simp only [])
  repeat' first
      | with_reducible assumption | with_reducible apply wf_forEach | with_reducible apply wf_upThread
      | with_reducible apply wf_upCore | split
      | (intro w hw; simp only [twinWf, catWf, accWf, rackWf, deskWf, shelfWf, retWf, lardWf, sortWf, bankWf, officeWf, obsWf, bakeWf, thrdWf, relWf, arbWf, proofWf, pageWf, Bool.and_eq_true] at hw ⊢; simp [hw]; done)
      | (intro _ _ _) | (simp only [storesWf_same]) | (simp only [id_eq])

theorem wf_dueTick (t : TwinId) (s : Block) (h : storesWf s = true) : storesWf (dueTick t s) = true := by
  unfold dueTick
  (try simp only [])
  repeat' first
      | with_reducible assumption | with_reducible apply wf_bump | with_reducible apply wf_threadReady
      | with_reducible apply wf_forEach | split | (intro _ _ _) | (simp only [storesWf_same])

theorem wf_delayTick (s : Block) (h : storesWf s = true) : storesWf (delayTick s) = true := by
  unfold delayTick
  (try simp only [])
  repeat' first
      | with_reducible assumption | with_reducible apply wf_deskSettle | with_reducible apply wf_dueTick
      | with_reducible apply wf_sliceTick | with_reducible apply wf_preemptAll | split | (intro _ _ _)
      | (simp only [storesWf_same])

theorem wf_thrdStat (t : TwinId) (st : Nat) (s : Block) (h : storesWf s = true) :
    storesWf (thrdStat t st s) = true := by
  unfold thrdStat
  (try simp only [])
  repeat' first
      | with_reducible assumption | with_reducible apply wf_upThrd | split
      | (intro w hw; simp only [twinWf, catWf, accWf, rackWf, deskWf, shelfWf, retWf, lardWf, sortWf, bankWf, officeWf, obsWf, bakeWf, thrdWf, relWf, arbWf, proofWf, pageWf, Bool.and_eq_true] at hw ⊢; simp [hw]; done)
      | (intro _ _ _) | (simp only [storesWf_same])

theorem wf_threadCreate (t : TwinId) (start : Bool) (s : Block) (h : storesWf s = true) :
    storesWf (threadCreate t start s) = true := by
  unfold threadCreate
  (try simp only [])
  repeat' first
      | with_reducible assumption | with_reducible apply wf_thrdStat | with_reducible apply wf_upThread
      | with_reducible apply wf_deskSettle | with_reducible apply wf_threadReady | split
      | (intro w hw; simp only [twinWf, catWf, accWf, rackWf, deskWf, shelfWf, retWf, lardWf, sortWf, bankWf, officeWf, obsWf, bakeWf, thrdWf, relWf, arbWf, proofWf, pageWf, Bool.and_eq_true] at hw ⊢; simp [hw]; done)
      | (intro _ _ _) | (simp only [storesWf_same])

theorem wf_threadDestroy (t : TwinId) (s : Block) (h : storesWf s = true) : storesWf (threadDestroy t s) = true := by
  unfold threadDestroy
  (try simp only [])
  repeat' first
      | with_reducible assumption | with_reducible apply wf_thrdStat | with_reducible apply wf_drivePreempt
      | with_reducible apply wf_upThrd | with_reducible apply wf_threadFree | split
      | (intro w hw; simp only [twinWf, catWf, accWf, rackWf, deskWf, shelfWf, retWf, lardWf, sortWf, bankWf, officeWf, obsWf, bakeWf, thrdWf, relWf, arbWf, proofWf, pageWf, Bool.and_eq_true] at hw ⊢; simp [hw]; done)
      | (intro _ _ _) | (simp only [storesWf_same])

theorem wf_threadSet (t : TwinId) (s : Block) (h : storesWf s = true) : storesWf (threadSet t s) = true := by
  unfold threadSet
  (try simp only [])
  repeat' first
      | with_reducible assumption | with_reducible apply wf_thrdStat | with_reducible apply wf_upThread
      | with_reducible apply wf_upCore | with_reducible apply wf_deskSettle | with_reducible apply wf_upThrd | split
      | (intro w hw; simp only [twinWf, catWf, accWf, rackWf, deskWf, shelfWf, retWf, lardWf, sortWf, bankWf, officeWf, obsWf, bakeWf, thrdWf, relWf, arbWf, proofWf, pageWf, Bool.and_eq_true] at hw ⊢; simp [hw]; done)
      | (intro _ _ _) | (simp only [storesWf_same])

theorem wf_threadCmdWake (t : TwinId) (s : Block) (h : storesWf s = true) : storesWf (threadCmdWake t s) = true := by
  unfold threadCmdWake
  (try simp only [])
  repeat' first
      | with_reducible assumption | with_reducible apply wf_thrdStat | with_reducible apply wf_deskSettle
      | with_reducible apply wf_wakeThread | split | (intro _ _ _) | (simp only [storesWf_same])

theorem wf_threadQuery (t : TwinId) (s : Block) (h : storesWf s = true) : storesWf (threadQuery t s) = true := by
  unfold threadQuery
  (try simp only [])
  repeat' first
      | with_reducible assumption | with_reducible apply wf_thrdStat | with_reducible apply wf_setReg | split
      | (intro _ _ _) | (simp only [storesWf_same])

theorem wf_coreRemove (c : Nat) (s : Block) (h : storesWf s = true) : storesWf (coreRemove c s) = true := by
  unfold coreRemove
  (try simp only [])
  repeat' first
      | with_reducible assumption | with_reducible apply wf_coreOut | with_reducible apply wf_drivePreempt | with_reducible apply wf_upCore | split
      | (intro w hw; simp only [twinWf, catWf, accWf, rackWf, deskWf, shelfWf, retWf, lardWf, sortWf, bankWf, officeWf, obsWf, bakeWf, thrdWf, relWf, arbWf, proofWf, pageWf, Bool.and_eq_true] at hw ⊢; simp [hw]; done)
      | (refine storesWf_arb_set _ _ h ?_; exact (storesWf_arb h :)) | (intro _ _ _) | (simp only [storesWf_same])

theorem wf_coreRestore (c : Nat) (s : Block) (h : storesWf s = true) :
    storesWf (coreRestore c s) = true := by
  unfold coreRestore
  (try simp only [])
  repeat' first
      | with_reducible assumption | with_reducible apply wf_upCore | split
      | (intro w hw; simp only [twinWf, catWf, accWf, rackWf, deskWf, shelfWf, retWf, lardWf, sortWf, bankWf, officeWf, obsWf, bakeWf, thrdWf, relWf, arbWf, proofWf, pageWf, Bool.and_eq_true] at hw ⊢; simp [hw]; done)
      | (intro _ _ _) | (simp only [storesWf_same]) | (simp only [id_eq])

theorem wf_resendAsks (t : TwinId) (s : Block) (h : storesWf s = true) :
    storesWf (resendAsks t s) = true := by
  unfold resendAsks
  (try simp only [])
  repeat' first
      | with_reducible assumption | with_reducible apply wf_deskSettle | with_reducible apply wf_forEach
      | with_reducible apply wf_upThrd | with_reducible apply wf_upCore | split
      | (intro w hw; simp only [twinWf, catWf, accWf, rackWf, deskWf, shelfWf, retWf, lardWf, sortWf, bankWf, officeWf, obsWf, bakeWf, thrdWf, relWf, arbWf, proofWf, pageWf, Bool.and_eq_true] at hw ⊢; simp [hw]; done)
      | (intro _ _ _) | (simp only [storesWf_same]) | (simp only [id_eq])

theorem wf_arbiterLose (t : TwinId) (s : Block) (h : storesWf s = true) : storesWf (arbiterLose t s) = true := by
  unfold arbiterLose
  simp only []
  apply wf_forEach
  · refine storesWf_arb_set _ _ ?_ ?_
    · repeat' first
        | with_reducible assumption | with_reducible apply wf_upThrd | with_reducible apply wf_drivePreempt
        | with_reducible apply wf_decideAsk | with_reducible apply wf_upCore | with_reducible apply wf_forEach
        | split
        | (intro w hw; simp only [twinWf, catWf, accWf, rackWf, deskWf, shelfWf, retWf, lardWf, sortWf, bankWf, officeWf, obsWf, bakeWf, thrdWf, relWf, arbWf, proofWf, pageWf, Bool.and_eq_true] at hw ⊢; simp [hw]; done)
        | (intro _ _ _) | (simp only [storesWf_same])
    · have := storesWf_arb h
      simp only [arbWf, Bool.and_eq_true] at this
      cases t
      · exact (by simp only [arbWf, Bool.and_eq_true]; exact ⟨⟨this.1.1, mapWf_nil _⟩, this.2⟩)
      · exact (by simp only [arbWf, Bool.and_eq_true]; exact ⟨⟨this.1.1, this.1.2⟩, mapWf_nil _⟩)
  · intro c s hs
    repeat' first
        | with_reducible assumption | with_reducible apply wf_upThrd | with_reducible apply wf_drivePreempt
        | with_reducible apply wf_decideAsk | with_reducible apply wf_upCore | with_reducible apply wf_forEach
        | split
        | (intro w hw; simp only [twinWf, catWf, accWf, rackWf, deskWf, shelfWf, retWf, lardWf, sortWf, bankWf, officeWf, obsWf, bakeWf, thrdWf, relWf, arbWf, proofWf, pageWf, Bool.and_eq_true] at hw ⊢; simp [hw]; done)
        | (intro _ _ _) | (simp only [storesWf_same])

theorem wf_upProof (f : Proofer → Proofer) (s : Block) (h : storesWf s = true)
    (hf : ∀ w, proofWf w = true → proofWf (f w) = true) : storesWf (upProof f s) = true :=
  storesWf_proof_set _ _ h (hf _ (storesWf_proof h))

theorem wf_countPwr (off n : Nat) (s : Block) (h : storesWf s = true) :
    storesWf (countPwr off n s) = true := by
  unfold countPwr
  (try simp only [])
  repeat' first
      | with_reducible assumption | with_reducible apply wf_upProof | split
      | (intro w hw; simp only [twinWf, catWf, accWf, rackWf, deskWf, shelfWf, retWf, lardWf, sortWf, bankWf, officeWf, obsWf, bakeWf, thrdWf, relWf, arbWf, proofWf, pageWf, Bool.and_eq_true] at hw ⊢; simp [hw]; done)
      | (intro _ _ _) | (simp only [storesWf_same]) | (simp only [id_eq])

theorem wf_pwrTick (s : Block) (h : storesWf s = true) :
    storesWf (pwrTick s) = true := by
  unfold pwrTick
  (try simp only [])
  repeat' first
      | with_reducible assumption | with_reducible apply wf_forEach | with_reducible apply wf_bump
      | with_reducible apply wf_upProof | split
      | (intro w hw; simp only [twinWf, catWf, accWf, rackWf, deskWf, shelfWf, retWf, lardWf, sortWf, bankWf, officeWf, obsWf, bakeWf, thrdWf, relWf, arbWf, proofWf, pageWf, Bool.and_eq_true] at hw ⊢; simp [hw]; done)
      | (intro _ _ _) | (simp only [storesWf_same]) | (simp only [id_eq])

theorem wf_setHold (g : Nat) (on : Bool) (s : Block) (h : storesWf s = true) : storesWf (setHold g on s) = true := by
  exact storesWf_holds_set _ _ h (mapWf_mapSet _ _ _ _ (storesWf_holds h))

theorem wf_driveKept (g : Nat) (s : Block) (h : storesWf s = true) :
    storesWf (driveKept g s) = true := by
  unfold driveKept
  (try simp only [])
  repeat' first
      | with_reducible assumption | with_reducible apply wf_forEach | with_reducible apply wf_grantAt
      | with_reducible apply wf_upTw | split
      | (intro w hw; simp only [twinWf, catWf, accWf, rackWf, deskWf, shelfWf, retWf, lardWf, sortWf, bankWf, officeWf, obsWf, bakeWf, thrdWf, relWf, arbWf, proofWf, pageWf, Bool.and_eq_true] at hw ⊢; simp [hw]; done)
      | (intro _ _ _) | (simp only [storesWf_same]) | (simp only [id_eq])

theorem wf_releaseHold (g : Nat) (s : Block) (h : storesWf s = true) :
    storesWf (releaseHold g s) = true := by
  unfold releaseHold
  (try simp only [])
  repeat' first
      | with_reducible assumption | with_reducible apply wf_driveKept | with_reducible apply wf_setHold
      | with_reducible apply wf_forEach | with_reducible apply wf_resample | split
      | (intro w hw; simp only [twinWf, catWf, accWf, rackWf, deskWf, shelfWf, retWf, lardWf, sortWf, bankWf, officeWf, obsWf, bakeWf, thrdWf, relWf, arbWf, proofWf, pageWf, Bool.and_eq_true] at hw ⊢; simp [hw]; done)
      | (intro _ _ _) | (simp only [storesWf_same]) | (simp only [id_eq])

theorem wf_withdrawClaims (d : Nat) (s : Block) (h : storesWf s = true) :
    storesWf (withdrawClaims d s) = true := by
  unfold withdrawClaims
  (try simp only [])
  repeat' first
      | with_reducible assumption | with_reducible apply wf_forEach | with_reducible apply wf_upEng
      | with_reducible apply wf_countPwr | with_reducible apply foldl_wf | with_reducible apply foldl_snd_wf | split
      | (intro w hw; simp only [twinWf, catWf, accWf, rackWf, deskWf, shelfWf, retWf, lardWf, sortWf, bankWf, officeWf, obsWf, bakeWf, thrdWf, relWf, arbWf, proofWf, pageWf, Bool.and_eq_true] at hw ⊢; simp [hw]; done)
      | (intro _ _ _) | (simp only [storesWf_same]) | (simp only [id_eq])

theorem wf_openPort (d : Nat) (s : Block) (h : storesWf s = true) :
    storesWf (openPort d s) = true := by
  unfold openPort
  (try simp only [])
  repeat' first
      | with_reducible assumption | with_reducible apply wf_setHold | with_reducible apply wf_releaseHold | split
      | (intro w hw; simp only [twinWf, catWf, accWf, rackWf, deskWf, shelfWf, retWf, lardWf, sortWf, bankWf, officeWf, obsWf, bakeWf, thrdWf, relWf, arbWf, proofWf, pageWf, Bool.and_eq_true] at hw ⊢; simp [hw]; done)
      | (intro _ _ _) | (simp only [storesWf_same]) | (simp only [id_eq])

theorem wf_bankTickAt (want : SMap Nat) (c : Nat) (s : Block) (h : storesWf s = true) :
    storesWf (bankTickAt want c s) = true := by
  unfold bankTickAt
  (try simp only [])
  repeat' first
      | with_reducible assumption | with_reducible apply wf_forEach | with_reducible apply wf_emit
      | with_reducible apply wf_upProof | with_reducible apply wf_openPort | with_reducible apply foldl_wf
      | with_reducible apply foldl_snd_wf | split
      | (intro w hw; simp only [twinWf, catWf, accWf, rackWf, deskWf, shelfWf, retWf, lardWf, sortWf, bankWf, officeWf, obsWf, bakeWf, thrdWf, relWf, arbWf, proofWf, pageWf, Bool.and_eq_true] at hw ⊢; simp [hw]; done)
      | (intro _ _ _) | (simp only [storesWf_same]) | (simp only [id_eq])

theorem wf_bankPowerTick (s : Block) (h : storesWf s = true) : storesWf (bankPowerTick s) = true := by
  unfold bankPowerTick
  (try simp only [])
  repeat' first
      | with_reducible assumption | with_reducible apply wf_bankTickAt | with_reducible apply wf_forEach | split
      | (intro _ _ _) | (simp only [storesWf_same])

theorem wf_bankPowerGood (c : Nat) (b : Nat) (s : Block) (h : storesWf s = true) :
    storesWf (bankPowerGood c b s) = true := by
  unfold bankPowerGood
  (try simp only [])
  repeat' first
      | with_reducible assumption | with_reducible apply wf_openPort
      | (intro w hw; simp only [proofWf, orMask, Bool.and_eq_true] at hw ⊢; exact ⟨⟨⟨hw.1.1.1, mapWf_mapSet _ _ _ _ hw.1.1.2⟩, mapWf_mapSet _ _ _ _ hw.1.2⟩, hw.2⟩)
      | with_reducible apply wf_upProof | with_reducible apply wf_releaseHold | split
      | (intro w hw; simp only [twinWf, catWf, accWf, rackWf, deskWf, shelfWf, retWf, lardWf, sortWf, bankWf, officeWf, obsWf, bakeWf, thrdWf, relWf, arbWf, proofWf, pageWf, Bool.and_eq_true] at hw ⊢; simp [hw]; done)
      | (intro _ _ _) | (simp only [storesWf_same])

theorem wf_portService (p : Nat) (s : Block) (h : storesWf s = true) : storesWf (portService p s) = true := by
  unfold portService
  (try simp only [])
  repeat' first
      | with_reducible assumption | with_reducible apply wf_restoreEngine | with_reducible apply wf_upDom
      | with_reducible apply wf_forEach | split
      | (intro w hw; simp only [twinWf, catWf, accWf, rackWf, deskWf, shelfWf, retWf, lardWf, sortWf, bankWf, officeWf, obsWf, bakeWf, thrdWf, relWf, arbWf, proofWf, pageWf, Bool.and_eq_true] at hw ⊢; simp [hw]; done)
      | (intro _ _ _) | (simp only [storesWf_same])

theorem wf_startDom (d : Nat) (gated : Bool) (s : Block) (h : storesWf s = true) :
    storesWf (startDom d gated s) = true := by
  unfold startDom
  (try simp only [])
  repeat' first
      | with_reducible assumption | with_reducible apply wf_upDom | with_reducible apply wf_countPwr
      | with_reducible apply wf_emit | split
      | (intro w hw; simp only [twinWf, catWf, accWf, rackWf, deskWf, shelfWf, retWf, lardWf, sortWf, bankWf, officeWf, obsWf, bakeWf, thrdWf, relWf, arbWf, proofWf, pageWf, Bool.and_eq_true] at hw ⊢; simp [hw]; done)
      | (intro _ _ _) | (simp only [storesWf_same]) | (simp only [id_eq])

theorem wf_wakeDom (d : Nat) (gated : Bool) (s : Block) (h : storesWf s = true) :
    storesWf (wakeDom d gated s) = true := by
  unfold wakeDom
  (try simp only [])
  repeat' first
      | with_reducible assumption | with_reducible apply wf_startDom | with_reducible apply wf_countPwr | split
      | (intro w hw; simp only [twinWf, catWf, accWf, rackWf, deskWf, shelfWf, retWf, lardWf, sortWf, bankWf, officeWf, obsWf, bakeWf, thrdWf, relWf, arbWf, proofWf, pageWf, Bool.and_eq_true] at hw ⊢; simp [hw]; done)
      | (intro _ _ _) | (simp only [storesWf_same]) | (simp only [id_eq])

theorem wf_toRun (d : Nat) (s : Block) (h : storesWf s = true) :
    storesWf (toRun d s) = true := by
  unfold toRun
  (try simp only [])
  repeat' first
      | with_reducible assumption | with_reducible apply wf_openPort | with_reducible apply wf_upDom | split
      | (intro w hw; simp only [twinWf, catWf, accWf, rackWf, deskWf, shelfWf, retWf, lardWf, sortWf, bankWf, officeWf, obsWf, bakeWf, thrdWf, relWf, arbWf, proofWf, pageWf, Bool.and_eq_true] at hw ⊢; simp [hw]; done)
      | (intro _ _ _) | (simp only [storesWf_same]) | (simp only [id_eq])

theorem wf_domRun (d : Nat) (s : Block) (h : storesWf s = true) :
    storesWf (domRun d s) = true := by
  unfold domRun
  (try simp only [])
  repeat' first
      | with_reducible assumption | with_reducible apply wf_portService | with_reducible apply wf_toRun | split
      | (intro w hw; simp only [twinWf, catWf, accWf, rackWf, deskWf, shelfWf, retWf, lardWf, sortWf, bankWf, officeWf, obsWf, bakeWf, thrdWf, relWf, arbWf, proofWf, pageWf, Bool.and_eq_true] at hw ⊢; simp [hw]; done)
      | (intro _ _ _) | (simp only [storesWf_same]) | (simp only [id_eq])

theorem wf_stopClock (d : Nat) (s : Block) (h : storesWf s = true) :
    storesWf (stopClock d s) = true := by
  unfold stopClock
  (try simp only [])
  repeat' first
      | with_reducible assumption | with_reducible apply wf_withdrawClaims | with_reducible apply wf_upDom
      | with_reducible apply wf_upFlush | with_reducible apply wf_emit | with_reducible apply wf_countPwr | split
      | (intro w hw; simp only [twinWf, catWf, accWf, rackWf, deskWf, shelfWf, retWf, lardWf, sortWf, bankWf, officeWf, obsWf, bakeWf, thrdWf, relWf, arbWf, proofWf, pageWf, Bool.and_eq_true] at hw ⊢; simp [hw]; done)
      | (intro _ _ _) | (simp only [storesWf_same]) | (simp only [id_eq])

theorem wf_tryStop (d : Nat) (s : Block) (h : storesWf s = true) :
    storesWf (tryStop d s) = true := by
  unfold tryStop
  (try simp only [])
  repeat' first
      | with_reducible assumption | with_reducible apply wf_stopClock | split
      | (intro w hw; simp only [twinWf, catWf, accWf, rackWf, deskWf, shelfWf, retWf, lardWf, sortWf, bankWf, officeWf, obsWf, bakeWf, thrdWf, relWf, arbWf, proofWf, pageWf, Bool.and_eq_true] at hw ⊢; simp [hw]; done)
      | (intro _ _ _) | (simp only [storesWf_same]) | (simp only [id_eq])

theorem wf_domTick (d : Nat) (s : Block) (h : storesWf s = true) :
    storesWf (domTick d s) = true := by
  unfold domTick
  (try simp only [])
  repeat' first
      | with_reducible assumption | with_reducible apply wf_upDom | with_reducible apply wf_domRun
      | with_reducible apply wf_wakeDom | with_reducible apply wf_tryStop | split
      | (intro w hw; simp only [twinWf, catWf, accWf, rackWf, deskWf, shelfWf, retWf, lardWf, sortWf, bankWf, officeWf, obsWf, bakeWf, thrdWf, relWf, arbWf, proofWf, pageWf, Bool.and_eq_true] at hw ⊢; simp [hw]; done)
      | (intro _ _ _) | (simp only [storesWf_same]) | (simp only [id_eq])

theorem wf_domainTick (s : Block) (h : storesWf s = true) : storesWf (domainTick s) = true := by
  unfold domainTick
  (try simp only [])
  repeat' first
      | with_reducible assumption | with_reducible apply wf_domTick | with_reducible apply wf_forEach | split
      | (intro _ _ _) | (simp only [storesWf_same])

theorem wf_idleExpiry (d : Nat) (s : Block) (h : storesWf s = true) : storesWf (idleExpiry d s) = true := by
  unfold idleExpiry
  (try simp only [])
  repeat' first
      | with_reducible assumption | with_reducible apply wf_upDom | split
      | (intro w hw; simp only [twinWf, catWf, accWf, rackWf, deskWf, shelfWf, retWf, lardWf, sortWf, bankWf, officeWf, obsWf, bakeWf, thrdWf, relWf, arbWf, proofWf, pageWf, Bool.and_eq_true] at hw ⊢; simp [hw]; done)
      | (intro _ _ _) | (simp only [storesWf_same])

theorem wf_holdAt (d : Nat) (s : Block) (h : storesWf s = true) :
    storesWf (holdAt d s) = true := by
  unfold holdAt
  (try simp only [])
  repeat' first
      | with_reducible assumption | with_reducible apply wf_openPort | with_reducible apply wf_upDom
      | with_reducible apply wf_withdrawClaims | with_reducible apply wf_setHold | split
      | (intro w hw; simp only [twinWf, catWf, accWf, rackWf, deskWf, shelfWf, retWf, lardWf, sortWf, bankWf, officeWf, obsWf, bakeWf, thrdWf, relWf, arbWf, proofWf, pageWf, Bool.and_eq_true] at hw ⊢; simp [hw]; done)
      | (intro _ _ _) | (simp only [storesWf_same]) | (simp only [id_eq])

theorem wf_abortAt (d : Nat) (s : Block) (h : storesWf s = true) :
    storesWf (abortAt d s) = true := by
  unfold abortAt
  (try simp only [])
  repeat' first
      | with_reducible assumption | with_reducible apply wf_countPwr | with_reducible apply wf_domRun | split
      | (intro w hw; simp only [twinWf, catWf, accWf, rackWf, deskWf, shelfWf, retWf, lardWf, sortWf, bankWf, officeWf, obsWf, bakeWf, thrdWf, relWf, arbWf, proofWf, pageWf, Bool.and_eq_true] at hw ⊢; simp [hw]; done)
      | (intro _ _ _) | (simp only [storesWf_same]) | (simp only [id_eq])

theorem wf_withdrawnAt (d : Nat) (s : Block) (h : storesWf s = true) : storesWf (withdrawnAt d s) = true := by
  unfold withdrawnAt
  (try simp only [])
  repeat' first
      | with_reducible assumption | with_reducible apply wf_upDom | with_reducible apply wf_stopClock | split
      | (intro w hw; simp only [twinWf, catWf, accWf, rackWf, deskWf, shelfWf, retWf, lardWf, sortWf, bankWf, officeWf, obsWf, bakeWf, thrdWf, relWf, arbWf, proofWf, pageWf, Bool.and_eq_true] at hw ⊢; simp [hw]; done)
      | (intro _ _ _) | (simp only [storesWf_same])

theorem wf_obEmpty (d : Nat) (s : Block) (h : storesWf s = true) :
    storesWf (obEmpty d s) = true := by
  unfold obEmpty
  (try simp only [])
  repeat' first
      | with_reducible assumption | with_reducible apply wf_tryStop | with_reducible apply wf_upDom | split
      | (intro w hw; simp only [twinWf, catWf, accWf, rackWf, deskWf, shelfWf, retWf, lardWf, sortWf, bankWf, officeWf, obsWf, bakeWf, thrdWf, relWf, arbWf, proofWf, pageWf, Bool.and_eq_true] at hw ⊢; simp [hw]; done)
      | (intro _ _ _) | (simp only [storesWf_same]) | (simp only [id_eq])

theorem wf_stopTimeout (d : Nat) (s : Block) (h : storesWf s = true) :
    storesWf (stopTimeout d s) = true := by
  unfold stopTimeout
  (try simp only [])
  repeat' first
      | with_reducible assumption | with_reducible apply wf_obEmpty | with_reducible apply wf_toRun
      | with_reducible apply wf_forEach | with_reducible apply wf_removeEngine | with_reducible apply wf_setErr | split
      | (intro w hw; simp only [twinWf, catWf, accWf, rackWf, deskWf, shelfWf, retWf, lardWf, sortWf, bankWf, officeWf, obsWf, bakeWf, thrdWf, relWf, arbWf, proofWf, pageWf, Bool.and_eq_true] at hw ⊢; simp [hw]; done)
      | (intro _ _ _) | (simp only [storesWf_same]) | (simp only [id_eq])

theorem wf_gateExpiry (d : Nat) (s : Block) (h : storesWf s = true) :
    storesWf (gateExpiry d s) = true := by
  unfold gateExpiry
  (try simp only [])
  repeat' first
      | with_reducible assumption | with_reducible apply wf_emit | with_reducible apply wf_countPwr
      | with_reducible apply wf_upDom | split
      | (intro w hw; simp only [twinWf, catWf, accWf, rackWf, deskWf, shelfWf, retWf, lardWf, sortWf, bankWf, officeWf, obsWf, bakeWf, thrdWf, relWf, arbWf, proofWf, pageWf, Bool.and_eq_true] at hw ⊢; simp [hw]; done)
      | (intro _ _ _) | (simp only [storesWf_same]) | (simp only [id_eq])

theorem wf_accessWake (c : Nat) (s : Block) (h : storesWf s = true) :
    storesWf (accessWake c s) = true := by
  unfold accessWake
  (try simp only [])
  repeat' first
      | with_reducible assumption | with_reducible apply wf_upDom | split
      | (intro w hw; simp only [twinWf, catWf, accWf, rackWf, deskWf, shelfWf, retWf, lardWf, sortWf, bankWf, officeWf, obsWf, bakeWf, thrdWf, relWf, arbWf, proofWf, pageWf, Bool.and_eq_true] at hw ⊢; simp [hw]; done)
      | (intro _ _ _) | (simp only [storesWf_same]) | (simp only [id_eq])

theorem wf_clkOk (d : Nat) (s : Block) (h : storesWf s = true) : storesWf (clkOk d s) = true := by
  unfold clkOk
  (try simp only [])
  repeat' first
      | with_reducible assumption | with_reducible apply wf_upDom | split
      | (intro w hw; simp only [twinWf, catWf, accWf, rackWf, deskWf, shelfWf, retWf, lardWf, sortWf, bankWf, officeWf, obsWf, bakeWf, thrdWf, relWf, arbWf, proofWf, pageWf, Bool.and_eq_true] at hw ⊢; simp [hw]; done)
      | (intro _ _ _) | (simp only [storesWf_same])

theorem wf_cluCtl (v : Nat) (s : Block) (h : storesWf s = true) :
    storesWf (cluCtl v s) = true := by
  unfold cluCtl
  (try simp only [])
  repeat' first
      | with_reducible assumption | with_reducible apply wf_upDom | split
      | (intro w hw; simp only [twinWf, catWf, accWf, rackWf, deskWf, shelfWf, retWf, lardWf, sortWf, bankWf, officeWf, obsWf, bakeWf, thrdWf, relWf, arbWf, proofWf, pageWf, Bool.and_eq_true] at hw ⊢; simp [hw]; done)
      | (intro _ _ _) | (simp only [storesWf_same]) | (simp only [id_eq])

theorem wf_clockStretch (d : Nat) (s : Block) (h : storesWf s = true) : storesWf (clockStretch d s) = true := by
  unfold clockStretch
  (try simp only [])
  repeat' first
      | with_reducible assumption | with_reducible apply wf_upDom | split
      | (intro w hw; simp only [twinWf, catWf, accWf, rackWf, deskWf, shelfWf, retWf, lardWf, sortWf, bankWf, officeWf, obsWf, bakeWf, thrdWf, relWf, arbWf, proofWf, pageWf, Bool.and_eq_true] at hw ⊢; simp [hw]; done)
      | (intro _ _ _) | (simp only [storesWf_same])

theorem wf_sendRails (rs : List Rail) (mv : Nat) (s : Block) (h : storesWf s = true) :
    storesWf (sendRails rs mv s) = true := by
  unfold sendRails
  (try simp only [])
  repeat' first
      | with_reducible assumption | with_reducible apply wf_emit | with_reducible apply wf_forEach | split
      | (intro _ _ _) | (simp only [storesWf_same])

theorem wf_switchDown (target : Nat) (s : Block) (h : storesWf s = true) :
    storesWf (switchDown target s) = true := by
  unfold switchDown
  (try simp only [])
  repeat' first
      | with_reducible assumption | with_reducible apply wf_emit | with_reducible apply wf_upProof | split
      | (intro w hw; simp only [twinWf, catWf, accWf, rackWf, deskWf, shelfWf, retWf, lardWf, sortWf, bankWf, officeWf, obsWf, bakeWf, thrdWf, relWf, arbWf, proofWf, pageWf, Bool.and_eq_true] at hw ⊢; simp [hw]; done)
      | (intro _ _ _) | (simp only [storesWf_same]) | (simp only [id_eq])

theorem wf_startChange (target : Nat) (s : Block) (h : storesWf s = true) :
    storesWf (startChange target s) = true := by
  unfold startChange
  (try simp only [])
  repeat' first
      | with_reducible assumption | with_reducible apply wf_switchDown | with_reducible apply wf_countPwr
      | with_reducible apply wf_sendRails | with_reducible apply wf_upProof | split
      | (intro w hw; simp only [twinWf, catWf, accWf, rackWf, deskWf, shelfWf, retWf, lardWf, sortWf, bankWf, officeWf, obsWf, bakeWf, thrdWf, relWf, arbWf, proofWf, pageWf, Bool.and_eq_true] at hw ⊢; simp [hw]; done)
      | (intro _ _ _) | (simp only [storesWf_same]) | (simp only [id_eq])

theorem wf_stepTop (s : Block) (h : storesWf s = true) : storesWf (stepTop s) = true := by
  unfold stepTop
  (try simp only [])
  repeat' first
      | with_reducible assumption | with_reducible apply wf_startChange | split | (intro _ _ _)
      | (simp only [storesWf_same])

theorem wf_pmbus (cmd : Nat) (s : Block) (h : storesWf s = true) :
    storesWf (pmbus cmd s) = true := by
  unfold pmbus
  (try simp only [])
  repeat' first
      | with_reducible assumption | with_reducible apply wf_emit | split
      | (intro w hw; simp only [twinWf, catWf, accWf, rackWf, deskWf, shelfWf, retWf, lardWf, sortWf, bankWf, officeWf, obsWf, bakeWf, thrdWf, relWf, arbWf, proofWf, pageWf, Bool.and_eq_true] at hw ⊢; simp [hw]; done)
      | (intro _ _ _) | (simp only [storesWf_same]) | (simp only [id_eq])

theorem wf_capPeriod (s : Block) (h : storesWf s = true) :
    storesWf (capPeriod s) = true := by
  unfold capPeriod
  (try simp only [])
  repeat' first
      | with_reducible assumption | with_reducible apply wf_upProof | with_reducible apply wf_stepTop
      | with_reducible apply wf_pmbus | split
      | (intro w hw; simp only [twinWf, catWf, accWf, rackWf, deskWf, shelfWf, retWf, lardWf, sortWf, bankWf, officeWf, obsWf, bakeWf, thrdWf, relWf, arbWf, proofWf, pageWf, Bool.and_eq_true] at hw ⊢; simp [hw]; done)
      | (intro _ _ _) | (simp only [storesWf_same]) | (simp only [id_eq])

theorem wf_pmbusReading (w1 : Nat) (w2 : Nat) (s : Block) (h : storesWf s = true) :
    storesWf (pmbusReading w1 w2 s) = true := by
  unfold pmbusReading
  (try simp only [])
  repeat' first
      | with_reducible assumption | with_reducible apply wf_upProof | with_reducible apply wf_startChange | split
      | (intro w hw; simp only [twinWf, catWf, accWf, rackWf, deskWf, shelfWf, retWf, lardWf, sortWf, bankWf, officeWf, obsWf, bakeWf, thrdWf, relWf, arbWf, proofWf, pageWf, Bool.and_eq_true] at hw ⊢; simp [hw]; done)
      | (intro _ _ _) | (simp only [storesWf_same])

theorem wf_pmbusLost (s : Block) (h : storesWf s = true) :
    storesWf (pmbusLost s) = true := by
  unfold pmbusLost
  (try simp only [])
  repeat' first
      | with_reducible assumption | with_reducible apply wf_countPwr | with_reducible apply wf_upProof
      | with_reducible apply wf_setErr | with_reducible apply wf_startChange | split
      | (intro w hw; simp only [twinWf, catWf, accWf, rackWf, deskWf, shelfWf, retWf, lardWf, sortWf, bankWf, officeWf, obsWf, bakeWf, thrdWf, relWf, arbWf, proofWf, pageWf, Bool.and_eq_true] at hw ⊢; simp [hw]; done)
      | (intro _ _ _) | (simp only [storesWf_same]) | (simp only [id_eq])

theorem wf_pmbAlert (w : Nat) (s : Block) (h : storesWf s = true) :
    storesWf (pmbAlert w s) = true := by
  unfold pmbAlert
  (try simp only [])
  repeat' first
      | with_reducible assumption | with_reducible apply wf_pmbus | with_reducible apply wf_upProof
      | with_reducible apply wf_startChange | with_reducible apply wf_setErr | split
      | (intro w hw; simp only [twinWf, catWf, accWf, rackWf, deskWf, shelfWf, retWf, lardWf, sortWf, bankWf, officeWf, obsWf, bakeWf, thrdWf, relWf, arbWf, proofWf, pageWf, Bool.and_eq_true] at hw ⊢; simp [hw]; done)
      | (intro _ _ _) | (simp only [storesWf_same]) | (simp only [id_eq])

theorem wf_clockSwitched (s : Block) (h : storesWf s = true) :
    storesWf (clockSwitched s) = true := by
  unfold clockSwitched
  (try simp only [])
  repeat' first
      | with_reducible assumption | with_reducible apply wf_countPwr | with_reducible apply wf_upProof
      | with_reducible apply wf_sendRails | split
      | (intro w hw; simp only [twinWf, catWf, accWf, rackWf, deskWf, shelfWf, retWf, lardWf, sortWf, bankWf, officeWf, obsWf, bakeWf, thrdWf, relWf, arbWf, proofWf, pageWf, Bool.and_eq_true] at hw ⊢; simp [hw]; done)
      | (intro _ _ _) | (simp only [storesWf_same]) | (simp only [id_eq])

theorem wf_railsDone (c : StepChange) (s : Block) (h : storesWf s = true) : storesWf (railsDone c s) = true := by
  unfold railsDone
  (try simp only [])
  repeat' first
      | with_reducible assumption | with_reducible apply wf_upProof | split
      | (intro w hw; simp only [twinWf, catWf, accWf, rackWf, deskWf, shelfWf, retWf, lardWf, sortWf, bankWf, officeWf, obsWf, bakeWf, thrdWf, relWf, arbWf, proofWf, pageWf, Bool.and_eq_true] at hw ⊢; simp [hw]; done)
      | (intro _ _ _) | (simp only [storesWf_same])

theorem wf_avsAck (r : Rail) (s : Block) (h : storesWf s = true) :
    storesWf (avsAck r s) = true := by
  unfold avsAck
  (try simp only [])
  repeat' first
      | with_reducible assumption | with_reducible apply wf_upProof | with_reducible apply wf_railsDone | split
      | (intro w hw; simp only [twinWf, catWf, accWf, rackWf, deskWf, shelfWf, retWf, lardWf, sortWf, bankWf, officeWf, obsWf, bakeWf, thrdWf, relWf, arbWf, proofWf, pageWf, Bool.and_eq_true] at hw ⊢; simp [hw]; done)
      | (intro _ _ _) | (simp only [storesWf_same]) | (simp only [id_eq])

theorem wf_avsFail (r : Rail) (s : Block) (h : storesWf s = true) :
    storesWf (avsFail r s) = true := by
  unfold avsFail
  (try simp only [])
  repeat' first
      | with_reducible assumption | with_reducible apply wf_setErr | with_reducible apply wf_emit
      | with_reducible apply wf_upProof | with_reducible apply wf_railsDone | split
      | (intro w hw; simp only [twinWf, catWf, accWf, rackWf, deskWf, shelfWf, retWf, lardWf, sortWf, bankWf, officeWf, obsWf, bakeWf, thrdWf, relWf, arbWf, proofWf, pageWf, Bool.and_eq_true] at hw ⊢; simp [hw]; done)
      | (intro _ _ _) | (simp only [storesWf_same]) | (simp only [id_eq])

theorem wf_settleExpiry (s : Block) (h : storesWf s = true) : storesWf (settleExpiry s) = true := by
  unfold settleExpiry
  (try simp only [])
  repeat' first
      | with_reducible assumption | with_reducible apply wf_upProof | with_reducible apply wf_emit | split
      | (intro w hw; simp only [twinWf, catWf, accWf, rackWf, deskWf, shelfWf, retWf, lardWf, sortWf, bankWf, officeWf, obsWf, bakeWf, thrdWf, relWf, arbWf, proofWf, pageWf, Bool.and_eq_true] at hw ⊢; simp [hw]; done)
      | (intro _ _ _) | (simp only [storesWf_same])

theorem wf_pwrEnable (v : Bool) (s : Block) (h : storesWf s = true) : storesWf (pwrEnable v s) = true := by
  unfold pwrEnable
  (try simp only [])
  repeat' first
      | with_reducible assumption | with_reducible apply wf_upPage | with_reducible apply wf_sendRails
      | with_reducible apply wf_emit | with_reducible apply wf_upProof | with_reducible apply wf_stepTop | split
      | (intro w hw; simp only [twinWf, catWf, accWf, rackWf, deskWf, shelfWf, retWf, lardWf, sortWf, bankWf, officeWf, obsWf, bakeWf, thrdWf, relWf, arbWf, proofWf, pageWf, Bool.and_eq_true] at hw ⊢; simp [hw]; done)
      | (intro _ _ _) | (simp only [storesWf_same])

theorem wf_domainGroupStart (s : Block) (h : storesWf s = true) : storesWf (domainGroupStart s) = true := by
  unfold domainGroupStart
  (try simp only [])
  repeat' first
      | with_reducible assumption | with_reducible apply wf_startDom | with_reducible apply wf_upProof
      | with_reducible apply wf_forEach | split
      | (intro w hw; simp only [twinWf, catWf, accWf, rackWf, deskWf, shelfWf, retWf, lardWf, sortWf, bankWf, officeWf, obsWf, bakeWf, thrdWf, relWf, arbWf, proofWf, pageWf, Bool.and_eq_true] at hw ⊢; simp [hw]; done)
      | (intro _ _ _) | (simp only [storesWf_same])

theorem wf_portReady (p : Nat) (s : Block) (h : storesWf s = true) : storesWf (portReady p s) = true := by
  unfold portReady
  (try simp only [])
  repeat' first
      | with_reducible assumption | with_reducible apply wf_upDom | with_reducible apply wf_portService | split
      | (intro w hw; simp only [twinWf, catWf, accWf, rackWf, deskWf, shelfWf, retWf, lardWf, sortWf, bankWf, officeWf, obsWf, bakeWf, thrdWf, relWf, arbWf, proofWf, pageWf, Bool.and_eq_true] at hw ⊢; simp [hw]; done)
      | (intro _ _ _) | (simp only [storesWf_same])

theorem wf_gateDom (d : Nat) (s : Block) (h : storesWf s = true) :
    storesWf (gateDom d s) = true := by
  unfold gateDom
  (try simp only [])
  repeat' first
      | with_reducible assumption | with_reducible apply wf_upDom | with_reducible apply wf_clkOk
      | with_reducible apply wf_obEmpty | with_reducible apply wf_emit | with_reducible apply wf_countPwr | split
      | (intro w hw; simp only [twinWf, catWf, accWf, rackWf, deskWf, shelfWf, retWf, lardWf, sortWf, bankWf, officeWf, obsWf, bakeWf, thrdWf, relWf, arbWf, proofWf, pageWf, Bool.and_eq_true] at hw ⊢; simp [hw]; done)
      | (intro _ _ _) | (simp only [storesWf_same]) | (simp only [id_eq])

theorem wf_blockGate (s : Block) (h : storesWf s = true) :
    storesWf (blockGate s) = true := by
  unfold blockGate
  (try simp only [])
  repeat' first
      | with_reducible assumption | with_reducible apply wf_setErr | with_reducible apply wf_upProof
      | with_reducible apply wf_tallyGate | with_reducible apply wf_forEach | with_reducible apply wf_gateDom
      | with_reducible apply wf_emit | split
      | (intro w hw; simp only [twinWf, catWf, accWf, rackWf, deskWf, shelfWf, retWf, lardWf, sortWf, bankWf, officeWf, obsWf, bakeWf, thrdWf, relWf, arbWf, proofWf, pageWf, Bool.and_eq_true] at hw ⊢; simp [hw]; done)
      | (intro _ _ _) | (simp only [storesWf_same]) | (simp only [id_eq])

theorem wf_zeroWord (t : TwinId) (g : Nat) (w : Nat) (s : Block) (h : storesWf s = true) :
    storesWf (zeroWord t g w s) = true := by
  unfold zeroWord
  (try simp only [])
  repeat' first
      | with_reducible assumption | with_reducible apply wf_upThread | with_reducible apply wf_upNode | with_reducible apply wf_upTw
      | with_reducible apply wf_upShard | with_reducible apply wf_setTube | with_reducible apply wf_setBowl
      | with_reducible apply wf_setTally | split
      | (intro w hw; simp only [twinWf, catWf, accWf, rackWf, deskWf, shelfWf, retWf, lardWf, sortWf, bankWf, officeWf, obsWf, bakeWf, thrdWf, relWf, arbWf, proofWf, pageWf, Bool.and_eq_true] at hw ⊢; simp [hw]; done)
      | exact storesWf_fmt_set _ _ h (mapWf_mapSet _ _ _ _ (storesWf_fmt h)) | (intro _ _ _)
      | (simp only [storesWf_same])

theorem wf_counterLost (t : TwinId) (w : Nat) (s : Block) (h : storesWf s = true) :
    storesWf (counterLost t w s) = true := by
  unfold counterLost
  (try simp only [])
  repeat' first
      | with_reducible assumption | with_reducible apply wf_upPage | with_reducible apply wf_upTw | split
      | (intro w hw; simp only [twinWf, catWf, accWf, rackWf, deskWf, shelfWf, retWf, lardWf, sortWf, bankWf, officeWf, obsWf, bakeWf, thrdWf, relWf, arbWf, proofWf, pageWf, Bool.and_eq_true] at hw ⊢; simp [hw]; done)
      | (intro _ _ _) | (simp only [storesWf_same]) | (simp only [id_eq])

theorem wf_traceLost (t : TwinId) (w : Nat) (s : Block) (h : storesWf s = true) :
    storesWf (traceLost t w s) = true := by
  unfold traceLost
  (try simp only [])
  repeat' first
      | with_reducible assumption | with_reducible apply wf_stageLost | with_reducible apply wf_bump
      | with_reducible apply wf_upObs | split
      | (intro w hw; simp only [twinWf, catWf, accWf, rackWf, deskWf, shelfWf, retWf, lardWf, sortWf, bankWf, officeWf, obsWf, bakeWf, thrdWf, relWf, arbWf, proofWf, pageWf, Bool.and_eq_true] at hw ⊢; simp [hw]; done)
      | (intro _ _ _) | (simp only [storesWf_same]) | (simp only [id_eq])

end Sys2Proof.Machine
end

