-- ==== Sys2Proof/Laws/StoresD.lean ====
section
/-! SUPPORT. The operations keep the canonical form of every store, part 4 of 4: one lemma per operation. -/

namespace Sys2Proof.Machine

open Sys2Proof.Safety

set_option maxRecDepth 8000
set_option linter.unusedTactic false
set_option linter.unreachableTactic false
set_option linter.unusedSimpArgs false
set_option linter.unusedVariables false

theorem wf_threadLost (t : TwinId) (w : Nat) (s : Block) (h : storesWf s = true) :
    storesWf (threadLost t w s) = true := by
  unfold threadLost
  (try simp only [])
  repeat' first
      | with_reducible assumption | with_reducible apply wf_drivePreempt | with_reducible apply wf_threadFault
      | split | (intro _ _ _) | (simp only [storesWf_same])

theorem wf_upRel (t : TwinId) (f : RelUnit → RelUnit) (s : Block) (h : storesWf s = true)
    (hf : ∀ w, relWf w = true → relWf (f w) = true) : storesWf (upRel t f s) = true := by
  unfold upRel
  refine wf_upTw t _ s h ?_
  intro w hw
  simp only [twinWf, Bool.and_eq_true] at hw ⊢
  simp [hw, hf]

theorem wf_logError (t : TwinId) (w : Nat) (s : Block) (h : storesWf s = true) :
    storesWf (logError t w s) = true := by
  unfold logError
  (try simp only [])
  repeat' first
      | with_reducible assumption | with_reducible apply wf_upRel | split
      | (intro w hw; simp only [twinWf, catWf, accWf, rackWf, deskWf, shelfWf, retWf, lardWf, sortWf, bankWf, officeWf, obsWf, bakeWf, thrdWf, relWf, arbWf, proofWf, pageWf, Bool.and_eq_true] at hw ⊢; simp [hw]; done)
      | (intro _ _ _) | (simp only [storesWf_same])

theorem wf_logOutcome (t : TwinId) (g no outcome rows : Nat) (s : Block) (h : storesWf s = true) :
    storesWf (logOutcome t g no outcome rows s) = true := by
  unfold logOutcome
  refine wf_upRel _ _ _ h ?_
  intro w hw
  split
  · simp only [relWf, Bool.and_eq_true] at hw ⊢
    exact ⟨mapWf_mapSet _ _ _ _ hw.1, hw.2⟩
  · exact hw

theorem wf_setErrs (t : TwinId) (g : Nat) (bit : Nat) (s : Block) (h : storesWf s = true) :
    storesWf (setErrs t g bit s) = true := by
  unfold setErrs
  (try simp only [])
  repeat' first
      | with_reducible assumption | with_reducible apply wf_setErr | with_reducible apply wf_forEach | split
      | (intro _ _ _) | (simp only [storesWf_same])

theorem wf_upPair (f : PairSt → PairSt) (s : Block) (h : storesWf s = true)
    (hf : ∀ p, mapWf {} p.groups = true → mapWf {} (f p).groups = true) : storesWf (upPair f s) = true :=
  storesWf_pair_set _ _ h (hf _ (storesWf_pair h))

theorem wf_upSram (t : TwinId) (g : Nat) (f : SramGroup → SramGroup) (s : Block) (h : storesWf s = true) :
    storesWf (upSram t g f s) = true := by
  unfold upSram
  split
  · exact wf_upPair _ _ h (fun p hp => mapWf_mapSet _ _ _ _ hp)
  · exact wf_upRel _ _ _ h (fun w hw => by simp only [relWf, Bool.and_eq_true] at hw ⊢; simp [hw])

theorem wf_startTests (t : TwinId) (n : Nat) (s : Block) (h : storesWf s = true) :
    storesWf (startTests t n s) = true := by
  induction n generalizing s with
  | zero => exact h
  | succ n ih =>
    unfold startTests
    simp only []
    repeat' first
        | with_reducible assumption | with_reducible apply ih | with_reducible apply wf_upRel
        | with_reducible apply wf_setErrs | with_reducible apply wf_logOutcome | with_reducible apply wf_upSram
        | split
        | (intro w hw; simp only [twinWf, catWf, accWf, rackWf, deskWf, shelfWf, retWf, lardWf, sortWf, bankWf, officeWf, obsWf, bakeWf, thrdWf, relWf, arbWf, proofWf, pageWf, Bool.and_eq_true] at hw ⊢; simp [hw]; done)
        | (intro _ _ _) | (simp only [storesWf_same])

theorem wf_queueTest (t : TwinId) (g bank no : Nat) (s : Block) (h : storesWf s = true) :
    storesWf (queueTest t g bank no s) = true := by
  unfold queueTest
  (try simp only [])
  repeat' first
      | with_reducible assumption | with_reducible apply wf_setErr | with_reducible apply wf_setErrs
      | with_reducible apply wf_bump | with_reducible apply wf_logOutcome | with_reducible apply wf_startTests
      | with_reducible apply wf_upRel | split
      | (intro w hw; simp only [twinWf, catWf, accWf, rackWf, deskWf, shelfWf, retWf, lardWf, sortWf, bankWf, officeWf, obsWf, bakeWf, thrdWf, relWf, arbWf, proofWf, pageWf, Bool.and_eq_true] at hw ⊢; simp [hw]; done)
      | (intro _ _ _) | (simp only [storesWf_same]) | (simp only [id_eq])

theorem wf_dropTest (t : TwinId) (s : Block) (h : storesWf s = true) :
    storesWf (dropTest t s) = true := by
  unfold dropTest
  (try simp only [])
  repeat' first
      | with_reducible assumption | with_reducible apply wf_upSram | with_reducible apply wf_upRel | split
      | (intro w hw; simp only [twinWf, catWf, accWf, rackWf, deskWf, shelfWf, retWf, lardWf, sortWf, bankWf, officeWf, obsWf, bakeWf, thrdWf, relWf, arbWf, proofWf, pageWf, Bool.and_eq_true] at hw ⊢; simp [hw]; done)
      | (intro _ _ _) | (simp only [storesWf_same]) | (simp only [id_eq])

theorem wf_bankCopyEnd (t : TwinId) (s : Block) (h : storesWf s = true) : storesWf (bankCopyEnd t s) = true := by
  unfold bankCopyEnd
  (try simp only [])
  repeat' first
      | with_reducible assumption | with_reducible apply wf_upSram | with_reducible apply wf_upRel | split
      | (intro w hw; simp only [twinWf, catWf, accWf, rackWf, deskWf, shelfWf, retWf, lardWf, sortWf, bankWf, officeWf, obsWf, bakeWf, thrdWf, relWf, arbWf, proofWf, pageWf, Bool.and_eq_true] at hw ⊢; simp [hw]; done)
      | (intro _ _ _) | (simp only [storesWf_same])

theorem wf_testDone (t : TwinId) (b : BankTest) (outcome : Nat) (s : Block) (h : storesWf s = true) :
    storesWf (testDone t b outcome s) = true := by
  unfold testDone
  (try simp only [])
  repeat' first
      | with_reducible assumption | with_reducible apply wf_upSram | with_reducible apply wf_logOutcome
      | with_reducible apply wf_upRel | with_reducible apply wf_bump | with_reducible apply wf_setErrs
      | with_reducible apply wf_startTests | split
      | (intro w hw; simp only [twinWf, catWf, accWf, rackWf, deskWf, shelfWf, retWf, lardWf, sortWf, bankWf, officeWf, obsWf, bakeWf, thrdWf, relWf, arbWf, proofWf, pageWf, Bool.and_eq_true] at hw ⊢; simp [hw]; done)
      | (intro _ _ _) | (simp only [storesWf_same]) | (simp only [id_eq])

theorem wf_testRetired (t : TwinId) (b : BankTest) (s : Block) (h : storesWf s = true) :
    storesWf (testRetired t b s) = true := by
  unfold testRetired
  (try simp only [])
  repeat' first
      | with_reducible assumption | with_reducible apply wf_upSram | with_reducible apply wf_logOutcome
      | with_reducible apply wf_upRel | with_reducible apply wf_bump | with_reducible apply wf_startTests
      | with_reducible apply wf_setErrs | split
      | (intro w hw; simp only [twinWf, catWf, accWf, rackWf, deskWf, shelfWf, retWf, lardWf, sortWf, bankWf, officeWf, obsWf, bakeWf, thrdWf, relWf, arbWf, proofWf, pageWf, Bool.and_eq_true] at hw ⊢; simp [hw]; done)
      | (intro _ _ _) | (simp only [storesWf_same]) | (simp only [id_eq])

theorem wf_marchTestEnd (t : TwinId) (failing : Nat) (s : Block) (h : storesWf s = true) :
    storesWf (marchTestEnd t failing s) = true := by
  unfold marchTestEnd
  (try simp only [])
  repeat' first
      | with_reducible assumption | with_reducible apply wf_testDone | with_reducible apply wf_bump
      | with_reducible apply wf_upSram | with_reducible apply wf_upRel | with_reducible apply wf_testRetired | split
      | (intro w hw; simp only [twinWf, catWf, accWf, rackWf, deskWf, shelfWf, retWf, lardWf, sortWf, bankWf, officeWf, obsWf, bakeWf, thrdWf, relWf, arbWf, proofWf, pageWf, Bool.and_eq_true] at hw ⊢; simp [hw]; done)
      | (intro _ _ _) | (simp only [storesWf_same])

theorem wf_retireBank (t : TwinId) (g bank : Nat) (s : Block) (h : storesWf s = true) :
    storesWf (retireBank t g bank s).1 = true := by
  have h1 := wf_setErrs t g 10 _ (wf_bump (twKey t relP) 0x68 1 _ h)
  unfold retireBank
  simp only []
  split <;> exact wf_upSram _ _ _ _ h1

theorem wf_repairBank (t : TwinId) (g bank : Nat) (ns : List Nat) (s : Block) (h : storesWf s = true) :
    storesWf (repairBank t g bank ns s).1 = true := by
  induction ns generalizing s with
  | nil => exact h
  | cons n ns ih =>
    unfold repairBank
    simp only []
    split
    · exact ih _ (wf_bump _ _ _ _ (wf_upSram _ _ _ _ h))
    · exact wf_retireBank _ _ _ _ h

theorem wf_fullTest (t : TwinId) (fs : List (Nat × Nat × List Nat)) (s : Block) (h : storesWf s = true) :
    storesWf (fullTest t fs s).1 = true := by
  induction fs generalizing s with
  | nil => exact h
  | cons f fs ih =>
    obtain ⟨g, bank, rows⟩ := f
    unfold fullTest
    simp only []
    split
    · exact ih _ h
    · exact ih _ (wf_repairBank _ _ _ _ _ (wf_setErrs _ _ _ _ (wf_bump _ _ _ _ h)))

theorem wf_endFullTest (t : TwinId) (fs : List (Nat × Nat × List Nat)) (logicOk : Bool) (s : Block) (h : storesWf s = true) :
    storesWf (endFullTest t fs logicOk s).1 = true :=
  wf_upRel _ _ _ (wf_fullTest _ _ _ h) (fun w hw => by simpa [relWf] using hw)

theorem wf_pairFatal (s : Block) (h : storesWf s = true) : storesWf (pairFatal s) = true := by
  unfold pairFatal
  (try simp only [])
  repeat' first
      | with_reducible assumption | with_reducible apply wf_upPair | (intro p hp; exact hp) | (intro p hp; exact hp) | (intro p hp; exact hp) | split
      | (intro w hw; simp only [twinWf, catWf, accWf, rackWf, deskWf, shelfWf, retWf, lardWf, sortWf, bankWf, officeWf, obsWf, bakeWf, thrdWf, relWf, arbWf, proofWf, pageWf, Bool.and_eq_true] at hw ⊢; simp [hw]; done)
      | (intro _ _ _) | (simp only [storesWf_same])

theorem wf_ueOutcome (t : TwinId) (i : GroupInfo) (g bank word : Nat) (owner : Option Nat) (s : Block) (h : storesWf s = true) :
    storesWf (ueOutcome t i g bank word owner s) = true := by
  unfold ueOutcome
  (try simp only [])
  repeat' first
      | with_reducible assumption | with_reducible apply wf_zeroWord | with_reducible apply wf_raiseFault
      | with_reducible apply wf_pushWork | with_reducible apply wf_setErr | with_reducible apply wf_threadLost
      | with_reducible apply wf_counterLost | with_reducible apply wf_trace | with_reducible apply wf_traceLost | split
      | (intro w hw; simp only [twinWf, catWf, accWf, rackWf, deskWf, shelfWf, retWf, lardWf, sortWf, bankWf, officeWf, obsWf, bakeWf, thrdWf, relWf, arbWf, proofWf, pageWf, Bool.and_eq_true] at hw ⊢; simp [hw]; done)
      | (intro _ _ _) | (simp only [storesWf_same]) | (simp only [id_eq])

theorem spareHit_wf {t : TwinId} {g b n : Nat} {s r : Block} (h : storesWf s = true) (e : spareHit t g b n s = some r) :
    storesWf r = true := by
  unfold spareHit at e
  (repeat' split at e) <;> cases e
  exact wf_queueTest _ _ _ _ _ (wf_upRel _ _ _ h (fun w hw => by simpa [relWf] using hw))

theorem wf_sramError (t : TwinId) (g : Nat) (bank : Nat) (word : Nat) (double : Bool) (injected : Bool)
    (s : Block) (h : storesWf s = true) :
    storesWf (sramError t g bank word double injected s) = true := by
  unfold sramError
  (try simp only [])
  repeat' first
      | with_reducible assumption | (refine spareHit_wf ?_ (by assumption)) | with_reducible apply wf_logError
      | with_reducible apply wf_bump | with_reducible apply wf_setErrs | with_reducible apply wf_ueOutcome
      | with_reducible apply wf_queueTest | split | (intro _ _ _) | (simp only [storesWf_same])

theorem wf_patrolRead (t : TwinId) (g : Nat) (bank : Nat) (word : Nat) (err : ReadError) (s : Block)
    (h : storesWf s = true) :
    storesWf (patrolRead t g bank word err s) = true := by
  unfold patrolRead
  (try simp only [])
  repeat' first
      | with_reducible assumption | with_reducible apply wf_sramError | with_reducible apply wf_bump | split
      | (intro _ _ _) | (simp only [storesWf_same])

theorem wf_errInjectWrite (key : Nat) (v : Nat) (s : Block) (h : storesWf s = true) :
    storesWf (errInjectWrite key v s) = true := by
  unfold errInjectWrite
  (try simp only [])
  repeat' first
      | with_reducible assumption | with_reducible apply wf_upPage | split
      | (intro w hw; simp only [twinWf, catWf, accWf, rackWf, deskWf, shelfWf, retWf, lardWf, sortWf, bankWf, officeWf, obsWf, bakeWf, thrdWf, relWf, arbWf, proofWf, pageWf, Bool.and_eq_true] at hw ⊢; simp [hw]; done)
      | (intro _ _ _) | (simp only [storesWf_same])

theorem wf_discardTwin (a : Block) (k : Nat) (t : TwinId) (s : Block) (h : storesWf s = true) :
    storesWf (discardTwin a k t s) = true := by
  unfold discardTwin
  refine wf_upTw _ _ _ h ?_
  intro w hw
  simp only [twinWf, catWf, deskWf, shelfWf, bankWf, officeWf, Bool.and_eq_true] at hw ⊢
  simp [hw, mapWf_keepOld]

theorem wf_discardUse (a : Block) (k : Nat) (s : Block) (h : storesWf s = true) :
    storesWf (discardUse a k s) = true := by
  unfold discardUse
  have h2 := wf_upCtx k (fun c => { c with notifyQ := (ctxOf a k).notifyQ, head := (ctxOf a k).head }) _
    (wf_discardTwin a k .t1 _ (wf_discardTwin a k .t0 s h))
  exact storesWf_engines_set _ _ h2 (mapWf_mapAll _ _ _ (storesWf_engines h2))

theorem wf_consumeOne (a : Block) (ws : List SramWord) (key inj : Nat) (s : Block) (h : storesWf s = true) :
    storesWf (consumeOne a ws key inj s) = true := by
  unfold consumeOne
  (try simp only [])
  repeat' first
      | with_reducible assumption | with_reducible apply wf_discardUse | with_reducible apply wf_sramError
      | with_reducible apply wf_upPage | split
      | (intro w hw; simp only [twinWf, catWf, accWf, rackWf, deskWf, shelfWf, retWf, lardWf, sortWf, bankWf, officeWf, obsWf, bakeWf, thrdWf, relWf, arbWf, proofWf, pageWf, Bool.and_eq_true] at hw ⊢; simp [hw]; done)
      | (intro _ _ _) | (simp only [storesWf_same]) | (simp only [id_eq])

theorem wf_consumeInjections (a : Block) (ws : List SramWord) (s : Block) (h : storesWf s = true) :
    storesWf (consumeInjections a ws s) = true := by
  unfold consumeInjections
  (try simp only [])
  repeat' first
      | with_reducible assumption | with_reducible apply wf_forEach | with_reducible apply wf_consumeOne
      | with_reducible apply wf_pairFatal | split
      | (intro w hw; simp only [twinWf, catWf, accWf, rackWf, deskWf, shelfWf, retWf, lardWf, sortWf, bankWf, officeWf, obsWf, bakeWf, thrdWf, relWf, arbWf, proofWf, pageWf, Bool.and_eq_true] at hw ⊢; simp [hw]; done)
      | (intro _ _ _) | (simp only [storesWf_same]) | (simp only [id_eq])

theorem wf_setSvc (t : TwinId) (x : TwinSt) (s : Block) (h : storesWf s = true) : storesWf (setSvc t x s) = true := by
  unfold setSvc
  (try simp only [])
  repeat' first
      | with_reducible assumption | with_reducible apply wf_upTw | split
      | (intro w hw; simp only [twinWf, catWf, accWf, rackWf, deskWf, shelfWf, retWf, lardWf, sortWf, bankWf, officeWf, obsWf, bakeWf, thrdWf, relWf, arbWf, proofWf, pageWf, Bool.and_eq_true] at hw ⊢; simp [hw]; done)
      | (intro _ _ _) | (simp only [storesWf_same])

theorem wf_setCause (t : TwinId) (cause : Nat) (s : Block) (h : storesWf s = true) :
    storesWf (setCause t cause s) = true := by
  unfold setCause
  (try simp only [])
  repeat' first
      | with_reducible assumption | with_reducible apply wf_upPair | (intro p hp; exact hp) | (intro p hp; exact hp) | (intro p hp; exact hp) | split
      | (intro w hw; simp only [twinWf, catWf, accWf, rackWf, deskWf, shelfWf, retWf, lardWf, sortWf, bankWf, officeWf, obsWf, bakeWf, thrdWf, relWf, arbWf, proofWf, pageWf, Bool.and_eq_true] at hw ⊢; simp [hw]; done)
      | (intro _ _ _) | (simp only [storesWf_same])

theorem wf_partnerOnFatal (t : TwinId) (s : Block) (h : storesWf s = true) :
    storesWf (partnerOnFatal t s) = true := by
  unfold partnerOnFatal
  (try simp only [])
  repeat' first
      | with_reducible assumption | with_reducible apply wf_resendAsks | with_reducible apply wf_upPair | (intro p hp; exact hp) | (intro p hp; exact hp) | (intro p hp; exact hp) | with_reducible apply wf_setSvc
      | with_reducible apply wf_pairFatal | split
      | (intro w hw; simp only [twinWf, catWf, accWf, rackWf, deskWf, shelfWf, retWf, lardWf, sortWf, bankWf, officeWf, obsWf, bakeWf, thrdWf, relWf, arbWf, proofWf, pageWf, Bool.and_eq_true] at hw ⊢; simp [hw]; done)
      | (intro _ _ _) | (simp only [storesWf_same])

theorem wf_dropPairTest (t : TwinId) (s : Block) (h : storesWf s = true) :
    storesWf (dropPairTest t s) = true := by
  unfold dropPairTest
  (try simp only [])
  repeat' first
      | with_reducible assumption | with_reducible apply wf_dropTest | split
      | (intro w hw; simp only [twinWf, catWf, accWf, rackWf, deskWf, shelfWf, retWf, lardWf, sortWf, bankWf, officeWf, obsWf, bakeWf, thrdWf, relWf, arbWf, proofWf, pageWf, Bool.and_eq_true] at hw ⊢; simp [hw]; done)
      | (intro _ _ _) | (simp only [storesWf_same]) | (simp only [id_eq])

theorem wf_dropPairOp (t : TwinId) (s : Block) (h : storesWf s = true) :
    storesWf (dropPairOp t s) = true := by
  unfold dropPairOp
  (try simp only [])
  repeat' first
      | with_reducible assumption | with_reducible apply wf_upPair | (intro p hp; exact hp) | (intro p hp; exact hp) | (intro p hp; exact hp) | split
      | (intro w hw; simp only [twinWf, catWf, accWf, rackWf, deskWf, shelfWf, retWf, lardWf, sortWf, bankWf, officeWf, obsWf, bakeWf, thrdWf, relWf, arbWf, proofWf, pageWf, Bool.and_eq_true] at hw ⊢; simp [hw]; done)
      | (intro _ _ _) | (simp only [storesWf_same]) | (simp only [id_eq])

theorem wf_dropSteps (t : TwinId) (s : Block) (h : storesWf s = true) :
    storesWf (dropSteps t s) = true := by
  unfold dropSteps
  (try simp only [])
  repeat' first
      | with_reducible assumption | split
      | (intro w hw; simp only [twinWf, catWf, accWf, rackWf, deskWf, shelfWf, retWf, lardWf, sortWf, bankWf, officeWf, obsWf, bakeWf, thrdWf, relWf, arbWf, proofWf, pageWf, Bool.and_eq_true] at hw ⊢; simp [hw]; done)
      | (intro _ _ _) | (simp only [storesWf_same]) | (simp only [id_eq])

theorem wf_twinFatal (t : TwinId) (cause : Nat) (s : Block) (h : storesWf s = true) :
    storesWf (twinFatal t cause s) = true := by
  unfold twinFatal
  (try simp only [])
  repeat' first
      | with_reducible assumption | with_reducible apply wf_dropPairTest | with_reducible apply wf_setCause
      | with_reducible apply wf_setSvc | with_reducible apply wf_dropPairOp | with_reducible apply wf_partnerOnFatal
      | with_reducible apply wf_sendCtrl | with_reducible apply wf_arbiterLose | with_reducible apply wf_dropSteps
      | with_reducible apply wf_upTw | with_reducible apply wf_raiseFreeze | split
      | (intro w hw; simp only [twinWf, catWf, accWf, rackWf, deskWf, shelfWf, retWf, lardWf, sortWf, bankWf, officeWf, obsWf, bakeWf, thrdWf, relWf, arbWf, proofWf, pageWf, Bool.and_eq_true] at hw ⊢; simp [hw]; done)
      | (intro _ _ _) | (simp only [storesWf_same]) | (simp only [id_eq])

theorem wf_askLatch (t : TwinId) (s : Block) (h : storesWf s = true) : storesWf (askLatch t s) = true := by
  unfold askLatch
  (try simp only [])
  repeat' first
      | with_reducible assumption | with_reducible apply wf_upPair | (intro p hp; exact hp) | (intro p hp; exact hp) | (intro p hp; exact hp) | split
      | (intro w hw; simp only [twinWf, catWf, accWf, rackWf, deskWf, shelfWf, retWf, lardWf, sortWf, bankWf, officeWf, obsWf, bakeWf, thrdWf, relWf, arbWf, proofWf, pageWf, Bool.and_eq_true] at hw ⊢; simp [hw]; done)
      | (intro _ _ _) | (simp only [storesWf_same])

theorem wf_heartbeat (t : TwinId) (s : Block) (h : storesWf s = true) : storesWf (heartbeat t s) = true := by
  unfold heartbeat
  (try simp only [])
  repeat' first
      | with_reducible assumption | with_reducible apply wf_upRel | split
      | (intro w hw; simp only [twinWf, catWf, accWf, rackWf, deskWf, shelfWf, retWf, lardWf, sortWf, bankWf, officeWf, obsWf, bakeWf, thrdWf, relWf, arbWf, proofWf, pageWf, Bool.and_eq_true] at hw ⊢; simp [hw]; done)
      | (intro _ _ _) | (simp only [storesWf_same])

theorem wf_heartbeatTimeout (t : TwinId) (s : Block) (h : storesWf s = true) :
    storesWf (heartbeatTimeout t s) = true := by
  unfold heartbeatTimeout
  (try simp only [])
  repeat' first
      | with_reducible assumption | with_reducible apply wf_askLatch | with_reducible apply wf_setErr | split
      | (intro _ _ _) | (simp only [storesWf_same])

theorem wf_watchdog (t : TwinId) (s : Block) (h : storesWf s = true) :
    storesWf (watchdog t s) = true := by
  unfold watchdog
  (try simp only [])
  repeat' first
      | with_reducible assumption | with_reducible apply wf_twinFatal | with_reducible apply wf_setErr | split
      | (intro w hw; simp only [twinWf, catWf, accWf, rackWf, deskWf, shelfWf, retWf, lardWf, sortWf, bankWf, officeWf, obsWf, bakeWf, thrdWf, relWf, arbWf, proofWf, pageWf, Bool.and_eq_true] at hw ⊢; simp [hw]; done)
      | (intro _ _ _) | (simp only [storesWf_same]) | (simp only [id_eq])

theorem wf_wdogKick (t : TwinId) (v : Nat) (s : Block) (h : storesWf s = true) :
    storesWf (wdogKick t v s) = true := by
  unfold wdogKick
  (try simp only [])
  repeat' first
      | with_reducible assumption | with_reducible apply wf_upRel | split
      | (intro w hw; simp only [twinWf, catWf, accWf, rackWf, deskWf, shelfWf, retWf, lardWf, sortWf, bankWf, officeWf, obsWf, bakeWf, thrdWf, relWf, arbWf, proofWf, pageWf, Bool.and_eq_true] at hw ⊢; simp [hw]; done)
      | (intro _ _ _) | (simp only [storesWf_same])

theorem wf_fatalAt (t : TwinId) (s : Block) (h : storesWf s = true) : storesWf (fatalAt t s) = true := by
  unfold fatalAt
  (try simp only [])
  repeat' first
      | with_reducible assumption
      | (have hk := takeCtrl_wf ‹storesWf _ = true› ‹takeCtrl _ _ _ = some _›; with_reducible exact hk)
      | with_reducible apply wf_askLatch | split | (intro _ _ _) | (simp only [storesWf_same])

theorem wf_recallClaims (s : Block) (h : storesWf s = true) :
    storesWf (recallClaims s) = true := by
  unfold recallClaims
  (try simp only [])
  repeat' first
      | with_reducible assumption | with_reducible apply wf_forEach | with_reducible apply wf_countHeld
      | with_reducible apply wf_resample | with_reducible apply wf_upEng | split
      | (intro w hw; simp only [twinWf, catWf, accWf, rackWf, deskWf, shelfWf, retWf, lardWf, sortWf, bankWf, officeWf, obsWf, bakeWf, thrdWf, relWf, arbWf, proofWf, pageWf, Bool.and_eq_true] at hw ⊢; simp [hw]; done)
      | (intro _ _ _) | (simp only [storesWf_same]) | (simp only [id_eq])

theorem wf_loseEngines (sv : TwinId) (f : TwinId) (s : Block) (h : storesWf s = true) :
    storesWf (loseEngines sv f s) = true := by
  unfold loseEngines
  simp only []
  exact wf_forEach _ _ _ (wf_bump _ _ _ _ (storesWf_engines_set _ _ h (mapWf_mapAll _ _ _ (storesWf_engines h))))
    (fun _ _ hs => wf_sweepGroup _ _ _ hs)

theorem wf_oweFlushes (sv : TwinId) (f : TwinId) (s : Block) (h : storesWf s = true) :
    storesWf (oweFlushes sv f s) = true := by
  unfold oweFlushes
  (try simp only [])
  repeat' first
      | with_reducible assumption | with_reducible apply wf_upFlush | with_reducible apply wf_upTw
      | with_reducible apply wf_localNeed | with_reducible apply wf_forEach | split
      | (intro w hw; simp only [twinWf, catWf, accWf, rackWf, deskWf, shelfWf, retWf, lardWf, sortWf, bankWf, officeWf, obsWf, bakeWf, thrdWf, relWf, arbWf, proofWf, pageWf, Bool.and_eq_true] at hw ⊢; simp [hw]; done)
      | (intro _ _ _) | (simp only [storesWf_same])

theorem wf_relinkProxies (sv : TwinId) (s : Block) (h : storesWf s = true) :
    storesWf (relinkProxies sv s) = true := by
  unfold relinkProxies
  (try simp only [])
  repeat' first
      | with_reducible assumption | with_reducible apply wf_upLane | with_reducible apply wf_releaseReservation
      | with_reducible apply wf_proxyLeave | with_reducible apply wf_forEach | split
      | (intro w hw; simp only [twinWf, catWf, accWf, rackWf, deskWf, shelfWf, retWf, lardWf, sortWf, bankWf, officeWf, obsWf, bakeWf, thrdWf, relWf, arbWf, proofWf, pageWf, Bool.and_eq_true] at hw ⊢; simp [hw]; done)
      | (intro _ _ _) | (simp only [storesWf_same])

theorem wf_loseCtx (sv : TwinId) (k : Nat) (s : Block) (h : storesWf s = true) :
    storesWf (loseCtx sv k s) = true := by
  unfold loseCtx
  (try simp only [])
  repeat' first
      | with_reducible assumption | with_reducible apply wf_upTw | with_reducible apply wf_raiseFault | split
      | (intro w hw; simp only [twinWf, catWf, accWf, rackWf, deskWf, shelfWf, retWf, lardWf, sortWf, bankWf, officeWf, obsWf, bakeWf, thrdWf, relWf, arbWf, proofWf, pageWf, Bool.and_eq_true] at hw ⊢; simp [hw]; done)
      | (intro _ _ _) | (simp only [storesWf_same]) | (simp only [id_eq])

theorem wf_freeMoves (sv : TwinId) (s : Block) (h : storesWf s = true) : storesWf (freeMoves sv s) = true := by
  unfold freeMoves
  (try simp only [])
  repeat' first
      | with_reducible assumption | with_reducible apply wf_sealCopy | with_reducible apply wf_upMove
      | with_reducible apply wf_forEach | split
      | (intro w hw; simp only [twinWf, catWf, accWf, rackWf, deskWf, shelfWf, retWf, lardWf, sortWf, bankWf, officeWf, obsWf, bakeWf, thrdWf, relWf, arbWf, proofWf, pageWf, Bool.and_eq_true] at hw ⊢; simp [hw]; done)
      | (intro _ _ _) | (simp only [storesWf_same])

theorem wf_freeSweeps (f : TwinId) (s : Block) (h : storesWf s = true) : storesWf (freeSweeps f s) = true := by
  unfold freeSweeps
  (try simp only [])
  repeat' first
      | with_reducible assumption | with_reducible apply wf_upTw | split
      | (intro w hw; simp only [twinWf, catWf, accWf, rackWf, deskWf, shelfWf, retWf, lardWf, sortWf, bankWf, officeWf, obsWf, bakeWf, thrdWf, relWf, arbWf, proofWf, pageWf, Bool.and_eq_true] at hw ⊢; simp [hw]; done)
      | (intro _ _ _) | (simp only [storesWf_same])

theorem wf_zeroPorts (t owner : TwinId) (s : Block) (h : storesWf s = true) :
    storesWf (zeroPorts t owner s) = true := by
  unfold zeroPorts
  (try simp only [])
  repeat' first
      | with_reducible assumption | with_reducible apply wf_upObs | split
      | (intro w hw; simp only [twinWf, catWf, accWf, rackWf, deskWf, shelfWf, retWf, lardWf, sortWf, bankWf, officeWf, obsWf, bakeWf, thrdWf, relWf, arbWf, proofWf, pageWf, Bool.and_eq_true] at hw ⊢; simp [hw]; done)
      | (intro _ _ _) | (simp only [storesWf_same]) | (simp only [id_eq])

theorem wf_takeover (sv : TwinId) (s : Block) (h : storesWf s = true) :
    storesWf (takeover sv s) = true := by
  unfold takeover
  (try simp only [])
  repeat' first
      | with_reducible assumption | with_reducible apply wf_zeroPorts | with_reducible apply wf_upTw | with_reducible apply wf_upPair | (intro p hp; exact hp) | (intro p hp; exact hp) | (intro p hp; exact hp)
      | with_reducible apply wf_loseEngines | with_reducible apply wf_recallClaims
      | with_reducible apply wf_relinkProxies | with_reducible apply wf_oweFlushes | with_reducible apply wf_forEach
      | with_reducible apply wf_loseCtx | with_reducible apply wf_dropBuffered | with_reducible apply wf_dropCmds
      | with_reducible apply wf_freeSweeps | with_reducible apply wf_freeMoves | with_reducible apply wf_pushWork | split
      | (intro w hw; simp only [twinWf, catWf, accWf, rackWf, deskWf, shelfWf, retWf, lardWf, sortWf, bankWf, officeWf, obsWf, bakeWf, thrdWf, relWf, arbWf, proofWf, pageWf, Bool.and_eq_true] at hw ⊢; simp [hw]; done)
      | (intro _ _ _) | (simp only [storesWf_same]) | (simp only [id_eq])

theorem wf_latchAnswer (s : Block) (h : storesWf s = true) : storesWf (latchAnswer s) = true := by
  unfold latchAnswer
  (try simp only [])
  repeat' first
      | with_reducible assumption | with_reducible apply wf_upPair | (intro p hp; exact hp) | (intro p hp; exact hp) | (intro p hp; exact hp) | with_reducible apply wf_twinFatal
      | with_reducible apply wf_takeover | split
      | (intro w hw; simp only [twinWf, catWf, accWf, rackWf, deskWf, shelfWf, retWf, lardWf, sortWf, bankWf, officeWf, obsWf, bakeWf, thrdWf, relWf, arbWf, proofWf, pageWf, Bool.and_eq_true] at hw ⊢; simp [hw]; done)
      | (intro _ _ _) | (simp only [storesWf_same])

theorem wf_startDump (f : TwinId) (s : Block) (h : storesWf s = true) : storesWf (startDump f s) = true := by
  unfold startDump
  (try simp only [])
  repeat' first
      | with_reducible assumption | with_reducible apply wf_upPair | (intro p hp; exact hp) | (intro p hp; exact hp) | (intro p hp; exact hp) | split
      | (intro w hw; simp only [twinWf, catWf, accWf, rackWf, deskWf, shelfWf, retWf, lardWf, sortWf, bankWf, officeWf, obsWf, bakeWf, thrdWf, relWf, arbWf, proofWf, pageWf, Bool.and_eq_true] at hw ⊢; simp [hw]; done)
      | (intro _ _ _) | (simp only [storesWf_same])

theorem wf_recordSweepEnd (t : TwinId) (s : Block) (h : storesWf s = true) :
    storesWf (recordSweepEnd t s) = true := by
  unfold recordSweepEnd
  (try simp only [])
  repeat' first
      | with_reducible assumption | with_reducible apply wf_startDump | with_reducible apply wf_upPair | (intro p hp; exact hp) | (intro p hp; exact hp) | (intro p hp; exact hp)
      | with_reducible apply wf_forEach | with_reducible apply wf_returnNode | split
      | (intro w hw; simp only [twinWf, catWf, accWf, rackWf, deskWf, shelfWf, retWf, lardWf, sortWf, bankWf, officeWf, obsWf, bakeWf, thrdWf, relWf, arbWf, proofWf, pageWf, Bool.and_eq_true] at hw ⊢; simp [hw]; done)
      | (intro _ _ _) | (simp only [storesWf_same]) | (simp only [id_eq])

theorem wf_pairStatus (st : Nat) (s : Block) (h : storesWf s = true) : storesWf (pairStatus st s) = true := by
  unfold pairStatus
  (try simp only [])
  repeat' first
      | with_reducible assumption | with_reducible apply wf_upPair | (intro p hp; exact hp) | (intro p hp; exact hp) | (intro p hp; exact hp) | split
      | (intro w hw; simp only [twinWf, catWf, accWf, rackWf, deskWf, shelfWf, retWf, lardWf, sortWf, bankWf, officeWf, obsWf, bakeWf, thrdWf, relWf, arbWf, proofWf, pageWf, Bool.and_eq_true] at hw ⊢; simp [hw]; done)
      | (intro _ _ _) | (simp only [storesWf_same])

theorem wf_pairCtl (f : Block → Block) (s : Block) (h : storesWf s = true)
    (hf : ∀ s, storesWf s = true → storesWf (f s) = true) :
    storesWf (pairCtl f s) = true := by
  unfold pairCtl
  (try simp only [])
  repeat' first
      | with_reducible assumption | with_reducible apply hf | split | (intro _ _ _) | (simp only [storesWf_same])

theorem wf_detach (d : TwinId) (s : Block) (h : storesWf s = true) :
    storesWf (detach d s) = true := by
  unfold detach
  (try simp only [])
  repeat' first
      | with_reducible assumption | with_reducible apply wf_pairStatus | with_reducible apply wf_sendBack
      | with_reducible apply wf_arbiterLose | with_reducible apply wf_upPair | (intro p hp; exact hp) | (intro p hp; exact hp) | (intro p hp; exact hp) | with_reducible apply wf_setSvc | split
      | (intro w hw; simp only [twinWf, catWf, accWf, rackWf, deskWf, shelfWf, retWf, lardWf, sortWf, bankWf, officeWf, obsWf, bakeWf, thrdWf, relWf, arbWf, proofWf, pageWf, Bool.and_eq_true] at hw ⊢; simp [hw]; done)
      | (intro _ _ _) | (simp only [storesWf_same]) | (simp only [id_eq])

theorem wf_detachDrained (t : TwinId) (s : Block) (h : storesWf s = true) : storesWf (detachDrained t s) = true := by
  unfold detachDrained
  (try simp only [])
  repeat' first
      | with_reducible assumption | with_reducible apply wf_sendCtrl | with_reducible apply wf_upPair | (intro p hp; exact hp) | (intro p hp; exact hp) | (intro p hp; exact hp) | split
      | (intro w hw; simp only [twinWf, catWf, accWf, rackWf, deskWf, shelfWf, retWf, lardWf, sortWf, bankWf, officeWf, obsWf, bakeWf, thrdWf, relWf, arbWf, proofWf, pageWf, Bool.and_eq_true] at hw ⊢; simp [hw]; done)
      | (intro _ _ _) | (simp only [storesWf_same])

theorem wf_drainLimit (t : TwinId) (s : Block) (h : storesWf s = true) : storesWf (drainLimit t s) = true := by
  unfold drainLimit
  (try simp only [])
  repeat' first
      | with_reducible assumption | with_reducible apply wf_removeEngine | with_reducible apply wf_forEach | split
      | (intro _ _ _) | (simp only [storesWf_same])

theorem wf_engineWaitLimit (t : TwinId) (s : Block) (h : storesWf s = true) :
    storesWf (engineWaitLimit t s) = true := by
  unfold engineWaitLimit
  (try simp only [])
  repeat' first
      | with_reducible assumption | with_reducible apply wf_teardownWaitLimit | with_reducible apply wf_drainLimit
      | split | (intro _ _ _) | (simp only [storesWf_same])

theorem wf_resamplePorts (d : TwinId) (s : Block) (h : storesWf s = true) : storesWf (resamplePorts d s) = true := by
  unfold resamplePorts
  (try simp only [])
  repeat' first
      | with_reducible assumption | with_reducible apply wf_resample | with_reducible apply wf_forEach | split
      | (intro _ _ _) | (simp only [storesWf_same])

theorem wf_syncService (s : Block) (h : storesWf s = true) : storesWf (syncService s) = true := by
  have one : ∀ (t : TwinId) (p : Nat → Bool) (s : Block), storesWf s = true → storesWf (upTw t (fun w => { w with
      shelf := { w.shelf with served := (List.range 152).foldl (fun m g => mapSet false m g (p g)) [] } }) s) = true := by
    intro t p s hs
    refine wf_upTw _ _ _ hs ?_
    intro w hw
    simp only [twinWf, shelfWf, Bool.and_eq_true] at hw ⊢
    simp [hw]
    exact foldl_map_wf _ _ _ _ (mapWf_nil _) (fun m x hm => mapWf_mapSet _ _ _ _ hm)
  exact one .t1 _ _ (one .t0 _ s h)

theorem wf_handoverAt (t : TwinId) (s : Block) (h : storesWf s = true) : storesWf (handoverAt t s) = true := by
  unfold handoverAt
  (try simp only [])
  repeat' first
      | with_reducible assumption | with_reducible apply wf_zeroPorts | with_reducible apply wf_retryProxy | with_reducible apply wf_resendAsks
      | (have hk := wf_takeHeld ‹storesWf _ = true› ‹takeHeld _ _ _ = some _›; with_reducible exact hk)
      | with_reducible apply wf_upFlush | with_reducible apply wf_upPair | (intro p hp; exact hp) | (intro p hp; exact hp) | (intro p hp; exact hp) | with_reducible apply wf_setSvc
      | with_reducible apply wf_pushWork | with_reducible apply wf_resamplePorts
      | with_reducible apply wf_syncService | with_reducible apply wf_forEach | split
      | (intro w hw; simp only [twinWf, catWf, accWf, rackWf, deskWf, shelfWf, retWf, lardWf, sortWf, bankWf, officeWf, obsWf, bakeWf, thrdWf, relWf, arbWf, proofWf, pageWf, Bool.and_eq_true] at hw ⊢; simp [hw]; done)
      | (intro _ _ _) | (simp only [storesWf_same])

theorem wf_zeroTwin (t : TwinId) (s : Block) (h : storesWf s = true) : storesWf (zeroTwin t s) = true := by
  have h0 : storesWf (dropTest t (dropCmds t (fun _ => true) s)) = true := wf_dropTest _ _ (wf_dropCmds _ _ _ h)
  unfold zeroTwin
  generalize dropTest t (dropCmds t (fun _ => true) s) = s0 at h0
  refine storesWf_pages_set _ _ ?_ (pagesWf_mapAll _ _ (storesWf_pagesWf ?_) ?_)
  rotate_right
  · intro k p hp
    simp only [pageWf, Bool.and_eq_true] at hp ⊢
    split <;> simp [hp]
  all_goals
  · apply wf_upTw _ _ _ h0
    intro w hw
    simp only [twinWf, catWf, accWf, rackWf, deskWf, shelfWf, retWf, lardWf, sortWf, bankWf, officeWf, obsWf, bakeWf,
      thrdWf, relWf, Bool.and_eq_true] at hw ⊢
    simp [hw]

theorem wf_selfTestEnd (t : TwinId) (fails : List (Nat × Nat × List Nat)) (logicOk : Bool) (s : Block) (h : storesWf s = true) :
    storesWf (selfTestEnd t fails logicOk s) = true := by
  unfold selfTestEnd
  (try simp only [])
  repeat' first
      | with_reducible assumption | with_reducible apply wf_endFullTest | with_reducible apply wf_zeroTwin
      | with_reducible apply wf_upPair | (intro p hp; exact hp) | (intro p hp; exact hp) | with_reducible apply wf_detach | with_reducible apply wf_setSvc
      | with_reducible apply wf_twinFatal | split
      | (intro w hw; simp only [twinWf, catWf, accWf, rackWf, deskWf, shelfWf, retWf, lardWf, sortWf, bankWf, officeWf, obsWf, bakeWf, thrdWf, relWf, arbWf, proofWf, pageWf, Bool.and_eq_true] at hw ⊢; simp [hw]; done)
      | (intro _ _ _) | (simp only [storesWf_same]) | (simp only [id_eq])

theorem wf_rejoin (d : TwinId) (s : Block) (h : storesWf s = true) : storesWf (rejoin d s) = true := by
  unfold rejoin
  (try simp only [])
  repeat' first
      | with_reducible assumption | with_reducible apply wf_pairStatus | with_reducible apply wf_sendCtrl
      | with_reducible apply wf_upPair | (intro p hp; exact hp) | (intro p hp; exact hp) | (intro p hp; exact hp) | with_reducible apply wf_setSvc | split
      | (intro w hw; simp only [twinWf, catWf, accWf, rackWf, deskWf, shelfWf, retWf, lardWf, sortWf, bankWf, officeWf, obsWf, bakeWf, thrdWf, relWf, arbWf, proofWf, pageWf, Bool.and_eq_true] at hw ⊢; simp [hw]; done)
      | (intro _ _ _) | (simp only [storesWf_same])

theorem wf_resyncAt (t : TwinId) (s : Block) (h : storesWf s = true) : storesWf (resyncAt t s) = true := by
  unfold resyncAt
  (try simp only [])
  repeat' first
      | with_reducible assumption | with_reducible apply wf_upTw | split
      | (intro w hw; simp only [twinWf, catWf, accWf, rackWf, deskWf, shelfWf, retWf, lardWf, sortWf, bankWf, officeWf, obsWf, bakeWf, thrdWf, relWf, arbWf, proofWf, pageWf, Bool.and_eq_true] at hw ⊢; simp [hw]; done)
      | (intro _ _ _) | (simp only [storesWf_same])

theorem wf_failTwin (t : TwinId) (s : Block) (h : storesWf s = true) : storesWf (failTwin t s) = true := by
  unfold failTwin
  (try simp only [])
  repeat' first
      | with_reducible assumption | with_reducible apply wf_twinFatal | with_reducible apply wf_pairStatus | split
      | (intro _ _ _) | (simp only [storesWf_same])

theorem wf_recover (t : TwinId) (s : Block) (h : storesWf s = true) : storesWf (recover t s) = true := by
  unfold recover
  (try simp only [])
  repeat' first
      | with_reducible assumption | with_reducible apply wf_pairStatus | with_reducible apply wf_upPair | (intro p hp; exact hp) | (intro p hp; exact hp) | (intro p hp; exact hp)
      | with_reducible apply wf_zeroTwin | with_reducible apply wf_setSvc | split
      | (intro w hw; simp only [twinWf, catWf, accWf, rackWf, deskWf, shelfWf, retWf, lardWf, sortWf, bankWf, officeWf, obsWf, bakeWf, thrdWf, relWf, arbWf, proofWf, pageWf, Bool.and_eq_true] at hw ⊢; simp [hw]; done)
      | (intro _ _ _) | (simp only [storesWf_same])

theorem wf_invSel (t : TwinId) (acc : Access) (v : Nat) (s : Block) (h : storesWf s = true) :
    storesWf (invSel t acc v s) = true := by
  unfold invSel
  (try simp only [])
  repeat' first
      | with_reducible assumption | with_reducible apply wf_setReg | with_reducible apply wf_upTw
      | with_reducible apply wf_setErr | with_reducible apply wf_invReadTube | split
      | (intro w hw; simp only [twinWf, catWf, accWf, rackWf, deskWf, shelfWf, retWf, lardWf, sortWf, bankWf, officeWf, obsWf, bakeWf, thrdWf, relWf, arbWf, proofWf, pageWf, Bool.and_eq_true] at hw ⊢; simp [hw]; done)
      | (intro _ _ _) | (simp only [storesWf_same]) | (simp only [id_eq])

theorem wf_invReadDone (t : TwinId) (s : Block) (h : storesWf s = true) :
    storesWf (invReadDone t s) = true := by
  unfold invReadDone
  (try simp only [])
  repeat' first
      | with_reducible assumption | with_reducible apply wf_upTw | with_reducible apply wf_bump | split
      | (intro w hw; simp only [twinWf, catWf, accWf, rackWf, deskWf, shelfWf, retWf, lardWf, sortWf, bankWf, officeWf, obsWf, bakeWf, thrdWf, relWf, arbWf, proofWf, pageWf, Bool.and_eq_true] at hw ⊢; simp [hw]; done)
      | (intro _ _ _) | (simp only [storesWf_same]) | (simp only [id_eq])

theorem wf_optCmd (t : TwinId) (start : Bool) (first : Nat) (last : Nat) (s : Block) (h : storesWf s = true) :
    storesWf (optCmd t start first last s) = true := by
  unfold optCmd
  simp only []
  repeat' first
      | with_reducible assumption
      | (intro w hw; simp only [twinWf, catWf, accWf, rackWf, deskWf, shelfWf, retWf, lardWf, sortWf, bankWf, officeWf, obsWf, bakeWf, thrdWf, relWf, arbWf, proofWf, pageWf, Bool.and_eq_true] at hw ⊢; simp [hw]; apply foldl_map_wf <;> simp_all; done)
      | with_reducible apply wf_upTw | with_reducible apply wf_bump | split
      | (intro w hw; simp only [twinWf, catWf, accWf, rackWf, deskWf, shelfWf, retWf, lardWf, sortWf, bankWf, officeWf, obsWf, bakeWf, thrdWf, relWf, arbWf, proofWf, pageWf, Bool.and_eq_true] at hw ⊢; simp [hw]; done)
      | (intro _ _ _) | (simp only [storesWf_same])

theorem wf_freezeCmd (twins : Nat) (s : Block) (h : storesWf s = true) : storesWf (freezeCmd twins s) = true := by
  unfold freezeCmd
  (try simp only [])
  repeat' first
      | with_reducible assumption | with_reducible apply wf_raiseFreeze | split | (intro _ _ _)
      | (simp only [storesWf_same])

theorem wf_freezeItem (t : TwinId) (s : Block) (h : storesWf s = true) : storesWf (freezeItem t s) = true := by
  unfold freezeItem
  (try simp only [])
  repeat' first
      | with_reducible assumption
      | (have hk := takeCtrl_wf ‹storesWf _ = true› ‹takeCtrl _ _ _ = some _›; with_reducible exact hk) | split
      | (intro _ _ _) | (simp only [storesWf_same])

theorem wf_haltOne (t : TwinId) (s : Block) (h : storesWf s = true) : storesWf (haltOne t s) = true := by
  unfold haltOne
  (try simp only [])
  repeat' first
      | with_reducible assumption | with_reducible apply wf_upTw | split
      | (intro w hw; simp only [twinWf, catWf, accWf, rackWf, deskWf, shelfWf, retWf, lardWf, sortWf, bankWf, officeWf, obsWf, bakeWf, thrdWf, relWf, arbWf, proofWf, pageWf, Bool.and_eq_true] at hw ⊢; simp [hw]; done)
      | (intro _ _ _) | (simp only [storesWf_same])

theorem wf_freezeRec (thaw : Bool) (t : TwinId) (s : Block) (h : storesWf s = true) :
    storesWf (freezeRec thaw t s) = true := by
  unfold freezeRec
  (try simp only [])
  repeat' first
      | with_reducible assumption | with_reducible apply wf_trace | split | (intro _ _ _)
      | (simp only [storesWf_same])

theorem wf_freezeApply (s : Block) (h : storesWf s = true) :
    storesWf (freezeApply s) = true := by
  unfold freezeApply
  (try simp only [])
  repeat' first
      | with_reducible assumption | with_reducible apply wf_bump | with_reducible apply wf_freezeRec
      | with_reducible apply wf_haltOne | split
      | (intro w hw; simp only [twinWf, catWf, accWf, rackWf, deskWf, shelfWf, retWf, lardWf, sortWf, bankWf, officeWf, obsWf, bakeWf, thrdWf, relWf, arbWf, proofWf, pageWf, Bool.and_eq_true] at hw ⊢; simp [hw]; done)
      | (intro _ _ _) | (simp only [storesWf_same]) | (simp only [id_eq])

theorem wf_thawCmd (s : Block) (h : storesWf s = true) :
    storesWf (thawCmd s) = true := by
  unfold thawCmd
  (try simp only [])
  repeat' first
      | with_reducible assumption | split
      | (intro w hw; simp only [twinWf, catWf, accWf, rackWf, deskWf, shelfWf, retWf, lardWf, sortWf, bankWf, officeWf, obsWf, bakeWf, thrdWf, relWf, arbWf, proofWf, pageWf, Bool.and_eq_true] at hw ⊢; simp [hw]; done)
      | (intro _ _ _) | (simp only [storesWf_same]) | (simp only [id_eq])

theorem wf_resume (t : TwinId) (s : Block) (h : storesWf s = true) :
    storesWf (resume t s) = true := by
  unfold resume
  (try simp only [])
  repeat' first
      | with_reducible assumption | with_reducible apply wf_upTw | with_reducible apply wf_forEach
      | with_reducible apply wf_driveKept | with_reducible apply wf_pushWork | with_reducible apply wf_resendAsks
      | with_reducible apply wf_resample | split
      | (intro w hw; simp only [twinWf, catWf, accWf, rackWf, deskWf, shelfWf, retWf, lardWf, sortWf, bankWf, officeWf, obsWf, bakeWf, thrdWf, relWf, arbWf, proofWf, pageWf, Bool.and_eq_true] at hw ⊢; simp [hw]; done)
      | (intro _ _ _) | (simp only [storesWf_same]) | (simp only [id_eq])

theorem wf_thawApply (s : Block) (h : storesWf s = true) :
    storesWf (thawApply s) = true := by
  unfold thawApply
  (try simp only [])
  repeat' first
      | with_reducible assumption | with_reducible apply wf_resume | with_reducible apply wf_freezeRec | split
      | (intro w hw; simp only [twinWf, catWf, accWf, rackWf, deskWf, shelfWf, retWf, lardWf, sortWf, bankWf, officeWf, obsWf, bakeWf, thrdWf, relWf, arbWf, proofWf, pageWf, Bool.and_eq_true] at hw ⊢; simp [hw]; done)
      | (intro _ _ _) | (simp only [storesWf_same]) | (simp only [id_eq])

theorem wf_viewTick (s : Block) (h : storesWf s = true) :
    storesWf (viewTick s) = true := by
  unfold viewTick
  (try simp only [])
  repeat' first
      | with_reducible assumption | with_reducible apply wf_thawApply | with_reducible apply wf_freezeApply | split
      | (intro w hw; simp only [twinWf, catWf, accWf, rackWf, deskWf, shelfWf, retWf, lardWf, sortWf, bankWf, officeWf, obsWf, bakeWf, thrdWf, relWf, arbWf, proofWf, pageWf, Bool.and_eq_true] at hw ⊢; simp [hw]; done)
      | (intro _ _ _) | (simp only [storesWf_same]) | (simp only [id_eq])

theorem wf_haltLimit (t : TwinId) (s : Block) (h : storesWf s = true) : storesWf (haltLimit t s) = true := by
  unfold haltLimit
  (try simp only [])
  repeat' first
      | with_reducible assumption | with_reducible apply wf_resume | split | (intro _ _ _)
      | (simp only [storesWf_same])

theorem wf_ringWriteAck (t : TwinId) (s : Block) (h : storesWf s = true) :
    storesWf (ringWriteAck t s) = true := by
  unfold ringWriteAck
  (try simp only [])
  repeat' first
      | with_reducible assumption | with_reducible apply wf_upObs | with_reducible apply wf_stageLost
      | with_reducible apply wf_bump | with_reducible apply wf_driveRing | with_reducible apply wf_stageWaits | split
      | (intro w hw; simp only [twinWf, catWf, accWf, rackWf, deskWf, shelfWf, retWf, lardWf, sortWf, bankWf, officeWf, obsWf, bakeWf, thrdWf, relWf, arbWf, proofWf, pageWf, Bool.and_eq_true] at hw ⊢; simp [hw]; done)
      | (intro _ _ _) | (simp only [storesWf_same]) | (simp only [id_eq])

theorem wf_ringIo (t : TwinId) (s : Block) (h : storesWf s = true) :
    storesWf (ringIo t s) = true := by
  unfold ringIo
  (try simp only [])
  repeat' first
      | with_reducible assumption | with_reducible apply wf_setErr | with_reducible apply wf_setReg
      | with_reducible apply wf_upObs | split
      | (intro w hw; simp only [twinWf, catWf, accWf, rackWf, deskWf, shelfWf, retWf, lardWf, sortWf, bankWf, officeWf, obsWf, bakeWf, thrdWf, relWf, arbWf, proofWf, pageWf, Bool.and_eq_true] at hw ⊢; simp [hw]; done)
      | (intro _ _ _) | (simp only [storesWf_same]) | (simp only [id_eq])

theorem wf_daybRdWrite (t : TwinId) (acc : Access) (v : Nat) (s : Block) (h : storesWf s = true) :
    storesWf (daybRdWrite t acc v s) = true := by
  unfold daybRdWrite
  (try simp only [])
  repeat' first
      | with_reducible assumption | with_reducible apply wf_upTw | split
      | (intro w hw; simp only [twinWf, catWf, accWf, rackWf, deskWf, shelfWf, retWf, lardWf, sortWf, bankWf, officeWf, obsWf, bakeWf, thrdWf, relWf, arbWf, proofWf, pageWf, Bool.and_eq_true] at hw ⊢; simp [hw]; done)
      | (intro _ _ _) | (simp only [storesWf_same])

theorem wf_ringBaseWrite (t : TwinId) (v : Nat) (s : Block) (h : storesWf s = true) :
    storesWf (ringBaseWrite t v s) = true := by
  unfold ringBaseWrite
  (try simp only [])
  repeat' first
      | with_reducible assumption | with_reducible apply wf_setErr | with_reducible apply wf_setReg
      | with_reducible apply wf_upObs | with_reducible apply wf_driveRing | split
      | (intro w hw; simp only [twinWf, catWf, accWf, rackWf, deskWf, shelfWf, retWf, lardWf, sortWf, bankWf, officeWf, obsWf, bakeWf, thrdWf, relWf, arbWf, proofWf, pageWf, Bool.and_eq_true] at hw ⊢; simp [hw]; done)
      | (intro _ _ _) | (simp only [storesWf_same]) | (simp only [id_eq])

theorem wf_wfgGo (t : TwinId) (all : Bool) (k : Nat) (s : Block) (h : storesWf s = true) :
    storesWf (wfgGo t all k s) = true := by
  unfold wfgGo
  (try simp only [])
  repeat' first
      | with_reducible assumption | with_reducible apply wf_upObs | split
      | (intro w hw; simp only [twinWf, catWf, accWf, rackWf, deskWf, shelfWf, retWf, lardWf, sortWf, bankWf, officeWf, obsWf, bakeWf, thrdWf, relWf, arbWf, proofWf, pageWf, Bool.and_eq_true] at hw ⊢; simp [hw]; done)
      | (intro _ _ _) | (simp only [storesWf_same]) | (simp only [id_eq])

theorem wf_wfgEnd (t : TwinId) (s : Block) (h : storesWf s = true) :
    storesWf (wfgEnd t s) = true := by
  unfold wfgEnd
  (try simp only [])
  repeat' first
      | with_reducible assumption | with_reducible apply wf_stageWaits | with_reducible apply wf_upObs
      | with_reducible apply foldl_wf | with_reducible apply foldl_snd_wf | split
      | (intro w hw; simp only [twinWf, catWf, accWf, rackWf, deskWf, shelfWf, retWf, lardWf, sortWf, bankWf, officeWf, obsWf, bakeWf, thrdWf, relWf, arbWf, proofWf, pageWf, Bool.and_eq_true] at hw ⊢; simp [hw]; done)
      | (intro _ _ _) | (simp only [storesWf_same]) | (simp only [id_eq])

theorem wf_hwClr (t : TwinId) (page : HwClrPage) (s : Block) (h : storesWf s = true) :
    storesWf (hwClr t page s) = true := by
  unfold hwClr
  (try simp only [])
  repeat' first
      | with_reducible assumption | with_reducible apply wf_upTw | split
      | (intro w hw; simp only [twinWf, catWf, accWf, rackWf, deskWf, shelfWf, retWf, lardWf, sortWf, bankWf, officeWf, obsWf, bakeWf, thrdWf, relWf, arbWf, proofWf, pageWf, Bool.and_eq_true] at hw ⊢; simp [hw]; done)
      | (intro _ _ _) | (simp only [storesWf_same])

theorem wf_upBoot (f : Boot → Boot) (s : Block) (h : storesWf s = true) : storesWf (upBoot f s) = true := by
  unfold upBoot
  (try simp only [])
  repeat' first | with_reducible assumption | split | (intro _ _ _) | (simp only [storesWf_same])

theorem wf_writePhase (s : Block) (h : storesWf s = true) :
    storesWf (writePhase s) = true := by
  unfold writePhase
  (try simp only [])
  repeat' first
      | with_reducible assumption | with_reducible apply wf_emit | split
      | (intro w hw; simp only [twinWf, catWf, accWf, rackWf, deskWf, shelfWf, retWf, lardWf, sortWf, bankWf, officeWf, obsWf, bakeWf, thrdWf, relWf, arbWf, proofWf, pageWf, Bool.and_eq_true] at hw ⊢; simp [hw]; done)
      | (intro _ _ _) | (simp only [storesWf_same]) | (simp only [id_eq])

theorem wf_setPhase (p err : Nat) (s : Block) (h : storesWf s = true) :
    storesWf (setPhase p err s) = true := by
  unfold setPhase
  (try simp only [])
  repeat' first
      | with_reducible assumption | with_reducible apply wf_writePhase | split
      | (intro w hw; simp only [twinWf, catWf, accWf, rackWf, deskWf, shelfWf, retWf, lardWf, sortWf, bankWf, officeWf, obsWf, bakeWf, thrdWf, relWf, arbWf, proofWf, pageWf, Bool.and_eq_true] at hw ⊢; simp [hw]; done)
      | (intro _ _ _) | (simp only [storesWf_same]) | (simp only [id_eq])

theorem twinWf_new (n : Nat) : twinWf { cat := { walked := n } } = true := rfl

theorem wf_resetBlock (cause : Nat) (time : Nat) (slew : Int) (s : Block) (h : storesWf s = true) :
    storesWf (resetBlock cause time slew s) = true := by
  unfold resetBlock
  apply wf_writePhase
  rw [storesWf_mk, twinWf_new, storesWf_fuses h, storesWf_fuseBanks h]
  rfl

theorem wf_coldReset (s : Block) (h : storesWf s = true) : storesWf (coldReset s) = true := by
  unfold coldReset
  (try simp only [])
  repeat' first
      | with_reducible assumption | with_reducible apply wf_resetBlock | split | (intro _ _ _)
      | (simp only [storesWf_same])

theorem wf_pinReset (s : Block) (h : storesWf s = true) : storesWf (pinReset s) = true := by
  unfold pinReset
  (try simp only [])
  repeat' first
      | with_reducible assumption | with_reducible apply wf_resetBlock | split | (intro _ _ _)
      | (simp only [storesWf_same])

theorem wf_softReset (v : Nat) (s : Block) (h : storesWf s = true) : storesWf (softReset v s) = true := by
  unfold softReset
  (try simp only [])
  repeat' first
      | with_reducible assumption | with_reducible apply wf_resetBlock | split | (intro _ _ _)
      | (simp only [storesWf_same])

theorem wf_wakeTwin (n : Nat) (w : Twin) (h : twinWf w = true) : twinWf (wakeTwin n w) = true := by
  have hb := twinWf_bank h
  unfold wakeTwin
  rw [twinWf_mk, bankWf_mk, bankWf_ents hb, bankWf_events hb]
  rfl

theorem wf_powerIslands (s : Block) (h : storesWf s = true) : storesWf (powerIslands s) = true := by
  unfold powerIslands
  (try simp only [])
  repeat' first
      | with_reducible assumption | with_reducible apply wf_emit | split | (intro _ _ _)
      | (simp only [storesWf_same])

theorem wf_hostWake (s : Block) (h : storesWf s = true) : storesWf (hostWake s) = true := by
  have hp := storesWf_proof h
  unfold hostWake
  split
  · exact h
  · apply wf_powerIslands
    apply wf_writePhase
    rw [storesWf_mk, wf_wakeTwin _ _ (storesWf_tw0 h), wf_wakeTwin _ _ (storesWf_tw1 h), storesWf_fuses h,
      storesWf_fuseBanks h, pagesWf_mapAll, wakeProof, proofWf_mk, mapWf_mapAll, proofWf_banks hp, proofWf_rising hp,
      proofWf_events hp]
    rfl
    · exact proofWf_doms hp
    · exact storesWf_pagesWf h
    · intro k p hp
      simp only [pageWf, wakePage, Bool.and_eq_true] at hp ⊢
      repeat' split
      all_goals simp [hp]

theorem wf_deskClockLocked (s : Block) (h : storesWf s = true) : storesWf (deskClockLocked s) = true := by
  unfold deskClockLocked
  (try simp only [])
  repeat' first
      | with_reducible assumption | with_reducible apply wf_powerIslands | with_reducible apply wf_setPhase
      | with_reducible apply wf_upBoot | split
      | (intro w hw; simp only [twinWf, catWf, accWf, rackWf, deskWf, shelfWf, retWf, lardWf, sortWf, bankWf, officeWf, obsWf, bakeWf, thrdWf, relWf, arbWf, proofWf, pageWf, Bool.and_eq_true] at hw ⊢; simp [hw]; done)
      | (intro _ _ _) | (simp only [storesWf_same])

theorem wf_islandPowerGood (i : Island) (s : Block) (h : storesWf s = true) :
    storesWf (islandPowerGood i s) = true := by
  unfold islandPowerGood
  (try simp only [])
  repeat' first
      | with_reducible assumption | with_reducible apply wf_upBoot | with_reducible apply wf_setPhase | split
      | (intro w hw; simp only [twinWf, catWf, accWf, rackWf, deskWf, shelfWf, retWf, lardWf, sortWf, bankWf, officeWf, obsWf, bakeWf, thrdWf, relWf, arbWf, proofWf, pageWf, Bool.and_eq_true] at hw ⊢; simp [hw]; done)
      | (intro _ _ _) | (simp only [storesWf_same])

theorem wf_loadFuses (s : Block) (h : storesWf s = true) :
    storesWf (loadFuses s) = true := by
  unfold loadFuses
  (try simp only [])
  repeat' first
      | with_reducible assumption | with_reducible apply wf_forEach | with_reducible apply wf_upSram
      | with_reducible apply wf_place | split
      | (intro w hw; simp only [twinWf, catWf, accWf, rackWf, deskWf, shelfWf, retWf, lardWf, sortWf, bankWf, officeWf, obsWf, bakeWf, thrdWf, relWf, arbWf, proofWf, pageWf, Bool.and_eq_true] at hw ⊢; simp [hw]; done)
      | (intro _ _ _) | (simp only [storesWf_same]) | (simp only [id_eq])

theorem wf_fatalFreeze (t : TwinId) (s : Block) (h : storesWf s = true) :
    storesWf (fatalFreeze t s) = true := by
  unfold fatalFreeze
  (try simp only [])
  repeat' first
      | with_reducible assumption | with_reducible apply wf_raiseFreeze | split
      | (intro w hw; simp only [twinWf, catWf, accWf, rackWf, deskWf, shelfWf, retWf, lardWf, sortWf, bankWf, officeWf, obsWf, bakeWf, thrdWf, relWf, arbWf, proofWf, pageWf, Bool.and_eq_true] at hw ⊢; simp [hw]; done)
      | (intro _ _ _) | (simp only [storesWf_same]) | (simp only [id_eq])

theorem wf_beginJoin (s : Block) (h : storesWf s = true) :
    storesWf (beginJoin s) = true := by
  unfold beginJoin
  (try simp only [])
  repeat' first
      | with_reducible assumption | with_reducible apply wf_sendCtrl | with_reducible apply wf_setPhase | split
      | (intro w hw; simp only [twinWf, catWf, accWf, rackWf, deskWf, shelfWf, retWf, lardWf, sortWf, bankWf, officeWf, obsWf, bakeWf, thrdWf, relWf, arbWf, proofWf, pageWf, Bool.and_eq_true] at hw ⊢; simp [hw]; done)
      | (intro _ _ _) | (simp only [storesWf_same]) | (simp only [id_eq])

theorem wf_zeroEnd (s : Block) (h : storesWf s = true) :
    storesWf (zeroEnd s) = true := by
  unfold zeroEnd
  (try simp only [])
  repeat' first
      | with_reducible assumption | with_reducible apply wf_setPhase | with_reducible apply wf_loadFuses
      | with_reducible apply wf_fatalFreeze | with_reducible apply wf_pairFatal | with_reducible apply wf_setCause
      | with_reducible apply wf_setSvc | with_reducible apply wf_beginJoin | split
      | (intro w hw; simp only [twinWf, catWf, accWf, rackWf, deskWf, shelfWf, retWf, lardWf, sortWf, bankWf, officeWf, obsWf, bakeWf, thrdWf, relWf, arbWf, proofWf, pageWf, Bool.and_eq_true] at hw ⊢; simp [hw]; done)
      | (intro _ _ _) | (simp only [storesWf_same]) | (simp only [id_eq])

theorem wf_readBootHeader (t : TwinId) (s : Block) (h : storesWf s = true) :
    storesWf (readBootHeader t s) = true := by
  unfold readBootHeader
  (try simp only [])
  repeat' first
      | with_reducible assumption | with_reducible apply wf_emit | split
      | (intro w hw; simp only [twinWf, catWf, accWf, rackWf, deskWf, shelfWf, retWf, lardWf, sortWf, bankWf, officeWf, obsWf, bakeWf, thrdWf, relWf, arbWf, proofWf, pageWf, Bool.and_eq_true] at hw ⊢; simp [hw]; done)
      | (intro _ _ _) | (simp only [storesWf_same]) | (simp only [id_eq])

theorem wf_bootPoll (t : TwinId) (answer : Option Nat) (s : Block) (h : storesWf s = true) :
    storesWf (bootPoll t answer s) = true := by
  unfold bootPoll
  (try simp only [])
  repeat' first
      | with_reducible assumption | with_reducible apply wf_emit | with_reducible apply wf_readBootHeader
      | with_reducible apply wf_upBoot | split
      | (intro w hw; simp only [twinWf, catWf, accWf, rackWf, deskWf, shelfWf, retWf, lardWf, sortWf, bankWf, officeWf, obsWf, bakeWf, thrdWf, relWf, arbWf, proofWf, pageWf, Bool.and_eq_true] at hw ⊢; simp [hw]; done)
      | (intro _ _ _) | (simp only [storesWf_same]) | (simp only [id_eq])

theorem wf_readImage (t : TwinId) (header : List Nat) (s : Block) (h : storesWf s = true) :
    storesWf (readImage t header s) = true := by
  unfold readImage
  (try simp only [])
  repeat' first
      | with_reducible assumption | with_reducible apply wf_emit | split
      | (intro w hw; simp only [twinWf, catWf, accWf, rackWf, deskWf, shelfWf, retWf, lardWf, sortWf, bankWf, officeWf, obsWf, bakeWf, thrdWf, relWf, arbWf, proofWf, pageWf, Bool.and_eq_true] at hw ⊢; simp [hw]; done)
      | (intro _ _ _) | (simp only [storesWf_same]) | (simp only [id_eq])

theorem wf_startArchivist (t : TwinId) (header : List Nat) (image : List Byte) (s : Block) (h : storesWf s = true) :
    storesWf (startArchivist t header image s) = true := by
  unfold startArchivist
  (try simp only [])
  repeat' first
      | with_reducible assumption | with_reducible apply wf_upRel | with_reducible apply wf_upBoot | split
      | (intro w hw; simp only [twinWf, catWf, accWf, rackWf, deskWf, shelfWf, retWf, lardWf, sortWf, bankWf, officeWf, obsWf, bakeWf, thrdWf, relWf, arbWf, proofWf, pageWf, Bool.and_eq_true] at hw ⊢; simp [hw]; done)
      | (intro _ _ _) | (simp only [storesWf_same]) | (simp only [id_eq])

theorem wf_imageLoadEnd (t : TwinId) (header : List Nat) (image : List Byte) (ioError : Bool) (s : Block) (h : storesWf s = true) :
    storesWf (imageLoadEnd t header image ioError s) = true := by
  unfold imageLoadEnd
  (try simp only [])
  repeat' first
      | with_reducible assumption | with_reducible apply wf_readImage | with_reducible apply wf_setPhase
      | with_reducible apply wf_startArchivist | with_reducible apply wf_upBoot | with_reducible apply wf_beginJoin
      | split
      | (intro w hw; simp only [twinWf, catWf, accWf, rackWf, deskWf, shelfWf, retWf, lardWf, sortWf, bankWf, officeWf, obsWf, bakeWf, thrdWf, relWf, arbWf, proofWf, pageWf, Bool.and_eq_true] at hw ⊢; simp [hw]; done)
      | (intro _ _ _) | (simp only [storesWf_same]) | (simp only [id_eq])

theorem wf_fullSelfTestEnd (t : TwinId) (fails : List (Nat × Nat × List Nat)) (logicOk : Bool) (s : Block) (h : storesWf s = true) :
    storesWf (fullSelfTestEnd t fails logicOk s) = true := by
  unfold fullSelfTestEnd
  (try simp only [])
  repeat' first
      | with_reducible assumption | with_reducible apply wf_endFullTest | with_reducible apply wf_upBoot
      | with_reducible apply wf_selfTestEnd | split
      | (intro w hw; simp only [twinWf, catWf, accWf, rackWf, deskWf, shelfWf, retWf, lardWf, sortWf, bankWf, officeWf, obsWf, bakeWf, thrdWf, relWf, arbWf, proofWf, pageWf, Bool.and_eq_true] at hw ⊢; simp [hw]; done)
      | (intro _ _ _) | (simp only [storesWf_same]) | (simp only [id_eq])

theorem wf_joinAlone (t : TwinId) (cause : Nat) (s : Block) (h : storesWf s = true) :
    storesWf (joinAlone t cause s) = true := by
  unfold joinAlone
  (try simp only [])
  repeat' first
      | with_reducible assumption | with_reducible apply wf_fatalFreeze | with_reducible apply wf_upPair | (intro p hp; exact hp) | (intro p hp; exact hp) | (intro p hp; exact hp) | with_reducible apply wf_setCause
      | with_reducible apply wf_setSvc | split
      | (intro w hw; simp only [twinWf, catWf, accWf, rackWf, deskWf, shelfWf, retWf, lardWf, sortWf, bankWf, officeWf, obsWf, bakeWf, thrdWf, relWf, arbWf, proofWf, pageWf, Bool.and_eq_true] at hw ⊢; simp [hw]; done)
      | (intro _ _ _) | (simp only [storesWf_same])

theorem wf_joined (ok0 : Bool) (ok1 : Bool) (s : Block) (h : storesWf s = true) :
    storesWf (joined ok0 ok1 s) = true := by
  unfold joined
  (try simp only [])
  repeat' first
      | with_reducible assumption | with_reducible apply wf_joinAlone | with_reducible apply wf_setSvc | split
      | (intro _ _ _) | (simp only [storesWf_same])

theorem wf_dropResync (t : TwinId) (s : Block) (h : storesWf s = true) :
    storesWf (dropResync t s) = true := by
  unfold dropResync
  (try simp only [])
  repeat' first
      | with_reducible assumption | with_reducible apply wf_upTw | split
      | (intro w hw; simp only [twinWf, catWf, accWf, rackWf, deskWf, shelfWf, retWf, lardWf, sortWf, bankWf, officeWf, obsWf, bakeWf, thrdWf, relWf, arbWf, proofWf, pageWf, Bool.and_eq_true] at hw ⊢; simp [hw]; done)
      | (intro _ _ _) | (simp only [storesWf_same]) | (simp only [id_eq])

theorem wf_patternCheckEnd (ok0 ok1 : Bool) (s : Block) (h : storesWf s = true) :
    storesWf (patternCheckEnd ok0 ok1 s) = true := by
  unfold patternCheckEnd
  (try simp only [])
  repeat' first
      | with_reducible assumption | with_reducible apply wf_setPhase | with_reducible apply wf_joined
      | with_reducible apply wf_dropResync | with_reducible apply wf_forEach | with_reducible apply wf_upCore
      | with_reducible apply wf_upRel | with_reducible apply wf_upProof | with_reducible apply wf_portReady
      | with_reducible apply wf_portService | split
      | (intro w hw; simp only [twinWf, catWf, accWf, rackWf, deskWf, shelfWf, retWf, lardWf, sortWf, bankWf, officeWf, obsWf, bakeWf, thrdWf, relWf, arbWf, proofWf, pageWf, Bool.and_eq_true] at hw ⊢; simp [hw]; done)
      | (intro _ _ _) | (simp only [storesWf_same]) | (simp only [id_eq])

theorem wf_managerSet (port : Nat) (fn : Nat) (s : Block) (h : storesWf s = true) :
    storesWf (managerSet port fn s) = true := by
  unfold managerSet
  (try simp only [])
  repeat' first
      | with_reducible assumption | with_reducible apply wf_setPhase | with_reducible apply wf_upBoot | split
      | (intro w hw; simp only [twinWf, catWf, accWf, rackWf, deskWf, shelfWf, retWf, lardWf, sortWf, bankWf, officeWf, obsWf, bakeWf, thrdWf, relWf, arbWf, proofWf, pageWf, Bool.and_eq_true] at hw ⊢; simp [hw]; done)
      | (intro _ _ _) | (simp only [storesWf_same])

theorem wf_bootRun (v : Nat) (s : Block) (h : storesWf s = true) : storesWf (bootRun v s) = true := by
  unfold bootRun
  (try simp only [])
  repeat' first
      | with_reducible assumption | with_reducible apply wf_setPhase | split | (intro _ _ _)
      | (simp only [storesWf_same])

theorem wf_burned {t : TwinId} {g bank : Nat} {s b : Block} (h : storesWf s = true) (e : burned t g bank s = some b) :
    storesWf b = true := by
  unfold burned at e
  simp only [] at e
  repeat' split at e
  · exact Option.some.inj e ▸ storesWf_fuseBanks_set _ _ h (mapWf_mapSet _ _ _ _ (storesWf_fuseBanks h))
  · exact Option.some.inj e ▸ storesWf_fuses_set _ _ h (mapWf_mapSet _ _ _ _ (storesWf_fuses h))
  · cases e

theorem wf_fuseBurn (t : TwinId) (g bank : Nat) (ok : Bool) (s : Block) (h : storesWf s = true) :
    storesWf (fuseBurn t g bank ok s) = true := by
  unfold fuseBurn
  split
  · split
    · split
      · exact wf_burned h ‹_›
      · exact wf_setErr _ _ _ h
    · exact h
  · exact h

theorem wf_setSeg (g : Segment) (o : Option SegmentParty) (s : Block) (h : storesWf s = true) :
    storesWf (setSeg g o s) = true := by
  unfold setSeg
  (try simp only [])
  repeat' first | with_reducible assumption | split | (intro _ _ _) | (simp only [storesWf_same])

theorem wf_segmentOpen (who : SegmentParty) (g : Segment) (s : Block) (h : storesWf s = true) :
    storesWf (segmentOpen who g s) = true := by
  unfold segmentOpen
  (try simp only [])
  repeat' first
      | with_reducible assumption | with_reducible apply wf_setSeg | split | (intro _ _ _)
      | (simp only [storesWf_same])

theorem wf_segmentClose (who : SegmentParty) (g : Segment) (s : Block) (h : storesWf s = true) :
    storesWf (segmentClose who g s) = true := by
  unfold segmentClose
  (try simp only [])
  repeat' first
      | with_reducible assumption | with_reducible apply wf_setSeg | split | (intro _ _ _)
      | (simp only [storesWf_same])

theorem wf_writeRange (t : TwinId) (key : Nat) (r : RangeReg) (acc : Access) (v : Nat) (s : Block)
    (h : storesWf s = true) :
    storesWf (writeRange t key r acc v s) = true := by
  unfold writeRange
  (try simp only [])
  repeat' first
      | with_reducible assumption | with_reducible apply wf_setErr | with_reducible apply wf_upCtxTw | split
      | (intro w hw; simp only [twinWf, catWf, accWf, rackWf, deskWf, shelfWf, retWf, lardWf, sortWf, bankWf, officeWf, obsWf, bakeWf, thrdWf, relWf, arbWf, proofWf, pageWf, Bool.and_eq_true] at hw ⊢; simp [hw]; done)
      | (intro _ _ _) | (simp only [storesWf_same])

theorem wf_writePool (t : TwinId) (key : Nat) (acc : Access) (v : Nat) (s : Block) (h : storesWf s = true) :
    storesWf (writePool t key acc v s) = true := by
  unfold writePool
  (try simp only [])
  repeat' first
      | with_reducible assumption | with_reducible apply wf_setErr | with_reducible apply wf_setReg | split
      | (intro _ _ _) | (simp only [storesWf_same])

theorem wf_writeWindow (acc : Access) (v : Nat) (s : Block) (h : storesWf s = true) :
    storesWf (writeWindow acc v s) = true := by
  unfold writeWindow
  (try simp only [])
  repeat' first
      | with_reducible assumption | with_reducible apply wf_setErr | with_reducible apply wf_upCtx | split
      | (intro w hw; simp only [twinWf, catWf, accWf, rackWf, deskWf, shelfWf, retWf, lardWf, sortWf, bankWf, officeWf, obsWf, bakeWf, thrdWf, relWf, arbWf, proofWf, pageWf, Bool.and_eq_true] at hw ⊢; simp [hw]; done)
      | (intro _ _ _) | (simp only [storesWf_same])

theorem wf_writeSelect (acc : Access) (v : Nat) (s : Block) (h : storesWf s = true) :
    storesWf (writeSelect acc v s) = true := by
  unfold writeSelect
  (try simp only [])
  repeat' first
      | with_reducible assumption | with_reducible apply wf_upCtx | split
      | (intro w hw; simp only [twinWf, catWf, accWf, rackWf, deskWf, shelfWf, retWf, lardWf, sortWf, bankWf, officeWf, obsWf, bakeWf, thrdWf, relWf, arbWf, proofWf, pageWf, Bool.and_eq_true] at hw ⊢; simp [hw]; done)
      | (intro _ _ _) | (simp only [storesWf_same])

theorem wf_writeRecipe (acc : Access) (v : Nat) (s : Block) (h : storesWf s = true) :
    storesWf (writeRecipe acc v s) = true := by
  unfold writeRecipe
  (try simp only [])
  repeat' first
      | with_reducible assumption | with_reducible apply wf_upRecipe | split
      | (intro w hw; simp only [twinWf, catWf, accWf, rackWf, deskWf, shelfWf, retWf, lardWf, sortWf, bankWf, officeWf, obsWf, bakeWf, thrdWf, relWf, arbWf, proofWf, pageWf, Bool.and_eq_true] at hw ⊢; simp [hw]; done)
      | (intro _ _ _) | (simp only [storesWf_same])

theorem wf_writeLast (t : TwinId) (p : Nat) (off : Nat) (d : Nat) (s : Block) (h : storesWf s = true) :
    storesWf (writeLast t p off d s) = true := by
  unfold writeLast
  (try simp only [])
  repeat' first
      | with_reducible assumption | with_reducible apply wf_upTw | split
      | (intro w hw; simp only [twinWf, catWf, accWf, rackWf, deskWf, shelfWf, retWf, lardWf, sortWf, bankWf, officeWf, obsWf, bakeWf, thrdWf, relWf, arbWf, proofWf, pageWf, Bool.and_eq_true] at hw ⊢; simp [hw]; done)
      | (intro _ _ _) | (simp only [storesWf_same])

theorem wf_writeOwner (acc : Access) (v : Nat) (s : Block) (h : storesWf s = true) :
    storesWf (writeOwner acc v s) = true := by
  unfold writeOwner
  (try simp only [])
  repeat' first
      | with_reducible assumption | with_reducible apply wf_setErr | with_reducible apply wf_upCtx | split
      | (intro w hw; simp only [twinWf, catWf, accWf, rackWf, deskWf, shelfWf, retWf, lardWf, sortWf, bankWf, officeWf, obsWf, bakeWf, thrdWf, relWf, arbWf, proofWf, pageWf, Bool.and_eq_true] at hw ⊢; simp [hw]; done)
      | (intro _ _ _) | (simp only [storesWf_same])

theorem wf_writeNotifyBase (k : Nat) (acc : Access) (v : Nat) (s : Block) (h : storesWf s = true) :
    storesWf (writeNotifyBase k acc v s) = true := by
  unfold writeNotifyBase
  (try simp only [])
  repeat' first
      | with_reducible assumption | with_reducible apply wf_setErr | with_reducible apply wf_setReg | split
      | (intro _ _ _) | (simp only [storesWf_same])

theorem wf_writeTail (k : Nat) (acc : Access) (v : Nat) (s : Block) (h : storesWf s = true) :
    storesWf (writeTail k acc v s) = true := by
  unfold writeTail
  (try simp only [])
  repeat' first
      | with_reducible assumption | with_reducible apply wf_tailWrite | split | (intro _ _ _)
      | (simp only [storesWf_same])

theorem wf_writeMsix (k : Nat) (vec : Nat) (acc : Access) (v : Nat) (s : Block) (h : storesWf s = true) :
    storesWf (writeMsix k vec acc v s) = true := by
  unfold writeMsix
  (try simp only [])
  repeat' first
      | with_reducible assumption | with_reducible apply wf_msixWrite | split | (intro _ _ _)
      | (simp only [storesWf_same])

theorem wf_timeLoad (v : Nat) (s : Block) (h : storesWf s = true) : storesWf (timeLoad v s) = true := by
  unfold timeLoad
  (try simp only [])
  repeat' first
      | with_reducible assumption | with_reducible apply wf_setErr | with_reducible apply wf_upProof | split
      | (intro w hw; simp only [twinWf, catWf, accWf, rackWf, deskWf, shelfWf, retWf, lardWf, sortWf, bankWf, officeWf, obsWf, bakeWf, thrdWf, relWf, arbWf, proofWf, pageWf, Bool.and_eq_true] at hw ⊢; simp [hw]; done)
      | (intro _ _ _) | (simp only [storesWf_same])

theorem wf_timeSlew (v : Nat) (s : Block) (h : storesWf s = true) : storesWf (timeSlew v s) = true := by
  unfold timeSlew
  (try simp only [])
  repeat' first
      | with_reducible assumption | with_reducible apply wf_upProof | split
      | (intro w hw; simp only [twinWf, catWf, accWf, rackWf, deskWf, shelfWf, retWf, lardWf, sortWf, bankWf, officeWf, obsWf, bakeWf, thrdWf, relWf, arbWf, proofWf, pageWf, Bool.and_eq_true] at hw ⊢; simp [hw]; done)
      | (intro _ _ _) | (simp only [storesWf_same])

theorem wf_writeSlot (t : TwinId) (acc : Access) (v : Nat) (s : Block) (h : storesWf s = true) :
    storesWf (writeSlot t acc v s) = true := by
  unfold writeSlot
  (try simp only [])
  repeat' first
      | with_reducible assumption | with_reducible apply wf_slotWrite | split | (intro _ _ _)
      | (simp only [storesWf_same])

theorem wf_writeOptCfg (t : TwinId) (acc : Access) (v : Nat) (s : Block) (h : storesWf s = true) :
    storesWf (writeOptCfg t acc v s) = true := by
  unfold writeOptCfg
  (try simp only [])
  repeat' first
      | with_reducible assumption | with_reducible apply wf_setErr | with_reducible apply wf_upTw | split
      | (intro w hw; simp only [twinWf, catWf, accWf, rackWf, deskWf, shelfWf, retWf, lardWf, sortWf, bankWf, officeWf, obsWf, bakeWf, thrdWf, relWf, arbWf, proofWf, pageWf, Bool.and_eq_true] at hw ⊢; simp [hw]; done)
      | (intro _ _ _) | (simp only [storesWf_same])

theorem wf_pageEnable (key : Nat) (v : Bool) (s : Block) (h : storesWf s = true) :
    storesWf (pageEnable key v s) = true := by
  unfold pageEnable
  (try simp only [])
  repeat' first
      | with_reducible assumption | with_reducible apply wf_pwrEnable | with_reducible apply wf_setErr
      | with_reducible apply wf_upPage | split
      | (intro w hw; simp only [twinWf, catWf, accWf, rackWf, deskWf, shelfWf, retWf, lardWf, sortWf, bankWf, officeWf, obsWf, bakeWf, thrdWf, relWf, arbWf, proofWf, pageWf, Bool.and_eq_true] at hw ⊢; simp [hw]; done)
      | (intro _ _ _) | (simp only [storesWf_same])

theorem wf_writePageCtrl (key : Nat) (d : Nat) (s : Block) (h : storesWf s = true) :
    storesWf (writePageCtrl key d s) = true := by
  unfold writePageCtrl
  (try simp only [])
  repeat' first
      | with_reducible assumption | with_reducible apply wf_pageEnable | with_reducible apply wf_commitPage | split
      | (intro _ _ _) | (simp only [storesWf_same])

theorem wf_writeInject (key : Nat) (acc : Access) (v : Nat) (s : Block) (h : storesWf s = true) :
    storesWf (writeInject key acc v s) = true := by
  unfold writeInject
  (try simp only [])
  repeat' first
      | with_reducible assumption | with_reducible apply wf_errInjectWrite | split | (intro _ _ _)
      | (simp only [storesWf_same])

theorem wf_writeFreezeCtl (acc : Access) (v : Nat) (s : Block) (h : storesWf s = true) :
    storesWf (writeFreezeCtl acc v s) = true := by
  unfold writeFreezeCtl
  (try simp only [])
  repeat' first
      | with_reducible assumption | with_reducible apply wf_setReg | with_reducible apply wf_freezeCmd
      | with_reducible apply wf_thawCmd | split | (intro _ _ _) | (simp only [storesWf_same])

theorem wf_writePairCtl (d : Nat) (s : Block) (h : storesWf s = true) : storesWf (writePairCtl d s) = true := by
  unfold writePairCtl
  (try simp only [])
  repeat' first
      | with_reducible assumption | with_reducible apply wf_pairCtl | with_reducible apply wf_detach
      | with_reducible apply wf_rejoin | with_reducible apply wf_failTwin | with_reducible apply wf_recover | split
      | (intro _ _ _) | (simp only [storesWf_same])

theorem wf_writeCtxCmd (d : Nat) (s : Block) (h : storesWf s = true) : storesWf (writeCtxCmd d s) = true := by
  unfold writeCtxCmd
  (try simp only [])
  repeat' first
      | with_reducible assumption | with_reducible apply wf_ctxOpen | with_reducible apply wf_ctxClose
      | with_reducible apply wf_ctxFault | split | (intro _ _ _) | (simp only [storesWf_same])

theorem wf_writeEngineCtl (t : TwinId) (d : Nat) (s : Block) (h : storesWf s = true) :
    storesWf (writeEngineCtl t d s) = true := by
  unfold writeEngineCtl
  (try simp only [])
  repeat' first
      | with_reducible assumption | with_reducible apply wf_engineCtl | with_reducible apply wf_setErr | split
      | (intro w hw; simp only [twinWf, catWf, accWf, rackWf, deskWf, shelfWf, retWf, lardWf, sortWf, bankWf, officeWf, obsWf, bakeWf, thrdWf, relWf, arbWf, proofWf, pageWf, Bool.and_eq_true] at hw ⊢; simp [hw]; done)
      | (intro _ _ _) | (simp only [storesWf_same]) | (simp only [id_eq])

theorem wf_writeThrdCmd (t : TwinId) (d : Nat) (s : Block) (h : storesWf s = true) :
    storesWf (writeThrdCmd t d s) = true := by
  unfold writeThrdCmd
  (try simp only [])
  repeat' first
      | with_reducible assumption | with_reducible apply wf_threadCreate | with_reducible apply wf_threadDestroy
      | with_reducible apply wf_threadSet | with_reducible apply wf_threadCmdWake
      | with_reducible apply wf_threadQuery | split | (intro _ _ _) | (simp only [storesWf_same])

theorem wf_writeCoreCtl (d : Nat) (s : Block) (h : storesWf s = true) : storesWf (writeCoreCtl d s) = true := by
  unfold writeCoreCtl
  (try simp only [])
  repeat' first
      | with_reducible assumption | with_reducible apply wf_coreRemove | with_reducible apply wf_coreRestore | split
      | (intro _ _ _) | (simp only [storesWf_same])

theorem wf_writeOptCmd (t : TwinId) (d : Nat) (s : Block) (h : storesWf s = true) :
    storesWf (writeOptCmd t d s) = true := by
  unfold writeOptCmd
  (try simp only [])
  repeat' first
      | with_reducible assumption | with_reducible apply wf_optCmd | split | (intro _ _ _)
      | (simp only [storesWf_same])

theorem wf_writeShardCmd (k : Nat) (d : Nat) (s : Block) (h : storesWf s = true) :
    storesWf (writeShardCmd k d s) = true := by
  unfold writeShardCmd
  (try simp only [])
  repeat' first
      | with_reducible assumption | with_reducible apply wf_shardAlloc | with_reducible apply wf_shardFree
      | with_reducible apply wf_shardMove | with_reducible apply wf_shardQuery | split | (intro _ _ _)
      | (simp only [storesWf_same])

theorem wf_writeTallyCmd (k : Nat) (d : Nat) (s : Block) (h : storesWf s = true) :
    storesWf (writeTallyCmd k d s) = true := by
  unfold writeTallyCmd
  (try simp only [])
  repeat' first
      | with_reducible assumption | with_reducible apply wf_tallyCommand | split | (intro _ _ _)
      | (simp only [storesWf_same])

theorem wf_writeTubeCmd (k : Nat) (d : Nat) (s : Block) (h : storesWf s = true) :
    storesWf (writeTubeCmd k d s) = true := by
  unfold writeTubeCmd
  (try simp only [])
  repeat' first
      | with_reducible assumption | with_reducible apply wf_tubeOpen | with_reducible apply wf_tubeClose
      | with_reducible apply wf_tubeQuery | split | (intro _ _ _) | (simp only [storesWf_same])

theorem wf_writeBowlCmd (k : Nat) (d : Nat) (s : Block) (h : storesWf s = true) :
    storesWf (writeBowlCmd k d s) = true := by
  unfold writeBowlCmd
  (try simp only [])
  repeat' first
      | with_reducible assumption | with_reducible apply wf_bowlOpen | with_reducible apply wf_bowlClose
      | with_reducible apply wf_bowlQuery | with_reducible apply wf_bowlReset | split | (intro _ _ _)
      | (simp only [storesWf_same])

theorem wf_afterStore (key : Nat) (off : Nat) (s : Block) (h : storesWf s = true) :
    storesWf (afterStore key off s) = true := by
  unfold afterStore
  (try simp only [])
  repeat' first
      | with_reducible assumption | with_reducible apply wf_stepTop | with_reducible apply wf_setErr
      | with_reducible apply wf_deskSettle | split | (intro _ _ _) | (simp only [storesWf_same])

theorem wf_storeReg (g : Grade) (key : Nat) (off : Nat) (acc : Access) (v : Nat) (s : Block) (h : storesWf s = true) :
    storesWf (storeReg g key off acc v s) = true := by
  unfold storeReg
  (try simp only [])
  repeat' first
      | with_reducible assumption | with_reducible apply wf_setErr | with_reducible apply wf_writeShadow
      | with_reducible apply wf_afterStore | with_reducible apply wf_setReg | split | (intro _ _ _)
      | (simp only [storesWf_same])

theorem writeCommon_wf {key off : Nat} {acc : Access} {v : Nat} {s r : Block} (h : storesWf s = true) (e : writeCommon key off acc v s = some r) : storesWf r = true := by
  unfold writeCommon at e
  (try simp only [] at e)
  (repeat' split at e) <;> cases e <;> (repeat' first | with_reducible assumption | with_reducible apply wf_writePageCtrl | with_reducible apply wf_upPage | with_reducible apply wf_writeInject | with_reducible apply wf_discardPage | split | (intro w hw; simp only [twinWf, catWf, accWf, rackWf, deskWf, shelfWf, retWf, lardWf, sortWf, bankWf, officeWf, obsWf, bakeWf, thrdWf, relWf, arbWf, proofWf, pageWf, Bool.and_eq_true] at hw ⊢; simp [hw]; done) | (intro _ _ _) | (simp only [storesWf_same]))

theorem writeCtx_wf {k off : Nat} {acc : Access} {v : Nat} {s r : Block} (h : storesWf s = true) (e : writeCtx k off acc v s = some r) : storesWf r = true := by
  unfold writeCtx at e
  (try simp only [] at e)
  (repeat' split at e) <;> cases e <;> (repeat' first | with_reducible assumption | with_reducible apply wf_ctxCtlClose | with_reducible apply wf_writeNotifyBase | with_reducible apply wf_writeTail | with_reducible apply wf_writeShardCmd | with_reducible apply wf_upCtx | with_reducible apply wf_sortCancel | with_reducible apply wf_writeTallyCmd | with_reducible apply wf_writeTubeCmd | with_reducible apply wf_writeBowlCmd | with_reducible apply wf_writeMsix | split | (intro w hw; simp only [twinWf, catWf, accWf, rackWf, deskWf, shelfWf, retWf, lardWf, sortWf, bankWf, officeWf, obsWf, bakeWf, thrdWf, relWf, arbWf, proofWf, pageWf, Bool.and_eq_true] at hw ⊢; simp [hw]; done) | (intro _ _ _) | (simp only [storesWf_same]))

theorem writeTwin_wf {t : TwinId} {p off : Nat} {acc : Access} {v : Nat} {s r : Block} (h : storesWf s = true) (e : writeTwin t p off acc v s = some r) : storesWf r = true := by
  unfold writeTwin at e
  (try simp only [] at e)
  (repeat' split at e) <;> cases e <;> (repeat' first | with_reducible assumption | with_reducible apply wf_writeRange | with_reducible apply wf_hwClr | with_reducible apply wf_writePool | with_reducible apply wf_writeEngineCtl | with_reducible apply wf_bowlPut | with_reducible apply wf_writeSlot | with_reducible apply wf_writeThrdCmd | with_reducible apply wf_writeCoreCtl | with_reducible apply wf_wdogKick | with_reducible apply wf_writeOptCfg | with_reducible apply wf_writeOptCmd | with_reducible apply wf_ringBaseWrite | with_reducible apply wf_daybRdWrite | with_reducible apply wf_wfgGo | with_reducible apply wf_invSel | with_reducible apply wf_writeLast | split | (intro _ _ _) | (simp only [storesWf_same]))

theorem writeTime_wf {off : Nat} {acc : Access} {v : Nat} {s r : Block} (h : storesWf s = true) (e : writeTime off acc v s = some r) : storesWf r = true := by
  unfold writeTime at e
  (try simp only [] at e)
  (repeat' split at e) <;> cases e <;> (repeat' first | with_reducible assumption | with_reducible apply wf_timeLoad | with_reducible apply wf_timeSlew | split | (intro _ _ _) | (simp only [storesWf_same]))

theorem writeFmt_wf {off : Nat} {acc : Access} {v : Nat} {s r : Block} (h : storesWf s = true) (e : writeFmt off acc v s = some r) : storesWf r = true := by
  unfold writeFmt at e
  (try simp only [] at e)
  (repeat' split at e) <;> cases e <;> (repeat' first | with_reducible assumption | with_reducible apply wf_writeWindow | with_reducible apply wf_writeSelect | with_reducible apply wf_writeRecipe | split | (intro _ _ _) | (simp only [storesWf_same]))

theorem writeBlk_wf {off : Nat} {acc : Access} {v : Nat} {s r : Block} (h : storesWf s = true) (e : writeBlk off acc v s = some r) : storesWf r = true := by
  unfold writeBlk at e
  (try simp only [] at e)
  (repeat' split at e) <;> cases e <;> (repeat' first | with_reducible assumption | with_reducible apply wf_writePairCtl | with_reducible apply wf_upPair | (intro p hp; exact hp) | (intro p hp; exact hp) | (intro p hp; exact hp) | with_reducible apply wf_bootRun | with_reducible apply wf_softReset | with_reducible apply wf_writeOwner | with_reducible apply wf_writeCtxCmd | with_reducible apply wf_writeFreezeCtl | split | (intro w hw; simp only [twinWf, catWf, accWf, rackWf, deskWf, shelfWf, retWf, lardWf, sortWf, bankWf, officeWf, obsWf, bakeWf, thrdWf, relWf, arbWf, proofWf, pageWf, Bool.and_eq_true] at hw ⊢; simp [hw]; done) | (intro _ _ _) | (simp only [storesWf_same]))

theorem writePwr_wf {off : Nat} {acc : Access} {v : Nat} {s r : Block} (h : storesWf s = true) (e : writePwr off acc v s = some r) : storesWf r = true := by
  unfold writePwr at e
  (try simp only [] at e)
  (repeat' split at e) <;> cases e <;> (repeat' first | with_reducible assumption | with_reducible apply wf_upDom | with_reducible apply wf_cluCtl | with_reducible apply wf_blockGate | split | (intro w hw; simp only [twinWf, catWf, accWf, rackWf, deskWf, shelfWf, retWf, lardWf, sortWf, bankWf, officeWf, obsWf, bakeWf, thrdWf, relWf, arbWf, proofWf, pageWf, Bool.and_eq_true] at hw ⊢; simp [hw]; done) | (intro _ _ _) | (simp only [storesWf_same]))

theorem writeAction_wf {key off : Nat} {acc : Access} {v : Nat} {s r : Block} (h : storesWf s = true) (e : writeAction key off acc v s = some r) : storesWf r = true := by
  unfold writeAction at e
  (repeat' split at e) <;> first | (exact writeCtx_wf ‹_› ‹_›) | (exact writeTwin_wf ‹_› ‹_›) | (exact writeBlk_wf ‹_› ‹_›) | (exact writePwr_wf ‹_› ‹_›) | (exact writeTime_wf ‹_› ‹_›) | (exact writeFmt_wf ‹_› ‹_›) | (cases e; done)

theorem wf_writeReg (g : Grade) (key : Nat) (off : Nat) (acc : Access) (v : Nat) (s : Block) (h : storesWf s = true) :
    storesWf (writeReg g key off acc v s) = true := by
  unfold writeReg
  (try simp only [])
  repeat' first
      | with_reducible assumption | (exact writeCommon_wf h ‹_›) | (exact writeAction_wf h ‹_›)
      | with_reducible apply wf_storeReg | split | (intro _ _ _) | (simp only [storesWf_same])

theorem wf_putAccess (src : Requester) (t : TwinId) (f : Block → Block) (s : Block) (h : storesWf s = true)
    (hf : ∀ s, storesWf s = true → storesWf (f s) = true) :
    storesWf (putAccess src t f s) = true := by
  unfold putAccess
  (try simp only [])
  repeat' first
      | with_reducible assumption | with_reducible apply hf | with_reducible apply wf_pageCmd | split | (intro _ _ _)
      | (simp only [storesWf_same])

theorem wf_registerWrite (src : Requester) (a size v : Nat) (s : Block) (h : storesWf s = true) :
    storesWf (registerWrite src a size v s) = true := by
  unfold registerWrite
  (try simp only [])
  repeat' first
      | with_reducible assumption | with_reducible apply wf_windowBytes | with_reducible apply wf_putAccess
      | with_reducible apply wf_writeReg | with_reducible apply wf_pageAccess | with_reducible apply wf_pageServe
      | with_reducible apply wf_emit | split
      | (intro w hw; simp only [twinWf, catWf, accWf, rackWf, deskWf, shelfWf, retWf, lardWf, sortWf, bankWf, officeWf, obsWf, bakeWf, thrdWf, relWf, arbWf, proofWf, pageWf, Bool.and_eq_true] at hw ⊢; simp [hw]; done)
      | (intro _ _ _) | (simp only [storesWf_same]) | (simp only [id_eq])

theorem wf_writeAt (src : Requester) (addr : RegAddr) (size v : Nat) (s : Block) (h : storesWf s = true) :
    storesWf (writeAt src addr size v s) = true := by
  unfold writeAt
  (try simp only [])
  repeat' first
      | with_reducible assumption | with_reducible apply wf_registerWrite | with_reducible apply wf_slotWriteReg | split
      | (intro w hw; simp only [twinWf, catWf, accWf, rackWf, deskWf, shelfWf, retWf, lardWf, sortWf, bankWf, officeWf, obsWf, bakeWf, thrdWf, relWf, arbWf, proofWf, pageWf, Bool.and_eq_true] at hw ⊢; simp [hw]; done)
      | (intro _ _ _) | (simp only [storesWf_same]) | (simp only [id_eq])

theorem wf_peekCheck (key : Nat) (off : Nat) (s : Block) (h : storesWf s = true) :
    storesWf (peekCheck key off s) = true := by
  unfold peekCheck
  (try simp only [])
  repeat' first
      | with_reducible assumption | with_reducible apply wf_setErr | split | (intro _ _ _)
      | (simp only [storesWf_same])

theorem wf_pageRead (src : Requester) (key : Nat) (off : Nat) (size : Nat) (s : Block) (h : storesWf s = true) :
    storesWf (pageRead src key off size s) = true := by
  unfold pageRead
  (try simp only [])
  repeat' first
      | with_reducible assumption | with_reducible apply wf_emit | with_reducible apply wf_denyOf
      | with_reducible apply wf_peekCheck | split | (intro _ _ _) | (simp only [storesWf_same])

theorem wf_registerRead (src : Requester) (a : Nat) (size : Nat) (s : Block) (h : storesWf s = true) :
    storesWf (registerRead src a size s) = true := by
  unfold registerRead
  (try simp only [])
  repeat' first
      | with_reducible assumption | with_reducible apply wf_emit | with_reducible apply wf_denyOf
      | with_reducible apply wf_pageRead | split | (intro _ _ _) | (simp only [storesWf_same])

theorem wf_readAt (src : Requester) (addr : RegAddr) (size : Nat) (s : Block) (h : storesWf s = true) :
    storesWf (readAt src addr size s) = true := by
  unfold readAt
  (try simp only [])
  repeat' first
      | with_reducible assumption | with_reducible apply wf_registerRead | with_reducible apply wf_slotRead | split
      | (intro w hw; simp only [twinWf, catWf, accWf, rackWf, deskWf, shelfWf, retWf, lardWf, sortWf, bankWf, officeWf, obsWf, bakeWf, thrdWf, relWf, arbWf, proofWf, pageWf, Bool.and_eq_true] at hw ⊢; simp [hw]; done)
      | (intro _ _ _) | (simp only [storesWf_same]) | (simp only [id_eq])

theorem wf_hostAccessDenied (port : Nat) (fn : Nat) (a : Nat) (isRead : Bool) (s : Block) (h : storesWf s = true) :
    storesWf (hostAccessDenied port fn a isRead s) = true := by
  unfold hostAccessDenied
  (try simp only [])
  repeat' first
      | with_reducible assumption | with_reducible apply wf_denyOf | with_reducible apply wf_emit | split
      | (intro _ _ _) | (simp only [storesWf_same])

theorem wf_dumpEnd (t : TwinId) (sections : Nat) (poison : List (Nat × Nat)) (s : Block) (h : storesWf s = true) :
    storesWf (dumpEnd t sections poison s) = true := by
  unfold dumpEnd
  (try simp only [])
  repeat' first
      | with_reducible assumption | with_reducible apply wf_forEach | with_reducible apply wf_emit
      | with_reducible apply wf_upPair | (intro p hp; exact hp) | (intro p hp; exact hp) | (intro p hp; exact hp) | split
      | (intro w hw; simp only [twinWf, catWf, accWf, rackWf, deskWf, shelfWf, retWf, lardWf, sortWf, bankWf, officeWf, obsWf, bakeWf, thrdWf, relWf, arbWf, proofWf, pageWf, Bool.and_eq_true] at hw ⊢; simp [hw]; done)
      | (intro _ _ _) | (simp only [storesWf_same]) | (simp only [id_eq])

theorem wf_bumpDc (key : Nat) (off : Nat) (n : Nat) (s : Block) (h : storesWf s = true) :
    storesWf (bumpDc key off n s) = true := by
  unfold bumpDc
  (try simp only [])
  repeat' first
      | with_reducible assumption | with_reducible apply wf_bump | split | (intro _ _ _)
      | (simp only [storesWf_same])

theorem wf_eventDc (t : TwinId) (code : Nat) (g : Nat) (s : Block) (h : storesWf s = true) :
    storesWf (eventDc t code g s) = true := by
  unfold eventDc
  (try simp only [])
  repeat' first
      | with_reducible assumption | with_reducible apply wf_optEvent | split | (intro _ _ _)
      | (simp only [storesWf_same])

theorem wf_portBusy (t : TwinId) (s : Block) (h : storesWf s = true) : storesWf (portBusy t s) = true := by
  unfold portBusy
  (try simp only [])
  repeat' first
      | with_reducible assumption | with_reducible apply wf_upTw | with_reducible apply wf_forEach | split
      | (intro w hw; simp only [twinWf, catWf, accWf, rackWf, deskWf, shelfWf, retWf, lardWf, sortWf, bankWf, officeWf, obsWf, bakeWf, thrdWf, relWf, arbWf, proofWf, pageWf, Bool.and_eq_true] at hw ⊢; simp [hw]; done)
      | (intro _ _ _) | (simp only [storesWf_same])

theorem wf_stallTick (t : TwinId) (s : Block) (h : storesWf s = true) :
    storesWf (stallTick t s) = true := by
  unfold stallTick
  (try simp only [])
  repeat' first
      | with_reducible assumption | with_reducible apply wf_bump | with_reducible apply wf_upObs | split
      | (intro w hw; simp only [twinWf, catWf, accWf, rackWf, deskWf, shelfWf, retWf, lardWf, sortWf, bankWf, officeWf, obsWf, bakeWf, thrdWf, relWf, arbWf, proofWf, pageWf, Bool.and_eq_true] at hw ⊢; simp [hw]; done)
      | (intro _ _ _) | (simp only [storesWf_same]) | (simp only [id_eq])

theorem wf_deskCycles (t : TwinId) (s : Block) (h : storesWf s = true) :
    storesWf (deskCycles t s) = true := by
  unfold deskCycles
  (try simp only [])
  repeat' first
      | with_reducible assumption | with_reducible apply wf_bumpDc | with_reducible apply wf_portBusy
      | with_reducible apply wf_forEach | with_reducible apply wf_eventDc | with_reducible apply wf_optEvent
      | with_reducible apply wf_stallTick | split
      | (intro w hw; simp only [twinWf, catWf, accWf, rackWf, deskWf, shelfWf, retWf, lardWf, sortWf, bankWf, officeWf, obsWf, bakeWf, thrdWf, relWf, arbWf, proofWf, pageWf, Bool.and_eq_true] at hw ⊢; simp [hw]; done)
      | (intro _ _ _) | (simp only [storesWf_same]) | (simp only [id_eq])

theorem wf_ageCtx (dt : Nat) (k : Nat) (s : Block) (h : storesWf s = true) : storesWf (ageCtx dt k s) = true := by
  unfold ageCtx
  (try simp only [])
  repeat' first
      | with_reducible assumption | with_reducible apply wf_upCtx | with_reducible apply wf_bumpCtx | split
      | (intro w hw; simp only [twinWf, catWf, accWf, rackWf, deskWf, shelfWf, retWf, lardWf, sortWf, bankWf, officeWf, obsWf, bakeWf, thrdWf, relWf, arbWf, proofWf, pageWf, Bool.and_eq_true] at hw ⊢; simp [hw]; done)
      | (intro _ _ _) | (simp only [storesWf_same])

theorem wf_wheelFrom (t : TwinId) (s : Block) (h : storesWf s = true) : storesWf (wheelFrom t s) = true := by
  unfold wheelFrom
  (try simp only [])
  repeat' first
      | with_reducible assumption | with_reducible apply wf_upTw | split
      | (intro w hw; simp only [twinWf, catWf, accWf, rackWf, deskWf, shelfWf, retWf, lardWf, sortWf, bankWf, officeWf, obsWf, bakeWf, thrdWf, relWf, arbWf, proofWf, pageWf, Bool.and_eq_true] at hw ⊢; simp [hw]; done)
      | (intro _ _ _) | (simp only [storesWf_same])

theorem wf_timeTick (s : Block) (h : storesWf s = true) : storesWf (timeTick s) = true := by
  unfold timeTick
  (try simp only [])
  repeat' first
      | with_reducible assumption | with_reducible apply wf_wheelFrom | with_reducible apply wf_upProof
      | with_reducible apply wf_ageCtx | with_reducible apply wf_forEach | split
      | (intro w hw; simp only [twinWf, catWf, accWf, rackWf, deskWf, shelfWf, retWf, lardWf, sortWf, bankWf, officeWf, obsWf, bakeWf, thrdWf, relWf, arbWf, proofWf, pageWf, Bool.and_eq_true] at hw ⊢; simp [hw]; done)
      | (intro _ _ _) | (simp only [storesWf_same])

theorem wf_tallyTick (s : Block) (h : storesWf s = true) :
    storesWf (tallyTick s) = true := by
  unfold tallyTick
  (try simp only [])
  repeat' first
      | with_reducible assumption | with_reducible apply wf_viewTick | with_reducible apply wf_bankTick
      | with_reducible apply wf_timeTick | with_reducible apply wf_pwrTick | with_reducible apply wf_domainTick
      | with_reducible apply wf_bankPowerTick | with_reducible apply wf_deskCycles | with_reducible apply wf_walkTick
      | split
      | (intro w hw; simp only [twinWf, catWf, accWf, rackWf, deskWf, shelfWf, retWf, lardWf, sortWf, bankWf, officeWf, obsWf, bakeWf, thrdWf, relWf, arbWf, proofWf, pageWf, Bool.and_eq_true] at hw ⊢; simp [hw]; done)
      | (intro _ _ _) | (simp only [storesWf_same]) | (simp only [id_eq])

theorem wf_onTwin (t : TwinId) (f : Block → Block) (s : Block) (h : storesWf s = true)
    (hf : ∀ s, storesWf s = true → storesWf (f s) = true) :
    storesWf (onTwin t f s) = true := by
  unfold onTwin
  (try simp only [])
  repeat' first
      | with_reducible assumption | with_reducible apply hf | split | (intro _ _ _) | (simp only [storesWf_same])

theorem wf_onPortWord (p : Nat) (i : Instr) (f : Block → Block) (s : Block) (h : storesWf s = true)
    (hf : ∀ s, storesWf s = true → storesWf (f s) = true) :
    storesWf (onPortWord p i f s) = true := by
  unfold onPortWord
  (try simp only [])
  repeat' first
      | with_reducible assumption | with_reducible apply hf | with_reducible apply wf_upTw | split
      | (intro w hw; simp only [twinWf, catWf, accWf, rackWf, deskWf, shelfWf, retWf, lardWf, sortWf, bankWf, officeWf, obsWf, bakeWf, thrdWf, relWf, arbWf, proofWf, pageWf, Bool.and_eq_true] at hw ⊢; simp [hw]; done)
      | (intro _ _ _) | (simp only [storesWf_same])

theorem wf_onThreadWord (x : Option Nat) (i : Instr) (f : Block → Block) (s : Block) (h : storesWf s = true)
    (hf : ∀ s, storesWf s = true → storesWf (f s) = true) :
    storesWf (onThreadWord x i f s) = true := by
  unfold onThreadWord
  (try simp only [])
  repeat' first
      | with_reducible assumption | with_reducible apply hf | with_reducible apply wf_upTw | split
      | (intro w hw; simp only [twinWf, catWf, accWf, rackWf, deskWf, shelfWf, retWf, lardWf, sortWf, bankWf, officeWf, obsWf, bakeWf, thrdWf, relWf, arbWf, proofWf, pageWf, Bool.and_eq_true] at hw ⊢; simp [hw]; done)
      | (intro _ _ _) | (simp only [storesWf_same])

theorem wf_onCluster (e : Nat) (f : Block → Block) (s : Block) (h : storesWf s = true)
    (hf : ∀ s, storesWf s = true → storesWf (f s) = true) :
    storesWf (onCluster e f s) = true := by
  unfold onCluster
  (try simp only [])
  repeat' first
      | with_reducible assumption | with_reducible apply hf | split | (intro _ _ _) | (simp only [storesWf_same])

theorem wf_onSlot (addr : RegAddr) (f : Block → Block) (s : Block) (h : storesWf s = true)
    (hf : ∀ s, storesWf s = true → storesWf (f s) = true) : storesWf (onSlot addr f s) = true := by
  unfold onSlot
  split
  · exact hf s h
  · exact wf_onCluster _ _ _ h hf

theorem wf_reportAs (core : BitVec 3) (thread : BitVec 12) (asks : Bool) (o : ThreadOutcome) (i : Instr)
    (s : Block) (h : storesWf s = true) :
    storesWf (reportAs core thread asks o i s) = true := by
  unfold reportAs
  (try simp only [])
  repeat' first
      | with_reducible assumption | with_reducible apply wf_onThreadWord | with_reducible apply wf_reportWord | split
      | (intro _ _ _) | (simp only [storesWf_same])

theorem wf_takeWord (i : Instr) (s : Block) (h : storesWf s = true) : storesWf (takeWord i s) = true := by
  unfold takeWord
  (try simp only [])
  repeat' first
      | with_reducible assumption | with_reducible apply wf_onPortWord | with_reducible apply wf_claimWord
      | with_reducible apply wf_acceptWord | with_reducible apply wf_completeWord
      | with_reducible apply wf_onThreadWord | with_reducible apply wf_askWord | with_reducible apply wf_reportAs
      | with_reducible apply wf_wakeWord | split | (intro _ _ _) | (simp only [storesWf_same])

theorem wf_landCredits (cs : List Credit) (s : Block) (h : storesWf s = true) :
    storesWf (landCredits cs s) = true := by
  unfold landCredits
  (try simp only [])
  repeat' first
      | with_reducible assumption | with_reducible apply wf_forEach | with_reducible apply wf_recheckSlot
      | with_reducible apply wf_applyCredits | split
      | (intro w hw; simp only [twinWf, catWf, accWf, rackWf, deskWf, shelfWf, retWf, lardWf, sortWf, bankWf, officeWf, obsWf, bakeWf, thrdWf, relWf, arbWf, proofWf, pageWf, Bool.and_eq_true] at hw ⊢; simp [hw]; done)
      | (intro _ _ _) | (simp only [storesWf_same]) | (simp only [id_eq])

theorem wf_applyItem (t : TwinId) (i : EdgeItem) (s : Block) (h : storesWf s = true) :
    storesWf (applyItem t i s) = true := by
  unfold applyItem
  (try simp only [])
  repeat' first
      | with_reducible assumption | with_reducible apply wf_landCredits | with_reducible apply wf_sendItem
      | with_reducible apply wf_applyMirrorReq | with_reducible apply wf_applyMirrorAck
      | with_reducible apply wf_applyAppend | with_reducible apply wf_upCtxTw | with_reducible apply wf_applyTargetAns
      | with_reducible apply wf_locAt | with_reducible apply wf_sealCopy | with_reducible apply wf_upMove
      | with_reducible apply wf_moveReqAt | with_reducible apply wf_writerIncAt | with_reducible apply wf_writerDecAt
      | with_reducible apply wf_serviceAt | with_reducible apply wf_flushReqAt | with_reducible apply wf_flushDoneAt
      | with_reducible apply wf_offerAt | with_reducible apply wf_answerAt | with_reducible apply wf_gDataAt
      | with_reducible apply wf_gMarkAt | with_reducible apply wf_triggerAt | with_reducible apply wf_releaseAt
      | with_reducible apply wf_batchAt | with_reducible apply wf_epochBumpAt | with_reducible apply wf_wakeItem | split
      | (intro w hw; simp only [twinWf, catWf, accWf, rackWf, deskWf, shelfWf, retWf, lardWf, sortWf, bankWf, officeWf, obsWf, bakeWf, thrdWf, relWf, arbWf, proofWf, pageWf, Bool.and_eq_true] at hw ⊢; simp [hw]; done)
      | (intro _ _ _) | (simp only [storesWf_same]) | (simp only [id_eq])

theorem wf_applyClaim (t : TwinId) (i : ClaimItem) (s : Block) (h : storesWf s = true) :
    storesWf (applyClaim t i s) = true := by
  unfold applyClaim
  (try simp only [])
  repeat' first
      | with_reducible assumption | with_reducible apply wf_fwdClaimAt | with_reducible apply wf_decline
      | with_reducible apply wf_declineAt | with_reducible apply wf_grantAt | with_reducible apply wf_returnNode
      | with_reducible apply wf_acceptRec | with_reducible apply wf_completionAt | with_reducible apply wf_proxyAt
      | with_reducible apply wf_proxyGrantAt | with_reducible apply wf_proxyRefusedAt
      | with_reducible apply wf_proxyBackAt | split
      | (intro w hw; simp only [twinWf, catWf, accWf, rackWf, deskWf, shelfWf, retWf, lardWf, sortWf, bankWf, officeWf, obsWf, bakeWf, thrdWf, relWf, arbWf, proofWf, pageWf, Bool.and_eq_true] at hw ⊢; simp [hw]; done)
      | (intro _ _ _) | (simp only [storesWf_same]) | (simp only [id_eq])

theorem takeEdge_wf {t : TwinId} {p : EdgeItem → Bool} {s : Block} {r : EdgeItem × Block} (h : storesWf s = true) (e : takeEdge t p s = some r) : storesWf r.2 = true := by
  unfold takeEdge at e
  (repeat' split at e) <;> cases e <;> (simp only []; first | with_reducible exact wf_upThrd _ _ _ h (fun w hw => by simpa [thrdWf] using hw) | exact wf_upTw _ _ _ h (fun w hw => by simp only [twinWf, catWf, accWf, rackWf, deskWf, shelfWf, retWf, lardWf, sortWf, bankWf, officeWf, obsWf, bakeWf, thrdWf, relWf, arbWf, proofWf, pageWf, Bool.and_eq_true] at hw ⊢; simp [hw]))

theorem wf_edgeCmd (t : TwinId) (p : EdgeItem → Bool) (s : Block) (h : storesWf s = true) :
    storesWf (edgeCmd t p s) = true := by
  unfold edgeCmd
  apply wf_onTwin _ _ _ h
  intro s hs
  split
  · rename_i e
    have hk := takeEdge_wf hs e
    dsimp only at hk
    apply wf_applyItem _ _ _ hk
  · exact hs

theorem takeClaim_wf {t : TwinId} {p : ClaimItem → Bool} {s : Block} {r : ClaimItem × Block} (h : storesWf s = true) (e : takeClaim t p s = some r) : storesWf r.2 = true := by
  unfold takeClaim at e
  (repeat' split at e) <;> cases e <;> (simp only []; first | with_reducible exact wf_upThrd _ _ _ h (fun w hw => by simpa [thrdWf] using hw) | exact wf_upTw _ _ _ h (fun w hw => by simp only [twinWf, catWf, accWf, rackWf, deskWf, shelfWf, retWf, lardWf, sortWf, bankWf, officeWf, obsWf, bakeWf, thrdWf, relWf, arbWf, proofWf, pageWf, Bool.and_eq_true] at hw ⊢; simp [hw]))

theorem wf_claimCmd (t : TwinId) (p : ClaimItem → Bool) (s : Block) (h : storesWf s = true) :
    storesWf (claimCmd t p s) = true := by
  unfold claimCmd
  apply wf_onTwin _ _ _ h
  intro s hs
  split
  · rename_i e
    have hk := takeClaim_wf hs e
    dsimp only at hk
    apply wf_applyClaim _ _ _ hk
  · exact hs

theorem wf_carryOut (id : Nat) (s : Block) (h : storesWf s = true) : storesWf (carryOut id s) = true := by
  unfold carryOut
  (try simp only [])
  repeat' first
      | with_reducible assumption | with_reducible apply wf_fenceReady | with_reducible apply wf_notifyReady
      | with_reducible apply wf_stepMarkReady | with_reducible apply wf_threadWakeReady
      | with_reducible apply wf_pushWork | split | (intro _ _ _) | (simp only [storesWf_same])

theorem wf_itemStep (t : TwinId) (i : EdgeItem) (s : Block) (h : storesWf s = true) :
    storesWf (itemStep t i s) = true := by
  unfold itemStep
  (try simp only [])
  repeat' first
      | with_reducible assumption | with_reducible apply wf_wakeItem | with_reducible apply wf_applyItem | split
      | (intro w hw; simp only [twinWf, catWf, accWf, rackWf, deskWf, shelfWf, retWf, lardWf, sortWf, bankWf, officeWf, obsWf, bakeWf, thrdWf, relWf, arbWf, proofWf, pageWf, Bool.and_eq_true] at hw ⊢; simp [hw]; done)
      | (intro _ _ _) | (simp only [storesWf_same]) | (simp only [id_eq])

theorem wf_takeStep (w : Work) (s : Block) (h : storesWf s = true) :
    storesWf (takeStep w s) = true := by
  unfold takeStep
  (try simp only [])
  repeat' first
      | with_reducible assumption | with_reducible apply wf_itemStep | with_reducible apply wf_landCredits
      | with_reducible apply wf_evaluate | with_reducible apply wf_carryOut | with_reducible apply wf_freeNode
      | with_reducible apply wf_place | with_reducible apply wf_internalDone | with_reducible apply wf_skipDone
      | with_reducible apply wf_sendOn | with_reducible apply wf_enter | with_reducible apply wf_unboundAt
      | with_reducible apply wf_bowlFlushed | with_reducible apply wf_flushEnded | with_reducible apply wf_drainEnded
      | with_reducible apply wf_retryMoves | with_reducible apply wf_retryWaits | with_reducible apply wf_retryProxy
      | with_reducible apply wf_holdRelease | with_reducible apply wf_takeOffer | with_reducible apply wf_twinFatal
      | with_reducible apply wf_takeWord | with_reducible apply wf_windowTake | split
      | (intro w hw; simp only [twinWf, catWf, accWf, rackWf, deskWf, shelfWf, retWf, lardWf, sortWf, bankWf, officeWf, obsWf, bakeWf, thrdWf, relWf, arbWf, proofWf, pageWf, Bool.and_eq_true] at hw ⊢; simp [hw]; done)
      | (intro _ _ _) | (simp only [storesWf_same]) | (simp only [id_eq])

theorem wf_doWork (w : Work) (s : Block) (h : storesWf s = true) :
    storesWf (doWork w s) = true := by
  unfold doWork
  (try simp only [])
  repeat' first
      | with_reducible assumption | with_reducible apply wf_takeStep | split
      | (intro w hw; simp only [twinWf, catWf, accWf, rackWf, deskWf, shelfWf, retWf, lardWf, sortWf, bankWf, officeWf, obsWf, bakeWf, thrdWf, relWf, arbWf, proofWf, pageWf, Bool.and_eq_true] at hw ⊢; simp [hw]; done)
      | (intro _ _ _) | (simp only [storesWf_same]) | (simp only [id_eq])

end Sys2Proof.Machine
end

