-- ==== Sys2Proof/Laws/Stores.lean ====
section
/-! SUPPORT. Every command keeps the canonical form of every store. -/

namespace Sys2Proof.Machine

open Sys2Proof.Safety

set_option maxRecDepth 8000
set_option linter.unusedTactic false
set_option linter.unreachableTactic false
set_option linter.unusedSimpArgs false
set_option linter.unusedVariables false

theorem wf_settleFuel (n : Nat) (s : Block) (h : storesWf s = true) : storesWf (settleFuel n s) = true := by
  induction n generalizing s with
  | zero => exact h
  | succ n ih =>
    unfold settleFuel
    (repeat' split)
    · exact h
    · exact ih _ (wf_sendOn _ _ h)
    · exact ih _ (wf_doWork _ _ h)

theorem wf_effect (ws : Block → List SramWord) (f : Block → Block) (s : Block) (h : storesWf s = true)
    (hf : ∀ s, storesWf s = true → storesWf (f s) = true) : storesWf (effect ws f s) = true :=
  wf_settleFuel _ _ (wf_consumeInjections _ _ _ (wf_settleFuel _ _ (hf _ h)))

theorem wf_deed (c : Instr) (s : Block) (h : storesWf s = true) : storesWf (deed c s) = true := by
  cases c <;> unfold deed
  case claim => repeat' first | with_reducible assumption | with_reducible apply wf_takeWord | (intro _ _)
  case claimResample => repeat' first | with_reducible assumption | with_reducible apply wf_resample | (intro _ _)
  case accept => repeat' first | with_reducible assumption | with_reducible apply wf_takeWord | (intro _ _)
  case complete => repeat' first | with_reducible assumption | with_reducible apply wf_takeWord | (intro _ _)
  case fault => repeat' first | with_reducible assumption | with_reducible apply wf_takeWord | (intro _ _)
  case acceptTimeout => repeat' first
      | with_reducible assumption | with_reducible apply wf_acceptTimeout | (intro _ _)
  case laneRefill => repeat' first
      | with_reducible assumption | with_reducible apply wf_onTwin | with_reducible apply wf_laneRefill
      | (intro _ _)
  case fwdClaim => repeat' first | with_reducible assumption | with_reducible apply wf_claimCmd | (intro _ _)
  case decline => repeat' first
      | with_reducible assumption | with_reducible apply wf_claimCmd | with_reducible apply wf_decline | (intro _ _)
  case grant => repeat' first | with_reducible assumption | with_reducible apply wf_claimCmd | (intro _ _)
  case grantReturn => repeat' first | with_reducible assumption | with_reducible apply wf_claimCmd | (intro _ _)
  case acceptItem => repeat' first | with_reducible assumption | with_reducible apply wf_claimCmd | (intro _ _)
  case completeItem => repeat' first | with_reducible assumption | with_reducible apply wf_claimCmd | (intro _ _)
  case proxy => repeat' first | with_reducible assumption | with_reducible apply wf_claimCmd | (intro _ _)
  case proxyGrant => repeat' first | with_reducible assumption | with_reducible apply wf_claimCmd | (intro _ _)
  case proxyRefused => repeat' first | with_reducible assumption | with_reducible apply wf_claimCmd | (intro _ _)
  case proxyBack => repeat' first | with_reducible assumption | with_reducible apply wf_claimCmd | (intro _ _)
  case summaryEntry => repeat' first
      | with_reducible assumption | with_reducible apply wf_onTwin | with_reducible apply wf_summaryEntry
      | (intro _ _)
  case credit => repeat' first | with_reducible assumption | with_reducible apply wf_edgeCmd | (intro _ _)
  case skipCredit => repeat' first | with_reducible assumption | with_reducible apply wf_edgeCmd | (intro _ _)
  case wheelWalk => repeat' first
      | with_reducible assumption | with_reducible apply wf_onTwin | with_reducible apply wf_wheelWalk | (intro _ _)
  case nodeWrite => repeat' first
      | with_reducible assumption | with_reducible apply wf_windowBytes
      | (intro _ _)
  case edgeWrite => repeat' first
      | with_reducible assumption | with_reducible apply wf_windowBytes
      | (intro _ _)
  case reservedAreaWrite => repeat' first
      | with_reducible assumption | with_reducible apply wf_windowTake
      | (intro _ _)
  case nodeBank => repeat' first | with_reducible assumption | with_reducible apply wf_windowCmd | (intro _ _)
  case edgeBank => repeat' first | with_reducible assumption | with_reducible apply wf_windowCmd | (intro _ _)
  case rearm => repeat' first | with_reducible assumption | with_reducible apply wf_windowCmd | (intro _ _)
  case mirrorClose => repeat' first
      | with_reducible assumption | with_reducible apply wf_windowCmd | with_reducible apply wf_mirrorClose
      | (intro _ _)
  case mirrorCloseEffect => repeat' first
      | with_reducible assumption | with_reducible apply wf_onTwin | with_reducible apply wf_mirrorCloseEffect
      | (intro _ _)
  case release => repeat' first | with_reducible assumption | with_reducible apply wf_windowCmd | (intro _ _)
  case mark => repeat' first | with_reducible assumption | with_reducible apply wf_windowCmd | (intro _ _)
  case parkedWrite => repeat' first | with_reducible assumption | with_reducible apply wf_parkedWrite | (intro _ _)
  case sweepEnd => repeat' first
      | with_reducible assumption | with_reducible apply wf_onTwin | with_reducible apply wf_sweepEnd | (intro _ _)
  case mirrorRequest => repeat' first | with_reducible assumption | with_reducible apply wf_edgeCmd | (intro _ _)
  case mirrorAppend => repeat' first | with_reducible assumption | with_reducible apply wf_edgeCmd | (intro _ _)
  case mirrorAck => repeat' first | with_reducible assumption | with_reducible apply wf_edgeCmd | (intro _ _)
  case closeMarker => repeat' first | with_reducible assumption | with_reducible apply wf_edgeCmd | (intro _ _)
  case targetRead => repeat' first | with_reducible assumption | with_reducible apply wf_edgeCmd | (intro _ _)
  case targetAnswer => repeat' first | with_reducible assumption | with_reducible apply wf_edgeCmd | (intro _ _)
  case moveReq => repeat' first | with_reducible assumption | with_reducible apply wf_edgeCmd | (intro _ _)
  case loc => repeat' first | with_reducible assumption | with_reducible apply wf_edgeCmd | (intro _ _)
  case locAck => repeat' first | with_reducible assumption | with_reducible apply wf_edgeCmd | (intro _ _)
  case writerInc => repeat' first | with_reducible assumption | with_reducible apply wf_edgeCmd | (intro _ _)
  case writerDec => repeat' first | with_reducible assumption | with_reducible apply wf_edgeCmd | (intro _ _)
  case service => repeat' first | with_reducible assumption | with_reducible apply wf_edgeCmd | (intro _ _)
  case descWriteAck => repeat' first
      | with_reducible assumption | with_reducible apply wf_onTwin | with_reducible apply wf_descAnswer | (intro _ _)
  case descWriteError => repeat' first
      | with_reducible assumption | with_reducible apply wf_onTwin | with_reducible apply wf_descAnswer | (intro _ _)
  case shardAlloc => repeat' first
      | with_reducible assumption | with_reducible apply wf_pageCmd | with_reducible apply wf_shardAlloc
      | (intro _ _)
  case shardFree => repeat' first
      | with_reducible assumption | with_reducible apply wf_pageCmd | with_reducible apply wf_shardFree | (intro _ _)
  case shardMove => repeat' first
      | with_reducible assumption | with_reducible apply wf_pageCmd | with_reducible apply wf_shardMove | (intro _ _)
  case shardQuery => repeat' first
      | with_reducible assumption | with_reducible apply wf_pageCmd | with_reducible apply wf_shardQuery
      | (intro _ _)
  case engineRemove => repeat' first
      | with_reducible assumption | with_reducible apply wf_pageCmd | with_reducible apply wf_engineCtl | (intro _ _)
  case engineRestore => repeat' first
      | with_reducible assumption | with_reducible apply wf_pageCmd | with_reducible apply wf_engineCtl | (intro _ _)
  case flushReq => repeat' first | with_reducible assumption | with_reducible apply wf_edgeCmd | (intro _ _)
  case flushDone => repeat' first | with_reducible assumption | with_reducible apply wf_edgeCmd | (intro _ _)
  case flushAckRead => repeat' first | with_reducible assumption | with_reducible apply wf_flushAckRead | (intro _ _)
  case flushRetry w => cases w
                       · exact wf_flushRetry _ _ h
                       · exact wf_drainRetry _ _ h
  case flushTimeout => repeat' first | with_reducible assumption | with_reducible apply wf_flushTimeout | (intro _ _)
  case drainReadAnswer => repeat' first
      | with_reducible assumption | with_reducible apply wf_drainAnswer | (intro _ _)
  case drainTimeout => repeat' first | with_reducible assumption | with_reducible apply wf_drainTimeout | (intro _ _)
  case offer => repeat' first | with_reducible assumption | with_reducible apply wf_edgeCmd | (intro _ _)
  case answer => repeat' first | with_reducible assumption | with_reducible apply wf_edgeCmd | (intro _ _)
  case gRead => repeat' first | with_reducible assumption | with_reducible apply wf_edgeCmd | (intro _ _)
  case gData => repeat' first | with_reducible assumption | with_reducible apply wf_edgeCmd | (intro _ _)
  case gMark => repeat' first | with_reducible assumption | with_reducible apply wf_edgeCmd | (intro _ _)
  case trigger => repeat' first | with_reducible assumption | with_reducible apply wf_edgeCmd | (intro _ _)
  case releaseItem => repeat' first | with_reducible assumption | with_reducible apply wf_edgeCmd | (intro _ _)
  case recipeSweepEnd => repeat' first
      | with_reducible assumption | with_reducible apply wf_recipeSweepEnd | (intro _ _)
  case headerReadDone => repeat' first
      | with_reducible assumption | with_reducible apply wf_headerReadDone | (intro _ _)
  case scoreReadDone => repeat' first
      | with_reducible assumption | with_reducible apply wf_scoreReadDone | (intro _ _)
  case selectionWriteAck => repeat' first
      | with_reducible assumption | with_reducible apply wf_selectionWriteAck | (intro _ _)
  case batch => repeat' first | with_reducible assumption | with_reducible apply wf_edgeCmd | (intro _ _)
  case sortCancel => repeat' first
      | with_reducible assumption | with_reducible apply wf_pageCmd | with_reducible apply wf_sortCancel
      | (intro _ _)
  case epochBump => repeat' first | with_reducible assumption | with_reducible apply wf_edgeCmd | (intro _ _)
  case cancelPoint => repeat' first | with_reducible assumption | with_reducible apply wf_cancelPoint | (intro _ _)
  case routeIo => repeat' first | with_reducible assumption | with_reducible apply wf_routeIo | (intro _ _)
  case tallyPacket => repeat' first | with_reducible assumption | with_reducible apply wf_tallyPacket | (intro _ _)
  case tallyTick => repeat' first | with_reducible assumption | with_reducible apply wf_tallyTick | (intro _ _)
  case tallyAlloc => repeat' first
      | with_reducible assumption | with_reducible apply wf_pageCmd | with_reducible apply wf_tallyCommand
      | (intro _ _)
  case tallyFree => repeat' first
      | with_reducible assumption | with_reducible apply wf_pageCmd | with_reducible apply wf_tallyCommand
      | (intro _ _)
  case tallyArm => repeat' first
      | with_reducible assumption | with_reducible apply wf_pageCmd | with_reducible apply wf_tallyCommand
      | (intro _ _)
  case tallyDisarm => repeat' first
      | with_reducible assumption | with_reducible apply wf_pageCmd | with_reducible apply wf_tallyCommand
      | (intro _ _)
  case tallyResume => repeat' first
      | with_reducible assumption | with_reducible apply wf_pageCmd | with_reducible apply wf_tallyCommand
      | (intro _ _)
  case tallyReset => repeat' first
      | with_reducible assumption | with_reducible apply wf_pageCmd | with_reducible apply wf_tallyCommand
      | (intro _ _)
  case tallyAdd => repeat' first
      | with_reducible assumption | with_reducible apply wf_pageCmd | with_reducible apply wf_tallyCommand
      | (intro _ _)
  case tallyQuery => repeat' first
      | with_reducible assumption | with_reducible apply wf_pageCmd | with_reducible apply wf_tallyCommand
      | (intro _ _)
  case tubeOpen => repeat' first
      | with_reducible assumption | with_reducible apply wf_pageCmd | with_reducible apply wf_tubeOpen | (intro _ _)
  case tubeClose => repeat' first
      | with_reducible assumption | with_reducible apply wf_pageCmd | with_reducible apply wf_tubeClose | (intro _ _)
  case tubeQuery => repeat' first
      | with_reducible assumption | with_reducible apply wf_pageCmd | with_reducible apply wf_tubeQuery | (intro _ _)
  case epWriteAck => repeat' first | with_reducible assumption | with_reducible apply wf_epWriteAck | (intro _ _)
  case epReadAnswer => repeat' first | with_reducible assumption | with_reducible apply wf_epReadAnswer | (intro _ _)
  case tubeIo => repeat' first | with_reducible assumption | with_reducible apply wf_tubeIo | (intro _ _)
  case txSend => repeat' first
      | with_reducible assumption | with_reducible apply wf_onCluster | with_reducible apply wf_txSend | (intro _ _)
  case beatArrival => repeat' first
      | with_reducible assumption | with_reducible apply wf_onCluster | with_reducible apply wf_beatArrival
      | (intro _ _)
  case rxMbox => repeat' first
      | with_reducible assumption | with_reducible apply wf_onCluster | with_reducible apply wf_rxMbox | (intro _ _)
  case rxDone => repeat' first
      | with_reducible assumption | with_reducible apply wf_onCluster | with_reducible apply wf_rxEnd | (intro _ _)
  case rxDrop => repeat' first
      | with_reducible assumption | with_reducible apply wf_onCluster | with_reducible apply wf_rxEnd | (intro _ _)
  case creditReturn => repeat' first
      | with_reducible assumption | with_reducible apply wf_onCluster | with_reducible apply wf_creditReturn
      | (intro _ _)
  case bowlOpen => repeat' first
      | with_reducible assumption | with_reducible apply wf_pageCmd | with_reducible apply wf_bowlOpen | (intro _ _)
  case bowlClose => repeat' first
      | with_reducible assumption | with_reducible apply wf_pageCmd | with_reducible apply wf_bowlClose | (intro _ _)
  case bowlQuery => repeat' first
      | with_reducible assumption | with_reducible apply wf_pageCmd | with_reducible apply wf_bowlQuery | (intro _ _)
  case bowlReset => repeat' first
      | with_reducible assumption | with_reducible apply wf_pageCmd | with_reducible apply wf_bowlReset | (intro _ _)
  case bowlPut => repeat' first
      | with_reducible assumption | with_reducible apply wf_putAccess | with_reducible apply wf_bowlPut | (intro _ _)
  case blockHeaderRead => repeat' first
      | with_reducible assumption | with_reducible apply wf_blockHeaderRead | (intro _ _)
  case selectionRead => repeat' first
      | with_reducible assumption | with_reducible apply wf_selectionRead | (intro _ _)
  case resultWriteAck => repeat' first
      | with_reducible assumption | with_reducible apply wf_resultWriteAck | (intro _ _)
  case bowlIo => repeat' first | with_reducible assumption | with_reducible apply wf_bowlIo | (intro _ _)
  case ctxOpen => repeat' first
      | with_reducible assumption | with_reducible apply wf_pageCmd | with_reducible apply wf_ctxOpen | (intro _ _)
  case openEffect => repeat' first | with_reducible assumption | with_reducible apply wf_openEffect | (intro _ _)
  case ctxClose => repeat' first
      | with_reducible assumption | with_reducible apply wf_pageCmd | with_reducible apply wf_ctxClose | (intro _ _)
  case ctxFault => repeat' first
      | with_reducible assumption | with_reducible apply wf_pageCmd | with_reducible apply wf_ctxFault | (intro _ _)
  case ctxCtlClose => repeat' first
      | with_reducible assumption | with_reducible apply wf_pageCmd | with_reducible apply wf_ctxCtlClose
      | (intro _ _)
  case fenceItem => repeat' first | with_reducible assumption | with_reducible apply wf_fenceItem | (intro _ _)
  case fenceEffect => repeat' first | with_reducible assumption | with_reducible apply wf_fenceEffect | (intro _ _)
  case teardownStart => repeat' first
      | with_reducible assumption | with_reducible apply wf_teardownStart | (intro _ _)
  case tear => repeat' first | with_reducible assumption | with_reducible apply wf_tearAt | (intro _ _)
  case swept => repeat' first | with_reducible assumption | with_reducible apply wf_sweptAt | (intro _ _)
  case engineWaitEnd => repeat' first
      | with_reducible assumption | with_reducible apply wf_engineWaitEnd | (intro _ _)
  case engineWaitLimit => repeat' first
      | with_reducible assumption | with_reducible apply wf_engineWaitLimit | (intro _ _)
  case scrubPoll => repeat' first | with_reducible assumption | with_reducible apply wf_scrubPoll | (intro _ _)
  case scrubLimit => repeat' first | with_reducible assumption | with_reducible apply wf_scrubLimit | (intro _ _)
  case bakeTick => repeat' first | with_reducible assumption | with_reducible apply wf_bakeTick | (intro _ _)
  case bakeSlotWrite => repeat' first
      | with_reducible assumption | with_reducible apply wf_pageCmd | with_reducible apply wf_writeSlot | (intro _ _)
  case notifyRequest => repeat' first
      | with_reducible assumption | with_reducible apply wf_notifyRequest | (intro _ _)
  case msixUnmask => repeat' first
      | with_reducible assumption | with_reducible apply wf_pageCmd | with_reducible apply wf_writeMsix | (intro _ _)
  case notifyTailWrite => repeat' first
      | with_reducible assumption | with_reducible apply wf_pageCmd | with_reducible apply wf_writeTail | (intro _ _)
  case hostAccessDenied => repeat' first
      | with_reducible assumption | with_reducible apply wf_hostAccessDenied | (intro _ _)
  case ask => repeat' first | with_reducible assumption | with_reducible apply wf_takeWord | (intro _ _)
  case reportYield => repeat' first | with_reducible assumption | with_reducible apply wf_takeWord | (intro _ _)
  case reportWait => repeat' first | with_reducible assumption | with_reducible apply wf_takeWord | (intro _ _)
  case reportDelay => repeat' first | with_reducible assumption | with_reducible apply wf_takeWord | (intro _ _)
  case reportPreempted => repeat' first | with_reducible assumption | with_reducible apply wf_takeWord | (intro _ _)
  case reportExit => repeat' first | with_reducible assumption | with_reducible apply wf_takeWord | (intro _ _)
  case reportFault => repeat' first | with_reducible assumption | with_reducible apply wf_takeWord | (intro _ _)
  case wake => repeat' first | with_reducible assumption | with_reducible apply wf_takeWord | (intro _ _)
  case wakeItem => repeat' first | with_reducible assumption | with_reducible apply wf_edgeCmd | (intro _ _)
  case deskAsk => repeat' first | with_reducible assumption | with_reducible apply wf_deskAsk | (intro _ _)
  case threadOffer => repeat' first | with_reducible assumption | with_reducible apply wf_threadOffer | (intro _ _)
  case noneAnswer => repeat' first | with_reducible assumption | with_reducible apply wf_noneAnswer | (intro _ _)
  case takeThread => repeat' first | with_reducible assumption | with_reducible apply wf_takeThread | (intro _ _)
  case threadRelease => repeat' first
      | with_reducible assumption | with_reducible apply wf_threadRelease | (intro _ _)
  case offerWindow => repeat' first | with_reducible assumption | with_reducible apply wf_offerWindow | (intro _ _)
  case threadSummary => repeat' first
      | with_reducible assumption | with_reducible apply wf_threadSummary | (intro _ _)
  case preemptLimit => repeat' first | with_reducible assumption | with_reducible apply wf_preemptLimit | (intro _ _)
  case delayTick => repeat' first | with_reducible assumption | with_reducible apply wf_delayTick | (intro _ _)
  case threadCreate => repeat' first
      | with_reducible assumption | with_reducible apply wf_pageCmd | with_reducible apply wf_threadCreate
      | (intro _ _)
  case threadDestroy => repeat' first
      | with_reducible assumption | with_reducible apply wf_pageCmd | with_reducible apply wf_threadDestroy
      | (intro _ _)
  case threadSet => repeat' first
      | with_reducible assumption | with_reducible apply wf_pageCmd | with_reducible apply wf_threadSet | (intro _ _)
  case threadCmdWake => repeat' first
      | with_reducible assumption | with_reducible apply wf_pageCmd | with_reducible apply wf_threadCmdWake
      | (intro _ _)
  case threadQuery => repeat' first
      | with_reducible assumption | with_reducible apply wf_pageCmd | with_reducible apply wf_threadQuery
      | (intro _ _)
  case coreRemove => repeat' first
      | with_reducible assumption | with_reducible apply wf_pageCmd | with_reducible apply wf_coreRemove
      | (intro _ _)
  case coreRestore => repeat' first
      | with_reducible assumption | with_reducible apply wf_pageCmd | with_reducible apply wf_coreRestore
      | (intro _ _)
  case idleExpiry => repeat' first | with_reducible assumption | with_reducible apply wf_idleExpiry | (intro _ _)
  case hold => repeat' first | with_reducible assumption | with_reducible apply wf_holdAt | (intro _ _)
  case abort => repeat' first | with_reducible assumption | with_reducible apply wf_abortAt | (intro _ _)
  case withdrawn => repeat' first | with_reducible assumption | with_reducible apply wf_withdrawnAt | (intro _ _)
  case obEmpty => repeat' first | with_reducible assumption | with_reducible apply wf_obEmpty | (intro _ _)
  case stopTimeout => repeat' first | with_reducible assumption | with_reducible apply wf_stopTimeout | (intro _ _)
  case gateExpiry => repeat' first | with_reducible assumption | with_reducible apply wf_gateExpiry | (intro _ _)
  case accessWake => repeat' first | with_reducible assumption | with_reducible apply wf_accessWake | (intro _ _)
  case clkOk => repeat' first | with_reducible assumption | with_reducible apply wf_clkOk | (intro _ _)
  case bankPowerGood => repeat' first
      | with_reducible assumption | with_reducible apply wf_bankPowerGood | (intro _ _)
  case cluCtlWrite => repeat' first
      | with_reducible assumption | with_reducible apply wf_pageCmd | with_reducible apply wf_cluCtl | split
      | (intro _ _)
  case clockStretch => repeat' first | with_reducible assumption | with_reducible apply wf_clockStretch | (intro _ _)
  case capPeriod => repeat' first | with_reducible assumption | with_reducible apply wf_capPeriod | (intro _ _)
  case pmbusReading => repeat' first | with_reducible assumption | with_reducible apply wf_pmbusReading | (intro _ _)
  case pmbusReadingLost => repeat' first | with_reducible assumption | with_reducible apply wf_pmbusLost | (intro _ _)
  case pmbAlert => repeat' first | with_reducible assumption | with_reducible apply wf_pmbAlert | (intro _ _)
  case avsAck => repeat' first | with_reducible assumption | with_reducible apply wf_avsAck | (intro _ _)
  case avsFail => repeat' first | with_reducible assumption | with_reducible apply wf_avsFail | (intro _ _)
  case settleExpiry => repeat' first | with_reducible assumption | with_reducible apply wf_settleExpiry | (intro _ _)
  case clockSwitched => repeat' first
      | with_reducible assumption | with_reducible apply wf_clockSwitched | (intro _ _)
  case blockGate => repeat' first
      | with_reducible assumption | with_reducible apply wf_pageCmd | with_reducible apply wf_blockGate | (intro _ _)
  case timeLoad => repeat' first
      | with_reducible assumption | with_reducible apply wf_pageCmd | with_reducible apply wf_timeLoad | (intro _ _)
  case timeSlew => repeat' first
      | with_reducible assumption | with_reducible apply wf_pageCmd | with_reducible apply wf_timeSlew | (intro _ _)
  case patrolRead => repeat' first | with_reducible assumption | with_reducible apply wf_patrolRead | (intro _ _)
  case bankCopyEnd => repeat' first | with_reducible assumption | with_reducible apply wf_bankCopyEnd | (intro _ _)
  case marchTestEnd => repeat' first | with_reducible assumption | with_reducible apply wf_marchTestEnd | (intro _ _)
  case errInjectWrite => repeat' first
      | with_reducible assumption | with_reducible apply wf_pageCmd | with_reducible apply wf_writeInject
      | (intro _ _)
  case heartbeat => repeat' first | with_reducible assumption | with_reducible apply wf_heartbeat | (intro _ _)
  case heartbeatTimeout => repeat' first
      | with_reducible assumption | with_reducible apply wf_heartbeatTimeout | (intro _ _)
  case watchdog => repeat' first | with_reducible assumption | with_reducible apply wf_watchdog | (intro _ _)
  case wdogKick => repeat' first
      | with_reducible assumption | with_reducible apply wf_pageCmd | with_reducible apply wf_wdogKick | (intro _ _)
  case fatal => repeat' first | with_reducible assumption | with_reducible apply wf_fatalAt | (intro _ _)
  case latchAnswer => repeat' first | with_reducible assumption | with_reducible apply wf_latchAnswer | (intro _ _)
  case recordSweepEnd => repeat' first
      | with_reducible assumption | with_reducible apply wf_recordSweepEnd | (intro _ _)
  case dumpEnd => repeat' first | with_reducible assumption | with_reducible apply wf_dumpEnd | (intro _ _)
  case detach => repeat' first
      | with_reducible assumption | with_reducible apply wf_pageCmd | with_reducible apply wf_pairCtl
      | with_reducible apply wf_detach | (intro _ _)
  case detachDrained => repeat' first
      | with_reducible assumption | with_reducible apply wf_detachDrained | (intro _ _)
  case handover => repeat' first | with_reducible assumption | with_reducible apply wf_handoverAt | (intro _ _)
  case fullSelfTestEnd => repeat' first
      | with_reducible assumption | with_reducible apply wf_fullSelfTestEnd | (intro _ _)
  case rejoin => repeat' first
      | with_reducible assumption | with_reducible apply wf_pageCmd | with_reducible apply wf_pairCtl
      | with_reducible apply wf_rejoin | (intro _ _)
  case resync => repeat' first | with_reducible assumption | with_reducible apply wf_resyncAt | (intro _ _)
  case fail => repeat' first
      | with_reducible assumption | with_reducible apply wf_pageCmd | with_reducible apply wf_pairCtl
      | with_reducible apply wf_failTwin | (intro _ _)
  case recover => repeat' first
      | with_reducible assumption | with_reducible apply wf_pageCmd | with_reducible apply wf_pairCtl
      | with_reducible apply wf_recover | (intro _ _)
  case freeze => repeat' first
      | with_reducible assumption | with_reducible apply wf_pageCmd | with_reducible apply wf_freezeCmd | (intro _ _)
  case freezeHalt => repeat' first
      | with_reducible assumption | with_reducible apply wf_pageCmd | with_reducible apply wf_freezeCmd | (intro _ _)
  case freezeItem => repeat' first | with_reducible assumption | with_reducible apply wf_freezeItem | (intro _ _)
  case freezeApply => repeat' first | with_reducible assumption | with_reducible apply wf_freezeApply | (intro _ _)
  case thaw => repeat' first
      | with_reducible assumption | with_reducible apply wf_pageCmd | with_reducible apply wf_thawCmd | (intro _ _)
  case thawApply => repeat' first | with_reducible assumption | with_reducible apply wf_thawApply | (intro _ _)
  case haltLimit => repeat' first | with_reducible assumption | with_reducible apply wf_haltLimit | (intro _ _)
  case optStart => repeat' first
      | with_reducible assumption | with_reducible apply wf_pageCmd | with_reducible apply wf_optCmd | (intro _ _)
  case optStop => repeat' first
      | with_reducible assumption | with_reducible apply wf_pageCmd | with_reducible apply wf_optCmd | (intro _ _)
  case ringWriteAck => repeat' first | with_reducible assumption | with_reducible apply wf_ringWriteAck | (intro _ _)
  case ringIo => repeat' first | with_reducible assumption | with_reducible apply wf_ringIo | (intro _ _)
  case daybRdWrite => repeat' first
      | with_reducible assumption | with_reducible apply wf_pageCmd | with_reducible apply wf_daybRdWrite
      | (intro _ _)
  case wfgGo => repeat' first
      | with_reducible assumption | with_reducible apply wf_pageCmd | with_reducible apply wf_wfgGo | (intro _ _)
  case wfgEnd => repeat' first | with_reducible assumption | with_reducible apply wf_wfgEnd | (intro _ _)
  case invSel => repeat' first
      | with_reducible assumption | with_reducible apply wf_pageCmd | with_reducible apply wf_invSel | (intro _ _)
  case invReadDone => repeat' first | with_reducible assumption | with_reducible apply wf_invReadDone | (intro _ _)
  case hwClr => repeat' first
      | with_reducible assumption | with_reducible apply wf_pageCmd | with_reducible apply wf_hwClr | (intro _ _)
  case coldReset => repeat' first | with_reducible assumption | with_reducible apply wf_coldReset | (intro _ _)
  case pinReset => repeat' first | with_reducible assumption | with_reducible apply wf_pinReset | (intro _ _)
  case softReset => repeat' first
      | with_reducible assumption | with_reducible apply wf_pageCmd | with_reducible apply wf_softReset | (intro _ _)
  case hostWake => repeat' first | with_reducible assumption | with_reducible apply wf_hostWake | (intro _ _)
  case deskClockLocked => repeat' first
      | with_reducible assumption | with_reducible apply wf_deskClockLocked | (intro _ _)
  case islandPowerGood => repeat' first
      | with_reducible assumption | with_reducible apply wf_islandPowerGood | (intro _ _)
  case zeroEnd => repeat' first | with_reducible assumption | with_reducible apply wf_zeroEnd | (intro _ _)
  case bootPoll => repeat' first | with_reducible assumption | with_reducible apply wf_bootPoll | (intro _ _)
  case imageLoadEnd => repeat' first | with_reducible assumption | with_reducible apply wf_imageLoadEnd | (intro _ _)
  case patternCheckEnd => repeat' first
      | with_reducible assumption | with_reducible apply wf_patternCheckEnd | (intro _ _)
  case portReady => repeat' first | with_reducible assumption | with_reducible apply wf_portReady | (intro _ _)
  case domainGroupStart => repeat' first
      | with_reducible assumption | with_reducible apply wf_domainGroupStart | (intro _ _)
  case managerSet => repeat' first | with_reducible assumption | with_reducible apply wf_managerSet | (intro _ _)
  case bootRun => repeat' first
      | with_reducible assumption | with_reducible apply wf_pageCmd | with_reducible apply wf_bootRun | (intro _ _)
  case fuseBurn => repeat' first | with_reducible assumption | with_reducible apply wf_fuseBurn | (intro _ _)
  case pageEnable => repeat' first
      | with_reducible assumption | with_reducible apply wf_pageCmd | with_reducible apply wf_pageEnable
      | (intro _ _)
  case commit => repeat' first
      | with_reducible assumption | with_reducible apply wf_pageCmd | with_reducible apply wf_commitPage
      | (intro _ _)
  case shadowApply => repeat' first | with_reducible assumption | with_reducible apply wf_shadowApply | (intro _ _)
  case discard => repeat' first
      | with_reducible assumption | with_reducible apply wf_pageCmd | with_reducible apply wf_discardPage
      | (intro _ _)
  case registerWrite => repeat' first
      | with_reducible assumption | with_reducible apply wf_onSlot | with_reducible apply wf_writeAt
      | (intro _ _)
  case segmentOpen => repeat' first | with_reducible assumption | with_reducible apply wf_segmentOpen | (intro _ _)
  case segmentClose => repeat' first | with_reducible assumption | with_reducible apply wf_segmentClose | (intro _ _)
  case sourceCopyEnd => repeat' first
      | with_reducible assumption | with_reducible apply wf_onCluster | with_reducible apply wf_sourceCopyEnd
      | (intro _ _)
  case blockDataRead => repeat' first
      | with_reducible assumption | with_reducible apply wf_blockDataRead | (intro _ _)
  case registerRead => repeat' first
      | with_reducible assumption | with_reducible apply wf_onSlot | with_reducible apply wf_readAt
      | (intro _ _)

/-- No command breaks the canonical form of a store. -/

theorem wf_exec {c : Instr} {s t : State} (h : storesWf s.blk = true) (e : exec c s = .next t) :
    storesWf t.blk = true := by
  rw [exec_blk e]
  exact wf_effect _ _ _ h (wf_deed c)

end Sys2Proof.Machine
end

