-- ==== Sys2Proof/Laws/Completes.lean ====
section
/-! SUPPORT. How a command completes: its deed, the requester it is served for, and when nothing follows from it. -/

namespace Sys2Proof.Machine

open Sys2Proof.Safety

/-- A command does what its deed does. -/
theorem does_of {c : Instr} {P : Block → Block → Prop} (h : ∀ a : Block, a.out = [] → P a (deed c a)) : Does c P :=
  fun s => ⟨_, exec_next c s, h _ rfl⟩

theorem settleFuel_nil (n : Nat) (s : Block) (h : s.work = []) (hk : kick s = none) : settleFuel n s = s := by
  cases n with
  | zero => rfl
  | succ n => simp [settleFuel, h, hk]

theorem settle_nil (s : Block) (h : s.work = []) (hk : kick s = none) : settle s = s := settleFuel_nil _ s h hk

theorem consumeInjections_unarmed (a s : Block) (ws : List SramWord) (h : unarmed a = true) :
    consumeInjections a ws s = s := by
  have hf : a.pages.filter (fun p => bitOf p.2.inj 63) = [] := by
    rw [List.filter_eq_nil_iff]
    intro p hp
    simp only [unarmed, List.all_eq_true, Bool.not_eq_true'] at h
    simp [h p hp]
  have hb : bothCopies a = false := by
    simp only [unarmed, List.all_eq_true, Bool.not_eq_true'] at h
    have := mapGet_of_all (fun p : Page => bitOf p.inj 63 = false) {} a.pages rfl h blkKey
    simp [bothCopies, pageOf, this]
  simp [consumeInjections, hf, forEach, hb]

/-- Nothing follows from a command that leaves no step to be taken and Returns nothing to go on with, where no injection is
armed. -/
theorem followed_unarmed (c : Instr) (s b : Block) (hw : b.work = []) (hk : kick b = none) (h : unarmed s = true) :
    followed c s b = b := by
  simp [followed, settle_nil, consumeInjections_unarmed, hw, hk, h]

theorem kick_none (s : Block) (h : ∀ t, canSendOn s t = false) : kick s = none := by
  simp [kick, List.find?_cons, h]

/-- Where Returns has no completion in hand and none behind it, it has nothing to go on with. -/
theorem canSendOn_idle (s : Block) (t : TwinId) (h : handBusy s t = false) : canSendOn s t = false := by
  simp only [handBusy, Bool.or_eq_false_iff, Bool.not_eq_false'] at h
  simp [canSendOn, h]

/-- A command on a page acts where the access is served. -/
theorem pageAccess_served {s : Block} {src : Requester} {key : Nat} (f : Grade → Block → Block)
    (h : served s src key = true) : ∃ g, (g = .manager ∨ g = .owner) ∧ pageAccess src key f s = f g s := by
  simp only [served, Bool.and_eq_true, Bool.not_eq_true'] at h
  obtain ⟨⟨h1, h2⟩, h3⟩ := h
  unfold pageAccess pageServe
  simp only [h1, h2, if_true]
  split at h3 <;> simp_all

theorem pageCmd_served {s : Block} {src : Requester} {key : Nat} (f : Block → Block)
    (h : served s src key = true) : pageCmd src key f s = f s := by
  obtain ⟨g, _, hg⟩ := pageAccess_served (fun _ => f) h
  exact hg

/-- A window write acts where it is served. -/
theorem winAccess_served {s : Block} {src : Requester} {k : Nat} (f : Block → Block)
    (h : winServed s src k = true) : winAccess src k f s = f s := by
  simp only [winServed, Bool.and_eq_true, Bool.not_eq_true'] at h
  obtain ⟨h1, h2⟩ := h
  cases src <;> simp_all [winAccess, gradeOf]

theorem onTwin_live {s : Block} {t : TwinId} (f : Block → Block) (h : live s t = true) : onTwin t f s = f s := by
  simp [onTwin, h]

end Sys2Proof.Machine
end

