-- ==== Sys2Proof/Laws/Frames.lean ====
section
/-! SUPPORT. What counters, error bits and trace records leave alone in the pages, for the frames of commands. -/

namespace Sys2Proof.Machine

open Sys2Proof.Safety

@[simp] theorem partner_ne_self (t : TwinId) : partner t ≠ t := by cases t <;> simp [partner]

@[simp] theorem self_ne_partner (t : TwinId) : t ≠ partner t := by cases t <;> simp [partner]

@[simp] theorem partner_t0 : partner .t0 = .t1 := rfl
@[simp] theorem partner_t1 : partner .t1 = .t0 := rfl
@[simp] theorem tw_upTw_t0_t1 (f : Twin → Twin) (s : Block) : tw (upTw .t0 f s) .t1 = tw s .t1 := rfl
@[simp] theorem tw_upTw_t1_t0 (f : Twin → Twin) (s : Block) : tw (upTw .t1 f s) .t0 = tw s .t0 := rfl

theorem twin_or (t u : TwinId) : u = t ∨ u = partner t := by
  cases t <;> cases u <;> simp [partner]

theorem mapGet_upPage {β : Type} (g : Page → β) (k j : Nat) (f : Page → Page) (s : Block)
    (h : mapWf {} s.pages = true) (hf : ∀ p, g (f p) = g p) :
    g (mapGet {} (upPage k f s).pages j) = g (mapGet {} s.pages j) := by
  by_cases hj : j = k
  · subst hj
    simp [upPage, pageOf, mapGet_mapSet_same, h, hf]
  · simp [upPage, mapGet_mapSet_ne, hj]

theorem pagesWf_upPage (k : Nat) (f : Page → Page) (s : Block) (h : mapWf {} s.pages = true) :
    mapWf {} (upPage k f s).pages = true := by simp [upPage, h]

@[simp] theorem plain_bump (k off n j : Nat) (s : Block) (h : mapWf {} s.pages = true) :
    plainPage (mapGet {} (bump k off n s).pages j) = plainPage (mapGet {} s.pages j) :=
  mapGet_upPage plainPage k j _ s h fun _ => rfl

@[simp] theorem errs_bump (k off n j : Nat) (s : Block) (h : mapWf {} s.pages = true) :
    (mapGet {} (bump k off n s).pages j).errStat = (mapGet {} s.pages j).errStat :=
  mapGet_upPage Page.errStat k j _ s h fun _ => rfl

@[simp] theorem pagesWf_bump (k off n : Nat) (s : Block) (h : mapWf {} s.pages = true) :
    mapWf {} (bump k off n s).pages = true := pagesWf_upPage _ _ s h

@[simp] theorem plain_setErr (k b j : Nat) (s : Block) (h : mapWf {} s.pages = true) :
    plainPage (mapGet {} (setErr k b s).pages j) = plainPage (mapGet {} s.pages j) :=
  mapGet_upPage plainPage k j _ s h fun _ => rfl

@[simp] theorem ctrs_setErr (k b j : Nat) (s : Block) (h : mapWf {} s.pages = true) :
    (mapGet {} (setErr k b s).pages j).ctrs = (mapGet {} s.pages j).ctrs :=
  mapGet_upPage Page.ctrs k j _ s h fun _ => rfl

@[simp] theorem pagesWf_setErr (k b : Nat) (s : Block) (h : mapWf {} s.pages = true) :
    mapWf {} (setErr k b s).pages = true := pagesWf_upPage _ _ s h

theorem pagesWf_stageRec (t : TwinId) (r : TraceRec) (s : Block) (h : mapWf {} s.pages = true) :
    mapWf {} (stageRec t r s).pages = true := by
  unfold stageRec driveRing; (try simp only []); (repeat' split) <;> simp [h]

theorem plain_stageRec (t : TwinId) (r : TraceRec) (j : Nat) (s : Block) (h : mapWf {} s.pages = true) :
    plainPage (mapGet {} (stageRec t r s).pages j) = plainPage (mapGet {} s.pages j) := by
  unfold stageRec driveRing; (try simp only []); (repeat' split) <;> simp [h]

theorem errs_stageRec (t : TwinId) (r : TraceRec) (j : Nat) (s : Block) (h : mapWf {} s.pages = true) :
    (mapGet {} (stageRec t r s).pages j).errStat = (mapGet {} s.pages j).errStat := by
  unfold stageRec driveRing; (try simp only []); (repeat' split) <;> simp [h]

theorem of_ite {P : Block → Prop} (c : Prop) [Decidable c] {x y : Block} (hx : P x) (hy : P y) :
    P (if c then x else y) := by split <;> assumption

/-! ### The other twin's observation -/

@[simp] theorem optEvent_obs_partner (t : TwinId) (code k : Nat) (c : Bool) (g : Option Nat) (n : Nat) (s : Block) :
    (tw (optEvent t code k c g n s) (partner t)).obs = (tw s (partner t)).obs := by simp [optEvent]

theorem stageRec_obs_partner (t : TwinId) (r : TraceRec) (s : Block) :
    (tw (stageRec t r s) (partner t)).obs = (tw s (partner t)).obs := by
  unfold stageRec driveRing; (try simp only []); (repeat' split) <;> simp [upObs]

@[simp] theorem trace_obs_partner (t : TwinId) (ty : Nat) (k : Option Nat) (node aux w2 hi3 : Nat) (s : Block) :
    (tw (trace t ty k node aux w2 hi3 s) (partner t)).obs = (tw s (partner t)).obs := by
  unfold trace traceAt
  simp only []
  exact of_ite (P := fun b => (tw b (partner t)).obs = (tw s (partner t)).obs) _ (stageRec_obs_partner _ _ _) rfl

@[simp] theorem pagesWf_trace (t : TwinId) (ty : Nat) (k : Option Nat) (node aux w2 hi3 : Nat) (s : Block)
    (h : mapWf {} s.pages = true) : mapWf {} (trace t ty k node aux w2 hi3 s).pages = true := by
  unfold trace traceAt
  simp only []
  exact of_ite (P := fun b => mapWf {} b.pages = true) _ (pagesWf_stageRec _ _ _ h) h

@[simp] theorem plain_trace (t : TwinId) (ty : Nat) (k : Option Nat) (node aux w2 hi3 j : Nat) (s : Block)
    (h : mapWf {} s.pages = true) :
    plainPage (mapGet {} (trace t ty k node aux w2 hi3 s).pages j) = plainPage (mapGet {} s.pages j) := by
  unfold trace traceAt
  simp only []
  exact of_ite (P := fun b => plainPage (mapGet {} b.pages j) = plainPage (mapGet {} s.pages j)) _
    (plain_stageRec _ _ _ _ h) rfl

@[simp] theorem errs_trace (t : TwinId) (ty : Nat) (k : Option Nat) (node aux w2 hi3 j : Nat) (s : Block)
    (h : mapWf {} s.pages = true) :
    (mapGet {} (trace t ty k node aux w2 hi3 s).pages j).errStat = (mapGet {} s.pages j).errStat := by
  unfold trace traceAt
  simp only []
  exact of_ite (P := fun b => (mapGet {} b.pages j).errStat = (mapGet {} s.pages j).errStat) _
    (errs_stageRec _ _ _ _ h) rfl

/-- With the twin's ring disabled, no record is made (R388). -/
theorem trace_off (t : TwinId) (ty : Nat) (k : Option Nat) (node aux w2 hi3 : Nat) {s : Block} (h : bookOn s t = false) :
    trace t ty k node aux w2 hi3 s = s := by simp [trace, traceAt, h]

/-! ### Registers through counters, error bits and records -/

theorem of_plain {p q : Page} (h : plainPage p = plainPage q) : p.regs = q.regs ∧ p.enable = q.enable := by
  simp only [plainPage, Page.mk.injEq] at h
  exact ⟨h.2.2.2.2.2.1, h.1⟩

@[simp] theorem regs_bump (k off n j : Nat) (s : Block) (h : mapWf {} s.pages = true) :
    (mapGet {} (bump k off n s).pages j).regs = (mapGet {} s.pages j).regs := (of_plain (plain_bump k off n j s h)).1

@[simp] theorem regs_setErr (k b j : Nat) (s : Block) (h : mapWf {} s.pages = true) :
    (mapGet {} (setErr k b s).pages j).regs = (mapGet {} s.pages j).regs := (of_plain (plain_setErr k b j s h)).1

@[simp] theorem regs_trace (t : TwinId) (ty : Nat) (k : Option Nat) (node aux w2 hi3 j : Nat) (s : Block)
    (h : mapWf {} s.pages = true) :
    (mapGet {} (trace t ty k node aux w2 hi3 s).pages j).regs = (mapGet {} s.pages j).regs :=
  (of_plain (plain_trace t ty k node aux w2 hi3 j s h)).1

@[simp] theorem enable_bump (k off n j : Nat) (s : Block) (h : mapWf {} s.pages = true) :
    (mapGet {} (bump k off n s).pages j).enable = (mapGet {} s.pages j).enable :=
  (of_plain (plain_bump k off n j s h)).2

@[simp] theorem enable_setErr (k b j : Nat) (s : Block) (h : mapWf {} s.pages = true) :
    (mapGet {} (setErr k b s).pages j).enable = (mapGet {} s.pages j).enable := (of_plain (plain_setErr k b j s h)).2

@[simp] theorem enable_trace (t : TwinId) (ty : Nat) (k : Option Nat) (node aux w2 hi3 j : Nat) (s : Block)
    (h : mapWf {} s.pages = true) :
    (mapGet {} (trace t ty k node aux w2 hi3 s).pages j).enable = (mapGet {} s.pages j).enable :=
  (of_plain (plain_trace t ty k node aux w2 hi3 j s h)).2

/-- Reading back an error bit. -/
@[simp] theorem errs_setErr_same (k b : Nat) (s : Block) (h : mapWf {} s.pages = true) :
    (mapGet {} (setErr k b s).pages k).errStat = (mapGet {} s.pages k).errStat ||| 2 ^ b := by
  simp [setErr, upPage, pageOf, mapGet_mapSet_same, h]

@[simp] theorem errs_setErr_ne (k b j : Nat) (s : Block) (hj : j ≠ k) :
    (mapGet {} (setErr k b s).pages j).errStat = (mapGet {} s.pages j).errStat := by
  simp [setErr, upPage, mapGet_mapSet_ne, hj]

/-! ### upCtxTw -/

@[simp] theorem upCtxTw_ctxs (t : TwinId) (k : Nat) (f : CtxTw → CtxTw) (s : Block) :
    (upCtxTw t k f s).ctxs = s.ctxs := by simp [upCtxTw]
@[simp] theorem upCtxTw_pages (t : TwinId) (k : Nat) (f : CtxTw → CtxTw) (s : Block) :
    (upCtxTw t k f s).pages = s.pages := by simp [upCtxTw]
@[simp] theorem upCtxTw_engines (t : TwinId) (k : Nat) (f : CtxTw → CtxTw) (s : Block) :
    (upCtxTw t k f s).engines = s.engines := by simp [upCtxTw]
@[simp] theorem upCtxTw_flushes (t : TwinId) (k : Nat) (f : CtxTw → CtxTw) (s : Block) :
    (upCtxTw t k f s).flushes = s.flushes := by simp [upCtxTw]
@[simp] theorem upCtxTw_holds (t : TwinId) (k : Nat) (f : CtxTw → CtxTw) (s : Block) :
    (upCtxTw t k f s).holds = s.holds := by simp [upCtxTw]
@[simp] theorem upCtxTw_sendEps (t : TwinId) (k : Nat) (f : CtxTw → CtxTw) (s : Block) :
    (upCtxTw t k f s).sendEps = s.sendEps := by simp [upCtxTw]
@[simp] theorem upCtxTw_recvEps (t : TwinId) (k : Nat) (f : CtxTw → CtxTw) (s : Block) :
    (upCtxTw t k f s).recvEps = s.recvEps := by simp [upCtxTw]
@[simp] theorem upCtxTw_heldWrites (t : TwinId) (k : Nat) (f : CtxTw → CtxTw) (s : Block) :
    (upCtxTw t k f s).heldWrites = s.heldWrites := by simp [upCtxTw]
@[simp] theorem upCtxTw_fmt (t : TwinId) (k : Nat) (f : CtxTw → CtxTw) (s : Block) :
    (upCtxTw t k f s).fmt = s.fmt := by simp [upCtxTw]
@[simp] theorem upCtxTw_freeze (t : TwinId) (k : Nat) (f : CtxTw → CtxTw) (s : Block) :
    (upCtxTw t k f s).freeze = s.freeze := by simp [upCtxTw]
@[simp] theorem upCtxTw_arb (t : TwinId) (k : Nat) (f : CtxTw → CtxTw) (s : Block) :
    (upCtxTw t k f s).arb = s.arb := by simp [upCtxTw]
@[simp] theorem upCtxTw_proof (t : TwinId) (k : Nat) (f : CtxTw → CtxTw) (s : Block) :
    (upCtxTw t k f s).proof = s.proof := by simp [upCtxTw]
@[simp] theorem upCtxTw_pair (t : TwinId) (k : Nat) (f : CtxTw → CtxTw) (s : Block) :
    (upCtxTw t k f s).pair = s.pair := by simp [upCtxTw]
@[simp] theorem upCtxTw_boot (t : TwinId) (k : Nat) (f : CtxTw → CtxTw) (s : Block) :
    (upCtxTw t k f s).boot = s.boot := by simp [upCtxTw]
@[simp] theorem upCtxTw_mgmt (t : TwinId) (k : Nat) (f : CtxTw → CtxTw) (s : Block) :
    (upCtxTw t k f s).mgmt = s.mgmt := by simp [upCtxTw]
@[simp] theorem upCtxTw_fuses (t : TwinId) (k : Nat) (f : CtxTw → CtxTw) (s : Block) :
    (upCtxTw t k f s).fuses = s.fuses := by simp [upCtxTw]
@[simp] theorem upCtxTw_fuseBanks (t : TwinId) (k : Nat) (f : CtxTw → CtxTw) (s : Block) :
    (upCtxTw t k f s).fuseBanks = s.fuseBanks := by simp [upCtxTw]
@[simp] theorem upCtxTw_heldSteps (t : TwinId) (k : Nat) (f : CtxTw → CtxTw) (s : Block) :
    (upCtxTw t k f s).heldSteps = s.heldSteps := by simp [upCtxTw]
@[simp] theorem upCtxTw_phase (t : TwinId) (k : Nat) (f : CtxTw → CtxTw) (s : Block) :
    (upCtxTw t k f s).phase = s.phase := by simp [upCtxTw]
@[simp] theorem upCtxTw_claimSeq (t : TwinId) (k : Nat) (f : CtxTw → CtxTw) (s : Block) :
    (upCtxTw t k f s).claimSeq = s.claimSeq := by simp [upCtxTw]
@[simp] theorem upCtxTw_serial (t : TwinId) (k : Nat) (f : CtxTw → CtxTw) (s : Block) :
    (upCtxTw t k f s).serial = s.serial := by simp [upCtxTw]
@[simp] theorem upCtxTw_ticks (t : TwinId) (k : Nat) (f : CtxTw → CtxTw) (s : Block) :
    (upCtxTw t k f s).ticks = s.ticks := by simp [upCtxTw]
@[simp] theorem upCtxTw_time (t : TwinId) (k : Nat) (f : CtxTw → CtxTw) (s : Block) :
    (upCtxTw t k f s).time = s.time := by simp [upCtxTw]
@[simp] theorem upCtxTw_work (t : TwinId) (k : Nat) (f : CtxTw → CtxTw) (s : Block) :
    (upCtxTw t k f s).work = s.work := by simp [upCtxTw]
@[simp] theorem upCtxTw_out (t : TwinId) (k : Nat) (f : CtxTw → CtxTw) (s : Block) :
    (upCtxTw t k f s).out = s.out := by simp [upCtxTw]
@[simp] theorem upCtxTw_tw_cat (t : TwinId) (k : Nat) (f : CtxTw → CtxTw) (s : Block) (u : TwinId) :
    (tw (upCtxTw t k f s) u).cat = (tw s u).cat := by cases t <;> cases u <;> rfl
@[simp] theorem upCtxTw_tw_acc (t : TwinId) (k : Nat) (f : CtxTw → CtxTw) (s : Block) (u : TwinId) :
    (tw (upCtxTw t k f s) u).acc = (tw s u).acc := by cases t <;> cases u <;> rfl
@[simp] theorem upCtxTw_tw_rack (t : TwinId) (k : Nat) (f : CtxTw → CtxTw) (s : Block) (u : TwinId) :
    (tw (upCtxTw t k f s) u).rack = (tw s u).rack := by cases t <;> cases u <;> rfl
@[simp] theorem upCtxTw_tw_desk (t : TwinId) (k : Nat) (f : CtxTw → CtxTw) (s : Block) (u : TwinId) :
    (tw (upCtxTw t k f s) u).desk = (tw s u).desk := by cases t <;> cases u <;> rfl
@[simp] theorem upCtxTw_tw_shelf (t : TwinId) (k : Nat) (f : CtxTw → CtxTw) (s : Block) (u : TwinId) :
    (tw (upCtxTw t k f s) u).shelf = (tw s u).shelf := by cases t <;> cases u <;> rfl
@[simp] theorem upCtxTw_tw_ret (t : TwinId) (k : Nat) (f : CtxTw → CtxTw) (s : Block) (u : TwinId) :
    (tw (upCtxTw t k f s) u).ret = (tw s u).ret := by cases t <;> cases u <;> rfl
@[simp] theorem upCtxTw_tw_lard (t : TwinId) (k : Nat) (f : CtxTw → CtxTw) (s : Block) (u : TwinId) :
    (tw (upCtxTw t k f s) u).lard = (tw s u).lard := by cases t <;> cases u <;> rfl
@[simp] theorem upCtxTw_tw_obs (t : TwinId) (k : Nat) (f : CtxTw → CtxTw) (s : Block) (u : TwinId) :
    (tw (upCtxTw t k f s) u).obs = (tw s u).obs := by cases t <;> cases u <;> rfl
@[simp] theorem upCtxTw_tw_sort (t : TwinId) (k : Nat) (f : CtxTw → CtxTw) (s : Block) (u : TwinId) :
    (tw (upCtxTw t k f s) u).sort = (tw s u).sort := by cases t <;> cases u <;> rfl
@[simp] theorem upCtxTw_tw_bank (t : TwinId) (k : Nat) (f : CtxTw → CtxTw) (s : Block) (u : TwinId) :
    (tw (upCtxTw t k f s) u).bank = (tw s u).bank := by cases t <;> cases u <;> rfl
@[simp] theorem upCtxTw_tw_office (t : TwinId) (k : Nat) (f : CtxTw → CtxTw) (s : Block) (u : TwinId) :
    (tw (upCtxTw t k f s) u).office = (tw s u).office := by cases t <;> cases u <;> rfl
@[simp] theorem upCtxTw_tw_bake (t : TwinId) (k : Nat) (f : CtxTw → CtxTw) (s : Block) (u : TwinId) :
    (tw (upCtxTw t k f s) u).bake = (tw s u).bake := by cases t <;> cases u <;> rfl
@[simp] theorem upCtxTw_tw_thrd (t : TwinId) (k : Nat) (f : CtxTw → CtxTw) (s : Block) (u : TwinId) :
    (tw (upCtxTw t k f s) u).thrd = (tw s u).thrd := by cases t <;> cases u <;> rfl
@[simp] theorem upCtxTw_tw_rel (t : TwinId) (k : Nat) (f : CtxTw → CtxTw) (s : Block) (u : TwinId) :
    (tw (upCtxTw t k f s) u).rel = (tw s u).rel := by cases t <;> cases u <;> rfl
@[simp] theorem upCtxTw_tw_faultQ (t : TwinId) (k : Nat) (f : CtxTw → CtxTw) (s : Block) (u : TwinId) :
    (tw (upCtxTw t k f s) u).faultQ = (tw s u).faultQ := by cases t <;> cases u <;> rfl
@[simp] theorem upCtxTw_tw_combined (t : TwinId) (k : Nat) (f : CtxTw → CtxTw) (s : Block) (u : TwinId) :
    (tw (upCtxTw t k f s) u).combined = (tw s u).combined := by cases t <;> cases u <;> rfl
@[simp] theorem upCtxTw_tw_crossing (t : TwinId) (k : Nat) (f : CtxTw → CtxTw) (s : Block) (u : TwinId) :
    (tw (upCtxTw t k f s) u).crossing = (tw s u).crossing := by cases t <;> cases u <;> rfl
@[simp] theorem upCtxTw_tw_edgeIn (t : TwinId) (k : Nat) (f : CtxTw → CtxTw) (s : Block) (u : TwinId) :
    (tw (upCtxTw t k f s) u).edgeIn = (tw s u).edgeIn := by cases t <;> cases u <;> rfl
@[simp] theorem upCtxTw_tw_claimIn (t : TwinId) (k : Nat) (f : CtxTw → CtxTw) (s : Block) (u : TwinId) :
    (tw (upCtxTw t k f s) u).claimIn = (tw s u).claimIn := by cases t <;> cases u <;> rfl
@[simp] theorem upCtxTw_tw_ctrlIn (t : TwinId) (k : Nat) (f : CtxTw → CtxTw) (s : Block) (u : TwinId) :
    (tw (upCtxTw t k f s) u).ctrlIn = (tw s u).ctrlIn := by cases t <;> cases u <;> rfl
@[simp] theorem upCtxTw_tw_svc (t : TwinId) (k : Nat) (f : CtxTw → CtxTw) (s : Block) (u : TwinId) :
    (tw (upCtxTw t k f s) u).svc = (tw s u).svc := by cases t <;> cases u <;> rfl
@[simp] theorem upCtxTw_tw_halted (t : TwinId) (k : Nat) (f : CtxTw → CtxTw) (s : Block) (u : TwinId) :
    (tw (upCtxTw t k f s) u).halted = (tw s u).halted := by cases t <;> cases u <;> rfl
@[simp] theorem upCtxTw_tw_ctxs (t : TwinId) (k : Nat) (f : CtxTw → CtxTw) (s : Block) :
    (tw (upCtxTw t k f s) t).ctxs = mapSet {} (tw s t).ctxs k (f (mapGet {} (tw s t).ctxs k)) := by simp [upCtxTw]
@[simp] theorem upCtxTw_tw_ctxs_partner (t : TwinId) (k : Nat) (f : CtxTw → CtxTw) (s : Block) :
    (tw (upCtxTw t k f s) (partner t)).ctxs = (tw s (partner t)).ctxs := by simp [upCtxTw]
@[simp] theorem upCtxTw_partner_tw_ctxs (t : TwinId) (k : Nat) (f : CtxTw → CtxTw) (s : Block) :
    (tw (upCtxTw (partner t) k f s) t).ctxs = (tw s t).ctxs := by simp [upCtxTw]

/-! ### Registers and counters of a canonical page store -/

theorem pagesAll_upPage (k : Nat) (f : Page → Page) (s : Block) (h : pagesWf s.pages = true)
    (hf : ∀ p, pageWf p = true → pageWf (f p) = true) : pagesWf (upPage k f s).pages = true :=
  pagesWf_mapSet _ _ _ h (hf _ (pageWf_mapGet h k))

@[simp] theorem pagesAll_setReg (k off v : Nat) (s : Block) (h : pagesWf s.pages = true) :
    pagesWf (setReg k off v s).pages = true :=
  pagesAll_upPage _ _ _ h fun p hp => by
    simp only [pageWf, Bool.and_eq_true] at hp ⊢
    simp [hp]

@[simp] theorem pagesAll_bump (k off n : Nat) (s : Block) (h : pagesWf s.pages = true) :
    pagesWf (bump k off n s).pages = true :=
  pagesAll_upPage _ _ _ h fun p hp => by
    simp only [pageWf, Bool.and_eq_true] at hp ⊢
    simp [hp]

@[simp] theorem pagesAll_setErr (k b : Nat) (s : Block) (h : pagesWf s.pages = true) :
    pagesWf (setErr k b s).pages = true :=
  pagesAll_upPage _ _ _ h fun p hp => by
    simp only [pageWf, Bool.and_eq_true] at hp ⊢
    simp [hp]

theorem mapGet_upPage_same (k : Nat) (f : Page → Page) (s : Block) (h : pagesWf s.pages = true) :
    mapGet {} (upPage k f s).pages k = f (mapGet {} s.pages k) := by
  simp [upPage, pageOf, mapGet_mapSet_same, pagesWf_map h]

theorem mapGet_upPage_ne (k j : Nat) (f : Page → Page) (s : Block) (h : j ≠ k) :
    mapGet {} (upPage k f s).pages j = mapGet {} s.pages j := by simp [upPage, h]

/-- A register reads as it was written. -/
@[simp] theorem regGet_setReg_same (k off v : Nat) (s : Block) (h : pagesWf s.pages = true) :
    (mapGet none (mapGet {} (setReg k off v s).pages k).regs off).getD (regReset (pageType k) off) = v := by
  have hp := pageWf_mapGet h k
  simp only [pageWf, Bool.and_eq_true] at hp
  unfold setReg
  rw [mapGet_upPage_same _ _ _ h]
  simp only [mapGet_mapSet_same _ _ _ _ hp.1.1]
  by_cases hv : v = regReset (pageType k) off <;> simp [hv]

@[simp] theorem regGet_setReg_off (k off v o : Nat) (s : Block) (h : pagesWf s.pages = true) (ho : o ≠ off) :
    mapGet none (mapGet {} (setReg k off v s).pages k).regs o = mapGet none (mapGet {} s.pages k).regs o := by
  unfold setReg
  rw [mapGet_upPage_same _ _ _ h]
  simp [ho]

@[simp] theorem pageGet_setReg_ne (k j off v : Nat) (s : Block) (hj : j ≠ k) :
    mapGet {} (setReg k off v s).pages j = mapGet {} s.pages j := mapGet_upPage_ne _ _ _ _ hj

@[simp] theorem ctrs_setReg (k off v j : Nat) (s : Block) (h : pagesWf s.pages = true) :
    (mapGet {} (setReg k off v s).pages j).ctrs = (mapGet {} s.pages j).ctrs :=
  mapGet_upPage Page.ctrs k j _ s (pagesWf_map h) fun _ => rfl

@[simp] theorem errs_setReg (k off v j : Nat) (s : Block) (h : pagesWf s.pages = true) :
    (mapGet {} (setReg k off v s).pages j).errStat = (mapGet {} s.pages j).errStat :=
  mapGet_upPage Page.errStat k j _ s (pagesWf_map h) fun _ => rfl

@[simp] theorem enable_setReg (k off v j : Nat) (s : Block) (h : pagesWf s.pages = true) :
    (mapGet {} (setReg k off v s).pages j).enable = (mapGet {} s.pages j).enable :=
  mapGet_upPage Page.enable k j _ s (pagesWf_map h) fun _ => rfl

/-- A counter counts, and stops at its greatest value (R377). -/
@[simp] theorem ctrGet_bump_same (k off n : Nat) (s : Block) (h : pagesWf s.pages = true) :
    mapGet 0 (mapGet {} (bump k off n s).pages k).ctrs off
      = satAdd ctrMax (mapGet 0 (mapGet {} s.pages k).ctrs off) n := by
  have hp := pageWf_mapGet h k
  simp only [pageWf, Bool.and_eq_true] at hp
  unfold bump
  rw [mapGet_upPage_same _ _ _ h]
  simp only [mapGet_mapSet_same _ _ _ _ hp.2]

@[simp] theorem ctrGet_bump_off (k off n o : Nat) (s : Block) (h : pagesWf s.pages = true) (ho : o ≠ off) :
    mapGet 0 (mapGet {} (bump k off n s).pages k).ctrs o = mapGet 0 (mapGet {} s.pages k).ctrs o := by
  unfold bump
  rw [mapGet_upPage_same _ _ _ h]
  simp [ho]

@[simp] theorem pageGet_bump_ne (k j off n : Nat) (s : Block) (hj : j ≠ k) :
    mapGet {} (bump k off n s).pages j = mapGet {} s.pages j := mapGet_upPage_ne _ _ _ _ hj

/-! ### A change of one twin seen from any twin -/

@[simp low] theorem upTw_any_cat (t u : TwinId) (f : Twin → Twin) (s : Block) (h : ∀ w, (f w).cat = w.cat) :
    (tw (upTw t f s) u).cat = (tw s u).cat := by cases t <;> cases u <;> simp [tw, upTw, h]
@[simp low] theorem upTw_any_acc (t u : TwinId) (f : Twin → Twin) (s : Block) (h : ∀ w, (f w).acc = w.acc) :
    (tw (upTw t f s) u).acc = (tw s u).acc := by cases t <;> cases u <;> simp [tw, upTw, h]
@[simp low] theorem upTw_any_rack (t u : TwinId) (f : Twin → Twin) (s : Block) (h : ∀ w, (f w).rack = w.rack) :
    (tw (upTw t f s) u).rack = (tw s u).rack := by cases t <;> cases u <;> simp [tw, upTw, h]
@[simp low] theorem upTw_any_desk (t u : TwinId) (f : Twin → Twin) (s : Block) (h : ∀ w, (f w).desk = w.desk) :
    (tw (upTw t f s) u).desk = (tw s u).desk := by cases t <;> cases u <;> simp [tw, upTw, h]
@[simp low] theorem upTw_any_shelf (t u : TwinId) (f : Twin → Twin) (s : Block) (h : ∀ w, (f w).shelf = w.shelf) :
    (tw (upTw t f s) u).shelf = (tw s u).shelf := by cases t <;> cases u <;> simp [tw, upTw, h]
@[simp low] theorem upTw_any_ret (t u : TwinId) (f : Twin → Twin) (s : Block) (h : ∀ w, (f w).ret = w.ret) :
    (tw (upTw t f s) u).ret = (tw s u).ret := by cases t <;> cases u <;> simp [tw, upTw, h]
@[simp low] theorem upTw_any_lard (t u : TwinId) (f : Twin → Twin) (s : Block) (h : ∀ w, (f w).lard = w.lard) :
    (tw (upTw t f s) u).lard = (tw s u).lard := by cases t <;> cases u <;> simp [tw, upTw, h]
@[simp low] theorem upTw_any_obs (t u : TwinId) (f : Twin → Twin) (s : Block) (h : ∀ w, (f w).obs = w.obs) :
    (tw (upTw t f s) u).obs = (tw s u).obs := by cases t <;> cases u <;> simp [tw, upTw, h]
@[simp low] theorem upTw_any_ctxs (t u : TwinId) (f : Twin → Twin) (s : Block) (h : ∀ w, (f w).ctxs = w.ctxs) :
    (tw (upTw t f s) u).ctxs = (tw s u).ctxs := by cases t <;> cases u <;> simp [tw, upTw, h]
@[simp low] theorem upTw_any_sort (t u : TwinId) (f : Twin → Twin) (s : Block) (h : ∀ w, (f w).sort = w.sort) :
    (tw (upTw t f s) u).sort = (tw s u).sort := by cases t <;> cases u <;> simp [tw, upTw, h]
@[simp low] theorem upTw_any_bank (t u : TwinId) (f : Twin → Twin) (s : Block) (h : ∀ w, (f w).bank = w.bank) :
    (tw (upTw t f s) u).bank = (tw s u).bank := by cases t <;> cases u <;> simp [tw, upTw, h]
@[simp low] theorem upTw_any_office (t u : TwinId) (f : Twin → Twin) (s : Block) (h : ∀ w, (f w).office = w.office) :
    (tw (upTw t f s) u).office = (tw s u).office := by cases t <;> cases u <;> simp [tw, upTw, h]
@[simp low] theorem upTw_any_bake (t u : TwinId) (f : Twin → Twin) (s : Block) (h : ∀ w, (f w).bake = w.bake) :
    (tw (upTw t f s) u).bake = (tw s u).bake := by cases t <;> cases u <;> simp [tw, upTw, h]
@[simp low] theorem upTw_any_thrd (t u : TwinId) (f : Twin → Twin) (s : Block) (h : ∀ w, (f w).thrd = w.thrd) :
    (tw (upTw t f s) u).thrd = (tw s u).thrd := by cases t <;> cases u <;> simp [tw, upTw, h]
@[simp low] theorem upTw_any_rel (t u : TwinId) (f : Twin → Twin) (s : Block) (h : ∀ w, (f w).rel = w.rel) :
    (tw (upTw t f s) u).rel = (tw s u).rel := by cases t <;> cases u <;> simp [tw, upTw, h]
@[simp low] theorem upTw_any_faultQ (t u : TwinId) (f : Twin → Twin) (s : Block) (h : ∀ w, (f w).faultQ = w.faultQ) :
    (tw (upTw t f s) u).faultQ = (tw s u).faultQ := by cases t <;> cases u <;> simp [tw, upTw, h]
@[simp low] theorem upTw_any_combined (t u : TwinId) (f : Twin → Twin) (s : Block) (h : ∀ w, (f w).combined = w.combined) :
    (tw (upTw t f s) u).combined = (tw s u).combined := by cases t <;> cases u <;> simp [tw, upTw, h]
@[simp low] theorem upTw_any_crossing (t u : TwinId) (f : Twin → Twin) (s : Block) (h : ∀ w, (f w).crossing = w.crossing) :
    (tw (upTw t f s) u).crossing = (tw s u).crossing := by cases t <;> cases u <;> simp [tw, upTw, h]
@[simp low] theorem upTw_any_edgeIn (t u : TwinId) (f : Twin → Twin) (s : Block) (h : ∀ w, (f w).edgeIn = w.edgeIn) :
    (tw (upTw t f s) u).edgeIn = (tw s u).edgeIn := by cases t <;> cases u <;> simp [tw, upTw, h]
@[simp low] theorem upTw_any_claimIn (t u : TwinId) (f : Twin → Twin) (s : Block) (h : ∀ w, (f w).claimIn = w.claimIn) :
    (tw (upTw t f s) u).claimIn = (tw s u).claimIn := by cases t <;> cases u <;> simp [tw, upTw, h]
@[simp low] theorem upTw_any_ctrlIn (t u : TwinId) (f : Twin → Twin) (s : Block) (h : ∀ w, (f w).ctrlIn = w.ctrlIn) :
    (tw (upTw t f s) u).ctrlIn = (tw s u).ctrlIn := by cases t <;> cases u <;> simp [tw, upTw, h]
@[simp low] theorem upTw_any_svc (t u : TwinId) (f : Twin → Twin) (s : Block) (h : ∀ w, (f w).svc = w.svc) :
    (tw (upTw t f s) u).svc = (tw s u).svc := by cases t <;> cases u <;> simp [tw, upTw, h]
@[simp low] theorem upTw_any_halted (t u : TwinId) (f : Twin → Twin) (s : Block) (h : ∀ w, (f w).halted = w.halted) :
    (tw (upTw t f s) u).halted = (tw s u).halted := by cases t <;> cases u <;> simp [tw, upTw, h]

/-! ### Outputs written in a row -/

/-- The outputs of a command grow by a list. -/
def outs (l : List Output) (s : Block) : Block := { s with out := s.out ++ l }

@[simp] theorem outs_ctxs (l : List Output) (s : Block) : (outs l s).ctxs = s.ctxs := rfl
@[simp] theorem outs_pages (l : List Output) (s : Block) : (outs l s).pages = s.pages := rfl
@[simp] theorem outs_engines (l : List Output) (s : Block) : (outs l s).engines = s.engines := rfl
@[simp] theorem outs_flushes (l : List Output) (s : Block) : (outs l s).flushes = s.flushes := rfl
@[simp] theorem outs_holds (l : List Output) (s : Block) : (outs l s).holds = s.holds := rfl
@[simp] theorem outs_sendEps (l : List Output) (s : Block) : (outs l s).sendEps = s.sendEps := rfl
@[simp] theorem outs_recvEps (l : List Output) (s : Block) : (outs l s).recvEps = s.recvEps := rfl
@[simp] theorem outs_heldWrites (l : List Output) (s : Block) : (outs l s).heldWrites = s.heldWrites := rfl
@[simp] theorem outs_fmt (l : List Output) (s : Block) : (outs l s).fmt = s.fmt := rfl
@[simp] theorem outs_freeze (l : List Output) (s : Block) : (outs l s).freeze = s.freeze := rfl
@[simp] theorem outs_arb (l : List Output) (s : Block) : (outs l s).arb = s.arb := rfl
@[simp] theorem outs_proof (l : List Output) (s : Block) : (outs l s).proof = s.proof := rfl
@[simp] theorem outs_pair (l : List Output) (s : Block) : (outs l s).pair = s.pair := rfl
@[simp] theorem outs_boot (l : List Output) (s : Block) : (outs l s).boot = s.boot := rfl
@[simp] theorem outs_mgmt (l : List Output) (s : Block) : (outs l s).mgmt = s.mgmt := rfl
@[simp] theorem outs_fuses (l : List Output) (s : Block) : (outs l s).fuses = s.fuses := rfl
@[simp] theorem outs_fuseBanks (l : List Output) (s : Block) : (outs l s).fuseBanks = s.fuseBanks := rfl
@[simp] theorem outs_heldSteps (l : List Output) (s : Block) : (outs l s).heldSteps = s.heldSteps := rfl
@[simp] theorem outs_phase (l : List Output) (s : Block) : (outs l s).phase = s.phase := rfl
@[simp] theorem outs_claimSeq (l : List Output) (s : Block) : (outs l s).claimSeq = s.claimSeq := rfl
@[simp] theorem outs_serial (l : List Output) (s : Block) : (outs l s).serial = s.serial := rfl
@[simp] theorem outs_ticks (l : List Output) (s : Block) : (outs l s).ticks = s.ticks := rfl
@[simp] theorem outs_time (l : List Output) (s : Block) : (outs l s).time = s.time := rfl
@[simp] theorem outs_work (l : List Output) (s : Block) : (outs l s).work = s.work := rfl
@[simp] theorem outs_tw0 (l : List Output) (s : Block) : (outs l s).tw0 = s.tw0 := rfl
@[simp] theorem outs_tw1 (l : List Output) (s : Block) : (outs l s).tw1 = s.tw1 := rfl
@[simp] theorem outs_out (l : List Output) (s : Block) : (outs l s).out = s.out ++ l := rfl
@[simp] theorem outs_tw (l : List Output) (s : Block) (u : TwinId) : tw (outs l s) u = tw s u := by cases u <;> rfl

theorem forEach_outs {α : Type} (xs : List α) (f : α → Block → Block) (g : α → List Output) (s : Block)
    (h : ∀ x s, f x s = outs (g x) s) : forEach xs f s = outs (xs.flatMap g) s := by
  unfold forEach
  induction xs generalizing s with
  | nil => simp [outs]
  | cons x xs ih => simp only [List.foldl_cons]; rw [ih, h]; simp [outs]

theorem forEach_emit {α : Type} (xs : List α) (g : α → Output) (s : Block) :
    forEach xs (fun x s => emit (g x) s) s = outs (xs.map g) s := by
  refine (forEach_outs xs (fun x s => emit (g x) s) (fun x => [g x]) s fun _ _ => rfl).trans ?_
  rw [List.map_eq_flatMap]

/-- The lines of a write, one access each. -/
def lineWrites (t : TwinId) (addr : Nat) (words : List Nat) : List Output :=
  (chunks 8 words).zipIdx.map fun p => .nocWrite t (addr + 64 * p.2) p.1

theorem writeLines_eq (t : TwinId) (addr : Nat) (words : List Nat) (s : Block) :
    writeLines t addr words s = outs (lineWrites t addr words) s := forEach_emit _ _ _

theorem forEach_writeLines (t : TwinId) (xs : List (Nat × List Nat)) (s : Block) :
    forEach xs (fun p s => outs (lineWrites t p.1 p.2) s) s = outs (xs.flatMap fun p => lineWrites t p.1 p.2) s :=
  forEach_outs _ _ _ _ fun _ _ => rfl

/-! ### Pages through trace records -/

@[simp] theorem accP_ne_daybP (t u : TwinId) : twKey t accP ≠ twKey u daybP := by
  cases t <;> cases u <;> decide
@[simp] theorem catP_ne_daybP (t u : TwinId) : twKey t catP ≠ twKey u daybP := by
  cases t <;> cases u <;> decide
@[simp] theorem rackP_ne_daybP (t u : TwinId) : twKey t rackP ≠ twKey u daybP := by
  cases t <;> cases u <;> decide
@[simp] theorem deskP_ne_daybP (t u : TwinId) : twKey t deskP ≠ twKey u daybP := by
  cases t <;> cases u <;> decide
@[simp] theorem shlfP_ne_daybP (t u : TwinId) : twKey t shlfP ≠ twKey u daybP := by
  cases t <;> cases u <;> decide
@[simp] theorem retP_ne_daybP (t u : TwinId) : twKey t retP ≠ twKey u daybP := by
  cases t <;> cases u <;> decide
@[simp] theorem lardP_ne_daybP (t u : TwinId) : twKey t lardP ≠ twKey u daybP := by
  cases t <;> cases u <;> decide
@[simp] theorem sortP_ne_daybP (t u : TwinId) : twKey t sortP ≠ twKey u daybP := by
  cases t <;> cases u <;> decide
@[simp] theorem talyP_ne_daybP (t u : TwinId) : twKey t talyP ≠ twKey u daybP := by
  cases t <;> cases u <;> decide
@[simp] theorem tubeP_ne_daybP (t u : TwinId) : twKey t tubeP ≠ twKey u daybP := by
  cases t <;> cases u <;> decide
@[simp] theorem bakeP_ne_daybP (t u : TwinId) : twKey t bakeP ≠ twKey u daybP := by
  cases t <;> cases u <;> decide
@[simp] theorem thrdP_ne_daybP (t u : TwinId) : twKey t thrdP ≠ twKey u daybP := by
  cases t <;> cases u <;> decide
@[simp] theorem relP_ne_daybP (t u : TwinId) : twKey t relP ≠ twKey u daybP := by
  cases t <;> cases u <;> decide
@[simp] theorem cntP_ne_daybP (t u : TwinId) : twKey t cntP ≠ twKey u daybP := by
  cases t <;> cases u <;> decide
@[simp] theorem invP_ne_daybP (t u : TwinId) : twKey t invP ≠ twKey u daybP := by
  cases t <;> cases u <;> decide
@[simp] theorem blkKey_ne_twKey (t : TwinId) (p : Nat) : blkKey ≠ twKey t p := by unfold blkKey twKey; omega
@[simp] theorem pwrKey_ne_twKey (t : TwinId) (p : Nat) : pwrKey ≠ twKey t p := by unfold pwrKey twKey; omega
@[simp] theorem fmtKey_ne_twKey (t : TwinId) (p : Nat) : fmtKey ≠ twKey t p := by unfold fmtKey twKey; omega
@[simp] theorem ctxKey_ne_daybP (k : Nat) (t : TwinId) : ctxKey k ≠ twKey t daybP := by
  unfold ctxKey twKey daybP
  cases t <;> simp [twinNum] <;> omega

@[simp] theorem pageGet_stageRec_ne (t : TwinId) (r : TraceRec) (j : Nat) (s : Block) (h : j ≠ twKey t daybP) :
    mapGet {} (stageRec t r s).pages j = mapGet {} s.pages j := by
  unfold stageRec driveRing
  (try simp only [])
  (repeat' split) <;> simp [h]

@[simp] theorem pageGet_trace_ne (t : TwinId) (ty : Nat) (k : Option Nat) (node aux w2 hi3 j : Nat) (s : Block)
    (h : j ≠ twKey t daybP) : mapGet {} (trace t ty k node aux w2 hi3 s).pages j = mapGet {} s.pages j := by
  unfold trace traceAt
  simp only []
  exact of_ite (P := fun b => mapGet {} b.pages j = mapGet {} s.pages j) _ (pageGet_stageRec_ne _ _ _ _ h) rfl

@[simp] theorem pagesAll_stageRec (t : TwinId) (r : TraceRec) (s : Block) (h : pagesWf s.pages = true) :
    pagesWf (stageRec t r s).pages = true := by
  unfold stageRec driveRing
  (try simp only [])
  (repeat' split) <;> simp [h]

@[simp] theorem pagesAll_trace (t : TwinId) (ty : Nat) (k : Option Nat) (node aux w2 hi3 : Nat) (s : Block)
    (h : pagesWf s.pages = true) : pagesWf (trace t ty k node aux w2 hi3 s).pages = true := by
  unfold trace traceAt
  simp only []
  exact of_ite (P := fun b => pagesWf b.pages = true) _ (pagesAll_stageRec _ _ _ h) h

open Sys2Proof.Safety in
theorem onCluster_of_runs {e : Nat} {s : Block} (f : Block → Block) (h : clusterRuns s e = true) :
    onCluster e f s = f s := by
  unfold onCluster
  simp only [clusterRuns, Bool.or_eq_true, beq_iff_eq] at h
  rcases h with h | h <;> rw [h]

open Sys2Proof.Safety in
theorem onCluster_of_stopped {e : Nat} {s : Block} (f : Block → Block) (h : clusterRuns s e = false) :
    onCluster e f s = s := by
  unfold onCluster
  simp only [clusterRuns, Bool.or_eq_false_iff, beq_eq_false_iff_ne] at h
  split <;> simp_all

open Sys2Proof.Safety in
theorem putAccess_served {s : Block} {src : Requester} {t : TwinId} (f : Block → Block)
    (h : putServed s src t = true) : putAccess src t f s = f s := by
  cases src with
  | task tag => simp only [putServed, Bool.and_eq_true, Bool.not_eq_true'] at h; simp [putAccess, h.1, h.2]
  | untagged => simp only [putServed, Bool.and_eq_true, Bool.not_eq_true'] at h; simp [putAccess, h.1, h.2]
  | host port fn => exact pageCmd_served f h
  | archivist t => exact pageCmd_served f h

end Sys2Proof.Machine
end

