-- ==== Sys2Proof/Laws/Faults.lean ====
section
/-! SUPPORT. What a context fault does and what it leaves alone (R303, R304, R306). -/

namespace Sys2Proof.Machine

open Sys2Proof.Safety

@[simp] theorem raiseFreeze_engines (t : TwinId) (s : Block) : (raiseFreeze t s).engines = s.engines := by
  unfold raiseFreeze
  split
  · rfl
  · cases t <;> rfl
@[simp] theorem raiseFreeze_flushes (t : TwinId) (s : Block) : (raiseFreeze t s).flushes = s.flushes := by
  unfold raiseFreeze
  split
  · rfl
  · cases t <;> rfl
@[simp] theorem raiseFreeze_holds (t : TwinId) (s : Block) : (raiseFreeze t s).holds = s.holds := by
  unfold raiseFreeze
  split
  · rfl
  · cases t <;> rfl
@[simp] theorem raiseFreeze_sendEps (t : TwinId) (s : Block) : (raiseFreeze t s).sendEps = s.sendEps := by
  unfold raiseFreeze
  split
  · rfl
  · cases t <;> rfl
@[simp] theorem raiseFreeze_recvEps (t : TwinId) (s : Block) : (raiseFreeze t s).recvEps = s.recvEps := by
  unfold raiseFreeze
  split
  · rfl
  · cases t <;> rfl
@[simp] theorem raiseFreeze_heldWrites (t : TwinId) (s : Block) : (raiseFreeze t s).heldWrites = s.heldWrites := by
  unfold raiseFreeze
  split
  · rfl
  · cases t <;> rfl
@[simp] theorem raiseFreeze_fmt (t : TwinId) (s : Block) : (raiseFreeze t s).fmt = s.fmt := by
  unfold raiseFreeze
  split
  · rfl
  · cases t <;> rfl
@[simp] theorem raiseFreeze_arb (t : TwinId) (s : Block) : (raiseFreeze t s).arb = s.arb := by
  unfold raiseFreeze
  split
  · rfl
  · cases t <;> rfl
@[simp] theorem raiseFreeze_proof (t : TwinId) (s : Block) : (raiseFreeze t s).proof = s.proof := by
  unfold raiseFreeze
  split
  · rfl
  · cases t <;> rfl
@[simp] theorem raiseFreeze_pair (t : TwinId) (s : Block) : (raiseFreeze t s).pair = s.pair := by
  unfold raiseFreeze
  split
  · rfl
  · cases t <;> rfl
@[simp] theorem raiseFreeze_boot (t : TwinId) (s : Block) : (raiseFreeze t s).boot = s.boot := by
  unfold raiseFreeze
  split
  · rfl
  · cases t <;> rfl
@[simp] theorem raiseFreeze_mgmt (t : TwinId) (s : Block) : (raiseFreeze t s).mgmt = s.mgmt := by
  unfold raiseFreeze
  split
  · rfl
  · cases t <;> rfl
@[simp] theorem raiseFreeze_fuses (t : TwinId) (s : Block) : (raiseFreeze t s).fuses = s.fuses := by
  unfold raiseFreeze
  split
  · rfl
  · cases t <;> rfl
@[simp] theorem raiseFreeze_fuseBanks (t : TwinId) (s : Block) : (raiseFreeze t s).fuseBanks = s.fuseBanks := by
  unfold raiseFreeze
  split
  · rfl
  · cases t <;> rfl
@[simp] theorem raiseFreeze_heldSteps (t : TwinId) (s : Block) : (raiseFreeze t s).heldSteps = s.heldSteps := by
  unfold raiseFreeze
  split
  · rfl
  · cases t <;> rfl
@[simp] theorem raiseFreeze_phase (t : TwinId) (s : Block) : (raiseFreeze t s).phase = s.phase := by
  unfold raiseFreeze
  split
  · rfl
  · cases t <;> rfl
@[simp] theorem raiseFreeze_claimSeq (t : TwinId) (s : Block) : (raiseFreeze t s).claimSeq = s.claimSeq := by
  unfold raiseFreeze
  split
  · rfl
  · cases t <;> rfl
@[simp] theorem raiseFreeze_serial (t : TwinId) (s : Block) : (raiseFreeze t s).serial = s.serial := by
  unfold raiseFreeze
  split
  · rfl
  · cases t <;> rfl
@[simp] theorem raiseFreeze_ticks (t : TwinId) (s : Block) : (raiseFreeze t s).ticks = s.ticks := by
  unfold raiseFreeze
  split
  · rfl
  · cases t <;> rfl
@[simp] theorem raiseFreeze_time (t : TwinId) (s : Block) : (raiseFreeze t s).time = s.time := by
  unfold raiseFreeze
  split
  · rfl
  · cases t <;> rfl
@[simp] theorem raiseFreeze_out (t : TwinId) (s : Block) : (raiseFreeze t s).out = s.out := by
  unfold raiseFreeze
  split
  · rfl
  · cases t <;> rfl
@[simp] theorem raiseFreeze_ctxs (t : TwinId) (s : Block) : (raiseFreeze t s).ctxs = s.ctxs := by
  unfold raiseFreeze
  split
  · rfl
  · cases t <;> rfl
@[simp] theorem raiseFreeze_work (t : TwinId) (s : Block) : (raiseFreeze t s).work = s.work := by
  unfold raiseFreeze
  split
  · rfl
  · cases t <;> rfl
@[simp] theorem raiseFreeze_pages (t : TwinId) (s : Block) : (raiseFreeze t s).pages = s.pages := by
  unfold raiseFreeze
  split
  · rfl
  · cases t <;> rfl
@[simp] theorem raiseFreeze_tw_cat (t : TwinId) (s : Block) (u : TwinId) :
    (tw (raiseFreeze t s) u).cat = (tw s u).cat := by
  unfold raiseFreeze
  split
  · cases u <;> rfl
  · cases t <;> cases u <;> rfl
@[simp] theorem raiseFreeze_tw_acc (t : TwinId) (s : Block) (u : TwinId) :
    (tw (raiseFreeze t s) u).acc = (tw s u).acc := by
  unfold raiseFreeze
  split
  · cases u <;> rfl
  · cases t <;> cases u <;> rfl
@[simp] theorem raiseFreeze_tw_rack (t : TwinId) (s : Block) (u : TwinId) :
    (tw (raiseFreeze t s) u).rack = (tw s u).rack := by
  unfold raiseFreeze
  split
  · cases u <;> rfl
  · cases t <;> cases u <;> rfl
@[simp] theorem raiseFreeze_tw_desk (t : TwinId) (s : Block) (u : TwinId) :
    (tw (raiseFreeze t s) u).desk = (tw s u).desk := by
  unfold raiseFreeze
  split
  · cases u <;> rfl
  · cases t <;> cases u <;> rfl
@[simp] theorem raiseFreeze_tw_shelf (t : TwinId) (s : Block) (u : TwinId) :
    (tw (raiseFreeze t s) u).shelf = (tw s u).shelf := by
  unfold raiseFreeze
  split
  · cases u <;> rfl
  · cases t <;> cases u <;> rfl
@[simp] theorem raiseFreeze_tw_ret (t : TwinId) (s : Block) (u : TwinId) :
    (tw (raiseFreeze t s) u).ret = (tw s u).ret := by
  unfold raiseFreeze
  split
  · cases u <;> rfl
  · cases t <;> cases u <;> rfl
@[simp] theorem raiseFreeze_tw_lard (t : TwinId) (s : Block) (u : TwinId) :
    (tw (raiseFreeze t s) u).lard = (tw s u).lard := by
  unfold raiseFreeze
  split
  · cases u <;> rfl
  · cases t <;> cases u <;> rfl
@[simp] theorem raiseFreeze_tw_sort (t : TwinId) (s : Block) (u : TwinId) :
    (tw (raiseFreeze t s) u).sort = (tw s u).sort := by
  unfold raiseFreeze
  split
  · cases u <;> rfl
  · cases t <;> cases u <;> rfl
@[simp] theorem raiseFreeze_tw_bank (t : TwinId) (s : Block) (u : TwinId) :
    (tw (raiseFreeze t s) u).bank = (tw s u).bank := by
  unfold raiseFreeze
  split
  · cases u <;> rfl
  · cases t <;> cases u <;> rfl
@[simp] theorem raiseFreeze_tw_office (t : TwinId) (s : Block) (u : TwinId) :
    (tw (raiseFreeze t s) u).office = (tw s u).office := by
  unfold raiseFreeze
  split
  · cases u <;> rfl
  · cases t <;> cases u <;> rfl
@[simp] theorem raiseFreeze_tw_bake (t : TwinId) (s : Block) (u : TwinId) :
    (tw (raiseFreeze t s) u).bake = (tw s u).bake := by
  unfold raiseFreeze
  split
  · cases u <;> rfl
  · cases t <;> cases u <;> rfl
@[simp] theorem raiseFreeze_tw_thrd (t : TwinId) (s : Block) (u : TwinId) :
    (tw (raiseFreeze t s) u).thrd = (tw s u).thrd := by
  unfold raiseFreeze
  split
  · cases u <;> rfl
  · cases t <;> cases u <;> rfl
@[simp] theorem raiseFreeze_tw_rel (t : TwinId) (s : Block) (u : TwinId) :
    (tw (raiseFreeze t s) u).rel = (tw s u).rel := by
  unfold raiseFreeze
  split
  · cases u <;> rfl
  · cases t <;> cases u <;> rfl
@[simp] theorem raiseFreeze_tw_combined (t : TwinId) (s : Block) (u : TwinId) :
    (tw (raiseFreeze t s) u).combined = (tw s u).combined := by
  unfold raiseFreeze
  split
  · cases u <;> rfl
  · cases t <;> cases u <;> rfl
@[simp] theorem raiseFreeze_tw_crossing (t : TwinId) (s : Block) (u : TwinId) :
    (tw (raiseFreeze t s) u).crossing = (tw s u).crossing := by
  unfold raiseFreeze
  split
  · cases u <;> rfl
  · cases t <;> cases u <;> rfl
@[simp] theorem raiseFreeze_tw_edgeIn (t : TwinId) (s : Block) (u : TwinId) :
    (tw (raiseFreeze t s) u).edgeIn = (tw s u).edgeIn := by
  unfold raiseFreeze
  split
  · cases u <;> rfl
  · cases t <;> cases u <;> rfl
@[simp] theorem raiseFreeze_tw_claimIn (t : TwinId) (s : Block) (u : TwinId) :
    (tw (raiseFreeze t s) u).claimIn = (tw s u).claimIn := by
  unfold raiseFreeze
  split
  · cases u <;> rfl
  · cases t <;> cases u <;> rfl
@[simp] theorem raiseFreeze_tw_svc (t : TwinId) (s : Block) (u : TwinId) :
    (tw (raiseFreeze t s) u).svc = (tw s u).svc := by
  unfold raiseFreeze
  split
  · cases u <;> rfl
  · cases t <;> cases u <;> rfl
@[simp] theorem raiseFreeze_tw_halted (t : TwinId) (s : Block) (u : TwinId) :
    (tw (raiseFreeze t s) u).halted = (tw s u).halted := by
  unfold raiseFreeze
  split
  · cases u <;> rfl
  · cases t <;> cases u <;> rfl
@[simp] theorem raiseFreeze_tw_faultQ (t : TwinId) (s : Block) (u : TwinId) :
    (tw (raiseFreeze t s) u).faultQ = (tw s u).faultQ := by
  unfold raiseFreeze
  split
  · cases u <;> rfl
  · cases t <;> cases u <;> rfl
@[simp] theorem raiseFreeze_tw_obs (t : TwinId) (s : Block) (u : TwinId) :
    (tw (raiseFreeze t s) u).obs = (tw s u).obs := by
  unfold raiseFreeze
  split
  · cases u <;> rfl
  · cases t <;> cases u <;> rfl
@[simp] theorem raiseFreeze_tw_ctxs (t : TwinId) (s : Block) (u : TwinId) :
    (tw (raiseFreeze t s) u).ctxs = (tw s u).ctxs := by
  unfold raiseFreeze
  split
  · cases u <;> rfl
  · cases t <;> cases u <;> rfl

/-- A context fault as its parts: the trace record, a freeze where FREEZE_ON asks for one, the fence in the twin that
raised it, and, in the context's state and the queue, the rest. -/
def faultBase (t : TwinId) (k code node : Nat) (s : Block) : Block :=
  let s1 := trace t 0x0A (some k) node (code % 256) 0 0 s
  raiseFence t k (if bitOf (reg s blkKey 0x250) 5 then raiseFreeze t s1 else s1)

theorem raiseFault_eq (t : TwinId) (k code node : Nat) (s : Block) : raiseFault t k code node s =
    if (ctxOf s k).st = .closed then s
    else if (ctxOf s k).st = .opened then
      let s5 := sendCtrl (partner t) (.fence k false) (upCtx k (fun c => { c with
        st := .fenced, tear := .fault, nodeBank := 0, edgeBank := 0,
        faultStat := faultWord t code node, faultTime := s.time }) (faultBase t k code node s))
      if (ctxOf s k).home = t then queueFault t k s5 else s5
    else
      let s4 := upCtx k (addMore t code node s.time) (faultBase t k code node s)
      if (ctxOf s k).st = .fenced ∧ (ctxOf s k).home = t then queueFault t k s4 else s4 := rfl

@[simp] theorem faultBase_engines (t : TwinId) (k code node : Nat) (s : Block) : (faultBase t k code node s).engines = s.engines := by
  simp only [faultBase, raiseFence]
  repeat' split
  all_goals simp
@[simp] theorem faultBase_flushes (t : TwinId) (k code node : Nat) (s : Block) : (faultBase t k code node s).flushes = s.flushes := by
  simp only [faultBase, raiseFence]
  repeat' split
  all_goals simp
@[simp] theorem faultBase_holds (t : TwinId) (k code node : Nat) (s : Block) : (faultBase t k code node s).holds = s.holds := by
  simp only [faultBase, raiseFence]
  repeat' split
  all_goals simp
@[simp] theorem faultBase_sendEps (t : TwinId) (k code node : Nat) (s : Block) : (faultBase t k code node s).sendEps = s.sendEps := by
  simp only [faultBase, raiseFence]
  repeat' split
  all_goals simp
@[simp] theorem faultBase_recvEps (t : TwinId) (k code node : Nat) (s : Block) : (faultBase t k code node s).recvEps = s.recvEps := by
  simp only [faultBase, raiseFence]
  repeat' split
  all_goals simp
@[simp] theorem faultBase_heldWrites (t : TwinId) (k code node : Nat) (s : Block) : (faultBase t k code node s).heldWrites = s.heldWrites := by
  simp only [faultBase, raiseFence]
  repeat' split
  all_goals simp
@[simp] theorem faultBase_fmt (t : TwinId) (k code node : Nat) (s : Block) : (faultBase t k code node s).fmt = s.fmt := by
  simp only [faultBase, raiseFence]
  repeat' split
  all_goals simp
@[simp] theorem faultBase_arb (t : TwinId) (k code node : Nat) (s : Block) : (faultBase t k code node s).arb = s.arb := by
  simp only [faultBase, raiseFence]
  repeat' split
  all_goals simp
@[simp] theorem faultBase_proof (t : TwinId) (k code node : Nat) (s : Block) : (faultBase t k code node s).proof = s.proof := by
  simp only [faultBase, raiseFence]
  repeat' split
  all_goals simp
@[simp] theorem faultBase_pair (t : TwinId) (k code node : Nat) (s : Block) : (faultBase t k code node s).pair = s.pair := by
  simp only [faultBase, raiseFence]
  repeat' split
  all_goals simp
@[simp] theorem faultBase_boot (t : TwinId) (k code node : Nat) (s : Block) : (faultBase t k code node s).boot = s.boot := by
  simp only [faultBase, raiseFence]
  repeat' split
  all_goals simp
@[simp] theorem faultBase_mgmt (t : TwinId) (k code node : Nat) (s : Block) : (faultBase t k code node s).mgmt = s.mgmt := by
  simp only [faultBase, raiseFence]
  repeat' split
  all_goals simp
@[simp] theorem faultBase_fuses (t : TwinId) (k code node : Nat) (s : Block) : (faultBase t k code node s).fuses = s.fuses := by
  simp only [faultBase, raiseFence]
  repeat' split
  all_goals simp
@[simp] theorem faultBase_fuseBanks (t : TwinId) (k code node : Nat) (s : Block) : (faultBase t k code node s).fuseBanks = s.fuseBanks := by
  simp only [faultBase, raiseFence]
  repeat' split
  all_goals simp
@[simp] theorem faultBase_heldSteps (t : TwinId) (k code node : Nat) (s : Block) : (faultBase t k code node s).heldSteps = s.heldSteps := by
  simp only [faultBase, raiseFence]
  repeat' split
  all_goals simp
@[simp] theorem faultBase_phase (t : TwinId) (k code node : Nat) (s : Block) : (faultBase t k code node s).phase = s.phase := by
  simp only [faultBase, raiseFence]
  repeat' split
  all_goals simp
@[simp] theorem faultBase_claimSeq (t : TwinId) (k code node : Nat) (s : Block) : (faultBase t k code node s).claimSeq = s.claimSeq := by
  simp only [faultBase, raiseFence]
  repeat' split
  all_goals simp
@[simp] theorem faultBase_serial (t : TwinId) (k code node : Nat) (s : Block) : (faultBase t k code node s).serial = s.serial := by
  simp only [faultBase, raiseFence]
  repeat' split
  all_goals simp
@[simp] theorem faultBase_ticks (t : TwinId) (k code node : Nat) (s : Block) : (faultBase t k code node s).ticks = s.ticks := by
  simp only [faultBase, raiseFence]
  repeat' split
  all_goals simp
@[simp] theorem faultBase_time (t : TwinId) (k code node : Nat) (s : Block) : (faultBase t k code node s).time = s.time := by
  simp only [faultBase, raiseFence]
  repeat' split
  all_goals simp
theorem faultBase_out (t : TwinId) (k code node : Nat) (s : Block) (h : bookOn s t = false) :
    (faultBase t k code node s).out = s.out := by
  simp only [faultBase, raiseFence, trace_off _ _ _ _ _ _ _ h]
  repeat' split
  all_goals simp
@[simp] theorem faultBase_ctxs (t : TwinId) (k code node : Nat) (s : Block) : (faultBase t k code node s).ctxs = s.ctxs := by
  simp only [faultBase, raiseFence]
  repeat' split
  all_goals simp
@[simp] theorem faultBase_work (t : TwinId) (k code node : Nat) (s : Block) : (faultBase t k code node s).work = s.work := by
  simp only [faultBase, raiseFence]
  repeat' split
  all_goals simp
@[simp] theorem faultBase_tw_cat (t : TwinId) (k code node : Nat) (s : Block) (u : TwinId) :
    (tw (faultBase t k code node s) u).cat = (tw s u).cat := by
  simp only [faultBase, raiseFence]
  repeat' split
  all_goals simp
@[simp] theorem faultBase_tw_acc (t : TwinId) (k code node : Nat) (s : Block) (u : TwinId) :
    (tw (faultBase t k code node s) u).acc = (tw s u).acc := by
  simp only [faultBase, raiseFence]
  repeat' split
  all_goals simp
@[simp] theorem faultBase_tw_rack (t : TwinId) (k code node : Nat) (s : Block) (u : TwinId) :
    (tw (faultBase t k code node s) u).rack = (tw s u).rack := by
  simp only [faultBase, raiseFence]
  repeat' split
  all_goals simp
@[simp] theorem faultBase_tw_desk (t : TwinId) (k code node : Nat) (s : Block) (u : TwinId) :
    (tw (faultBase t k code node s) u).desk = (tw s u).desk := by
  simp only [faultBase, raiseFence]
  repeat' split
  all_goals simp
@[simp] theorem faultBase_tw_shelf (t : TwinId) (k code node : Nat) (s : Block) (u : TwinId) :
    (tw (faultBase t k code node s) u).shelf = (tw s u).shelf := by
  simp only [faultBase, raiseFence]
  repeat' split
  all_goals simp
@[simp] theorem faultBase_tw_ret (t : TwinId) (k code node : Nat) (s : Block) (u : TwinId) :
    (tw (faultBase t k code node s) u).ret = (tw s u).ret := by
  simp only [faultBase, raiseFence]
  repeat' split
  all_goals simp
@[simp] theorem faultBase_tw_lard (t : TwinId) (k code node : Nat) (s : Block) (u : TwinId) :
    (tw (faultBase t k code node s) u).lard = (tw s u).lard := by
  simp only [faultBase, raiseFence]
  repeat' split
  all_goals simp
@[simp] theorem faultBase_tw_sort (t : TwinId) (k code node : Nat) (s : Block) (u : TwinId) :
    (tw (faultBase t k code node s) u).sort = (tw s u).sort := by
  simp only [faultBase, raiseFence]
  repeat' split
  all_goals simp
@[simp] theorem faultBase_tw_bank (t : TwinId) (k code node : Nat) (s : Block) (u : TwinId) :
    (tw (faultBase t k code node s) u).bank = (tw s u).bank := by
  simp only [faultBase, raiseFence]
  repeat' split
  all_goals simp
@[simp] theorem faultBase_tw_office (t : TwinId) (k code node : Nat) (s : Block) (u : TwinId) :
    (tw (faultBase t k code node s) u).office = (tw s u).office := by
  simp only [faultBase, raiseFence]
  repeat' split
  all_goals simp
@[simp] theorem faultBase_tw_bake (t : TwinId) (k code node : Nat) (s : Block) (u : TwinId) :
    (tw (faultBase t k code node s) u).bake = (tw s u).bake := by
  simp only [faultBase, raiseFence]
  repeat' split
  all_goals simp
@[simp] theorem faultBase_tw_thrd (t : TwinId) (k code node : Nat) (s : Block) (u : TwinId) :
    (tw (faultBase t k code node s) u).thrd = (tw s u).thrd := by
  simp only [faultBase, raiseFence]
  repeat' split
  all_goals simp
@[simp] theorem faultBase_tw_rel (t : TwinId) (k code node : Nat) (s : Block) (u : TwinId) :
    (tw (faultBase t k code node s) u).rel = (tw s u).rel := by
  simp only [faultBase, raiseFence]
  repeat' split
  all_goals simp
@[simp] theorem faultBase_tw_combined (t : TwinId) (k code node : Nat) (s : Block) (u : TwinId) :
    (tw (faultBase t k code node s) u).combined = (tw s u).combined := by
  simp only [faultBase, raiseFence]
  repeat' split
  all_goals simp
@[simp] theorem faultBase_tw_crossing (t : TwinId) (k code node : Nat) (s : Block) (u : TwinId) :
    (tw (faultBase t k code node s) u).crossing = (tw s u).crossing := by
  simp only [faultBase, raiseFence]
  repeat' split
  all_goals simp
@[simp] theorem faultBase_tw_edgeIn (t : TwinId) (k code node : Nat) (s : Block) (u : TwinId) :
    (tw (faultBase t k code node s) u).edgeIn = (tw s u).edgeIn := by
  simp only [faultBase, raiseFence]
  repeat' split
  all_goals simp
@[simp] theorem faultBase_tw_claimIn (t : TwinId) (k code node : Nat) (s : Block) (u : TwinId) :
    (tw (faultBase t k code node s) u).claimIn = (tw s u).claimIn := by
  simp only [faultBase, raiseFence]
  repeat' split
  all_goals simp
@[simp] theorem faultBase_tw_svc (t : TwinId) (k code node : Nat) (s : Block) (u : TwinId) :
    (tw (faultBase t k code node s) u).svc = (tw s u).svc := by
  simp only [faultBase, raiseFence]
  repeat' split
  all_goals simp
@[simp] theorem faultBase_tw_halted (t : TwinId) (k code node : Nat) (s : Block) (u : TwinId) :
    (tw (faultBase t k code node s) u).halted = (tw s u).halted := by
  simp only [faultBase, raiseFence]
  repeat' split
  all_goals simp
@[simp] theorem faultBase_tw_faultQ (t : TwinId) (k code node : Nat) (s : Block) (u : TwinId) :
    (tw (faultBase t k code node s) u).faultQ = (tw s u).faultQ := by
  simp only [faultBase, raiseFence]
  repeat' split
  all_goals simp
@[simp] theorem faultBase_plain (t : TwinId) (k code node : Nat) (s : Block) (j : Nat) (h : mapWf {} s.pages = true) :
    plainPage (mapGet {} (faultBase t k code node s).pages j) = plainPage (mapGet {} s.pages j) := by
  simp only [faultBase, raiseFence]
  repeat' split
  all_goals simp [h]
@[simp] theorem faultBase_pagesWf (t : TwinId) (k code node : Nat) (s : Block) (h : mapWf {} s.pages = true) : mapWf {} (faultBase t k code node s).pages = true := by
  simp only [faultBase, raiseFence]
  repeat' split
  all_goals simp [h]
@[simp] theorem queueFault_engines (t : TwinId) (k : Nat) (s : Block) : (queueFault t k s).engines = s.engines := by
  simp only [queueFault]
  repeat' split
  all_goals first | rfl | simp
@[simp] theorem queueFault_flushes (t : TwinId) (k : Nat) (s : Block) : (queueFault t k s).flushes = s.flushes := by
  simp only [queueFault]
  repeat' split
  all_goals first | rfl | simp
@[simp] theorem queueFault_holds (t : TwinId) (k : Nat) (s : Block) : (queueFault t k s).holds = s.holds := by
  simp only [queueFault]
  repeat' split
  all_goals first | rfl | simp
@[simp] theorem queueFault_sendEps (t : TwinId) (k : Nat) (s : Block) : (queueFault t k s).sendEps = s.sendEps := by
  simp only [queueFault]
  repeat' split
  all_goals first | rfl | simp
@[simp] theorem queueFault_recvEps (t : TwinId) (k : Nat) (s : Block) : (queueFault t k s).recvEps = s.recvEps := by
  simp only [queueFault]
  repeat' split
  all_goals first | rfl | simp
@[simp] theorem queueFault_heldWrites (t : TwinId) (k : Nat) (s : Block) : (queueFault t k s).heldWrites = s.heldWrites := by
  simp only [queueFault]
  repeat' split
  all_goals first | rfl | simp
@[simp] theorem queueFault_fmt (t : TwinId) (k : Nat) (s : Block) : (queueFault t k s).fmt = s.fmt := by
  simp only [queueFault]
  repeat' split
  all_goals first | rfl | simp
@[simp] theorem queueFault_arb (t : TwinId) (k : Nat) (s : Block) : (queueFault t k s).arb = s.arb := by
  simp only [queueFault]
  repeat' split
  all_goals first | rfl | simp
@[simp] theorem queueFault_proof (t : TwinId) (k : Nat) (s : Block) : (queueFault t k s).proof = s.proof := by
  simp only [queueFault]
  repeat' split
  all_goals first | rfl | simp
@[simp] theorem queueFault_pair (t : TwinId) (k : Nat) (s : Block) : (queueFault t k s).pair = s.pair := by
  simp only [queueFault]
  repeat' split
  all_goals first | rfl | simp
@[simp] theorem queueFault_boot (t : TwinId) (k : Nat) (s : Block) : (queueFault t k s).boot = s.boot := by
  simp only [queueFault]
  repeat' split
  all_goals first | rfl | simp
@[simp] theorem queueFault_mgmt (t : TwinId) (k : Nat) (s : Block) : (queueFault t k s).mgmt = s.mgmt := by
  simp only [queueFault]
  repeat' split
  all_goals first | rfl | simp
@[simp] theorem queueFault_fuses (t : TwinId) (k : Nat) (s : Block) : (queueFault t k s).fuses = s.fuses := by
  simp only [queueFault]
  repeat' split
  all_goals first | rfl | simp
@[simp] theorem queueFault_fuseBanks (t : TwinId) (k : Nat) (s : Block) : (queueFault t k s).fuseBanks = s.fuseBanks := by
  simp only [queueFault]
  repeat' split
  all_goals first | rfl | simp
@[simp] theorem queueFault_heldSteps (t : TwinId) (k : Nat) (s : Block) : (queueFault t k s).heldSteps = s.heldSteps := by
  simp only [queueFault]
  repeat' split
  all_goals first | rfl | simp
@[simp] theorem queueFault_phase (t : TwinId) (k : Nat) (s : Block) : (queueFault t k s).phase = s.phase := by
  simp only [queueFault]
  repeat' split
  all_goals first | rfl | simp
@[simp] theorem queueFault_claimSeq (t : TwinId) (k : Nat) (s : Block) : (queueFault t k s).claimSeq = s.claimSeq := by
  simp only [queueFault]
  repeat' split
  all_goals first | rfl | simp
@[simp] theorem queueFault_serial (t : TwinId) (k : Nat) (s : Block) : (queueFault t k s).serial = s.serial := by
  simp only [queueFault]
  repeat' split
  all_goals first | rfl | simp
@[simp] theorem queueFault_ticks (t : TwinId) (k : Nat) (s : Block) : (queueFault t k s).ticks = s.ticks := by
  simp only [queueFault]
  repeat' split
  all_goals first | rfl | simp
@[simp] theorem queueFault_time (t : TwinId) (k : Nat) (s : Block) : (queueFault t k s).time = s.time := by
  simp only [queueFault]
  repeat' split
  all_goals first | rfl | simp
@[simp] theorem queueFault_out (t : TwinId) (k : Nat) (s : Block) : (queueFault t k s).out = s.out := by
  simp only [queueFault]
  repeat' split
  all_goals first | rfl | simp
@[simp] theorem queueFault_ctxs (t : TwinId) (k : Nat) (s : Block) : (queueFault t k s).ctxs = s.ctxs := by
  simp only [queueFault]
  repeat' split
  all_goals first | rfl | simp
@[simp] theorem queueFault_freeze (t : TwinId) (k : Nat) (s : Block) : (queueFault t k s).freeze = s.freeze := by
  simp only [queueFault]
  repeat' split
  all_goals first | rfl | simp
@[simp] theorem queueFault_tw_cat (t : TwinId) (k : Nat) (s : Block) (u : TwinId) :
    (tw (queueFault t k s) u).cat = (tw s u).cat := by
  simp only [queueFault]
  repeat' split
  all_goals rcases twin_or t u with h | h <;> subst h <;> simp
@[simp] theorem queueFault_tw_acc (t : TwinId) (k : Nat) (s : Block) (u : TwinId) :
    (tw (queueFault t k s) u).acc = (tw s u).acc := by
  simp only [queueFault]
  repeat' split
  all_goals rcases twin_or t u with h | h <;> subst h <;> simp
@[simp] theorem queueFault_tw_rack (t : TwinId) (k : Nat) (s : Block) (u : TwinId) :
    (tw (queueFault t k s) u).rack = (tw s u).rack := by
  simp only [queueFault]
  repeat' split
  all_goals rcases twin_or t u with h | h <;> subst h <;> simp
@[simp] theorem queueFault_tw_desk (t : TwinId) (k : Nat) (s : Block) (u : TwinId) :
    (tw (queueFault t k s) u).desk = (tw s u).desk := by
  simp only [queueFault]
  repeat' split
  all_goals rcases twin_or t u with h | h <;> subst h <;> simp
@[simp] theorem queueFault_tw_shelf (t : TwinId) (k : Nat) (s : Block) (u : TwinId) :
    (tw (queueFault t k s) u).shelf = (tw s u).shelf := by
  simp only [queueFault]
  repeat' split
  all_goals rcases twin_or t u with h | h <;> subst h <;> simp
@[simp] theorem queueFault_tw_ret (t : TwinId) (k : Nat) (s : Block) (u : TwinId) :
    (tw (queueFault t k s) u).ret = (tw s u).ret := by
  simp only [queueFault]
  repeat' split
  all_goals rcases twin_or t u with h | h <;> subst h <;> simp
@[simp] theorem queueFault_tw_lard (t : TwinId) (k : Nat) (s : Block) (u : TwinId) :
    (tw (queueFault t k s) u).lard = (tw s u).lard := by
  simp only [queueFault]
  repeat' split
  all_goals rcases twin_or t u with h | h <;> subst h <;> simp
@[simp] theorem queueFault_tw_sort (t : TwinId) (k : Nat) (s : Block) (u : TwinId) :
    (tw (queueFault t k s) u).sort = (tw s u).sort := by
  simp only [queueFault]
  repeat' split
  all_goals rcases twin_or t u with h | h <;> subst h <;> simp
@[simp] theorem queueFault_tw_bank (t : TwinId) (k : Nat) (s : Block) (u : TwinId) :
    (tw (queueFault t k s) u).bank = (tw s u).bank := by
  simp only [queueFault]
  repeat' split
  all_goals rcases twin_or t u with h | h <;> subst h <;> simp
@[simp] theorem queueFault_tw_office (t : TwinId) (k : Nat) (s : Block) (u : TwinId) :
    (tw (queueFault t k s) u).office = (tw s u).office := by
  simp only [queueFault]
  repeat' split
  all_goals rcases twin_or t u with h | h <;> subst h <;> simp
@[simp] theorem queueFault_tw_bake (t : TwinId) (k : Nat) (s : Block) (u : TwinId) :
    (tw (queueFault t k s) u).bake = (tw s u).bake := by
  simp only [queueFault]
  repeat' split
  all_goals rcases twin_or t u with h | h <;> subst h <;> simp
@[simp] theorem queueFault_tw_thrd (t : TwinId) (k : Nat) (s : Block) (u : TwinId) :
    (tw (queueFault t k s) u).thrd = (tw s u).thrd := by
  simp only [queueFault]
  repeat' split
  all_goals rcases twin_or t u with h | h <;> subst h <;> simp
@[simp] theorem queueFault_tw_rel (t : TwinId) (k : Nat) (s : Block) (u : TwinId) :
    (tw (queueFault t k s) u).rel = (tw s u).rel := by
  simp only [queueFault]
  repeat' split
  all_goals rcases twin_or t u with h | h <;> subst h <;> simp
@[simp] theorem queueFault_tw_combined (t : TwinId) (k : Nat) (s : Block) (u : TwinId) :
    (tw (queueFault t k s) u).combined = (tw s u).combined := by
  simp only [queueFault]
  repeat' split
  all_goals rcases twin_or t u with h | h <;> subst h <;> simp
@[simp] theorem queueFault_tw_crossing (t : TwinId) (k : Nat) (s : Block) (u : TwinId) :
    (tw (queueFault t k s) u).crossing = (tw s u).crossing := by
  simp only [queueFault]
  repeat' split
  all_goals rcases twin_or t u with h | h <;> subst h <;> simp
@[simp] theorem queueFault_tw_edgeIn (t : TwinId) (k : Nat) (s : Block) (u : TwinId) :
    (tw (queueFault t k s) u).edgeIn = (tw s u).edgeIn := by
  simp only [queueFault]
  repeat' split
  all_goals rcases twin_or t u with h | h <;> subst h <;> simp
@[simp] theorem queueFault_tw_claimIn (t : TwinId) (k : Nat) (s : Block) (u : TwinId) :
    (tw (queueFault t k s) u).claimIn = (tw s u).claimIn := by
  simp only [queueFault]
  repeat' split
  all_goals rcases twin_or t u with h | h <;> subst h <;> simp
@[simp] theorem queueFault_tw_svc (t : TwinId) (k : Nat) (s : Block) (u : TwinId) :
    (tw (queueFault t k s) u).svc = (tw s u).svc := by
  simp only [queueFault]
  repeat' split
  all_goals rcases twin_or t u with h | h <;> subst h <;> simp
@[simp] theorem queueFault_tw_halted (t : TwinId) (k : Nat) (s : Block) (u : TwinId) :
    (tw (queueFault t k s) u).halted = (tw s u).halted := by
  simp only [queueFault]
  repeat' split
  all_goals rcases twin_or t u with h | h <;> subst h <;> simp
@[simp] theorem queueFault_tw_obs (t : TwinId) (k : Nat) (s : Block) (u : TwinId) :
    (tw (queueFault t k s) u).obs = (tw s u).obs := by
  simp only [queueFault]
  repeat' split
  all_goals rcases twin_or t u with h | h <;> subst h <;> simp
@[simp] theorem queueFault_tw_ctxs (t : TwinId) (k : Nat) (s : Block) (u : TwinId) :
    (tw (queueFault t k s) u).ctxs = (tw s u).ctxs := by
  simp only [queueFault]
  repeat' split
  all_goals rcases twin_or t u with h | h <;> subst h <;> simp
@[simp] theorem queueFault_tw_ctrlIn (t : TwinId) (k : Nat) (s : Block) (u : TwinId) :
    (tw (queueFault t k s) u).ctrlIn = (tw s u).ctrlIn := by
  simp only [queueFault]
  repeat' split
  all_goals rcases twin_or t u with h | h <;> subst h <;> simp
@[simp] theorem queueFault_plain (t : TwinId) (k : Nat) (s : Block) (j : Nat) (h : mapWf {} s.pages = true) :
    plainPage (mapGet {} (queueFault t k s).pages j) = plainPage (mapGet {} s.pages j) := by
  simp only [queueFault]
  repeat' split
  all_goals simp [h]
@[simp] theorem queueFault_pagesWf (t : TwinId) (k : Nat) (s : Block) (h : mapWf {} s.pages = true) : mapWf {} (queueFault t k s).pages = true := by
  simp only [queueFault]
  repeat' split
  all_goals simp [h]
@[simp] theorem raiseFault_engines (t : TwinId) (k code node : Nat) (s : Block) : (raiseFault t k code node s).engines = s.engines := by
  rw [raiseFault_eq]
  dsimp only
  repeat' split
  all_goals simp [sendCtrl]
@[simp] theorem raiseFault_flushes (t : TwinId) (k code node : Nat) (s : Block) : (raiseFault t k code node s).flushes = s.flushes := by
  rw [raiseFault_eq]
  dsimp only
  repeat' split
  all_goals simp [sendCtrl]
@[simp] theorem raiseFault_holds (t : TwinId) (k code node : Nat) (s : Block) : (raiseFault t k code node s).holds = s.holds := by
  rw [raiseFault_eq]
  dsimp only
  repeat' split
  all_goals simp [sendCtrl]
@[simp] theorem raiseFault_sendEps (t : TwinId) (k code node : Nat) (s : Block) : (raiseFault t k code node s).sendEps = s.sendEps := by
  rw [raiseFault_eq]
  dsimp only
  repeat' split
  all_goals simp [sendCtrl]
@[simp] theorem raiseFault_recvEps (t : TwinId) (k code node : Nat) (s : Block) : (raiseFault t k code node s).recvEps = s.recvEps := by
  rw [raiseFault_eq]
  dsimp only
  repeat' split
  all_goals simp [sendCtrl]
@[simp] theorem raiseFault_heldWrites (t : TwinId) (k code node : Nat) (s : Block) : (raiseFault t k code node s).heldWrites = s.heldWrites := by
  rw [raiseFault_eq]
  dsimp only
  repeat' split
  all_goals simp [sendCtrl]
@[simp] theorem raiseFault_fmt (t : TwinId) (k code node : Nat) (s : Block) : (raiseFault t k code node s).fmt = s.fmt := by
  rw [raiseFault_eq]
  dsimp only
  repeat' split
  all_goals simp [sendCtrl]
@[simp] theorem raiseFault_arb (t : TwinId) (k code node : Nat) (s : Block) : (raiseFault t k code node s).arb = s.arb := by
  rw [raiseFault_eq]
  dsimp only
  repeat' split
  all_goals simp [sendCtrl]
@[simp] theorem raiseFault_proof (t : TwinId) (k code node : Nat) (s : Block) : (raiseFault t k code node s).proof = s.proof := by
  rw [raiseFault_eq]
  dsimp only
  repeat' split
  all_goals simp [sendCtrl]
@[simp] theorem raiseFault_pair (t : TwinId) (k code node : Nat) (s : Block) : (raiseFault t k code node s).pair = s.pair := by
  rw [raiseFault_eq]
  dsimp only
  repeat' split
  all_goals simp [sendCtrl]
@[simp] theorem raiseFault_boot (t : TwinId) (k code node : Nat) (s : Block) : (raiseFault t k code node s).boot = s.boot := by
  rw [raiseFault_eq]
  dsimp only
  repeat' split
  all_goals simp [sendCtrl]
@[simp] theorem raiseFault_mgmt (t : TwinId) (k code node : Nat) (s : Block) : (raiseFault t k code node s).mgmt = s.mgmt := by
  rw [raiseFault_eq]
  dsimp only
  repeat' split
  all_goals simp [sendCtrl]
@[simp] theorem raiseFault_fuses (t : TwinId) (k code node : Nat) (s : Block) : (raiseFault t k code node s).fuses = s.fuses := by
  rw [raiseFault_eq]
  dsimp only
  repeat' split
  all_goals simp [sendCtrl]
@[simp] theorem raiseFault_fuseBanks (t : TwinId) (k code node : Nat) (s : Block) : (raiseFault t k code node s).fuseBanks = s.fuseBanks := by
  rw [raiseFault_eq]
  dsimp only
  repeat' split
  all_goals simp [sendCtrl]
@[simp] theorem raiseFault_heldSteps (t : TwinId) (k code node : Nat) (s : Block) : (raiseFault t k code node s).heldSteps = s.heldSteps := by
  rw [raiseFault_eq]
  dsimp only
  repeat' split
  all_goals simp [sendCtrl]
@[simp] theorem raiseFault_phase (t : TwinId) (k code node : Nat) (s : Block) : (raiseFault t k code node s).phase = s.phase := by
  rw [raiseFault_eq]
  dsimp only
  repeat' split
  all_goals simp [sendCtrl]
@[simp] theorem raiseFault_claimSeq (t : TwinId) (k code node : Nat) (s : Block) : (raiseFault t k code node s).claimSeq = s.claimSeq := by
  rw [raiseFault_eq]
  dsimp only
  repeat' split
  all_goals simp [sendCtrl]
@[simp] theorem raiseFault_serial (t : TwinId) (k code node : Nat) (s : Block) : (raiseFault t k code node s).serial = s.serial := by
  rw [raiseFault_eq]
  dsimp only
  repeat' split
  all_goals simp [sendCtrl]
@[simp] theorem raiseFault_ticks (t : TwinId) (k code node : Nat) (s : Block) : (raiseFault t k code node s).ticks = s.ticks := by
  rw [raiseFault_eq]
  dsimp only
  repeat' split
  all_goals simp [sendCtrl]
@[simp] theorem raiseFault_time (t : TwinId) (k code node : Nat) (s : Block) : (raiseFault t k code node s).time = s.time := by
  rw [raiseFault_eq]
  dsimp only
  repeat' split
  all_goals simp [sendCtrl]
/-- A fault drives nothing, but for a record of its FAULT where the twin's ring is enabled. -/
theorem raiseFault_out (t : TwinId) (k code node : Nat) (s : Block) (h : bookOn s t = false) :
    (raiseFault t k code node s).out = s.out := by
  rw [raiseFault_eq]
  dsimp only
  repeat' split
  all_goals simp [sendCtrl, faultBase_out _ _ _ _ _ h]
@[simp] theorem raiseFault_tw_cat (t : TwinId) (k code node : Nat) (s : Block) (u : TwinId) :
    (tw (raiseFault t k code node s) u).cat = (tw s u).cat := by
  rw [raiseFault_eq]
  dsimp only
  repeat' split
  all_goals rcases twin_or t u with h | h <;> subst h <;> simp [sendCtrl]
@[simp] theorem raiseFault_tw_acc (t : TwinId) (k code node : Nat) (s : Block) (u : TwinId) :
    (tw (raiseFault t k code node s) u).acc = (tw s u).acc := by
  rw [raiseFault_eq]
  dsimp only
  repeat' split
  all_goals rcases twin_or t u with h | h <;> subst h <;> simp [sendCtrl]
@[simp] theorem raiseFault_tw_rack (t : TwinId) (k code node : Nat) (s : Block) (u : TwinId) :
    (tw (raiseFault t k code node s) u).rack = (tw s u).rack := by
  rw [raiseFault_eq]
  dsimp only
  repeat' split
  all_goals rcases twin_or t u with h | h <;> subst h <;> simp [sendCtrl]
@[simp] theorem raiseFault_tw_desk (t : TwinId) (k code node : Nat) (s : Block) (u : TwinId) :
    (tw (raiseFault t k code node s) u).desk = (tw s u).desk := by
  rw [raiseFault_eq]
  dsimp only
  repeat' split
  all_goals rcases twin_or t u with h | h <;> subst h <;> simp [sendCtrl]
@[simp] theorem raiseFault_tw_shelf (t : TwinId) (k code node : Nat) (s : Block) (u : TwinId) :
    (tw (raiseFault t k code node s) u).shelf = (tw s u).shelf := by
  rw [raiseFault_eq]
  dsimp only
  repeat' split
  all_goals rcases twin_or t u with h | h <;> subst h <;> simp [sendCtrl]
@[simp] theorem raiseFault_tw_ret (t : TwinId) (k code node : Nat) (s : Block) (u : TwinId) :
    (tw (raiseFault t k code node s) u).ret = (tw s u).ret := by
  rw [raiseFault_eq]
  dsimp only
  repeat' split
  all_goals rcases twin_or t u with h | h <;> subst h <;> simp [sendCtrl]
@[simp] theorem raiseFault_tw_lard (t : TwinId) (k code node : Nat) (s : Block) (u : TwinId) :
    (tw (raiseFault t k code node s) u).lard = (tw s u).lard := by
  rw [raiseFault_eq]
  dsimp only
  repeat' split
  all_goals rcases twin_or t u with h | h <;> subst h <;> simp [sendCtrl]
@[simp] theorem raiseFault_tw_sort (t : TwinId) (k code node : Nat) (s : Block) (u : TwinId) :
    (tw (raiseFault t k code node s) u).sort = (tw s u).sort := by
  rw [raiseFault_eq]
  dsimp only
  repeat' split
  all_goals rcases twin_or t u with h | h <;> subst h <;> simp [sendCtrl]
@[simp] theorem raiseFault_tw_bank (t : TwinId) (k code node : Nat) (s : Block) (u : TwinId) :
    (tw (raiseFault t k code node s) u).bank = (tw s u).bank := by
  rw [raiseFault_eq]
  dsimp only
  repeat' split
  all_goals rcases twin_or t u with h | h <;> subst h <;> simp [sendCtrl]
@[simp] theorem raiseFault_tw_office (t : TwinId) (k code node : Nat) (s : Block) (u : TwinId) :
    (tw (raiseFault t k code node s) u).office = (tw s u).office := by
  rw [raiseFault_eq]
  dsimp only
  repeat' split
  all_goals rcases twin_or t u with h | h <;> subst h <;> simp [sendCtrl]
@[simp] theorem raiseFault_tw_bake (t : TwinId) (k code node : Nat) (s : Block) (u : TwinId) :
    (tw (raiseFault t k code node s) u).bake = (tw s u).bake := by
  rw [raiseFault_eq]
  dsimp only
  repeat' split
  all_goals rcases twin_or t u with h | h <;> subst h <;> simp [sendCtrl]
@[simp] theorem raiseFault_tw_thrd (t : TwinId) (k code node : Nat) (s : Block) (u : TwinId) :
    (tw (raiseFault t k code node s) u).thrd = (tw s u).thrd := by
  rw [raiseFault_eq]
  dsimp only
  repeat' split
  all_goals rcases twin_or t u with h | h <;> subst h <;> simp [sendCtrl]
@[simp] theorem raiseFault_tw_rel (t : TwinId) (k code node : Nat) (s : Block) (u : TwinId) :
    (tw (raiseFault t k code node s) u).rel = (tw s u).rel := by
  rw [raiseFault_eq]
  dsimp only
  repeat' split
  all_goals rcases twin_or t u with h | h <;> subst h <;> simp [sendCtrl]
@[simp] theorem raiseFault_tw_combined (t : TwinId) (k code node : Nat) (s : Block) (u : TwinId) :
    (tw (raiseFault t k code node s) u).combined = (tw s u).combined := by
  rw [raiseFault_eq]
  dsimp only
  repeat' split
  all_goals rcases twin_or t u with h | h <;> subst h <;> simp [sendCtrl]
@[simp] theorem raiseFault_tw_crossing (t : TwinId) (k code node : Nat) (s : Block) (u : TwinId) :
    (tw (raiseFault t k code node s) u).crossing = (tw s u).crossing := by
  rw [raiseFault_eq]
  dsimp only
  repeat' split
  all_goals rcases twin_or t u with h | h <;> subst h <;> simp [sendCtrl]
@[simp] theorem raiseFault_tw_edgeIn (t : TwinId) (k code node : Nat) (s : Block) (u : TwinId) :
    (tw (raiseFault t k code node s) u).edgeIn = (tw s u).edgeIn := by
  rw [raiseFault_eq]
  dsimp only
  repeat' split
  all_goals rcases twin_or t u with h | h <;> subst h <;> simp [sendCtrl]
@[simp] theorem raiseFault_tw_claimIn (t : TwinId) (k code node : Nat) (s : Block) (u : TwinId) :
    (tw (raiseFault t k code node s) u).claimIn = (tw s u).claimIn := by
  rw [raiseFault_eq]
  dsimp only
  repeat' split
  all_goals rcases twin_or t u with h | h <;> subst h <;> simp [sendCtrl]
@[simp] theorem raiseFault_tw_svc (t : TwinId) (k code node : Nat) (s : Block) (u : TwinId) :
    (tw (raiseFault t k code node s) u).svc = (tw s u).svc := by
  rw [raiseFault_eq]
  dsimp only
  repeat' split
  all_goals rcases twin_or t u with h | h <;> subst h <;> simp [sendCtrl]
@[simp] theorem raiseFault_tw_halted (t : TwinId) (k code node : Nat) (s : Block) (u : TwinId) :
    (tw (raiseFault t k code node s) u).halted = (tw s u).halted := by
  rw [raiseFault_eq]
  dsimp only
  repeat' split
  all_goals rcases twin_or t u with h | h <;> subst h <;> simp [sendCtrl]
@[simp] theorem raiseFault_plain (t : TwinId) (k code node : Nat) (s : Block) (j : Nat) (h : mapWf {} s.pages = true) :
    plainPage (mapGet {} (raiseFault t k code node s).pages j) = plainPage (mapGet {} s.pages j) := by
  rw [raiseFault_eq]
  dsimp only
  repeat' split
  all_goals simp [sendCtrl, h]
@[simp] theorem raiseFault_regs (t : TwinId) (k code node : Nat) (s : Block) (j : Nat) (h : mapWf {} s.pages = true) :
    (mapGet {} (raiseFault t k code node s).pages j).regs = (mapGet {} s.pages j).regs :=
  (of_plain (raiseFault_plain t k code node s j h)).1
@[simp] theorem raiseFault_pagesWf (t : TwinId) (k code node : Nat) (s : Block) (h : mapWf {} s.pages = true) :
    mapWf {} (raiseFault t k code node s).pages = true := by
  rw [raiseFault_eq]
  dsimp only
  repeat' split
  all_goals simp [sendCtrl, h]

@[simp] theorem faultBase_obs_partner (t : TwinId) (k code node : Nat) (s : Block) :
    (tw (faultBase t k code node s) (partner t)).obs = (tw s (partner t)).obs := by
  simp only [faultBase, raiseFence]
  repeat' split
  all_goals simp
@[simp] theorem faultBase_ctxs_partner (t : TwinId) (k code node : Nat) (s : Block) :
    (tw (faultBase t k code node s) (partner t)).ctxs = (tw s (partner t)).ctxs := by
  simp only [faultBase, raiseFence]
  repeat' split
  all_goals simp
@[simp] theorem queueFault_faultQ_partner (t : TwinId) (k : Nat) (s : Block) :
    (tw (queueFault t k s) (partner t)).faultQ = (tw s (partner t)).faultQ := by
  simp only [queueFault]
  repeat' split
  all_goals simp
@[simp] theorem raiseFault_obs_partner (t : TwinId) (k code node : Nat) (s : Block) :
    (tw (raiseFault t k code node s) (partner t)).obs = (tw s (partner t)).obs := by
  rw [raiseFault_eq]
  try dsimp only
  repeat' split
  all_goals simp [sendCtrl]
@[simp] theorem raiseFault_ctxs_partner (t : TwinId) (k code node : Nat) (s : Block) :
    (tw (raiseFault t k code node s) (partner t)).ctxs = (tw s (partner t)).ctxs := by
  rw [raiseFault_eq]
  try dsimp only
  repeat' split
  all_goals simp [sendCtrl]
@[simp] theorem raiseFault_faultQ_partner (t : TwinId) (k code node : Nat) (s : Block) :
    (tw (raiseFault t k code node s) (partner t)).faultQ = (tw s (partner t)).faultQ := by
  rw [raiseFault_eq]
  try dsimp only
  repeat' split
  all_goals simp [sendCtrl]

/-- The first fault of an open context closes it to its owner and is kept in FAULT_STAT. -/
theorem raiseFault_opened (t : TwinId) (k code node : Nat) (s : Block) (hw : mapWf {} s.ctxs = true) (h : (ctxOf s k).st = .opened) :
    ctxOf (raiseFault t k code node s) k = { ctxOf s k with
      st := .fenced, tear := .fault, nodeBank := 0, edgeBank := 0,
      faultStat := faultWord t code node, faultTime := s.time } := by
  rw [raiseFault_eq]
  simp only [h]
  try dsimp only
  repeat' split
  all_goals simp_all [sendCtrl, upCtx, ctxOf, mapGet_mapSet_same]

@[simp] theorem raiseFault_ctxs_same (t : TwinId) (k code node : Nat) (s : Block) (hw : mapWf {} s.ctxs = true)
    (h : (mapGet {} s.ctxs k).st = .opened) : mapGet {} (raiseFault t k code node s).ctxs k = { mapGet {} s.ctxs k with
      st := .fenced, tear := .fault, nodeBank := 0, edgeBank := 0,
      faultStat := faultWord t code node, faultTime := s.time } := raiseFault_opened t k code node s hw h

/-- A fault of a context leaves the other contexts alone. -/
@[simp] theorem raiseFault_ctxs_ne (t : TwinId) (k code node : Nat) (s : Block) (j : Nat) (h : j ≠ k) :
    mapGet {} (raiseFault t k code node s).ctxs j = mapGet {} s.ctxs j := by
  rw [raiseFault_eq]
  dsimp only
  repeat' split
  all_goals simp [sendCtrl, upCtx, h]

end Sys2Proof.Machine
end

