-- ==== Sys2Proof/Laws/Removal.lean ====
section
/-! SUPPORT. What taking an engine out of service, and moving the nodes and shards this concerns, leaves alone
(R142, R143). -/

namespace Sys2Proof.Machine

open Sys2Proof.Safety

/-- What a placement or a removal leaves alone of a twin. -/
def twinAside (w : Twin) :=
  (w.acc, w.lard, w.sort, w.bank, w.office, w.bake, w.thrd, w.rel, w.faultQ, w.combined, w.crossing, w.ctrlIn, w.svc,
    w.halted, w.ctxs, w.ret)

/-- What the removal of an engine leaves alone of the block. -/
def aside (s : Block) :=
  ((twinAside s.tw0, twinAside s.tw1, s.ctxs, s.flushes, s.holds, s.sendEps, s.recvEps, s.heldWrites, s.fmt),
    (s.freeze, s.arb, s.proof, s.pair, s.boot, s.mgmt, s.fuses, s.fuseBanks, s.heldSteps, s.phase, s.claimSeq,
      s.serial, s.ticks, s.time))

theorem aside_upTw (t : TwinId) (f : Twin → Twin) (s : Block) (h : ∀ w, twinAside (f w) = twinAside w) :
    aside (upTw t f s) = aside s := by cases t <;> simp [aside, upTw, h]

theorem aside_tw {a b : Block} (h : aside b = aside a) (u : TwinId) : twinAside (tw b u) = twinAside (tw a u) := by
  simp only [aside, Prod.mk.injEq] at h
  cases u
  · exact h.1.1
  · exact h.1.2.1

@[simp] theorem aside_pages (s : Block) (p : SMap Page) : aside { s with pages := p } = aside s := rfl
@[simp] theorem aside_work (s : Block) (p : List Work) : aside { s with work := p } = aside s := rfl
@[simp] theorem aside_out (s : Block) (p : List Output) : aside { s with out := p } = aside s := rfl
@[simp] theorem aside_engs (s : Block) (p : SMap Engine) : aside { s with engines := p } = aside s := rfl

@[simp] theorem aside_pushWork (ws : List Work) (s : Block) : aside (pushWork ws s) = aside s := rfl
@[simp] theorem aside_emit (o : Output) (s : Block) : aside (emit o s) = aside s := rfl
@[simp] theorem aside_bump (k o n : Nat) (s : Block) : aside (bump k o n s) = aside s := rfl
@[simp] theorem aside_setErr (k o : Nat) (s : Block) : aside (setErr k o s) = aside s := rfl
@[simp] theorem aside_upEng (e : Nat) (f : Engine → Engine) (s : Block) : aside (upEng e f s) = aside s := rfl

/-- A property that every application keeps is kept by all of them. -/
theorem forEach_keeps {α β : Type} (p : Block → β) (xs : List α) (f : α → Block → Block) (s : Block)
    (h : ∀ x s, p (f x s) = p s) : p (forEach xs f s) = p s := by
  unfold forEach
  induction xs generalizing s with
  | nil => rfl
  | cons x xs ih => simp only [List.foldl_cons]; rw [ih, h]

@[simp] theorem aside_sendItem (a b : TwinId) (i : EdgeItem) (s : Block) : aside (sendItem a b i s) = aside s := by
  unfold sendItem
  simp only []
  repeat' split
  · rfl
  · exact (aside_bump _ _ _ _).trans (aside_upTw _ _ _ fun _ => rfl)
  · exact aside_upTw _ _ _ fun _ => rfl
  · rfl
@[simp] theorem aside_sendClaim (b : TwinId) (i : ClaimItem) (s : Block) : aside (sendClaim b i s) = aside s := by
  unfold sendClaim
  split
  · exact aside_upTw _ _ _ fun _ => rfl
  · rfl
@[simp] theorem aside_setNode (i : Nat) (n : Node) (s : Block) : aside (setNode i n s) = aside s :=
  aside_upTw _ _ _ fun _ => rfl
@[simp] theorem aside_upNode (i : Nat) (f : Node → Node) (s : Block) : aside (upNode i f s) = aside s :=
  aside_upTw _ _ _ fun _ => rfl
@[simp] theorem aside_upShard (i : Nat) (f : Shard → Shard) (s : Block) : aside (upShard i f s) = aside s :=
  aside_upTw _ _ _ fun _ => rfl
@[simp] theorem aside_setLoc (t : TwinId) (i w : Nat) (s : Block) : aside (setLoc t i w s) = aside s :=
  aside_upTw _ _ _ fun _ => rfl
@[simp] theorem aside_upWait (t : TwinId) (i : Nat) (f : WaitEnt → WaitEnt) (s : Block) :
    aside (upWait t i f s) = aside s := aside_upTw _ _ _ fun _ => rfl
@[simp] theorem aside_setRec (t : TwinId) (i : Nat) (r : CircRec) (s : Block) : aside (setRec t i r s) = aside s :=
  aside_upTw _ _ _ fun _ => rfl
@[simp] theorem aside_optEvent (t : TwinId) (code k : Nat) (c : Bool) (g : Option Nat) (n : Nat) (s : Block) :
    aside (optEvent t code k c g n s) = aside s := aside_upTw _ _ _ fun _ => rfl
@[simp] theorem aside_upObs (t : TwinId) (f : Obs → Obs) (s : Block) : aside (upObs t f s) = aside s :=
  aside_upTw _ _ _ fun _ => rfl
@[simp] theorem aside_stageRec (t : TwinId) (r : TraceRec) (s : Block) : aside (stageRec t r s) = aside s := by
  unfold stageRec driveRing
  (try simp only [])
  (repeat' split) <;> simp
@[simp] theorem aside_trace (t : TwinId) (ty : Nat) (k : Option Nat) (node aux w2 hi3 : Nat) (s : Block) :
    aside (trace t ty k node aux w2 hi3 s) = aside s := by
  unfold trace traceAt
  simp only []
  exact of_ite (P := fun b => aside b = aside s) _ (aside_stageRec _ _ _) rfl
@[simp] theorem aside_publish (x : Nat) (a : Bool) (s : Block) : aside (publish x a s) = aside s := by
  unfold publish
  dsimp only
  split <;> simp
@[simp] theorem aside_writersDec (id : Nat) (s : Block) : aside (writersDec id s) = aside s := by
  unfold writersDec
  dsimp only
  split <;> simp
@[simp] theorem aside_closeRec (t : TwinId) (i : Nat) (s : Block) : aside (closeRec t i s) = aside s := by
  unfold closeRec
  try dsimp only
  repeat' split
  all_goals simp
@[simp] theorem aside_setOwner (t : TwinId) (x v : Nat) (s : Block) : aside (setOwner t x v s) = aside s :=
  aside_upTw _ _ _ fun _ => rfl
@[simp] theorem aside_countReady (t : TwinId) (k : Nat) (s : Block) : aside (countReady t k s) = aside s := by
  simp [countReady]
@[simp] theorem aside_sendReturn (t : TwinId) (n g : Nat) (f : Bool) (s : Block) :
    aside (sendReturn t n g f s) = aside s := by
  simp [sendReturn]
@[simp] theorem aside_startMove (m : MoveWant) (i x : Nat) (s : Block) : aside (startMove m i x s) = aside s := by
  unfold startMove moveTrace
  simp only [aside_trace, aside_bump]
  split
  all_goals try rw [aside_optEvent]
  all_goals try split
  all_goals try rw [aside_bump]
  all_goals
    rw [aside_emit, aside_publish]
    refine (aside_upTw _ _ _ ?_).trans ?_
    · intro w; rfl
    · simp
@[simp] theorem aside_decideMove (m : MoveWant) (s : Block) : aside (decideMove m s) = aside s := by
  unfold decideMove
  dsimp only
  repeat' split
  all_goals first | exact aside_startMove _ _ _ _ | exact aside_upTw _ _ _ fun _ => rfl
@[simp] theorem aside_returnNode (n g : Nat) (f : Bool) (s : Block) :
    aside (returnNode n g f s) = aside s := by
  unfold returnNode
  dsimp only
  repeat' split
  all_goals simp [readyTrace]
@[simp] theorem aside_sweepLanes (t : TwinId) (p m : Nat → Bool) (s : Block) : aside (sweepLanes t p m s) = aside s := by
  unfold sweepLanes
  dsimp only
  rw [aside_pushWork, forEach_keeps aside _ _ _ fun x s => aside_writersDec _ s]
  exact aside_upTw _ _ _ fun _ => rfl
@[simp] theorem aside_evacuate (t : TwinId) (v : Bool) (p : Shard → Bool) (s : Block) :
    aside (evacuate t v p s) = aside s := by
  unfold evacuate
  exact forEach_keeps aside _ _ _ fun x s => aside_decideMove _ s
@[simp] theorem aside_sendBack (t : TwinId) (p : Copy → Bool) (s : Block) : aside (sendBack t false p s) = aside s := by
  unfold sendBack
  dsimp only
  rw [forEach_keeps aside _ _ _ fun x s => aside_sendClaim _ _ s]
  exact aside_upTw _ _ _ fun _ => rfl
@[simp] theorem aside_sweepGroup (t : TwinId) (g : Nat) (s : Block) : aside (sweepGroup t g s) = aside s := by
  unfold sweepGroup
  dsimp only
  split <;> simp
@[simp] theorem aside_removeEngine (e : Nat) (s : Block) : aside (removeEngine e s) = aside s := by
  have h : ∀ (xs : List Task) (t : TwinId) (s : Block), aside (forEach xs (fun k s =>
      if homeOf k.node = t then returnNode k.node k.gen false s
      else sendReturn t k.node k.gen false s) s) = aside s := by
    intro xs t s
    exact forEach_keeps aside _ _ _ fun k s => by split <;> simp
  unfold removeEngine
  dsimp only
  split
  · rfl
  · split <;> simp [h]

/-! ### The engines -/

@[simp] theorem engs_setNode (i : Nat) (n : Node) (s : Block) : (setNode i n s).engines = s.engines := by simp [setNode]
@[simp] theorem engs_upNode (i : Nat) (f : Node → Node) (s : Block) : (upNode i f s).engines = s.engines := by
  simp [upNode]
@[simp] theorem engs_setRec (t : TwinId) (i : Nat) (r : CircRec) (s : Block) :
    (setRec t i r s).engines = s.engines := by simp [setRec]

@[simp] theorem engs_writersDec (id : Nat) (s : Block) : (writersDec id s).engines = s.engines := by
  unfold writersDec
  dsimp only
  split <;> simp
@[simp] theorem engs_closeRec (t : TwinId) (i : Nat) (s : Block) : (closeRec t i s).engines = s.engines := by
  unfold closeRec
  try dsimp only
  repeat' split
  all_goals first | rfl | simp
@[simp] theorem engs_publish (x : Nat) (a : Bool) (s : Block) : (publish x a s).engines = s.engines := by
  unfold publish
  dsimp only
  split <;> simp [setLoc]
@[simp] theorem engs_setOwner (t : TwinId) (x v : Nat) (s : Block) : (setOwner t x v s).engines = s.engines := by
  simp [setOwner]
@[simp] theorem engs_countReady (t : TwinId) (k : Nat) (s : Block) : (countReady t k s).engines = s.engines := by
  simp [countReady]
@[simp] theorem engs_sendReturn (t : TwinId) (n g : Nat) (f : Bool) (s : Block) :
    (sendReturn t n g f s).engines = s.engines := by
  simp [sendReturn]
@[simp] theorem engs_startMove (m : MoveWant) (i x : Nat) (s : Block) :
    (startMove m i x s).engines = s.engines := by
  unfold startMove moveTrace
  simp only [trace_engines, optEvent_engines, bump_engines]
  split <;> simp [upShard, upWait]
@[simp] theorem engs_decideMove (m : MoveWant) (s : Block) : (decideMove m s).engines = s.engines := by
  unfold decideMove
  dsimp only
  repeat' split
  all_goals simp
@[simp] theorem engs_returnNode (n g : Nat) (f : Bool) (s : Block) :
    (returnNode n g f s).engines = s.engines := by
  unfold returnNode
  dsimp only
  repeat' split
  all_goals simp [readyTrace]
@[simp] theorem engs_sweepLanes (t : TwinId) (p m : Nat → Bool) (s : Block) :
    (sweepLanes t p m s).engines = s.engines := by
  unfold sweepLanes
  dsimp only
  rw [pushWork_engines, forEach_keeps Block.engines _ _ _ fun x s => engs_writersDec _ s]
  simp
@[simp] theorem engs_evacuate (t : TwinId) (v : Bool) (p : Shard → Bool) (s : Block) :
    (evacuate t v p s).engines = s.engines := by
  unfold evacuate
  exact forEach_keeps Block.engines _ _ _ fun x s => engs_decideMove _ s
@[simp] theorem engs_sendBack (t : TwinId) (h : Bool) (p : Copy → Bool) (s : Block) :
    (sendBack t h p s).engines = s.engines := by
  unfold sendBack
  dsimp only
  rw [forEach_keeps Block.engines _ _ _ fun x s => sendClaim_engines _ _ s]
  simp
@[simp] theorem engs_sweepGroup (t : TwinId) (g : Nat) (s : Block) : (sweepGroup t g s).engines = s.engines := by
  unfold sweepGroup
  dsimp only
  split <;> simp

/-- An engine that is removed is out of service. -/
theorem removeEngine_same (e : Nat) (s : Block) (hw : mapWf {} s.engines = true) :
    (engOf (removeEngine e s) e).inService = false := by
  have h : ∀ (xs : List Task) (t : TwinId) (s : Block), (forEach xs (fun k s =>
      if homeOf k.node = t then returnNode k.node k.gen false s
      else sendReturn t k.node k.gen false s) s).engines = s.engines := by
    intro xs t s
    exact forEach_keeps Block.engines _ _ _ fun k s => by split <;> simp
  unfold removeEngine
  dsimp only
  split
  · simp_all
  · split <;> simp [engOf, h, upEng, mapGet_mapSet_same, hw]

/-- An engine out of service stays so while others are removed. -/
theorem removeEngine_out (e x : Nat) (s : Block) (hw : mapWf {} s.engines = true)
    (hx : (engOf s x).inService = false) : (engOf (removeEngine e s) x).inService = false := by
  by_cases hxe : x = e
  · subst hxe; exact removeEngine_same x s hw
  have h : ∀ (xs : List Task) (t : TwinId) (s : Block), (forEach xs (fun k s =>
      if homeOf k.node = t then returnNode k.node k.gen false s
      else sendReturn t k.node k.gen false s) s).engines = s.engines := by
    intro xs t s
    exact forEach_keeps Block.engines _ _ _ fun k s => by split <;> simp
  simp only [engOf] at hx
  unfold removeEngine
  dsimp only
  split
  · simpa [engOf] using hx
  · split <;> simp [engOf, h, upEng, hxe, hx]

theorem removeEngine_wf (e : Nat) (s : Block) (hw : mapWf {} s.engines = true) :
    mapWf {} (removeEngine e s).engines = true := by
  have h : ∀ (xs : List Task) (t : TwinId) (s : Block), (forEach xs (fun k s =>
      if homeOf k.node = t then returnNode k.node k.gen false s
      else sendReturn t k.node k.gen false s) s).engines = s.engines := by
    intro xs t s
    exact forEach_keeps Block.engines _ _ _ fun k s => by split <;> simp
  unfold removeEngine
  dsimp only
  split
  · exact hw
  · split <;> simp [h, upEng, hw]

/-- After the removal of a list of engines every one of them is out of service. -/
theorem removeEngines_out (xs : List Nat) (s : Block) (hw : mapWf {} s.engines = true) :
    ∀ x, x ∈ xs ∨ (engOf s x).inService = false → (engOf (forEach xs removeEngine s) x).inService = false := by
  unfold forEach
  induction xs generalizing s with
  | nil => simp
  | cons e xs ih =>
    intro x hx
    simp only [List.foldl_cons]
    refine ih _ (removeEngine_wf e s hw) x ?_
    simp only [List.mem_cons] at hx
    rcases hx with (rfl | h) | h
    · exact .inr (removeEngine_same x s hw)
    · exact .inl h
    · exact .inr (removeEngine_out e x s hw h)

@[simp] theorem aside_removeEngines (xs : List Nat) (s : Block) : aside (forEach xs removeEngine s) = aside s :=
  forEach_keeps aside _ _ _ aside_removeEngine

end Sys2Proof.Machine
end

