-- ==== Sys2Proof/Laws/Banked.lean ====
section
/-! SUPPORT. What a tally tick does besides the Tally Banks leaves the banks alone. One lemma per operation. -/

namespace Sys2Proof.Machine

set_option maxRecDepth 8000

/-- The Tally Banks of both twins. -/
def banked (s : Block) : Bank × Bank := (s.tw0.bank, s.tw1.bank)

@[simp] theorem banked_mk (a b c d e f g h i j k l m n o p q r u v w x y z aa bb cc) :
    banked ⟨a, b, c, d, e, f, g, h, i, j, k, l, m, n, o, p, q, r, u, v, w, x, y, z, aa, bb, cc⟩ = (a.bank, b.bank) := rfl

@[simp] theorem banked_fold (s : Block) : (s.tw0.bank, s.tw1.bank) = banked s := rfl

@[simp] theorem banked_upTw (t : TwinId) (f : Twin → Twin) (s : Block) (h : ∀ w, (f w).bank = w.bank) :
    banked (upTw t f s) = banked s := by cases t <;> simp only [banked, upTw, h]

@[simp] theorem banked_outs (l : List Output) (s : Block) : banked (outs l s) = banked s := rfl

@[simp] theorem forEach_banked {α : Type} (xs : List α) (f : α → Block → Block) (s : Block)
    (h : ∀ x s, banked (f x s) = banked s) : banked (forEach xs f s) = banked s := by
  unfold forEach
  induction xs generalizing s with
  | nil => rfl
  | cons x xs ih => simp only [List.foldl_cons]; rw [ih, h]

@[simp] theorem foldl_banked {α : Type} (xs : List α) (f : Block → α → Block) (s : Block)
    (h : ∀ s x, banked (f s x) = banked s) : banked (xs.foldl f s) = banked s := by
  induction xs generalizing s with
  | nil => rfl
  | cons x xs ih => simp only [List.foldl_cons]; rw [ih, h]

@[simp] theorem foldl_snd_banked {α β : Type} (xs : List α) (f : β × Block → α → β × Block) (r : β × Block)
    (h : ∀ r x, banked (f r x).2 = banked r.2) : banked (xs.foldl f r).2 = banked r.2 := by
  induction xs generalizing r with
  | nil => rfl
  | cons x xs ih => simp only [List.foldl_cons]; rw [ih, h]

theorem takeEdge_banked {t : TwinId} {p : EdgeItem → Bool} {s : Block} {r : EdgeItem × Block} (h : takeEdge t p s = some r) :
    banked r.2 = banked s := by
  unfold takeEdge at h; (repeat' split at h) <;> cases h <;> simp

@[simp] theorem banked_upCtx (k : Nat) (f : Ctx → Ctx) (s : Block) : banked (upCtx k f s) = banked s := by
  unfold upCtx; (repeat' split) <;> first | rfl | (simp; done) | (simp <;> rfl; done)

@[simp] theorem banked_upCtxTw (t : TwinId) (k : Nat) (f : CtxTw → CtxTw) (s : Block) :
    banked (upCtxTw t k f s) = banked s := by
  simp [upCtxTw]

@[simp] theorem banked_setNode (id : Nat) (n : Node) (s : Block) : banked (setNode id n s) = banked s := by
  simp [setNode]

@[simp] theorem banked_setOwner (t : TwinId) (x v : Nat) (s : Block) :
    banked (setOwner t x v s) = banked s := by
  unfold setOwner; (try simp only [])
  first
    | (simp [apply_ite banked]; done)
    | ((repeat' split) <;> first | rfl | (simp [apply_ite banked]; done) | (simp <;> rfl; done) | (simp_all; done))

@[simp] theorem banked_upNode (id : Nat) (f : Node → Node) (s : Block) : banked (upNode id f s) = banked s := by
  simp [upNode]

@[simp] theorem banked_upEng (e : Nat) (f : Engine → Engine) (s : Block) : banked (upEng e f s) = banked s := by
  unfold upEng; (repeat' split) <;> first | rfl | (simp; done) | (simp <;> rfl; done)

@[simp] theorem banked_upFlush (c : Nat) (f : Flush → Flush) (s : Block) : banked (upFlush c f s) = banked s := by
  unfold upFlush; (repeat' split) <;> first | rfl | (simp; done) | (simp <;> rfl; done)

@[simp] theorem banked_setRec (t : TwinId) (i : Nat) (r : CircRec) (s : Block) : banked (setRec t i r s) = banked s := by
  simp [setRec]

@[simp] theorem banked_pushWork (ws : List Work) (s : Block) : banked (pushWork ws s) = banked s := by
  unfold pushWork; (repeat' split) <;> first | rfl | (simp; done) | (simp <;> rfl; done)

@[simp] theorem banked_emit (o : Output) (s : Block) : banked (emit o s) = banked s := by
  unfold emit; (repeat' split) <;> first | rfl | (simp; done) | (simp <;> rfl; done)

@[simp] theorem banked_upPage (key : Nat) (f : Page → Page) (s : Block) : banked (upPage key f s) = banked s := by
  unfold upPage; (repeat' split) <;> first | rfl | (simp; done) | (simp <;> rfl; done)

@[simp] theorem banked_setErr (key : Nat) (bit : Nat) (s : Block) : banked (setErr key bit s) = banked s := by
  simp [setErr]

@[simp] theorem banked_bump (key : Nat) (off : Nat) (n : Nat) (s : Block) : banked (bump key off n s) = banked s := by
  simp [bump]

@[simp] theorem banked_bumpCtx (k : Nat) (off : Nat) (n : Nat) (s : Block) : banked (bumpCtx k off n s) = banked s := by
  simp [bumpCtx]

@[simp] theorem banked_optEvent (t : TwinId) (code : Nat) (k : Nat) (useCtx : Bool) (group : Option Nat) (n : Nat) (s : Block) :
    banked (optEvent t code k useCtx group n s) = banked s := by
  simp [optEvent]

@[simp] theorem banked_upObs (t : TwinId) (f : Obs → Obs) (s : Block) :
    banked (upObs t f s) = banked s := by
  unfold upObs; (try simp only [])
  first
    | (simp [apply_ite banked]; done)
    | ((repeat' split) <;> first | rfl | (simp [apply_ite banked]; done) | (simp <;> rfl; done) | (simp_all; done))

@[simp] theorem banked_driveRing (t : TwinId) (s : Block) :
    banked (driveRing t s) = banked s := by
  unfold driveRing; (try simp only [])
  first
    | (simp [apply_ite banked]; done)
    | ((repeat' split) <;> first | rfl | (simp [apply_ite banked]; done) | (simp <;> rfl; done) | (simp_all; done))

@[simp] theorem banked_stageRec (t : TwinId) (r : TraceRec) (s : Block) :
    banked (stageRec t r s) = banked s := by
  unfold stageRec; (try simp only [])
  first
    | (simp [apply_ite banked]; done)
    | ((repeat' split) <;> first | rfl | (simp [apply_ite banked]; done) | (simp <;> rfl; done) | (simp_all; done))

@[simp] theorem banked_traceAt (time : Nat) (t : TwinId) (ty : Nat) (k : Option Nat) (node aux w2 hi3 : Nat) (s : Block) :
    banked (traceAt time t ty k node aux w2 hi3 s) = banked s := by
  unfold traceAt; (try simp only [])
  first
    | (simp [apply_ite banked]; done)
    | ((repeat' split) <;> first | rfl | (simp [apply_ite banked]; done) | (simp <;> rfl; done) | (simp_all; done))

@[simp] theorem banked_trace (t : TwinId) (ty : Nat) (k : Option Nat) (node aux w2 hi3 : Nat) (s : Block) :
    banked (trace t ty k node aux w2 hi3 s) = banked s := by
  unfold trace; (try simp only [])
  first
    | (simp [apply_ite banked]; done)
    | ((repeat' split) <;> first | rfl | (simp [apply_ite banked]; done) | (simp <;> rfl; done) | (simp_all; done))

@[simp] theorem banked_sendItem (frm dst : TwinId) (i : EdgeItem) (s : Block) :
    banked (sendItem frm dst i s) = banked s := by
  unfold sendItem; (try simp only [])
  first
    | (simp [apply_ite banked]; done)
    | ((repeat' split) <;> first | rfl | (simp [apply_ite banked]; done) | (simp <;> rfl; done) | (simp_all; done))

@[simp] theorem banked_sendClaim (dst : TwinId) (i : ClaimItem) (s : Block) : banked (sendClaim dst i s) = banked s := by
  unfold sendClaim; (repeat' split) <;> simp

@[simp] theorem banked_sendCtrl (dst : TwinId) (i : ControlItem) (s : Block) : banked (sendCtrl dst i s) = banked s := by
  simp [sendCtrl]

@[simp] theorem banked_raiseFreeze (t : TwinId) (s : Block) : banked (raiseFreeze t s) = banked s := by
  unfold raiseFreeze; (repeat' split) <;> first | rfl | (simp; done) | (simp <;> rfl; done)

@[simp] theorem banked_raiseFence (t : TwinId) (k : Nat) (s : Block) : banked (raiseFence t k s) = banked s := by
  unfold raiseFence; (repeat' split) <;> simp

@[simp] theorem banked_queueFault (t : TwinId) (k : Nat) (s : Block) :
    banked (queueFault t k s) = banked s := by
  unfold queueFault; (try simp only [])
  first
    | (simp [apply_ite banked]; done)
    | ((repeat' split) <;> first | rfl | (simp [apply_ite banked]; done) | (simp <;> rfl; done) | (simp_all; done))

@[simp] theorem banked_raiseFault (t : TwinId) (k : Nat) (code : Nat) (node : Nat) (s : Block) :
    banked (raiseFault t k code node s) = banked s := by
  unfold raiseFault; simp only []; (repeat' split) <;> simp_all

@[simp] theorem banked_narrowFree (id : Nat) (s : Block) : banked (narrowFree id s) = banked s := by
  simp [narrowFree]

@[simp] theorem banked_upLane (t : TwinId) (key : Nat) (f : Lane → Lane) (s : Block) :
    banked (upLane t key f s) = banked s := by
  simp [upLane]

@[simp] theorem banked_highWater (t : TwinId) (s : Block) : banked (highWater t s) = banked s := by
  simp [highWater]

@[simp] theorem banked_openRec (t : TwinId) (r : CircRec) (s : Block) : banked (openRec t r s) = banked s := by
  unfold openRec; (repeat' split) <;> simp

@[simp] theorem banked_writersInc (id : Nat) (s : Block) : banked (writersInc id s) = banked s := by
  unfold writersInc; simp only []; (repeat' split) <;> simp_all

@[simp] theorem banked_heldTrace (t : TwinId) (k : Nat) (node : Nat) (g : Nat) (why : Why) (s : Block) :
    banked (heldTrace t k node g why s) = banked s := by
  simp [heldTrace]

@[simp] theorem banked_holdNode (t : TwinId) (g : Nat) (x : Nat) (why : Why) (s : Block) :
    banked (holdNode t g x why s) = banked s := by
  simp [holdNode]

@[simp] theorem banked_holdCopy (t : TwinId) (c : Copy) (s : Block) : banked (holdCopy t c s) = banked s := by
  simp [holdCopy]

@[simp] theorem banked_dropHead (t : TwinId) (key : Nat) (s : Block) : banked (dropHead t key s) = banked s := by
  unfold dropHead; simp only []; (repeat' split) <;> simp_all

@[simp] theorem banked_clearHeads (t : TwinId) (key f : Nat) (s : Block) : banked (clearHeads t key f s) = banked s := by
  induction f generalizing s with
  | zero => rfl
  | succ f ih =>
    unfold clearHeads
    (repeat' split) <;> simp [*]

@[simp] theorem banked_pickLanes (t : TwinId) (ks : List Nat) (s : Block) : banked (pickLanes t ks s).2 = banked s := by
  induction ks generalizing s with
  | nil => rfl
  | cons k ks ih =>
    unfold pickLanes
    try simp only []
    split <;> simp [*]

@[simp] theorem banked_pick (t : TwinId) (g : Nat) (d : Int) (s : Block) : banked (pick t g d s).2 = banked s := by
  unfold pick; (repeat' split) <;> simp

@[simp] theorem banked_rrAdvance (t : TwinId) (key : Nat) (s : Block) : banked (rrAdvance t key s) = banked s := by
  unfold rrAdvance; simp only []; (repeat' split) <;> simp_all

@[simp] theorem banked_mixApply (t : TwinId) (g : Nat) (dd : Int) (s : Block) :
    banked (mixApply t g dd s) = banked s := by
  unfold mixApply; (repeat' split) <;> simp

@[simp] theorem banked_useCtx (k : Nat) (s : Block) : banked (useCtx k s) = banked s := by
  simp [useCtx]

@[simp] theorem banked_chargeGrant (t : TwinId) (k : Nat) (g : Nat) (lc : Bool) (s : Block) :
    banked (chargeGrant t k g lc s) = banked s := by
  unfold chargeGrant; simp only []; (repeat' split) <;> simp_all

@[simp] theorem banked_grantTrace (t : TwinId) (w : GrantWord) (via : Bool) (key : Nat) (readyAt : Nat) (s : Block) :
    banked (grantTrace t w via key readyAt s) = banked s := by
  simp [grantTrace]

@[simp] theorem banked_rebakeRuns (id : Nat) (s : Block) :
    banked (rebakeRuns id s) = banked s := by
  unfold rebakeRuns; (try simp only [])
  first
    | (simp [apply_ite banked]; done)
    | ((repeat' split) <;> first | rfl | (simp [apply_ite banked]; done) | (simp <;> rfl; done) | (simp_all; done))

@[simp] theorem banked_grantNode (t : TwinId) (key x eng : Nat) (via : Bool) (s : Block) :
    banked (grantNode t key x eng via s).2.2 = banked s := by
  unfold grantNode; (try simp only [])
  first
    | (simp [apply_ite banked]; done)
    | ((repeat' split) <;> first | rfl | (simp [apply_ite banked]; done) | (simp <;> rfl; done) | (simp_all; done))

@[simp] theorem banked_grantCopy (t : TwinId) (key : Nat) (c : Copy) (eng seq : Nat) (s : Block) :
    banked (grantCopy t key c eng seq s).2 = banked s := by
  unfold grantCopy; (try simp only [])
  first
    | (simp [apply_ite banked]; done)
    | ((repeat' split) <;> first | rfl | (simp [apply_ite banked]; done) | (simp <;> rfl; done) | (simp_all; done))

@[simp] theorem banked_drive (t : TwinId) (w : GrantWord) (s : Block) : banked (drive t w s) = banked s := by
  unfold drive; simp only []; (repeat' split) <;> simp_all

@[simp] theorem banked_upClaim (e : Nat) (seq : Nat) (f : Claim → Claim) (s : Block) :
    banked (upClaim e seq f s) = banked s := by
  simp [upClaim]

@[simp] theorem banked_dropClaim (e : Nat) (seq : Nat) (s : Block) : banked (dropClaim e seq s) = banked s := by
  simp [dropClaim]

@[simp] theorem banked_countMix (t : TwinId) (g load : Nat) (s : Block) :
    banked (countMix t g load s) = banked s := by
  unfold countMix; (try simp only [])
  first
    | (simp [apply_ite banked]; done)
    | ((repeat' split) <;> first | rfl | (simp [apply_ite banked]; done) | (simp <;> rfl; done) | (simp_all; done))

@[simp] theorem banked_grantLocal (t : TwinId) (key e seq : Nat) (s : Block) :
    banked (grantLocal t key e seq s) = banked s := by
  unfold grantLocal; (try simp only [])
  first
    | (simp [apply_ite banked]; done)
    | ((repeat' split) <;> first | rfl | (simp [apply_ite banked]; done) | (simp <;> rfl; done) | (simp_all; done))

@[simp] theorem banked_grantOrWait (t : TwinId) (key : Nat) (e : Nat) (seq : Nat) (s : Block) :
    banked (grantOrWait t key e seq s) = banked s := by
  unfold grantOrWait; (repeat' split) <;> simp

@[simp] theorem banked_tryServe (t : TwinId) (e : Nat) (seq : Nat) (c : Claim) (s : Block) :
    banked (tryServe t e seq c s) = banked s := by
  unfold tryServe
  try simp only []
  have hp := banked_pick t ((groupOf e).getD 0) (mapGet 0 (tw s t).rack.mix ((groupOf e).getD 0)) s
  (repeat' split) <;> simp_all

@[simp] theorem banked_tryOldest (e : Nat) (s : Block) : banked (tryOldest e s) = banked s := by
  unfold tryOldest; simp only []; (repeat' split) <;> simp_all

@[simp] theorem banked_resample (e : Nat) (s : Block) : banked (resample e s) = banked s := by
  unfold resample; (repeat' split) <;> simp

@[simp] theorem banked_sendReturn (t : TwinId) (node gen : Nat) (fenced : Bool) (s : Block) :
    banked (sendReturn t node gen fenced s) = banked s := by
  unfold sendReturn; (try simp only [])
  first
    | (simp [apply_ite banked]; done)
    | ((repeat' split) <;> first | rfl | (simp [apply_ite banked]; done) | (simp <;> rfl; done) | (simp_all; done))

@[simp] theorem banked_countHeld (e seq : Nat) (s : Block) : banked (countHeld e seq s) = banked s := by
  unfold countHeld; split <;> simp

@[simp] theorem banked_grantAt (t : TwinId) (w : GrantWord) (tag : Nat) (dd : Int) (load : Nat) (s : Block) :
    banked (grantAt t w tag dd load s) = banked s := by
  unfold grantAt; (try simp only [])
  first
    | (simp [apply_ite banked]; done)
    | ((repeat' split) <;> first | rfl | (simp [apply_ite banked]; done) | (simp <;> rfl; done) | (simp_all; done))

@[simp] theorem banked_countPlaced (t : TwinId) (n : Node) (g : Nat) (s : Block) :
    banked (countPlaced t n g s) = banked s := by
  unfold countPlaced; (try simp only [])
  first
    | (simp [apply_ite banked]; done)
    | ((repeat' split) <;> first | rfl | (simp [apply_ite banked]; done) | (simp <;> rfl; done) | (simp_all; done))

@[simp] theorem banked_appendLane (id g : Nat) (s : Block) :
    banked (appendLane id g s) = banked s := by
  unfold appendLane; (try simp only [])
  first
    | (simp [apply_ite banked]; done)
    | ((repeat' split) <;> first | rfl | (simp [apply_ite banked]; done) | (simp <;> rfl; done) | (simp_all; done))

@[simp] theorem banked_keepOwn (id g : Nat) (s : Block) :
    banked (keepOwn id g s) = banked s := by
  unfold keepOwn; (try simp only [])
  first
    | (simp [apply_ite banked]; done)
    | ((repeat' split) <;> first | rfl | (simp [apply_ite banked]; done) | (simp <;> rfl; done) | (simp_all; done))

@[simp] theorem banked_handOver (id g : Nat) (s : Block) :
    banked (handOver id g s) = banked s := by
  unfold handOver; (try simp only [])
  first
    | (simp [apply_ite banked]; done)
    | ((repeat' split) <;> first | rfl | (simp [apply_ite banked]; done) | (simp <;> rfl; done) | (simp_all; done))

@[simp] theorem banked_rackIn (id g : Nat) (s : Block) :
    banked (rackIn id g s) = banked s := by
  unfold rackIn; (try simp only [])
  first
    | (simp [apply_ite banked]; done)
    | ((repeat' split) <;> first | rfl | (simp [apply_ite banked]; done) | (simp <;> rfl; done) | (simp_all; done))

@[simp] theorem banked_driveFlush (c : Nat) (ws : List Waiter) (s : Block) :
    banked (driveFlush c ws s) = banked s := by
  unfold driveFlush; (try simp only [])
  first
    | (simp [apply_ite banked]; done)
    | ((repeat' split) <;> first | rfl | (simp [apply_ite banked]; done) | (simp <;> rfl; done) | (simp_all; done))

@[simp] theorem banked_localNeed (c : Nat) (w : Waiter) (s : Block) : banked (localNeed c w s) = banked s := by
  unfold localNeed; simp only []; (repeat' split) <;> simp_all

@[simp] theorem banked_askFlush (t : TwinId) (what : Option Nat) (w : Waiter) (s : Block) :
    banked (askFlush t what w s) = banked s := by
  simp [askFlush]

@[simp] theorem banked_needFlush (t : TwinId) (c : Nat) (w : Waiter) (s : Block) :
    banked (needFlush t c w s) = banked s := by
  unfold needFlush; (repeat' split) <;> simp

@[simp] theorem banked_upShard (shard : Nat) (f : Shard → Shard) (s : Block) :
    banked (upShard shard f s) = banked s := by
  simp [upShard]

@[simp] theorem banked_setLoc (t : TwinId) (shard : Nat) (w : Nat) (s : Block) :
    banked (setLoc t shard w s) = banked s := by
  simp [setLoc]

@[simp] theorem banked_publish (shard : Nat) (alloc : Bool) (s : Block) : banked (publish shard alloc s) = banked s := by
  unfold publish; simp only []; (repeat' split) <;> simp_all

@[simp] theorem banked_shelfFault (t : TwinId) (k : Nat) (code : Nat) (shard : Nat) (node : Nat) (s : Block) :
    banked (shelfFault t k code shard node s) = banked s := by
  simp [shelfFault]

@[simp] theorem banked_upWait (t : TwinId) (i : Nat) (f : WaitEnt → WaitEnt) (s : Block) :
    banked (upWait t i f s) = banked s := by
  simp [upWait]

@[simp] theorem banked_linkInsWait (id : Nat) (s : Block) :
    banked (linkInsWait id s) = banked s := by
  unfold linkInsWait; (try simp only [])
  first
    | (simp [apply_ite banked]; done)
    | ((repeat' split) <;> first | rfl | (simp [apply_ite banked]; done) | (simp <;> rfl; done) | (simp_all; done))

@[simp] theorem banked_waitOn (id : Nat) (shard : Nat) (s : Block) : banked (waitOn id shard s) = banked s := by
  unfold waitOn; simp only []; (repeat' split) <;> simp_all

@[simp] theorem banked_moveTrace (t : TwinId) (k : Nat) (ends : Bool) (shard src code copy : Nat) (s : Block) :
    banked (moveTrace t k ends shard src code copy s) = banked s := by
  unfold moveTrace; (try simp only [])
  first
    | (simp [apply_ite banked]; done)
    | ((repeat' split) <;> first | rfl | (simp [apply_ite banked]; done) | (simp <;> rfl; done) | (simp_all; done))

@[simp] theorem banked_startMove (m : MoveWant) (i x : Nat) (s : Block) :
    banked (startMove m i x s) = banked s := by
  unfold startMove; (try simp only [])
  first
    | (simp [apply_ite banked]; done)
    | ((repeat' split) <;> first | rfl | (simp [apply_ite banked]; done) | (simp <;> rfl; done) | (simp_all; done))

@[simp] theorem banked_decideMove (m : MoveWant) (s : Block) : banked (decideMove m s) = banked s := by
  unfold decideMove; (repeat' split) <;> simp

@[simp] theorem banked_appendTo (id g : Nat) (s : Block) :
    banked (appendTo id g s) = banked s := by
  unfold appendTo; (try simp only [])
  first
    | (simp [apply_ite banked]; done)
    | ((repeat' split) <;> first | rfl | (simp [apply_ite banked]; done) | (simp <;> rfl; done) | (simp_all; done))

@[simp] theorem banked_requestMove (id shard dest : Nat) (forLoad : Bool) (s : Block) :
    banked (requestMove id shard dest forLoad s) = banked s := by
  unfold requestMove; (try simp only [])
  first
    | (simp [apply_ite banked]; done)
    | ((repeat' split) <;> first | rfl | (simp [apply_ite banked]; done) | (simp <;> rfl; done) | (simp_all; done))

@[simp] theorem banked_place (id : Nat) (released again : Bool) (s : Block) :
    banked (place id released again s) = banked s := by
  unfold place; (try simp only [])
  first
    | (simp [apply_ite banked]; done)
    | ((repeat' split) <;> first | rfl | (simp [apply_ite banked]; done) | (simp <;> rfl; done) | (simp_all; done))

@[simp] theorem banked_replaceUnplaced (t : TwinId) (k : Nat) (s : Block) :
    banked (replaceUnplaced t k s) = banked s := by
  simp [replaceUnplaced]

@[simp] theorem banked_replaceFor (t : TwinId) (g : Nat) (s : Block) :
    banked (replaceFor t g s) = banked s := by
  unfold replaceFor; (try simp only [])
  first
    | (simp [apply_ite banked]; done)
    | ((repeat' split) <;> first | rfl | (simp [apply_ite banked]; done) | (simp <;> rfl; done) | (simp_all; done))

@[simp] theorem banked_groupUpAt (t : TwinId) (g : Nat) (s : Block) :
    banked (groupUpAt t g s) = banked s := by
  unfold groupUpAt; (try simp only [])
  first
    | (simp [apply_ite banked]; done)
    | ((repeat' split) <;> first | rfl | (simp [apply_ite banked]; done) | (simp <;> rfl; done) | (simp_all; done))

@[simp] theorem banked_restoreEngine (e : Nat) (s : Block) :
    banked (restoreEngine e s) = banked s := by
  unfold restoreEngine; (try simp only [])
  first
    | (simp [apply_ite banked]; done)
    | ((repeat' split) <;> first | rfl | (simp [apply_ite banked]; done) | (simp <;> rfl; done) | (simp_all; done))

@[simp] theorem banked_walked (t : TwinId) (id : Nat) (s : Block) : banked (walked t id s) = banked s := by
  simp [walked]

@[simp] theorem banked_upBake (t : TwinId) (f : Bake → Bake) (s : Block) : banked (upBake t f s) = banked s := by
  simp [upBake]

@[simp] theorem banked_walkTo (t : TwinId) (n : Nat) (s : Block) : banked (walkTo t n s) = banked s := by
  unfold walkTo; simp only []; (repeat' split) <;> simp_all

@[simp] theorem banked_walkTick (t : TwinId) (s : Block) : banked (walkTick t s) = banked s := by
  simp [walkTick]

@[simp] theorem banked_upDom (d : Nat) (f : Dom → Dom) (s : Block) : banked (upDom d f s) = banked s := by
  unfold upDom; (repeat' split) <;> first | rfl | (simp; done) | (simp <;> rfl; done)

@[simp] theorem banked_upThrd (t : TwinId) (f : ThreadDesk → ThreadDesk) (s : Block) :
    banked (upThrd t f s) = banked s := by
  simp [upThrd]

@[simp] theorem banked_upCore (c : Nat) (f : Core → Core) (s : Block) : banked (upCore c f s) = banked s := by
  unfold upCore; (repeat' split) <;> first | rfl | (simp; done) | (simp <;> rfl; done)

@[simp] theorem banked_sendOffer (t : TwinId) (c : Nat) (o : ThreadOffer) (s : Block) :
    banked (sendOffer t c o s) = banked s := by
  unfold sendOffer; (try simp only [])
  first
    | (simp [apply_ite banked]; done)
    | ((repeat' split) <;> first | rfl | (simp [apply_ite banked]; done) | (simp <;> rfl; done) | (simp_all; done))

@[simp] theorem banked_offerUnasked (t : TwinId) (cs : List Nat) (s : Block) :
    banked (offerUnasked t cs s) = banked s := by
  induction cs generalizing s with
  | nil => rfl
  | cons c cs ih => unfold offerUnasked; (repeat' split) <;> simp [ih]

@[simp] theorem banked_deskSettle (t : TwinId) (s : Block) : banked (deskSettle t s) = banked s := by
  unfold deskSettle; split <;> simp

@[simp] theorem banked_threadTrace (x : Nat) (c : Nat) (code : Nat) (s : Block) :
    banked (threadTrace x c code s) = banked s := by
  simp [threadTrace]

@[simp] theorem banked_sendRelease (c : Nat) (o : ThreadOffer) (s : Block) :
    banked (sendRelease c o s) = banked s := by
  unfold sendRelease; (try simp only [])
  first
    | (simp [apply_ite banked]; done)
    | ((repeat' split) <;> first | rfl | (simp [apply_ite banked]; done) | (simp <;> rfl; done) | (simp_all; done))

@[simp] theorem banked_askServed (c : Nat) (s : Block) :
    banked (askServed c s) = banked s := by
  unfold askServed; (try simp only [])
  first
    | (simp [apply_ite banked]; done)
    | ((repeat' split) <;> first | rfl | (simp [apply_ite banked]; done) | (simp <;> rfl; done) | (simp_all; done))

@[simp] theorem banked_grantThread (c : Nat) (o : ThreadOffer) (loser : Option ThreadOffer) (s : Block) :
    banked (grantThread c o loser s) = banked s := by
  unfold grantThread; (try simp only [])
  first
    | (simp [apply_ite banked]; done)
    | ((repeat' split) <;> first | rfl | (simp [apply_ite banked]; done) | (simp <;> rfl; done) | (simp_all; done))

@[simp] theorem banked_decideAsk (c : Nat) (windowOver : Bool) (s : Block) :
    banked (decideAsk c windowOver s) = banked s := by
  unfold decideAsk; (try simp only [])
  first
    | (simp [apply_ite banked]; done)
    | ((repeat' split) <;> first | rfl | (simp [apply_ite banked]; done) | (simp <;> rfl; done) | (simp_all; done))

@[simp] theorem banked_drivePreempt (c : Nat) (why : PreemptWhy) (s : Block) :
    banked (drivePreempt c why s) = banked s := by
  unfold drivePreempt; (try simp only [])
  first
    | (simp [apply_ite banked]; done)
    | ((repeat' split) <;> first | rfl | (simp [apply_ite banked]; done) | (simp <;> rfl; done) | (simp_all; done))

@[simp] theorem banked_resendAsks (t : TwinId) (s : Block) :
    banked (resendAsks t s) = banked s := by
  unfold resendAsks; (try simp only [])
  first
    | (simp [apply_ite banked]; done)
    | ((repeat' split) <;> first | rfl | (simp [apply_ite banked]; done) | (simp <;> rfl; done) | (simp_all; done))

@[simp] theorem banked_arbiterLose (t : TwinId) (s : Block) : banked (arbiterLose t s) = banked s := by
  unfold arbiterLose
  refine (forEach_banked _ _ _ ?_).trans ?_
  · intro c s
    simp only []
    (repeat' split) <;> simp
  · cases t <;> exact banked_upThrd _ _ s

@[simp] theorem banked_upProof (f : Proofer → Proofer) (s : Block) : banked (upProof f s) = banked s := by
  unfold upProof; (repeat' split) <;> first | rfl | (simp; done) | (simp <;> rfl; done)

@[simp] theorem banked_countPwr (off n : Nat) (s : Block) :
    banked (countPwr off n s) = banked s := by
  unfold countPwr; (try simp only [])
  first
    | (simp [apply_ite banked]; done)
    | ((repeat' split) <;> first | rfl | (simp [apply_ite banked]; done) | (simp <;> rfl; done) | (simp_all; done))

@[simp] theorem banked_setHold (g : Nat) (on : Bool) (s : Block) : banked (setHold g on s) = banked s := by
  unfold setHold; (repeat' split) <;> first | rfl | (simp; done) | (simp <;> rfl; done)

@[simp] theorem banked_driveKept (g : Nat) (s : Block) : banked (driveKept g s) = banked s := by
  unfold driveKept
  simp only []
  split
  · rfl
  exact (forEach_banked _ _ _ (fun h s => banked_grantAt _ _ _ _ _ s)).trans (by simp)

@[simp] theorem banked_releaseHold (g : Nat) (s : Block) :
    banked (releaseHold g s) = banked s := by
  unfold releaseHold; (try simp only [])
  first
    | (simp [apply_ite banked]; done)
    | ((repeat' split) <;> first | rfl | (simp [apply_ite banked]; done) | (simp <;> rfl; done) | (simp_all; done))

@[simp] theorem banked_withdrawClaims (d : Nat) (s : Block) :
    banked (withdrawClaims d s) = banked s := by
  unfold withdrawClaims; (try simp only [])
  first
    | (simp [apply_ite banked]; done)
    | ((repeat' split) <;> first | rfl | (simp [apply_ite banked]; done) | (simp <;> rfl; done) | (simp_all; done))

@[simp] theorem banked_openPort (d : Nat) (s : Block) :
    banked (openPort d s) = banked s := by
  unfold openPort; (try simp only [])
  first
    | (simp [apply_ite banked]; done)
    | ((repeat' split) <;> first | rfl | (simp [apply_ite banked]; done) | (simp <;> rfl; done) | (simp_all; done))

@[simp] theorem banked_bankTickAt (want : SMap Nat) (c : Nat) (s : Block) :
    banked (bankTickAt want c s) = banked s := by
  unfold bankTickAt; (try simp only [])
  first
    | (simp [apply_ite banked]; done)
    | ((repeat' split) <;> first | rfl | (simp [apply_ite banked]; done) | (simp <;> rfl; done) | (simp_all; done))

@[simp] theorem banked_bankPowerTick (s : Block) : banked (bankPowerTick s) = banked s := by
  simp [bankPowerTick]

@[simp] theorem banked_portService (p : Nat) (s : Block) : banked (portService p s) = banked s := by
  unfold portService; simp only []; (repeat' split) <;> simp_all

@[simp] theorem banked_startDom (d : Nat) (gated : Bool) (s : Block) :
    banked (startDom d gated s) = banked s := by
  unfold startDom; (try simp only [])
  first
    | (simp [apply_ite banked]; done)
    | ((repeat' split) <;> first | rfl | (simp [apply_ite banked]; done) | (simp <;> rfl; done) | (simp_all; done))

@[simp] theorem banked_wakeDom (d : Nat) (gated : Bool) (s : Block) :
    banked (wakeDom d gated s) = banked s := by
  unfold wakeDom; (try simp only [])
  first
    | (simp [apply_ite banked]; done)
    | ((repeat' split) <;> first | rfl | (simp [apply_ite banked]; done) | (simp <;> rfl; done) | (simp_all; done))

@[simp] theorem banked_toRun (d : Nat) (s : Block) :
    banked (toRun d s) = banked s := by
  unfold toRun; (try simp only [])
  first
    | (simp [apply_ite banked]; done)
    | ((repeat' split) <;> first | rfl | (simp [apply_ite banked]; done) | (simp <;> rfl; done) | (simp_all; done))

@[simp] theorem banked_domRun (d : Nat) (s : Block) :
    banked (domRun d s) = banked s := by
  unfold domRun; (try simp only [])
  first
    | (simp [apply_ite banked]; done)
    | ((repeat' split) <;> first | rfl | (simp [apply_ite banked]; done) | (simp <;> rfl; done) | (simp_all; done))

@[simp] theorem banked_stopClock (d : Nat) (s : Block) :
    banked (stopClock d s) = banked s := by
  unfold stopClock; (try simp only [])
  first
    | (simp [apply_ite banked]; done)
    | ((repeat' split) <;> first | rfl | (simp [apply_ite banked]; done) | (simp <;> rfl; done) | (simp_all; done))

@[simp] theorem banked_tryStop (d : Nat) (s : Block) : banked (tryStop d s) = banked s := by
  unfold tryStop; split <;> simp

@[simp] theorem banked_domTick (d : Nat) (s : Block) :
    banked (domTick d s) = banked s := by
  unfold domTick; (try simp only [])
  first
    | (simp [apply_ite banked]; done)
    | ((repeat' split) <;> first | rfl | (simp [apply_ite banked]; done) | (simp <;> rfl; done) | (simp_all; done))

@[simp] theorem banked_domainTick (s : Block) : banked (domainTick s) = banked s := by
  simp [domainTick]

@[simp] theorem banked_obEmpty (d : Nat) (s : Block) :
    banked (obEmpty d s) = banked s := by
  unfold obEmpty; (try simp only [])
  first
    | (simp [apply_ite banked]; done)
    | ((repeat' split) <;> first | rfl | (simp [apply_ite banked]; done) | (simp <;> rfl; done) | (simp_all; done))

@[simp] theorem banked_clkOk (d : Nat) (s : Block) : banked (clkOk d s) = banked s := by
  unfold clkOk; (repeat' split) <;> simp

@[simp] theorem banked_portReady (p : Nat) (s : Block) : banked (portReady p s) = banked s := by
  unfold portReady; simp only []; (repeat' split) <;> simp_all

@[simp] theorem banked_upRel (t : TwinId) (f : RelUnit → RelUnit) (s : Block) : banked (upRel t f s) = banked s := by
  simp [upRel]

@[simp] theorem banked_upPair (f : PairSt → PairSt) (s : Block) : banked (upPair f s) = banked s := by
  unfold upPair; (repeat' split) <;> first | rfl | (simp; done) | (simp <;> rfl; done)

@[simp] theorem banked_upSram (t : TwinId) (g : Nat) (f : SramGroup → SramGroup) (s : Block) :
    banked (upSram t g f s) = banked s := by
  unfold upSram; split <;> simp

@[simp] theorem banked_dropTest (t : TwinId) (s : Block) : banked (dropTest t s) = banked s := by
  unfold dropTest; split <;> simp

@[simp] theorem banked_pairFatal (s : Block) : banked (pairFatal s) = banked s := by
  simp [pairFatal]

@[simp] theorem banked_setSvc (t : TwinId) (x : TwinSt) (s : Block) : banked (setSvc t x s) = banked s := by
  simp [setSvc]

@[simp] theorem banked_setCause (t : TwinId) (cause : Nat) (s : Block) : banked (setCause t cause s) = banked s := by
  simp [setCause]

@[simp] theorem banked_partnerOnFatal (t : TwinId) (s : Block) :
    banked (partnerOnFatal t s) = banked s := by
  unfold partnerOnFatal; (try simp only [])
  first
    | (simp [apply_ite banked]; done)
    | ((repeat' split) <;> first | rfl | (simp [apply_ite banked]; done) | (simp <;> rfl; done) | (simp_all; done))

@[simp] theorem banked_dropPairTest (t : TwinId) (s : Block) :
    banked (dropPairTest t s) = banked s := by
  unfold dropPairTest; (try simp only [])
  first
    | (simp [apply_ite banked]; done)
    | ((repeat' split) <;> first | rfl | (simp [apply_ite banked]; done) | (simp <;> rfl; done) | (simp_all; done))

@[simp] theorem banked_dropPairOp (t : TwinId) (s : Block) :
    banked (dropPairOp t s) = banked s := by
  unfold dropPairOp; (try simp only [])
  first
    | (simp [apply_ite banked]; done)
    | ((repeat' split) <;> first | rfl | (simp [apply_ite banked]; done) | (simp <;> rfl; done) | (simp_all; done))

@[simp] theorem banked_dropSteps (t : TwinId) (s : Block) :
    banked (dropSteps t s) = banked s := by
  unfold dropSteps; (try simp only [])
  first
    | (simp [apply_ite banked]; done)
    | ((repeat' split) <;> first | rfl | (simp [apply_ite banked]; done) | (simp <;> rfl; done) | (simp_all; done))

@[simp] theorem banked_twinFatal (t : TwinId) (cause : Nat) (s : Block) :
    banked (twinFatal t cause s) = banked s := by
  unfold twinFatal; (try simp only [])
  first
    | (simp [apply_ite banked]; done)
    | ((repeat' split) <;> first | rfl | (simp [apply_ite banked]; done) | (simp <;> rfl; done) | (simp_all; done))

@[simp] theorem banked_bumpDc (key : Nat) (off : Nat) (n : Nat) (s : Block) :
    banked (bumpDc key off n s) = banked s := by
  unfold bumpDc; (repeat' split) <;> simp

@[simp] theorem banked_eventDc (t : TwinId) (code : Nat) (g : Nat) (s : Block) :
    banked (eventDc t code g s) = banked s := by
  simp [eventDc]

@[simp] theorem banked_portBusy (t : TwinId) (s : Block) : banked (portBusy t s) = banked s := by
  simp [portBusy]

@[simp] theorem banked_stallTick (t : TwinId) (s : Block) :
    banked (stallTick t s) = banked s := by
  unfold stallTick; (try simp only [])
  first
    | (simp [apply_ite banked]; done)
    | ((repeat' split) <;> first | rfl | (simp [apply_ite banked]; done) | (simp <;> rfl; done) | (simp_all; done))

@[simp] theorem banked_deskCycles (t : TwinId) (s : Block) :
    banked (deskCycles t s) = banked s := by
  unfold deskCycles; (try simp only [])
  first
    | (simp [apply_ite banked]; done)
    | ((repeat' split) <;> first | rfl | (simp [apply_ite banked]; done) | (simp <;> rfl; done) | (simp_all; done))

@[simp] theorem banked_ageCtx (dt : Nat) (k : Nat) (s : Block) : banked (ageCtx dt k s) = banked s := by
  unfold ageCtx; simp only []; (repeat' split) <;> simp_all

@[simp] theorem banked_wheelFrom (t : TwinId) (s : Block) : banked (wheelFrom t s) = banked s := by
  simp [wheelFrom]

@[simp] theorem banked_timeTick (s : Block) : banked (timeTick s) = banked s := by
  unfold timeTick; (repeat' split) <;> first | rfl | (simp; done) | (simp <;> rfl; done)

/-! ### Entries with no edge due -/

@[simp] theorem dueEdge_idle (s : Block) (t : TwinId) (e : Tally) (h : e.st ≠ .armed) : dueEdge s t e = none := by
  simp [dueEdge, h]
@[simp] theorem dueCount_none (s : Block) (t : TwinId) (n : Nat) (e : Tally) (h : dueEdge s t e = none) :
    dueCount s t n e = 0 := by cases n <;> simp [dueCount, h]
@[simp] theorem fireEntry_none (t : TwinId) (i n : Nat) (s : Block) (h : dueEdge s t (tallyOf s t i) = none) :
    fireEntry t i n s = (n, s) := by cases n <;> simp [fireEntry, h]
theorem fireEntry_due (t : TwinId) (i n w : Nat) (s : Block) (h : dueEdge s t (tallyOf s t i) = some w) :
    fireEntry t i (n + 1) s = fireEntry t i n (fireEdge t i w s) := by simp [fireEntry, h]

/-! ### The other twin's bank -/

@[simp] theorem other_setTally (t : TwinId) (i : Nat) (e : Tally) (s : Block) :
    (tw (setTally t i e s) (partner t)).bank = (tw s (partner t)).bank := by simp [setTally, upBank]
@[simp] theorem other_upBank (t : TwinId) (f : Bank → Bank) (s : Block) :
    (tw (upBank t f s) (partner t)).bank = (tw s (partner t)).bank := by simp [upBank]
@[simp] theorem other_setLocks (t : TwinId) (b l : Nat) (v : Bool) (s : Block) (u : TwinId) :
    (tw (setLocks t b l v s) u).bank = (tw s u).bank := by simp [setLocks]
@[simp] theorem other_dropLate (t : TwinId) (i : Nat) (s : Block) :
    (tw (dropLate t i s) (partner t)).bank = (tw s (partner t)).bank := by simp [dropLate]
@[simp] theorem other_freeTally (t : TwinId) (i : Nat) (s : Block) :
    (tw (freeTally t i s) (partner t)).bank = (tw s (partner t)).bank := by
  unfold freeTally
  dsimp only
  split <;> simp
@[simp] theorem other_disarm (t : TwinId) (i : Nat) (s : Block) :
    (tw (disarm t i s) (partner t)).bank = (tw s (partner t)).bank := by
  unfold disarm
  dsimp only
  split <;> simp
@[simp] theorem other_tallyEffect (c : TallyCmd) (t : TwinId) (i : Nat) (e : Tally) (s : Block) :
    (tw (tallyEffect c t i e s) (partner t)).bank = (tw s (partner t)).bank := by
  unfold tallyEffect
  split <;> simp
@[simp] theorem other_applyTallyCmd (t : TwinId) (c : TallyCmd) (s : Block) :
    (tw (applyTallyCmd t c s) (partner t)).bank = (tw s (partner t)).bank := by
  unfold applyTallyCmd
  dsimp only
  split <;> simp
@[simp] theorem other_saturate (t : TwinId) (i k : Nat) (s : Block) :
    (tw (saturate t i k s) (partner t)).bank = (tw s (partner t)).bank := by simp [saturate]
@[simp] theorem other_addCount (t : TwinId) (i n : Nat) (s : Block) :
    (tw (addCount t i n s) (partner t)).bank = (tw s (partner t)).bank := by
  unfold addCount
  dsimp only
  repeat' split
  all_goals simp
@[simp] theorem other_fireEdge (t : TwinId) (i w : Nat) (s : Block) :
    (tw (fireEdge t i w s) (partner t)).bank = (tw s (partner t)).bank := by simp [fireEdge]
@[simp] theorem other_fireEntry (t : TwinId) (i n : Nat) (s : Block) :
    (tw (fireEntry t i n s).2 (partner t)).bank = (tw s (partner t)).bank := by
  induction n generalizing s with
  | zero => rfl
  | succ n ih =>
    unfold fireEntry
    split
    · rfl
    · rw [ih]; simp
@[simp] theorem other_fireAll (t : TwinId) (l : List (Nat × Nat)) (b : Nat) (s : Block) :
    (tw (fireAll t l b s).2.2 (partner t)).bank = (tw s (partner t)).bank := by
  induction l generalizing s b with
  | nil => rfl
  | cons p l ih =>
    unfold fireAll
    simp only []
    rw [ih]; simp
@[simp] theorem other_fireTick (t : TwinId) (s : Block) :
    (tw (fireTick t s) (partner t)).bank = (tw s (partner t)).bank := by simp [fireTick]
/-- What is owed for the packets of a bank is paid without touching a partner's bank that is owed nothing. -/
theorem other_returnLink (t : TwinId) (n : Nat) (s : Block) (h : (tw s (partner t)).bank.owed = 0) :
    (tw (returnLink t n s) (partner t)).bank = (tw s (partner t)).bank := by
  cases t
  all_goals
    unfold returnLink
    simp only []
    (repeat' split) <;> simp_all [upBank, tw, upTw, partner, emit]
@[simp] theorem other_countTaly (t : TwinId) (off n : Nat) (s : Block) :
    (tw (countTaly t off n s) (partner t)).bank = (tw s (partner t)).bank := by simp [countTaly]
@[simp] theorem other_dropPacket (t : TwinId) (p why off : Nat) (s : Block) :
    (tw (dropPacket t p why off s) (partner t)).bank = (tw s (partner t)).bank := by simp [dropPacket]
/-- A packet buffered for a twin counts, or is dropped, in that twin. -/
@[simp] theorem other_takePacket (t : TwinId) (p : Nat) (r : SMap Nat × Block) :
    (tw (takePacket t p r).2 (partner t)).bank = (tw r.2 (partner t)).bank := by
  unfold takePacket; split <;> simp
@[simp] theorem other_takePackets (t : TwinId) (ps : List Nat) (r : SMap Nat × Block) :
    (tw (ps.foldl (fun r p => takePacket t p r) r).2 (partner t)).bank = (tw r.2 (partner t)).bank := by
  induction ps generalizing r with
  | nil => rfl
  | cons p ps ih => simp [ih]

theorem forEach_other {α : Type} (t : TwinId) (xs : List α) (f : α → Block → Block) (s : Block)
    (h : ∀ x s, (tw (f x s) (partner t)).bank = (tw s (partner t)).bank) :
    (tw (forEach xs f s) (partner t)).bank = (tw s (partner t)).bank :=
  forEach_keeps (fun b => (tw b (partner t)).bank) xs f s h

@[simp] theorem other_talyTick (t : TwinId) (s : Block) :
    (tw (talyTick t s) (partner t)).bank = (tw s (partner t)).bank := by
  unfold talyTick
  rw [forEach_other t _ _ _ fun c s => by simp]
  simp
theorem upTw_same (t : TwinId) (f : Twin → Twin) (s : Block) (h : f (tw s t) = tw s t) : upTw t f s = s := by
  cases t <;> simp only [tw, upTw] at h ⊢ <;> rw [h]

theorem upBank_same (t : TwinId) (f : Bank → Bank) (s : Block) (h : f (tw s t).bank = (tw s t).bank) :
    upBank t f s = s := upTw_same _ _ _ (by rw [h])

theorem talyTick_none (t : TwinId) (s : Block) (h : (tw s t).bank.events = []) : talyTick t s = s := by
  unfold talyTick
  simp only [h, forEach, List.foldl_nil]
  refine upBank_same t _ s ?_
  cases hb : (tw s t).bank
  simp_all

/-- The tick of one bank leaves the other alone, where it has no packet or that other is owed nothing. -/
theorem other_bankTick (t : TwinId) (s : Block) (ho : (tw s t).bank.buf ≠ [] → (tw s (partner t)).bank.owed = 0) :
    (tw (bankTick t s) (partner t)).bank = (tw s (partner t)).bank := by
  have hr : ∀ n (x : Block), (tw s t).bank.buf ≠ [] → (tw x (partner t)).bank = (tw s (partner t)).bank →
      (tw (returnLink t n x) (partner t)).bank = (tw s (partner t)).bank := fun n x hn hx =>
    (other_returnLink t n x (by rw [hx]; exact ho hn)).trans hx
  have hn : ¬((tw s t).bank.buf.take 16).length = 0 → (tw s t).bank.buf ≠ [] := by
    intro h0 he
    simp [he] at h0
  unfold bankTick
  dsimp only
  rw [other_talyTick, forEach_other t _ _ _ fun c s => by simp]
  have h3 : ∀ (f : Bank → Bank) (l : List TallyCmd) (m : SMap Nat) (x : Block),
      (tw x (partner t)).bank = (tw s (partner t)).bank →
      ∀ q, (tw (forEach q (fun (p : Nat × Nat) s => addCount t p.1 p.2 s)
        (((tw s t).bank.buf.take 16).foldl (fun r p => takePacket t p r)
          (m, forEach l (applyTallyCmd t) (upBank t f x))).2) (partner t)).bank = (tw s (partner t)).bank := by
    intro f l m x hx q
    rw [forEach_other t _ _ _ fun c s => by simp, other_takePackets,
      forEach_other t _ _ _ fun c s => other_applyTallyCmd t c s, other_upBank, hx]
  have h4 : ∀ (f : Bank → Bank) (l : List TallyCmd) (m : SMap Nat) (x : Block),
      (tw x (partner t)).bank = (tw s (partner t)).bank →
      ∀ q, (tw (if ((tw s t).bank.buf.take 16).length = 0 then
          forEach q (fun (p : Nat × Nat) s => addCount t p.1 p.2 s)
            (((tw s t).bank.buf.take 16).foldl (fun r p => takePacket t p r)
              (m, forEach l (applyTallyCmd t) (upBank t f x))).2
        else returnLink t ((tw s t).bank.buf.take 16).length
          (forEach q (fun (p : Nat × Nat) s => addCount t p.1 p.2 s)
            (((tw s t).bank.buf.take 16).foldl (fun r p => takePacket t p r)
              (m, forEach l (applyTallyCmd t) (upBank t f x))).2)) (partner t)).bank
        = (tw s (partner t)).bank := by
    intro f l m x hx q
    split
    · exact h3 f l m x hx q
    · exact hr _ _ (hn ‹_›) (h3 f l m x hx q)
  split
  · rw [other_fireTick]
    exact h4 _ _ _ _ (by split <;> simp) _
  · exact h4 _ _ _ _ (by split <;> simp) _

@[simp] theorem banked_pwrTick (s : Block) : banked (pwrTick s) = banked s := by
  simp [pwrTick]

/-- The whole tick leaves of the banks what the ticks of the two banks left, after the view and global time have moved on. -/
theorem tick_banked (s : Block) (hp : s.phase ≠ 0) :
    banked (tallyTick s)
      = banked (bankTick .t1 (bankTick .t0 (timeTick { viewTick s with ticks := (viewTick s).ticks + 1 }))) := by
  unfold tallyTick
  rw [if_neg hp]
  dsimp only
  split <;> simp

/-- A view that is not due is left as it stands. -/
theorem viewTick_rests (s : Block) (h : Safety.viewRests s = true) : viewTick s = s := by
  simp only [Safety.viewRests, Bool.and_eq_true] at h
  have hf : freezeApply s = s := by simp only [freezeApply, h.1, if_true]
  simp only [viewTick, hf, thawApply, h.2, if_true]

/-- A bank that rests is left as it stands by its tick, with the rest of both twins and the contexts. -/
theorem bankTick_rests (t : TwinId) (s : Block) (h : Safety.bankRests (tw s t).bank = true) :
    (bankTick t s).tw0 = s.tw0 ∧ (bankTick t s).tw1 = s.tw1 ∧ (bankTick t s).ctxs = s.ctxs := by
  simp only [Safety.bankRests, Bool.and_eq_true, List.isEmpty_iff] at h
  obtain ⟨⟨⟨⟨⟨⟨h1, h2⟩, h3⟩, h4⟩, h5⟩, _⟩, h7⟩ := h
  have hu : upBank t (fun b => { b with
      cmds := [], rearmed := [], buf := b.buf.drop 16,
      ents := mapAll {} (fun _ e => if e.st = .wrapped ∧ b.rearmed.contains e.ctx then
        { e with st := .armed, cursor := 0 } else e) b.ents }) s = s := by
    apply upBank_same
    cases hb : (tw s t).bank
    simp_all [mapAll]
  have hl : upBank t (fun b => { b with late := [] }) s = s := by
    apply upBank_same
    cases hb : (tw s t).bank
    simp_all
  unfold bankTick
  simp only [h2, List.length_nil, show ¬ (0 ≥ 256) from by omega, if_false, List.take_nil, hu, h3, h4,
    List.filterMap_nil, List.filter_nil, List.foldl_nil, forEach, if_true]
  have hf : (tw (fireTick t s) t).bank.events = [] := by
    simp [fireTick, h1, h4, fireAll, stillLate, newlyLate, hl, total, h7]
  split
  · rw [talyTick_none _ _ hf]
    simp [fireTick, h1, h4, fireAll, stillLate, newlyLate, hl, total]
  · rw [talyTick_none _ _ h7]
    simp

/-- Where the partner's bank rests and no view is due, a bank takes the tick alone, once global time has moved on. -/
theorem tick_bank (s : Block) (t : TwinId) (hp : s.phase ≠ 0) (hv : Safety.viewRests s = true)
    (hr : Safety.bankRests (tw s (partner t)).bank = true) :
    ∃ x r : Block, x = timeTick { s with ticks := s.ticks + 1 } ∧ r.tw0 = x.tw0 ∧ r.tw1 = x.tw1 ∧ r.ctxs = x.ctxs
      ∧ (tw (tallyTick s) t).bank = (tw (bankTick t r) t).bank := by
  have hk := tick_banked s hp
  rw [viewTick_rests s hv] at hk
  have ht := banked_timeTick { s with ticks := s.ticks + 1 }
  simp only [banked, Prod.mk.injEq] at hk ht
  cases t
  · refine ⟨_, _, rfl, rfl, rfl, rfl, hk.1.trans ?_⟩
    have hr1 : Safety.bankRests s.tw1.bank = true := hr
    simp only [Safety.bankRests, Bool.and_eq_true, List.isEmpty_iff, beq_iff_eq] at hr1
    have h1 := other_bankTick .t0 (timeTick { s with ticks := s.ticks + 1 }) fun _ => by
      show (timeTick _).tw1.bank.owed = 0
      rw [ht.2]; exact hr1.1.2
    have h2 : (tw (bankTick .t0 (timeTick { s with ticks := s.ticks + 1 })) .t1).bank.buf = [] := by
      refine (congrArg Bank.buf h1).trans ?_
      show (timeTick _).tw1.bank.buf = []
      rw [ht.2]; exact hr1.1.1.1.1.1.2
    exact other_bankTick .t1 _ (fun h => absurd h2 h)
  · obtain ⟨e0, e1, e2⟩ := bankTick_rests .t0 (timeTick { s with ticks := s.ticks + 1 }) (by
      show Safety.bankRests (timeTick _).tw0.bank = true
      rw [ht.1]; exact hr)
    exact ⟨_, _, rfl, e0, e1, e2, hk.2⟩

end Sys2Proof.Machine
end

