-- ==== Sys2Proof/Laws/Hand.lean ====
section
/-! SUPPORT. What enters Returns, and the walk of a completion's list: one lemma for each thing a credit can do. -/

namespace Sys2Proof.Machine

/-- With nothing in hand and nothing behind it, what enters Returns is taken. -/
theorem enter_idle {s : Block} {t : TwinId} (l : RetLater) (h : handBusy s t = false) : enter t l s = laterNow t l s := by
  simp [enter, h]

/-- Otherwise it waits, behind what waits already (R163). -/
theorem enter_busy {s : Block} {t : TwinId} (l : RetLater) (h : handBusy s t = true) :
    enter t l s = upRet t (fun r => { r with waiting := r.waiting ++ [l] }) s := by
  simp [enter, h]

/-- A credit behind one that stays in hand stays with it. -/
theorem walkCredit_behind {t : TwinId} {full : Nat → Bool} {a : Walk} {c : Credit} (h : a.rest ≠ []) :
    walkCredit t full a c = { a with rest := a.rest ++ [c] } := by
  simp [walkCredit, h]

/-- A TALLY edge in a list faults, and sends nothing (R47). -/
theorem walkCredit_tally {t : TwinId} {full : Nat → Bool} {a : Walk} {c : Credit} (h : a.rest = [])
    (hk : edgeKind c.word = 3) :
    walkCredit t full a c = { a with st := catFault t c.ctx 0x12 c.src (edgeTarget c.word) a.st } := by
  simp [walkCredit, h, hk]

/-- A credit that needs a wider scope is deferred, its need added to those of the list (R153). -/
theorem walkCredit_deferred {t : TwinId} {full : Nat → Bool} {a : Walk} {c : Credit} {n : Need} {s : Block} (h : a.rest = [])
    (hk : edgeKind c.word ≠ 3)
    (hq : creditNeed t a.hand.rel (max a.hand.scope (edgeScope c.word)) c a.st = (n, s)) (hn : n.any = true) :
    walkCredit t full a c = { a with
      st := s
      hand := { a.hand with
        later := a.hand.later ++ [c]
        need := { flush := a.hand.need.flush || n.flush, drain := a.hand.need.drain || n.drain } } } := by
  simp [walkCredit, h, hk, hq, hn]

/-- A credit that is to cross a channel without room stays in hand, and the list with it (R15, R163). -/
theorem walkCredit_held {t : TwinId} {full : Nat → Bool} {a : Walk} {c : Credit} {n : Need} {s : Block} (h : a.rest = [])
    (hk : edgeKind c.word ≠ 3)
    (hq : creditNeed t a.hand.rel (max a.hand.scope (edgeScope c.word)) c a.st = (n, s)) (hn : n.any = false)
    (hc : crosses t c = true) (hf : full (a.sent.countP (crosses t)) = true) :
    walkCredit t full a c = { a with rest := [c] } := by
  simp [walkCredit, h, hk, hq, hn, hc, hf]

/-- Every other credit is sent. -/
theorem walkCredit_sent {t : TwinId} {full : Nat → Bool} {a : Walk} {c : Credit} {n : Need} {s : Block} (h : a.rest = [])
    (hk : edgeKind c.word ≠ 3)
    (hq : creditNeed t a.hand.rel (max a.hand.scope (edgeScope c.word)) c a.st = (n, s)) (hn : n.any = false)
    (hf : crosses t c = false ∨ full (a.sent.countP (crosses t)) = false) :
    walkCredit t full a c = { a with sent := a.sent ++ [c], st := s } := by
  rcases hf with hf | hf <;> simp [walkCredit, h, hk, hq, hn, hf]

/-- A desk cycle's credits that leave nothing in hand: the walk goes on with the next. -/
theorem walkList_next {t : TwinId} {cs : List Credit} {more : List (List Credit)} {h : Hand} {s : Block}
    (hr : (walkChunk t h cs s).rest = []) :
    walkList t (cs :: more) h s = walkList t more (walkChunk t h cs s).hand (walkChunk t h cs s).st := by
  simp [walkList, hr]

/-- A desk cycle's credits of which some stay in hand: the rest of the list waits with them. -/
theorem walkList_held {t : TwinId} {cs : List Credit} {more : List (List Credit)} {h : Hand} {s : Block}
    (hr : (walkChunk t h cs s).rest ≠ []) :
    walkList t (cs :: more) h s
      = upRet t (fun r => { r with hand := some { (walkChunk t h cs s).hand with chunks := (walkChunk t h cs s).rest :: more } })
          (walkChunk t h cs s).st := by
  simp [walkList, hr]

end Sys2Proof.Machine
end

