-- ==== Sys2Proof/Laws/SpineA.lean ====
section
/-! SUPPORT. What the operations leave alone of the block's spine: the shared operations to the Shelf List. One lemma per operation. -/

namespace Sys2Proof.Machine

set_option maxRecDepth 8000

/-- What only reset, bring-up, the tally tick, the fuses, the naming of the manager and the test segments change: PHASE, the
tally ticks, the fuses, what bring-up keeps, the manager and the owners of the segments. -/
def spine (s : Block) :
    (Nat × Nat × SMap Nat × Boot) × Nat × Option SegmentParty × Option SegmentParty × Option SegmentParty :=
  ((s.phase, s.ticks, s.fuses, s.boot), s.mgmt.manager, s.mgmt.seg0, s.mgmt.seg1, s.mgmt.segAon)

@[simp] theorem spine_mk (a b c d e f g h i j aa k l m n o p q q2 r u v w x y y2 z) :
    spine ⟨a, b, c, d, e, f, g, h, i, j, aa, k, l, m, n, o, p, q, q2, r, u, v, w, x, y, y2, z⟩
      = ((r, w, q, o), p.manager, p.seg0, p.seg1, p.segAon) := rfl

@[simp] theorem spine_fold (s : Block) :
    ((s.phase, s.ticks, s.fuses, s.boot), s.mgmt.manager, s.mgmt.seg0, s.mgmt.seg1, s.mgmt.segAon) = spine s := rfl

@[simp] theorem forEach_spine {α : Type} (xs : List α) (f : α → Block → Block) (s : Block)
    (h : ∀ x s, spine (f x s) = spine s) : spine (forEach xs f s) = spine s := by
  unfold forEach
  induction xs generalizing s with
  | nil => rfl
  | cons x xs ih => simp only [List.foldl_cons]; rw [ih, h]

@[simp] theorem foldl_spine {α : Type} (xs : List α) (f : Block → α → Block) (s : Block)
    (h : ∀ s x, spine (f s x) = spine s) : spine (xs.foldl f s) = spine s := by
  induction xs generalizing s with
  | nil => rfl
  | cons x xs ih => simp only [List.foldl_cons]; rw [ih, h]

@[simp] theorem foldl_snd_spine {α β : Type} (xs : List α) (f : β × Block → α → β × Block) (r : β × Block)
    (h : ∀ r x, spine (f r x).2 = spine r.2) : spine (xs.foldl f r).2 = spine r.2 := by
  induction xs generalizing r with
  | nil => rfl
  | cons x xs ih => simp only [List.foldl_cons]; rw [ih, h]

@[simp] theorem forEach_same {α : Type} (xs : List α) (s : Block) : forEach xs (fun _ s => s) s = s := by
  unfold forEach; induction xs <;> simp_all

@[simp] theorem spine_upTw (t : TwinId) (f : Twin → Twin) (s : Block) : spine (upTw t f s) = spine s := by
  unfold upTw; (repeat' split) <;> first | rfl | (simp; done) | (simp <;> rfl; done)

theorem takeEdge_spine {t : TwinId} {p : EdgeItem → Bool} {s : Block} {r : EdgeItem × Block} (h : takeEdge t p s = some r) :
    spine r.2 = spine s := by
  unfold takeEdge at h; (repeat' split at h) <;> cases h <;> simp

theorem takeClaim_spine {t : TwinId} {p : ClaimItem → Bool} {s : Block} {r : ClaimItem × Block} (h : takeClaim t p s = some r) :
    spine r.2 = spine s := by
  unfold takeClaim at h; (repeat' split at h) <;> cases h <;> simp

theorem takeCtrl_spine {t : TwinId} {p : ControlItem → Bool} {s : Block} {r : ControlItem × Block} (h : takeCtrl t p s = some r) :
    spine r.2 = spine s := by
  unfold takeCtrl at h; (repeat' split at h) <;> cases h <;> simp

@[simp] theorem spine_upCtx (k : Nat) (f : Ctx → Ctx) (s : Block) : spine (upCtx k f s) = spine s := by
  unfold upCtx; (repeat' split) <;> first | rfl | (simp; done) | (simp <;> rfl; done)

@[simp] theorem spine_upCtxTw (t : TwinId) (k : Nat) (f : CtxTw → CtxTw) (s : Block) :
    spine (upCtxTw t k f s) = spine s := by
  simp [upCtxTw]

@[simp] theorem spine_setNode (id : Nat) (n : Node) (s : Block) : spine (setNode id n s) = spine s := by
  simp [setNode]

@[simp] theorem spine_setOwner (t : TwinId) (x v : Nat) (s : Block) :
    spine (setOwner t x v s) = spine s := by
  unfold setOwner; (try simp only [])
  first
    | (simp [apply_ite spine]; done)
    | ((repeat' split) <;> first | rfl | (simp [apply_ite spine]; done) | (simp <;> rfl; done) | (simp_all; done))

@[simp] theorem spine_upNode (id : Nat) (f : Node → Node) (s : Block) : spine (upNode id f s) = spine s := by
  simp [upNode]

@[simp] theorem spine_upEng (e : Nat) (f : Engine → Engine) (s : Block) : spine (upEng e f s) = spine s := by
  unfold upEng; (repeat' split) <;> first | rfl | (simp; done) | (simp <;> rfl; done)

@[simp] theorem spine_upFlush (c : Nat) (f : Flush → Flush) (s : Block) : spine (upFlush c f s) = spine s := by
  unfold upFlush; (repeat' split) <;> first | rfl | (simp; done) | (simp <;> rfl; done)

@[simp] theorem spine_setRec (t : TwinId) (i : Nat) (r : CircRec) (s : Block) : spine (setRec t i r s) = spine s := by
  simp [setRec]

@[simp] theorem spine_pushWork (ws : List Work) (s : Block) : spine (pushWork ws s) = spine s := by
  unfold pushWork; (repeat' split) <;> first | rfl | (simp; done) | (simp <;> rfl; done)

@[simp] theorem spine_beforeAgain (x : Work) (s : Block) :
    spine (beforeAgain x s) = spine s := by
  unfold beforeAgain; (try simp only [])
  first
    | (simp [apply_ite spine]; done)
    | ((repeat' split) <;> first | rfl | (simp [apply_ite spine]; done) | (simp <;> rfl; done) | (simp_all; done))

@[simp] theorem spine_retryFirst (t : TwinId) (s : Block) :
    spine (retryFirst t s) = spine s := by
  unfold retryFirst; (try simp only [])
  first
    | (simp [apply_ite spine]; done)
    | ((repeat' split) <;> first | rfl | (simp [apply_ite spine]; done) | (simp <;> rfl; done) | (simp_all; done))

@[simp] theorem spine_placeFirst (id : Nat) (s : Block) :
    spine (placeFirst id s) = spine s := by
  unfold placeFirst; (try simp only [])
  first
    | (simp [apply_ite spine]; done)
    | ((repeat' split) <;> first | rfl | (simp [apply_ite spine]; done) | (simp <;> rfl; done) | (simp_all; done))

@[simp] theorem spine_emit (o : Output) (s : Block) : spine (emit o s) = spine s := by
  unfold emit; (repeat' split) <;> first | rfl | (simp; done) | (simp <;> rfl; done)

@[simp] theorem spine_upPage (key : Nat) (f : Page → Page) (s : Block) : spine (upPage key f s) = spine s := by
  unfold upPage; (repeat' split) <;> first | rfl | (simp; done) | (simp <;> rfl; done)

@[simp] theorem spine_setReg (key : Nat) (off : Nat) (v : Nat) (s : Block) :
    spine (setReg key off v s) = spine s := by
  simp [setReg]

@[simp] theorem spine_setErr (key : Nat) (bit : Nat) (s : Block) : spine (setErr key bit s) = spine s := by
  simp [setErr]

@[simp] theorem spine_bump (key : Nat) (off : Nat) (n : Nat) (s : Block) : spine (bump key off n s) = spine s := by
  simp [bump]

@[simp] theorem spine_bumpCtx (k : Nat) (off : Nat) (n : Nat) (s : Block) : spine (bumpCtx k off n s) = spine s := by
  simp [bumpCtx]

@[simp] theorem spine_discardIn (t : TwinId) (s : Block) :
    spine (discardIn t s) = spine s := by
  unfold discardIn; (try simp only [])
  first
    | (simp [apply_ite spine]; done)
    | ((repeat' split) <;> first | rfl | (simp [apply_ite spine]; done) | (simp <;> rfl; done) | (simp_all; done))

@[simp] theorem spine_offerHeld (s : Block) :
    spine (offerHeld s) = spine s := by
  unfold offerHeld; (try simp only [])
  first
    | (simp [apply_ite spine]; done)
    | ((repeat' split) <;> first | rfl | (simp [apply_ite spine]; done) | (simp <;> rfl; done) | (simp_all; done))

@[simp] theorem spine_optEvent (t : TwinId) (code : Nat) (k : Nat) (useCtx : Bool) (group : Option Nat) (n : Nat) (s : Block) :
    spine (optEvent t code k useCtx group n s) = spine s := by
  simp [optEvent]

@[simp] theorem spine_upObs (t : TwinId) (f : Obs → Obs) (s : Block) : spine (upObs t f s) = spine s := by
  simp [upObs]

@[simp] theorem spine_driveRing (t : TwinId) (s : Block) :
    spine (driveRing t s) = spine s := by
  unfold driveRing; (try simp only [])
  first
    | (simp [apply_ite spine]; done)
    | ((repeat' split) <;> first | rfl | (simp [apply_ite spine]; done) | (simp <;> rfl; done) | (simp_all; done))

@[simp] theorem spine_stageRec (t : TwinId) (r : TraceRec) (s : Block) :
    spine (stageRec t r s) = spine s := by
  unfold stageRec; (try simp only [])
  first
    | (simp [apply_ite spine]; done)
    | ((repeat' split) <;> first | rfl | (simp [apply_ite spine]; done) | (simp <;> rfl; done) | (simp_all; done))

@[simp] theorem spine_stageLost (t : TwinId) (s : Block) :
    spine (stageLost t s) = spine s := by
  unfold stageLost; (try simp only [])
  first
    | (simp [apply_ite spine]; done)
    | ((repeat' split) <;> first | rfl | (simp [apply_ite spine]; done) | (simp <;> rfl; done) | (simp_all; done))

@[simp] theorem spine_traceAt (time : Nat) (t : TwinId) (ty : Nat) (k : Option Nat) (node aux w2 hi3 : Nat) (s : Block) :
    spine (traceAt time t ty k node aux w2 hi3 s) = spine s := by
  unfold traceAt; (try simp only [])
  first
    | (simp [apply_ite spine]; done)
    | ((repeat' split) <;> first | rfl | (simp [apply_ite spine]; done) | (simp <;> rfl; done) | (simp_all; done))

@[simp] theorem spine_stageWaits (t : TwinId) (rs : List TraceRec) (s : Block) : spine (stageWaits t rs s) = spine s := by
  induction rs generalizing s with
  | nil => rfl
  | cons r rs ih => unfold stageWaits; split <;> simp [ih]

@[simp] theorem spine_trace (t : TwinId) (ty : Nat) (k : Option Nat) (node aux w2 hi3 : Nat) (s : Block) :
    spine (trace t ty k node aux w2 hi3 s) = spine s := by
  unfold trace; (try simp only [])
  first
    | (simp [apply_ite spine]; done)
    | ((repeat' split) <;> first | rfl | (simp [apply_ite spine]; done) | (simp <;> rfl; done) | (simp_all; done))

@[simp] theorem spine_sendItem (frm dst : TwinId) (i : EdgeItem) (s : Block) :
    spine (sendItem frm dst i s) = spine s := by
  unfold sendItem; (try simp only [])
  first
    | (simp [apply_ite spine]; done)
    | ((repeat' split) <;> first | rfl | (simp [apply_ite spine]; done) | (simp <;> rfl; done) | (simp_all; done))

@[simp] theorem spine_sendClaim (dst : TwinId) (i : ClaimItem) (s : Block) : spine (sendClaim dst i s) = spine s := by
  unfold sendClaim; (repeat' split) <;> simp

@[simp] theorem spine_sendCtrl (dst : TwinId) (i : ControlItem) (s : Block) : spine (sendCtrl dst i s) = spine s := by
  simp [sendCtrl]

@[simp] theorem spine_raiseFreeze (t : TwinId) (s : Block) : spine (raiseFreeze t s) = spine s := by
  unfold raiseFreeze; (repeat' split) <;> first | rfl | (simp; done) | (simp <;> rfl; done)

@[simp] theorem spine_raiseFence (t : TwinId) (k : Nat) (s : Block) : spine (raiseFence t k s) = spine s := by
  unfold raiseFence; (repeat' split) <;> simp

@[simp] theorem spine_queueFault (t : TwinId) (k : Nat) (s : Block) :
    spine (queueFault t k s) = spine s := by
  unfold queueFault; (try simp only [])
  first
    | (simp [apply_ite spine]; done)
    | ((repeat' split) <;> first | rfl | (simp [apply_ite spine]; done) | (simp <;> rfl; done) | (simp_all; done))

@[simp] theorem spine_raiseFault (t : TwinId) (k : Nat) (code : Nat) (node : Nat) (s : Block) :
    spine (raiseFault t k code node s) = spine s := by
  unfold raiseFault; simp only []; (repeat' split) <;> simp_all

@[simp] theorem spine_wheelUnlink (id : Nat) (n : Node) (s : Block) : spine (wheelUnlink id n s) = spine s := by
  simp [wheelUnlink]

@[simp] theorem spine_wheelLink (id : Nat) (n : Node) (s : Block) : spine (wheelLink id n s) = spine s := by
  unfold wheelLink; simp only []; (repeat' split) <;> simp_all

@[simp] theorem spine_rackUnlink (id : Nat) (s : Block) :
    spine (rackUnlink id s) = spine s := by
  unfold rackUnlink; (try simp only [])
  first
    | (simp [apply_ite spine]; done)
    | ((repeat' split) <;> first | rfl | (simp [apply_ite spine]; done) | (simp <;> rfl; done) | (simp_all; done))

@[simp] theorem spine_narrowFree (id : Nat) (s : Block) : spine (narrowFree id s) = spine s := by
  simp [narrowFree]

@[simp] theorem spine_unbind (id : Nat) (s : Block) : spine (unbind id s) = spine s := by
  unfold unbind; simp only []; (repeat' split) <;> simp_all

@[simp] theorem spine_setSweep (q rest : List Nat) (s : Block) :
    spine (setSweep q rest s) = spine s := by
  unfold setSweep; (try simp only [])
  first
    | (simp [apply_ite spine]; done)
    | ((repeat' split) <;> first | rfl | (simp [apply_ite spine]; done) | (simp <;> rfl; done) | (simp_all; done))

@[simp] theorem spine_unitUnlink (id : Nat) (s : Block) :
    spine (unitUnlink id s) = spine s := by
  unfold unitUnlink; (try simp only [])
  first
    | (simp [apply_ite spine]; done)
    | ((repeat' split) <;> first | rfl | (simp [apply_ite spine]; done) | (simp <;> rfl; done) | (simp_all; done))

@[simp] theorem spine_faultNode (id : Nat) (s : Block) :
    spine (faultNode id s) = spine s := by
  unfold faultNode; (try simp only [])
  first
    | (simp [apply_ite spine]; done)
    | ((repeat' split) <;> first | rfl | (simp [apply_ite spine]; done) | (simp <;> rfl; done) | (simp_all; done))

@[simp] theorem spine_catFault (t : TwinId) (k : Nat) (code : Nat) (src : Nat) (node : Nat) (s : Block) :
    spine (catFault t k code src node s) = spine s := by
  simp [catFault]

@[simp] theorem spine_countReady (t : TwinId) (k : Nat) (s : Block) :
    spine (countReady t k s) = spine s := by
  unfold countReady; (try simp only [])
  first
    | (simp [apply_ite spine]; done)
    | ((repeat' split) <;> first | rfl | (simp [apply_ite spine]; done) | (simp <;> rfl; done) | (simp_all; done))

@[simp] theorem spine_readyTrace (id org orgId : Nat) (s : Block) :
    spine (readyTrace id org orgId s) = spine s := by
  unfold readyTrace; (try simp only [])
  first
    | (simp [apply_ite spine]; done)
    | ((repeat' split) <;> first | rfl | (simp [apply_ite spine]; done) | (simp <;> rfl; done) | (simp_all; done))

@[simp] theorem spine_makeReady (id org orgId : Nat) (s : Block) :
    spine (makeReady id org orgId s) = spine s := by
  unfold makeReady; (try simp only [])
  first
    | (simp [apply_ite spine]; done)
    | ((repeat' split) <;> first | rfl | (simp [apply_ite spine]; done) | (simp <;> rfl; done) | (simp_all; done))

@[simp] theorem spine_makeSkipped (id : Nat) (org : Nat) (orgId : Nat) (s : Block) :
    spine (makeSkipped id org orgId s) = spine s := by
  simp [makeSkipped]

@[simp] theorem spine_evaluate (id : Nat) (org : Nat) (orgId : Nat) (s : Block) :
    spine (evaluate id org orgId s) = spine s := by
  unfold evaluate; simp only []; (repeat' split) <;> simp_all

@[simp] theorem spine_setFlag (t : TwinId) (id : Nat) (c : Credit) (s : Block) :
    spine (setFlag t id c s) = spine s := by
  unfold setFlag; simp only []; (repeat' split) <;> simp_all

@[simp] theorem spine_triggerCheck (id : Nat) (before : Nat) (s : Block) :
    spine (triggerCheck id before s) = spine s := by
  unfold triggerCheck; simp only []; (repeat' split) <;> simp_all

@[simp] theorem spine_sortFault (t : TwinId) (k : Nat) (code : Nat) (reason : Nat) (node : Nat) (s : Block) :
    spine (sortFault t k code reason node s) = spine s := by
  simp [sortFault]

@[simp] theorem spine_bindCredit (id : Nat) (c : Credit) (r : List Credit × Block) :
    spine (bindCredit id c r).2 = spine r.2 := by
  unfold bindCredit; (try simp only [])
  first
    | (simp [apply_ite spine]; done)
    | ((repeat' split) <;> first | rfl | (simp [apply_ite spine]; done) | (simp <;> rfl; done) | (simp_all; done))

@[simp] theorem spine_creditNode (id : Nat) (cs : List Credit) (s : Block) :
    spine (creditNode id cs s) = spine s := by
  unfold creditNode; (try simp only [])
  first
    | (simp [apply_ite spine]; done)
    | ((repeat' split) <;> first | rfl | (simp [apply_ite spine]; done) | (simp <;> rfl; done) | (simp_all; done))

@[simp] theorem spine_leaveCount (c : Credit) (s : Block) : spine (leaveCount c s) = spine s := by
  unfold leaveCount; simp only []; (repeat' split) <;> simp_all

@[simp] theorem spine_applyCredits (cs : List Credit) (s : Block) :
    spine (applyCredits cs s) = spine s := by
  unfold applyCredits; (try simp only [])
  first
    | (simp [apply_ite spine]; done)
    | ((repeat' split) <;> first | rfl | (simp [apply_ite spine]; done) | (simp <;> rfl; done) | (simp_all; done))

@[simp] theorem spine_sealed (id : Nat) (s : Block) : spine (sealed id s) = spine s := by
  simp [sealed]

@[simp] theorem spine_walkBucket (t : TwinId) (b : Nat) (s : Block) : spine (walkBucket t b s) = spine s := by
  unfold walkBucket
  try simp only []
  (repeat' split) <;> first | rfl | (simp (disch := (intros; (try simp only []); (repeat' split) <;> first | rfl | simp)); done) | (simp_all; done)

@[simp] theorem spine_wheelWalk (t : TwinId) (s : Block) : spine (wheelWalk t s) = spine s := by
  unfold wheelWalk; simp only []; (repeat' split) <;> simp_all

@[simp] theorem spine_refuse (t : TwinId) (k : Nat) (code : Nat) (bank : Nat) (off : Nat) (s : Block) :
    spine (refuse t k code bank off s) = spine s := by
  simp [refuse]

@[simp] theorem spine_sealFail (t : TwinId) (id : Nat) (k : Nat) (code : Nat) (bank : Nat) (off : Nat) (s : Block) :
    spine (sealFail t id k code bank off s) = spine s := by
  simp [sealFail]

@[simp] theorem spine_lockList (v : Bool) (id : Nat) (n : Node) (s : Block) :
    spine (lockList v id n s) = spine s := by
  simp [lockList]

@[simp] theorem spine_enterLoading (k : Nat) (id : Nat) (s : Block) : spine (enterLoading k id s) = spine s := by
  unfold enterLoading; simp only []; (repeat' split) <;> simp_all

@[simp] theorem spine_applyAppend (f : Nat) (sNode : Nat) (g : Nat) (k : Nat) (word : Nat) (s : Block) :
    spine (applyAppend f sNode g k word s) = spine s := by
  unfold applyAppend; simp only []; (repeat' split) <;> simp_all

@[simp] theorem spine_applyMirrorReq (g k kind : Nat) (lc : Bool) (level larder d cap : Nat) (s : Block) :
    spine (applyMirrorReq g k kind lc level larder d cap s) = spine s := by
  unfold applyMirrorReq; (try simp only [])
  first
    | (simp [apply_ite spine]; done)
    | ((repeat' split) <;> first | rfl | (simp [apply_ite spine]; done) | (simp <;> rfl; done) | (simp_all; done))

@[simp] theorem spine_mirrorSteps (w : MirWork) (s : Block) : spine (mirrorSteps w s) = spine s := by
  have hf : ∀ (g : EdgeItem → Block → Block) (w2 : MirWork) (f : (Nat × Nat) → EdgeItem) (l) (s : Block),
      (∀ i s, spine (g i s) = spine s) → spine (forEach (List.map f l) g s) = spine s :=
    fun g _ f l s h => forEach_spine _ _ _ h
  unfold mirrorSteps
  simp only []
  split
  · simp only [spine_pushWork, spine_upNode]
    refine (forEach_spine _ _ _ ?_).trans ?_
    · intro i s; (repeat' split) <;> simp
    · simp
  · refine (forEach_spine _ _ _ ?_).trans ?_
    · intro i s; (repeat' split) <;> simp
    · simp

@[simp] theorem spine_startMirror (f : Nat) (k : Nat) (bank : Nat) (off : Nat) (s : Block) :
    spine (startMirror f k bank off s) = spine s := by
  unfold startMirror
  simp only []
  split
  · simp
  · refine (forEach_spine _ _ _ ?_).trans ?_
    · intro i s; (repeat' split) <;> simp
    · simp

@[simp] theorem spine_applyTargetAns (t : TwinId) (f : Nat) (i : Nat) (en : Bool) (m : Nat) (s : Block) :
    spine (applyTargetAns t f i en m s) = spine s := by
  unfold applyTargetAns; simp only []; (repeat' split) <;> simp_all

@[simp] theorem spine_applyMirrorAck (t : TwinId) (f : Nat) (s : Block) : spine (applyMirrorAck t f s) = spine s := by
  simp [applyMirrorAck]

@[simp] theorem spine_sealNode (k : Nat) (id : Nat) (bank : Nat) (off : Nat) (s : Block) :
    spine (sealNode k id bank off s) = spine s := by
  unfold sealNode; simp only []; (repeat' split) <;> simp_all

@[simp] theorem spine_nodeWord (k bank off : Nat) (data : List Byte) (slot j : Nat) (s : Block) :
    spine (nodeWord k bank off data slot j s) = spine s := by
  unfold nodeWord; (try simp only [])
  first
    | (simp [apply_ite spine]; done)
    | ((repeat' split) <;> first | rfl | (simp [apply_ite spine]; done) | (simp <;> rfl; done) | (simp_all; done))

@[simp] theorem spine_nodePart (k bank off : Nat) (data : List Byte) (s : Block) :
    spine (nodePart k bank off data s) = spine s := by
  unfold nodePart; (try simp only [])
  first
    | (simp [apply_ite spine]; done)
    | ((repeat' split) <;> first | rfl | (simp [apply_ite spine]; done) | (simp <;> rfl; done) | (simp_all; done))

@[simp] theorem spine_edgeWord (k : Nat) (bank : Nat) (off : Nat) (data : List Byte) (slot : Nat) (s : Block) :
    spine (edgeWord k bank off data slot s) = spine s := by
  unfold edgeWord; simp only []; (repeat' split) <;> simp_all

@[simp] theorem spine_edgePart (k bank off : Nat) (data : List Byte) (s : Block) :
    spine (edgePart k bank off data s) = spine s := by
  unfold edgePart; (try simp only [])
  first
    | (simp [apply_ite spine]; done)
    | ((repeat' split) <;> first | rfl | (simp [apply_ite spine]; done) | (simp <;> rfl; done) | (simp_all; done))

@[simp] theorem spine_rearmTwin (t : TwinId) (k : Nat) (s : Block) : spine (rearmTwin t k s) = spine s := by
  simp [rearmTwin]

@[simp] theorem spine_closeNode (t : TwinId) (k : Nat) (x : Nat) (s : Block) :
    spine (closeNode t k x s) = spine s := by
  unfold closeNode; simp only []; (repeat' split) <;> simp_all

@[simp] theorem spine_sendMarker (t : TwinId) (k : Nat) (s : Block) : spine (sendMarker t k s) = spine s := by
  simp [sendMarker]

@[simp] theorem spine_mirrorClose (k : Nat) (t : TwinId) (s : Block) :
    spine (mirrorClose k t s) = spine s := by
  unfold mirrorClose; (try simp only [])
  first
    | (simp [apply_ite spine]; done)
    | ((repeat' split) <;> first | rfl | (simp [apply_ite spine]; done) | (simp <;> rfl; done) | (simp_all; done))

@[simp] theorem spine_mirrorCloseEffect (t : TwinId) (k : Nat) (s : Block) :
    spine (mirrorCloseEffect t k s) = spine s := by
  unfold mirrorCloseEffect; (try simp only [])
  first
    | (simp [apply_ite spine]; done)
    | ((repeat' split) <;> first | rfl | (simp [apply_ite spine]; done) | (simp <;> rfl; done) | (simp_all; done))

@[simp] theorem spine_discardWrite (k : Nat) (s : Block) :
    spine (discardWrite k s) = spine s := by
  unfold discardWrite; (try simp only [])
  first
    | (simp [apply_ite spine]; done)
    | ((repeat' split) <;> first | rfl | (simp [apply_ite spine]; done) | (simp <;> rfl; done) | (simp_all; done))

@[simp] theorem spine_upLane (t : TwinId) (key : Nat) (f : Lane → Lane) (s : Block) :
    spine (upLane t key f s) = spine s := by
  simp [upLane]

@[simp] theorem spine_highWater (t : TwinId) (s : Block) : spine (highWater t s) = spine s := by
  simp [highWater]

@[simp] theorem spine_openRec (t : TwinId) (r : CircRec) (s : Block) : spine (openRec t r s) = spine s := by
  unfold openRec; (repeat' split) <;> simp

@[simp] theorem spine_closeRec (t : TwinId) (i : Nat) (s : Block) : spine (closeRec t i s) = spine s := by
  unfold closeRec; simp only []; (repeat' split) <;> simp_all

@[simp] theorem spine_writersInc (id : Nat) (s : Block) : spine (writersInc id s) = spine s := by
  unfold writersInc; simp only []; (repeat' split) <;> simp_all

@[simp] theorem spine_writersDec (id : Nat) (s : Block) : spine (writersDec id s) = spine s := by
  unfold writersDec; simp only []; (repeat' split) <;> simp_all

@[simp] theorem spine_heldTrace (t : TwinId) (k : Nat) (node : Nat) (g : Nat) (why : Why) (s : Block) :
    spine (heldTrace t k node g why s) = spine s := by
  simp [heldTrace]

@[simp] theorem spine_holdNode (t : TwinId) (g x : Nat) (why : Why) (s : Block) :
    spine (holdNode t g x why s) = spine s := by
  unfold holdNode; (try simp only [])
  first
    | (simp [apply_ite spine]; done)
    | ((repeat' split) <;> first | rfl | (simp [apply_ite spine]; done) | (simp <;> rfl; done) | (simp_all; done))

@[simp] theorem spine_holdCopy (t : TwinId) (c : Copy) (s : Block) : spine (holdCopy t c s) = spine s := by
  simp [holdCopy]

@[simp] theorem spine_dropHead (t : TwinId) (key : Nat) (s : Block) : spine (dropHead t key s) = spine s := by
  unfold dropHead; simp only []; (repeat' split) <;> simp_all

@[simp] theorem spine_clearHeads (t : TwinId) (key f : Nat) (s : Block) : spine (clearHeads t key f s) = spine s := by
  induction f generalizing s with
  | zero => rfl
  | succ f ih =>
    unfold clearHeads
    (repeat' split) <;> simp [*]

@[simp] theorem spine_pickLanes (t : TwinId) (ks : List Nat) (s : Block) : spine (pickLanes t ks s).2 = spine s := by
  induction ks generalizing s with
  | nil => rfl
  | cons k ks ih =>
    unfold pickLanes
    try simp only []
    split <;> simp [*]

@[simp] theorem spine_pick (t : TwinId) (g : Nat) (d : Int) (s : Block) : spine (pick t g d s).2 = spine s := by
  unfold pick; (repeat' split) <;> simp

@[simp] theorem spine_rrAdvance (t : TwinId) (key : Nat) (s : Block) : spine (rrAdvance t key s) = spine s := by
  unfold rrAdvance; simp only []; (repeat' split) <;> simp_all

@[simp] theorem spine_mixApply (t : TwinId) (g : Nat) (dd : Int) (s : Block) :
    spine (mixApply t g dd s) = spine s := by
  unfold mixApply; (repeat' split) <;> simp

@[simp] theorem spine_useCtx (k : Nat) (s : Block) : spine (useCtx k s) = spine s := by
  simp [useCtx]

@[simp] theorem spine_chargeGrant (t : TwinId) (k : Nat) (g : Nat) (lc : Bool) (s : Block) :
    spine (chargeGrant t k g lc s) = spine s := by
  unfold chargeGrant; simp only []; (repeat' split) <;> simp_all

@[simp] theorem spine_grantTrace (t : TwinId) (w : GrantWord) (via : Bool) (key : Nat) (readyAt : Nat) (s : Block) :
    spine (grantTrace t w via key readyAt s) = spine s := by
  simp [grantTrace]

@[simp] theorem spine_rebakeRuns (id : Nat) (s : Block) :
    spine (rebakeRuns id s) = spine s := by
  unfold rebakeRuns; (try simp only [])
  first
    | (simp [apply_ite spine]; done)
    | ((repeat' split) <;> first | rfl | (simp [apply_ite spine]; done) | (simp <;> rfl; done) | (simp_all; done))

@[simp] theorem spine_grantNode (t : TwinId) (key x eng : Nat) (via : Bool) (s : Block) :
    spine (grantNode t key x eng via s).2.2 = spine s := by
  unfold grantNode; (try simp only [])
  first
    | (simp [apply_ite spine]; done)
    | ((repeat' split) <;> first | rfl | (simp [apply_ite spine]; done) | (simp <;> rfl; done) | (simp_all; done))

@[simp] theorem spine_grantCopy (t : TwinId) (key : Nat) (c : Copy) (eng seq : Nat) (s : Block) :
    spine (grantCopy t key c eng seq s).2 = spine s := by
  unfold grantCopy; (try simp only [])
  first
    | (simp [apply_ite spine]; done)
    | ((repeat' split) <;> first | rfl | (simp [apply_ite spine]; done) | (simp <;> rfl; done) | (simp_all; done))

@[simp] theorem spine_drive (t : TwinId) (w : GrantWord) (s : Block) : spine (drive t w s) = spine s := by
  unfold drive; simp only []; (repeat' split) <;> simp_all

@[simp] theorem spine_upClaim (e : Nat) (seq : Nat) (f : Claim → Claim) (s : Block) :
    spine (upClaim e seq f s) = spine s := by
  simp [upClaim]

@[simp] theorem spine_dropClaim (e : Nat) (seq : Nat) (s : Block) : spine (dropClaim e seq s) = spine s := by
  simp [dropClaim]

@[simp] theorem spine_countMix (t : TwinId) (g load : Nat) (s : Block) :
    spine (countMix t g load s) = spine s := by
  unfold countMix; (try simp only [])
  first
    | (simp [apply_ite spine]; done)
    | ((repeat' split) <;> first | rfl | (simp [apply_ite spine]; done) | (simp <;> rfl; done) | (simp_all; done))

@[simp] theorem spine_grantLocal (t : TwinId) (key e seq : Nat) (s : Block) :
    spine (grantLocal t key e seq s) = spine s := by
  unfold grantLocal; (try simp only [])
  first
    | (simp [apply_ite spine]; done)
    | ((repeat' split) <;> first | rfl | (simp [apply_ite spine]; done) | (simp <;> rfl; done) | (simp_all; done))

@[simp] theorem spine_grantOrWait (t : TwinId) (key : Nat) (e : Nat) (seq : Nat) (s : Block) :
    spine (grantOrWait t key e seq s) = spine s := by
  unfold grantOrWait; (repeat' split) <;> simp

@[simp] theorem spine_tryServe (t : TwinId) (e : Nat) (seq : Nat) (c : Claim) (s : Block) :
    spine (tryServe t e seq c s) = spine s := by
  unfold tryServe
  try simp only []
  have hp := spine_pick t ((groupOf e).getD 0) (mapGet 0 (tw s t).rack.mix ((groupOf e).getD 0)) s
  (repeat' split) <;> simp_all

@[simp] theorem spine_tryOldest (e : Nat) (s : Block) : spine (tryOldest e s) = spine s := by
  unfold tryOldest; simp only []; (repeat' split) <;> simp_all

@[simp] theorem spine_resample (e : Nat) (s : Block) : spine (resample e s) = spine s := by
  unfold resample; (repeat' split) <;> simp

@[simp] theorem spine_countHeld (e seq : Nat) (s : Block) :
    spine (countHeld e seq s) = spine s := by
  unfold countHeld; (try simp only [])
  first
    | (simp [apply_ite spine]; done)
    | ((repeat' split) <;> first | rfl | (simp [apply_ite spine]; done) | (simp <;> rfl; done) | (simp_all; done))

@[simp] theorem spine_deskErr (t : TwinId) (bit : Nat) (e : Nat) (node : Nat) (s : Block) :
    spine (deskErr t bit e node s) = spine s := by
  simp [deskErr]

@[simp] theorem spine_claimWord (p w : Nat) (s : Block) :
    spine (claimWord p w s) = spine s := by
  unfold claimWord; (try simp only [])
  first
    | (simp [apply_ite spine]; done)
    | ((repeat' split) <;> first | rfl | (simp [apply_ite spine]; done) | (simp <;> rfl; done) | (simp_all; done))

@[simp] theorem spine_grantForwarded (t : TwinId) (key e tag : Nat) (s : Block) :
    spine (grantForwarded t key e tag s) = spine s := by
  unfold grantForwarded; (try simp only [])
  first
    | (simp [apply_ite spine]; done)
    | ((repeat' split) <;> first | rfl | (simp [apply_ite spine]; done) | (simp <;> rfl; done) | (simp_all; done))

@[simp] theorem spine_decline (t : TwinId) (e tag : Nat) (s : Block) :
    spine (decline t e tag s) = spine s := by
  unfold decline; (try simp only [])
  first
    | (simp [apply_ite spine]; done)
    | ((repeat' split) <;> first | rfl | (simp [apply_ite spine]; done) | (simp <;> rfl; done) | (simp_all; done))

@[simp] theorem spine_fwdClaimAt (t : TwinId) (e : Nat) (g : Nat) (d : Int) (tag : Nat) (s : Block) :
    spine (fwdClaimAt t e g d tag s) = spine s := by
  unfold fwdClaimAt
  have hp := spine_pick t g d s
  (repeat' split) <;> simp_all

@[simp] theorem spine_claimGoesOn (t : TwinId) (key e seq : Nat) (s : Block) :
    spine (claimGoesOn t key e seq s) = spine s := by
  unfold claimGoesOn; (try simp only [])
  first
    | (simp [apply_ite spine]; done)
    | ((repeat' split) <;> first | rfl | (simp [apply_ite spine]; done) | (simp <;> rfl; done) | (simp_all; done))

@[simp] theorem spine_forwardedGoesOn (t : TwinId) (key : Nat) (f : FwdClaim) (s : Block) :
    spine (forwardedGoesOn t key f s) = spine s := by
  unfold forwardedGoesOn; (try simp only [])
  first
    | (simp [apply_ite spine]; done)
    | ((repeat' split) <;> first | rfl | (simp [apply_ite spine]; done) | (simp <;> rfl; done) | (simp_all; done))

@[simp] theorem spine_laneRefill (t : TwinId) (key : Nat) (s : Block) :
    spine (laneRefill t key s) = spine s := by
  unfold laneRefill; (try simp only [])
  first
    | (simp [apply_ite spine]; done)
    | ((repeat' split) <;> first | rfl | (simp [apply_ite spine]; done) | (simp <;> rfl; done) | (simp_all; done))

@[simp] theorem spine_declineAt (t : TwinId) (e tag newer : Nat) (s : Block) :
    spine (declineAt t e tag newer s) = spine s := by
  unfold declineAt; (try simp only [])
  first
    | (simp [apply_ite spine]; done)
    | ((repeat' split) <;> first | rfl | (simp [apply_ite spine]; done) | (simp <;> rfl; done) | (simp_all; done))

@[simp] theorem spine_sendReturn (t : TwinId) (node gen : Nat) (fenced : Bool) (s : Block) :
    spine (sendReturn t node gen fenced s) = spine s := by
  unfold sendReturn; (try simp only [])
  first
    | (simp [apply_ite spine]; done)
    | ((repeat' split) <;> first | rfl | (simp [apply_ite spine]; done) | (simp <;> rfl; done) | (simp_all; done))

@[simp] theorem spine_grantAt (t : TwinId) (w : GrantWord) (tag : Nat) (dd : Int) (load : Nat) (s : Block) :
    spine (grantAt t w tag dd load s) = spine s := by
  unfold grantAt; (try simp only [])
  first
    | (simp [apply_ite spine]; done)
    | ((repeat' split) <;> first | rfl | (simp [apply_ite spine]; done) | (simp <;> rfl; done) | (simp_all; done))

@[simp] theorem spine_returnNode (node gen : Nat) (fenced : Bool) (s : Block) :
    spine (returnNode node gen fenced s) = spine s := by
  unfold returnNode; (try simp only [])
  first
    | (simp [apply_ite spine]; done)
    | ((repeat' split) <;> first | rfl | (simp [apply_ite spine]; done) | (simp <;> rfl; done) | (simp_all; done))

@[simp] theorem spine_acceptRec (node gen : Nat) (stale : Bool) (s : Block) :
    spine (acceptRec node gen stale s) = spine s := by
  unfold acceptRec; (try simp only [])
  first
    | (simp [apply_ite spine]; done)
    | ((repeat' split) <;> first | rfl | (simp [apply_ite spine]; done) | (simp <;> rfl; done) | (simp_all; done))

@[simp] theorem spine_acceptWord (p : Nat) (e node gen : Nat) (s : Block) :
    spine (acceptWord p e node gen s) = spine s := by
  unfold acceptWord; (try simp only [])
  first
    | (simp [apply_ite spine]; done)
    | ((repeat' split) <;> first | rfl | (simp [apply_ite spine]; done) | (simp <;> rfl; done) | (simp_all; done))

@[simp] theorem spine_summaryEntry (t : TwinId) (i : Nat) (s : Block) : spine (summaryEntry t i s) = spine s := by
  unfold summaryEntry
  simp only []
  split
  · rfl
  · refine (forEach_spine _ _ _ ?_).trans ?_
    · intro p s; (repeat' split) <;> simp
    · split
      · simp
      · exact (forEach_spine _ _ _ (fun p s => by simp)).trans (by simp)

@[simp] theorem spine_countPlaced (t : TwinId) (n : Node) (g : Nat) (s : Block) :
    spine (countPlaced t n g s) = spine s := by
  unfold countPlaced; (try simp only [])
  first
    | (simp [apply_ite spine]; done)
    | ((repeat' split) <;> first | rfl | (simp [apply_ite spine]; done) | (simp <;> rfl; done) | (simp_all; done))

@[simp] theorem spine_appendLane (id g : Nat) (s : Block) :
    spine (appendLane id g s) = spine s := by
  unfold appendLane; (try simp only [])
  first
    | (simp [apply_ite spine]; done)
    | ((repeat' split) <;> first | rfl | (simp [apply_ite spine]; done) | (simp <;> rfl; done) | (simp_all; done))

@[simp] theorem spine_keepOwn (id g : Nat) (s : Block) :
    spine (keepOwn id g s) = spine s := by
  unfold keepOwn; (try simp only [])
  first
    | (simp [apply_ite spine]; done)
    | ((repeat' split) <;> first | rfl | (simp [apply_ite spine]; done) | (simp <;> rfl; done) | (simp_all; done))

@[simp] theorem spine_handOver (id g : Nat) (s : Block) :
    spine (handOver id g s) = spine s := by
  unfold handOver; (try simp only [])
  first
    | (simp [apply_ite spine]; done)
    | ((repeat' split) <;> first | rfl | (simp [apply_ite spine]; done) | (simp <;> rfl; done) | (simp_all; done))

@[simp] theorem spine_rackIn (id g : Nat) (s : Block) :
    spine (rackIn id g s) = spine s := by
  unfold rackIn; (try simp only [])
  first
    | (simp [apply_ite spine]; done)
    | ((repeat' split) <;> first | rfl | (simp [apply_ite spine]; done) | (simp <;> rfl; done) | (simp_all; done))

@[simp] theorem spine_appendCopy (t : TwinId) (c : Copy) (s : Block) :
    spine (appendCopy t c s) = spine s := by
  unfold appendCopy; (try simp only [])
  first
    | (simp [apply_ite spine]; done)
    | ((repeat' split) <;> first | rfl | (simp [apply_ite spine]; done) | (simp <;> rfl; done) | (simp_all; done))

@[simp] theorem spine_sendBack (t : TwinId) (heldToo : Bool) (p : Copy → Bool) (s : Block) :
    spine (sendBack t heldToo p s) = spine s := by
  unfold sendBack; (try simp only [])
  first
    | (simp [apply_ite spine]; done)
    | ((repeat' split) <;> first | rfl | (simp [apply_ite spine]; done) | (simp <;> rfl; done) | (simp_all; done))

@[simp] theorem spine_proxyAt (t : TwinId) (c : Copy) (s : Block) :
    spine (proxyAt t c s) = spine s := by
  unfold proxyAt; (try simp only [])
  first
    | (simp [apply_ite spine]; done)
    | ((repeat' split) <;> first | rfl | (simp [apply_ite spine]; done) | (simp <;> rfl; done) | (simp_all; done))

@[simp] theorem spine_proxyLeave (node : Nat) (g : Nat) (s : Block) : spine (proxyLeave node g s) = spine s := by
  simp [proxyLeave]

@[simp] theorem spine_releaseReservation (node : Nat) (s : Block) : spine (releaseReservation node s) = spine s := by
  unfold releaseReservation; (repeat' split) <;> simp

@[simp] theorem spine_proxyGrantAt (node gen eng : Nat) (s : Block) :
    spine (proxyGrantAt node gen eng s) = spine s := by
  unfold proxyGrantAt; (try simp only [])
  first
    | (simp [apply_ite spine]; done)
    | ((repeat' split) <;> first | rfl | (simp [apply_ite spine]; done) | (simp <;> rfl; done) | (simp_all; done))

@[simp] theorem spine_proxyRefusedAt (node : Nat) (s : Block) :
    spine (proxyRefusedAt node s) = spine s := by
  unfold proxyRefusedAt; (try simp only [])
  first
    | (simp [apply_ite spine]; done)
    | ((repeat' split) <;> first | rfl | (simp [apply_ite spine]; done) | (simp <;> rfl; done) | (simp_all; done))

@[simp] theorem spine_proxyBackAt (node : Nat) (s : Block) : spine (proxyBackAt node s) = spine s := by
  unfold proxyBackAt; (repeat' split) <;> simp

@[simp] theorem spine_retryProxy (t : TwinId) (g : Nat) (s : Block) : spine (retryProxy t g s) = spine s := by
  unfold retryProxy; (repeat' split) <;> simp

@[simp] theorem spine_holdRelease (t : TwinId) (k : Nat) (s : Block) :
    spine (holdRelease t k s) = spine s := by
  unfold holdRelease; (try simp only [])
  first
    | (simp [apply_ite spine]; done)
    | ((repeat' split) <;> first | rfl | (simp [apply_ite spine]; done) | (simp <;> rfl; done) | (simp_all; done))

@[simp] theorem spine_driveFlush (c : Nat) (ws : List Waiter) (s : Block) :
    spine (driveFlush c ws s) = spine s := by
  unfold driveFlush; (try simp only [])
  first
    | (simp [apply_ite spine]; done)
    | ((repeat' split) <;> first | rfl | (simp [apply_ite spine]; done) | (simp <;> rfl; done) | (simp_all; done))

@[simp] theorem spine_localNeed (c : Nat) (w : Waiter) (s : Block) : spine (localNeed c w s) = spine s := by
  unfold localNeed; simp only []; (repeat' split) <;> simp_all

@[simp] theorem spine_askFlush (t : TwinId) (what : Option Nat) (w : Waiter) (s : Block) :
    spine (askFlush t what w s) = spine s := by
  simp [askFlush]

@[simp] theorem spine_needFlush (t : TwinId) (c : Nat) (w : Waiter) (s : Block) :
    spine (needFlush t c w s) = spine s := by
  unfold needFlush; (repeat' split) <;> simp

@[simp] theorem spine_issueDrain (t : TwinId) (ws : List Waiter) (s : Block) :
    spine (issueDrain t ws s) = spine s := by
  unfold issueDrain; simp only []; (repeat' split) <;> simp_all

@[simp] theorem spine_needDrain (t : TwinId) (w : Waiter) (s : Block) : spine (needDrain t w s) = spine s := by
  unfold needDrain; (repeat' split) <;> simp

@[simp] theorem spine_endDrain (t : TwinId) (ok : Bool) (s : Block) : spine (endDrain t ok s) = spine s := by
  unfold endDrain; simp only []; (repeat' split) <;> simp_all

@[simp] theorem spine_endFlush (c : Nat) (ok : Bool) (s : Block) : spine (endFlush c ok s) = spine s := by
  unfold endFlush; simp only []; (repeat' split) <;> simp_all

@[simp] theorem spine_flushAckRead (c : Nat) (answer : Option Nat) (s : Block) :
    spine (flushAckRead c answer s) = spine s := by
  unfold flushAckRead; simp only []; (repeat' split) <;> simp_all

@[simp] theorem spine_flushRetry (c : Nat) (s : Block) : spine (flushRetry c s) = spine s := by
  unfold flushRetry; simp only []; (repeat' split) <;> simp_all

@[simp] theorem spine_drainRetry (t : TwinId) (s : Block) : spine (drainRetry t s) = spine s := by
  unfold drainRetry; simp only []; (repeat' split) <;> simp_all

@[simp] theorem spine_drainAnswer (t : TwinId) (point : DrainPoint) (ok : Bool) (s : Block) :
    spine (drainAnswer t point ok s) = spine s := by
  unfold drainAnswer; simp only []; (repeat' split) <;> simp_all

@[simp] theorem spine_flushReqAt (t : TwinId) (what : Option Nat) (tag : Nat) (s : Block) :
    spine (flushReqAt t what tag s) = spine s := by
  unfold flushReqAt; simp only []; (repeat' split) <;> simp_all

@[simp] theorem spine_flushDoneAt (t : TwinId) (tag : Nat) (timeout : Bool) (s : Block) :
    spine (flushDoneAt t tag timeout s) = spine s := by
  unfold flushDoneAt; (repeat' split) <;> simp

@[simp] theorem spine_remoteAllEnd (t : TwinId) (tag : Nat) (ok : Bool) (s : Block) :
    spine (remoteAllEnd t tag ok s) = spine s := by
  unfold remoteAllEnd; (repeat' split) <;> simp

@[simp] theorem spine_upShard (shard : Nat) (f : Shard → Shard) (s : Block) :
    spine (upShard shard f s) = spine s := by
  simp [upShard]

@[simp] theorem spine_setLoc (t : TwinId) (shard : Nat) (w : Nat) (s : Block) :
    spine (setLoc t shard w s) = spine s := by
  simp [setLoc]

@[simp] theorem spine_publish (shard : Nat) (alloc : Bool) (s : Block) : spine (publish shard alloc s) = spine s := by
  unfold publish; simp only []; (repeat' split) <;> simp_all

@[simp] theorem spine_shelfFault (t : TwinId) (k : Nat) (code : Nat) (shard : Nat) (node : Nat) (s : Block) :
    spine (shelfFault t k code shard node s) = spine s := by
  simp [shelfFault]

@[simp] theorem spine_upWait (t : TwinId) (i : Nat) (f : WaitEnt → WaitEnt) (s : Block) :
    spine (upWait t i f s) = spine s := by
  simp [upWait]

@[simp] theorem spine_linkInsWait (id : Nat) (s : Block) :
    spine (linkInsWait id s) = spine s := by
  unfold linkInsWait; (try simp only [])
  first
    | (simp [apply_ite spine]; done)
    | ((repeat' split) <;> first | rfl | (simp [apply_ite spine]; done) | (simp <;> rfl; done) | (simp_all; done))

@[simp] theorem spine_waitOn (id : Nat) (shard : Nat) (s : Block) : spine (waitOn id shard s) = spine s := by
  unfold waitOn; simp only []; (repeat' split) <;> simp_all

@[simp] theorem spine_moveTrace (t : TwinId) (k : Nat) (ends : Bool) (shard src code copy : Nat) (s : Block) :
    spine (moveTrace t k ends shard src code copy s) = spine s := by
  unfold moveTrace; (try simp only [])
  first
    | (simp [apply_ite spine]; done)
    | ((repeat' split) <;> first | rfl | (simp [apply_ite spine]; done) | (simp <;> rfl; done) | (simp_all; done))

@[simp] theorem spine_startMove (m : MoveWant) (i x : Nat) (s : Block) :
    spine (startMove m i x s) = spine s := by
  unfold startMove; (try simp only [])
  first
    | (simp [apply_ite spine]; done)
    | ((repeat' split) <;> first | rfl | (simp [apply_ite spine]; done) | (simp <;> rfl; done) | (simp_all; done))

@[simp] theorem spine_freeCopy (t : TwinId) (copy : Nat) (s : Block) :
    spine (freeCopy t copy s) = spine s := by
  unfold freeCopy; (try simp only [])
  first
    | (simp [apply_ite spine]; done)
    | ((repeat' split) <;> first | rfl | (simp [apply_ite spine]; done) | (simp <;> rfl; done) | (simp_all; done))

@[simp] theorem spine_decideMove (m : MoveWant) (s : Block) : spine (decideMove m s) = spine s := by
  unfold decideMove; (repeat' split) <;> simp

@[simp] theorem spine_sealCopy (shard : Nat) (s : Block) : spine (sealCopy shard s) = spine s := by
  unfold sealCopy; simp only []; (repeat' split) <;> simp_all

@[simp] theorem spine_upMove (shard : Nat) (f : Move → Move) (s : Block) : spine (upMove shard f s) = spine s := by
  simp [upMove]

@[simp] theorem spine_dropMove (shard : Nat) (s : Block) : spine (dropMove shard s) = spine s := by
  simp [dropMove]

@[simp] theorem spine_releaseWaiters (t : TwinId) (shard : Nat) (s : Block) :
    spine (releaseWaiters t shard s) = spine s := by
  unfold releaseWaiters; (try simp only [])
  first
    | (simp [apply_ite spine]; done)
    | ((repeat' split) <;> first | rfl | (simp [apply_ite spine]; done) | (simp <;> rfl; done) | (simp_all; done))

@[simp] theorem spine_larderCredit (t : TwinId) (k : Nat) (g : Nat) (src : Nat) (s : Block) :
    spine (larderCredit t k g src s) = spine s := by
  simp [larderCredit]

@[simp] theorem spine_endMove (shard : Nat) (s : Block) :
    spine (endMove shard s) = spine s := by
  unfold endMove; (try simp only [])
  first
    | (simp [apply_ite spine]; done)
    | ((repeat' split) <;> first | rfl | (simp [apply_ite spine]; done) | (simp <;> rfl; done) | (simp_all; done))

@[simp] theorem spine_failMove (shard : Nat) (unsealed : Bool) (s : Block) :
    spine (failMove shard unsealed s) = spine s := by
  unfold failMove; (try simp only [])
  first
    | (simp [apply_ite spine]; done)
    | ((repeat' split) <;> first | rfl | (simp [apply_ite spine]; done) | (simp <;> rfl; done) | (simp_all; done))

@[simp] theorem spine_descAnswer (shard : Nat) (ok : Bool) (s : Block) : spine (descAnswer shard ok s) = spine s := by
  unfold descAnswer; (repeat' split) <;> simp

@[simp] theorem spine_moveReqAt (shard base dest : Nat) (lc : Bool) (level : Nat) (load : Bool) (s : Block) :
    spine (moveReqAt shard base dest lc level load s) = spine s := by
  unfold moveReqAt; (try simp only [])
  first
    | (simp [apply_ite spine]; done)
    | ((repeat' split) <;> first | rfl | (simp [apply_ite spine]; done) | (simp <;> rfl; done) | (simp_all; done))

@[simp] theorem spine_locAt (t : TwinId) (shard : Nat) (code : Nat) (k : Nat) (hi : Option Nat) (s : Block) :
    spine (locAt t shard code k hi s) = spine s := by
  unfold locAt; (repeat' split) <;> simp

@[simp] theorem spine_writerIncAt (shard : Nat) (s : Block) : spine (writerIncAt shard s) = spine s := by
  unfold writerIncAt; (repeat' split) <;> simp

@[simp] theorem spine_writerDecAt (shard : Nat) (s : Block) : spine (writerDecAt shard s) = spine s := by
  unfold writerDecAt; simp only []; (repeat' split) <;> simp_all

@[simp] theorem spine_appendTo (id g : Nat) (s : Block) :
    spine (appendTo id g s) = spine s := by
  unfold appendTo; (try simp only [])
  first
    | (simp [apply_ite spine]; done)
    | ((repeat' split) <;> first | rfl | (simp [apply_ite spine]; done) | (simp <;> rfl; done) | (simp_all; done))

@[simp] theorem spine_requestMove (id shard dest : Nat) (forLoad : Bool) (s : Block) :
    spine (requestMove id shard dest forLoad s) = spine s := by
  unfold requestMove; (try simp only [])
  first
    | (simp [apply_ite spine]; done)
    | ((repeat' split) <;> first | rfl | (simp [apply_ite spine]; done) | (simp <;> rfl; done) | (simp_all; done))

@[simp] theorem spine_place (id : Nat) (released again : Bool) (s : Block) :
    spine (place id released again s) = spine s := by
  unfold place; (try simp only [])
  first
    | (simp [apply_ite spine]; done)
    | ((repeat' split) <;> first | rfl | (simp [apply_ite spine]; done) | (simp <;> rfl; done) | (simp_all; done))

@[simp] theorem spine_retryMove (m : MoveWant) (s : Block) :
    spine (retryMove m s) = spine s := by
  unfold retryMove; (try simp only [])
  first
    | (simp [apply_ite spine]; done)
    | ((repeat' split) <;> first | rfl | (simp [apply_ite spine]; done) | (simp <;> rfl; done) | (simp_all; done))

@[simp] theorem spine_retryMoves (t : TwinId) (s : Block) :
    spine (retryMoves t s) = spine s := by
  unfold retryMoves; (try simp only [])
  first
    | (simp [apply_ite spine]; done)
    | ((repeat' split) <;> first | rfl | (simp [apply_ite spine]; done) | (simp <;> rfl; done) | (simp_all; done))

@[simp] theorem spine_retryWaits (t : TwinId) (s : Block) :
    spine (retryWaits t s) = spine s := by
  unfold retryWaits; (try simp only [])
  first
    | (simp [apply_ite spine]; done)
    | ((repeat' split) <;> first | rfl | (simp [apply_ite spine]; done) | (simp <;> rfl; done) | (simp_all; done))

@[simp] theorem spine_setShardStat (k : Nat) (st : Nat) (s : Block) : spine (setShardStat k st s) = spine s := by
  simp [setShardStat]

@[simp] theorem spine_shardCmd (k : Nat) (f : Nat → Block → Block) (s : Block) (h : ∀ x s, spine (f x s) = spine s) :
    spine (shardCmd k f s) = spine s := by
  unfold shardCmd; simp only []; (repeat' split) <;> simp [h]

@[simp] theorem spine_shardChange (k : Nat) (f : Nat → Block → Block) (s : Block) (h : ∀ x s, spine (f x s) = spine s) :
    spine (shardChange k f s) = spine s := by
  unfold shardChange; split
  · exact spine_shardCmd k f s h
  · rfl

@[simp] theorem spine_shardAlloc (k cluster : Nat) (toCluster pin : Bool) (s : Block) :
    spine (shardAlloc k cluster toCluster pin s) = spine s := by
  unfold shardAlloc
  exact spine_shardChange k _ s (fun x s => by simp only []; (repeat' split) <;> simp)

@[simp] theorem spine_shardFree (k : Nat) (s : Block) : spine (shardFree k s) = spine s := by
  unfold shardFree
  exact spine_shardChange k _ s (fun x s => by simp only []; (repeat' split) <;> simp)

@[simp] theorem spine_shardMove (k cluster : Nat) (toCluster : Bool) (s : Block) :
    spine (shardMove k cluster toCluster s) = spine s := by
  unfold shardMove
  exact spine_shardChange k _ s (fun x s => by simp only []; (repeat' split) <;> simp)

@[simp] theorem spine_shardQuery (k : Nat) (s : Block) : spine (shardQuery k s) = spine s := by
  unfold shardQuery
  exact spine_shardCmd k _ s (fun x s => by simp)

@[simp] theorem spine_sweepLanes (t : TwinId) (p : Nat → Bool) (mine : Nat → Bool) (s : Block) :
    spine (sweepLanes t p mine s) = spine s := by
  simp [sweepLanes]

@[simp] theorem spine_evacuate (t : TwinId) (evac : Bool) (p : Shard → Bool) (s : Block) :
    spine (evacuate t evac p s) = spine s := by
  unfold evacuate; (try simp only [])
  first
    | (simp [apply_ite spine]; done)
    | ((repeat' split) <;> first | rfl | (simp [apply_ite spine]; done) | (simp <;> rfl; done) | (simp_all; done))

@[simp] theorem spine_replaceUnplaced (t : TwinId) (k : Nat) (s : Block) :
    spine (replaceUnplaced t k s) = spine s := by
  simp [replaceUnplaced]

@[simp] theorem spine_partitionChange (k : Nat) (gained : Bool) (s : Block) :
    spine (partitionChange k gained s) = spine s := by
  have one : ∀ (t : TwinId) (p : Nat → Bool) (q : Nat → Bool) (e : Shard → Bool) (s : Block),
      spine (if gained then replaceUnplaced t k (evacuate t false e (sweepLanes t p q s))
        else evacuate t false e (sweepLanes t p q s)) = spine s := by
    intro t p q e s
    split <;> simp
  unfold partitionChange
  simp only [spine_emit, one]

@[simp] theorem spine_sweepGroup (t : TwinId) (g : Nat) (s : Block) :
    spine (sweepGroup t g s) = spine s := by
  unfold sweepGroup; (try simp only [])
  first
    | (simp [apply_ite spine]; done)
    | ((repeat' split) <;> first | rfl | (simp [apply_ite spine]; done) | (simp <;> rfl; done) | (simp_all; done))

@[simp] theorem spine_removeEngine (e : Nat) (s : Block) : spine (removeEngine e s) = spine s := by
  have one : ∀ (l : List Task) (t : TwinId) (s : Block), spine (forEach l (fun k s =>
      if homeOf k.node = t then returnNode k.node k.gen false s else sendReturn t k.node k.gen false s) s) = spine s :=
    fun l t s => forEach_spine _ _ _ (fun k s => by split <;> simp)
  unfold removeEngine; simp only []
  (repeat' split) <;> simp [one]

@[simp] theorem spine_replaceFor (t : TwinId) (g : Nat) (s : Block) :
    spine (replaceFor t g s) = spine s := by
  unfold replaceFor; (try simp only [])
  first
    | (simp [apply_ite spine]; done)
    | ((repeat' split) <;> first | rfl | (simp [apply_ite spine]; done) | (simp <;> rfl; done) | (simp_all; done))

@[simp] theorem spine_groupUpAt (t : TwinId) (g : Nat) (s : Block) :
    spine (groupUpAt t g s) = spine s := by
  unfold groupUpAt; (try simp only [])
  first
    | (simp [apply_ite spine]; done)
    | ((repeat' split) <;> first | rfl | (simp [apply_ite spine]; done) | (simp <;> rfl; done) | (simp_all; done))

@[simp] theorem spine_restoreEngine (e : Nat) (s : Block) :
    spine (restoreEngine e s) = spine s := by
  unfold restoreEngine; (try simp only [])
  first
    | (simp [apply_ite spine]; done)
    | ((repeat' split) <;> first | rfl | (simp [apply_ite spine]; done) | (simp <;> rfl; done) | (simp_all; done))

@[simp] theorem spine_serviceAt (t : TwinId) (g : Nat) (up : Bool) (s : Block) :
    spine (serviceAt t g up s) = spine s := by
  unfold serviceAt; (try simp only [])
  first
    | (simp [apply_ite spine]; done)
    | ((repeat' split) <;> first | rfl | (simp [apply_ite spine]; done) | (simp <;> rfl; done) | (simp_all; done))

@[simp] theorem spine_engineCtl (t : TwinId) (restore wholePort : Bool) (e : Nat) (s : Block) :
    spine (engineCtl t restore wholePort e s) = spine s := by
  unfold engineCtl; (try simp only [])
  first
    | (simp [apply_ite spine]; done)
    | ((repeat' split) <;> first | rfl | (simp [apply_ite spine]; done) | (simp <;> rfl; done) | (simp_all; done))

@[simp] theorem spine_acceptTimeout (e : Nat) (s : Block) : spine (acceptTimeout e s) = spine s := by
  unfold acceptTimeout; simp only []; (repeat' split) <;> simp_all

end Sys2Proof.Machine
end

