-- ==== Sys2Proof/Laws/SpineB.lean ====
section
/-! SUPPORT. What the operations leave alone of the block's spine: the Sorter to the notifier. One lemma per operation. -/

namespace Sys2Proof.Machine

set_option maxRecDepth 8000

@[simp] theorem spine_upSort (t : TwinId) (f : Sorter → Sorter) (s : Block) : spine (upSort t f s) = spine s := by
  simp [upSort]

@[simp] theorem spine_setBatch (t : TwinId) (x : Nat) (b : Batch) (s : Block) :
    spine (setBatch t x b s) = spine s := by
  simp [setBatch]

@[simp] theorem spine_batchAt (t : TwinId) (i k : Nat) (news : SlotNews) (s : Block) :
    spine (batchAt t i k news s) = spine s := by
  unfold batchAt; (try simp only [])
  first
    | (simp [apply_ite spine]; done)
    | ((repeat' split) <;> first | rfl | (simp [apply_ite spine]; done) | (simp <;> rfl; done) | (simp_all; done))

@[simp] theorem spine_mirrorBatch (t : TwinId) (x k : Nat) (news : SlotNews) (epoch : Nat) (s : Block) :
    spine (mirrorBatch t x k news epoch s) = spine s := by
  unfold mirrorBatch; (try simp only [])
  first
    | (simp [apply_ite spine]; done)
    | ((repeat' split) <;> first | rfl | (simp [apply_ite spine]; done) | (simp <;> rfl; done) | (simp_all; done))

@[simp] theorem spine_upDeferred (t : TwinId) (p : Deferred → Bool) (f : Deferred → Deferred) (s : Block) :
    spine (upDeferred t p f s) = spine s := by
  simp [upDeferred]

@[simp] theorem spine_recheckSlot (sel : Nat) (s : Block) :
    spine (recheckSlot sel s) = spine s := by
  unfold recheckSlot; (try simp only [])
  first
    | (simp [apply_ite spine]; done)
    | ((repeat' split) <;> first | rfl | (simp [apply_ite spine]; done) | (simp <;> rfl; done) | (simp_all; done))

@[simp] theorem spine_finishDeferred (t : TwinId) (id : Nat) (s : Block) :
    spine (finishDeferred t id s) = spine s := by
  unfold finishDeferred; (try simp only [])
  first
    | (simp [apply_ite spine]; done)
    | ((repeat' split) <;> first | rfl | (simp [apply_ite spine]; done) | (simp <;> rfl; done) | (simp_all; done))

@[simp] theorem spine_unpark (t : TwinId) (node : Nat) (gen : Nat) (s : Block) :
    spine (unpark t node gen s) = spine s := by
  unfold unpark; (repeat' split) <;> simp

@[simp] theorem spine_openSlot (t : TwinId) (x : Nat) (b : Batch) (s : Block) :
    spine (openSlot t x b s) = spine s := by
  unfold openSlot; (try simp only [])
  first
    | (simp [apply_ite spine]; done)
    | ((repeat' split) <;> first | rfl | (simp [apply_ite spine]; done) | (simp <;> rfl; done) | (simp_all; done))

@[simp] theorem spine_openBatch (t : TwinId) (route : Nat) (gen : Nat) (k : Nat) (cluster : Nat) (s : Block) :
    spine (openBatch t route gen k cluster s) = spine s := by
  unfold openBatch; (repeat' split) <;> simp

@[simp] theorem spine_takeParked (t : TwinId) (s : Block) : spine (takeParked t s) = spine s := by
  unfold takeParked; (repeat' split) <;> simp

@[simp] theorem spine_freeSlot (t : TwinId) (x : Nat) (s : Block) :
    spine (freeSlot t x s) = spine s := by
  unfold freeSlot; (try simp only [])
  first
    | (simp [apply_ite spine]; done)
    | ((repeat' split) <;> first | rfl | (simp [apply_ite spine]; done) | (simp <;> rfl; done) | (simp_all; done))

@[simp] theorem spine_freeCheck (t : TwinId) (x : Nat) (s : Block) : spine (freeCheck t x s) = spine s := by
  unfold freeCheck; simp only []; (repeat' split) <;> simp_all

@[simp] theorem spine_startScores (t : TwinId) (x : Nat) (s : Block) : spine (startScores t x s) = spine s := by
  unfold startScores; simp only []; (repeat' split) <;> simp_all

@[simp] theorem spine_headerReadDone (t : TwinId) (x : Nat) (header : List Nat) (s : Block) :
    spine (headerReadDone t x header s) = spine s := by
  unfold headerReadDone; simp only []; (repeat' split) <;> simp_all

@[simp] theorem spine_batchFlushed (t : TwinId) (id : Nat) (s : Block) : spine (batchFlushed t id s) = spine s := by
  unfold batchFlushed; (repeat' split) <;> simp

@[simp] theorem spine_writeLines (t : TwinId) (addr : Nat) (words : List Nat) (s : Block) :
    spine (writeLines t addr words s) = spine s := by
  simp [writeLines]

@[simp] theorem spine_settleSelection (t : TwinId) (x : Nat) (s : Block) :
    spine (settleSelection t x s) = spine s := by
  simp [settleSelection]

@[simp] theorem spine_scoreReadDone (t : TwinId) (x : Nat) (line : Nat) (scores : List Nat) (s : Block) :
    spine (scoreReadDone t x line scores s) = spine s := by
  unfold scoreReadDone; simp only []; (repeat' split) <;> simp_all

@[simp] theorem spine_sendResolved (t : TwinId) (cs : List Credit) (s : Block) :
    spine (sendResolved t cs s) = spine s := by
  unfold sendResolved; (try simp only [])
  first
    | (simp [apply_ite spine]; done)
    | ((repeat' split) <;> first | rfl | (simp [apply_ite spine]; done) | (simp <;> rfl; done) | (simp_all; done))

@[simp] theorem spine_resolveBatch (t : TwinId) (x : Nat) (s : Block) : spine (resolveBatch t x s) = spine s := by
  unfold resolveBatch; simp only []; (repeat' split) <;> simp_all

@[simp] theorem spine_selectionWriteAck (t : TwinId) (x : Nat) (s : Block) :
    spine (selectionWriteAck t x s) = spine s := by
  unfold selectionWriteAck; simp only []; (repeat' split) <;> simp_all

@[simp] theorem spine_handEdge (t : TwinId) (gen : Nat) (c : Credit) (s : Block) :
    spine (handEdge t gen c s) = spine s := by
  unfold handEdge; (repeat' split) <;> simp

@[simp] theorem spine_listEnd (t : TwinId) (route : Nat) (gen : Nat) (s : Block) :
    spine (listEnd t route gen s) = spine s := by
  unfold listEnd; (repeat' split) <;> simp

@[simp] theorem spine_unboundAt (sel : Nat) (s : Block) :
    spine (unboundAt sel s) = spine s := by
  unfold unboundAt; (try simp only [])
  first
    | (simp [apply_ite spine]; done)
    | ((repeat' split) <;> first | rfl | (simp [apply_ite spine]; done) | (simp <;> rfl; done) | (simp_all; done))

@[simp] theorem spine_cancelSlots (t : TwinId) (k : Nat) (s : Block) :
    spine (cancelSlots t k s) = spine s := by
  unfold cancelSlots; (try simp only [])
  first
    | (simp [apply_ite spine]; done)
    | ((repeat' split) <;> first | rfl | (simp [apply_ite spine]; done) | (simp <;> rfl; done) | (simp_all; done))

@[simp] theorem spine_sortCancel (k : Nat) (s : Block) : spine (sortCancel k s) = spine s := by
  unfold sortCancel; simp only []; (repeat' split) <;> simp_all

@[simp] theorem spine_cancelIn (t : TwinId) (k : Nat) (s : Block) :
    spine (cancelIn t k s) = spine s := by
  unfold cancelIn; (try simp only [])
  first
    | (simp [apply_ite spine]; done)
    | ((repeat' split) <;> first | rfl | (simp [apply_ite spine]; done) | (simp <;> rfl; done) | (simp_all; done))

@[simp] theorem spine_cancelBatches (k : Nat) (s : Block) :
    spine (cancelBatches k s) = spine s := by
  unfold cancelBatches; (try simp only [])
  first
    | (simp [apply_ite spine]; done)
    | ((repeat' split) <;> first | rfl | (simp [apply_ite spine]; done) | (simp <;> rfl; done) | (simp_all; done))

@[simp] theorem spine_sortFence (t : TwinId) (k : Nat) (s : Block) : spine (sortFence t k s) = spine s := by
  simp [sortFence]

@[simp] theorem spine_routeIo (t : TwinId) (x : Nat) (which : RouteAccess) (s : Block) :
    spine (routeIo t x which s) = spine s := by
  unfold routeIo; simp only []; (repeat' split) <;> simp_all

@[simp] theorem spine_freeNode (id : Nat) (s : Block) :
    spine (freeNode id s) = spine s := by
  unfold freeNode; (try simp only [])
  first
    | (simp [apply_ite spine]; done)
    | ((repeat' split) <;> first | rfl | (simp [apply_ite spine]; done) | (simp <;> rfl; done) | (simp_all; done))

@[simp] theorem spine_chargeKept (k : Nat) (cls : Nat) (n : Nat) (s : Block) :
    spine (chargeKept k cls n s) = spine s := by
  simp [chargeKept]

@[simp] theorem spine_chargeSpilled (k : Nat) (cls : Nat) (n : Nat) (s : Block) :
    spine (chargeSpilled k cls n s) = spine s := by
  simp [chargeSpilled]

@[simp] theorem spine_lardFault (t : TwinId) (k : Nat) (code : Nat) (reason : Nat) (node : Nat) (s : Block) :
    spine (lardFault t k code reason node s) = spine s := by
  simp [lardFault]

@[simp] theorem spine_gMarkAt (g : Nat) (stash : Nat) (spilled : Bool) (pend : Bool) (s : Block) :
    spine (gMarkAt g stash spilled pend s) = spine s := by
  unfold gMarkAt; simp only []; (repeat' split) <;> simp_all

@[simp] theorem spine_upEntry (t : TwinId) (i : Nat) (f : Rebake → Rebake) (s : Block) :
    spine (upEntry t i f s) = spine s := by
  simp [upEntry]

@[simp] theorem spine_makeRebake (t : TwinId) (o : Offer) (g : GInfo) (ins : List Nat) (i x : Nat) (s : Block) :
    spine (makeRebake t o g ins i x s) = spine s := by
  unfold makeRebake; (try simp only [])
  first
    | (simp [apply_ite spine]; done)
    | ((repeat' split) <;> first | rfl | (simp [apply_ite spine]; done) | (simp <;> rfl; done) | (simp_all; done))

@[simp] theorem spine_triggerAt (t : TwinId) (g : Nat) (k : Nat) (s : Block) :
    spine (triggerAt t g k s) = spine s := by
  unfold triggerAt; (repeat' split) <;> simp

@[simp] theorem spine_dropEntry (t : TwinId) (i : Nat) (s : Block) : spine (dropEntry t i s) = spine s := by
  simp [dropEntry]

@[simp] theorem spine_sendMark (t : TwinId) (g : Nat) (stash : Nat) (spilled : Bool) (pend : Bool) (s : Block) :
    spine (sendMark t g stash spilled pend s) = spine s := by
  simp [sendMark]

@[simp] theorem spine_sendAnswer (t : TwinId) (o : Offer) (send : Bool) (consumers : List Nat) (s : Block) :
    spine (sendAnswer t o send consumers s) = spine s := by
  simp [sendAnswer]

@[simp] theorem spine_lardTrace (t : TwinId) (o : Offer) (code : Nat) (s : Block) :
    spine (lardTrace t o code s) = spine s := by
  simp [lardTrace]

@[simp] theorem spine_declareStash (t : TwinId) (o : Offer) (g : GInfo) (s : Block) :
    spine (declareStash t o g s).2 = spine s := by
  unfold declareStash; (repeat' split) <;> simp

@[simp] theorem spine_keepStash (t : TwinId) (o : Offer) (consumers : List Nat) (s : Block) :
    spine (keepStash t o consumers s) = spine s := by
  simp [keepStash]

@[simp] theorem spine_spillStash (t : TwinId) (o : Offer) (g : GInfo) (declared answered forced : Bool) (s : Block) :
    spine (spillStash t o g declared answered forced s) = spine s := by
  unfold spillStash; (try simp only [])
  first
    | (simp [apply_ite spine]; done)
    | ((repeat' split) <;> first | rfl | (simp [apply_ite spine]; done) | (simp <;> rfl; done) | (simp_all; done))

@[simp] theorem spine_keepRebake (t : TwinId) (o : Offer) (s : Block) : spine (keepRebake t o s) = spine s := by
  unfold keepRebake; simp only []; (repeat' split) <;> simp_all

@[simp] theorem spine_decideRebake (t : TwinId) (o : Offer) (g : GInfo) (declared : Bool) (s : Block) :
    spine (decideRebake t o g declared s) = spine s := by
  unfold decideRebake; simp only []; (repeat' split) <;> simp_all

@[simp] theorem spine_nextOffer (t : TwinId) (k : Nat) (s : Block) : spine (nextOffer t k s) = spine s := by
  unfold nextOffer; simp only []; (repeat' split) <;> simp_all

@[simp] theorem spine_decideOffer (t : TwinId) (k : Nat) (o : Offer) (answered : Bool) (g : GInfo) (s : Block) :
    spine (decideOffer t k o answered g s) = spine s := by
  unfold decideOffer; (try simp only [])
  first
    | (simp [apply_ite spine]; done)
    | ((repeat' split) <;> first | rfl | (simp [apply_ite spine]; done) | (simp <;> rfl; done) | (simp_all; done))

@[simp] theorem spine_takeOffer (t : TwinId) (k : Nat) (s : Block) : spine (takeOffer t k s) = spine s := by
  unfold takeOffer; (repeat' split) <;> simp

@[simp] theorem spine_offerAt (t : TwinId) (o : Offer) (s : Block) : spine (offerAt t o s) = spine s := by
  unfold offerAt; simp only []; (repeat' split) <;> simp_all

@[simp] theorem spine_gDataAt (t : TwinId) (k : Nat) (g : GInfo) (s : Block) : spine (gDataAt t k g s) = spine s := by
  unfold gDataAt; (repeat' split) <;> simp

@[simp] theorem spine_releaseAt (t : TwinId) (g : Nat) (k : Nat) (stash : Nat) (spilled : Bool) (cls : Nat) (s : Block) :
    spine (releaseAt t g k stash spilled cls s) = spine s := by
  unfold releaseAt; (repeat' split) <;> simp

@[simp] theorem spine_lardClear (t : TwinId) (k : Nat) (s : Block) :
    spine (lardClear t k s) = spine s := by
  unfold lardClear; (try simp only [])
  first
    | (simp [apply_ite spine]; done)
    | ((repeat' split) <;> first | rfl | (simp [apply_ite spine]; done) | (simp <;> rfl; done) | (simp_all; done))

@[simp] theorem spine_upRecipe (i : Nat) (f : Recipe → Recipe) (s : Block) : spine (upRecipe i f s) = spine s := by
  unfold upRecipe; (repeat' split) <;> first | rfl | (simp; done) | (simp <;> rfl; done)

@[simp] theorem spine_expReport (k : Nat) (layer : Nat) (e : Nat) (s : Block) :
    spine (expReport k layer e s) = spine s := by
  unfold expReport; (repeat' split) <;> simp

@[simp] theorem spine_stepMarkReady (id : Nat) (s : Block) :
    spine (stepMarkReady id s) = spine s := by
  unfold stepMarkReady; (try simp only [])
  first
    | (simp [apply_ite spine]; done)
    | ((repeat' split) <;> first | rfl | (simp [apply_ite spine]; done) | (simp <;> rfl; done) | (simp_all; done))

@[simp] theorem spine_recipeSweepEnd (s : Block) :
    spine (recipeSweepEnd s) = spine s := by
  unfold recipeSweepEnd; (try simp only [])
  first
    | (simp [apply_ite spine]; done)
    | ((repeat' split) <;> first | rfl | (simp [apply_ite spine]; done) | (simp <;> rfl; done) | (simp_all; done))

@[simp] theorem spine_recipeOpen (k : Nat) (s : Block) : spine (recipeOpen k s) = spine s := by
  simp [recipeOpen]

@[simp] theorem spine_retFault (t : TwinId) (k : Nat) (code : Nat) (engCode : Nat) (eng : Nat) (node : Nat) (s : Block) :
    spine (retFault t k code engCode eng node s) = spine s := by
  simp [retFault]

@[simp] theorem spine_narrowAccept (t : TwinId) (target cluster : Nat) (s : Block) :
    spine (narrowAccept t target cluster s).2 = spine s := by
  unfold narrowAccept; (try simp only [])
  first
    | (simp [apply_ite spine]; done)
    | ((repeat' split) <;> first | rfl | (simp [apply_ite spine]; done) | (simp <;> rfl; done) | (simp_all; done))

@[simp] theorem spine_creditNeed (t : TwinId) (rel : Rel) (need : Nat) (c : Credit) (s : Block) :
    spine (creditNeed t rel need c s).2 = spine s := by
  unfold creditNeed; (try simp only [])
  first
    | (simp [apply_ite spine]; done)
    | ((repeat' split) <;> first | rfl | (simp [apply_ite spine]; done) | (simp <;> rfl; done) | (simp_all; done))

@[simp] theorem spine_sendChunk (t : TwinId) (gen : Nat) (cs : List Credit) (s : Block) :
    spine (sendChunk t gen cs s) = spine s := by
  unfold sendChunk; (try simp only [])
  first
    | (simp [apply_ite spine]; done)
    | ((repeat' split) <;> first | rfl | (simp [apply_ite spine]; done) | (simp <;> rfl; done) | (simp_all; done))

@[simp] theorem spine_walkCredit (t : TwinId) (full : Nat → Bool) (a : Walk) (c : Credit) :
    spine (walkCredit t full a c).st = spine a.st := by
  unfold walkCredit; simp only []; (repeat' split) <;> simp
theorem foldl_st_spine {α : Type} (xs : List α) (f : Walk → α → Walk) (p : Walk) (h : ∀ p x, spine (f p x).st = spine p.st) :
    spine (xs.foldl f p).st = spine p.st := by
  induction xs generalizing p with
  | nil => rfl
  | cons x xs ih => simp only [List.foldl_cons]; rw [ih, h]

@[simp] theorem spine_walkChunk (t : TwinId) (h : Hand) (cs : List Credit) (s : Block) :
    spine (walkChunk t h cs s).st = spine s := by
  unfold walkChunk
  simp only [spine_sendChunk]
  exact foldl_st_spine cs _ _ (fun a c => spine_walkCredit t _ a c)

@[simp] theorem spine_upRet (t : TwinId) (f : Ret → Ret) (s : Block) :
    spine (upRet t f s) = spine s := by
  unfold upRet; (try simp only [])
  first
    | (simp [apply_ite spine]; done)
    | ((repeat' split) <;> first | rfl | (simp [apply_ite spine]; done) | (simp <;> rfl; done) | (simp_all; done))

@[simp] theorem spine_walked (t : TwinId) (id : Nat) (s : Block) : spine (walked t id s) = spine s := by
  simp [walked]

@[simp] theorem spine_reportRelease (t : TwinId) (id : Nat) (s : Block) : spine (reportRelease t id s) = spine s := by
  unfold reportRelease; simp only []; (repeat' split) <;> simp_all

@[simp] theorem spine_raiseNeed (t : TwinId) (d : Deferred) (s : Block) : spine (raiseNeed t d s) = spine s := by
  unfold raiseNeed; (repeat' split) <;> simp

@[simp] theorem spine_endList (t : TwinId) (node : Nat) (gen : Nat) (s : Block) :
    spine (endList t node gen s) = spine s := by
  unfold endList; (repeat' split) <;> simp

@[simp] theorem spine_loseDeferred (t : TwinId) (id : Nat) (s : Block) :
    spine (loseDeferred t id s) = spine s := by
  unfold loseDeferred; (try simp only [])
  first
    | (simp [apply_ite spine]; done)
    | ((repeat' split) <;> first | rfl | (simp [apply_ite spine]; done) | (simp <;> rfl; done) | (simp_all; done))

@[simp] theorem spine_completeTrace (t : TwinId) (k : Option Nat) (outcome : Nat) (c : Completion) (ns : Nat) (s : Block) :
    spine (completeTrace t k outcome c ns s) = spine s := by
  unfold completeTrace; (try simp only [])
  first
    | (simp [apply_ite spine]; done)
    | ((repeat' split) <;> first | rfl | (simp [apply_ite spine]; done) | (simp <;> rfl; done) | (simp_all; done))

@[simp] theorem spine_plainTrace (t : TwinId) (k node outcome gen : Nat) (s : Block) :
    spine (plainTrace t k node outcome gen s) = spine s := by
  unfold plainTrace; (try simp only [])
  first
    | (simp [apply_ite spine]; done)
    | ((repeat' split) <;> first | rfl | (simp [apply_ite spine]; done) | (simp <;> rfl; done) | (simp_all; done))

@[simp] theorem spine_staleReport (t : TwinId) (c : Completion) (s : Block) :
    spine (staleReport t c s) = spine s := by
  unfold staleReport; (try simp only [])
  first
    | (simp [apply_ite spine]; done)
    | ((repeat' split) <;> first | rfl | (simp [apply_ite spine]; done) | (simp <;> rfl; done) | (simp_all; done))

@[simp] theorem spine_account (t : TwinId) (k : Nat) (r : CircRec) (c : Completion) (s : Block) :
    spine (account t k r c s) = spine s := by
  unfold account; (try simp only [])
  first
    | (simp [apply_ite spine]; done)
    | ((repeat' split) <;> first | rfl | (simp [apply_ite spine]; done) | (simp <;> rfl; done) | (simp_all; done))

@[simp] theorem spine_keepDeferred (t : TwinId) (i : Nat) (r : CircRec) (d : Deferred) (share : Option Nat) (s : Block) :
    spine (keepDeferred t i r d share s) = spine s := by
  unfold keepDeferred; (try simp only [])
  first
    | (simp [apply_ite spine]; done)
    | ((repeat' split) <;> first | rfl | (simp [apply_ite spine]; done) | (simp <;> rfl; done) | (simp_all; done))

@[simp] theorem spine_offerStash (t : TwinId) (id cluster : Nat) (s : Block) :
    spine (offerStash t id cluster s) = spine s := by
  unfold offerStash; (try simp only [])
  first
    | (simp [apply_ite spine]; done)
    | ((repeat' split) <;> first | rfl | (simp [apply_ite spine]; done) | (simp <;> rfl; done) | (simp_all; done))

@[simp] theorem spine_grantedDone (id : Nat) (s : Block) :
    spine (grantedDone id s) = spine s := by
  unfold grantedDone; (try simp only [])
  first
    | (simp [apply_ite spine]; done)
    | ((repeat' split) <;> first | rfl | (simp [apply_ite spine]; done) | (simp <;> rfl; done) | (simp_all; done))

@[simp] theorem spine_taskEnds (t : TwinId) (i : Nat) (r : CircRec) (c : Completion) (share : Option Nat) (h : Hand) (s : Block) :
    spine (taskEnds t i r c share h s) = spine s := by
  unfold taskEnds; (try simp only [])
  first
    | (simp [apply_ite spine]; done)
    | ((repeat' split) <;> first | rfl | (simp [apply_ite spine]; done) | (simp <;> rfl; done) | (simp_all; done))

@[simp] theorem spine_answerEnds (t : TwinId) (d : Deferred) (h : Hand) (s : Block) :
    spine (answerEnds t d h s) = spine s := by
  unfold answerEnds; (try simp only [])
  first
    | (simp [apply_ite spine]; done)
    | ((repeat' split) <;> first | rfl | (simp [apply_ite spine]; done) | (simp <;> rfl; done) | (simp_all; done))

@[simp] theorem spine_handEnds (t : TwinId) (h : Hand) (s : Block) :
    spine (handEnds t h s) = spine s := by
  unfold handEnds; (try simp only [])
  first
    | (simp [apply_ite spine]; done)
    | ((repeat' split) <;> first | rfl | (simp [apply_ite spine]; done) | (simp <;> rfl; done) | (simp_all; done))

@[simp] theorem spine_walkList (t : TwinId) (css : List (List Credit)) (h : Hand) (s : Block) :
    spine (walkList t css h s) = spine s := by
  induction css generalizing h s with
  | nil => simp [walkList]
  | cons cs css ih => unfold walkList; simp only []; split <;> simp [ih]

@[simp] theorem spine_startHand (t : TwinId) (h : Hand) (s : Block) :
    spine (startHand t h s) = spine s := by
  unfold startHand; (try simp only [])
  first
    | (simp [apply_ite spine]; done)
    | ((repeat' split) <;> first | rfl | (simp [apply_ite spine]; done) | (simp <;> rfl; done) | (simp_all; done))

@[simp] theorem spine_sendOn (t : TwinId) (s : Block) :
    spine (sendOn t s) = spine s := by
  unfold sendOn; (try simp only [])
  first
    | (simp [apply_ite spine]; done)
    | ((repeat' split) <;> first | rfl | (simp [apply_ite spine]; done) | (simp <;> rfl; done) | (simp_all; done))

@[simp] theorem spine_widenedNow (t : TwinId) (id : Nat) (s : Block) :
    spine (widenedNow t id s) = spine s := by
  unfold widenedNow; (try simp only [])
  first
    | (simp [apply_ite spine]; done)
    | ((repeat' split) <;> first | rfl | (simp [apply_ite spine]; done) | (simp <;> rfl; done) | (simp_all; done))

@[simp] theorem spine_answerNow (t : TwinId) (node : Nat) (send : Bool) (consumers : List Nat) (s : Block) :
    spine (answerNow t node send consumers s) = spine s := by
  unfold answerNow; (try simp only [])
  first
    | (simp [apply_ite spine]; done)
    | ((repeat' split) <;> first | rfl | (simp [apply_ite spine]; done) | (simp <;> rfl; done) | (simp_all; done))

@[simp] theorem spine_taskCredits (t : TwinId) (i : Nat) (r : CircRec) (c : Completion) (share : Option Nat) (s : Block) :
    spine (taskCredits t i r c share s) = spine s := by
  unfold taskCredits; (try simp only [])
  first
    | (simp [apply_ite spine]; done)
    | ((repeat' split) <;> first | rfl | (simp [apply_ite spine]; done) | (simp <;> rfl; done) | (simp_all; done))

@[simp] theorem spine_taskDone (t : TwinId) (i : Nat) (r : CircRec) (c : Completion) (s : Block) :
    spine (taskDone t i r c s) = spine s := by
  unfold taskDone; (try simp only [])
  first
    | (simp [apply_ite spine]; done)
    | ((repeat' split) <;> first | rfl | (simp [apply_ite spine]; done) | (simp <;> rfl; done) | (simp_all; done))

@[simp] theorem spine_completionNow (t : TwinId) (c : Completion) (s : Block) :
    spine (completionNow t c s) = spine s := by
  unfold completionNow; (try simp only [])
  first
    | (simp [apply_ite spine]; done)
    | ((repeat' split) <;> first | rfl | (simp [apply_ite spine]; done) | (simp <;> rfl; done) | (simp_all; done))

@[simp] theorem spine_skipNow (id : Nat) (s : Block) :
    spine (skipNow id s) = spine s := by
  unfold skipNow; (try simp only [])
  first
    | (simp [apply_ite spine]; done)
    | ((repeat' split) <;> first | rfl | (simp [apply_ite spine]; done) | (simp <;> rfl; done) | (simp_all; done))

@[simp] theorem spine_internalNow (id : Nat) (s : Block) :
    spine (internalNow id s) = spine s := by
  unfold internalNow; (try simp only [])
  first
    | (simp [apply_ite spine]; done)
    | ((repeat' split) <;> first | rfl | (simp [apply_ite spine]; done) | (simp <;> rfl; done) | (simp_all; done))

@[simp] theorem spine_laterNow (t : TwinId) (l : RetLater) (s : Block) :
    spine (laterNow t l s) = spine s := by
  unfold laterNow; (try simp only [])
  first
    | (simp [apply_ite spine]; done)
    | ((repeat' split) <;> first | rfl | (simp [apply_ite spine]; done) | (simp <;> rfl; done) | (simp_all; done))

@[simp] theorem spine_enter (t : TwinId) (l : RetLater) (s : Block) :
    spine (enter t l s) = spine s := by
  unfold enter; (try simp only [])
  first
    | (simp [apply_ite spine]; done)
    | ((repeat' split) <;> first | rfl | (simp [apply_ite spine]; done) | (simp <;> rfl; done) | (simp_all; done))

@[simp] theorem spine_completionAt (t : TwinId) (c : Completion) (s : Block) :
    spine (completionAt t c s) = spine s := by
  unfold completionAt; (try simp only [])
  first
    | (simp [apply_ite spine]; done)
    | ((repeat' split) <;> first | rfl | (simp [apply_ite spine]; done) | (simp <;> rfl; done) | (simp_all; done))

@[simp] theorem spine_skipDone (id : Nat) (s : Block) :
    spine (skipDone id s) = spine s := by
  unfold skipDone; (try simp only [])
  first
    | (simp [apply_ite spine]; done)
    | ((repeat' split) <;> first | rfl | (simp [apply_ite spine]; done) | (simp <;> rfl; done) | (simp_all; done))

@[simp] theorem spine_internalDone (id : Nat) (s : Block) :
    spine (internalDone id s) = spine s := by
  unfold internalDone; (try simp only [])
  first
    | (simp [apply_ite spine]; done)
    | ((repeat' split) <;> first | rfl | (simp [apply_ite spine]; done) | (simp <;> rfl; done) | (simp_all; done))

@[simp] theorem spine_answerAt (t : TwinId) (node : Nat) (send : Bool) (consumers : List Nat) (s : Block) :
    spine (answerAt t node send consumers s) = spine s := by
  unfold answerAt; (try simp only [])
  first
    | (simp [apply_ite spine]; done)
    | ((repeat' split) <;> first | rfl | (simp [apply_ite spine]; done) | (simp <;> rfl; done) | (simp_all; done))

@[simp] theorem spine_resumeDeferred (t : TwinId) (id : Nat) (s : Block) :
    spine (resumeDeferred t id s) = spine s := by
  unfold resumeDeferred; (try simp only [])
  first
    | (simp [apply_ite spine]; done)
    | ((repeat' split) <;> first | rfl | (simp [apply_ite spine]; done) | (simp <;> rfl; done) | (simp_all; done))

@[simp] theorem spine_completeWord (p : Nat) (c : Completion) (s : Block) :
    spine (completeWord p c s) = spine s := by
  unfold completeWord; (try simp only [])
  first
    | (simp [apply_ite spine]; done)
    | ((repeat' split) <;> first | rfl | (simp [apply_ite spine]; done) | (simp <;> rfl; done) | (simp_all; done))

@[simp] theorem spine_fenceStep (t : TwinId) (id : Nat) (s : Block) : spine (fenceStep t id s) = spine s := by
  unfold fenceStep; (repeat' split) <;> simp

@[simp] theorem spine_fenceReady (id : Nat) (s : Block) :
    spine (fenceReady id s) = spine s := by
  unfold fenceReady; (try simp only [])
  first
    | (simp [apply_ite spine]; done)
    | ((repeat' split) <;> first | rfl | (simp [apply_ite spine]; done) | (simp <;> rfl; done) | (simp_all; done))

@[simp] theorem spine_loseFence (t : TwinId) (id : Nat) (s : Block) : spine (loseFence t id s) = spine s := by
  unfold loseFence; (repeat' split) <;> simp

@[simp] theorem spine_appendFlushed (t : TwinId) (id : Nat) (s : Block) :
    spine (appendFlushed t id s) = spine s := by
  unfold appendFlushed; (try simp only [])
  first
    | (simp [apply_ite spine]; done)
    | ((repeat' split) <;> first | rfl | (simp [apply_ite spine]; done) | (simp <;> rfl; done) | (simp_all; done))

@[simp] theorem spine_loseAppend (t : TwinId) (id : Nat) (s : Block) : spine (loseAppend t id s) = spine s := by
  unfold loseAppend; (repeat' split) <;> simp

@[simp] theorem spine_deferredFlushed (t : TwinId) (id : Nat) (ok : Bool) (s : Block) :
    spine (deferredFlushed t id ok s) = spine s := by
  unfold deferredFlushed; (try simp only [])
  first
    | (simp [apply_ite spine]; done)
    | ((repeat' split) <;> first | rfl | (simp [apply_ite spine]; done) | (simp <;> rfl; done) | (simp_all; done))

@[simp] theorem spine_batchFlushEnded (t : TwinId) (id : Nat) (ok : Bool) (s : Block) :
    spine (batchFlushEnded t id ok s) = spine s := by
  unfold batchFlushEnded; (try simp only [])
  first
    | (simp [apply_ite spine]; done)
    | ((repeat' split) <;> first | rfl | (simp [apply_ite spine]; done) | (simp <;> rfl; done) | (simp_all; done))

@[simp] theorem spine_flushEnded (w : Waiter) (ok : Bool) (s : Block) :
    spine (flushEnded w ok s) = spine s := by
  unfold flushEnded; (try simp only [])
  first
    | (simp [apply_ite spine]; done)
    | ((repeat' split) <;> first | rfl | (simp [apply_ite spine]; done) | (simp <;> rfl; done) | (simp_all; done))

@[simp] theorem spine_drainEnded (w : Waiter) (ok : Bool) (s : Block) : spine (drainEnded w ok s) = spine s := by
  unfold drainEnded; (repeat' split) <;> simp

@[simp] theorem spine_flushTimeout (c : Nat) (s : Block) : spine (flushTimeout c s) = spine s := by
  unfold flushTimeout; simp only []; (repeat' split) <;> simp_all

@[simp] theorem spine_drainTimeout (t : TwinId) (s : Block) : spine (drainTimeout t s) = spine s := by
  unfold drainTimeout; (repeat' split) <;> simp

@[simp] theorem spine_dropHand (t : TwinId) (k : Nat) (s : Block) :
    spine (dropHand t k s) = spine s := by
  unfold dropHand; (try simp only [])
  first
    | (simp [apply_ite spine]; done)
    | ((repeat' split) <;> first | rfl | (simp [apply_ite spine]; done) | (simp <;> rfl; done) | (simp_all; done))

@[simp] theorem spine_retFence (t : TwinId) (k : Nat) (s : Block) :
    spine (retFence t k s) = spine s := by
  unfold retFence; (try simp only [])
  first
    | (simp [apply_ite spine]; done)
    | ((repeat' split) <;> first | rfl | (simp [apply_ite spine]; done) | (simp <;> rfl; done) | (simp_all; done))

@[simp] theorem spine_upBank (t : TwinId) (f : Bank → Bank) (s : Block) : spine (upBank t f s) = spine s := by
  simp [upBank]

@[simp] theorem spine_setTally (t : TwinId) (i : Nat) (e : Tally) (s : Block) :
    spine (setTally t i e s) = spine s := by
  simp [setTally]

@[simp] theorem spine_countTaly (t : TwinId) (off n : Nat) (s : Block) :
    spine (countTaly t off n s) = spine s := by
  unfold countTaly; (try simp only [])
  first
    | (simp [apply_ite spine]; done)
    | ((repeat' split) <;> first | rfl | (simp [apply_ite spine]; done) | (simp <;> rfl; done) | (simp_all; done))

@[simp] theorem spine_talyTick (t : TwinId) (s : Block) :
    spine (talyTick t s) = spine s := by
  unfold talyTick; (try simp only [])
  first
    | (simp [apply_ite spine]; done)
    | ((repeat' split) <;> first | rfl | (simp [apply_ite spine]; done) | (simp <;> rfl; done) | (simp_all; done))

@[simp] theorem spine_dropPacket (t : TwinId) (p reason off : Nat) (s : Block) :
    spine (dropPacket t p reason off s) = spine s := by
  unfold dropPacket; (try simp only [])
  first
    | (simp [apply_ite spine]; done)
    | ((repeat' split) <;> first | rfl | (simp [apply_ite spine]; done) | (simp <;> rfl; done) | (simp_all; done))

@[simp] theorem spine_returnLink (t : TwinId) (n : Nat) (s : Block) :
    spine (returnLink t n s) = spine s := by
  unfold returnLink; (try simp only [])
  first
    | (simp [apply_ite spine]; done)
    | ((repeat' split) <;> first | rfl | (simp [apply_ite spine]; done) | (simp <;> rfl; done) | (simp_all; done))

@[simp] theorem spine_tallyPacket (p : Nat) (s : Block) :
    spine (tallyPacket p s) = spine s := by
  unfold tallyPacket; (try simp only [])
  first
    | (simp [apply_ite spine]; done)
    | ((repeat' split) <;> first | rfl | (simp [apply_ite spine]; done) | (simp <;> rfl; done) | (simp_all; done))

@[simp] theorem spine_dropBuffered (sv : TwinId) (s : Block) :
    spine (dropBuffered sv s) = spine s := by
  unfold dropBuffered; (try simp only [])
  first
    | (simp [apply_ite spine]; done)
    | ((repeat' split) <;> first | rfl | (simp [apply_ite spine]; done) | (simp <;> rfl; done) | (simp_all; done))

@[simp] theorem spine_setLocks (t : TwinId) (base : Nat) (len : Nat) (v : Bool) (s : Block) :
    spine (setLocks t base len v s) = spine s := by
  simp [setLocks]

@[simp] theorem spine_dropLate (t : TwinId) (i : Nat) (s : Block) :
    spine (dropLate t i s) = spine s := by
  unfold dropLate; (try simp only [])
  first
    | (simp [apply_ite spine]; done)
    | ((repeat' split) <;> first | rfl | (simp [apply_ite spine]; done) | (simp <;> rfl; done) | (simp_all; done))

@[simp] theorem spine_disarm (t : TwinId) (i : Nat) (s : Block) :
    spine (disarm t i s) = spine s := by
  unfold disarm; (try simp only [])
  first
    | (simp [apply_ite spine]; done)
    | ((repeat' split) <;> first | rfl | (simp [apply_ite spine]; done) | (simp <;> rfl; done) | (simp_all; done))

@[simp] theorem spine_freeTally (t : TwinId) (i : Nat) (s : Block) :
    spine (freeTally t i s) = spine s := by
  unfold freeTally; (try simp only [])
  first
    | (simp [apply_ite spine]; done)
    | ((repeat' split) <;> first | rfl | (simp [apply_ite spine]; done) | (simp <;> rfl; done) | (simp_all; done))

@[simp] theorem spine_tallyEffect (c : TallyCmd) (t : TwinId) (i : Nat) (e : Tally) (s : Block) :
    spine (tallyEffect c t i e s) = spine s := by
  unfold tallyEffect; (try simp only [])
  first
    | (simp [apply_ite spine]; done)
    | ((repeat' split) <;> first | rfl | (simp [apply_ite spine]; done) | (simp <;> rfl; done) | (simp_all; done))

@[simp] theorem spine_tallyCommand (k op : Nat) (s : Block) :
    spine (tallyCommand k op s) = spine s := by
  unfold tallyCommand; (try simp only [])
  first
    | (simp [apply_ite spine]; done)
    | ((repeat' split) <;> first | rfl | (simp [apply_ite spine]; done) | (simp <;> rfl; done) | (simp_all; done))

@[simp] theorem spine_dropCmds (t : TwinId) (p : TallyCmd → Bool) (s : Block) :
    spine (dropCmds t p s) = spine s := by
  unfold dropCmds; (try simp only [])
  first
    | (simp [apply_ite spine]; done)
    | ((repeat' split) <;> first | rfl | (simp [apply_ite spine]; done) | (simp <;> rfl; done) | (simp_all; done))

@[simp] theorem spine_applyTallyCmd (t : TwinId) (c : TallyCmd) (s : Block) :
    spine (applyTallyCmd t c s) = spine s := by
  unfold applyTallyCmd; simp only []; (repeat' split) <;> simp_all

@[simp] theorem spine_saturate (t : TwinId) (i : Nat) (k : Nat) (s : Block) : spine (saturate t i k s) = spine s := by
  simp [saturate]

@[simp] theorem spine_addCount (t : TwinId) (i : Nat) (n : Nat) (s : Block) : spine (addCount t i n s) = spine s := by
  unfold addCount; simp only []; (repeat' split) <;> simp_all

@[simp] theorem spine_takePacket (t : TwinId) (p : Nat) (r : SMap Nat × Block) :
    spine (takePacket t p r).2 = spine r.2 := by
  unfold takePacket; (try simp only [])
  first
    | (simp [apply_ite spine]; done)
    | ((repeat' split) <;> first | rfl | (simp [apply_ite spine]; done) | (simp <;> rfl; done) | (simp_all; done))

@[simp] theorem spine_fireEdge (t : TwinId) (i : Nat) (w : Nat) (s : Block) : spine (fireEdge t i w s) = spine s := by
  simp [fireEdge]

@[simp] theorem spine_fireEntry (t : TwinId) (i n : Nat) (s : Block) : spine (fireEntry t i n s).2 = spine s := by
  induction n generalizing s with
  | zero => rfl
  | succ n ih =>
    unfold fireEntry
    split <;> simp [*]

@[simp] theorem spine_fireAll (t : TwinId) (l : List (Nat × Nat)) (b : Nat) (s : Block) :
    spine (fireAll t l b s).2.2 = spine s := by
  induction l generalizing b s with
  | nil => rfl
  | cons p l ih =>
    unfold fireAll
    simp [*]

@[simp] theorem spine_fireTick (t : TwinId) (s : Block) :
    spine (fireTick t s) = spine s := by
  unfold fireTick; (try simp only [])
  first
    | (simp [apply_ite spine]; done)
    | ((repeat' split) <;> first | rfl | (simp [apply_ite spine]; done) | (simp <;> rfl; done) | (simp_all; done))

@[simp] theorem spine_bankTick (t : TwinId) (s : Block) :
    spine (bankTick t s) = spine s := by
  unfold bankTick; (try simp only [])
  first
    | (simp [apply_ite spine]; done)
    | ((repeat' split) <;> first | rfl | (simp [apply_ite spine]; done) | (simp <;> rfl; done) | (simp_all; done))

@[simp] theorem spine_tallyRelease (t : TwinId) (k : Nat) (s : Block) : spine (tallyRelease t k s) = spine s := by
  simp [tallyRelease]

@[simp] theorem spine_tallyTear (t : TwinId) (k : Nat) (s : Block) :
    spine (tallyTear t k s) = spine s := by
  unfold tallyTear; (try simp only [])
  first
    | (simp [apply_ite spine]; done)
    | ((repeat' split) <;> first | rfl | (simp [apply_ite spine]; done) | (simp <;> rfl; done) | (simp_all; done))

@[simp] theorem spine_tallyGate (t : TwinId) (s : Block) : spine (tallyGate t s) = spine s := by
  simp [tallyGate]

@[simp] theorem spine_upOffice (t : TwinId) (f : Office → Office) (s : Block) : spine (upOffice t f s) = spine s := by
  simp [upOffice]

@[simp] theorem spine_setTube (x : Nat) (e : Tube) (s : Block) : spine (setTube x e s) = spine s := by
  simp [setTube]

@[simp] theorem spine_setSend (key : Nat) (e : SendEp) (s : Block) : spine (setSend key e s) = spine s := by
  unfold setSend; (repeat' split) <;> first | rfl | (simp; done) | (simp <;> rfl; done)

@[simp] theorem spine_setRecv (key : Nat) (e : RecvEp) (s : Block) : spine (setRecv key e s) = spine s := by
  unfold setRecv; (repeat' split) <;> first | rfl | (simp; done) | (simp <;> rfl; done)

@[simp] theorem spine_returnCredits (txKey : Nat) (k : Nat) (s : Block) :
    spine (returnCredits txKey k s) = spine s := by
  unfold returnCredits; (repeat' split) <;> simp

@[simp] theorem spine_freed (key : Nat) (k : Nat) (r : RecvEp) (s : Block) : spine (freed key k r s) = spine s := by
  simp [freed]

@[simp] theorem spine_writeEp (x : Nat) (e : Tube) (dir : Nat) (s : Block) : spine (writeEp x e dir s) = spine s := by
  simp [writeEp]

@[simp] theorem spine_readEp (x : Nat) (e : Tube) (dir : Nat) (s : Block) : spine (readEp x e dir s) = spine s := by
  simp [readEp]

@[simp] theorem spine_tubeDone (k : Nat) (st : Nat) (s : Block) : spine (tubeDone k st s) = spine s := by
  simp [tubeDone]

@[simp] theorem spine_officeFault (t : TwinId) (k : Nat) (code : Nat) (isBowl : Bool) (x : Nat) (s : Block) :
    spine (officeFault t k code isBowl x s) = spine s := by
  simp [officeFault]

@[simp] theorem spine_tubeOpen (k : Nat) (s : Block) : spine (tubeOpen k s) = spine s := by
  unfold tubeOpen; simp only []; (repeat' split) <;> simp_all

@[simp] theorem spine_startClose (x : Nat) (busy : Bool) (s : Block) : spine (startClose x busy s) = spine s := by
  unfold startClose; simp only []; (repeat' split) <;> simp_all

@[simp] theorem spine_tubeClose (k : Nat) (s : Block) : spine (tubeClose k s) = spine s := by
  unfold tubeClose; simp only []; (repeat' split) <;> simp_all

@[simp] theorem spine_setTubeData (k : Nat) (i : Nat) (v : Nat) (s : Block) :
    spine (setTubeData k i v s) = spine s := by
  simp [setTubeData]

@[simp] theorem spine_tubeQuery (k : Nat) (s : Block) : spine (tubeQuery k s) = spine s := by
  unfold tubeQuery; simp only []; (repeat' split) <;> simp_all

@[simp] theorem spine_midRead (x : Nat) (e : Tube) (o : TubeOp) (s : Block) :
    spine (midRead x e o s) = spine s := by
  unfold midRead; (try simp only [])
  first
    | (simp [apply_ite spine]; done)
    | ((repeat' split) <;> first | rfl | (simp [apply_ite spine]; done) | (simp <;> rfl; done) | (simp_all; done))

@[simp] theorem spine_lastRead (x : Nat) (e : Tube) (o : TubeOp) (s : Block) :
    spine (lastRead x e o s) = spine s := by
  unfold lastRead; (try simp only [])
  first
    | (simp [apply_ite spine]; done)
    | ((repeat' split) <;> first | rfl | (simp [apply_ite spine]; done) | (simp <;> rfl; done) | (simp_all; done))

@[simp] theorem spine_invReadTube (x : Nat) (s : Block) :
    spine (invReadTube x s) = spine s := by
  unfold invReadTube; (try simp only [])
  first
    | (simp [apply_ite spine]; done)
    | ((repeat' split) <;> first | rfl | (simp [apply_ite spine]; done) | (simp <;> rfl; done) | (simp_all; done))

@[simp] theorem spine_answerReads (x : Nat) (e : Tube) (s : Block) : spine (answerReads x e s) = spine s := by
  unfold answerReads
  exact forEach_spine _ _ _ (fun o s => by split <;> simp)

@[simp] theorem spine_endTube (x st : Nat) (s : Block) :
    spine (endTube x st s) = spine s := by
  unfold endTube; (try simp only [])
  first
    | (simp [apply_ite spine]; done)
    | ((repeat' split) <;> first | rfl | (simp [apply_ite spine]; done) | (simp <;> rfl; done) | (simp_all; done))

@[simp] theorem spine_epWriteAck (x : Nat) (s : Block) : spine (epWriteAck x s) = spine s := by
  unfold epWriteAck; simp only []; (repeat' split) <;> simp_all

@[simp] theorem spine_epReadAnswer (x : Nat) (s : Block) :
    spine (epReadAnswer x s) = spine s := by
  unfold epReadAnswer; (try simp only [])
  first
    | (simp [apply_ite spine]; done)
    | ((repeat' split) <;> first | rfl | (simp [apply_ite spine]; done) | (simp <;> rfl; done) | (simp_all; done))

@[simp] theorem spine_tubeIo (x : Nat) (s : Block) :
    spine (tubeIo x s) = spine s := by
  unfold tubeIo; (try simp only [])
  first
    | (simp [apply_ite spine]; done)
    | ((repeat' split) <;> first | rfl | (simp [apply_ite spine]; done) | (simp <;> rfl; done) | (simp_all; done))

@[simp] theorem spine_tubePartition (t : TwinId) (k : Nat) (s : Block) : spine (tubePartition t k s) = spine s := by
  simp [tubePartition]

@[simp] theorem spine_tubeTear (t : TwinId) (k : Nat) (s : Block) : spine (tubeTear t k s) = spine s := by
  simp [tubeTear]

@[simp] theorem spine_txSend (tag : Nat) (eng : Nat) (slot : Nat) (len : Nat) (src : Nat) (words : List Nat) (s : Block) :
    spine (txSend tag eng slot len src words s) = spine s := by
  unfold txSend; simp only []; (repeat' split) <;> simp_all

@[simp] theorem spine_sourceCopyEnd (eng : Nat) (slot : Nat) (s : Block) :
    spine (sourceCopyEnd eng slot s) = spine s := by
  unfold sourceCopyEnd; simp only []; (repeat' split) <;> simp_all

@[simp] theorem spine_creditReturn (eng : Nat) (slot : Nat) (s : Block) :
    spine (creditReturn eng slot s) = spine s := by
  unfold creditReturn; simp only []; (repeat' split) <;> simp_all

@[simp] theorem spine_beatArrival (eng : Nat) (slot : Nat) (s : Block) :
    spine (beatArrival eng slot s) = spine s := by
  unfold beatArrival; simp only []; (repeat' split) <;> simp_all

@[simp] theorem spine_rxMbox (tag : Nat) (eng : Nat) (slot : Nat) (s : Block) :
    spine (rxMbox tag eng slot s) = spine s := by
  unfold rxMbox; simp only []; (repeat' split) <;> simp_all

@[simp] theorem spine_rxEnd (drop : Bool) (tag : Nat) (eng : Nat) (slot : Nat) (s : Block) :
    spine (rxEnd drop tag eng slot s) = spine s := by
  unfold rxEnd; simp only []; (repeat' split) <;> simp_all

@[simp] theorem spine_slotRead (tag eng : Nat) (receive : Bool) (slot off size : Nat) (s : Block) :
    spine (slotRead tag eng receive slot off size s) = spine s := by
  unfold slotRead; (try simp only [])
  first
    | (simp [apply_ite spine]; done)
    | ((repeat' split) <;> first | rfl | (simp [apply_ite spine]; done) | (simp <;> rfl; done) | (simp_all; done))

@[simp] theorem spine_slotWriteReg (tag eng : Nat) (receive : Bool) (slot off size v : Nat) (s : Block) :
    spine (slotWriteReg tag eng receive slot off size v s) = spine s := by
  unfold slotWriteReg; (try simp only [])
  first
    | (simp [apply_ite spine]; done)
    | ((repeat' split) <;> first | rfl | (simp [apply_ite spine]; done) | (simp <;> rfl; done) | (simp_all; done))

@[simp] theorem spine_setBowl (x : Nat) (b : Bowl) (s : Block) : spine (setBowl x b s) = spine s := by
  simp [setBowl]

@[simp] theorem spine_bowlDone (k : Nat) (st : Nat) (s : Block) : spine (bowlDone k st s) = spine s := by
  simp [bowlDone]

@[simp] theorem spine_bowlOpen (k : Nat) (s : Block) : spine (bowlOpen k s) = spine s := by
  unfold bowlOpen; simp only []; (repeat' split) <;> simp_all

@[simp] theorem spine_bowlQuery (k : Nat) (s : Block) : spine (bowlQuery k s) = spine s := by
  unfold bowlQuery; simp only []; (repeat' split) <;> simp_all

@[simp] theorem spine_readHeader (x : Nat) (s : Block) : spine (readHeader x s) = spine s := by
  unfold readHeader; simp only []; (repeat' split) <;> simp_all

@[simp] theorem spine_takePut (x : Nat) (s : Block) : spine (takePut x s) = spine s := by
  unfold takePut
  try simp only []
  (repeat' split) <;> simp_all

@[simp] theorem spine_bowlFlushed (x : Nat) (id : Nat) (s : Block) : spine (bowlFlushed x id s) = spine s := by
  unfold bowlFlushed; (repeat' split) <;> simp

@[simp] theorem spine_dropPut (t : TwinId) (off : Nat) (s : Block) : spine (dropPut t off s) = spine s := by
  simp [dropPut]

@[simp] theorem spine_bowlPut (t : TwinId) (p : Nat) (s : Block) : spine (bowlPut t p s) = spine s := by
  unfold bowlPut; simp only []; (repeat' split) <;> simp_all

@[simp] theorem spine_dropQueued (x : Nat) (s : Block) :
    spine (dropQueued x s) = spine s := by
  unfold dropQueued; (try simp only [])
  first
    | (simp [apply_ite spine]; done)
    | ((repeat' split) <;> first | rfl | (simp [apply_ite spine]; done) | (simp <;> rfl; done) | (simp_all; done))

@[simp] theorem spine_freeBowl (x : Nat) (s : Block) :
    spine (freeBowl x s) = spine s := by
  unfold freeBowl; (try simp only [])
  first
    | (simp [apply_ite spine]; done)
    | ((repeat' split) <;> first | rfl | (simp [apply_ite spine]; done) | (simp <;> rfl; done) | (simp_all; done))

@[simp] theorem spine_bowlClose (k : Nat) (s : Block) :
    spine (bowlClose k s) = spine s := by
  unfold bowlClose; (try simp only [])
  first
    | (simp [apply_ite spine]; done)
    | ((repeat' split) <;> first | rfl | (simp [apply_ite spine]; done) | (simp <;> rfl; done) | (simp_all; done))

@[simp] theorem spine_bowlTear (t : TwinId) (k : Nat) (s : Block) :
    spine (bowlTear t k s) = spine s := by
  unfold bowlTear; (try simp only [])
  first
    | (simp [apply_ite spine]; done)
    | ((repeat' split) <;> first | rfl | (simp [apply_ite spine]; done) | (simp <;> rfl; done) | (simp_all; done))

@[simp] theorem spine_abandon (x : Nat) (s : Block) :
    spine (abandon x s) = spine s := by
  unfold abandon; (try simp only [])
  first
    | (simp [apply_ite spine]; done)
    | ((repeat' split) <;> first | rfl | (simp [apply_ite spine]; done) | (simp <;> rfl; done) | (simp_all; done))

@[simp] theorem spine_bowlReset (k : Nat) (s : Block) : spine (bowlReset k s) = spine s := by
  unfold bowlReset; simp only []; (repeat' split) <;> simp_all

@[simp] theorem spine_bowlCancel (k : Nat) (s : Block) : spine (bowlCancel k s) = spine s := by
  simp [bowlCancel]

@[simp] theorem spine_cancelPoint (k : Nat) (s : Block) :
    spine (cancelPoint k s) = spine s := by
  unfold cancelPoint; (try simp only [])
  first
    | (simp [apply_ite spine]; done)
    | ((repeat' split) <;> first | rfl | (simp [apply_ite spine]; done) | (simp <;> rfl; done) | (simp_all; done))

@[simp] theorem spine_epochBumpAt (t : TwinId) (k epoch : Nat) (s : Block) :
    spine (epochBumpAt t k epoch s) = spine s := by
  unfold epochBumpAt; (try simp only [])
  first
    | (simp [apply_ite spine]; done)
    | ((repeat' split) <;> first | rfl | (simp [apply_ite spine]; done) | (simp <;> rfl; done) | (simp_all; done))

@[simp] theorem spine_bowlFault (x code : Nat) (s : Block) :
    spine (bowlFault x code s) = spine s := by
  unfold bowlFault; (try simp only [])
  first
    | (simp [apply_ite spine]; done)
    | ((repeat' split) <;> first | rfl | (simp [apply_ite spine]; done) | (simp <;> rfl; done) | (simp_all; done))

@[simp] theorem spine_faultPut (x code : Nat) (s : Block) :
    spine (faultPut x code s) = spine s := by
  unfold faultPut; (try simp only [])
  first
    | (simp [apply_ite spine]; done)
    | ((repeat' split) <;> first | rfl | (simp [apply_ite spine]; done) | (simp <;> rfl; done) | (simp_all; done))

@[simp] theorem spine_addNext (x : Nat) (s : Block) :
    spine (addNext x s) = spine s := by
  unfold addNext; (try simp only [])
  first
    | (simp [apply_ite spine]; done)
    | ((repeat' split) <;> first | rfl | (simp [apply_ite spine]; done) | (simp <;> rfl; done) | (simp_all; done))

@[simp] theorem spine_commit (x : Nat) (cs : List Contrib) (s : Block) :
    spine (commit x cs s) = spine s := by
  unfold commit; (try simp only [])
  first
    | (simp [apply_ite spine]; done)
    | ((repeat' split) <;> first | rfl | (simp [apply_ite spine]; done) | (simp <;> rfl; done) | (simp_all; done))

@[simp] theorem spine_advance (x : Nat) (l : List Nat) (s : Block) : spine (advance x l s) = spine s := by
  induction l generalizing s with
  | nil => simp [advance]
  | cons n l ih =>
    unfold advance
    try simp only []
    (repeat' split) <;> simp [*]

@[simp] theorem spine_endRound (x : Nat) (s : Block) : spine (endRound x s) = spine s := by
  unfold endRound; simp only []; (repeat' split) <;> simp_all

@[simp] theorem spine_fixLanes (x : Nat) (lanes : List Nat) (s : Block) : spine (fixLanes x lanes s) = spine s := by
  unfold fixLanes; simp only []; (repeat' split) <;> simp_all

@[simp] theorem spine_startRound (x epoch selAddr : Nat) (s : Block) :
    spine (startRound x epoch selAddr s) = spine s := by
  unfold startRound; (try simp only [])
  first
    | (simp [apply_ite spine]; done)
    | ((repeat' split) <;> first | rfl | (simp [apply_ite spine]; done) | (simp <;> rfl; done) | (simp_all; done))

@[simp] theorem spine_takeContrib (x : Nat) (c : Contrib) (s : Block) :
    spine (takeContrib x c s) = spine s := by
  unfold takeContrib; (try simp only [])
  first
    | (simp [apply_ite spine]; done)
    | ((repeat' split) <;> first | rfl | (simp [apply_ite spine]; done) | (simp <;> rfl; done) | (simp_all; done))

@[simp] theorem spine_processHeader (x p : Nat) (w0 w1 w2 : Nat) (s : Block) :
    spine (processHeader x p w0 w1 w2 s) = spine s := by
  unfold processHeader; (try simp only [])
  first
    | (simp [apply_ite spine]; done)
    | ((repeat' split) <;> first | rfl | (simp [apply_ite spine]; done) | (simp <;> rfl; done) | (simp_all; done))

@[simp] theorem spine_blockHeaderRead (x : Nat) (h : List Nat) (s : Block) :
    spine (blockHeaderRead x h s) = spine s := by
  unfold blockHeaderRead; simp only []; (repeat' split) <;> simp_all

@[simp] theorem spine_selectionRead (x : Nat) (h : List Nat) (counts : List Nat) (s : Block) :
    spine (selectionRead x h counts s) = spine s := by
  unfold selectionRead; simp only []; (repeat' split) <;> simp_all

@[simp] theorem spine_blockDataRead (x : Nat) (block result : List Nat) (s : Block) :
    spine (blockDataRead x block result s) = spine s := by
  unfold blockDataRead; (try simp only [])
  first
    | (simp [apply_ite spine]; done)
    | ((repeat' split) <;> first | rfl | (simp [apply_ite spine]; done) | (simp <;> rfl; done) | (simp_all; done))

@[simp] theorem spine_resultWriteAck (x : Nat) (s : Block) :
    spine (resultWriteAck x s) = spine s := by
  unfold resultWriteAck; (try simp only [])
  first
    | (simp [apply_ite spine]; done)
    | ((repeat' split) <;> first | rfl | (simp [apply_ite spine]; done) | (simp <;> rfl; done) | (simp_all; done))

@[simp] theorem spine_bowlIo (x : Nat) (s : Block) : spine (bowlIo x s) = spine s := by
  unfold bowlIo; simp only []; (repeat' split) <;> simp_all

@[simp] theorem spine_writeShadow (key : Nat) (off : Nat) (mask : Nat) (v : Nat) (s : Block) :
    spine (writeShadow key off mask v s) = spine s := by
  unfold writeShadow; (repeat' split) <;> simp

@[simp] theorem spine_partitionEffect (k : Nat) (gained : Bool) (s : Block) :
    spine (partitionEffect k gained s) = spine s := by
  unfold partitionEffect; (try simp only [])
  first
    | (simp [apply_ite spine]; done)
    | ((repeat' split) <;> first | rfl | (simp [apply_ite spine]; done) | (simp <;> rfl; done) | (simp_all; done))

@[simp] theorem spine_inflightCheck (k : Nat) (s : Block) : spine (inflightCheck k s) = spine s := by
  unfold inflightCheck; simp only []; (repeat' split) <;> simp_all

@[simp] theorem spine_applyPage (key : Nat) (s : Block) :
    spine (applyPage key s) = spine s := by
  unfold applyPage; (try simp only [])
  first
    | (simp [apply_ite spine]; done)
    | ((repeat' split) <;> first | rfl | (simp [apply_ite spine]; done) | (simp <;> rfl; done) | (simp_all; done))

@[simp] theorem spine_applyAll (s : Block) : spine (applyAll s) = spine s := by
  simp [applyAll]

@[simp] theorem spine_commitPage (key : Nat) (s : Block) :
    spine (commitPage key s) = spine s := by
  unfold commitPage; (try simp only [])
  first
    | (simp [apply_ite spine]; done)
    | ((repeat' split) <;> first | rfl | (simp [apply_ite spine]; done) | (simp <;> rfl; done) | (simp_all; done))

@[simp] theorem spine_shadowApply (k : Nat) (s : Block) :
    spine (shadowApply k s) = spine s := by
  unfold shadowApply; (try simp only [])
  first
    | (simp [apply_ite spine]; done)
    | ((repeat' split) <;> first | rfl | (simp [apply_ite spine]; done) | (simp <;> rfl; done) | (simp_all; done))

@[simp] theorem spine_discardPage (key : Nat) (s : Block) : spine (discardPage key s) = spine s := by
  unfold discardPage; (repeat' split) <;> simp

@[simp] theorem spine_upBake (t : TwinId) (f : Bake → Bake) (s : Block) : spine (upBake t f s) = spine s := by
  simp [upBake]

@[simp] theorem spine_walkTo (t : TwinId) (n : Nat) (s : Block) : spine (walkTo t n s) = spine s := by
  unfold walkTo; simp only []; (repeat' split) <;> simp_all

@[simp] theorem spine_walkTick (t : TwinId) (s : Block) : spine (walkTick t s) = spine s := by
  simp [walkTick]

@[simp] theorem spine_shortfalls (t : TwinId) (s : Block) : spine (shortfalls t s) = spine s := by
  unfold shortfalls; simp only []
  split
  · rfl
  · exact forEach_spine _ _ _ (fun p s => by split <;> simp)

@[simp] theorem spine_loadCaps (t : TwinId) (s : Block) : spine (loadCaps t s) = spine s := by
  simp [loadCaps]

@[simp] theorem spine_releaseHeld (t : TwinId) (s : Block) : spine (releaseHeld t s) = spine s := by
  simp [releaseHeld]

@[simp] theorem spine_bakeTwin (t : TwinId) (n : Nat) (s : Block) : spine (bakeTwin t n s) = spine s := by
  unfold bakeTwin; (repeat' split) <;> simp

@[simp] theorem spine_reserveVictim (s : Block) :
    spine (reserveVictim s) = spine s := by
  unfold reserveVictim; (try simp only [])
  first
    | (simp [apply_ite spine]; done)
    | ((repeat' split) <;> first | rfl | (simp [apply_ite spine]; done) | (simp <;> rfl; done) | (simp_all; done))

@[simp] theorem spine_bakeTick (s : Block) : spine (bakeTick s) = spine s := by
  simp [bakeTick]

@[simp] theorem spine_slotWrite (t : TwinId) (v : Nat) (s : Block) : spine (slotWrite t v s) = spine s := by
  unfold slotWrite; (repeat' split) <;> simp

@[simp] theorem spine_writeRecord (k : Nat) (w0 : Nat) (w2 : Nat) (s : Block) :
    spine (writeRecord k w0 w2 s) = spine s := by
  simp [writeRecord]

@[simp] theorem spine_msixSignal (k : Nat) (v : Nat) (s : Block) : spine (msixSignal k v s) = spine s := by
  unfold msixSignal; simp only []; (repeat' split) <;> simp_all

@[simp] theorem spine_msixWrite (k : Nat) (v : Nat) (value : Nat) (s : Block) :
    spine (msixWrite k v value s) = spine s := by
  unfold msixWrite; simp only []; (repeat' split) <;> simp_all

@[simp] theorem spine_notifyRequest (k : Nat) (s : Block) : spine (notifyRequest k s) = spine s := by
  unfold notifyRequest; simp only []; (repeat' split) <;> simp_all

@[simp] theorem spine_tailWrite (k : Nat) (v : Nat) (s : Block) : spine (tailWrite k v s) = spine s := by
  unfold tailWrite; simp only []; (repeat' split) <;> simp_all

@[simp] theorem spine_notifyReady (id : Nat) (s : Block) : spine (notifyReady id s) = spine s := by
  simp [notifyReady]

end Sys2Proof.Machine
end

