-- ==== Sys2Proof/Laws/SpineC.lean ====
section
/-! SUPPORT. What the operations leave alone of the block's spine: contexts to reliability. One lemma per operation. -/

namespace Sys2Proof.Machine

set_option maxRecDepth 8000

@[simp] theorem spine_setCmd (busy : Bool) (st : Nat) (s : Block) : spine (setCmd busy st s) = spine s := by
  unfold setCmd; (repeat' split) <;> first | rfl | (simp; done) | (simp <;> rfl; done)

@[simp] theorem spine_ctxOpen (home : TwinId) (s : Block) : spine (ctxOpen home s) = spine s := by
  unfold ctxOpen; simp only []; (repeat' split) <;> simp_all

@[simp] theorem spine_openEffect (k : Nat) (s : Block) :
    spine (openEffect k s) = spine s := by
  unfold openEffect; (try simp only [])
  first
    | (simp [apply_ite spine]; done)
    | ((repeat' split) <;> first | rfl | (simp [apply_ite spine]; done) | (simp <;> rfl; done) | (simp_all; done))

@[simp] theorem spine_closeOpen (k : Nat) (s : Block) :
    spine (closeOpen k s) = spine s := by
  unfold closeOpen; (try simp only [])
  first
    | (simp [apply_ite spine]; done)
    | ((repeat' split) <;> first | rfl | (simp [apply_ite spine]; done) | (simp <;> rfl; done) | (simp_all; done))

@[simp] theorem spine_closeCtx (k : Nat) (s : Block) :
    spine (closeCtx k s).2 = spine s := by
  unfold closeCtx; (try simp only [])
  first
    | (simp [apply_ite spine]; done)
    | ((repeat' split) <;> first | rfl | (simp [apply_ite spine]; done) | (simp <;> rfl; done) | (simp_all; done))

@[simp] theorem spine_ctxClose (s : Block) : spine (ctxClose s) = spine s := by
  unfold ctxClose; (repeat' split) <;> simp

@[simp] theorem spine_ctxFault (s : Block) : spine (ctxFault s) = spine s := by
  unfold ctxFault; simp only []; (repeat' split) <;> simp_all

@[simp] theorem spine_ctxCtlClose (k : Nat) (s : Block) : spine (ctxCtlClose k s) = spine s := by
  simp [ctxCtlClose]

theorem spine_takeHeld {t : TwinId} {p : ControlItem → Bool} {s : Block} {r : ControlItem × Block}
    (h : takeHeld t p s = some r) : spine r.2 = spine s := by
  unfold takeHeld at h; split at h
  · cases h
  · exact takeCtrl_spine h

@[simp] theorem spine_fenceItem (t : TwinId) (s : Block) : spine (fenceItem t s) = spine s := by
  unfold fenceItem
  try simp only []
  (repeat' split) <;> first | rfl | (rename_i h; have := spine_takeHeld h; simp_all; done) | (have := spine_takeHeld ‹takeHeld _ _ _ = some _›; simp_all; done)

@[simp] theorem spine_fenceEffect (t : TwinId) (k : Nat) (s : Block) : spine (fenceEffect t k s) = spine s := by
  unfold fenceEffect; (repeat' split) <;> simp

@[simp] theorem spine_sweepShards (t : TwinId) (k : Nat) (s : Block) : spine (sweepShards t k s) = spine s := by
  simp [sweepShards]

@[simp] theorem spine_freeWaits (t : TwinId) (s : Block) :
    spine (freeWaits t s) = spine s := by
  unfold freeWaits; (try simp only [])
  first
    | (simp [apply_ite spine]; done)
    | ((repeat' split) <;> first | rfl | (simp [apply_ite spine]; done) | (simp <;> rfl; done) | (simp_all; done))

@[simp] theorem spine_sweepCtx (t : TwinId) (k : Nat) (s : Block) :
    spine (sweepCtx t k s) = spine s := by
  unfold sweepCtx; (try simp only [])
  first
    | (simp [apply_ite spine]; done)
    | ((repeat' split) <;> first | rfl | (simp [apply_ite spine]; done) | (simp <;> rfl; done) | (simp_all; done))

@[simp] theorem spine_upHead (t : TwinId) (f : FaultEnt → FaultEnt) (s : Block) : spine (upHead t f s) = spine s := by
  simp [upHead]

@[simp] theorem spine_joinCombined (t : TwinId) (s : Block) :
    spine (joinCombined t s) = spine s := by
  unfold joinCombined; (try simp only [])
  first
    | (simp [apply_ite spine]; done)
    | ((repeat' split) <;> first | rfl | (simp [apply_ite spine]; done) | (simp <;> rfl; done) | (simp_all; done))

@[simp] theorem spine_teardownStart (t : TwinId) (s : Block) : spine (teardownStart t s) = spine s := by
  unfold teardownStart; simp only []; (repeat' split) <;> simp_all

@[simp] theorem spine_tearAt (t : TwinId) (s : Block) : spine (tearAt t s) = spine s := by
  unfold tearAt
  try simp only []
  (repeat' split) <;> first | rfl | (rename_i h; have := spine_takeHeld h; simp_all; done) | (have := spine_takeHeld ‹takeHeld _ _ _ = some _›; simp_all; done)

@[simp] theorem spine_sweptAt (t : TwinId) (s : Block) : spine (sweptAt t s) = spine s := by
  unfold sweptAt
  try simp only []
  (repeat' split) <;> first | rfl | (rename_i h; have := spine_takeHeld h; simp_all; done) | (have := spine_takeHeld ‹takeHeld _ _ _ = some _›; simp_all; done)

@[simp] theorem spine_reportCtx (k : Nat) (s : Block) : spine (reportCtx k s) = spine s := by
  have h1 : ∀ (a : Block) (b : Nat), spine (if bitOf b 4 then msixSignal k (fld b 3 0) a else a) = spine a := by
    intro a b; split <;> simp only [spine_msixSignal]
  unfold reportCtx
  simp only [spine_upCtx]
  refine (h1 _ _).trans ?_
  split
  · exact spine_writeRecord ..
  · rfl

@[simp] theorem spine_upDom (d : Nat) (f : Dom → Dom) (s : Block) : spine (upDom d f s) = spine s := by
  unfold upDom; (repeat' split) <;> first | rfl | (simp; done) | (simp <;> rfl; done)

@[simp] theorem spine_reportTeardown (t : TwinId) (s : Block) :
    spine (reportTeardown t s) = spine s := by
  unfold reportTeardown; (try simp only [])
  first
    | (simp [apply_ite spine]; done)
    | ((repeat' split) <;> first | rfl | (simp [apply_ite spine]; done) | (simp <;> rfl; done) | (simp_all; done))

@[simp] theorem spine_startScrub (t : TwinId) (s : Block) :
    spine (startScrub t s) = spine s := by
  unfold startScrub; (try simp only [])
  first
    | (simp [apply_ite spine]; done)
    | ((repeat' split) <;> first | rfl | (simp [apply_ite spine]; done) | (simp <;> rfl; done) | (simp_all; done))

@[simp] theorem spine_engineWaitEnd (t : TwinId) (s : Block) : spine (engineWaitEnd t s) = spine s := by
  unfold engineWaitEnd; (repeat' split) <;> simp

@[simp] theorem spine_teardownWaitLimit (t : TwinId) (s : Block) : spine (teardownWaitLimit t s) = spine s := by
  unfold teardownWaitLimit; (repeat' split) <;> simp

@[simp] theorem spine_scrubPoll (t : TwinId) (u : ScrubUnit) (answer : Option Nat) (s : Block) :
    spine (scrubPoll t u answer s) = spine s := by
  unfold scrubPoll; (try simp only [])
  first
    | (simp [apply_ite spine]; done)
    | ((repeat' split) <;> first | rfl | (simp [apply_ite spine]; done) | (simp <;> rfl; done) | (simp_all; done))

@[simp] theorem spine_scrubLimit (t : TwinId) (s : Block) : spine (scrubLimit t s) = spine s := by
  unfold scrubLimit; (repeat' split) <;> simp

@[simp] theorem spine_denyAccess (port : Nat) (fn : Nat) (s : Block) : spine (denyAccess port fn s) = spine s := by
  unfold denyAccess; (repeat' split) <;> first | rfl | (simp; done) | (simp <;> rfl; done)

@[simp] theorem spine_denyOf (src : Requester) (s : Block) : spine (denyOf src s) = spine s := by
  unfold denyOf; (repeat' split) <;> simp

@[simp] theorem spine_pageServe (src : Requester) (key : Nat) (f : Grade → Block → Block) (s : Block) (h : ∀ g s, spine (f g s) = spine s) :
    spine (pageServe src key f s) = spine s := by
  unfold pageServe; (repeat' split) <;> simp [h]

@[simp] theorem spine_pageAccess (src : Requester) (key : Nat) (f : Grade → Block → Block) (s : Block) (h : ∀ g s, spine (f g s) = spine s) :
    spine (pageAccess src key f s) = spine s := by
  unfold pageAccess
  refine spine_pageServe src key _ s (fun g s => ?_)
  split
  · exact h g s
  · rfl

@[simp] theorem spine_pageCmd (src : Requester) (key : Nat) (f : Block → Block) (s : Block)
    (h : ∀ s, spine (f s) = spine s) : spine (pageCmd src key f s) = spine s :=
  spine_pageAccess src key _ s (fun _ s => h s)

@[simp] theorem spine_countWrite (t : TwinId) (s : Block) : spine (countWrite t s) = spine s := by
  simp [countWrite]

@[simp] theorem spine_releaseTwin (t : TwinId) (k : Nat) (s : Block) :
    spine (releaseTwin t k s) = spine s := by
  unfold releaseTwin; (try simp only [])
  first
    | (simp [apply_ite spine]; done)
    | ((repeat' split) <;> first | rfl | (simp [apply_ite spine]; done) | (simp <;> rfl; done) | (simp_all; done))

@[simp] theorem spine_inServing (f : TwinId → Nat → Block → Block) (k : Nat) (s : Block) (h : ∀ t k s, spine (f t k s) = spine s) :
    spine (inServing f k s) = spine s := by
  unfold inServing; (try simp only []); (repeat' split) <;> simp [h]

@[simp] theorem spine_releaseAll (k : Nat) (s : Block) : spine (releaseAll k s) = spine s := by
  simp [releaseAll]

@[simp] theorem spine_rearmAll (k : Nat) (s : Block) : spine (rearmAll k s) = spine s := by
  simp [rearmAll]

@[simp] theorem spine_select (k : Nat) (f : Ctx → Ctx) (s : Block) :
    spine (select k f s) = spine s := by
  unfold select; (try simp only [])
  first
    | (simp [apply_ite spine]; done)
    | ((repeat' split) <;> first | rfl | (simp [apply_ite spine]; done) | (simp <;> rfl; done) | (simp_all; done))

@[simp] theorem spine_applyPart (k : Nat) (named : TwinId) (banks : Nat × Nat) (c : WinCmd) (s : Block) :
    spine (applyPart k named banks c s) = spine s := by
  unfold applyPart; (try simp only [])
  first
    | (simp [apply_ite spine]; done)
    | ((repeat' split) <;> first | rfl | (simp [apply_ite spine]; done) | (simp <;> rfl; done) | (simp_all; done))

@[simp] theorem spine_runParts (k : Nat) (named : TwinId) (banks : Nat × Nat) (counted : Bool) (l : List WinCmd) (s : Block) :
    spine (runParts k named banks counted l s).2 = spine s := by
  induction l generalizing counted s with
  | nil => rfl
  | cons c l ih =>
    unfold runParts
    simp only []
    (repeat' split) <;> simp [ih]

@[simp] theorem spine_takeTurn (k : Nat) (w : ParkedWrite) (s : Block) : spine (takeTurn k w s).2 = spine s := by
  unfold takeTurn
  simp only []
  split
  · split <;> simp
  · have hr := spine_runParts k w.named (w.banks.getD (selectors s k)) w.banks.isSome w.parts s
    split <;> simp_all

@[simp] theorem spine_takeWin (k : Nat) (parts : List WinCmd) (s : Block) : spine (takeWin k parts s) = spine s := by
  unfold takeWin
  simp only []
  have ht := spine_takeTurn k { named := nodeTwin (selectors s k), parts := parts } s
  (repeat' split) <;> simp_all

@[simp] theorem spine_winAccess (src : Requester) (k : Nat) (f : Block → Block) (s : Block) (h : ∀ s, spine (f s) = spine s) :
    spine (winAccess src k f s) = spine s := by
  unfold winAccess; (repeat' split) <;> simp [h]

@[simp] theorem spine_windowTake (src : Requester) (k : Nat) (parts : List WinCmd) (s : Block) :
    spine (windowTake src k parts s) = spine s := by
  unfold windowTake; (try simp only [])
  first
    | (simp [apply_ite spine]; done)
    | ((repeat' split) <;> first | rfl | (simp [apply_ite spine]; done) | (simp <;> rfl; done) | (simp_all; done))

@[simp] theorem spine_windowBytes (src : Requester) (k off : Nat) (data : List Byte) (s : Block) :
    spine (windowBytes src k off data s) = spine s := by
  unfold windowBytes; (try simp only [])
  first
    | (simp [apply_ite spine]; done)
    | ((repeat' split) <;> first | rfl | (simp [apply_ite spine]; done) | (simp <;> rfl; done) | (simp_all; done))

@[simp] theorem spine_windowCmd (src : Requester) (k off : Nat) (whole : Bool) (c : WinCmd) (s : Block) :
    spine (windowCmd src k off whole c s) = spine s := by
  unfold windowCmd; (try simp only [])
  first
    | (simp [apply_ite spine]; done)
    | ((repeat' split) <;> first | rfl | (simp [apply_ite spine]; done) | (simp <;> rfl; done) | (simp_all; done))

@[simp] theorem spine_parkedWrite (k : Nat) (s : Block) : spine (parkedWrite k s) = spine s := by
  unfold parkedWrite
  split
  · rfl
  · rename_i w rest _
    simp only []
    have ht := spine_takeTurn k w (upCtx k (fun c => { c with parked := rest }) s)
    (repeat' split) <;> simp_all

@[simp] theorem spine_sweepEnd (t : TwinId) (k : Nat) (s : Block) :
    spine (sweepEnd t k s) = spine s := by
  unfold sweepEnd; (try simp only [])
  first
    | (simp [apply_ite spine]; done)
    | ((repeat' split) <;> first | rfl | (simp [apply_ite spine]; done) | (simp <;> rfl; done) | (simp_all; done))

@[simp] theorem spine_upThrd (t : TwinId) (f : ThreadDesk → ThreadDesk) (s : Block) :
    spine (upThrd t f s) = spine s := by
  simp [upThrd]

theorem takeDesk_spine {t : TwinId} {p : DeskMsg → Bool} {s : Block} {r : DeskMsg × Block} (h : takeDesk t p s = some r) :
    spine r.2 = spine s := by
  unfold takeDesk at h; (repeat' split at h) <;> cases h <;> simp

theorem takeArb_spine {t : TwinId} {p : ArbMsg → Bool} {s : Block} {r : ArbMsg × Block} (h : takeArb t p s = some r) :
    spine r.2 = spine s := by
  unfold takeArb at h; (repeat' split at h) <;> cases h <;> simp

@[simp] theorem spine_upThread (x : Nat) (f : Thread → Thread) (s : Block) : spine (upThread x f s) = spine s := by
  simp [upThread]

@[simp] theorem spine_upCore (c : Nat) (f : Core → Core) (s : Block) : spine (upCore c f s) = spine s := by
  unfold upCore; (repeat' split) <;> first | rfl | (simp; done) | (simp <;> rfl; done)

@[simp] theorem spine_threadErr (x : Nat) (core : Nat) (code : Nat) (ctx : Nat) (s : Block) :
    spine (threadErr x core code ctx s) = spine s := by
  simp [threadErr]

@[simp] theorem spine_threadErrBit (x : Nat) (core : Nat) (bit : Nat) (ctx : Nat) (s : Block) :
    spine (threadErrBit x core bit ctx s) = spine s := by
  simp [threadErrBit]

@[simp] theorem spine_threadUnlink (x : Nat) (s : Block) : spine (threadUnlink x s) = spine s := by
  simp [threadUnlink]

@[simp] theorem spine_threadReady (x : Nat) (atHead : Bool) (time : Nat) (s : Block) :
    spine (threadReady x atHead time s) = spine s := by
  simp [threadReady]

@[simp] theorem spine_threadSleep (x : Nat) (st : ThreadState) (due : Nat) (s : Block) :
    spine (threadSleep x st due s) = spine s := by
  unfold threadSleep; (repeat' split) <;> simp

@[simp] theorem spine_wakeThread (x : Nat) (s : Block) : spine (wakeThread x s) = spine s := by
  unfold wakeThread; simp only []; (repeat' split) <;> simp_all

@[simp] theorem spine_wakeThreads (x n : Nat) (s : Block) :
    spine (wakeThreads x n s) = spine s := by
  unfold wakeThreads; (try simp only [])
  first
    | (simp [apply_ite spine]; done)
    | ((repeat' split) <;> first | rfl | (simp [apply_ite spine]; done) | (simp <;> rfl; done) | (simp_all; done))

@[simp] theorem spine_refuseWake (x : Nat) (w : WakeSrc) (s : Block) : spine (refuseWake x w s) = spine s := by
  simp [refuseWake]

@[simp] theorem spine_wakesAt (x : Nat) (ws : List WakeSrc) (s : Block) :
    spine (wakesAt x ws s) = spine s := by
  unfold wakesAt; (try simp only [])
  first
    | (simp [apply_ite spine]; done)
    | ((repeat' split) <;> first | rfl | (simp [apply_ite spine]; done) | (simp <;> rfl; done) | (simp_all; done))

@[simp] theorem spine_sendOffer (t : TwinId) (c : Nat) (o : ThreadOffer) (s : Block) :
    spine (sendOffer t c o s) = spine s := by
  simp [sendOffer]

@[simp] theorem spine_offerUnasked (t : TwinId) (l : List Nat) (s : Block) :
    spine (offerUnasked t l s) = spine s := by
  induction l generalizing s with
  | nil => rfl
  | cons n l ih =>
    unfold offerUnasked
    (repeat' split) <;> simp [*]

@[simp] theorem spine_deskSettle (t : TwinId) (s : Block) : spine (deskSettle t s) = spine s := by
  unfold deskSettle; (repeat' split) <;> simp

@[simp] theorem spine_sendAsks (c : Nat) (s : Block) : spine (sendAsks c s) = spine s := by
  unfold sendAsks; simp only []; (repeat' split) <;> simp_all

@[simp] theorem spine_threadTrace (x : Nat) (c : Nat) (code : Nat) (s : Block) :
    spine (threadTrace x c code s) = spine s := by
  simp [threadTrace]

@[simp] theorem spine_sendRelease (c : Nat) (o : ThreadOffer) (s : Block) :
    spine (sendRelease c o s) = spine s := by
  unfold sendRelease; (try simp only [])
  first
    | (simp [apply_ite spine]; done)
    | ((repeat' split) <;> first | rfl | (simp [apply_ite spine]; done) | (simp <;> rfl; done) | (simp_all; done))

@[simp] theorem spine_askServed (c : Nat) (s : Block) :
    spine (askServed c s) = spine s := by
  unfold askServed; (try simp only [])
  first
    | (simp [apply_ite spine]; done)
    | ((repeat' split) <;> first | rfl | (simp [apply_ite spine]; done) | (simp <;> rfl; done) | (simp_all; done))

@[simp] theorem spine_coreOut (c : Nat) (s : Block) :
    spine (coreOut c s) = spine s := by
  unfold coreOut; (try simp only [])
  first
    | (simp [apply_ite spine]; done)
    | ((repeat' split) <;> first | rfl | (simp [apply_ite spine]; done) | (simp <;> rfl; done) | (simp_all; done))

@[simp] theorem spine_grantThread (c : Nat) (o : ThreadOffer) (loser : Option ThreadOffer) (s : Block) :
    spine (grantThread c o loser s) = spine s := by
  unfold grantThread; (try simp only [])
  first
    | (simp [apply_ite spine]; done)
    | ((repeat' split) <;> first | rfl | (simp [apply_ite spine]; done) | (simp <;> rfl; done) | (simp_all; done))

@[simp] theorem spine_decideAsk (c : Nat) (windowOver : Bool) (s : Block) :
    spine (decideAsk c windowOver s) = spine s := by
  unfold decideAsk; (try simp only [])
  first
    | (simp [apply_ite spine]; done)
    | ((repeat' split) <;> first | rfl | (simp [apply_ite spine]; done) | (simp <;> rfl; done) | (simp_all; done))

@[simp] theorem spine_drivePreempt (c : Nat) (why : PreemptWhy) (s : Block) :
    spine (drivePreempt c why s) = spine s := by
  unfold drivePreempt; (try simp only [])
  first
    | (simp [apply_ite spine]; done)
    | ((repeat' split) <;> first | rfl | (simp [apply_ite spine]; done) | (simp <;> rfl; done) | (simp_all; done))

@[simp] theorem spine_preemptAll (s : Block) : spine (preemptAll s) = spine s := by
  unfold preemptAll
  refine forEach_spine _ _ _ ?_
  intro cls s
  simp only []
  split
  · rfl
  · split
    · simp
    · rfl

@[simp] theorem spine_withdrawOffer (x : Nat) (s : Block) :
    spine (withdrawOffer x s) = spine s := by
  unfold withdrawOffer; (try simp only [])
  first
    | (simp [apply_ite spine]; done)
    | ((repeat' split) <;> first | rfl | (simp [apply_ite spine]; done) | (simp <;> rfl; done) | (simp_all; done))

@[simp] theorem spine_threadFault (x core code : Nat) (s : Block) :
    spine (threadFault x core code s) = spine s := by
  unfold threadFault; (try simp only [])
  first
    | (simp [apply_ite spine]; done)
    | ((repeat' split) <;> first | rfl | (simp [apply_ite spine]; done) | (simp <;> rfl; done) | (simp_all; done))

@[simp] theorem spine_threadFree (x : Nat) (s : Block) :
    spine (threadFree x s) = spine s := by
  unfold threadFree; (try simp only [])
  first
    | (simp [apply_ite spine]; done)
    | ((repeat' split) <;> first | rfl | (simp [apply_ite spine]; done) | (simp <;> rfl; done) | (simp_all; done))

@[simp] theorem spine_applyOutcome (x : Nat) (core : Nat) (o : ThreadOutcome) (why : Option PreemptWhy) (s : Block) :
    spine (applyOutcome x core o why s) = spine s := by
  unfold applyOutcome; (repeat' split) <;> simp

@[simp] theorem spine_coreFreed (c : Nat) (s : Block) :
    spine (coreFreed c s) = spine s := by
  unfold coreFreed; (try simp only [])
  first
    | (simp [apply_ite spine]; done)
    | ((repeat' split) <;> first | rfl | (simp [apply_ite spine]; done) | (simp <;> rfl; done) | (simp_all; done))

@[simp] theorem spine_reportThread (c : Nat) (x : Nat) (o : ThreadOutcome) (s : Block) :
    spine (reportThread c x o s) = spine s := by
  unfold reportThread; simp only []; (repeat' split) <;> simp_all

@[simp] theorem spine_askWord (c : Nat) (s : Block) :
    spine (askWord c s) = spine s := by
  unfold askWord; (try simp only [])
  first
    | (simp [apply_ite spine]; done)
    | ((repeat' split) <;> first | rfl | (simp [apply_ite spine]; done) | (simp <;> rfl; done) | (simp_all; done))

@[simp] theorem spine_reportWord (c x : Nat) (asks : Bool) (o : ThreadOutcome) (s : Block) :
    spine (reportWord c x asks o s) = spine s := by
  unfold reportWord; (try simp only [])
  first
    | (simp [apply_ite spine]; done)
    | ((repeat' split) <;> first | rfl | (simp [apply_ite spine]; done) | (simp <;> rfl; done) | (simp_all; done))

@[simp] theorem spine_wakeWord (c : Nat) (x : Nat) (s : Block) : spine (wakeWord c x s) = spine s := by
  unfold wakeWord; (repeat' split) <;> simp

@[simp] theorem spine_threadWakeReady (id : Nat) (s : Block) :
    spine (threadWakeReady id s) = spine s := by
  unfold threadWakeReady; (try simp only [])
  first
    | (simp [apply_ite spine]; done)
    | ((repeat' split) <;> first | rfl | (simp [apply_ite spine]; done) | (simp <;> rfl; done) | (simp_all; done))

@[simp] theorem spine_wakeItem (t : TwinId) (x : Nat) (ws : List WakeSrc) (s : Block) :
    spine (wakeItem t x ws s) = spine s := by
  unfold wakeItem; (try simp only [])
  first
    | (simp [apply_ite spine]; done)
    | ((repeat' split) <;> first | rfl | (simp [apply_ite spine]; done) | (simp <;> rfl; done) | (simp_all; done))

@[simp] theorem spine_deskAsk (t : TwinId) (s : Block) : spine (deskAsk t s) = spine s := by
  unfold deskAsk
  try simp only []
  (repeat' split) <;> first | rfl | (rename_i h; have := takeDesk_spine h; simp_all; done) | (have := takeDesk_spine ‹takeDesk _ _ _ = some _›; simp_all; done)

@[simp] theorem spine_threadOffer (t : TwinId) (s : Block) : spine (threadOffer t s) = spine s := by
  unfold threadOffer
  try simp only []
  (repeat' split) <;> first | rfl | (rename_i h; have := takeArb_spine h; simp_all; done) | (have := takeArb_spine ‹takeArb _ _ _ = some _›; simp_all; done)

@[simp] theorem spine_noneAnswer (t : TwinId) (s : Block) : spine (noneAnswer t s) = spine s := by
  unfold noneAnswer
  try simp only []
  (repeat' split) <;> first | rfl | (rename_i h; have := takeArb_spine h; simp_all; done) | (have := takeArb_spine ‹takeArb _ _ _ = some _›; simp_all; done)

@[simp] theorem spine_takeThread (t : TwinId) (s : Block) : spine (takeThread t s) = spine s := by
  unfold takeThread
  try simp only []
  (repeat' split) <;> first | rfl | (rename_i h; have := takeDesk_spine h; simp_all; done) | (have := takeDesk_spine ‹takeDesk _ _ _ = some _›; simp_all; done)

@[simp] theorem spine_threadRelease (t : TwinId) (s : Block) : spine (threadRelease t s) = spine s := by
  unfold threadRelease
  try simp only []
  (repeat' split) <;> first | rfl | (rename_i h; have := takeDesk_spine h; simp_all; done) | (have := takeDesk_spine ‹takeDesk _ _ _ = some _›; simp_all; done)

@[simp] theorem spine_offerWindow (c : Nat) (s : Block) : spine (offerWindow c s) = spine s := by
  unfold offerWindow; (repeat' split) <;> simp

@[simp] theorem spine_threadSummary (t : TwinId) (s : Block) : spine (threadSummary t s) = spine s := by
  unfold threadSummary
  try simp only []
  (repeat' split) <;> simp_all

@[simp] theorem spine_preemptLimit (c : Nat) (s : Block) : spine (preemptLimit c s) = spine s := by
  unfold preemptLimit
  split
  · rfl
  · simp only [spine_preemptAll, spine_deskSettle]
    split <;> simp

@[simp] theorem spine_sliceTick (t : TwinId) (s : Block) : spine (sliceTick t s) = spine s := by
  unfold sliceTick
  refine forEach_spine _ _ _ ?_
  intro p s
  simp only []
  split
  · split <;> simp
  · simp

@[simp] theorem spine_dueTick (t : TwinId) (s : Block) : spine (dueTick t s) = spine s := by
  simp [dueTick]

@[simp] theorem spine_delayTick (s : Block) : spine (delayTick s) = spine s := by
  unfold delayTick; simp only []; (repeat' split) <;> simp_all

@[simp] theorem spine_thrdStat (t : TwinId) (st : Nat) (s : Block) : spine (thrdStat t st s) = spine s := by
  simp [thrdStat]

@[simp] theorem spine_threadCreate (t : TwinId) (start : Bool) (s : Block) :
    spine (threadCreate t start s) = spine s := by
  unfold threadCreate; simp only []; (repeat' split) <;> simp_all

@[simp] theorem spine_threadDestroy (t : TwinId) (s : Block) : spine (threadDestroy t s) = spine s := by
  unfold threadDestroy; simp only []; (repeat' split) <;> simp_all

@[simp] theorem spine_threadSet (t : TwinId) (s : Block) : spine (threadSet t s) = spine s := by
  unfold threadSet; simp only []; (repeat' split) <;> simp_all

@[simp] theorem spine_threadCmdWake (t : TwinId) (s : Block) : spine (threadCmdWake t s) = spine s := by
  unfold threadCmdWake; simp only []; (repeat' split) <;> simp_all

@[simp] theorem spine_threadQuery (t : TwinId) (s : Block) : spine (threadQuery t s) = spine s := by
  unfold threadQuery; simp only []; (repeat' split) <;> simp_all

@[simp] theorem spine_coreRemove (c : Nat) (s : Block) :
    spine (coreRemove c s) = spine s := by
  unfold coreRemove; (try simp only [])
  first
    | (simp [apply_ite spine]; done)
    | ((repeat' split) <;> first | rfl | (simp [apply_ite spine]; done) | (simp <;> rfl; done) | (simp_all; done))

@[simp] theorem spine_coreRestore (c : Nat) (s : Block) :
    spine (coreRestore c s) = spine s := by
  unfold coreRestore; (try simp only [])
  first
    | (simp [apply_ite spine]; done)
    | ((repeat' split) <;> first | rfl | (simp [apply_ite spine]; done) | (simp <;> rfl; done) | (simp_all; done))

@[simp] theorem spine_resendAsks (t : TwinId) (s : Block) :
    spine (resendAsks t s) = spine s := by
  unfold resendAsks; (try simp only [])
  first
    | (simp [apply_ite spine]; done)
    | ((repeat' split) <;> first | rfl | (simp [apply_ite spine]; done) | (simp <;> rfl; done) | (simp_all; done))

@[simp] theorem spine_arbiterLose (t : TwinId) (s : Block) : spine (arbiterLose t s) = spine s := by
  unfold arbiterLose
  refine (forEach_spine _ _ _ ?_).trans ?_
  · intro c s
    simp only []
    (repeat' split) <;> simp
  · cases t <;> simp

@[simp] theorem spine_upProof (f : Proofer → Proofer) (s : Block) : spine (upProof f s) = spine s := by
  unfold upProof; (repeat' split) <;> first | rfl | (simp; done) | (simp <;> rfl; done)

@[simp] theorem spine_countPwr (off n : Nat) (s : Block) :
    spine (countPwr off n s) = spine s := by
  unfold countPwr; (try simp only [])
  first
    | (simp [apply_ite spine]; done)
    | ((repeat' split) <;> first | rfl | (simp [apply_ite spine]; done) | (simp <;> rfl; done) | (simp_all; done))

@[simp] theorem spine_pwrTick (s : Block) :
    spine (pwrTick s) = spine s := by
  unfold pwrTick; (try simp only [])
  first
    | (simp [apply_ite spine]; done)
    | ((repeat' split) <;> first | rfl | (simp [apply_ite spine]; done) | (simp <;> rfl; done) | (simp_all; done))

@[simp] theorem spine_setHold (g : Nat) (on : Bool) (s : Block) : spine (setHold g on s) = spine s := by
  unfold setHold; (repeat' split) <;> first | rfl | (simp; done) | (simp <;> rfl; done)

@[simp] theorem spine_driveKept (g : Nat) (s : Block) :
    spine (driveKept g s) = spine s := by
  unfold driveKept; (try simp only [])
  first
    | (simp [apply_ite spine]; done)
    | ((repeat' split) <;> first | rfl | (simp [apply_ite spine]; done) | (simp <;> rfl; done) | (simp_all; done))

@[simp] theorem spine_releaseHold (g : Nat) (s : Block) :
    spine (releaseHold g s) = spine s := by
  unfold releaseHold; (try simp only [])
  first
    | (simp [apply_ite spine]; done)
    | ((repeat' split) <;> first | rfl | (simp [apply_ite spine]; done) | (simp <;> rfl; done) | (simp_all; done))

@[simp] theorem spine_withdrawClaims (d : Nat) (s : Block) :
    spine (withdrawClaims d s) = spine s := by
  unfold withdrawClaims; (try simp only [])
  first
    | (simp [apply_ite spine]; done)
    | ((repeat' split) <;> first | rfl | (simp [apply_ite spine]; done) | (simp <;> rfl; done) | (simp_all; done))

@[simp] theorem spine_openPort (d : Nat) (s : Block) :
    spine (openPort d s) = spine s := by
  unfold openPort; (try simp only [])
  first
    | (simp [apply_ite spine]; done)
    | ((repeat' split) <;> first | rfl | (simp [apply_ite spine]; done) | (simp <;> rfl; done) | (simp_all; done))

@[simp] theorem spine_bankTickAt (want : SMap Nat) (c : Nat) (s : Block) :
    spine (bankTickAt want c s) = spine s := by
  unfold bankTickAt; (try simp only [])
  first
    | (simp [apply_ite spine]; done)
    | ((repeat' split) <;> first | rfl | (simp [apply_ite spine]; done) | (simp <;> rfl; done) | (simp_all; done))

@[simp] theorem spine_bankPowerTick (s : Block) : spine (bankPowerTick s) = spine s := by
  simp [bankPowerTick]

@[simp] theorem spine_bankPowerGood (c b : Nat) (s : Block) :
    spine (bankPowerGood c b s) = spine s := by
  unfold bankPowerGood; (try simp only [])
  first
    | (simp [apply_ite spine]; done)
    | ((repeat' split) <;> first | rfl | (simp [apply_ite spine]; done) | (simp <;> rfl; done) | (simp_all; done))

@[simp] theorem spine_portService (p : Nat) (s : Block) : spine (portService p s) = spine s := by
  unfold portService; simp only []; (repeat' split) <;> simp_all

@[simp] theorem spine_startDom (d : Nat) (gated : Bool) (s : Block) :
    spine (startDom d gated s) = spine s := by
  unfold startDom; (try simp only [])
  first
    | (simp [apply_ite spine]; done)
    | ((repeat' split) <;> first | rfl | (simp [apply_ite spine]; done) | (simp <;> rfl; done) | (simp_all; done))

@[simp] theorem spine_wakeDom (d : Nat) (gated : Bool) (s : Block) :
    spine (wakeDom d gated s) = spine s := by
  unfold wakeDom; (try simp only [])
  first
    | (simp [apply_ite spine]; done)
    | ((repeat' split) <;> first | rfl | (simp [apply_ite spine]; done) | (simp <;> rfl; done) | (simp_all; done))

@[simp] theorem spine_toRun (d : Nat) (s : Block) :
    spine (toRun d s) = spine s := by
  unfold toRun; (try simp only [])
  first
    | (simp [apply_ite spine]; done)
    | ((repeat' split) <;> first | rfl | (simp [apply_ite spine]; done) | (simp <;> rfl; done) | (simp_all; done))

@[simp] theorem spine_domRun (d : Nat) (s : Block) :
    spine (domRun d s) = spine s := by
  unfold domRun; (try simp only [])
  first
    | (simp [apply_ite spine]; done)
    | ((repeat' split) <;> first | rfl | (simp [apply_ite spine]; done) | (simp <;> rfl; done) | (simp_all; done))

@[simp] theorem spine_stopClock (d : Nat) (s : Block) :
    spine (stopClock d s) = spine s := by
  unfold stopClock; (try simp only [])
  first
    | (simp [apply_ite spine]; done)
    | ((repeat' split) <;> first | rfl | (simp [apply_ite spine]; done) | (simp <;> rfl; done) | (simp_all; done))

@[simp] theorem spine_tryStop (d : Nat) (s : Block) :
    spine (tryStop d s) = spine s := by
  unfold tryStop; (try simp only [])
  first
    | (simp [apply_ite spine]; done)
    | ((repeat' split) <;> first | rfl | (simp [apply_ite spine]; done) | (simp <;> rfl; done) | (simp_all; done))

@[simp] theorem spine_domTick (d : Nat) (s : Block) :
    spine (domTick d s) = spine s := by
  unfold domTick; (try simp only [])
  first
    | (simp [apply_ite spine]; done)
    | ((repeat' split) <;> first | rfl | (simp [apply_ite spine]; done) | (simp <;> rfl; done) | (simp_all; done))

@[simp] theorem spine_domainTick (s : Block) : spine (domainTick s) = spine s := by
  simp [domainTick]

@[simp] theorem spine_idleExpiry (d : Nat) (s : Block) : spine (idleExpiry d s) = spine s := by
  unfold idleExpiry; simp only []; (repeat' split) <;> simp_all

@[simp] theorem spine_holdAt (d : Nat) (s : Block) :
    spine (holdAt d s) = spine s := by
  unfold holdAt; (try simp only [])
  first
    | (simp [apply_ite spine]; done)
    | ((repeat' split) <;> first | rfl | (simp [apply_ite spine]; done) | (simp <;> rfl; done) | (simp_all; done))

@[simp] theorem spine_abortAt (d : Nat) (s : Block) :
    spine (abortAt d s) = spine s := by
  unfold abortAt; (try simp only [])
  first
    | (simp [apply_ite spine]; done)
    | ((repeat' split) <;> first | rfl | (simp [apply_ite spine]; done) | (simp <;> rfl; done) | (simp_all; done))

@[simp] theorem spine_withdrawnAt (d : Nat) (s : Block) : spine (withdrawnAt d s) = spine s := by
  unfold withdrawnAt; (repeat' split) <;> simp

@[simp] theorem spine_obEmpty (d : Nat) (s : Block) :
    spine (obEmpty d s) = spine s := by
  unfold obEmpty; (try simp only [])
  first
    | (simp [apply_ite spine]; done)
    | ((repeat' split) <;> first | rfl | (simp [apply_ite spine]; done) | (simp <;> rfl; done) | (simp_all; done))

@[simp] theorem spine_stopTimeout (d : Nat) (s : Block) :
    spine (stopTimeout d s) = spine s := by
  unfold stopTimeout; (try simp only [])
  first
    | (simp [apply_ite spine]; done)
    | ((repeat' split) <;> first | rfl | (simp [apply_ite spine]; done) | (simp <;> rfl; done) | (simp_all; done))

@[simp] theorem spine_gateExpiry (d : Nat) (s : Block) :
    spine (gateExpiry d s) = spine s := by
  unfold gateExpiry; (try simp only [])
  first
    | (simp [apply_ite spine]; done)
    | ((repeat' split) <;> first | rfl | (simp [apply_ite spine]; done) | (simp <;> rfl; done) | (simp_all; done))

@[simp] theorem spine_accessWake (c : Nat) (s : Block) :
    spine (accessWake c s) = spine s := by
  unfold accessWake; (try simp only [])
  first
    | (simp [apply_ite spine]; done)
    | ((repeat' split) <;> first | rfl | (simp [apply_ite spine]; done) | (simp <;> rfl; done) | (simp_all; done))

@[simp] theorem spine_clkOk (d : Nat) (s : Block) : spine (clkOk d s) = spine s := by
  unfold clkOk; (repeat' split) <;> simp

@[simp] theorem spine_cluCtl (v : Nat) (s : Block) :
    spine (cluCtl v s) = spine s := by
  unfold cluCtl; (try simp only [])
  first
    | (simp [apply_ite spine]; done)
    | ((repeat' split) <;> first | rfl | (simp [apply_ite spine]; done) | (simp <;> rfl; done) | (simp_all; done))

@[simp] theorem spine_clockStretch (d : Nat) (s : Block) : spine (clockStretch d s) = spine s := by
  unfold clockStretch; (repeat' split) <;> simp

@[simp] theorem spine_sendRails (rs : List Rail) (mv : Nat) (s : Block) : spine (sendRails rs mv s) = spine s := by
  simp [sendRails]

@[simp] theorem spine_switchDown (target : Nat) (s : Block) :
    spine (switchDown target s) = spine s := by
  unfold switchDown; (try simp only [])
  first
    | (simp [apply_ite spine]; done)
    | ((repeat' split) <;> first | rfl | (simp [apply_ite spine]; done) | (simp <;> rfl; done) | (simp_all; done))

@[simp] theorem spine_startChange (target : Nat) (s : Block) :
    spine (startChange target s) = spine s := by
  unfold startChange; (try simp only [])
  first
    | (simp [apply_ite spine]; done)
    | ((repeat' split) <;> first | rfl | (simp [apply_ite spine]; done) | (simp <;> rfl; done) | (simp_all; done))

@[simp] theorem spine_stepTop (s : Block) : spine (stepTop s) = spine s := by
  unfold stepTop; (repeat' split) <;> simp

@[simp] theorem spine_pmbus (cmd : Nat) (s : Block) :
    spine (pmbus cmd s) = spine s := by
  unfold pmbus; (try simp only [])
  first
    | (simp [apply_ite spine]; done)
    | ((repeat' split) <;> first | rfl | (simp [apply_ite spine]; done) | (simp <;> rfl; done) | (simp_all; done))

@[simp] theorem spine_capPeriod (s : Block) :
    spine (capPeriod s) = spine s := by
  unfold capPeriod; (try simp only [])
  first
    | (simp [apply_ite spine]; done)
    | ((repeat' split) <;> first | rfl | (simp [apply_ite spine]; done) | (simp <;> rfl; done) | (simp_all; done))

@[simp] theorem spine_pmbusReading (w1 : Nat) (w2 : Nat) (s : Block) : spine (pmbusReading w1 w2 s) = spine s := by
  unfold pmbusReading; simp only []; (repeat' split) <;> simp_all

@[simp] theorem spine_pmbusLost (s : Block) :
    spine (pmbusLost s) = spine s := by
  unfold pmbusLost; (try simp only [])
  first
    | (simp [apply_ite spine]; done)
    | ((repeat' split) <;> first | rfl | (simp [apply_ite spine]; done) | (simp <;> rfl; done) | (simp_all; done))

@[simp] theorem spine_pmbAlert (w : Nat) (s : Block) :
    spine (pmbAlert w s) = spine s := by
  unfold pmbAlert; (try simp only [])
  first
    | (simp [apply_ite spine]; done)
    | ((repeat' split) <;> first | rfl | (simp [apply_ite spine]; done) | (simp <;> rfl; done) | (simp_all; done))

@[simp] theorem spine_clockSwitched (s : Block) :
    spine (clockSwitched s) = spine s := by
  unfold clockSwitched; (try simp only [])
  first
    | (simp [apply_ite spine]; done)
    | ((repeat' split) <;> first | rfl | (simp [apply_ite spine]; done) | (simp <;> rfl; done) | (simp_all; done))

@[simp] theorem spine_railsDone (c : StepChange) (s : Block) : spine (railsDone c s) = spine s := by
  unfold railsDone; (repeat' split) <;> simp

@[simp] theorem spine_avsAck (r : Rail) (s : Block) :
    spine (avsAck r s) = spine s := by
  unfold avsAck; (try simp only [])
  first
    | (simp [apply_ite spine]; done)
    | ((repeat' split) <;> first | rfl | (simp [apply_ite spine]; done) | (simp <;> rfl; done) | (simp_all; done))

@[simp] theorem spine_avsFail (r : Rail) (s : Block) :
    spine (avsFail r s) = spine s := by
  unfold avsFail; (try simp only [])
  first
    | (simp [apply_ite spine]; done)
    | ((repeat' split) <;> first | rfl | (simp [apply_ite spine]; done) | (simp <;> rfl; done) | (simp_all; done))

@[simp] theorem spine_settleExpiry (s : Block) : spine (settleExpiry s) = spine s := by
  unfold settleExpiry; (repeat' split) <;> simp

@[simp] theorem spine_pwrEnable (v : Bool) (s : Block) : spine (pwrEnable v s) = spine s := by
  unfold pwrEnable; (repeat' split) <;> simp

@[simp] theorem spine_domainGroupStart (s : Block) : spine (domainGroupStart s) = spine s := by
  unfold domainGroupStart; (repeat' split) <;> simp

@[simp] theorem spine_portReady (p : Nat) (s : Block) : spine (portReady p s) = spine s := by
  unfold portReady; simp only []; (repeat' split) <;> simp_all

@[simp] theorem spine_gateDom (d : Nat) (s : Block) :
    spine (gateDom d s) = spine s := by
  unfold gateDom; (try simp only [])
  first
    | (simp [apply_ite spine]; done)
    | ((repeat' split) <;> first | rfl | (simp [apply_ite spine]; done) | (simp <;> rfl; done) | (simp_all; done))

@[simp] theorem spine_zeroWord (t : TwinId) (g w : Nat) (s : Block) :
    spine (zeroWord t g w s) = spine s := by
  unfold zeroWord; (try simp only [])
  first
    | (simp [apply_ite spine]; done)
    | ((repeat' split) <;> first | rfl | (simp [apply_ite spine]; done) | (simp <;> rfl; done) | (simp_all; done))

@[simp] theorem spine_counterLost (t : TwinId) (w : Nat) (s : Block) :
    spine (counterLost t w s) = spine s := by
  unfold counterLost; (try simp only [])
  first
    | (simp [apply_ite spine]; done)
    | ((repeat' split) <;> first | rfl | (simp [apply_ite spine]; done) | (simp <;> rfl; done) | (simp_all; done))

@[simp] theorem spine_traceLost (t : TwinId) (w : Nat) (s : Block) :
    spine (traceLost t w s) = spine s := by
  unfold traceLost; (try simp only [])
  first
    | (simp [apply_ite spine]; done)
    | ((repeat' split) <;> first | rfl | (simp [apply_ite spine]; done) | (simp <;> rfl; done) | (simp_all; done))

@[simp] theorem spine_threadLost (t : TwinId) (w : Nat) (s : Block) : spine (threadLost t w s) = spine s := by
  unfold threadLost; simp only []; (repeat' split) <;> simp_all

@[simp] theorem spine_upRel (t : TwinId) (f : RelUnit → RelUnit) (s : Block) : spine (upRel t f s) = spine s := by
  simp [upRel]

@[simp] theorem spine_logError (t : TwinId) (w : Nat) (s : Block) : spine (logError t w s) = spine s := by
  simp [logError]

@[simp] theorem spine_logOutcome (t : TwinId) (g no outcome rows : Nat) (s : Block) :
    spine (logOutcome t g no outcome rows s) = spine s := by
  unfold logOutcome; (try simp only [])
  first
    | (simp [apply_ite spine]; done)
    | ((repeat' split) <;> first | rfl | (simp [apply_ite spine]; done) | (simp <;> rfl; done) | (simp_all; done))

@[simp] theorem spine_setErrs (t : TwinId) (g : Nat) (bit : Nat) (s : Block) :
    spine (setErrs t g bit s) = spine s := by
  simp [setErrs]

@[simp] theorem spine_upPair (f : PairSt → PairSt) (s : Block) : spine (upPair f s) = spine s := by
  unfold upPair; (repeat' split) <;> first | rfl | (simp; done) | (simp <;> rfl; done)

@[simp] theorem spine_upSram (t : TwinId) (g : Nat) (f : SramGroup → SramGroup) (s : Block) :
    spine (upSram t g f s) = spine s := by
  unfold upSram; (try simp only [])
  first
    | (simp [apply_ite spine]; done)
    | ((repeat' split) <;> first | rfl | (simp [apply_ite spine]; done) | (simp <;> rfl; done) | (simp_all; done))

@[simp] theorem spine_startTests (t : TwinId) (n : Nat) (s : Block) : spine (startTests t n s) = spine s := by
  induction n generalizing s with
  | zero => rfl
  | succ n ih =>
    unfold startTests
    try simp only []
    (repeat' split) <;> simp [*]

@[simp] theorem spine_queueTest (t : TwinId) (g bank no : Nat) (s : Block) :
    spine (queueTest t g bank no s) = spine s := by
  unfold queueTest; (try simp only [])
  first
    | (simp [apply_ite spine]; done)
    | ((repeat' split) <;> first | rfl | (simp [apply_ite spine]; done) | (simp <;> rfl; done) | (simp_all; done))

@[simp] theorem spine_dropTest (t : TwinId) (s : Block) :
    spine (dropTest t s) = spine s := by
  unfold dropTest; (try simp only [])
  first
    | (simp [apply_ite spine]; done)
    | ((repeat' split) <;> first | rfl | (simp [apply_ite spine]; done) | (simp <;> rfl; done) | (simp_all; done))

@[simp] theorem spine_bankCopyEnd (t : TwinId) (s : Block) : spine (bankCopyEnd t s) = spine s := by
  unfold bankCopyEnd; (repeat' split) <;> simp

@[simp] theorem spine_testDone (t : TwinId) (b : BankTest) (outcome : Nat) (s : Block) :
    spine (testDone t b outcome s) = spine s := by
  unfold testDone; (try simp only [])
  first
    | (simp [apply_ite spine]; done)
    | ((repeat' split) <;> first | rfl | (simp [apply_ite spine]; done) | (simp <;> rfl; done) | (simp_all; done))

@[simp] theorem spine_testRetired (t : TwinId) (b : BankTest) (s : Block) :
    spine (testRetired t b s) = spine s := by
  unfold testRetired; (try simp only [])
  first
    | (simp [apply_ite spine]; done)
    | ((repeat' split) <;> first | rfl | (simp [apply_ite spine]; done) | (simp <;> rfl; done) | (simp_all; done))

@[simp] theorem spine_marchTestEnd (t : TwinId) (failing : Nat) (s : Block) :
    spine (marchTestEnd t failing s) = spine s := by
  unfold marchTestEnd; (repeat' split) <;> simp

@[simp] theorem spine_retireBank (t : TwinId) (g bank : Nat) (s : Block) : spine (retireBank t g bank s).1 = spine s := by
  unfold retireBank; simp only []; split <;> simp

@[simp] theorem spine_repairBank (t : TwinId) (g bank : Nat) (ns : List Nat) (s : Block) :
    spine (repairBank t g bank ns s).1 = spine s := by
  induction ns generalizing s with
  | nil => rfl
  | cons n ns ih =>
    unfold repairBank
    simp only []
    split
    · rw [ih]; simp
    · simp

@[simp] theorem spine_fullTest (t : TwinId) (fs : List (Nat × Nat × List Nat)) (s : Block) :
    spine (fullTest t fs s).1 = spine s := by
  induction fs generalizing s with
  | nil => rfl
  | cons f fs ih =>
    obtain ⟨g, bank, rows⟩ := f
    unfold fullTest
    simp only []
    split
    · exact ih s
    · rw [ih]; simp

@[simp] theorem spine_endFullTest (t : TwinId) (fs : List (Nat × Nat × List Nat)) (logicOk : Bool) (s : Block) :
    spine (endFullTest t fs logicOk s).1 = spine s := by
  simp [endFullTest]

@[simp] theorem spine_pairFatal (s : Block) : spine (pairFatal s) = spine s := by
  simp [pairFatal]

@[simp] theorem spine_ueOutcome (t : TwinId) (i : GroupInfo) (g bank word : Nat) (owner : Option Nat) (s : Block) :
    spine (ueOutcome t i g bank word owner s) = spine s := by
  unfold ueOutcome; (try simp only [])
  first
    | (simp [apply_ite spine]; done)
    | ((repeat' split) <;> first | rfl | (simp [apply_ite spine]; done) | (simp <;> rfl; done) | (simp_all; done))

theorem spareHit_spine {t : TwinId} {g b n : Nat} {s r : Block} (h : spareHit t g b n s = some r) :
    spine r = spine s := by
  unfold spareHit at h; (repeat' split at h) <;> cases h <;> simp

@[simp] theorem spine_sramError (t : TwinId) (g : Nat) (bank : Nat) (word : Nat) (double : Bool) (injected : Bool) (s : Block) :
    spine (sramError t g bank word double injected s) = spine s := by
  unfold sramError
  split
  · rfl
  · simp only []
    split
    · simp
    · split
      · (repeat' split) <;> simp
      · split
        · rename_i h
          rw [spareHit_spine h]
          (repeat' split) <;> simp
        · (repeat' split) <;> simp

@[simp] theorem spine_patrolRead (t : TwinId) (g : Nat) (bank : Nat) (word : Nat) (err : ReadError) (s : Block) :
    spine (patrolRead t g bank word err s) = spine s := by
  unfold patrolRead; simp only []; (repeat' split) <;> simp_all

@[simp] theorem spine_errInjectWrite (key : Nat) (v : Nat) (s : Block) :
    spine (errInjectWrite key v s) = spine s := by
  unfold errInjectWrite; simp only []; (repeat' split) <;> simp_all

@[simp] theorem spine_discardTwin (a : Block) (k : Nat) (t : TwinId) (s : Block) :
    spine (discardTwin a k t s) = spine s := by
  unfold discardTwin; (try simp only [])
  first
    | (simp [apply_ite spine]; done)
    | ((repeat' split) <;> first | rfl | (simp [apply_ite spine]; done) | (simp <;> rfl; done) | (simp_all; done))

@[simp] theorem spine_discardUse (a : Block) (k : Nat) (s : Block) :
    spine (discardUse a k s) = spine s := by
  unfold discardUse; (try simp only [])
  first
    | (simp [apply_ite spine]; done)
    | ((repeat' split) <;> first | rfl | (simp [apply_ite spine]; done) | (simp <;> rfl; done) | (simp_all; done))

@[simp] theorem spine_consumeOne (a : Block) (ws : List SramWord) (key inj : Nat) (s : Block) :
    spine (consumeOne a ws key inj s) = spine s := by
  unfold consumeOne; (try simp only [])
  first
    | (simp [apply_ite spine]; done)
    | ((repeat' split) <;> first | rfl | (simp [apply_ite spine]; done) | (simp <;> rfl; done) | (simp_all; done))

@[simp] theorem spine_consumeInjections (a : Block) (ws : List SramWord) (s : Block) :
    spine (consumeInjections a ws s) = spine s := by
  unfold consumeInjections; (try simp only [])
  first
    | (simp [apply_ite spine]; done)
    | ((repeat' split) <;> first | rfl | (simp [apply_ite spine]; done) | (simp <;> rfl; done) | (simp_all; done))

@[simp] theorem spine_setSvc (t : TwinId) (x : TwinSt) (s : Block) : spine (setSvc t x s) = spine s := by
  simp [setSvc]

@[simp] theorem spine_setCause (t : TwinId) (cause : Nat) (s : Block) : spine (setCause t cause s) = spine s := by
  simp [setCause]

@[simp] theorem spine_partnerOnFatal (t : TwinId) (s : Block) :
    spine (partnerOnFatal t s) = spine s := by
  unfold partnerOnFatal; (try simp only [])
  first
    | (simp [apply_ite spine]; done)
    | ((repeat' split) <;> first | rfl | (simp [apply_ite spine]; done) | (simp <;> rfl; done) | (simp_all; done))

@[simp] theorem spine_dropPairTest (t : TwinId) (s : Block) :
    spine (dropPairTest t s) = spine s := by
  unfold dropPairTest; (try simp only [])
  first
    | (simp [apply_ite spine]; done)
    | ((repeat' split) <;> first | rfl | (simp [apply_ite spine]; done) | (simp <;> rfl; done) | (simp_all; done))

@[simp] theorem spine_dropPairOp (t : TwinId) (s : Block) :
    spine (dropPairOp t s) = spine s := by
  unfold dropPairOp; (try simp only [])
  first
    | (simp [apply_ite spine]; done)
    | ((repeat' split) <;> first | rfl | (simp [apply_ite spine]; done) | (simp <;> rfl; done) | (simp_all; done))

@[simp] theorem spine_dropSteps (t : TwinId) (s : Block) :
    spine (dropSteps t s) = spine s := by
  unfold dropSteps; (try simp only [])
  first
    | (simp [apply_ite spine]; done)
    | ((repeat' split) <;> first | rfl | (simp [apply_ite spine]; done) | (simp <;> rfl; done) | (simp_all; done))

@[simp] theorem spine_twinFatal (t : TwinId) (cause : Nat) (s : Block) :
    spine (twinFatal t cause s) = spine s := by
  unfold twinFatal; (try simp only [])
  first
    | (simp [apply_ite spine]; done)
    | ((repeat' split) <;> first | rfl | (simp [apply_ite spine]; done) | (simp <;> rfl; done) | (simp_all; done))

@[simp] theorem spine_askLatch (t : TwinId) (s : Block) :
    spine (askLatch t s) = spine s := by
  unfold askLatch; (try simp only [])
  first
    | (simp [apply_ite spine]; done)
    | ((repeat' split) <;> first | rfl | (simp [apply_ite spine]; done) | (simp <;> rfl; done) | (simp_all; done))

@[simp] theorem spine_heartbeat (t : TwinId) (s : Block) : spine (heartbeat t s) = spine s := by
  unfold heartbeat; (repeat' split) <;> simp

@[simp] theorem spine_heartbeatTimeout (t : TwinId) (s : Block) : spine (heartbeatTimeout t s) = spine s := by
  unfold heartbeatTimeout; (repeat' split) <;> simp

@[simp] theorem spine_watchdog (t : TwinId) (s : Block) :
    spine (watchdog t s) = spine s := by
  unfold watchdog; (try simp only [])
  first
    | (simp [apply_ite spine]; done)
    | ((repeat' split) <;> first | rfl | (simp [apply_ite spine]; done) | (simp <;> rfl; done) | (simp_all; done))

@[simp] theorem spine_wdogKick (t : TwinId) (v : Nat) (s : Block) : spine (wdogKick t v s) = spine s := by
  unfold wdogKick; (repeat' split) <;> simp

@[simp] theorem spine_fatalAt (t : TwinId) (s : Block) : spine (fatalAt t s) = spine s := by
  unfold fatalAt
  try simp only []
  (repeat' split) <;> first | rfl | (rename_i h; have := takeCtrl_spine h; simp_all; done) | (have := takeCtrl_spine ‹takeCtrl _ _ _ = some _›; simp_all; done)

@[simp] theorem spine_recallClaims (s : Block) :
    spine (recallClaims s) = spine s := by
  unfold recallClaims; (try simp only [])
  first
    | (simp [apply_ite spine]; done)
    | ((repeat' split) <;> first | rfl | (simp [apply_ite spine]; done) | (simp <;> rfl; done) | (simp_all; done))

@[simp] theorem spine_loseEngines (sv f : TwinId) (s : Block) :
    spine (loseEngines sv f s) = spine s := by
  unfold loseEngines; (try simp only [])
  first
    | (simp [apply_ite spine]; done)
    | ((repeat' split) <;> first | rfl | (simp [apply_ite spine]; done) | (simp <;> rfl; done) | (simp_all; done))

@[simp] theorem spine_oweFlushes (sv : TwinId) (f : TwinId) (s : Block) : spine (oweFlushes sv f s) = spine s := by
  unfold oweFlushes
  refine (forEach_spine _ _ _ ?_).trans ?_
  · intro p s
    split
    · simp
    · simp only []
      exact (forEach_spine _ _ _ (by intro c s; simp)).trans (by simp)
    · simp
  · simp

@[simp] theorem spine_relinkProxies (sv : TwinId) (s : Block) : spine (relinkProxies sv s) = spine s := by
  simp [relinkProxies]

@[simp] theorem spine_loseCtx (sv : TwinId) (k : Nat) (s : Block) :
    spine (loseCtx sv k s) = spine s := by
  unfold loseCtx; (try simp only [])
  first
    | (simp [apply_ite spine]; done)
    | ((repeat' split) <;> first | rfl | (simp [apply_ite spine]; done) | (simp <;> rfl; done) | (simp_all; done))

@[simp] theorem spine_freeMoves (sv : TwinId) (s : Block) : spine (freeMoves sv s) = spine s := by
  simp [freeMoves]

@[simp] theorem spine_freeSweeps (f : TwinId) (s : Block) : spine (freeSweeps f s) = spine s := by
  simp [freeSweeps]

@[simp] theorem spine_zeroPorts (t owner : TwinId) (s : Block) :
    spine (zeroPorts t owner s) = spine s := by
  unfold zeroPorts; (try simp only [])
  first
    | (simp [apply_ite spine]; done)
    | ((repeat' split) <;> first | rfl | (simp [apply_ite spine]; done) | (simp <;> rfl; done) | (simp_all; done))

@[simp] theorem spine_takeover (sv : TwinId) (s : Block) :
    spine (takeover sv s) = spine s := by
  unfold takeover; (try simp only [])
  first
    | (simp [apply_ite spine]; done)
    | ((repeat' split) <;> first | rfl | (simp [apply_ite spine]; done) | (simp <;> rfl; done) | (simp_all; done))

@[simp] theorem spine_latchAnswer (s : Block) :
    spine (latchAnswer s) = spine s := by
  unfold latchAnswer; (try simp only [])
  first
    | (simp [apply_ite spine]; done)
    | ((repeat' split) <;> first | rfl | (simp [apply_ite spine]; done) | (simp <;> rfl; done) | (simp_all; done))

@[simp] theorem spine_startDump (f : TwinId) (s : Block) : spine (startDump f s) = spine s := by
  unfold startDump; (repeat' split) <;> simp

@[simp] theorem spine_recordSweepEnd (t : TwinId) (s : Block) :
    spine (recordSweepEnd t s) = spine s := by
  unfold recordSweepEnd; (try simp only [])
  first
    | (simp [apply_ite spine]; done)
    | ((repeat' split) <;> first | rfl | (simp [apply_ite spine]; done) | (simp <;> rfl; done) | (simp_all; done))

@[simp] theorem spine_pairStatus (st : Nat) (s : Block) : spine (pairStatus st s) = spine s := by
  simp [pairStatus]

@[simp] theorem spine_pairCtl (f : Block → Block) (s : Block) (h : ∀ s, spine (f s) = spine s) :
    spine (pairCtl f s) = spine s := by
  unfold pairCtl; split <;> simp [h]

@[simp] theorem spine_detach (d : TwinId) (s : Block) :
    spine (detach d s) = spine s := by
  unfold detach; (try simp only [])
  first
    | (simp [apply_ite spine]; done)
    | ((repeat' split) <;> first | rfl | (simp [apply_ite spine]; done) | (simp <;> rfl; done) | (simp_all; done))

@[simp] theorem spine_detachDrained (t : TwinId) (s : Block) : spine (detachDrained t s) = spine s := by
  unfold detachDrained; (repeat' split) <;> simp

@[simp] theorem spine_drainLimit (t : TwinId) (s : Block) : spine (drainLimit t s) = spine s := by
  unfold drainLimit; (repeat' split) <;> simp

@[simp] theorem spine_engineWaitLimit (t : TwinId) (s : Block) : spine (engineWaitLimit t s) = spine s := by
  unfold engineWaitLimit; (repeat' split) <;> simp

@[simp] theorem spine_resamplePorts (d : TwinId) (s : Block) : spine (resamplePorts d s) = spine s := by
  simp [resamplePorts]

@[simp] theorem spine_syncService (s : Block) :
    spine (syncService s) = spine s := by
  unfold syncService; (try simp only [])
  first
    | (simp [apply_ite spine]; done)
    | ((repeat' split) <;> first | rfl | (simp [apply_ite spine]; done) | (simp <;> rfl; done) | (simp_all; done))

@[simp] theorem spine_handoverAt (t : TwinId) (s : Block) : spine (handoverAt t s) = spine s := by
  unfold handoverAt
  try simp only []
  (repeat' split) <;> first | rfl | (rename_i h; have := spine_takeHeld h; simp_all; done) | (have := spine_takeHeld ‹takeHeld _ _ _ = some _›; simp_all; done)

@[simp] theorem spine_zeroTwin (t : TwinId) (s : Block) :
    spine (zeroTwin t s) = spine s := by
  unfold zeroTwin; (try simp only [])
  first
    | (simp [apply_ite spine]; done)
    | ((repeat' split) <;> first | rfl | (simp [apply_ite spine]; done) | (simp <;> rfl; done) | (simp_all; done))

@[simp] theorem spine_selfTestEnd (t : TwinId) (fails : List (Nat × Nat × List Nat)) (logicOk : Bool) (s : Block) :
    spine (selfTestEnd t fails logicOk s) = spine s := by
  unfold selfTestEnd; (try simp only [])
  first
    | (simp [apply_ite spine]; done)
    | ((repeat' split) <;> first | rfl | (simp [apply_ite spine]; done) | (simp <;> rfl; done) | (simp_all; done))

@[simp] theorem spine_rejoin (d : TwinId) (s : Block) : spine (rejoin d s) = spine s := by
  unfold rejoin; simp only []; (repeat' split) <;> simp_all

@[simp] theorem spine_resyncAt (t : TwinId) (s : Block) : spine (resyncAt t s) = spine s := by
  unfold resyncAt; (repeat' split) <;> simp

@[simp] theorem spine_failTwin (t : TwinId) (s : Block) : spine (failTwin t s) = spine s := by
  simp [failTwin]

@[simp] theorem spine_recover (t : TwinId) (s : Block) : spine (recover t s) = spine s := by
  unfold recover; (repeat' split) <;> simp

@[simp] theorem spine_dumpEnd (t : TwinId) (sections : Nat) (poison : List (Nat × Nat)) (s : Block) :
    spine (dumpEnd t sections poison s) = spine s := by
  unfold dumpEnd; (try simp only [])
  first
    | (simp [apply_ite spine]; done)
    | ((repeat' split) <;> first | rfl | (simp [apply_ite spine]; done) | (simp <;> rfl; done) | (simp_all; done))

end Sys2Proof.Machine
end

