-- ==== Sys2Proof/Laws/SpineD.lean ====
section
/-! SUPPORT. What the operations leave alone of the block's spine: observation, registers and the cascade. One lemma per operation. -/

namespace Sys2Proof.Machine

set_option maxRecDepth 8000

@[simp] theorem spine_invSel (t : TwinId) (acc : Access) (v : Nat) (s : Block) :
    spine (invSel t acc v s) = spine s := by
  unfold invSel; (try simp only [])
  first
    | (simp [apply_ite spine]; done)
    | ((repeat' split) <;> first | rfl | (simp [apply_ite spine]; done) | (simp <;> rfl; done) | (simp_all; done))

@[simp] theorem spine_invReadDone (t : TwinId) (s : Block) :
    spine (invReadDone t s) = spine s := by
  unfold invReadDone; (try simp only [])
  first
    | (simp [apply_ite spine]; done)
    | ((repeat' split) <;> first | rfl | (simp [apply_ite spine]; done) | (simp <;> rfl; done) | (simp_all; done))

@[simp] theorem spine_optCmd (t : TwinId) (start : Bool) (first : Nat) (last : Nat) (s : Block) :
    spine (optCmd t start first last s) = spine s := by
  unfold optCmd; (repeat' split) <;> simp

@[simp] theorem spine_freezeCmd (twins : Nat) (s : Block) : spine (freezeCmd twins s) = spine s := by
  unfold freezeCmd
  try simp only []
  (repeat' split) <;> simp_all

@[simp] theorem spine_freezeItem (t : TwinId) (s : Block) : spine (freezeItem t s) = spine s := by
  unfold freezeItem
  try simp only []
  (repeat' split) <;> first | rfl | (rename_i h; have := takeCtrl_spine h; simp_all; done) | (have := takeCtrl_spine ‹takeCtrl _ _ _ = some _›; simp_all; done)

@[simp] theorem spine_haltOne (t : TwinId) (s : Block) : spine (haltOne t s) = spine s := by
  unfold haltOne
  try simp only []
  (repeat' split) <;> simp_all

@[simp] theorem spine_freezeRec (thaw : Bool) (t : TwinId) (s : Block) : spine (freezeRec thaw t s) = spine s := by
  unfold freezeRec; (repeat' split) <;> simp

@[simp] theorem spine_freezeApply (s : Block) :
    spine (freezeApply s) = spine s := by
  unfold freezeApply; (try simp only [])
  first
    | (simp [apply_ite spine]; done)
    | ((repeat' split) <;> first | rfl | (simp [apply_ite spine]; done) | (simp <;> rfl; done) | (simp_all; done))

@[simp] theorem spine_thawCmd (s : Block) :
    spine (thawCmd s) = spine s := by
  unfold thawCmd; (try simp only [])
  first
    | (simp [apply_ite spine]; done)
    | ((repeat' split) <;> first | rfl | (simp [apply_ite spine]; done) | (simp <;> rfl; done) | (simp_all; done))

@[simp] theorem spine_resume (t : TwinId) (s : Block) :
    spine (resume t s) = spine s := by
  unfold resume; (try simp only [])
  first
    | (simp [apply_ite spine]; done)
    | ((repeat' split) <;> first | rfl | (simp [apply_ite spine]; done) | (simp <;> rfl; done) | (simp_all; done))

@[simp] theorem spine_thawApply (s : Block) :
    spine (thawApply s) = spine s := by
  unfold thawApply; (try simp only [])
  first
    | (simp [apply_ite spine]; done)
    | ((repeat' split) <;> first | rfl | (simp [apply_ite spine]; done) | (simp <;> rfl; done) | (simp_all; done))

@[simp] theorem spine_viewTick (s : Block) :
    spine (viewTick s) = spine s := by
  unfold viewTick; (try simp only [])
  first
    | (simp [apply_ite spine]; done)
    | ((repeat' split) <;> first | rfl | (simp [apply_ite spine]; done) | (simp <;> rfl; done) | (simp_all; done))

@[simp] theorem spine_haltLimit (t : TwinId) (s : Block) : spine (haltLimit t s) = spine s := by
  unfold haltLimit; (repeat' split) <;> first | rfl | (simp; done) | (simp <;> rfl; done)

@[simp] theorem spine_ringWriteAck (t : TwinId) (s : Block) :
    spine (ringWriteAck t s) = spine s := by
  unfold ringWriteAck; (try simp only [])
  first
    | (simp [apply_ite spine]; done)
    | ((repeat' split) <;> first | rfl | (simp [apply_ite spine]; done) | (simp <;> rfl; done) | (simp_all; done))

@[simp] theorem spine_ringIo (t : TwinId) (s : Block) :
    spine (ringIo t s) = spine s := by
  unfold ringIo; (try simp only [])
  first
    | (simp [apply_ite spine]; done)
    | ((repeat' split) <;> first | rfl | (simp [apply_ite spine]; done) | (simp <;> rfl; done) | (simp_all; done))

@[simp] theorem spine_daybRdWrite (t : TwinId) (acc : Access) (v : Nat) (s : Block) :
    spine (daybRdWrite t acc v s) = spine s := by
  unfold daybRdWrite; simp only []; (repeat' split) <;> simp_all

@[simp] theorem spine_ringBaseWrite (t : TwinId) (v : Nat) (s : Block) :
    spine (ringBaseWrite t v s) = spine s := by
  unfold ringBaseWrite; (try simp only [])
  first
    | (simp [apply_ite spine]; done)
    | ((repeat' split) <;> first | rfl | (simp [apply_ite spine]; done) | (simp <;> rfl; done) | (simp_all; done))

@[simp] theorem spine_wfgGo (t : TwinId) (all : Bool) (k : Nat) (s : Block) :
    spine (wfgGo t all k s) = spine s := by
  unfold wfgGo; (try simp only [])
  first
    | (simp [apply_ite spine]; done)
    | ((repeat' split) <;> first | rfl | (simp [apply_ite spine]; done) | (simp <;> rfl; done) | (simp_all; done))

@[simp] theorem spine_wfgEnd (t : TwinId) (s : Block) :
    spine (wfgEnd t s) = spine s := by
  unfold wfgEnd; (try simp only [])
  first
    | (simp [apply_ite spine]; done)
    | ((repeat' split) <;> first | rfl | (simp [apply_ite spine]; done) | (simp <;> rfl; done) | (simp_all; done))

@[simp] theorem spine_hwClr (t : TwinId) (page : HwClrPage) (s : Block) : spine (hwClr t page s) = spine s := by
  unfold hwClr; (repeat' split) <;> simp

@[simp] theorem spine_writePhase (s : Block) :
    spine (writePhase s) = spine s := by
  unfold writePhase; (try simp only [])
  first
    | (simp [apply_ite spine]; done)
    | ((repeat' split) <;> first | rfl | (simp [apply_ite spine]; done) | (simp <;> rfl; done) | (simp_all; done))

@[simp] theorem spine_powerIslands (s : Block) : spine (powerIslands s) = spine s := by
  simp [powerIslands]

@[simp] theorem spine_loadFuses (s : Block) :
    spine (loadFuses s) = spine s := by
  unfold loadFuses; (try simp only [])
  first
    | (simp [apply_ite spine]; done)
    | ((repeat' split) <;> first | rfl | (simp [apply_ite spine]; done) | (simp <;> rfl; done) | (simp_all; done))

@[simp] theorem spine_fatalFreeze (t : TwinId) (s : Block) :
    spine (fatalFreeze t s) = spine s := by
  unfold fatalFreeze; (try simp only [])
  first
    | (simp [apply_ite spine]; done)
    | ((repeat' split) <;> first | rfl | (simp [apply_ite spine]; done) | (simp <;> rfl; done) | (simp_all; done))

@[simp] theorem spine_readBootHeader (t : TwinId) (s : Block) :
    spine (readBootHeader t s) = spine s := by
  unfold readBootHeader; (try simp only [])
  first
    | (simp [apply_ite spine]; done)
    | ((repeat' split) <;> first | rfl | (simp [apply_ite spine]; done) | (simp <;> rfl; done) | (simp_all; done))

@[simp] theorem spine_readImage (t : TwinId) (header : List Nat) (s : Block) :
    spine (readImage t header s) = spine s := by
  unfold readImage; (try simp only [])
  first
    | (simp [apply_ite spine]; done)
    | ((repeat' split) <;> first | rfl | (simp [apply_ite spine]; done) | (simp <;> rfl; done) | (simp_all; done))

@[simp] theorem spine_joinAlone (t : TwinId) (cause : Nat) (s : Block) :
    spine (joinAlone t cause s) = spine s := by
  unfold joinAlone; (try simp only [])
  first
    | (simp [apply_ite spine]; done)
    | ((repeat' split) <;> first | rfl | (simp [apply_ite spine]; done) | (simp <;> rfl; done) | (simp_all; done))

@[simp] theorem spine_joined (ok0 : Bool) (ok1 : Bool) (s : Block) : spine (joined ok0 ok1 s) = spine s := by
  unfold joined; (repeat' split) <;> simp

@[simp] theorem spine_dropResync (t : TwinId) (s : Block) :
    spine (dropResync t s) = spine s := by
  unfold dropResync; (try simp only [])
  first
    | (simp [apply_ite spine]; done)
    | ((repeat' split) <;> first | rfl | (simp [apply_ite spine]; done) | (simp <;> rfl; done) | (simp_all; done))

@[simp] theorem spine_writeRange (t : TwinId) (key : Nat) (r : RangeReg) (acc : Access) (v : Nat) (s : Block) :
    spine (writeRange t key r acc v s) = spine s := by
  unfold writeRange; simp only []; (repeat' split) <;> simp_all

@[simp] theorem spine_writePool (t : TwinId) (key : Nat) (acc : Access) (v : Nat) (s : Block) :
    spine (writePool t key acc v s) = spine s := by
  unfold writePool; simp only []; (repeat' split) <;> simp_all

@[simp] theorem spine_writeWindow (acc : Access) (v : Nat) (s : Block) : spine (writeWindow acc v s) = spine s := by
  unfold writeWindow; simp only []; (repeat' split) <;> simp_all

@[simp] theorem spine_writeSelect (acc : Access) (v : Nat) (s : Block) : spine (writeSelect acc v s) = spine s := by
  simp [writeSelect]

@[simp] theorem spine_writeRecipe (acc : Access) (v : Nat) (s : Block) : spine (writeRecipe acc v s) = spine s := by
  unfold writeRecipe; (repeat' split) <;> simp

@[simp] theorem spine_writeLast (t : TwinId) (p : Nat) (off : Nat) (d : Nat) (s : Block) :
    spine (writeLast t p off d s) = spine s := by
  simp [writeLast]

@[simp] theorem spine_writeOwner (acc : Access) (v : Nat) (s : Block) : spine (writeOwner acc v s) = spine s := by
  unfold writeOwner; simp only []; (repeat' split) <;> simp_all

@[simp] theorem spine_writeNotifyBase (k : Nat) (acc : Access) (v : Nat) (s : Block) :
    spine (writeNotifyBase k acc v s) = spine s := by
  unfold writeNotifyBase; simp only []; (repeat' split) <;> simp_all

@[simp] theorem spine_writeTail (k : Nat) (acc : Access) (v : Nat) (s : Block) :
    spine (writeTail k acc v s) = spine s := by
  unfold writeTail; (repeat' split) <;> simp

@[simp] theorem spine_writeMsix (k : Nat) (vec : Nat) (acc : Access) (v : Nat) (s : Block) :
    spine (writeMsix k vec acc v s) = spine s := by
  simp [writeMsix]

@[simp] theorem spine_timeLoad (v : Nat) (s : Block) : spine (timeLoad v s) = spine s := by
  unfold timeLoad; (repeat' split) <;> simp

@[simp] theorem spine_timeSlew (v : Nat) (s : Block) : spine (timeSlew v s) = spine s := by
  simp [timeSlew]

@[simp] theorem spine_writeSlot (t : TwinId) (acc : Access) (v : Nat) (s : Block) :
    spine (writeSlot t acc v s) = spine s := by
  simp [writeSlot]

@[simp] theorem spine_writeOptCfg (t : TwinId) (acc : Access) (v : Nat) (s : Block) :
    spine (writeOptCfg t acc v s) = spine s := by
  unfold writeOptCfg; simp only []; (repeat' split) <;> simp_all

@[simp] theorem spine_pageEnable (key : Nat) (v : Bool) (s : Block) : spine (pageEnable key v s) = spine s := by
  unfold pageEnable; (repeat' split) <;> simp

@[simp] theorem spine_writePageCtrl (key : Nat) (d : Nat) (s : Block) : spine (writePageCtrl key d s) = spine s := by
  unfold writePageCtrl; (repeat' split) <;> simp

@[simp] theorem spine_writeInject (key : Nat) (acc : Access) (v : Nat) (s : Block) :
    spine (writeInject key acc v s) = spine s := by
  unfold writeInject; (repeat' split) <;> simp

@[simp] theorem spine_writeFreezeCtl (acc : Access) (v : Nat) (s : Block) :
    spine (writeFreezeCtl acc v s) = spine s := by
  unfold writeFreezeCtl; (repeat' split) <;> simp

@[simp] theorem spine_writePairCtl (d : Nat) (s : Block) : spine (writePairCtl d s) = spine s := by
  unfold writePairCtl; (repeat' split) <;> simp

@[simp] theorem spine_writeCtxCmd (d : Nat) (s : Block) : spine (writeCtxCmd d s) = spine s := by
  unfold writeCtxCmd; (repeat' split) <;> simp

@[simp] theorem spine_writeEngineCtl (t : TwinId) (d : Nat) (s : Block) :
    spine (writeEngineCtl t d s) = spine s := by
  unfold writeEngineCtl; (try simp only [])
  first
    | (simp [apply_ite spine]; done)
    | ((repeat' split) <;> first | rfl | (simp [apply_ite spine]; done) | (simp <;> rfl; done) | (simp_all; done))

@[simp] theorem spine_writeThrdCmd (t : TwinId) (d : Nat) (s : Block) : spine (writeThrdCmd t d s) = spine s := by
  unfold writeThrdCmd; (repeat' split) <;> simp

@[simp] theorem spine_writeCoreCtl (d : Nat) (s : Block) : spine (writeCoreCtl d s) = spine s := by
  unfold writeCoreCtl; (repeat' split) <;> simp

@[simp] theorem spine_writeOptCmd (t : TwinId) (d : Nat) (s : Block) : spine (writeOptCmd t d s) = spine s := by
  unfold writeOptCmd; (repeat' split) <;> simp

@[simp] theorem spine_writeShardCmd (k : Nat) (d : Nat) (s : Block) : spine (writeShardCmd k d s) = spine s := by
  unfold writeShardCmd; (repeat' split) <;> simp

@[simp] theorem spine_writeTallyCmd (k : Nat) (d : Nat) (s : Block) : spine (writeTallyCmd k d s) = spine s := by
  unfold writeTallyCmd; (repeat' split) <;> simp

@[simp] theorem spine_writeTubeCmd (k : Nat) (d : Nat) (s : Block) : spine (writeTubeCmd k d s) = spine s := by
  unfold writeTubeCmd; (repeat' split) <;> simp

@[simp] theorem spine_writeBowlCmd (k : Nat) (d : Nat) (s : Block) : spine (writeBowlCmd k d s) = spine s := by
  unfold writeBowlCmd; (repeat' split) <;> simp

@[simp] theorem spine_afterStore (key : Nat) (off : Nat) (s : Block) : spine (afterStore key off s) = spine s := by
  unfold afterStore; (repeat' split) <;> simp

@[simp] theorem spine_storeReg (g : Grade) (key : Nat) (off : Nat) (acc : Access) (v : Nat) (s : Block) :
    spine (storeReg g key off acc v s) = spine s := by
  unfold storeReg; simp only []; (repeat' split) <;> simp_all

@[simp] theorem spine_putAccess (src : Requester) (t : TwinId) (f : Block → Block) (s : Block) (h : ∀ s, spine (f s) = spine s) :
    spine (putAccess src t f s) = spine s := by
  unfold putAccess; (repeat' split) <;> simp [h]

@[simp] theorem spine_peekCheck (key : Nat) (off : Nat) (s : Block) : spine (peekCheck key off s) = spine s := by
  unfold peekCheck; (repeat' split) <;> simp

@[simp] theorem spine_pageRead (src : Requester) (key : Nat) (off : Nat) (size : Nat) (s : Block) :
    spine (pageRead src key off size s) = spine s := by
  unfold pageRead; (repeat' split) <;> simp

@[simp] theorem spine_registerRead (src : Requester) (a : Nat) (size : Nat) (s : Block) :
    spine (registerRead src a size s) = spine s := by
  unfold registerRead; (repeat' split) <;> simp

@[simp] theorem spine_readAt (src : Requester) (addr : RegAddr) (size : Nat) (s : Block) :
    spine (readAt src addr size s) = spine s := by
  unfold readAt; (try simp only [])
  first
    | (simp [apply_ite spine]; done)
    | ((repeat' split) <;> first | rfl | (simp [apply_ite spine]; done) | (simp <;> rfl; done) | (simp_all; done))

@[simp] theorem spine_hostAccessDenied (port : Nat) (fn : Nat) (a : Nat) (isRead : Bool) (s : Block) :
    spine (hostAccessDenied port fn a isRead s) = spine s := by
  unfold hostAccessDenied; simp only []; (repeat' split) <;> simp_all

@[simp] theorem spine_bumpDc (key : Nat) (off : Nat) (n : Nat) (s : Block) :
    spine (bumpDc key off n s) = spine s := by
  unfold bumpDc; (repeat' split) <;> simp

@[simp] theorem spine_eventDc (t : TwinId) (code : Nat) (g : Nat) (s : Block) :
    spine (eventDc t code g s) = spine s := by
  simp [eventDc]

@[simp] theorem spine_portBusy (t : TwinId) (s : Block) : spine (portBusy t s) = spine s := by
  simp [portBusy]

@[simp] theorem spine_stallTick (t : TwinId) (s : Block) :
    spine (stallTick t s) = spine s := by
  unfold stallTick; (try simp only [])
  first
    | (simp [apply_ite spine]; done)
    | ((repeat' split) <;> first | rfl | (simp [apply_ite spine]; done) | (simp <;> rfl; done) | (simp_all; done))

@[simp] theorem spine_deskCycles (t : TwinId) (s : Block) :
    spine (deskCycles t s) = spine s := by
  unfold deskCycles; (try simp only [])
  first
    | (simp [apply_ite spine]; done)
    | ((repeat' split) <;> first | rfl | (simp [apply_ite spine]; done) | (simp <;> rfl; done) | (simp_all; done))

@[simp] theorem spine_ageCtx (dt : Nat) (k : Nat) (s : Block) : spine (ageCtx dt k s) = spine s := by
  unfold ageCtx; simp only []; (repeat' split) <;> simp_all

@[simp] theorem spine_wheelFrom (t : TwinId) (s : Block) : spine (wheelFrom t s) = spine s := by
  simp [wheelFrom]

@[simp] theorem spine_timeTick (s : Block) : spine (timeTick s) = spine s := by
  unfold timeTick; (repeat' split) <;> first | rfl | (simp; done) | (simp <;> rfl; done)

@[simp] theorem spine_onTwin (t : TwinId) (f : Block → Block) (s : Block) (h : ∀ s, spine (f s) = spine s) :
    spine (onTwin t f s) = spine s := by
  unfold onTwin; split <;> simp [h]

@[simp] theorem spine_onPortWord (p : Nat) (i : Instr) (f : Block → Block) (s : Block) (h : ∀ s, spine (f s) = spine s) :
    spine (onPortWord p i f s) = spine s := by
  unfold onPortWord; (try simp only []); (repeat' split) <;> simp [h]

@[simp] theorem spine_onThreadWord (x : Option Nat) (i : Instr) (f : Block → Block) (s : Block) (h : ∀ s, spine (f s) = spine s) :
    spine (onThreadWord x i f s) = spine s := by
  unfold onThreadWord; (try simp only []); (repeat' split) <;> simp [h]

@[simp] theorem spine_onCluster (e : Nat) (f : Block → Block) (s : Block) (h : ∀ s, spine (f s) = spine s) :
    spine (onCluster e f s) = spine s := by
  unfold onCluster; split <;> simp [h]

@[simp] theorem spine_onSlot (addr : RegAddr) (f : Block → Block) (s : Block) (h : ∀ s, spine (f s) = spine s) :
    spine (onSlot addr f s) = spine s := by
  unfold onSlot
  split
  · exact h s
  · exact spine_onCluster _ _ _ h

@[simp] theorem spine_reportAs (core : BitVec 3) (thread : BitVec 12) (asks : Bool) (o : ThreadOutcome) (i : Instr) (s : Block) :
    spine (reportAs core thread asks o i s) = spine s := by
  simp [reportAs]

@[simp] theorem spine_takeWord (i : Instr) (s : Block) : spine (takeWord i s) = spine s := by
  unfold takeWord; (repeat' split) <;> simp

@[simp] theorem spine_landCredits (cs : List Credit) (s : Block) :
    spine (landCredits cs s) = spine s := by
  unfold landCredits; (try simp only [])
  first
    | (simp [apply_ite spine]; done)
    | ((repeat' split) <;> first | rfl | (simp [apply_ite spine]; done) | (simp <;> rfl; done) | (simp_all; done))

@[simp] theorem spine_applyItem (t : TwinId) (i : EdgeItem) (s : Block) :
    spine (applyItem t i s) = spine s := by
  unfold applyItem; (try simp only [])
  first
    | (simp [apply_ite spine]; done)
    | ((repeat' split) <;> first | rfl | (simp [apply_ite spine]; done) | (simp <;> rfl; done) | (simp_all; done))

@[simp] theorem spine_applyClaim (t : TwinId) (i : ClaimItem) (s : Block) :
    spine (applyClaim t i s) = spine s := by
  unfold applyClaim; (try simp only [])
  first
    | (simp [apply_ite spine]; done)
    | ((repeat' split) <;> first | rfl | (simp [apply_ite spine]; done) | (simp <;> rfl; done) | (simp_all; done))

@[simp] theorem spine_edgeCmd (t : TwinId) (p : EdgeItem → Bool) (s : Block) : spine (edgeCmd t p s) = spine s := by
  unfold edgeCmd
  refine spine_onTwin t _ s ?_
  intro s
  split
  · rename_i h
    have := takeEdge_spine h
    simp_all
  · rfl

@[simp] theorem spine_claimCmd (t : TwinId) (p : ClaimItem → Bool) (s : Block) :
    spine (claimCmd t p s) = spine s := by
  unfold claimCmd
  refine spine_onTwin t _ s ?_
  intro s
  split
  · rename_i h
    have := takeClaim_spine h
    simp_all
  · rfl

@[simp] theorem spine_carryOut (id : Nat) (s : Block) : spine (carryOut id s) = spine s := by
  unfold carryOut; simp only []; (repeat' split) <;> simp_all

@[simp] theorem spine_itemStep (t : TwinId) (i : EdgeItem) (s : Block) :
    spine (itemStep t i s) = spine s := by
  unfold itemStep; (try simp only [])
  first
    | (simp [apply_ite spine]; done)
    | ((repeat' split) <;> first | rfl | (simp [apply_ite spine]; done) | (simp <;> rfl; done) | (simp_all; done))

@[simp] theorem spine_takeStep (w : Work) (s : Block) :
    spine (takeStep w s) = spine s := by
  unfold takeStep; (try simp only [])
  first
    | (simp [apply_ite spine]; done)
    | ((repeat' split) <;> first | rfl | (simp [apply_ite spine]; done) | (simp <;> rfl; done) | (simp_all; done))

@[simp] theorem spine_doWork (w : Work) (s : Block) :
    spine (doWork w s) = spine s := by
  unfold doWork; (try simp only [])
  first
    | (simp [apply_ite spine]; done)
    | ((repeat' split) <;> first | rfl | (simp [apply_ite spine]; done) | (simp <;> rfl; done) | (simp_all; done))

theorem writeCommon_spine {key off : Nat} {acc : Access} {v : Nat} {s r : Block}
    (h : writeCommon key off acc v s = some r) : spine r = spine s := by
  unfold writeCommon at h
  (repeat' split at h) <;> cases h <;> first | rfl | (split <;> simp) | simp

theorem writeCtx_spine {k off : Nat} {acc : Access} {v : Nat} {s r : Block}
    (h : writeCtx k off acc v s = some r) : spine r = spine s := by
  unfold writeCtx at h
  (repeat' split at h) <;> cases h <;> first | rfl | (simp; done) | (split <;> simp)

theorem writeTwin_spine {t : TwinId} {p off : Nat} {acc : Access} {v : Nat} {s r : Block}
    (h : writeTwin t p off acc v s = some r) : spine r = spine s := by
  unfold writeTwin at h
  simp only [] at h
  (repeat' split at h) <;> cases h <;> first | rfl | (simp; done) | (split <;> simp)

theorem writeTime_spine {off : Nat} {acc : Access} {v : Nat} {s r : Block}
    (h : writeTime off acc v s = some r) : spine r = spine s := by
  unfold writeTime at h
  (repeat' split at h) <;> cases h <;> first | rfl | (simp; done) | (split <;> simp)

theorem writeFmt_spine {off : Nat} {acc : Access} {v : Nat} {s r : Block}
    (h : writeFmt off acc v s = some r) : spine r = spine s := by
  unfold writeFmt at h
  (repeat' split at h) <;> cases h <;> simp

/-- The register writes that reach the spine: BOOT_CTL, RESET_CTL and BLOCK_CTL. -/
theorem writeReg_cases (g : Grade) (key off : Nat) (acc : Access) (v : Nat) (s : Block) :
    spine (writeReg g key off acc v s) = spine s
      ∨ (key = 0 ∧ off = 0x128 ∧ writeReg g key off acc v s = bootRun (placed acc v) s)
      ∨ (key = 0 ∧ off = 0x130 ∧ writeReg g key off acc v s = softReset (placed acc v) s)
      ∨ (key = 1 ∧ off = 0x180 ∧ bitOf (placed acc v) 0 = true ∧ writeReg g key off acc v s = blockGate s) := by
  unfold writeReg
  split
  · exact .inl (writeCommon_spine ‹_›)
  · split
    · rename_i r h
      unfold writeAction at h
      split at h
      · exact .inl (writeCtx_spine h)
      · split at h
        · exact .inl (writeTwin_spine h)
        · split at h
          · unfold writeBlk at h
            simp only [] at h
            split at h <;> cases h
            · left; split <;> simp
            · left; split <;> simp
            · right; left; exact ⟨rfl, rfl, rfl⟩
            · right; right; left; exact ⟨rfl, rfl, rfl⟩
            all_goals left; simp
          · unfold writePwr at h
            simp only [] at h
            split at h <;> cases h
            · left; split <;> simp
            · left; split <;> simp
            · split
              · right; right; right; exact ⟨rfl, rfl, by assumption, rfl⟩
              · left; rfl
          · exact .inl (writeTime_spine h)
          · exact .inl (writeFmt_spine h)
    · left; simp

/-- A register write leaves the spine alone, or is one of the three that reach it. -/
theorem registerWrite_cases (src : Requester) (a size v : Nat) (s : Block) :
    spine (registerWrite src a size v s) = spine s
      ∨ (∃ d, registerWrite src a size v s = bootRun d s)
      ∨ (∃ d, registerWrite src a size v s = softReset d s)
      ∨ registerWrite src a size v s = blockGate s := by
  have hw : ∀ g key off acc v, spine (writeReg g key off acc v s) = spine s
      ∨ (∃ d, writeReg g key off acc v s = bootRun d s) ∨ (∃ d, writeReg g key off acc v s = softReset d s)
      ∨ writeReg g key off acc v s = blockGate s := by
    intro g key off acc v
    rcases writeReg_cases g key off acc v s with h | ⟨_, _, h⟩ | ⟨_, _, h⟩ | ⟨_, _, _, h⟩
    · exact .inl h
    · exact .inr (.inl ⟨_, h⟩)
    · exact .inr (.inr (.inl ⟨_, h⟩))
    · exact .inr (.inr (.inr h))
  have hp : ∀ (P : Block → Prop) key (f : Grade → Block → Block), P s → P (denyOf src s) → (∀ g, P (f g s)) →
      P (pageAccess src key f s) := by
    intro P key f h0 hd hf
    unfold pageAccess pageServe
    simp only []
    (repeat' split) <;> first | exact h0 | exact hd | exact hf _
  unfold registerWrite
  split
  · exact .inl rfl
  · exact .inl (by simp)
  · split
    · simp only []
      split
      · unfold putAccess pageCmd
        (repeat' split) <;> first
          | exact .inl rfl
          | exact hp (fun b => spine b = spine s ∨ (∃ d, b = bootRun d s) ∨ (∃ d, b = softReset d s) ∨ b = blockGate s)
              _ _ (.inl rfl) (.inl (by simp)) (fun _ => hw _ _ _ _ _)
          | exact hw _ _ _ _ _
          | exact .inl (by simp)
      · exact hp (fun b => spine b = spine s ∨ (∃ d, b = bootRun d s) ∨ (∃ d, b = softReset d s) ∨ b = blockGate s)
          _ _ (.inl rfl) (.inl (by simp)) (fun _ => hw _ _ _ _ _)
    · exact .inl (spine_pageServe src _ _ s (fun _ s => spine_emit _ s))

@[simp] theorem spine_settleFuel (n : Nat) (s : Block) : spine (settleFuel n s) = spine s := by
  induction n generalizing s with
  | zero => rfl
  | succ n ih =>
    unfold settleFuel
    (repeat' split)
    · rfl
    · rw [ih, spine_sendOn]
    · rw [ih, spine_doWork]; rfl

@[simp] theorem spine_settle (s : Block) : spine (settle s) = spine s := spine_settleFuel _ s

@[simp] theorem spine_effect (ws : Block → List SramWord) (f : Block → Block) (s : Block) :
    spine (effect ws f s) = spine (f { s with out := [] }) := by
  simp [effect]

end Sys2Proof.Machine
end

