-- ==== Sys2Proof/Laws/SpineExec.lean ====
section
/-! SUPPORT. No command but those of reset, bring-up, the tally tick, the fuses, the manager and the test segments changes
the block's spine. -/

namespace Sys2Proof.Machine

/-- The commands that can reach the spine. -/
def reachesSpine : Instr → Bool
  | .coldReset | .pinReset | .softReset .. | .hostWake | .deskClockLocked | .islandPowerGood .. | .zeroEnd
  | .bootPoll .. | .imageLoadEnd .. | .fullSelfTestEnd .. | .patternCheckEnd .. | .managerSet .. | .bootRun ..
  | .fuseBurn .. | .segmentOpen .. | .segmentClose .. | .tallyTick | .blockGate .. | .registerWrite .. => true
  | _ => false

theorem deed_spine (c : Instr) (s : Block) (hc : reachesSpine c = false) : spine (deed c s) = spine s := by
  cases c <;> first | (cases hc; done) | (simp [deed]; done) | skip
  case flushRetry what => cases what <;> simp [deed]
  case cluCtlWrite src acc value =>
    simp only [deed]
    exact spine_pageCmd _ _ _ _ (fun s => by split <;> simp)

theorem exec_spine {c : Instr} {s t : State} (h : exec c s = .next t) (hc : reachesSpine c = false) :
    spine t.blk = spine s.blk := by
  rw [exec_blk h, spine_effect, deed_spine c _ hc]
  rfl

end Sys2Proof.Machine
end

