-- ==== Sys2Proof/WellFormed.lean ====
section
/-! DEFINITION. Which operands a command can carry, beyond the widths of their types. -/

namespace Sys2Proof

/-- The operands of a command are ones the spec lets it carry: a rack group or a lane of R86, a summary entry of R101, an
area of a window (R65), whole 64 B lines (R216, R217, R271, R398), a message with its beats (R264), a tile (R18), a power
domain (R333) or a scratchpad bank (R334), and an access of some size (R9). -/
def Instr.wellFormed : Instr → Bool
  | .laneRefill _ lane => decide (lane.group.toNat ≤ 151)
  | .summaryEntry _ entry => decide (entry.toNat ≤ 71)
  | .nodeWrite _ _ off data => decide (off.toNat < 0x8000 ∧ 0 < data.length ∧ data.length ≤ 64)
  | .edgeWrite _ _ off data =>
    decide (0x8000 ≤ off.toNat ∧ off.toNat < 0xC000 ∧ 0 < data.length ∧ data.length ≤ 64)
  | .reservedAreaWrite _ _ off => decide (0xC000 ≤ off.toNat ∧ off.toNat < 0xF000)
  | .headerReadDone _ _ header => decide (header.length = 8)
  | .scoreReadDone _ _ line scores => decide (line < 16384 ∧ scores.length ≤ 32)
  | .txSend _ eng _ len _ beats => decide (eng.toNat ≤ 0x1FFF ∧ beats.length = 4 * (len.toNat + 1))
  | .beatArrival eng _ => decide (eng.toNat ≤ 0x1FFF)
  | .rxMbox _ eng _ => decide (eng.toNat ≤ 0x1FFF)
  | .rxDone _ eng _ => decide (eng.toNat ≤ 0x1FFF)
  | .rxDrop _ eng _ => decide (eng.toNat ≤ 0x1FFF)
  | .creditReturn eng _ => decide (eng.toNat ≤ 0x1FFF)
  | .blockHeaderRead _ header => decide (header.length = 8)
  | .selectionRead _ header counts => decide (header.length = 8 ∧ counts.length ≤ 64)
  | .idleExpiry dom => decide (dom.toNat ≤ 143)
  | .hold dom => decide (dom.toNat ≤ 143)
  | .abort dom => decide (dom.toNat ≤ 143)
  | .withdrawn dom => decide (dom.toNat ≤ 143)
  | .obEmpty dom => decide (dom.toNat ≤ 143)
  | .stopTimeout dom => decide (dom.toNat ≤ 143)
  | .gateExpiry dom => decide (dom.toNat ≤ 143)
  | .clkOk dom => decide (dom.toNat ≤ 143)
  | .bankPowerGood _ bank => decide (bank.toNat ≤ 8)
  | .clockStretch dom => decide (dom.toNat ≤ 143)
  | .imageLoadEnd _ header image _ => decide (header.length = 8 ∧ image.length ≤ 524288)
  | .registerWrite _ _ size _ => decide (0 < size ∧ size ≤ 64)
  | .sourceCopyEnd eng _ => decide (eng.toNat ≤ 0x1FFF)
  | .blockDataRead _ block result => decide (block.length = result.length)
  | .registerRead _ _ size => decide (0 < size)
  | .dumpEnd _ _ poison => decide (poison.length ≤ 4096)
  | .claim .. | .claimResample .. | .accept .. | .complete .. | .fault .. | .acceptTimeout .. | .fwdClaim ..
  | .decline .. | .grant .. | .grantReturn .. | .acceptItem .. | .completeItem .. | .proxy .. | .proxyGrant ..
  | .proxyRefused .. | .proxyBack .. | .credit .. | .skipCredit .. | .wheelWalk .. | .nodeBank .. | .edgeBank ..
  | .rearm .. | .mirrorClose .. | .mirrorCloseEffect .. | .release .. | .mark .. | .parkedWrite .. | .sweepEnd ..
  | .mirrorRequest .. | .mirrorAppend .. | .mirrorAck .. | .closeMarker .. | .targetRead .. | .targetAnswer ..
  | .moveReq .. | .loc .. | .locAck .. | .writerInc .. | .writerDec .. | .service .. | .descWriteAck ..
  | .descWriteError .. | .shardAlloc .. | .shardFree .. | .shardMove .. | .shardQuery .. | .engineRemove ..
  | .engineRestore .. | .flushReq .. | .flushDone .. | .flushAckRead .. | .flushRetry .. | .flushTimeout ..
  | .drainReadAnswer .. | .drainTimeout .. | .offer .. | .answer .. | .gRead .. | .gData .. | .gMark ..
  | .trigger .. | .releaseItem .. | .recipeSweepEnd .. | .selectionWriteAck .. | .batch .. | .sortCancel ..
  | .epochBump .. | .cancelPoint .. | .routeIo .. | .tallyPacket .. | .tallyTick .. | .tallyAlloc ..
  | .tallyFree .. | .tallyArm .. | .tallyDisarm .. | .tallyResume .. | .tallyReset .. | .tallyAdd ..
  | .tallyQuery .. | .tubeOpen .. | .tubeClose .. | .tubeQuery .. | .epWriteAck .. | .epReadAnswer .. | .tubeIo ..
  | .bowlOpen .. | .bowlClose .. | .bowlQuery .. | .bowlReset .. | .bowlPut .. | .resultWriteAck .. | .bowlIo ..
  | .ctxOpen .. | .openEffect .. | .ctxClose .. | .ctxFault .. | .ctxCtlClose .. | .fenceItem .. | .fenceEffect ..
  | .teardownStart .. | .tear .. | .swept .. | .engineWaitEnd .. | .engineWaitLimit .. | .scrubPoll ..
  | .scrubLimit .. | .bakeTick .. | .bakeSlotWrite .. | .notifyRequest .. | .msixUnmask .. | .notifyTailWrite ..
  | .hostAccessDenied .. | .ask .. | .reportYield .. | .reportWait .. | .reportDelay .. | .reportPreempted ..
  | .reportExit .. | .reportFault .. | .wake .. | .wakeItem .. | .deskAsk .. | .threadOffer .. | .noneAnswer ..
  | .takeThread .. | .threadRelease .. | .offerWindow .. | .threadSummary .. | .preemptLimit .. | .delayTick ..
  | .threadCreate .. | .threadDestroy .. | .threadSet .. | .threadCmdWake .. | .threadQuery .. | .coreRemove ..
  | .coreRestore .. | .accessWake .. | .cluCtlWrite .. | .capPeriod .. | .pmbusReading .. | .pmbusReadingLost ..
  | .pmbAlert .. | .avsAck .. | .avsFail .. | .settleExpiry .. | .clockSwitched .. | .blockGate .. | .timeLoad ..
  | .timeSlew .. | .patrolRead .. | .bankCopyEnd .. | .marchTestEnd .. | .errInjectWrite .. | .heartbeat ..
  | .heartbeatTimeout .. | .watchdog .. | .wdogKick .. | .fatal .. | .latchAnswer .. | .recordSweepEnd ..
  | .detach .. | .detachDrained .. | .handover .. | .fullSelfTestEnd .. | .rejoin .. | .resync ..
  | .fail .. | .recover .. | .freeze .. | .freezeHalt .. | .freezeItem .. | .freezeApply .. | .thaw ..
  | .thawApply .. | .haltLimit .. | .optStart .. | .optStop .. | .ringWriteAck .. | .ringIo .. | .daybRdWrite ..
  | .wfgGo .. | .wfgEnd .. | .invSel .. | .invReadDone .. | .hwClr .. | .coldReset .. | .pinReset ..
  | .softReset .. | .hostWake .. | .deskClockLocked .. | .islandPowerGood .. | .zeroEnd .. | .bootPoll ..
  | .patternCheckEnd .. | .portReady .. | .domainGroupStart .. | .managerSet .. | .bootRun .. | .fuseBurn ..
  | .pageEnable .. | .commit .. | .shadowApply .. | .discard .. | .segmentOpen .. | .segmentClose .. => true

end Sys2Proof
end

