-- ==== Sys2Proof/Tests/Slice0.lean ====
section
/-! SUPPORT. The smoke test of WellFormed, words of the buses and the witnesses of the statements. -/

open Sys2Proof Sys2Proof.Machine Sys2Proof.Safety

namespace Sys2Proof.Tests

set_option maxRecDepth 100000

/-! ### Each check of WellFormed refuses an ill-formed command -/

theorem test_wf_refuses_lane_group : Instr.wellFormed (.laneRefill .t0 ⟨152, false, 0, 0⟩) = false := by decide

theorem test_wf_refuses_summary : Instr.wellFormed (.summaryEntry .t0 72) = false := by decide

theorem test_wf_refuses_node_write_area : Instr.wellFormed (.nodeWrite .untagged 0 0x8000 [0]) = false := by decide

theorem test_wf_refuses_node_write_length :
    Instr.wellFormed (.nodeWrite .untagged 0 0 (List.replicate 65 0)) = false := by decide

theorem test_wf_refuses_edge_write_length : Instr.wellFormed (.edgeWrite .untagged 0 0x8000 []) = false := by decide

theorem test_wf_refuses_edge_write_area : Instr.wellFormed (.edgeWrite .untagged 0 0x7FFC [0, 0, 0, 0]) = false := by decide

theorem test_wf_refuses_reserved_area : Instr.wellFormed (.reservedAreaWrite .untagged 0 0xF000) = false := by decide

theorem test_wf_refuses_header_length : Instr.wellFormed (.headerReadDone .t0 0 []) = false := by decide

theorem test_wf_refuses_score_line : Instr.wellFormed (.scoreReadDone .t0 0 16384 []) = false := by decide

theorem test_wf_refuses_tx_send_engine : Instr.wellFormed (.txSend 0 0x2000 0 0 0 [0, 0, 0, 0]) = false := by decide

theorem test_wf_refuses_tx_send_beats : Instr.wellFormed (.txSend 0 0 0 0 0 [0]) = false := by decide

theorem test_wf_refuses_beat_engine : Instr.wellFormed (.beatArrival 0x2000 0) = false := by decide

theorem test_wf_refuses_rx_mbox_engine : Instr.wellFormed (.rxMbox 0 0x2000 0) = false := by decide

theorem test_wf_refuses_rx_done_engine : Instr.wellFormed (.rxDone 0 0x2000 0) = false := by decide

theorem test_wf_refuses_rx_drop_engine : Instr.wellFormed (.rxDrop 0 0x2000 0) = false := by decide

theorem test_wf_refuses_credit_engine : Instr.wellFormed (.creditReturn 0x2000 0) = false := by decide

theorem test_wf_refuses_block_header : Instr.wellFormed (.blockHeaderRead 0 [0]) = false := by decide

theorem test_wf_refuses_selection_counts : Instr.wellFormed (.selectionRead 0 [0, 0, 0, 0, 0, 0, 0, 0] (List.replicate 65 0)) = false := by decide

theorem test_wf_refuses_idle_domain : Instr.wellFormed (.idleExpiry 144) = false := by decide

theorem test_wf_refuses_hold_domain : Instr.wellFormed (.hold 144) = false := by decide

theorem test_wf_refuses_abort_domain : Instr.wellFormed (.abort 144) = false := by decide

theorem test_wf_refuses_withdrawn_domain : Instr.wellFormed (.withdrawn 144) = false := by decide

theorem test_wf_refuses_ob_domain : Instr.wellFormed (.obEmpty 144) = false := by decide

theorem test_wf_refuses_stop_domain : Instr.wellFormed (.stopTimeout 144) = false := by decide

theorem test_wf_refuses_gate_domain : Instr.wellFormed (.gateExpiry 144) = false := by decide

theorem test_wf_refuses_clk_domain : Instr.wellFormed (.clkOk 144) = false := by decide

theorem test_wf_refuses_bank : Instr.wellFormed (.bankPowerGood 0 9) = false := by decide

theorem test_wf_refuses_stretch_domain : Instr.wellFormed (.clockStretch 144) = false := by decide

theorem test_wf_refuses_image_header : Instr.wellFormed (.imageLoadEnd .t0 [] [] false) = false := by decide

theorem test_wf_refuses_image_length :
    Instr.wellFormed (.imageLoadEnd .t0 (List.replicate 8 0) (List.replicate 524289 0) false) = false := by
  simp only [Instr.wellFormed, List.length_replicate]; decide

theorem test_wf_refuses_long_write :
    Instr.wellFormed (.registerWrite .untagged (.cts 0) 65 0) = false := by decide

theorem test_wf_refuses_write_size : Instr.wellFormed (.registerWrite .untagged (.cts 0) 0 0) = false := by decide

theorem test_wf_refuses_copy_engine : Instr.wellFormed (.sourceCopyEnd 0x2000 0) = false := by decide

theorem test_wf_refuses_block_data : Instr.wellFormed (.blockDataRead 0 [0] []) = false := by decide

theorem test_wf_refuses_read_size : Instr.wellFormed (.registerRead .untagged (.cts 0) 0) = false := by decide

theorem test_wf_refuses_poison_list :
    Instr.wellFormed (.dumpEnd .t0 0 (List.replicate 4097 (0, 0))) = false := by
  simp [Instr.wellFormed]

/-! ### Words of the accept-and-complete bus and of the ask bus (R97, R313), written out field by field -/

/-- TYPE 2, ENGINE 0x0123, NODE_ID 0x80005, GEN 9, MAX_EXP 7, EXP_V 1, CODE 2, CYCLES 40. -/
theorem test_complete_word :
    reportCommand (.cluster 1) (0b10#2 ++ 0x0123#14 ++ 0x80005#20 ++ 9#8 ++ 7#8 ++ 1#1 ++ 2#8 ++ 40#32 ++ 0#35)
      = some (.complete (.cluster 1) ⟨0x0123, 0x80005, 9, 7, true, 2, 40⟩) := by decide

theorem test_idle_word : reportCommand .gather 0 = none := by decide

/-- TYPE 2, CORE 5, ASK 1, THREAD 0x801, OUTCOME 6: taken as FAULT. -/
theorem test_fault_word : askCommand (2#4 ++ 5#3 ++ 1#1 ++ 0x801#12 ++ 6#3 ++ 0#41) = some (.reportFault 5 0x801 true) := by
  decide

theorem test_ask_word : askCommand (1#4 ++ 3#3 ++ 0#57) = some (.ask 3) := by decide

theorem test_ignored_type : askCommand (4#4 ++ 0#60) = none := by decide

/-! ### CRC-32C (R397; log entry 95) -/

/-- The published check value of CRC-32C, of the bytes of "123456789". -/
theorem test_crc32c : crc32c [0x31, 0x32, 0x33, 0x34, 0x35, 0x36, 0x37, 0x38, 0x39] = 0xE3069283 := by decide

/-! ### Witnesses: states and operands that meet a statement's hypotheses, clause by clause

A theorem <Statement>_<i>_<k>_witness is about clause i of the statement, case k. -/

/-- Both twins in service, at RUN. -/
def on : Block := { tw0 := { svc := .inService }, tw1 := { svc := .inService }, phase := 9 }

/-- The block on, but for the fields given, with a command in front. -/
def run1 (b : Block) (c : Instr) : State := { blk := b, pending := [c] }

theorem StepRunsTheFrontCommand_1_witness : ∃ (c : Instr) (rest : List Instr) (s : State), s.pending = c :: rest :=
  ⟨.tallyTick, [], run1 on .tallyTick, rfl⟩

theorem StepRunsTheFrontCommand_2_witness : ∃ s : State, s.pending = [] := ⟨State.reset, rfl⟩

theorem NothingFollowsWhereNothingWaits_witness : ∃ (c : Instr) (P : Block → Block → Prop), Does c P
    ∧ ∃ s : State, unarmed s.blk = true :=
  ⟨.hostWake, fun a b => b = deed .hostWake a, does_of fun _ _ => rfl, State.reset, by decide⟩

theorem BringUpStaysLegal_witness : ∃ s t : State, bootLegal s.blk = true ∧ step s = .next t ∧ t.blk.phase = 2 :=
  ⟨run1 { phase := 1 } .deskClockLocked, _, by decide, rfl, rfl⟩

theorem StoresKeepTheirForm_witness : ∃ s t : State, storesWf s.blk = true ∧ step s = .next t :=
  ⟨run1 { phase := 1 } .deskClockLocked, _, by decide, rfl⟩

theorem ServiceIsDeclaredByRunAlone_witness : ∃ s t : State, step s = .next t ∧ t.blk.phase = 9 ∧ s.blk.phase ≠ 9 :=
  ⟨run1 { on with tw1 := { svc := .fatal }, phase := 8, pages := [(0, { enable := true }), (2, { enable := true }), (3, { enable := true })]
      ++ (List.range 16).map fun p => (16 + p, { enable := true, regs := [(0x100, some (2 ^ 63))] }) } (.bootRun (.archivist .t0) 1),
    _, rfl, rfl, by decide⟩

theorem FusesOnlyBurn_witness : ∃ s t : State, bootLegal s.blk = true ∧ step s = .next t
    ∧ mapGet 0 t.blk.fuses 515 = mapGet 0 s.blk.fuses 515 + 1 :=
  ⟨run1 { on with tw0 := { rel := { groups := [(2, { rows := [(3, 1)] })] } }, phase := 7 } (.fuseBurn .t0 2 3 true), _,
    by decide, rfl, rfl⟩

theorem TheTickCountsOn_witness : ∃ (c : Instr) (s t : State), exec c s = .next t ∧ t.blk.ticks = s.blk.ticks + 1 :=
  ⟨.tallyTick, { blk := { phase := 1 }, pending := [] }, _, rfl, rfl⟩

theorem TheTickCountsOn_pin_witness : ∃ s t : State, exec .pinReset s = .next t ∧ s.blk.phase ≠ 0 ∧ s.blk.ticks = 5 ∧ t.blk.ticks = 0 :=
  ⟨{ blk := { on with ticks := 5 }, pending := [] }, _, rfl, by decide, rfl, rfl⟩

theorem TheTickCountsOn_soft_witness : ∃ (src : Requester) (v : Word64) (s t : State), exec (.softReset src v) s = .next t
    ∧ served s.blk src blkKey = true ∧ fld v.toNat 63 48 = 0xC0DE ∧ bitOf v.toNat 0 = true ∧ s.blk.ticks = 5 ∧ t.blk.ticks = 0 :=
  ⟨.archivist .t0, 0xC0DE000000000001, { blk := { on with ticks := 5 }, pending := [] }, _, rfl, by decide, by decide, by decide, rfl, rfl⟩

theorem NothingFollowsWhereNothingWaits_idle_witness : ∃ b : Block, b.work = [] ∧ ∀ t, canSendOn b t = false :=
  ⟨on, rfl, fun t => by cases t <;> decide⟩

theorem TheManagerIsNamedOnce_witness : ∃ (c : Instr) (s t : State), exec c s = .next t ∧ t.blk.mgmt.manager ≠ 0 :=
  ⟨.managerSet 1 2, { blk := { on with phase := 7 }, pending := [] }, _, rfl, by decide⟩

/-! PortWordsAreSampled -/

theorem PortWordsAreSampled_1_1_witness : ∃ p : Port, ∃ w : Word32, ∃ a : Block, ∃ e, e = fld w.toNat 30 17 ∧ storesWf a = true ∧ live a (primary a (portNum p)) = true ∧ bitOf w.toNat 31 = true ∧ onPort (portNum p) e = true ∧ (engOf a e).inService = true ∧ (engOf a e).claims ≠ [] ∧ (engOf a e).claims.length < (engKind e).elim 0 queueDepth :=
  ⟨.cluster 0, 0x80000000, { on with engines := [(0, { inService := true, claims := [{}] })] }, _, rfl, by decide⟩

theorem PortWordsAreSampled_2_1_witness : ∃ p : Port, ∃ w : Word32, ∃ key : Nat, ∃ x : Nat, ∃ l : Lane, ∃ xs : List Nat, ∃ a : Block, ∃ e, e = fld w.toNat 30 17 ∧ ∃ g, g = (groupOf e).getD 0 ∧ ∃ t, t = primary a g ∧ t = primary a (portNum p) ∧ storesWf a = true ∧ live a t = true ∧ bitOf w.toNat 31 = true ∧ onPort (portNum p) e = true ∧ (engOf a e).inService = true ∧ (engOf a e).claims = [] ∧ admissible a e = true ∧ groupClaims a g = [] ∧ recsInUse a t < 65536 ∧ key / 64 = g ∧ key % 4 < 3 ∧ (tw a t).rack.lanes = [(key, l)] ∧ l.slots = x :: xs ∧ l.copies = [] ∧ laneCached l ≠ 0 ∧ x < 524288 ∧ nodeWhy a t g x = .ok ∧ (nodeOf a (nodeIdOf t x)).kind ≠ kRebake ∧ (summaryOf a g).1 ≤ (groupBest a t g).1 :=
  ⟨.cluster 0, 0x80000000, 0, 5, { slots := [5] }, [], { on with tw0 := { svc := .inService, rack := { lanes := [(0, { slots := [5] })] }, cat := { nodes := [(5, { st := .ready })] } }, engines := [(0, { inService := true })] }, _, rfl, _, rfl, _, rfl, by decide +kernel⟩

theorem PortWordsAreSampled_3_1_witness : ∃ p : Port, ∃ w : Word32, ∃ a : Block, ∃ e, e = fld w.toNat 30 17 ∧ live a (primary a (portNum p)) = true ∧ bitOf w.toNat 31 = true ∧ onPort (portNum p) e = true ∧ (engOf a e).inService = false :=
  ⟨.cluster 0, 0x80000000, on, _, rfl, by decide⟩

theorem PortWordsAreSampled_4_1_witness : ∃ p : Port, ∃ r : Report, ∃ k : Machine.Task, ∃ i : Nat, ∃ q : CircRec, ∃ a : Block, ∃ e, e = r.engine.toNat ∧ ∃ n, n = r.node.toNat ∧ ∃ g, g = r.gen.toNat ∧ (storesWf a = true ∧ live a (primary a (portNum p)) = true ∧ onPort (portNum p) e = true ∧ (engOf a e).inService = true) ∧ (engOf a e).tasks.find? (fun k => k.node == n && k.gen == g && !k.accepted) = some k ∧ homeOf n = primary a (portNum p) ∧ openRecOf a n g = some (i, q) ∧ q.st = .issued :=
  ⟨.cluster 0, ⟨0, 5, 1, 0, false, 0, 0⟩, _, _, _, { on with tw0 := { svc := .inService, desk := { recs := [(3, { st := .issued, node := 5, gen := 1 })] } }, engines := [(0, { inService := true, tasks := [{ node := 5, gen := 1 }] })] }, _, rfl, _, rfl, _, rfl, by decide, rfl, by decide, rfl, by decide⟩

theorem PortWordsAreSampled_5_1_witness : ∃ p : Port, ∃ r : Report, ∃ k : Machine.Task, ∃ a : Block, ∃ e, e = r.engine.toNat ∧ ∃ n, n = r.node.toNat ∧ ∃ g, g = r.gen.toNat ∧ (storesWf a = true ∧ live a (primary a (portNum p)) = true ∧ onPort (portNum p) e = true ∧ (engOf a e).inService = true) ∧ (engOf a e).tasks.find? (fun k => k.node == n && k.gen == g && !k.accepted) = some k ∧ homeOf n ≠ primary a (portNum p) ∧ serves a (homeOf n) = true :=
  ⟨.cluster 0, ⟨0, 0x80005, 1, 0, false, 0, 0⟩, _, { on with engines := [(0, { inService := true, tasks := [{ node := 0x80005, gen := 1 }] })] }, _, rfl, _, rfl, _, rfl, by decide, rfl, by decide⟩

theorem PortWordsAreSampled_6_1_witness : ∃ p : Port, ∃ r : Report, ∃ a : Block, ∃ e, e = r.engine.toNat ∧ ∃ n, n = r.node.toNat ∧ ∃ g, g = r.gen.toNat ∧ ∃ t, t = primary a (portNum p) ∧ live a t = true ∧ onPort (portNum p) e = true ∧ (engOf a e).inService = false ∧ homeOf n ≠ t ∧ serves a (homeOf n) = true :=
  ⟨.cluster 0, ⟨0, 0x80005, 1, 0, false, 0, 0⟩, { on with engines := [(0, {})] }, _, rfl, _, rfl, _, rfl, _, rfl, by decide⟩

/-! ClaimChannelItemsActAtTheReceiver -/

theorem ClaimChannelItemsActAtTheReceiver_1_1_witness : ∃ t : TwinId, ∃ e : Nat, ∃ g : Nat, ∃ tag : Nat, ∃ d : Int, ∃ rest : List ClaimItem, ∃ a : Block, (live a t = true ∧ serves a (partner t) = true) ∧ (tw a t).claimIn = .fwdClaim e g d tag :: rest ∧ 65536 ≤ recsInUse a t :=
  ⟨.t0, _, _, _, _, _, { on with tw0 := { svc := .inService, claimIn := [.fwdClaim 1 2 0 7], desk := { recs := List.replicate 65536 (0, {}) } } }, by decide, rfl, (List.length_replicate (n := 65536) (a := ((0 : Nat), ({} : CircRec)))).ge⟩

theorem ClaimChannelItemsActAtTheReceiver_2_1_witness : ∃ t : TwinId, ∃ e : Nat, ∃ tag : Nat, ∃ newer : Nat, ∃ c : Claim, ∃ rest : List ClaimItem, ∃ a : Block, (storesWf a = true ∧ live a t = true) ∧ (tw a t).claimIn = .decline e tag newer :: rest ∧ (engOf a e).claims.find? (fun c => c.seq == tag) = some c ∧ portHeld a ((groupOf e).getD 0) = true :=
  ⟨.t0, _, _, _, _, _, { on with tw0 := { svc := .inService, claimIn := [.decline 0 7 1] }, engines := [(0, { claims := [{ seq := 7 }] })], holds := [(0, true)] }, by decide, rfl, rfl, by decide⟩

theorem ClaimChannelItemsActAtTheReceiver_3_1_witness : ∃ t : TwinId, ∃ w : GrantWord, ∃ tag : Nat, ∃ load : Nat, ∃ dd : Int, ∃ rest : List ClaimItem, ∃ c : Claim, ∃ a : Block, (storesWf a = true ∧ live a t = true) ∧ (tw a t).claimIn = .grant w tag dd load :: rest ∧ c ∈ (engOf a w.eng).claims ∧ c.seq = tag ∧ (engOf a w.eng).inService = true ∧ (ctxTw a t w.ctx).fenced = false ∧ portHeld a ((groupOf w.eng).getD 0) = false :=
  ⟨.t0, _, _, _, _, _, { seq := 7 }, { on with tw0 := { svc := .inService, claimIn := [.grant { eng := 0, node := 5, gen := 1 } 7 0 0] }, engines := [(0, { inService := true, claims := [{ seq := 7 }] })] }, by decide, rfl, by decide⟩

theorem ClaimChannelItemsActAtTheReceiver_4_1_witness : ∃ t : TwinId, ∃ w : GrantWord, ∃ tag : Nat, ∃ load : Nat, ∃ dd : Int, ∃ rest : List ClaimItem, ∃ a : Block, (storesWf a = true ∧ live a t = true ∧ serves a (partner t) = true) ∧ homeOf w.node = partner t ∧ (tw a t).claimIn = .grant w tag dd load :: rest ∧ (engOf a w.eng).inService = false ∧ (ctxTw a t w.ctx).fenced = false :=
  ⟨.t0, _, _, _, _, _, { on with tw0 := { svc := .inService, claimIn := [.grant { eng := 0, node := 0x80005 } 7 0 0] } }, by decide, rfl, rfl, by decide⟩

theorem ClaimChannelItemsActAtTheReceiver_5_1_witness : ∃ t : TwinId, ∃ n : Nat, ∃ g : Nat, ∃ e : Nat, ∃ i : Nat, ∃ q : CircRec, ∃ rest : List ClaimItem, ∃ a : Block, live a t = true ∧ (tw a t).claimIn = .acceptItem n g e false :: rest ∧ homeOf n = t ∧ openRecOf a n g = some (i, q) ∧ q.st = .issued :=
  ⟨.t0, _, _, _, _, _, _, { on with tw0 := { svc := .inService, claimIn := [.acceptItem 5 1 0 false], desk := { recs := [(3, { st := .issued, node := 5, gen := 1 })] } } }, by decide, rfl, by decide, rfl, by decide⟩

theorem ClaimChannelItemsActAtTheReceiver_6_1_witness : ∃ t : TwinId, ∃ n : Nat, ∃ g : Nat, ∃ e : Nat, ∃ rest : List ClaimItem, ∃ a : Block, live a t = true ∧ (tw a t).claimIn = .acceptItem n g e true :: rest ∧ homeOf n = t :=
  ⟨.t0, 5, 1, 0, _, { on with tw0 := { svc := .inService, claimIn := [.acceptItem 5 1 0 true] } }, by decide, rfl, by decide⟩

theorem ClaimChannelItemsActAtTheReceiver_7_1_witness : ∃ t : TwinId, ∃ c : Copy, ∃ rest : List ClaimItem, ∃ a : Block, (storesWf a = true ∧ live a t = true) ∧ (tw a t).claimIn = .proxy c :: rest ∧ copiesHeld a t < 4096 ∧ groupUp a t c.group = true ∧ (tw a t).svc ≠ .detaching :=
  ⟨.t0, _, _, { on with tw0 := { svc := .inService, claimIn := [.proxy { group := 0 }] }, engines := [(0, { inService := true })] }, by decide, rfl, by decide⟩

theorem ClaimChannelItemsActAtTheReceiver_8_1_witness : ∃ t : TwinId, ∃ c : Copy, ∃ rest : List ClaimItem, ∃ a : Block, (live a t = true ∧ serves a (partner t) = true) ∧ (tw a t).claimIn = .proxy c :: rest ∧ 4096 ≤ copiesHeld a t :=
  ⟨.t0, _, _, { on with tw0 := { svc := .inService, claimIn := [.proxy {}], rack := { lanes := [(0, { copies := List.replicate 4096 {} })] } } }, by decide, rfl, by simp [copiesHeld, tw]⟩

theorem ClaimChannelItemsActAtTheReceiver_9_1_witness : ∃ t : TwinId, ∃ c : Copy, ∃ rest : List ClaimItem, ∃ a : Block, (live a t = true ∧ serves a (partner t) = true) ∧ (tw a t).claimIn = .proxy c :: rest ∧ copiesHeld a t < 4096 ∧ (groupUp a t c.group = false ∨ (tw a t).svc = .detaching) :=
  ⟨.t0, _, _, { on with tw0 := { svc := .inService, claimIn := [.proxy { group := 0 }] } }, by decide, rfl, by decide⟩

theorem ClaimChannelItemsActAtTheReceiver_10_1_witness : ∃ t : TwinId, ∃ e : Nat, ∃ g : Nat, ∃ tag : Nat, ∃ key : Nat, ∃ x : Nat, ∃ d : Int, ∃ l : Lane, ∃ xs : List Nat, ∃ n : Node, ∃ rest : List ClaimItem, ∃ a : Block, (storesWf a = true ∧ live a t = true ∧ serves a (partner t) = true) ∧ (tw a t).claimIn = .fwdClaim e g d tag :: rest ∧ recsInUse a t < 65536 ∧ g < 144 ∧ key / 64 = g ∧ key % 4 < 3 ∧ (tw a t).rack.lanes = [(key, l)] ∧ l.slots = x :: xs ∧ l.copies = [] ∧ laneCached l ≠ 0 ∧ x < 524288 ∧ nodeWhy a t g x = .ok ∧ n = nodeOf a (nodeIdOf t x) ∧ n.kind ≠ kRebake :=
  ⟨.t0, _, _, _, 0, 5, _, { slots := [5] }, [], { st := .ready }, _, { on with tw0 := { svc := .inService, claimIn := [.fwdClaim 0 0 0 7], rack := { lanes := [(0, { slots := [5] })] }, cat := { nodes := [(5, { st := .ready })] } } }, by decide, rfl, by decide⟩

/-! ReturnedGrantsAndProxyAnswers -/

theorem ReturnedGrantsAndProxyAnswers_1_1_witness : ∃ t : TwinId, ∃ n : Nat, ∃ g : Nat, ∃ i : Nat, ∃ q : CircRec, ∃ rest : List ClaimItem, ∃ a : Block, (storesWf a = true ∧ live a t = true) ∧ homeOf n = t ∧ (tw a t).claimIn = .grantReturn n g false :: rest ∧ openRecOf a n g = some (i, q) ∧ (nodeOf a n).st = .granted ∧ (nodeOf a n).wcount = false ∧ unfenced a t q.ctx = true ∧ (tw a t).rack.keptNoRec = [] ∧ (ctxTw a t q.ctx).inflHeld = false ∧ recOf a t i = q ∧ bookOn a t = false :=
  ⟨.t0, _, _, _, _, _, { on with tw0 := { svc := .inService, claimIn := [.grantReturn 5 1 false], desk := { recs := [(3, { st := .issued, node := 5, gen := 1 })] }, cat := { nodes := [(5, { st := .granted, gen := 1 })] } } }, by decide, rfl, rfl, rfl, by decide⟩

theorem ReturnedGrantsAndProxyAnswers_2_1_witness : ∃ t : TwinId, ∃ n : Nat, ∃ g : Nat, ∃ i : Nat, ∃ q : CircRec, ∃ rest : List ClaimItem, ∃ a : Block, (storesWf a = true ∧ live a t = true) ∧ homeOf n = t ∧ (tw a t).claimIn = .grantReturn n g true :: rest ∧ openRecOf a n g = some (i, q) ∧ (nodeOf a n).wcount = false ∧ (tw a t).rack.keptNoRec = [] ∧ (ctxTw a t q.ctx).inflHeld = false ∧ recOf a t i = q :=
  ⟨.t0, _, _, _, _, _, { on with tw0 := { svc := .inService, claimIn := [.grantReturn 5 1 true], desk := { recs := [(3, { st := .issued, node := 5, gen := 1 })] }, cat := { nodes := [(5, { st := .granted, gen := 1 })] } } }, by decide, rfl, rfl, rfl, by decide⟩

theorem ReturnedGrantsAndProxyAnswers_3_1_witness : ∃ t : TwinId, ∃ n : Nat, ∃ gen : Nat, ∃ e : Nat, ∃ tag : Nat, ∃ g : Nat, ∃ i : Nat, ∃ q : CircRec, ∃ rest : List ClaimItem, ∃ a : Block, (storesWf a = true ∧ live a t = true) ∧ homeOf n = t ∧ (tw a t).claimIn = .proxyGrant n gen e tag :: rest ∧ proxyGroup a n = some g ∧ reservationOf a n = some (i, q) :=
  ⟨.t0, _, _, _, _, _, _, _, _, { on with tw0 := { svc := .inService, claimIn := [.proxyGrant 5 1 0 0], rack := { proxyOut := [(2, [5])] }, desk := { recs := [(3, { st := .reserved, node := 5 })] } } }, by decide, rfl, rfl, rfl, rfl⟩

theorem ReturnedGrantsAndProxyAnswers_4_1_witness : ∃ t : TwinId, ∃ n : Nat, ∃ gen : Nat, ∃ e : Nat, ∃ tag : Nat, ∃ rest : List ClaimItem, ∃ a : Block, live a t = true ∧ homeOf n = t ∧ (tw a t).claimIn = .proxyGrant n gen e tag :: rest ∧ proxyGroup a n = none :=
  ⟨.t0, _, _, _, _, _, { on with tw0 := { svc := .inService, claimIn := [.proxyGrant 5 1 0 0] } }, by decide, rfl, rfl, by decide⟩

theorem ReturnedGrantsAndProxyAnswers_5_1_witness : ∃ t : TwinId, ∃ n : Nat, ∃ g : Nat, ∃ i : Nat, ∃ q : CircRec, ∃ rest : List ClaimItem, ∃ a : Block, (storesWf a = true ∧ live a t = true) ∧ homeOf n = t ∧ (tw a t).claimIn = .proxyRefused n :: rest ∧ proxyGroup a n = some g ∧ reservationOf a n = some (i, q) ∧ (tw a t).rack.keptNoRec = [] ∧ (ctxTw a t q.ctx).inflHeld = false ∧ (recOf a t i).ctx = q.ctx :=
  ⟨.t0, _, _, _, _, _, { on with tw0 := { svc := .inService, claimIn := [.proxyRefused 5], rack := { proxyOut := [(2, [5])] }, desk := { recs := [(3, { st := .reserved, node := 5 })] } } }, by decide, rfl, rfl, rfl, rfl, by decide⟩

theorem ReturnedGrantsAndProxyAnswers_6_1_witness : ∃ t : TwinId, ∃ n : Nat, ∃ g : Nat, ∃ i : Nat, ∃ q : CircRec, ∃ rest : List ClaimItem, ∃ a : Block, (storesWf a = true ∧ live a t = true) ∧ homeOf n = t ∧ (tw a t).claimIn = .proxyBack n :: rest ∧ proxyGroup a n = some g ∧ reservationOf a n = some (i, q) ∧ (nodeOf a n).wcount = false ∧ (tw a t).rack.keptNoRec = [] ∧ (ctxTw a t q.ctx).inflHeld = false ∧ (recOf a t i).ctx = q.ctx :=
  ⟨.t0, _, _, _, _, _, { on with tw0 := { svc := .inService, claimIn := [.proxyBack 5], rack := { proxyOut := [(2, [5])] }, desk := { recs := [(3, { st := .reserved, node := 5 })] } } }, by decide, rfl, rfl, rfl, rfl, by decide⟩

/-! RefillsResamplesSummaries -/

theorem RefillsResamplesSummaries_1_1_witness : ∃ t : TwinId, ∃ lane : LaneId, ∃ a : Block, ∃ key, key = laneKey lane.group.toNat lane.lc lane.level.toNat lane.lane.toNat ∧ storesWf a = true ∧ live a t = true ∧ (laneOf a t key).refills ≠ 0 ∧ (groupClaims a (key / 64)).filter (fun p => p.2.lane == some key) = [] ∧ (tw a t).desk.fwdWait.find? (fun f => f.lane == key) = none :=
  ⟨.t0, ⟨0, false, 0, 0⟩, { on with tw0 := { svc := .inService, rack := { lanes := [(0, { slots := [1, 2, 3], refills := 1 })] } } }, _, rfl, by decide⟩

theorem RefillsResamplesSummaries_2_1_witness : ∃ eng : EngineId, ∃ c : Claim, ∃ rest : List Claim, ∃ a : Block, ∃ e, e = eng.toNat ∧ ∃ g, g = (groupOf e).getD 0 ∧ ∃ t, t = primary a g ∧ storesWf a = true ∧ (engOf a e).claims = c :: rest ∧ (∀ p ∈ groupClaims a g, c.seq ≤ p.2.seq) ∧ admissible a e = true ∧ live a t = true ∧ serves a (partner t) = true ∧ recordsFull a t = false ∧ (groupBest a t g).1 = 0 ∧ 0 < (summaryOf a g).1 ∧ mayForward a t g c = true :=
  ⟨0, _, _, { on with tw0 := { svc := .inService, rack := { sumRx := [(0, 0x8001)] } }, engines := [(0, { inService := true, claims := [{}] })] }, _, rfl, _, rfl, _, rfl, by decide, rfl, by decide⟩

theorem RefillsResamplesSummaries_3_1_witness : ∃ eng : EngineId, ∃ c : Claim, ∃ rest : List Claim, ∃ key : Nat, ∃ x : Nat, ∃ l : Lane, ∃ xs : List Nat, ∃ a : Block, ∃ e, e = eng.toNat ∧ ∃ g, g = (groupOf e).getD 0 ∧ ∃ t, t = primary a g ∧ storesWf a = true ∧ (engOf a e).claims = c :: rest ∧ (∀ p ∈ groupClaims a g, c.seq ≤ p.2.seq) ∧ admissible a e = true ∧ live a t = true ∧ recsInUse a t < 65536 ∧ key / 64 = g ∧ key % 4 < 3 ∧ (tw a t).rack.lanes = [(key, l)] ∧ l.slots = x :: xs ∧ l.copies = [] ∧ laneCached l ≠ 0 ∧ x < 524288 ∧ nodeWhy a t g x = .ok ∧ (nodeOf a (nodeIdOf t x)).kind ≠ kRebake ∧ (summaryOf a g).1 ≤ (groupBest a t g).1 :=
  ⟨0, {}, [], 0, 5, { slots := [5] }, [], { on with tw0 := { svc := .inService, rack := { lanes := [(0, { slots := [5] })] }, cat := { nodes := [(5, { st := .ready })] } }, engines := [(0, { inService := true, claims := [{}] })] }, _, rfl, _, rfl, _, rfl, by decide +kernel⟩

theorem RefillsResamplesSummaries_4_1_witness : ∃ t : TwinId, ∃ entry : BitVec 7, ∃ e : Nat, ∃ c : Claim, ∃ a : Block, storesWf a = true ∧ entry.toNat ≤ 71 ∧ live a t = true ∧ serves a (partner t) = true ∧ groupClaims a (if entry.toNat < 64 then 2 * entry.toNat + twinNum t else 128 + 2 * (entry.toNat - 64) + twinNum t) = [(e, c)] ∧ (engOf a e).claims = [c] ∧ admissible a e = false :=
  ⟨.t0, 0, 0, {}, { on with engines := [(0, { claims := [{}] })] }, by decide⟩

theorem RefillsResamplesSummaries_5_1_witness : ∃ t : TwinId, ∃ entry : BitVec 7, ∃ a : Block, storesWf a = true ∧ entry.toNat ≤ 71 ∧ live a t = true ∧ serves a (partner t) = true ∧ groupClaims a (if entry.toNat < 64 then 2 * entry.toNat + twinNum t else 128 + 2 * (entry.toNat - 64) + twinNum t) = [] :=
  ⟨.t0, 0, on, by decide⟩

/-! ReportsEnterReturns -/

theorem ReportsEnterReturns_1_1_witness : ∃ p : Port, ∃ r : Report, ∃ a : Block, ∃ e, e = r.engine.toNat ∧ ∃ n, n = r.node.toNat ∧ ∃ g, g = r.gen.toNat ∧ ∃ t, t = primary a (portNum p) ∧ storesWf a = true ∧ live a t = true ∧ onPort (portNum p) e = true ∧ (engOf a e).inService = true ∧ engKind e ≠ some .tile ∧ homeOf n = partner t ∧ serves a (partner t) = true :=
  ⟨.dma 0, ⟨0x2400, 0x80005, 1, 0, false, 0, 0⟩, { on with engines := [(0x2400, { inService := true })] }, _, rfl, _, rfl, _, rfl, _, rfl, by decide⟩

theorem ReportsEnterReturns_2_1_witness : ∃ p : Port, ∃ r : Report, ∃ a : Block, ∃ e, e = r.engine.toNat ∧ ∃ n, n = r.node.toNat ∧ ∃ g, g = r.gen.toNat ∧ ∃ t, t = primary a (portNum p) ∧ storesWf a = true ∧ live a t = true ∧ onPort (portNum p) e = true ∧ (engOf a e).inService = true ∧ engKind e ≠ some .tile ∧ homeOf n = partner t ∧ serves a (partner t) = true :=
  ⟨.dma 0, ⟨0x2400, 0x80005, 1, 0, false, 0, 0⟩, { on with engines := [(0x2400, { inService := true })] }, _, rfl, _, rfl, _, rfl, _, rfl, by decide⟩

theorem ReportsEnterReturns_3_1_witness : ∃ p : Port, ∃ r : Report, ∃ i : Nat, ∃ q : CircRec, ∃ a : Block, ∃ e, e = r.engine.toNat ∧ ∃ n, n = r.node.toNat ∧ ∃ g, g = r.gen.toNat ∧ ∃ t, t = primary a (portNum p) ∧ (storesWf a = true ∧ live a t = true ∧ onPort (portNum p) e = true ∧ (engOf a e).inService = true ∧ homeOf n = t ∧ handBusy a t = false) ∧ openRecOf a n g = some (i, q) ∧ recOf a t i = q ∧ (nodeOf a n).wcount = false ∧ (tw a t).rack.keptNoRec = [] ∧ (ctxTw a t q.ctx).inflHeld = false ∧ unfenced a t q.ctx = false ∧ engKind e ≠ some .tile :=
  ⟨.dma 0, ⟨0x2400, 5, 1, 0, false, 0, 0⟩, _, _, { on with tw0 := { svc := .inService, desk := { recs := [(3, { st := .issued, node := 5, gen := 1 })] }, ctxs := [(0, { fenced := true })] }, engines := [(0x2400, { inService := true })] }, _, rfl, _, rfl, _, rfl, _, rfl, by decide, rfl, by decide⟩

theorem ReportsEnterReturns_4_1_witness : ∃ p : Port, ∃ r : Report, ∃ i : Nat, ∃ q : CircRec, ∃ a : Block, ∃ e, e = r.engine.toNat ∧ ∃ n, n = r.node.toNat ∧ ∃ g, g = r.gen.toNat ∧ ∃ t, t = primary a (portNum p) ∧ ∃ ws, ws = listOf a n ∧ (storesWf a = true ∧ live a t = true ∧ onPort (portNum p) e = true ∧ (engOf a e).inService = true ∧ homeOf n = t ∧ handBusy a t = false) ∧ openRecOf a n g = some (i, q) ∧ recOf a t i = q ∧ (nodeOf a n).wcount = false ∧ (tw a t).rack.keptNoRec = [] ∧ (ctxTw a t q.ctx).inflHeld = false ∧ unfenced a t q.ctx = true ∧ engKind e = plainEngine (nodeOf a n).kind ∧ (nodeOf a n).kind ≤ 4 ∧ (nodeOf a n).backward = false ∧ (nodeOf a n).mirrorEn = false ∧ (nodeOf a n).inserted = false ∧ (nodeOf a n).st = .granted ∧ mapGet 0 (tw a t).sort.bind (slotOf n) = 0 ∧ ws.length ≤ 32 ∧ plainList (releaseOf e) (nodeOf a n) ws = true ∧ (∀ w ∈ ws, homeOf (edgeTarget w) = t) :=
  ⟨.dma 0, ⟨0x2400, 5, 1, 0, false, 0, 0⟩, _, _, { on with tw0 := { svc := .inService, desk := { recs := [(3, { st := .issued, node := 5, gen := 1 })] }, cat := { nodes := [(5, { st := .granted, gen := 1, kind := 4 })] } }, engines := [(0x2400, { inService := true })] }, _, rfl, _, rfl, _, rfl, _, rfl, _, rfl, by decide, rfl, by decide⟩

theorem ReportsEnterReturns_5_1_witness : ∃ p : Port, ∃ r : Report, ∃ i : Nat, ∃ w : Nat, ∃ q : CircRec, ∃ a : Block, ∃ e, e = r.engine.toNat ∧ ∃ n, n = r.node.toNat ∧ ∃ g, g = r.gen.toNat ∧ ∃ t, t = primary a (portNum p) ∧ (storesWf a = true ∧ live a t = true ∧ onPort (portNum p) e = true ∧ (engOf a e).inService = true ∧ homeOf n = t ∧ handBusy a t = false) ∧ openRecOf a n g = some (i, q) ∧ recOf a t i = q ∧ (nodeOf a n).wcount = false ∧ (tw a t).rack.keptNoRec = [] ∧ (ctxTw a t q.ctx).inflHeld = false ∧ unfenced a t q.ctx = true ∧ engKind e = plainEngine (nodeOf a n).kind ∧ (nodeOf a n).kind ≤ 4 ∧ (nodeOf a n).backward = false ∧ (nodeOf a n).mirrorEn = false ∧ (nodeOf a n).inserted = false ∧ (nodeOf a n).st = .granted ∧ mapGet 0 (tw a t).sort.bind (slotOf n) = 0 ∧ listOf a n = [w] ∧ plainList (releaseOf e) (nodeOf a n) [w] = true ∧ homeOf (edgeTarget w) = partner t ∧ serves a (partner t) = true ∧ (tw a (partner t)).edgeIn.length < 256 :=
  ⟨.dma 0, ⟨0x2400, 5, 1, 0, false, 0, 0⟩, _, 0x80005, _, { on with tw0 := { svc := .inService, desk := { recs := [(3, { st := .issued, node := 5, gen := 1 })] }, cat := { nodes := [(5, { st := .granted, gen := 1, kind := 4, succLen := 1 })], fwd := [(0, 0x80005)] } }, engines := [(0x2400, { inService := true })] }, _, rfl, _, rfl, _, rfl, _, rfl, by decide, rfl, by decide⟩

theorem ReportsEnterReturns_6_1_witness : ∃ p : Port, ∃ r : Report, ∃ i : Nat, ∃ w : Nat, ∃ q : CircRec, ∃ a : Block, ∃ e, e = r.engine.toNat ∧ ∃ n, n = r.node.toNat ∧ ∃ g, g = r.gen.toNat ∧ ∃ t, t = primary a (portNum p) ∧ ∃ x, x = edgeTarget w ∧ (storesWf a = true ∧ live a t = true ∧ onPort (portNum p) e = true ∧ (engOf a e).inService = true ∧ homeOf n = t ∧ handBusy a t = false) ∧ openRecOf a n g = some (i, q) ∧ recOf a t i = q ∧ (nodeOf a n).wcount = false ∧ (tw a t).rack.keptNoRec = [] ∧ (ctxTw a t q.ctx).inflHeld = false ∧ unfenced a t q.ctx = true ∧ engKind e = some .tile ∧ (nodeOf a n).kind = 0 ∧ (nodeOf a n).backward = false ∧ (nodeOf a n).mirrorEn = false ∧ (nodeOf a n).inserted = false ∧ (nodeOf a n).st = .granted ∧ mapGet 0 (tw a t).sort.bind (slotOf n) = 0 ∧ listOf a n = [w] ∧ edgeKind w = 0 ∧ max (nodeOf a n).scope (edgeScope w) < 2 ∧ homeOf x = t ∧ x ≠ n ∧ engineServed (nodeOf a x).kind = true ∧ (tw a t).ret.narrow = [] :=
  ⟨.cluster 0, ⟨0, 5, 1, 0, false, 0, 0⟩, _, 6, _, { on with tw0 := { svc := .inService, desk := { recs := [(3, { st := .issued, node := 5, gen := 1 })] }, cat := { nodes := [(5, { st := .granted, gen := 1, succLen := 1 })], fwd := [(0, 6)] } }, engines := [(0, { inService := true })] }, _, rfl, _, rfl, _, rfl, _, rfl, _, rfl, by decide, rfl, by decide⟩

theorem ReportsEnterReturns_7_1_witness : ∃ p : Port, ∃ r : Report, ∃ i : Nat, ∃ q : CircRec, ∃ a : Block, ∃ e, e = r.engine.toNat ∧ ∃ n, n = r.node.toNat ∧ ∃ g, g = r.gen.toNat ∧ ∃ t, t = primary a (portNum p) ∧ (storesWf a = true ∧ live a t = true ∧ onPort (portNum p) e = true ∧ (engOf a e).inService = true ∧ homeOf n = t ∧ handBusy a t = false) ∧ openRecOf a n g = some (i, q) ∧ recOf a t i = q ∧ (nodeOf a n).wcount = false ∧ (tw a t).rack.keptNoRec = [] ∧ (ctxTw a t q.ctx).inflHeld = false ∧ unfenced a t q.ctx = true ∧ engKind e = plainEngine (nodeOf a n).kind ∧ (nodeOf a n).kind ≤ 4 ∧ (nodeOf a n).st = .granted ∧ (nodeOf a n).inserted = false ∧ mapGet 0 (tw a t).sort.bind (slotOf n) = 0 ∧ (ctxOf a q.ctx).st = .opened ∧ (ctxOf a q.ctx).home = t ∧ bitOf (reg a blkKey 0x250) 5 = false ∧ hasEntry a t q.ctx = false ∧ entriesHeld a t < 64 :=
  ⟨.dma 0, ⟨0x2400, 5, 1, 0, false, 0, 0⟩, _, _, { on with tw0 := { svc := .inService, desk := { recs := [(3, { st := .issued, node := 5, gen := 1 })] }, cat := { nodes := [(5, { st := .granted, kind := 4 })] } }, ctxs := [(0, { st := .opened })], engines := [(0x2400, { inService := true })] }, _, rfl, _, rfl, _, rfl, _, rfl, by decide, rfl, by decide⟩

theorem ReportsEnterReturns_8_1_witness : ∃ p : Port, ∃ r : Report, ∃ i : Nat, ∃ w : Nat, ∃ q : CircRec, ∃ a : Block, ∃ e, e = r.engine.toNat ∧ ∃ n, n = r.node.toNat ∧ ∃ g, g = r.gen.toNat ∧ ∃ t, t = primary a (portNum p) ∧ (storesWf a = true ∧ live a t = true ∧ onPort (portNum p) e = true ∧ (engOf a e).inService = true ∧ homeOf n = t ∧ handBusy a t = false) ∧ openRecOf a n g = some (i, q) ∧ recOf a t i = q ∧ (nodeOf a n).wcount = false ∧ unfenced a t q.ctx = true ∧ engKind e = plainEngine (nodeOf a n).kind ∧ (nodeOf a n).kind ≤ 4 ∧ (nodeOf a n).backward = false ∧ (nodeOf a n).mirrorEn = false ∧ (nodeOf a n).inserted = false ∧ (nodeOf a n).st = .granted ∧ mapGet 0 (tw a t).sort.bind (slotOf n) = 0 ∧ listOf a n = [w] ∧ plainList (releaseOf e) (nodeOf a n) [w] = true ∧ homeOf (edgeTarget w) = partner t ∧ serves a (partner t) = true ∧ 256 ≤ (tw a (partner t)).edgeIn.length :=
  ⟨.dma 0, ⟨0x2400, 5, 1, 0, false, 0, 0⟩, _, 0x80005, _, { on with tw0 := { svc := .inService, desk := { recs := [(3, { st := .issued, node := 5, gen := 1 })] }, cat := { nodes := [(5, { st := .granted, gen := 1, kind := 4, succLen := 1 })], fwd := [(0, 0x80005)] } }, tw1 := { svc := .inService, edgeIn := List.replicate 256 (.credit {}) }, engines := [(0x2400, { inService := true })] }, _, rfl, _, rfl, _, rfl, _, rfl, by decide, rfl, by decide⟩

theorem ReportsEnterReturns_9_1_witness : ∃ t : TwinId, ∃ c : Completion, ∃ rest : List ClaimItem, ∃ a : Block, live a t = true ∧ (tw a t).claimIn = .complete c :: rest ∧ handBusy a t = true :=
  ⟨.t0, _, _, { on with tw0 := { svc := .inService, claimIn := [.complete { node := 5 }], ret := { waiting := [.skip 7] } } }, by decide, rfl, by decide⟩

theorem ReportsEnterReturns_10_1_witness : ∃ t : TwinId, ∃ c : Completion, ∃ rest : List ClaimItem, ∃ a : Block, live a t = true ∧ (tw a t).claimIn = .complete c :: rest ∧ c.stale = true ∧ handBusy a t = false :=
  ⟨.t0, _, _, { on with tw0 := { svc := .inService, claimIn := [.complete { stale := true }] } }, by decide, rfl, by decide⟩

theorem ReportsEnterReturns_11_1_witness : ∃ t : TwinId, ∃ c : Completion, ∃ i : Nat, ∃ q : CircRec, ∃ rest : List ClaimItem, ∃ a : Block, (storesWf a = true ∧ live a t = true) ∧ (tw a t).claimIn = .complete c :: rest ∧ (c.stale = false ∧ homeOf c.node = t ∧ handBusy a t = false) ∧ openRecOf a c.node c.gen = some (i, q) ∧ recOf a t i = q ∧ (nodeOf a c.node).wcount = false ∧ (tw a t).rack.keptNoRec = [] ∧ (ctxTw a t q.ctx).inflHeld = false ∧ unfenced a t q.ctx = false :=
  ⟨.t0, _, _, _, _, { on with tw0 := { svc := .inService, claimIn := [.complete { node := 5, gen := 1 }], desk := { recs := [(3, { st := .issued, node := 5, gen := 1 })] }, ctxs := [(0, { fenced := true })] } }, by decide, rfl, by decide, rfl, by decide⟩

theorem ReportsEnterReturns_12_1_witness : ∃ t : TwinId, ∃ c : Completion, ∃ i : Nat, ∃ q : CircRec, ∃ rest : List ClaimItem, ∃ a : Block, ∃ n, n = c.node ∧ ∃ ws, ws = listOf a n ∧ (storesWf a = true ∧ live a t = true) ∧ (tw a t).claimIn = .complete c :: rest ∧ (c.stale = false ∧ c.isFault = false ∧ homeOf n = t ∧ handBusy a t = false) ∧ openRecOf a n c.gen = some (i, q) ∧ recOf a t i = q ∧ (nodeOf a n).wcount = false ∧ (tw a t).rack.keptNoRec = [] ∧ (ctxTw a t q.ctx).inflHeld = false ∧ unfenced a t q.ctx = true ∧ engKind c.eng = plainEngine (nodeOf a n).kind ∧ (nodeOf a n).kind ≤ 4 ∧ (nodeOf a n).backward = false ∧ (nodeOf a n).mirrorEn = false ∧ (nodeOf a n).inserted = false ∧ (nodeOf a n).st = .granted ∧ mapGet 0 (tw a t).sort.bind (slotOf n) = 0 ∧ ws.length ≤ 32 ∧ plainList (releaseOf c.eng) (nodeOf a n) ws = true ∧ (∀ w ∈ ws, homeOf (edgeTarget w) = t) :=
  ⟨.t0, _, _, _, _, { on with tw0 := { svc := .inService, claimIn := [.complete { node := 5, gen := 1, eng := 0x2400 }], desk := { recs := [(3, { st := .issued, node := 5, gen := 1 })] }, cat := { nodes := [(5, { st := .granted, gen := 1, kind := 4 })] } } }, _, rfl, _, rfl, by decide, rfl, by decide, rfl, by decide⟩

theorem ReportsEnterReturns_13_1_witness : ∃ t : TwinId, ∃ c : Completion, ∃ i : Nat, ∃ q : CircRec, ∃ rest : List ClaimItem, ∃ a : Block, ∃ n, n = c.node ∧ (storesWf a = true ∧ live a t = true) ∧ (tw a t).claimIn = .complete c :: rest ∧ (c.stale = false ∧ c.isFault = true ∧ homeOf n = t ∧ handBusy a t = false) ∧ openRecOf a n c.gen = some (i, q) ∧ recOf a t i = q ∧ (nodeOf a n).wcount = false ∧ (tw a t).rack.keptNoRec = [] ∧ (ctxTw a t q.ctx).inflHeld = false ∧ unfenced a t q.ctx = true ∧ (nodeOf a n).kind ≤ 4 ∧ (nodeOf a n).st = .granted ∧ (nodeOf a n).inserted = false ∧ mapGet 0 (tw a t).sort.bind (slotOf n) = 0 ∧ (ctxOf a q.ctx).st = .opened ∧ (ctxOf a q.ctx).home = t ∧ bitOf (reg a blkKey 0x250) 5 = false ∧ hasEntry a t q.ctx = false ∧ entriesHeld a t < 64 :=
  ⟨.t0, { node := 5, gen := 1, eng := 0x2400, isFault := true }, _, _, _, { on with tw0 := { svc := .inService, claimIn := [.complete { node := 5, gen := 1, eng := 0x2400, isFault := true }], desk := { recs := [(3, { st := .issued, node := 5, gen := 1 })] }, cat := { nodes := [(5, { st := .granted, gen := 1, kind := 4 })] } }, ctxs := [(0, { st := .opened })] }, _, rfl, by decide, rfl, by decide, rfl, by decide⟩

theorem ReportsEnterReturns_14_1_witness : ∃ eng : EngineId, ∃ k : Machine.Task, ∃ i : Nat, ∃ a : Block, ∃ e, e = eng.toNat ∧ ∃ g, g = (groupOf e).getD 0 ∧ ∃ t, t = primary a g ∧ (storesWf a = true ∧ live a t = true) ∧ (engOf a e).tasks = [k] ∧ k.accepted = false ∧ (engOf a e).inService = true ∧ homeOf k.node = partner t ∧ serves a (partner t) = true ∧ i < (groupEngines g).2 ∧ (groupEngines g).1 + i ≠ e ∧ (engOf a ((groupEngines g).1 + i)).inService = true :=
  ⟨0, _, 1, { on with engines := [(0, { inService := true, tasks := [{ node := 0x80005 }] }), (1, { inService := true })] }, _, rfl, _, rfl, _, rfl, by decide, rfl, by decide⟩

/-! CreditsCountDownAndJudge -/

theorem CreditsCountDownAndJudge_1_1_witness : ∃ t : TwinId, ∃ c : Credit, ∃ rest : List EdgeItem, ∃ a : Block, ∃ id, id = edgeTarget c.word ∧ (storesWf a = true ∧ live a t = true) ∧ (tw a t).edgeIn = .credit c :: rest ∧ c.skip = false ∧ homeOf id = t ∧ (nodeOf a id).st = .waiting ∧ (nodeOf a id).mode = 0 ∧ (nodeOf a id).ctx = c.ctx ∧ (nodeOf a id).kind ≠ kExpert ∧ unfenced a t c.ctx = true ∧ c.epoch = 0 ∧ edgeKind c.word = 0 ∧ (tw a (homeOf c.src)).lard.leaving.find? (fun p => p.1 == c.src && c.org == 0) = none ∧ (nodeOf a id).backward = false ∧ 1 < (nodeOf a id).cf :=
  ⟨.t0, { word := 6 }, _, { on with tw0 := { svc := .inService, edgeIn := [.credit { word := 6 }], cat := { nodes := [(6, { st := .waiting, cf := 2 })] } } }, _, rfl, by decide, rfl, by decide⟩

theorem CreditsCountDownAndJudge_2_1_witness : ∃ t : TwinId, ∃ c : Credit, ∃ rest : List EdgeItem, ∃ a : Block, ∃ id, id = edgeTarget c.word ∧ (storesWf a = true ∧ live a t = true) ∧ (tw a t).edgeIn = .credit c :: rest ∧ c.skip = false ∧ homeOf id = t ∧ (nodeOf a id).st = .waiting ∧ (nodeOf a id).mode = 0 ∧ (nodeOf a id).ctx = c.ctx ∧ (nodeOf a id).kind ≠ kExpert ∧ unfenced a t c.ctx = true ∧ c.epoch = 0 ∧ edgeKind c.word = 0 ∧ (tw a (homeOf c.src)).lard.leaving.find? (fun p => p.1 == c.src && c.org == 0) = none ∧ (nodeOf a id).cf = 1 ∧ (nodeOf a id).mirHold = false ∧ (nodeOf a id).skipPend = false ∧ (nodeOf a id).backward = false ∧ engineServed (nodeOf a id).kind = true :=
  ⟨.t0, { word := 6 }, _, { on with tw0 := { svc := .inService, edgeIn := [.credit { word := 6 }], cat := { nodes := [(6, { st := .waiting, cf := 1 })] } } }, _, rfl, by decide, rfl, by decide⟩

theorem CreditsCountDownAndJudge_3_1_witness : ∃ t : TwinId, ∃ c : Credit, ∃ rest : List EdgeItem, ∃ a : Block, ∃ id, id = edgeTarget c.word ∧ (storesWf a = true ∧ live a t = true) ∧ (tw a t).edgeIn = .credit c :: rest ∧ c.skip = true ∧ homeOf id = t ∧ (nodeOf a id).st = .waiting ∧ (nodeOf a id).mode = 0 ∧ (nodeOf a id).ctx = c.ctx ∧ (nodeOf a id).kind ≠ kExpert ∧ unfenced a t c.ctx = true ∧ c.epoch = 0 ∧ edgeKind c.word = 0 ∧ (tw a (homeOf c.src)).lard.leaving.find? (fun p => p.1 == c.src && c.org == 0) = none ∧ (nodeOf a id).cf = 1 ∧ (nodeOf a id).mirHold = false ∧ (nodeOf a id).backward = false ∧ mapGet 0 (tw a t).sort.bind (slotOf id) = 0 :=
  ⟨.t0, { word := 6, skip := true }, _, { on with tw0 := { svc := .inService, edgeIn := [.credit { word := 6, skip := true }], cat := { nodes := [(6, { st := .waiting, cf := 1 })] } } }, _, rfl, by decide, rfl, by decide⟩

theorem CreditsCountDownAndJudge_4_1_witness : ∃ t : TwinId, ∃ a : Block, live a t = true ∧ (tw a t).cat.walked < a.time / 1024 ∧ mapGet [] (tw a t).cat.wheel (((tw a t).cat.walked + 1) % 4096) = [] :=
  ⟨.t0, { on with time := 2048 }, by decide⟩

theorem CreditsCountDownAndJudge_5_1_witness : ∃ t : TwinId, ∃ x : Nat, ∃ a : Block, storesWf a = true ∧ live a t = true ∧ (tw a t).cat.walked < a.time / 1024 ∧ mapGet [] (tw a t).cat.wheel (((tw a t).cat.walked + 1) % 4096) = [x] ∧ x < 524288 ∧ (nodeOf a (nodeIdOf t x)).st = .waiting ∧ (nodeOf a (nodeIdOf t x)).mode = 3 ∧ reached a.time (timeTarget (nodeOf a (nodeIdOf t x))) = true ∧ (nodeOf a (nodeIdOf t x)).mirHold = false ∧ (nodeOf a (nodeIdOf t x)).skipPend = false ∧ engineServed (nodeOf a (nodeIdOf t x)).kind = true :=
  ⟨.t0, 5, { on with tw0 := { svc := .inService, cat := { wheel := [(1, [5])], nodes := [(5, { st := .waiting, mode := 3, cf := 1 })] } }, time := 2048 }, by decide⟩

/-! WindowCommandsTakeEffect -/

theorem WindowCommandsTakeEffect_1_1_witness : ∃ src : Requester, ∃ ctx : CtxId, ∃ v : Word64, ∃ a : Block, ∃ k, k = ctx.toNat ∧ storesWf a = true ∧ winReady a src k (.nodeBank v.toNat) = true :=
  ⟨.archivist .t0, 0, 0, { on with ctxs := [(0, { st := .opened })] }, _, rfl, by decide⟩

theorem WindowCommandsTakeEffect_2_1_witness : ∃ src : Requester, ∃ ctx : CtxId, ∃ v : Word64, ∃ a : Block, ∃ k, k = ctx.toNat ∧ storesWf a = true ∧ winReady a src k (.edgeBank v.toNat) = true :=
  ⟨.archivist .t0, 0, 0, { on with ctxs := [(0, { st := .opened })] }, _, rfl, by decide⟩

theorem WindowCommandsTakeEffect_3_1_witness : ∃ src : Requester, ∃ ctx : CtxId, ∃ v : Word64, ∃ a : Block, ∃ k, k = ctx.toNat ∧ storesWf a = true ∧ winReady a src k (.mark v.toNat) = true :=
  ⟨.archivist .t0, 0, 0, { on with ctxs := [(0, { st := .opened })] }, _, rfl, by decide⟩

theorem WindowCommandsTakeEffect_4_1_witness : ∃ src : Requester, ∃ ctx : CtxId, ∃ v : Word64, ∃ a : Block, ∃ k, k = ctx.toNat ∧ storesWf a = true ∧ winServed a src k = true ∧ windowOpen a k = true ∧ mirrorWork a k = true ∧ (ctxOf a k).parked = [] ∧ parkFull a .t0 = false ∧ parkFull a .t1 = false ∧ a.heldWrites = [] :=
  ⟨.archivist .t0, 0, 0, { on with tw0 := { svc := .inService, acc := { work := [{}] } }, ctxs := [(0, { st := .opened })] }, _, rfl, by decide⟩

theorem WindowCommandsTakeEffect_5_1_witness : ∃ src : Requester, ∃ ctx : CtxId, ∃ v : Word64, ∃ a : Block, ∃ k, k = ctx.toNat ∧ storesWf a = true ∧ winServed a src k = true ∧ (a.heldWrites ≠ [] ∨ parkFull a .t0 = true ∨ parkFull a .t1 = true) :=
  ⟨.archivist .t0, 0, 0, { on with ctxs := [(0, { st := .opened })], heldWrites := [{ src := .archivist .t0, ctx := 0, parts := [] }] }, _, rfl, by decide⟩

theorem WindowCommandsTakeEffect_6_1_witness : ∃ src : Requester, ∃ ctx : CtxId, ∃ off : BitVec 16, ∃ a : Block, ∃ k, k = ctx.toNat ∧ (storesWf a = true ∧ winReady a src k .reserved = true) ∧ ∃ t, t = nodeTwin (selectors a k) :=
  ⟨.archivist .t0, 0, 0xC000, { on with ctxs := [(0, { st := .opened })] }, _, rfl, by decide, _, rfl⟩

theorem WindowCommandsTakeEffect_7_1_witness : ∃ src : Requester, ∃ ctx : CtxId, ∃ x : Nat, ∃ n : Node, ∃ a : Block, ∃ k, k = ctx.toNat ∧ storesWf a = true ∧ winReady a src k .rearm = true ∧ serves a .t0 = true ∧ serves a .t1 = true ∧ (tw a .t1).cat.nodes.filter (fun p => p.2.ctx == k && p.2.st != .free && !p.2.region && inNodeRange (ctxTw a .t1 k).nodeRange p.1) = [] ∧ (tw a .t0).cat.nodes.filter (fun p => p.2.ctx == k && p.2.st != .free && !p.2.region && inNodeRange (ctxTw a .t0 k).nodeRange p.1) = [(x, n)] ∧ x < 524288 ∧ n.st = .done ∧ mapGet 0 (tw a .t0).sort.bind x = 0 ∧ mapGet {} (tw a .t0).cat.nodes x = n :=
  ⟨.archivist .t0, 0, 5, { st := .done }, { on with tw0 := { svc := .inService, cat := { nodes := [(5, { st := .done })] }, ctxs := [(0, { nodeRange := 2 ^ 63 })] }, ctxs := [(0, { st := .opened })] }, _, rfl, by decide⟩

theorem WindowCommandsTakeEffect_8_1_witness : ∃ src : Requester, ∃ ctx : CtxId, ∃ a : Block, ∃ k, k = ctx.toNat ∧ ∃ t, t = nodeTwin (selectors a k) ∧ storesWf a = true ∧ winReady a src k .mirrorClose = true ∧ serves a t = true ∧ serves a (partner t) = true :=
  ⟨.archivist .t0, 0, { on with ctxs := [(0, { st := .opened })] }, _, rfl, _, rfl, by decide⟩

theorem WindowCommandsTakeEffect_9_1_witness : ∃ t : TwinId, ∃ ctx : CtxId, ∃ a : Block, ∃ k, k = ctx.toNat ∧ storesWf a = true ∧ live a t = true ∧ (ctxTw a t k).closing = true ∧ (ctxTw a t k).closeFirst = true ∧ closeBlocked a t k = false ∧ serves a (partner t) = true ∧ (ctxTw a t k).pendMir = [] ∧ (ctxOf a k).fixedLoaded = true :=
  ⟨.t1, 0, { on with tw1 := { svc := .inService, ctxs := [(0, { closing := true, closeFirst := true, marker := true })] }, ctxs := [(0, { st := .opened, fixedLoaded := true })] }, _, rfl, by decide⟩

theorem WindowCommandsTakeEffect_10_1_witness : ∃ t : TwinId, ∃ ctx : CtxId, ∃ x : Nat, ∃ n : Node, ∃ m : Node, ∃ a : Block, ∃ k, k = ctx.toNat ∧ (storesWf a = true ∧ live a t = true ∧ (ctxTw a t k).closing = true ∧ (ctxTw a t k).closeFirst = false ∧ (ctxTw a t k).marker = true ∧ closeBlocked a t k = false ∧ (ctxTw a t k).pendMir = [x] ∧ x < 524288) ∧ n = nodeOf a (nodeIdOf t x) ∧ (n.st = .loading ∧ n.ctx = k ∧ n.backward = true ∧ (ctxOf a k).fixedLoaded = false) ∧ m = { n with succBase := twinNum t * 2 ^ 22 + n.mBase % 2 ^ 22, succLen := n.mLen, mirror := 0, rsv2 := 0 } ∧ sealOk (upNode (nodeIdOf t x) (fun _ => m) a) (nodeIdOf t x) m = true :=
  ⟨.t0, 0, 5, _, _, { on with tw0 := { svc := .inService, cat := { nodes := [(5, { st := .loading, backward := true, cf := 1, cfSet := true, mRes := true })] }, ctxs := [(0, { closing := true, marker := true, pendMir := [5] })] } }, _, rfl, by decide, rfl, by decide, rfl, by decide⟩

theorem WindowCommandsTakeEffect_11_1_witness : ∃ src : Requester, ∃ ctx : CtxId, ∃ x : Nat, ∃ n : Node, ∃ a : Block, ∃ k, k = ctx.toNat ∧ (storesWf a = true ∧ winReady a src k .release = true ∧ serves a .t0 = true ∧ serves a .t1 = true ∧ nodesOf a .t1 k = [] ∧ nodesOf a .t0 k = [x] ∧ x < 524288 ∧ n.st = .done ∧ n.ctx = k ∧ inNodeRange (ctxTw a .t0 k).nodeRange x = true ∧ mapGet {} (tw a .t0).cat.nodes x = n ∧ n.wcount = false ∧ n.locked = false ∧ n.inserted = false ∧ mapGet 0 (tw a .t0).sort.bind x = 0 ∧ entriesOf a .t0 k = [] ∧ entriesOf a .t1 k = []) ∧ (∀ t, ∀ p ∈ (tw a t).rack.lanes, ∀ c ∈ p.2.copies, c.ctx ≠ k) ∧ (∀ t, ∀ p ∈ (tw a t).ctxs, ∀ c ∈ p.2.holdCopies, c.ctx ≠ k) :=
  ⟨.archivist .t0, 0, 5, { st := .done }, { on with tw0 := { svc := .inService, cat := { nodes := [(5, { st := .done })] }, ctxs := [(0, { nodeRange := 2 ^ 63 })] }, ctxs := [(0, { st := .opened })] }, _, rfl, by decide, fun u => by cases u <;> decide, fun u => by cases u <;> decide⟩

theorem WindowCommandsTakeEffect_12_1_witness : ∃ ctx : CtxId, ∃ w : ParkedWrite, ∃ v : Nat, ∃ rest : List ParkedWrite, ∃ a : Block, ∃ k, k = ctx.toNat ∧ storesWf a = true ∧ (ctxOf a k).parked = w :: rest ∧ w.parts = [.mark v] ∧ w.banks = none ∧ windowOpen a k = true ∧ mustPark a k (selectors a k) (.mark v) = false ∧ a.heldWrites = [] :=
  ⟨0, _, _, _, { on with ctxs := [(0, { st := .opened, parked := [{ parts := [.mark 7] }] })] }, _, rfl, by decide, rfl, rfl, by decide⟩

theorem WindowCommandsTakeEffect_13_1_witness : ∃ t : TwinId, ∃ ctx : CtxId, ∃ a : Block, ∃ k, k = ctx.toNat ∧ storesWf a = true ∧ live a t = true ∧ (ctxTw a t k).sweep = .rearm ∧ (ctxTw a t k).sweepBusy = false :=
  ⟨.t0, 0, { on with tw0 := { svc := .inService, ctxs := [(0, { sweep := .rearm })] } }, _, rfl, by decide⟩

/-! WindowWritesFillTheStores -/

theorem WindowWritesFillTheStores_1_1_witness : ∃ src : Requester, ∃ ctx : CtxId, ∃ off : BitVec 16, ∃ data : List Byte, ∃ a : Block, ∃ k, k = ctx.toNat ∧ ∃ t, t = twinOf ((ctxOf a k).edgeBank >>> 10) ∧ ∃ slot, slot = ((ctxOf a k).edgeBank % 1024) * 4096 + off.toNat / 4 % 4096 ∧ storesWf a = true ∧ winReady a src k (.edge off.toNat data) = true ∧ data.length = 4 ∧ 0x8000 ≤ off.toNat ∧ off.toNat + 4 ≤ 0xC000 ∧ off.toNat % 4 = 0 ∧ inFwdRange (ctxTw a t k).fwdRange slot = true ∧ (ctxOf a k).fixedClosed = false ∧ mapGet false (tw a t).acc.locks slot = false :=
  ⟨.archivist .t0, 0, 0x8000, [0, 0, 0, 0], { on with tw0 := { svc := .inService, ctxs := [(0, { fwdRange := 2 ^ 63 })] }, ctxs := [(0, { st := .opened })] }, _, rfl, _, rfl, _, rfl, by decide⟩

theorem WindowWritesFillTheStores_2_1_witness : ∃ src : Requester, ∃ ctx : CtxId, ∃ off : BitVec 16, ∃ data : List Byte, ∃ a : Block, ∃ k, k = ctx.toNat ∧ ∃ t, t = nodeTwin (selectors a k) ∧ ∃ slot, slot = ((ctxOf a k).nodeBank % 512) * 1024 + off.toNat / 32 ∧ storesWf a = true ∧ winReady a src k (.node off.toNat data) = true ∧ data.length = 8 ∧ off.toNat < 0x8000 ∧ off.toNat % 32 = 24 ∧ inNodeRange (ctxTw a t k).nodeRange slot = true ∧ (ctxOf a k).fixedClosed = false ∧ nodeOf a (nodeIdOf t slot) = {} :=
  ⟨.archivist .t0, 0, 24, [0, 0, 0, 0, 0, 0, 0, 0], { on with tw0 := { svc := .inService, ctxs := [(0, { nodeRange := 2 ^ 63 })] }, ctxs := [(0, { st := .opened })] }, _, rfl, _, rfl, _, rfl, by decide⟩

theorem WindowWritesFillTheStores_3_1_witness : ∃ src : Requester, ∃ ctx : CtxId, ∃ off : BitVec 16, ∃ data : List Byte, ∃ a : Block, ∃ k, k = ctx.toNat ∧ ∃ t, t = nodeTwin (selectors a k) ∧ ∃ slot, slot = ((ctxOf a k).nodeBank % 512) * 1024 + off.toNat / 32 ∧ ∃ id, id = nodeIdOf t slot ∧ ∃ n, n = nodeOf a id ∧ ∃ v, v = bytesToNat data ∧ (storesWf a = true ∧ winReady a src k (.node off.toNat data) = true ∧ data.length = 8 ∧ off.toNat < 0x8000 ∧ off.toNat % 8 = 0 ∧ inNodeRange (ctxTw a t k).nodeRange slot = true ∧ (ctxOf a k).fixedClosed = false ∧ (n.st = .free ∨ n.st = .loading ∨ n.st = .done ∨ n.st = .skipped) ∧ n.backward = false ∧ (off.toNat % 32 = 0 → bitOf v 33 = false)) ∧ ∃ m, m = (if n.st = .free then ({ st := .loading, ctx := k, region := nodeRegion a k id } : Node) else if n.st = .loading then n else { n with st := .loading, cfSet := false, skipPend := false, locked := false, mRes := false }) :=
  ⟨.archivist .t0, 0, 8, [0, 0, 0, 0, 0, 0, 0, 0], { on with tw0 := { svc := .inService, ctxs := [(0, { nodeRange := 2 ^ 63 })] }, ctxs := [(0, { st := .opened })] }, _, rfl, _, rfl, _, rfl, _, rfl, _, rfl, _, rfl, by decide, _, rfl⟩

theorem WindowWritesFillTheStores_4_1_witness : ∃ src : Requester, ∃ ctx : CtxId, ∃ off : BitVec 16, ∃ data : List Byte, ∃ a : Block, ∃ k, k = ctx.toNat ∧ ∃ t, t = nodeTwin (selectors a k) ∧ ∃ slot, slot = ((ctxOf a k).nodeBank % 512) * 1024 + off.toNat / 32 ∧ ∃ id, id = nodeIdOf t slot ∧ ∃ n, n = nodeOf a id ∧ ∃ v, v = bytesToNat data ∧ storesWf a = true ∧ winReady a src k (.node off.toNat data) = true ∧ data.length = 8 ∧ off.toNat < 0x8000 ∧ off.toNat % 32 = 0 ∧ bitOf v 33 = true ∧ inNodeRange (ctxTw a t k).nodeRange slot = true ∧ (ctxOf a k).fixedClosed = false ∧ n.st = .loading ∧ n.backward = false ∧ n.cfSet = false ∧ bitOf v 32 = false ∧ fld v 58 54 ≤ 12 ∧ fld v 58 54 ≠ kRebake ∧ n.load ≤ 2 ∧ n.succBase / 2 ^ 22 = twinNum t ∧ n.succBase % 2 ^ 22 + n.succLen ≤ 2 ^ 22 ∧ (fld v 60 59 = 2 → n.mask ≠ 0) ∧ anyLocked a id n = false :=
  ⟨.archivist .t0, 0, 0, [0, 0, 0, 0, 2, 0, 0, 0], { on with tw0 := { svc := .inService, ctxs := [(0, { nodeRange := 2 ^ 63 })], cat := { nodes := [(0, { st := .loading })] } }, ctxs := [(0, { st := .opened })] }, _, rfl, _, rfl, _, rfl, _, rfl, _, rfl, _, rfl, by decide⟩

theorem WindowWritesFillTheStores_5_1_witness : ∃ src : Requester, ∃ ctx : CtxId, ∃ off : BitVec 16, ∃ data : List Byte, ∃ a : Block, ∃ k, k = ctx.toNat ∧ ∃ t, t = nodeTwin (selectors a k) ∧ ∃ slot, slot = ((ctxOf a k).nodeBank % 512) * 1024 + off.toNat / 32 ∧ ∃ id, id = nodeIdOf t slot ∧ ∃ n, n = nodeOf a id ∧ ∃ v, v = bytesToNat data ∧ storesWf a = true ∧ winReady a src k (.node off.toNat data) = true ∧ data.length = 8 ∧ off.toNat < 0x8000 ∧ off.toNat % 32 = 0 ∧ bitOf v 33 = true ∧ inNodeRange (ctxTw a t k).nodeRange slot = true ∧ (ctxOf a k).fixedClosed = false ∧ n.st = .loading ∧ n.backward = false ∧ (12 < fld v 58 54 ∨ fld v 58 54 = kRebake ∨ 2 < n.load ∨ n.succBase / 2 ^ 22 ≠ twinNum t ∨ 2 ^ 22 < n.succBase % 2 ^ 22 + n.succLen) ∧ mapGet 0 (tw a t).sort.bind slot = 0 ∧ (ctxOf a k).home = t ∧ bitOf (reg a blkKey 0x250) 5 = false ∧ hasEntry a t k = false ∧ entriesHeld a t < 64 ∧ (ctxTw a t k).fenced = false :=
  ⟨.archivist .t0, 0, 0, [0, 0, 0, 0, 2, 0, 0, 0], { on with tw0 := { svc := .inService, ctxs := [(0, { nodeRange := 2 ^ 63 })], cat := { nodes := [(0, { st := .loading, load := 3 })] } }, ctxs := [(0, { st := .opened })] }, _, rfl, _, rfl, _, rfl, _, rfl, _, rfl, _, rfl, by decide⟩

theorem WindowWritesFillTheStores_6_1_witness : ∃ src : Requester, ∃ ctx : CtxId, ∃ off : BitVec 16, ∃ data : List Byte, ∃ a : Block, ∃ k, k = ctx.toNat ∧ ∃ t, t = nodeTwin (selectors a k) ∧ ∃ slot, slot = ((ctxOf a k).nodeBank % 512) * 1024 + off.toNat / 32 ∧ ∃ n, n = nodeOf a (nodeIdOf t slot) ∧ storesWf a = true ∧ winReady a src k (.node off.toNat data) = true ∧ data.length = 8 ∧ off.toNat < 0x8000 ∧ off.toNat % 8 = 0 ∧ inNodeRange (ctxTw a t k).nodeRange slot = true ∧ (ctxOf a k).fixedClosed = false ∧ (n.st = .waiting ∨ n.st = .ready ∨ n.st = .granted ∨ n.st = .faulted) ∧ (ctxOf a k).home = t ∧ bitOf (reg a blkKey 0x250) 5 = false ∧ hasEntry a t k = false ∧ entriesHeld a t < 64 ∧ (ctxTw a t k).fenced = false :=
  ⟨.archivist .t0, 0, 8, [0, 0, 0, 0, 0, 0, 0, 0], { on with tw0 := { svc := .inService, ctxs := [(0, { nodeRange := 2 ^ 63 })], cat := { nodes := [(0, { st := .waiting })] } }, ctxs := [(0, { st := .opened })] }, _, rfl, _, rfl, _, rfl, _, rfl, by decide⟩

theorem WindowWritesFillTheStores_7_1_witness : ∃ src : Requester, ∃ ctx : CtxId, ∃ off : BitVec 16, ∃ data : List Byte, ∃ a : Block, ∃ k, k = ctx.toNat ∧ ∃ t, t = twinOf ((ctxOf a k).edgeBank >>> 10) ∧ ∃ slot, slot = ((ctxOf a k).edgeBank % 1024) * 4096 + off.toNat / 4 % 4096 ∧ storesWf a = true ∧ winReady a src k (.edge off.toNat data) = true ∧ data.length = 4 ∧ 0x8000 ≤ off.toNat ∧ off.toNat + 4 ≤ 0xC000 ∧ off.toNat % 4 = 0 ∧ inFwdRange (ctxTw a t k).fwdRange slot = false ∧ (ctxOf a k).home = t ∧ bitOf (reg a blkKey 0x250) 5 = false ∧ hasEntry a t k = false ∧ entriesHeld a t < 64 ∧ (ctxTw a t k).fenced = false :=
  ⟨.archivist .t0, 0, 0x8000, [0, 0, 0, 0], { on with ctxs := [(0, { st := .opened })] }, _, rfl, _, rfl, _, rfl, by decide⟩

theorem WindowWritesFillTheStores_8_1_witness : ∃ src : Requester, ∃ ctx : CtxId, ∃ off : BitVec 16, ∃ data : List Byte, ∃ a : Block, ∃ k, k = ctx.toNat ∧ ∃ t, t = twinOf ((ctxOf a k).edgeBank >>> 10) ∧ ∃ slot, slot = ((ctxOf a k).edgeBank % 1024) * 4096 + off.toNat / 4 % 4096 ∧ storesWf a = true ∧ winReady a src k (.edge off.toNat data) = true ∧ data.length = 2 ∧ 0x8000 ≤ off.toNat ∧ off.toNat + 4 ≤ 0xC000 ∧ off.toNat % 4 = 0 ∧ inFwdRange (ctxTw a t k).fwdRange slot = true ∧ (ctxOf a k).home = t ∧ bitOf (reg a blkKey 0x250) 5 = false ∧ hasEntry a t k = false ∧ entriesHeld a t < 64 ∧ (ctxTw a t k).fenced = false :=
  ⟨.archivist .t0, 0, 0x8000, [0, 0], { on with tw0 := { svc := .inService, ctxs := [(0, { fwdRange := 2 ^ 63 })] }, ctxs := [(0, { st := .opened })] }, _, rfl, _, rfl, _, rfl, by decide⟩

/-! MirrorItemsBuildTheMirror -/

theorem MirrorItemsBuildTheMirror_1_1_witness : ∃ t : TwinId, ∃ f : Nat, ∃ g : Nat, ∃ k : Nat, ∃ kd : Nat, ∃ lev : Nat, ∃ lard : Nat, ∃ d : Nat, ∃ cap : Nat, ∃ lc : Bool, ∃ rest : List EdgeItem, ∃ a : Block, (storesWf a = true ∧ live a t = true) ∧ (tw a t).edgeIn = .mirrorReq f g k kd lc lev lard d cap :: rest ∧ unfenced a t k = true ∧ serves a (partner t) = true ∧ homeOf g = t ∧ nodeOf a g = {} ∧ 0 < d :=
  ⟨.t0, _, _, _, _, _, _, _, _, _, _, { on with tw0 := { svc := .inService, edgeIn := [.mirrorReq 7 6 0 0 false 0 0 1 1] } }, by decide, rfl, by decide⟩

theorem MirrorItemsBuildTheMirror_2_1_witness : ∃ t : TwinId, ∃ f : Nat, ∃ sN : Nat, ∃ g : Nat, ∃ k : Nat, ∃ word : Nat, ∃ rest : List EdgeItem, ∃ a : Block, (storesWf a = true ∧ live a t = true) ∧ (tw a t).edgeIn = .append f sN g k word :: rest ∧ unfenced a t k = true ∧ homeOf g = t ∧ (nodeOf a g).st = .loading ∧ (nodeOf a g).ctx = k ∧ (nodeOf a g).mRes = true ∧ (nodeOf a g).mLen < (nodeOf a g).mCap :=
  ⟨.t0, _, _, _, _, _, _, { on with tw0 := { svc := .inService, edgeIn := [.append 7 8 6 0 0], cat := { nodes := [(6, { st := .loading, mRes := true, mCap := 1 })] } } }, by decide, rfl, by decide⟩

theorem MirrorItemsBuildTheMirror_3_1_witness : ∃ t : TwinId, ∃ f : Nat, ∃ rest : List EdgeItem, ∃ a : Block, (storesWf a = true ∧ live a t = true) ∧ (tw a t).edgeIn = .mirrorAck f :: rest ∧ homeOf f = t :=
  ⟨.t0, _, _, { on with tw0 := { svc := .inService, edgeIn := [.mirrorAck 7] } }, by decide, rfl, by decide⟩

theorem MirrorItemsBuildTheMirror_4_1_witness : ∃ t : TwinId, ∃ k : Nat, ∃ rest : List EdgeItem, ∃ a : Block, (storesWf a = true ∧ live a t = true) ∧ (tw a t).edgeIn = .closeMarker k :: rest ∧ unfenced a t k = true :=
  ⟨.t0, _, _, { on with tw0 := { svc := .inService, edgeIn := [.closeMarker 0] } }, by decide, rfl, by decide⟩

theorem MirrorItemsBuildTheMirror_5_1_witness : ∃ t : TwinId, ∃ f : Nat, ∃ i : Nat, ∃ tg : Nat, ∃ rest : List EdgeItem, ∃ a : Block, live a t = true ∧ (tw a t).edgeIn = .targetRead f i tg :: rest ∧ serves a (partner t) = true :=
  ⟨.t0, _, _, _, _, { on with tw0 := { svc := .inService, edgeIn := [.targetRead 7 0 5] } }, by decide, rfl, by decide⟩

theorem MirrorItemsBuildTheMirror_6_1_witness : ∃ t : TwinId, ∃ f : Nat, ∃ i : Nat, ∃ m : Nat, ∃ en : Bool, ∃ w : MirWork, ∃ rest : List EdgeItem, ∃ a : Block, live a t = true ∧ (tw a t).edgeIn = .targetAns f i en m :: rest ∧ (tw a t).acc.work.find? (fun w => w.f == f) = some w ∧ (¬ (w.edges.zipIdx.map fun p => if p.2 = i then (p.1.1, some (en, m)) else p.1).all (fun p => p.2.isSome) = true) :=
  ⟨.t0, _, _, _, _, _, _, { on with tw0 := { svc := .inService, edgeIn := [.targetAns 7 0 true 5], acc := { work := [{ f := 7, edges := [(1, none), (2, none)] }] } } }, by decide, rfl, rfl, by decide⟩

/-! ShelfListItemsAct -/

theorem ShelfListItemsAct_1_1_witness : ∃ t : TwinId, ∃ x : Nat, ∃ base : Nat, ∃ dest : Nat, ∃ lev : Nat, ∃ lc : Bool, ∃ ld : Bool, ∃ rest : List EdgeItem, ∃ a : Block, live a t = true ∧ (tw a t).edgeIn = .moveReq x base dest lc lev ld :: rest ∧ serves a (partner t) = true ∧ ownerOf x = t ∧ (shardOf a x).st ≠ .moving ∧ entryCode (shardOf a x) ≠ base :=
  ⟨.t0, _, _, _, _, _, _, _, { on with tw0 := { svc := .inService, edgeIn := [.moveReq 3 1 128 false 0 false] } }, by decide, rfl, by decide⟩

theorem ShelfListItemsAct_2_1_witness : ∃ t : TwinId, ∃ x : Nat, ∃ base : Nat, ∃ dest : Nat, ∃ lev : Nat, ∃ i : Nat, ∃ y : Nat, ∃ lc : Bool, ∃ ld : Bool, ∃ rest : List EdgeItem, ∃ a : Block, (storesWf a = true ∧ live a t = true) ∧ (tw a t).edgeIn = .moveReq x base dest lc lev ld :: rest ∧ (serves a (partner t) = true ∧ ownerOf x = t ∧ (shardOf a x).st = .home ∧ entryCode (shardOf a x) = base ∧ dest < 128) ∧ moveRoom a x = some (i, y) ∧ y < 524288 ∧ bookOn a t = false :=
  ⟨.t0, _, _, _, _, _, _, _, _, _, { on with tw0 := { svc := .inService, edgeIn := [.moveReq 3 0x80 1 false 0 false], shelf := { shards := [(3, { st := .home })] } }, pages := [(twKey .t0 shlfP, { regs := [(0x100, some (2 ^ 63))] })] }, by decide, rfl, by decide, rfl, by decide⟩

theorem ShelfListItemsAct_3_1_witness : ∃ t : TwinId, ∃ x : Nat, ∃ code : Nat, ∃ k : Nat, ∃ hi : Option Nat, ∃ rest : List EdgeItem, ∃ a : Block, (storesWf a = true ∧ live a t = true) ∧ (tw a t).edgeIn = .loc x code k hi :: rest ∧ code ≠ 0xA0 ∧ code ≠ 0xFF ∧ waitIdx a t x = none :=
  ⟨.t0, _, _, _, _, _, { on with tw0 := { svc := .inService, edgeIn := [.loc 3 1 0 none] } }, by decide, rfl, by decide⟩

theorem ShelfListItemsAct_4_1_witness : ∃ t : TwinId, ∃ x : Nat, ∃ k : Nat, ∃ hi : Option Nat, ∃ rest : List EdgeItem, ∃ a : Block, (storesWf a = true ∧ live a t = true) ∧ (tw a t).edgeIn = .loc x 0xA0 k hi :: rest ∧ serves a (partner t) = true :=
  ⟨.t0, _, _, _, _, { on with tw0 := { svc := .inService, edgeIn := [.loc 3 0xA0 0 none] } }, by decide, rfl, by decide⟩

theorem ShelfListItemsAct_5_1_witness : ∃ t : TwinId, ∃ x : Nat, ∃ m : Move, ∃ rest : List EdgeItem, ∃ a : Block, live a t = true ∧ (tw a t).edgeIn = .locAck x :: rest ∧ ownerOf x = t ∧ (tw a t).shelf.moves = [m] ∧ m.want.shard = x ∧ m.descAck = false :=
  ⟨.t0, _, { want := { shard := 3 } }, _, { on with tw0 := { svc := .inService, edgeIn := [.locAck 3], shelf := { moves := [{ want := { shard := 3 } }] } } }, by decide, rfl, by decide⟩

theorem ShelfListItemsAct_6_1_witness : ∃ t : TwinId, ∃ x : Nat, ∃ rest : List EdgeItem, ∃ a : Block, (storesWf a = true ∧ live a t = true) ∧ (tw a t).edgeIn = .writerInc x :: rest ∧ ownerOf x = t ∧ movable (shardOf a x) = true :=
  ⟨.t0, _, _, { on with tw0 := { svc := .inService, edgeIn := [.writerInc 3], shelf := { shards := [(3, { st := .home })] } } }, by decide, rfl, by decide⟩

theorem ShelfListItemsAct_7_1_witness : ∃ t : TwinId, ∃ x : Nat, ∃ rest : List EdgeItem, ∃ a : Block, (storesWf a = true ∧ live a t = true) ∧ (tw a t).edgeIn = .writerDec x :: rest ∧ ownerOf x = t ∧ movable (shardOf a x) = true ∧ 0 < (shardOf a x).writers ∧ (tw a t).shelf.moves.find? (fun m => m.want.shard == x) = none :=
  ⟨.t0, _, _, { on with tw0 := { svc := .inService, edgeIn := [.writerDec 3], shelf := { shards := [(3, { st := .home, writers := 1 })] } } }, by decide, rfl, by decide⟩

theorem ShelfListItemsAct_8_1_witness : ∃ t : TwinId, ∃ g : Nat, ∃ rest : List EdgeItem, ∃ a : Block, (storesWf a = true ∧ live a t = true) ∧ (tw a t).edgeIn = .service g true :: rest ∧ (tw a t).ctxs.filter (fun p => !p.2.unplace.isEmpty) = [] :=
  ⟨.t0, _, _, { on with tw0 := { svc := .inService, edgeIn := [.service 2 true] } }, by decide, rfl, by decide⟩

theorem ShelfListItemsAct_9_1_witness : ∃ t : TwinId, ∃ g : Nat, ∃ key : Nat, ∃ l : Lane, ∃ rest : List EdgeItem, ∃ a : Block, (storesWf a = true ∧ live a t = true) ∧ (tw a t).edgeIn = .service g false :: rest ∧ (tw a t).rack.lanes = [(key, l)] ∧ key / 64 = g ∧ l.copies = [] ∧ (∀ x ∈ l.slots, (nodeOf a (nodeIdOf t x)).wcount = false) ∧ (∀ p ∈ (tw a t).shelf.shards, p.2.st = .cluster → p.2.cluster ≠ g) :=
  ⟨.t0, 0, 0, { slots := [5] }, _, { on with tw0 := { svc := .inService, edgeIn := [.service 0 false], rack := { lanes := [(0, { slots := [5] })] } } }, by decide, rfl, by decide⟩

theorem ShelfListItemsAct_10_1_witness : ∃ sh : BitVec 18, ∃ m : Move, ∃ a : Block, ∃ x, x = sh.toNat ∧ ∃ t, t = ownerOf x ∧ live a t = true ∧ (tw a t).shelf.moves = [m] ∧ m.want.shard = x ∧ m.descAck = false ∧ m.locAck = false :=
  ⟨3, { want := { shard := 3 } }, { on with tw0 := { svc := .inService, shelf := { moves := [{ want := { shard := 3 } }] } } }, _, rfl, _, rfl, by decide⟩

/-! ShardCommandsAndEngineControl -/

theorem ShardCommandsAndEngineControl_1_1_witness : ∃ src : Requester, ∃ ctx : CtxId, ∃ cluster : BitVec 7, ∃ toCluster : Bool, ∃ pin : Bool, ∃ a : Block, ∃ k, k = ctx.toNat ∧ ∃ x, x = shardSel a k ∧ ∃ t, t = ownerOf x ∧ (storesWf a = true ∧ served a src (ctxKey k) = true ∧ cmdServed a t k = true ∧ allocStatus a k x cluster.toNat toCluster ≠ 0) ∧ ∃ sz, sz = fld (reg a (ctxKey k) 0x248) 15 0 ∧ ∃ off, off = fld (reg a (ctxKey k) 0x250) 9 0 ∧ ∃ spad, spad = bitOf (reg a (ctxKey k) 0x250) 16 :=
  ⟨.archivist .t0, 0, 0, false, false, on, _, rfl, _, rfl, _, rfl, by decide, _, rfl, _, rfl, _, rfl⟩

theorem ShardCommandsAndEngineControl_2_1_witness : ∃ src : Requester, ∃ ctx : CtxId, ∃ cluster : BitVec 7, ∃ toCluster : Bool, ∃ pin : Bool, ∃ e : Shard, ∃ a : Block, ∃ k, k = ctx.toNat ∧ ∃ x, x = shardSel a k ∧ ∃ t, t = ownerOf x ∧ (storesWf a = true ∧ served a src (ctxKey k) = true ∧ cmdServed a t k = true ∧ serves a (partner t) = true ∧ allocStatus a k x cluster.toNat toCluster = 0) ∧ e = { st := if toCluster then .cluster else .home, pin := pin, ctx := k, cluster := if toCluster then cluster.toNat else 0, w1 := reg a (ctxKey k) 0x248 - fld (reg a (ctxKey k) 0x248) 18 16 * 2 ^ 16, w2 := fld (reg a (ctxKey k) 0x250) 16 0 } :=
  ⟨.archivist .t0, 0, 0, false, false, _, { on with tw0 := { svc := .inService, ctxs := [(0, { shardRange := 2 ^ 63 })] }, pages := [(ctxKey 0, { regs := [(0x230, some (0xFFFFFFFF * 2 ^ 32)), (0x248, some 1)] })] }, _, rfl, _, rfl, _, rfl, by decide, rfl⟩

theorem ShardCommandsAndEngineControl_3_1_witness : ∃ src : Requester, ∃ ctx : CtxId, ∃ a : Block, ∃ k, k = ctx.toNat ∧ ∃ x, x = shardSel a k ∧ ∃ t, t = ownerOf x ∧ storesWf a = true ∧ served a src (ctxKey k) = true ∧ cmdServed a t k = true ∧ serves a (partner t) = true ∧ inShardRange a k x = true ∧ ownedBy a k x = true ∧ (shardOf a x).writers = 0 ∧ movable (shardOf a x) = true :=
  ⟨.archivist .t0, 0, { on with tw0 := { svc := .inService, ctxs := [(0, { shardRange := 2 ^ 63 })], shelf := { shards := [(0, { st := .home })] } } }, _, rfl, _, rfl, _, rfl, by decide⟩

theorem ShardCommandsAndEngineControl_4_1_witness : ∃ src : Requester, ∃ ctx : CtxId, ∃ a : Block, ∃ k, k = ctx.toNat ∧ ∃ x, x = shardSel a k ∧ ∃ t, t = ownerOf x ∧ storesWf a = true ∧ served a src (ctxKey k) = true ∧ serves a t = true ∧ inShardRange a k x = true :=
  ⟨.archivist .t0, 0, { on with tw0 := { svc := .inService, ctxs := [(0, { shardRange := 2 ^ 63 })] } }, _, rfl, _, rfl, _, rfl, by decide⟩

theorem ShardCommandsAndEngineControl_5_1_witness : ∃ src : Requester, ∃ ctx : CtxId, ∃ cluster : BitVec 7, ∃ toCluster : Bool, ∃ a : Block, ∃ k, k = ctx.toNat ∧ ∃ x, x = shardSel a k ∧ ∃ t, t = ownerOf x ∧ storesWf a = true ∧ served a src (ctxKey k) = true ∧ cmdServed a t k = true ∧ inShardRange a k x = true ∧ ownedBy a k x = true ∧ (toCluster && (!(bitOf (shardOf a x).w2 16) || !(inClusterMask a k cluster.toNat))) = false ∧ movable (shardOf a x) = true ∧ atDest (shardOf a x) (if toCluster then cluster.toNat else 128) = true :=
  ⟨.archivist .t0, 0, 0, false, { on with tw0 := { svc := .inService, ctxs := [(0, { shardRange := 2 ^ 63 })], shelf := { shards := [(0, { st := .home })] } } }, _, rfl, _, rfl, _, rfl, by decide⟩

theorem ShardCommandsAndEngineControl_6_1_witness : ∃ src : Requester, ∃ ctx : CtxId, ∃ cluster : BitVec 7, ∃ toCluster : Bool, ∃ dest : Nat, ∃ a : Block, ∃ k, k = ctx.toNat ∧ ∃ x, x = shardSel a k ∧ ∃ t, t = ownerOf x ∧ (storesWf a = true ∧ served a src (ctxKey k) = true ∧ cmdServed a t k = true ∧ inShardRange a k x = true ∧ ownedBy a k x = true ∧ (toCluster && (!(bitOf (shardOf a x).w2 16) || !(inClusterMask a k cluster.toNat))) = false ∧ movable (shardOf a x) = true) ∧ dest = (if toCluster then cluster.toNat else 128) ∧ atDest (shardOf a x) dest = false ∧ moveRoom a x = none :=
  ⟨.archivist .t0, 0, 0, false, _, { on with tw0 := { svc := .inService, ctxs := [(0, { shardRange := 2 ^ 63 })], shelf := { shards := [(0, { st := .cluster })] } } }, _, rfl, _, rfl, _, rfl, by decide, rfl, by decide⟩

theorem ShardCommandsAndEngineControl_7_1_witness : ∃ src : Requester, ∃ ctx : CtxId, ∃ cluster : BitVec 7, ∃ toCluster : Bool, ∃ dest : Nat, ∃ i : Nat, ∃ y : Nat, ∃ a : Block, ∃ k, k = ctx.toNat ∧ ∃ x, x = shardSel a k ∧ ∃ t, t = ownerOf x ∧ (storesWf a = true ∧ served a src (ctxKey k) = true ∧ cmdServed a t k = true ∧ inShardRange a k x = true ∧ ownedBy a k x = true ∧ (toCluster && (!(bitOf (shardOf a x).w2 16) || !(inClusterMask a k cluster.toNat))) = false ∧ movable (shardOf a x) = true) ∧ dest = (if toCluster then cluster.toNat else 128) ∧ atDest (shardOf a x) dest = false ∧ moveRoom a x = some (i, y) ∧ y < 524288 :=
  ⟨.archivist .t0, 0, 0, false, _, _, _, { on with tw0 := { svc := .inService, ctxs := [(0, { shardRange := 2 ^ 63 })], shelf := { shards := [(0, { st := .cluster })] } }, pages := [(twKey .t0 shlfP, { regs := [(0x100, some (2 ^ 63))] })] }, _, rfl, _, rfl, _, rfl, by decide, rfl, by decide, rfl, by decide⟩

theorem ShardCommandsAndEngineControl_8_1_witness : ∃ sh : BitVec 18, ∃ m : Move, ∃ c : Nat, ∃ a : Block, ∃ x, x = sh.toNat ∧ ∃ t, t = ownerOf x ∧ (storesWf a = true ∧ live a t = true ∧ (tw a t).shelf.moves = [m] ∧ m.want.shard = x ∧ m.descAck = false ∧ serves a (partner t) = true ∧ homeOf m.copy = t) ∧ (shardOf a x).ctx = c ∧ (ctxOf a c).st = .opened :=
  ⟨3, { want := { shard := 3 } }, _, { on with tw0 := { svc := .inService, shelf := { moves := [{ want := { shard := 3 } }] } }, ctxs := [(0, { st := .opened })] }, _, rfl, _, rfl, by decide, rfl, by decide⟩

theorem ShardCommandsAndEngineControl_9_1_witness : ∃ src : Requester, ∃ t : TwinId, ∃ eng : EngineId, ∃ g : Nat, ∃ i : Nat, ∃ a : Block, ∃ e, e = eng.toNat ∧ (storesWf a = true ∧ served a src (twKey t shlfP) = true) ∧ groupOf e = some g ∧ primary a g = t ∧ removalBusy a t = false ∧ (engOf a e).inService = true ∧ (engOf a e).tasks = [] ∧ i < (groupEngines g).2 ∧ (groupEngines g).1 + i ≠ e ∧ (engOf a ((groupEngines g).1 + i)).inService = true :=
  ⟨.archivist .t0, .t0, 0, _, 1, { on with engines := [(0, { inService := true }), (1, { inService := true })] }, _, rfl, by decide, rfl, by decide⟩

theorem ShardCommandsAndEngineControl_10_1_witness : ∃ src : Requester, ∃ t : TwinId, ∃ eng : EngineId, ∃ g : Nat, ∃ a : Block, ∃ e, e = eng.toNat ∧ (storesWf a = true ∧ served a src (twKey t shlfP) = true ∧ serves a (partner t) = true) ∧ groupOf e = some g ∧ primary a g = t ∧ removalBusy a t = false ∧ (engOf a e).inService = false ∧ groupServed a g = false ∧ (tw a t).ctxs.filter (fun p => !p.2.unplace.isEmpty) = [] :=
  ⟨.archivist .t0, .t0, 0, _, on, _, rfl, by decide, rfl, by decide⟩

theorem ShardCommandsAndEngineControl_11_1_witness : ∃ src : Requester, ∃ t : TwinId, ∃ whole : Bool, ∃ eng : EngineId, ∃ c : Instr, ∃ a : Block, (c = .engineRemove src t whole eng ∨ c = .engineRestore src t whole eng) ∧ (storesWf a = true ∧ served a src (twKey t shlfP) = true) ∧ (groupOf eng.toNat = none ∨ primary a ((groupOf eng.toNat).getD 0) ≠ t ∨ removalBusy a t = true) :=
  ⟨.archivist .t0, .t0, false, 0, .engineRestore (.archivist .t0) .t0 false 0, { on with tw1 := { svc := .inService, edgeIn := [.service 4 false] } }, .inr rfl, by decide, .inr (.inr (by decide))⟩

/-! FlushesAndDrainsRun -/

theorem FlushesAndDrainsRun_1_1_witness : ∃ t : TwinId, ∃ c : Nat, ∃ tag : Nat, ∃ rest : List EdgeItem, ∃ a : Block, (storesWf a = true ∧ live a t = true) ∧ (tw a t).edgeIn = .flushReq (some c) tag :: rest ∧ primary a c = t ∧ (flushOf a c).dirty = true ∧ bitOf (reg a (twKey t retP) 0x100) 63 = true ∧ (flushOf a c).out = false :=
  ⟨.t0, _, _, _, { on with tw0 := { svc := .inService, edgeIn := [.flushReq (some 2) 5] }, flushes := [(2, { dirty := true })], pages := [(twKey .t0 retP, { regs := [(0x100, some (2 ^ 63))] })] }, by decide, rfl, by decide⟩

theorem FlushesAndDrainsRun_2_1_witness : ∃ t : TwinId, ∃ c : Nat, ∃ tag : Nat, ∃ rest : List EdgeItem, ∃ a : Block, (storesWf a = true ∧ live a t = true) ∧ (tw a t).edgeIn = .flushReq (some c) tag :: rest ∧ primary a c = t ∧ (flushOf a c).dirty = true ∧ bitOf (reg a (twKey t retP) 0x100) 63 = true ∧ (flushOf a c).out = true :=
  ⟨.t0, _, _, _, { on with tw0 := { svc := .inService, edgeIn := [.flushReq (some 2) 5] }, flushes := [(2, { dirty := true, out := true })], pages := [(twKey .t0 retP, { regs := [(0x100, some (2 ^ 63))] })] }, by decide, rfl, by decide⟩

theorem FlushesAndDrainsRun_3_1_witness : ∃ t : TwinId, ∃ c : Nat, ∃ tag : Nat, ∃ rest : List EdgeItem, ∃ a : Block, live a t = true ∧ (tw a t).edgeIn = .flushReq (some c) tag :: rest ∧ primary a c = t ∧ (flushOf a c).dirty = false :=
  ⟨.t0, _, _, _, { on with tw0 := { svc := .inService, edgeIn := [.flushReq (some 2) 5] } }, by decide, rfl, by decide⟩

theorem FlushesAndDrainsRun_4_1_witness : ∃ t : TwinId, ∃ c : Nat, ∃ tag : Nat, ∃ rest : List EdgeItem, ∃ a : Block, (storesWf a = true ∧ live a t = true) ∧ (tw a t).edgeIn = .flushReq (some c) tag :: rest ∧ primary a c = t ∧ (flushOf a c).dirty = true ∧ bitOf (reg a (twKey t retP) 0x100) 63 = false :=
  ⟨.t0, _, _, _, { on with tw0 := { svc := .inService, edgeIn := [.flushReq (some 2) 5] }, flushes := [(2, { dirty := true })] }, by decide, rfl, by decide⟩

theorem FlushesAndDrainsRun_5_1_witness : ∃ t : TwinId, ∃ tag : Nat, ∃ late : Bool, ∃ what : Option Nat, ∃ w : Waiter, ∃ rest : List EdgeItem, ∃ a : Block, live a t = true ∧ (tw a t).edgeIn = .flushDone tag late :: rest ∧ (tw a t).ret.reqs.find? (fun p => p.1 == tag) = some (tag, what, w) :=
  ⟨.t0, _, _, _, _, _, { on with tw0 := { svc := .inService, edgeIn := [.flushDone 5 false], ret := { reqs := [(5, none, .fence .t0 1)] } } }, by decide, rfl, rfl⟩

theorem FlushesAndDrainsRun_6_1_witness : ∃ cl : BitVec 7, ∃ v : Word64, ∃ a : Block, ∃ c, c = cl.toNat ∧ ∃ t, t = primary a c ∧ storesWf a = true ∧ live a t = true ∧ (flushOf a c).out = true ∧ (flushOf a c).retry = false ∧ v.toNat % 256 = (flushOf a c).tag ∧ (flushOf a c).next = [] :=
  ⟨2, 0, { on with flushes := [(2, { out := true })] }, _, rfl, _, rfl, by decide⟩

theorem FlushesAndDrainsRun_7_1_witness : ∃ cl : BitVec 7, ∃ v : Word64, ∃ a : Block, ∃ c, c = cl.toNat ∧ ∃ t, t = primary a c ∧ storesWf a = true ∧ live a t = true ∧ (flushOf a c).out = true ∧ (flushOf a c).retry = false ∧ v.toNat % 256 ≠ (flushOf a c).tag :=
  ⟨2, 1, { on with flushes := [(2, { out := true })] }, _, rfl, _, rfl, by decide⟩

theorem FlushesAndDrainsRun_8_1_witness : ∃ cl : BitVec 7, ∃ a : Block, ∃ c, c = cl.toNat ∧ ∃ t, t = primary a c ∧ storesWf a = true ∧ live a t = true ∧ (flushOf a c).out = true ∧ (flushOf a c).retry = false :=
  ⟨2, { on with flushes := [(2, { out := true })] }, _, rfl, _, rfl, by decide⟩

theorem FlushesAndDrainsRun_9_1_witness : ∃ cl : BitVec 7, ∃ a : Block, ∃ c, c = cl.toNat ∧ ∃ t, t = primary a c ∧ storesWf a = true ∧ live a t = true ∧ (flushOf a c).retry = true :=
  ⟨2, { on with flushes := [(2, { retry := true })] }, _, rfl, _, rfl, by decide⟩

theorem FlushesAndDrainsRun_10_1_witness : ∃ t : TwinId, ∃ a : Block, live a t = true ∧ (tw a t).ret.drain.retryHost = true ∧ (tw a t).ret.drain.retryLink = true :=
  ⟨.t0, { on with tw0 := { svc := .inService, ret := { drain := { retryHost := true, retryLink := true } } } }, by decide⟩

theorem FlushesAndDrainsRun_11_1_witness : ∃ t : TwinId, ∃ a : Block, live a t = true ∧ (tw a t).ret.drain.host = true ∧ (tw a t).ret.drain.retryHost = false ∧ (tw a t).ret.drain.link = true :=
  ⟨.t0, { on with tw0 := { svc := .inService, ret := { drain := { host := true, link := true } } } }, by decide⟩

theorem FlushesAndDrainsRun_12_1_witness : ∃ t : TwinId, ∃ a : Block, live a t = true ∧ (tw a t).ret.drain.out = true ∧ (tw a t).ret.drain.link = true ∧ (tw a t).ret.drain.retryLink = false ∧ (tw a t).ret.drain.host = false ∧ (tw a t).ret.drain.next = [] :=
  ⟨.t0, { on with tw0 := { svc := .inService, ret := { drain := { out := true, link := true } } } }, by decide⟩

theorem FlushesAndDrainsRun_13_1_witness : ∃ t : TwinId, ∃ a : Block, live a t = true ∧ (tw a t).ret.drain.host = true ∧ (tw a t).ret.drain.retryHost = false :=
  ⟨.t0, { on with tw0 := { svc := .inService, ret := { drain := { host := true } } } }, by decide⟩

theorem FlushesAndDrainsRun_14_1_witness : ∃ cl : BitVec 7, ∃ a : Block, ∃ c, c = cl.toNat ∧ ∃ t, t = primary a c ∧ storesWf a = true ∧ live a t = true ∧ (flushOf a c).out = true ∧ (flushOf a c).next = [] :=
  ⟨2, { on with flushes := [(2, { out := true })] }, _, rfl, _, rfl, by decide⟩

theorem FlushesAndDrainsRun_15_1_witness : ∃ t : TwinId, ∃ a : Block, storesWf a = true ∧ live a t = true ∧ (tw a t).ret.drain.out = true ∧ (tw a t).ret.drain.next = [] :=
  ⟨.t0, { on with tw0 := { svc := .inService, ret := { drain := { out := true } } } }, by decide⟩

/-! LarderItemsAct -/

theorem LarderItemsAct_1_1_witness : ∃ t : TwinId, ∃ o : Offer, ∃ rest : List EdgeItem, ∃ a : Block, (storesWf a = true ∧ live a t = true) ∧ (tw a t).edgeIn = .offer o :: rest ∧ serves a (partner t) = true ∧ unfenced a t o.ctx = true ∧ mapGet [] (tw a t).lard.offers o.ctx = [] ∧ homeOf o.g = t ∧ homeOf o.f = partner t ∧ o.stash = 0 :=
  ⟨.t0, { f := 0x80001, g := 6 }, _, { on with tw0 := { svc := .inService, edgeIn := [.offer { f := 0x80001, g := 6 }] } }, by decide, rfl, by decide⟩

theorem LarderItemsAct_2_1_witness : ∃ t : TwinId, ∃ o : Offer, ∃ rest : List EdgeItem, ∃ a : Block, (storesWf a = true ∧ live a t = true) ∧ (tw a t).edgeIn = .offer o :: rest ∧ serves a (partner t) = true ∧ unfenced a t o.ctx = true ∧ mapGet [] (tw a t).lard.offers o.ctx = [] ∧ homeOf o.g = t ∧ homeOf o.f = partner t ∧ 0 < o.stash ∧ stashShard a t o (readG a o.g false) = false ∧ o.rebake = false ∧ (policyOf a o.ctx o.cls = 0 ∨ keptOf a o.ctx o.cls + o.stash ≤ budgetOf a o.ctx o.cls) :=
  ⟨.t0, { f := 0x80001, g := 6, stash := 1 }, _, { on with tw0 := { svc := .inService, edgeIn := [.offer { f := 0x80001, g := 6, stash := 1 }] } }, by decide, rfl, by decide⟩

theorem LarderItemsAct_3_1_witness : ∃ t : TwinId, ∃ o : Offer, ∃ rest : List EdgeItem, ∃ a : Block, (storesWf a = true ∧ live a t = true) ∧ (tw a t).edgeIn = .offer o :: rest ∧ serves a (partner t) = true ∧ unfenced a t o.ctx = true ∧ mapGet [] (tw a t).lard.offers o.ctx = [] ∧ homeOf o.g = partner t :=
  ⟨.t0, { f := 0x80001, g := 0x80006 }, _, { on with tw0 := { svc := .inService, edgeIn := [.offer { f := 0x80001, g := 0x80006 }] } }, by decide, rfl, by decide⟩

theorem LarderItemsAct_4_1_witness : ∃ t : TwinId, ∃ o : Offer, ∃ p : Offer × Bool, ∃ q : List (Offer × Bool), ∃ rest : List EdgeItem, ∃ a : Block, (storesWf a = true ∧ live a t = true) ∧ (tw a t).edgeIn = .offer o :: rest ∧ unfenced a t o.ctx = true ∧ mapGet [] (tw a t).lard.offers o.ctx = p :: q :=
  ⟨.t0, {}, _, _, _, { on with tw0 := { svc := .inService, edgeIn := [.offer {}], lard := { offers := [(0, [({}, false)])] } } }, by decide, rfl, by decide, rfl⟩

theorem LarderItemsAct_5_1_witness : ∃ t : TwinId, ∃ o : Offer, ∃ rest : List EdgeItem, ∃ a : Block, (storesWf a = true ∧ live a t = true) ∧ (tw a t).edgeIn = .offer o :: rest ∧ serves a (partner t) = true ∧ unfenced a t o.ctx = true ∧ mapGet [] (tw a t).lard.offers o.ctx = [] ∧ homeOf o.g = t ∧ homeOf o.f = partner t ∧ 0 < o.stash ∧ stashShard a t o (readG a o.g false) = false ∧ o.rebake = false ∧ policyOf a o.ctx o.cls = 1 ∧ budgetOf a o.ctx o.cls < keptOf a o.ctx o.cls + o.stash ∧ (ctxOf a o.ctx).st = .opened :=
  ⟨.t0, { f := 0x80001, g := 6, stash := 1 }, _, { on with tw0 := { svc := .inService, edgeIn := [.offer { f := 0x80001, g := 6, stash := 1 }] }, ctxs := [(0, { st := .opened })], pages := [(ctxKey 0, { regs := [(0x268, some (2 ^ 62))] })] }, by decide, rfl, by decide⟩

theorem LarderItemsAct_6_1_witness : ∃ t : TwinId, ∃ f : Nat, ∃ cs : List Nat, ∃ d : Deferred, ∃ rest : List EdgeItem, ∃ a : Block, live a t = true ∧ (tw a t).edgeIn = .answer f true cs :: rest ∧ (tw a t).ret.deferred = [d] ∧ d.offered = true ∧ d.node = f ∧ d.stage ≠ .ready ∧ (nodeOf a f).kind ≠ kRebake ∧ handBusy a t = false :=
  ⟨.t0, _, _, { offered := true, node := 5, stage := .flush }, _, { on with tw0 := { svc := .inService, edgeIn := [.answer 5 true []], ret := { deferred := [{ offered := true, node := 5, stage := .flush }] } } }, by decide, rfl, by decide⟩

theorem LarderItemsAct_7_1_witness : ∃ t : TwinId, ∃ f : Nat, ∃ send : Bool, ∃ cs : List Nat, ∃ rest : List EdgeItem, ∃ a : Block, live a t = true ∧ (tw a t).edgeIn = .answer f send cs :: rest ∧ handBusy a t = true :=
  ⟨.t0, _, true, _, _, { on with tw0 := { svc := .inService, edgeIn := [.answer 5 true []], ret := { waiting := [.skip 7] } } }, by decide, rfl, by decide⟩

theorem LarderItemsAct_8_1_witness : ∃ t : TwinId, ∃ g : Nat, ∃ k : Nat, ∃ list : Bool, ∃ rest : List EdgeItem, ∃ a : Block, live a t = true ∧ (tw a t).edgeIn = .gRead g k list :: rest ∧ serves a (partner t) = true ∧ unfenced a t k = true ∧ homeOf g = t :=
  ⟨.t0, _, _, _, _, { on with tw0 := { svc := .inService, edgeIn := [.gRead 6 0 false] } }, by decide, rfl, by decide⟩

theorem LarderItemsAct_9_1_witness : ∃ t : TwinId, ∃ k : Nat, ∃ g : GInfo, ∃ o : Offer, ∃ rest : List EdgeItem, ∃ a : Block, (storesWf a = true ∧ live a t = true) ∧ (tw a t).edgeIn = .gData k g :: rest ∧ serves a (partner t) = true ∧ unfenced a t k = true ∧ mapGet [] (tw a t).lard.offers k = [(o, false)] ∧ o.g = g.g ∧ g.targets = none ∧ o.stash = 0 ∧ homeOf o.f = partner t :=
  ⟨.t0, _, { g := 6 }, { f := 0x80001, g := 6 }, _, { on with tw0 := { svc := .inService, edgeIn := [.gData 0 { g := 6 }], lard := { offers := [(0, [({ f := 0x80001, g := 6 }, false)])] } } }, by decide, rfl, by decide⟩

theorem LarderItemsAct_10_1_witness : ∃ t : TwinId, ∃ g : Nat, ∃ stash : Nat, ∃ sp : Bool, ∃ pend : Bool, ∃ rest : List EdgeItem, ∃ a : Block, (storesWf a = true ∧ live a t = true) ∧ (tw a t).edgeIn = .gMark g stash sp pend :: rest ∧ homeOf g = t ∧ (nodeOf a g).st ≠ .free ∧ (nodeOf a g).backward = true ∧ (¬ (pend = true ∧ (nodeOf a g).cf = 1 ∧ (nodeOf a g).mode = 0)) :=
  ⟨.t0, _, _, _, _, _, { on with tw0 := { svc := .inService, edgeIn := [.gMark 6 1 true false], cat := { nodes := [(6, { st := .waiting, backward := true })] } } }, by decide, rfl, by decide⟩

theorem LarderItemsAct_11_1_witness : ∃ t : TwinId, ∃ g : Nat, ∃ k : Nat, ∃ i : Nat, ∃ e : Rebake, ∃ rest : List EdgeItem, ∃ a : Block, (storesWf a = true ∧ live a t = true) ∧ (tw a t).edgeIn = .trigger g k :: rest ∧ unfenced a t k = true ∧ entryOfG a t k g = some (i, e) ∧ e = mapGet {} (tw a t).lard.table i ∧ e.st = .dormant ∧ e.inputs = [] :=
  ⟨.t0, _, _, _, { valid := true, g := 6 }, _, { on with tw0 := { svc := .inService, edgeIn := [.trigger 6 0], lard := { table := [(0, { valid := true, g := 6 })] } } }, by decide, rfl, by decide, rfl, by decide⟩

theorem LarderItemsAct_12_1_witness : ∃ t : TwinId, ∃ g : Nat, ∃ k : Nat, ∃ stash : Nat, ∃ cls : Nat, ∃ sp : Bool, ∃ rest : List EdgeItem, ∃ a : Block, (storesWf a = true ∧ live a t = true) ∧ (tw a t).edgeIn = .release g k stash sp cls :: rest ∧ unfenced a t k = true ∧ 0 < stash ∧ homeOf g = t :=
  ⟨.t0, _, _, _, _, _, _, { on with tw0 := { svc := .inService, edgeIn := [.release 6 0 1 false 0] } }, by decide, rfl, by decide⟩

/-! TheRecipeSweepMovesTheHistories -/

theorem TheRecipeSweepMovesTheHistories_1_1_witness : ∃ id : Nat, ∃ k : Nat, ∃ i : Nat, ∃ a : Block, storesWf a = true ∧ a.fmt.queue = [id] ∧ a.fmt.overflow = [] ∧ (nodeOf a id).ctx = k ∧ windowEntries a k = [i] ∧ liveEntries a (ctxOf a k).home k = 0 :=
  ⟨_, _, _, { on with fmt := { queue := [5] }, ctxs := [(0, { window := 2 ^ 63 + 2 ^ 32 + 9 })] }, by decide, rfl, by decide, rfl, rfl, by decide⟩

/-! BatchesRunThroughTheSorter -/

theorem BatchesRunThroughTheSorter_1_1_witness : ∃ t : TwinId, ∃ slot : BitVec 6, ∃ hdr : List Word64, ∃ h : List Nat, ∃ a : Block, ∃ x, x = slot.toNat ∧ (storesWf a = true ∧ live a t = true) ∧ h = hdr.map (fun w => w.toNat) ∧ (batchOf a t x).st = .opened ∧ (batchOf a t x).header = none ∧ headerBad { batchOf a t x with header := some h } = false ∧ 2 ≤ (nodeOf a (batchOf a t x).route).scope ∧ (batchOf a t x).flushed = false :=
  ⟨.t0, 0, [0xB100000020400100, 0, 0, 0, 1, 0, 0, 0], _, { on with tw0 := { svc := .inService, cat := { nodes := [(5, { scope := 2 })] }, sort := { slots := [(0, { st := .opened, route := 5 })] } } }, _, rfl, by decide, rfl, by decide⟩

theorem BatchesRunThroughTheSorter_2_1_witness : ∃ t : TwinId, ∃ slot : BitVec 6, ∃ hdr : List Word64, ∃ h : List Nat, ∃ q : Batch, ∃ a : Block, ∃ x, x = slot.toNat ∧ (storesWf a = true ∧ live a t = true) ∧ h = hdr.map (fun w => w.toNat) ∧ ((batchOf a t x).st = .opened ∧ (batchOf a t x).header = none ∧ headerBad { batchOf a t x with header := some h } = false ∧ 2 ≤ (nodeOf a (batchOf a t x).route).scope ∧ (batchOf a t x).flushed = true) ∧ q = { batchOf a t x with header := some h, st := .reading } :=
  ⟨.t0, 0, [0xB100000020400100, 0, 0, 0, 1, 0, 0, 0], _, _, { on with tw0 := { svc := .inService, cat := { nodes := [(5, { scope := 2 })] }, sort := { slots := [(0, { st := .opened, route := 5, flushed := true })] } } }, _, rfl, by decide, rfl, by decide, rfl⟩

theorem BatchesRunThroughTheSorter_3_1_witness : ∃ t : TwinId, ∃ slot : BitVec 6, ∃ hdr : List Word64, ∃ h : List Nat, ∃ c : Nat, ∃ a : Block, ∃ x, x = slot.toNat ∧ (storesWf a = true ∧ live a t = true ∧ serves a (partner t) = true) ∧ h = hdr.map (fun w => w.toNat) ∧ ((batchOf a t x).st = .opened ∧ (batchOf a t x).header = none ∧ headerBad { batchOf a t x with header := some h } = true ∧ (tw a t).sort.parked = []) ∧ c = (batchOf a t x).ctx ∧ (ctxOf a c).st = .opened :=
  ⟨.t0, 0, [0, 0, 0, 0, 0, 0, 0, 0], _, _, { on with tw0 := { svc := .inService, sort := { slots := [(0, { st := .opened })] } }, ctxs := [(0, { st := .opened })] }, _, rfl, by decide, rfl, by decide, rfl, by decide⟩

theorem BatchesRunThroughTheSorter_4_1_witness : ∃ t : TwinId, ∃ slot : BitVec 6, ∃ line : Nat, ∃ sc : List (BitVec 16), ∃ n : Nat, ∃ q : Batch, ∃ a : Block, ∃ x, x = slot.toNat ∧ (storesWf a = true ∧ live a t = true ∧ (batchOf a t x).st = .reading ∧ line < scoreLines (batchOf a t x) ∧ mapGet false (batchOf a t x).lines line = false) ∧ n = min 32 (hTokens (batchOf a t x) * hExperts (batchOf a t x) - line * 32) ∧ n ≤ sc.length ∧ q = { batchOf a t x with lines := mapSet false (batchOf a t x).lines line true, scores := ((sc.map (fun w => w.toNat)).take n).zipIdx.foldl (fun m p => mapSet 0 m (line * 32 + p.2) p.1) (batchOf a t x).scores } ∧ q.lines.length ≠ scoreLines (batchOf a t x) :=
  ⟨.t0, 0, 0, List.replicate 32 0, _, _, { on with tw0 := { svc := .inService, sort := { slots := [(0, { st := .reading, header := some [0xB100000000402100] })] } } }, _, rfl, by decide, rfl, by decide, rfl, by decide⟩

theorem BatchesRunThroughTheSorter_5_1_witness : ∃ t : TwinId, ∃ slot : BitVec 6, ∃ line : Nat, ∃ sc : List (BitVec 16), ∃ n : Nat, ∃ q : Batch, ∃ a : Block, ∃ x, x = slot.toNat ∧ (storesWf a = true ∧ live a t = true ∧ (batchOf a t x).st = .reading ∧ line < scoreLines (batchOf a t x) ∧ mapGet false (batchOf a t x).lines line = false) ∧ n = min 32 (hTokens (batchOf a t x) * hExperts (batchOf a t x) - line * 32) ∧ n ≤ sc.length ∧ q = { batchOf a t x with lines := mapSet false (batchOf a t x).lines line true, scores := ((sc.map (fun w => w.toNat)).take n).zipIdx.foldl (fun m p => mapSet 0 m (line * 32 + p.2) p.1) (batchOf a t x).scores } ∧ q.lines.length = scoreLines (batchOf a t x) :=
  ⟨.t0, 0, 0, [0], _, _, { on with tw0 := { svc := .inService, sort := { slots := [(0, { st := .reading, header := some [0xB100000000400100] })] } } }, _, rfl, by decide, rfl, by decide, rfl, by decide⟩

theorem BatchesRunThroughTheSorter_6_1_witness : ∃ t : TwinId, ∃ slot : BitVec 6, ∃ a : Block, ∃ x, x = slot.toNat ∧ storesWf a = true ∧ live a t = true ∧ (batchOf a t x).st = .writing ∧ 1 < (batchOf a t x).acks :=
  ⟨.t0, 0, { on with tw0 := { svc := .inService, sort := { slots := [(0, { st := .writing, acks := 2 })] } } }, _, rfl, by decide⟩

theorem BatchesRunThroughTheSorter_7_1_witness : ∃ t : TwinId, ∃ slot : BitVec 6, ∃ a : Block, ∃ x, x = slot.toNat ∧ storesWf a = true ∧ live a t = true ∧ (batchOf a t x).st = .writing ∧ (batchOf a t x).acks = 1 ∧ (batchOf a t x).edges = [] :=
  ⟨.t0, 0, { on with tw0 := { svc := .inService, sort := { slots := [(0, { st := .writing, acks := 1 })] } } }, _, rfl, by decide⟩

theorem BatchesRunThroughTheSorter_8_1_witness : ∃ t : TwinId, ∃ i : Nat, ∃ k : Nat, ∃ e : Nat, ∃ news : SlotNews, ∃ rest : List EdgeItem, ∃ a : Block, (storesWf a = true ∧ live a t = true) ∧ (tw a t).edgeIn = .batch i k news e :: rest :=
  ⟨.t0, _, _, _, _, _, { on with tw0 := { svc := .inService, edgeIn := [.batch 70 0 .opened 1] } }, by decide, rfl⟩

theorem BatchesRunThroughTheSorter_9_1_witness : ∃ t : TwinId, ∃ slot : BitVec 6, ∃ c : Nat, ∃ a : Block, ∃ x, x = slot.toNat ∧ (storesWf a = true ∧ live a t = true ∧ serves a (partner t) = true ∧ (batchOf a t x).st = .reading ∧ (tw a t).sort.parked = []) ∧ c = (batchOf a t x).ctx ∧ (ctxOf a c).st = .opened :=
  ⟨.t0, 0, _, { on with tw0 := { svc := .inService, sort := { slots := [(0, { st := .reading })] } }, ctxs := [(0, { st := .opened })] }, _, rfl, by decide, rfl, by decide⟩

/-! CancellationsBumpTheEpoch -/

theorem CancellationsBumpTheEpoch_1_1_witness : ∃ src : Requester, ∃ ctx : CtxId, ∃ a : Block, ∃ k, k = ctx.toNat ∧ storesWf a = true ∧ served a src (ctxKey k) = true ∧ (ctxOf a k).cancelBusy = false ∧ unfenced a (ctxOf a k).home k = true ∧ serves a (partner (ctxOf a k).home) = true :=
  ⟨.archivist .t0, 0, on, _, rfl, by decide⟩

theorem CancellationsBumpTheEpoch_2_1_witness : ∃ t : TwinId, ∃ x : Nat, ∃ k : Nat, ∃ e : Nat, ∃ q : Batch, ∃ rest : List EdgeItem, ∃ a : Block, (storesWf a = true ∧ live a t = true) ∧ (tw a t).edgeIn = .epochBump k e :: rest ∧ (serves a (partner t) = true ∧ (ctxOf a k).cancelBusy = true) ∧ (∀ i ∈ rest ++ (tw a (partner t)).edgeIn, ∀ c v, i ≠ .epochBump c v) ∧ ((∀ p ∈ (tw a (ctxOf a k).home).office.bowls, p.2.ctx ≠ k) ∧ (tw a (partner t)).sort.slots.filter (fun p => p.2.ctx == k && p.2.st != .free && p.2.st != .cancelled) = []) ∧ (tw a t).sort.slots.filter (fun p => p.2.ctx == k && p.2.st != .free && p.2.st != .cancelled) = [(x, q)] :=
  ⟨.t0, _, _, _, _, _, { on with tw0 := { svc := .inService, edgeIn := [.epochBump 0 1], sort := { slots := [(3, { st := .reading })] } }, ctxs := [(0, { cancelBusy := true })] }, by decide, rfl, by decide, fun _ h => (List.not_mem_nil h).elim, by decide, rfl⟩

theorem CancellationsBumpTheEpoch_3_1_witness : ∃ ctx : CtxId, ∃ x : Nat, ∃ q : Batch, ∃ a : Block, ∃ k, k = ctx.toNat ∧ (storesWf a = true ∧ (ctxOf a k).cancelBusy = true ∧ serves a .t1 = true ∧ (∀ p ∈ (tw a (ctxOf a k).home).office.bowls, p.2.ctx ≠ k)) ∧ (tw a .t0).sort.slots.filter (fun p => p.2.ctx == k && p.2.st != .free && p.2.st != .cancelled) = [(x, q)] ∧ (tw a .t1).sort.slots.filter (fun p => p.2.ctx == k && p.2.st != .free && p.2.st != .cancelled) = [] :=
  ⟨0, _, _, { on with tw0 := { svc := .inService, sort := { slots := [(3, { st := .reading })] } }, ctxs := [(0, { cancelBusy := true })] }, _, rfl, by decide, rfl, by decide⟩

/-! TallyCommandsAndPacketsAreTaken -/

theorem TallyCommandsAndPacketsAreTaken_1_1_witness : ∃ (src : Requester) (ctx : CtxId) (c : Instr) (op : Nat) (a : Block) (k sel : Nat) (t : TwinId), (c, op) ∈ ([(.tallyAlloc src ctx, 1), (.tallyFree src ctx, 2), (.tallyArm src ctx, 3), (.tallyDisarm src ctx, 4), (.tallyResume src ctx, 5), (.tallyReset src ctx, 6), (.tallyAdd src ctx, 7), (.tallyQuery src ctx, 8)] : List (Instr × Nat)) ∧ k = ctx.toNat ∧ sel = fld (reg a (ctxKey k) 0x2C0) 17 0 ∧ t = tallyTwin sel ∧ storesWf a = true ∧ served a src (ctxKey k) = true ∧ serves a t = true ∧ unfenced a t k = true ∧ (ctxOf a k).tallyBusy = false := ⟨.archivist .t0, 0, .tallyAlloc (.archivist .t0) 0, 1, on, _, _, _, by decide, rfl, rfl, rfl, by decide, by decide, by decide, by decide, by decide⟩

theorem TallyCommandsAndPacketsAreTaken_2_1_witness : ∃ (src : Requester) (ctx : CtxId) (c : Instr) (op : Nat) (a : Block) (k : Nat), (c, op) ∈ ([(.tallyAlloc src ctx, 1), (.tallyFree src ctx, 2), (.tallyArm src ctx, 3), (.tallyDisarm src ctx, 4), (.tallyResume src ctx, 5), (.tallyReset src ctx, 6), (.tallyAdd src ctx, 7), (.tallyQuery src ctx, 8)] : List (Instr × Nat)) ∧ k = ctx.toNat ∧ served a src (ctxKey k) = true ∧ (ctxOf a k).tallyBusy = true := ⟨.archivist .t0, 0, .tallyQuery (.archivist .t0) 0, 8, { on with ctxs := [(0, { tallyBusy := true })] }, _, by decide, rfl, by decide, by decide⟩

theorem TallyCommandsAndPacketsAreTaken_3_1_witness : ∃ packet : BitVec 128, ∃ a : Block, ∃ p, p = packet.toNat ∧ ∃ t, t = tallyTwin (pktTally p) ∧ fld p 127 124 = 0xA ∧ a.pair.latch ≠ some (partner t) ∧ dropReason a p = none ∧ (tw a t).bank.buf.length < 256 :=
  ⟨0xA0000000000000000000000000000000, { on with tw0 := { svc := .inService, bank := { ents := [(0, { st := .idle })] } } }, _, rfl, _, rfl, by decide⟩

theorem TallyCommandsAndPacketsAreTaken_4_1_witness : ∃ packet : BitVec 128, ∃ r : Nat, ∃ off : Nat, ∃ a : Block, ∃ p, p = packet.toNat ∧ ∃ t, t = tallyTwin (pktTally p) ∧ (storesWf a = true ∧ fld p 127 124 ≠ 0 ∧ (fld p 127 124 = 0xA → a.pair.latch ≠ some (partner t))) ∧ dropReason a p = some (r, off) ∧ (∀ u, (tw a u).bank.owed = 0) ∧ (∀ u, (tw a u).bank.buf.length < 256) :=
  ⟨0x90000000000000000000000000000000, _, _, on, _, rfl, _, rfl, by decide, rfl, fun u => by cases u <;> decide, fun u => by cases u <;> decide⟩

theorem TallyCommandsAndPacketsAreTaken_5_1_witness : ∃ packet : BitVec 128, ∃ a : Block, ∃ p, p = packet.toNat ∧ ∃ t, t = tallyTwin (pktTally p) ∧ ∃ v, v = partner t ∧ (storesWf a = true ∧ fld p 127 124 = 0xA ∧ a.pair.latch = some v) ∧ (∀ u, (tw a u).bank.owed = 0) ∧ (∀ u, (tw a u).bank.buf.length < 256) :=
  ⟨0xA0000000000000000000000000000000, { on with pair := { latch := some .t1 } }, _, rfl, _, rfl, _, rfl, by decide, fun u => by cases u <;> decide, fun u => by cases u <;> decide⟩

theorem TallyCommandsAndPacketsAreTaken_6_1_witness : ∃ packet : BitVec 128, ∃ r : Nat, ∃ off : Nat, ∃ a : Block, ∃ p, p = packet.toNat ∧ ∃ t, t = tallyTwin (pktTally p) ∧ (storesWf a = true ∧ fld p 127 124 ≠ 0 ∧ (fld p 127 124 = 0xA → a.pair.latch ≠ some (partner t))) ∧ dropReason a p = some (r, off) ∧ (∃ u, 256 ≤ (tw a u).bank.buf.length) :=
  ⟨0x90000000000000000000000000000000, _, _, { on with tw0 := { svc := .inService, bank := { buf := List.replicate 256 0 } } }, _, rfl, _, rfl, by decide, rfl, ⟨.t0, (List.length_replicate (n := 256) (a := (0 : Nat))).ge⟩⟩

/-! TheTallyTickActsOnEntries -/

theorem TheTallyTickActsOnEntries_1_1_witness : ∃ a : Block, a.phase ≠ 0 :=
  ⟨on, by decide⟩

theorem TheTallyTickActsOnEntries_2_1_witness : ∃ a : Block, a.phase ≠ 0 ∧ a.boot.gated = true ∧ a.proof.load = none ∧ a.proof.slew = 0 ∧ a.proof.events = [] ∧ a.ctxs = [] ∧ viewRests a = true ∧ bankRests (tw a .t0).bank = true ∧ bankRests (tw a .t1).bank = true :=
  ⟨{ on with boot := { gated := true } }, by decide⟩

theorem TheTallyTickActsOnEntries_3_1_witness : ∃ v : Nat, ∃ a : Block, a.phase ≠ 0 ∧ a.boot.gated = true ∧ a.proof.load = some v ∧ a.proof.events = [] ∧ viewRests a = true ∧ bankRests (tw a .t0).bank = true ∧ bankRests (tw a .t1).bank = true :=
  ⟨5, { on with boot := { gated := true }, proof := { load := some 5 } }, by decide⟩

theorem TheTallyTickActsOnEntries_4_1_witness : ∃ t : TwinId, ∃ c : TallyCmd, ∃ a : Block, storesWf a = true ∧ bankAlone a t = true ∧ (tw a t).bank.buf = [] ∧ (tw a t).bank.cmds = [c] ∧ c.op = 1 ∧ (tw a t).bank.ents = [] ∧ tallyTwin c.sel = t ∧ tallyStatus a c = 0 :=
  ⟨.t0, { op := 1, d1 := 1 }, { on with tw0 := { svc := .inService, bank := { cmds := [{ op := 1, d1 := 1 }] }, ctxs := [(0, { tallyRange := 2 ^ 63 })] } }, by decide⟩

theorem TheTallyTickActsOnEntries_5_1_witness : ∃ t : TwinId, ∃ c : TallyCmd, ∃ e : Tally, ∃ a : Block, (storesWf a = true ∧ bankAlone a t = true ∧ (tw a t).bank.buf = [] ∧ (tw a t).bank.cmds = [c] ∧ c.op = 3) ∧ ∃ i, i = c.sel % 131072 ∧ (tw a t).bank.ents = [(i, e)] ∧ tallyTwin c.sel = t ∧ tallyStatus a c = 0 ∧ dueEdge a t { e with st := .armed, cursor := 0, watchBase := fld c.d2 63 41, watchLen := fld c.d2 40 33 } = none :=
  ⟨.t0, { op := 3, d2 := 2 ^ 33 }, { st := .idle, step := 1 }, { on with tw0 := { svc := .inService, bank := { cmds := [{ op := 3, d2 := 2 ^ 33 }], ents := [(0, { st := .idle, step := 1 })] }, ctxs := [(0, { tallyRange := 2 ^ 63, fwdRange := 2 ^ 63, nodeRange := 2 ^ 63 })], cat := { fwd := [(0, 0xC0100000)] } } }, by decide, _, rfl, by decide⟩

theorem TheTallyTickActsOnEntries_6_1_witness : ∃ t : TwinId, ∃ c : TallyCmd, ∃ e : Tally, ∃ a : Block, (storesWf a = true ∧ bankAlone a t = true ∧ (tw a t).bank.buf = [] ∧ (tw a t).bank.cmds = [c] ∧ c.op = 7) ∧ ∃ i, i = c.sel % 131072 ∧ (tw a t).bank.ents = [(i, e)] ∧ tallyTwin c.sel = t ∧ tallyStatus a c = 0 ∧ e.st = .idle ∧ 0 < fld c.d0 47 0 ∧ e.count + fld c.d0 47 0 ≤ countMax :=
  ⟨.t0, { op := 7, d0 := 1 }, { st := .idle }, { on with tw0 := { svc := .inService, bank := { cmds := [{ op := 7, d0 := 1 }], ents := [(0, { st := .idle })] }, ctxs := [(0, { tallyRange := 2 ^ 63 })] } }, by decide, _, rfl, by decide⟩

theorem TheTallyTickActsOnEntries_7_1_witness : ∃ t : TwinId, ∃ c : TallyCmd, ∃ e : Tally, ∃ a : Block, (storesWf a = true ∧ bankAlone a t = true ∧ (tw a t).bank.buf = [] ∧ (tw a t).bank.cmds = [c] ∧ c.op = 7) ∧ ∃ i, i = c.sel % 131072 ∧ (tw a t).bank.ents = [(i, e)] ∧ tallyTwin c.sel = t ∧ tallyStatus a c = 0 ∧ e.st = .idle ∧ countMax < e.count + fld c.d0 47 0 :=
  ⟨.t0, { op := 7, d0 := 1 }, { st := .idle, count := countMax }, { on with tw0 := { svc := .inService, bank := { cmds := [{ op := 7, d0 := 1 }], ents := [(0, { st := .idle, count := countMax })] }, ctxs := [(0, { tallyRange := 2 ^ 63 })] } }, by decide, _, rfl, by decide⟩

theorem TheTallyTickActsOnEntries_8_1_witness : ∃ t : TwinId, ∃ c : TallyCmd, ∃ e : Tally, ∃ a : Block, (storesWf a = true ∧ bankAlone a t = true ∧ (tw a t).bank.buf = [] ∧ (tw a t).bank.cmds = [c] ∧ c.op = 2) ∧ ∃ i, i = c.sel % 131072 ∧ (tw a t).bank.ents = [(i, e)] ∧ tallyTwin c.sel = t ∧ tallyStatus a c = 0 ∧ 0 < e.watchLen :=
  ⟨.t0, { op := 2 }, { st := .idle, step := 1, watchLen := 1 }, { on with tw0 := { svc := .inService, bank := { cmds := [{ op := 2 }], ents := [(0, { st := .idle, step := 1, watchLen := 1 })] }, ctxs := [(0, { tallyRange := 2 ^ 63 })] } }, by decide, _, rfl, by decide⟩

theorem TheTallyTickActsOnEntries_9_1_witness : ∃ t : TwinId, ∃ c : TallyCmd, ∃ e : Tally, ∃ a : Block, (storesWf a = true ∧ bankAlone a t = true ∧ (tw a t).bank.buf = [] ∧ (tw a t).bank.cmds = [c] ∧ c.op = 4) ∧ ∃ i, i = c.sel % 131072 ∧ (tw a t).bank.ents = [(i, e)] ∧ tallyTwin c.sel = t ∧ tallyStatus a c = 0 :=
  ⟨.t0, { op := 4 }, { st := .armed, step := 1, watchLen := 1 }, { on with tw0 := { svc := .inService, bank := { cmds := [{ op := 4 }], ents := [(0, { st := .armed, step := 1, watchLen := 1 })] }, ctxs := [(0, { tallyRange := 2 ^ 63 })] } }, by decide, _, rfl, by decide⟩

theorem TheTallyTickActsOnEntries_10_1_witness : ∃ t : TwinId, ∃ c : TallyCmd, ∃ e : Tally, ∃ a : Block, (storesWf a = true ∧ bankAlone a t = true ∧ (tw a t).bank.buf = [] ∧ (tw a t).bank.cmds = [c] ∧ c.op = 5) ∧ ∃ i, i = c.sel % 131072 ∧ (tw a t).bank.ents = [(i, e)] ∧ tallyTwin c.sel = t ∧ tallyStatus a c = 0 ∧ dueEdge a t { e with st := .armed, cursor := 0 } = none :=
  ⟨.t0, { op := 5 }, { st := .wrapped, step := 1 }, { on with tw0 := { svc := .inService, bank := { cmds := [{ op := 5 }], ents := [(0, { st := .wrapped, step := 1 })] }, ctxs := [(0, { tallyRange := 2 ^ 63 })] } }, by decide, _, rfl, by decide⟩

theorem TheTallyTickActsOnEntries_11_1_witness : ∃ t : TwinId, ∃ c : TallyCmd, ∃ e : Tally, ∃ f : Tally, ∃ a : Block, (storesWf a = true ∧ bankAlone a t = true ∧ (tw a t).bank.buf = [] ∧ (tw a t).bank.cmds = [c] ∧ c.op = 6) ∧ ∃ i, i = c.sel % 131072 ∧ (tw a t).bank.ents = [(i, e)] ∧ tallyTwin c.sel = t ∧ tallyStatus a c = 0 ∧ f = { e with count := if fld c.d0 47 0 = 0 then 0 else e.count - fld c.d0 47 0, cursor := 0, sat := false, st := if e.st = .wrapped ∨ e.st = .spent then .armed else e.st } ∧ dueEdge a t f = none :=
  ⟨.t0, { op := 6 }, { st := .armed, step := 1, count := 5 }, { st := .armed, step := 1 }, { on with tw0 := { svc := .inService, bank := { cmds := [{ op := 6 }], ents := [(0, { st := .armed, step := 1, count := 5 })] }, ctxs := [(0, { tallyRange := 2 ^ 63 })] } }, by decide, _, rfl, by decide⟩

theorem TheTallyTickActsOnEntries_12_1_witness : ∃ t : TwinId, ∃ c : TallyCmd, ∃ e : Tally, ∃ a : Block, (storesWf a = true ∧ bankAlone a t = true ∧ (tw a t).bank.buf = [] ∧ (tw a t).bank.cmds = [c] ∧ c.op = 8) ∧ ∃ i, i = c.sel % 131072 ∧ (tw a t).bank.ents = [(i, e)] ∧ tallyTwin c.sel = t ∧ tallyStatus a c = 0 ∧ dueEdge a t e = none :=
  ⟨.t0, { op := 8 }, { st := .armed, step := 1, count := 5 }, { on with tw0 := { svc := .inService, bank := { cmds := [{ op := 8 }], ents := [(0, { st := .armed, step := 1, count := 5 })] }, ctxs := [(0, { tallyRange := 2 ^ 63 })] } }, by decide, _, rfl, by decide⟩

theorem TheTallyTickActsOnEntries_13_1_witness : ∃ t : TwinId, ∃ c : TallyCmd, ∃ e : Tally, ∃ a : Block, (storesWf a = true ∧ bankAlone a t = true ∧ (tw a t).bank.buf = [] ∧ (tw a t).bank.cmds = [c] ∧ 1 ≤ c.op ∧ c.op ≤ 8) ∧ ∃ i, i = c.sel % 131072 ∧ tallyOf a t i = e ∧ (∀ j, j ≠ i → tallyOf a t j = {}) ∧ dueEdge a t e = none ∧ tallyTwin c.sel = t ∧ tallyStatus a c ≠ 0 :=
  ⟨.t0, { op := 3 }, {}, { on with tw0 := { svc := .inService, bank := { cmds := [{ op := 3 }] }, ctxs := [(0, { tallyRange := 2 ^ 63 })] } }, by decide, _, rfl, by decide, fun _ _ => rfl, by decide⟩

theorem TheTallyTickActsOnEntries_14_1_witness : ∃ t : TwinId, ∃ p : Nat, ∃ e : Tally, ∃ a : Block, storesWf a = true ∧ bankAlone a t = true ∧ (tw a t).bank.buf = [p] ∧ (tw a t).bank.cmds = [] ∧ tallyTwin (pktTally p) = t ∧ (tw a t).bank.ents = [(pktTally p % 131072, e)] ∧ e.st = .idle ∧ dropReason a p = none ∧ 0 < pktAmount e p ∧ e.count + pktAmount e p ≤ countMax :=
  ⟨.t0, 0xA0000000000000000000000100000000, { st := .idle }, { on with tw0 := { svc := .inService, bank := { buf := [0xA0000000000000000000000100000000], ents := [(0, { st := .idle })] } } }, by decide⟩

theorem TheTallyTickActsOnEntries_15_1_witness : ∃ t : TwinId, ∃ i : Nat, ∃ w : Nat, ∃ e : Tally, ∃ a : Block, storesWf a = true ∧ bankAlone a t = true ∧ (tw a t).bank.buf = [] ∧ (tw a t).bank.cmds = [] ∧ (tw a t).bank.ents = [(i, e)] ∧ dueEdge a t e = some w ∧ dueEdge a t (afterFire e w) = none ∧ homeOf (edgeTarget w) = t :=
  ⟨.t0, 0, 0xC0100000, { st := .armed, step := 1, count := 1, watchLen := 1 }, { on with tw0 := { svc := .inService, bank := { ents := [(0, { st := .armed, step := 1, count := 1, watchLen := 1 })] }, cat := { fwd := [(0, 0xC0100000)] } } }, by decide⟩

theorem TheTallyTickActsOnEntries_16_1_witness : ∃ t : TwinId, ∃ i : Nat, ∃ w : Nat, ∃ e : Tally, ∃ a : Block, storesWf a = true ∧ bankAlone a t = true ∧ (tw a t).bank.buf = [] ∧ (tw a t).bank.cmds = [] ∧ (tw a t).bank.ents = [(i, e)] ∧ dueEdge a t e = some w ∧ dueEdge a t (afterFire e w) = none ∧ homeOf (edgeTarget w) = partner t ∧ serves a (partner t) = true :=
  ⟨.t0, 0, 0xC0180000, { st := .armed, step := 1, count := 1, watchLen := 1 }, { on with tw0 := { svc := .inService, bank := { ents := [(0, { st := .armed, step := 1, count := 1, watchLen := 1 })] }, cat := { fwd := [(0, 0xC0180000)] } } }, by decide⟩

/-! TubeCommandsAndSequences -/

theorem TubeCommandsAndSequences_1_1_witness : ∃ src : Requester, ∃ ctx : CtxId, ∃ a : Block, ∃ k, k = ctx.toNat ∧ ∃ x, x = tubeSelOf a k ∧ ∃ t, t = tubeTwin x ∧ (storesWf a = true ∧ served a src (ctxKey k) = true ∧ officeTakes a k false (ctxOf a k).tubeBusy = true) ∧ ∃ e, e = newTube k (reg a (ctxKey k) 0x2F8) (reg a (ctxKey k) 0x300) ∧ tubeOpenStatus a k x e ≠ 0 :=
  ⟨.archivist .t0, 0, on, _, rfl, _, rfl, _, rfl, by decide, _, rfl, by decide⟩

theorem TubeCommandsAndSequences_2_1_witness : ∃ src : Requester, ∃ ctx : CtxId, ∃ e : Tube, ∃ a : Block, ∃ k, k = ctx.toNat ∧ ∃ x, x = tubeSelOf a k ∧ ∃ t, t = tubeTwin x ∧ (storesWf a = true ∧ served a src (ctxKey k) = true ∧ officeTakes a k false (ctxOf a k).tubeBusy = true) ∧ e = newTube k (reg a (ctxKey k) 0x2F8) (reg a (ctxKey k) 0x300) ∧ tubeOpenStatus a k x e = 0 :=
  ⟨.archivist .t0, 0, _, { on with tw0 := { svc := .inService, ctxs := [(0, { tubeRange := 2 ^ 63 })] }, pages := [(twKey .t0 tubeP, { regs := [(0x130, some (2 ^ 63))] }), (ctxKey 0, { regs := [(0x220, some 3), (0x230, some 0x1FF), (0x2F8, some (2 ^ 32 + 1)), (0x300, some (2 ^ 16 + 5 * 2 ^ 12))] })] }, _, rfl, _, rfl, _, rfl, by decide, rfl, by decide⟩

theorem TubeCommandsAndSequences_3_1_witness : ∃ src : Requester, ∃ ctx : CtxId, ∃ e : Tube, ∃ a : Block, ∃ k, k = ctx.toNat ∧ ∃ x, x = tubeSelOf a k ∧ ∃ t, t = tubeTwin x ∧ (storesWf a = true ∧ served a src (ctxKey k) = true ∧ officeTakes a k false (ctxOf a k).tubeBusy = true ∧ inTubeRange a k x = true) ∧ e = { tubeOf a x with st := .closing, busy := true, ops := (tubeOf a x).ops ++ [.wrClose] } ∧ (tubeOf a x).st = .opened ∧ (tubeOf a x).ctx = k :=
  ⟨.archivist .t0, 0, _, { on with tw0 := { svc := .inService, ctxs := [(0, { tubeRange := 2 ^ 63 })], office := { tubes := [(0, { st := .opened })] } } }, _, rfl, _, rfl, _, rfl, by decide, rfl, by decide⟩

theorem TubeCommandsAndSequences_4_1_witness : ∃ src : Requester, ∃ ctx : CtxId, ∃ a : Block, ∃ k, k = ctx.toNat ∧ ∃ x, x = tubeSelOf a k ∧ ∃ t, t = tubeTwin x ∧ storesWf a = true ∧ served a src (ctxKey k) = true ∧ officeTakes a k false (ctxOf a k).tubeBusy = true ∧ inTubeRange a k x = true ∧ ((tubeOf a x).st ≠ .opened ∨ (tubeOf a x).ctx ≠ k) :=
  ⟨.archivist .t0, 0, { on with tw0 := { svc := .inService, ctxs := [(0, { tubeRange := 2 ^ 63 })] } }, _, rfl, _, rfl, _, rfl, by decide⟩

theorem TubeCommandsAndSequences_5_1_witness : ∃ src : Requester, ∃ ctx : CtxId, ∃ a : Block, ∃ k, k = ctx.toNat ∧ ∃ x, x = tubeSelOf a k ∧ ∃ t, t = tubeTwin x ∧ storesWf a = true ∧ served a src (ctxKey k) = true ∧ officeTakes a k true (ctxOf a k).tubeBusy = true ∧ inTubeRange a k x = true ∧ ((tubeOf a x).st = .free ∨ (tubeOf a x).st = .opening) :=
  ⟨.archivist .t0, 0, { on with tw0 := { svc := .inService, ctxs := [(0, { tubeRange := 2 ^ 63 })] } }, _, rfl, _, rfl, _, rfl, by decide⟩

theorem TubeCommandsAndSequences_6_1_witness : ∃ src : Requester, ∃ ctx : CtxId, ∃ a : Block, ∃ k, k = ctx.toNat ∧ ∃ x, x = tubeSelOf a k ∧ ∃ t, t = tubeTwin x ∧ storesWf a = true ∧ served a src (ctxKey k) = true ∧ officeTakes a k true (ctxOf a k).tubeBusy = true ∧ inTubeRange a k x = true ∧ (tubeOf a x).st = .opened :=
  ⟨.archivist .t0, 0, { on with tw0 := { svc := .inService, ctxs := [(0, { tubeRange := 2 ^ 63 })], office := { tubes := [(0, { st := .opened })] } } }, _, rfl, _, rfl, _, rfl, by decide⟩

theorem TubeCommandsAndSequences_7_1_witness : ∃ tube : BitVec 16, ∃ e : Tube, ∃ rest : List TubeOp, ∃ a : Block, ∃ x, x = tube.toNat ∧ ∃ t, t = tubeTwin x ∧ (storesWf a = true ∧ live a t = true ∧ tubeOf a x = e) ∧ e.ops = .wrRx :: rest ∧ e.st = .opening :=
  ⟨0, { st := .opening, ops := [.wrRx] }, _, { on with tw0 := { svc := .inService, office := { tubes := [(0, { st := .opening, ops := [.wrRx] })] } } }, _, rfl, _, rfl, by decide, rfl, by decide⟩

theorem TubeCommandsAndSequences_8_1_witness : ∃ tube : BitVec 16, ∃ e : Tube, ∃ rest : List TubeOp, ∃ a : Block, ∃ x, x = tube.toNat ∧ ∃ t, t = tubeTwin x ∧ (storesWf a = true ∧ live a t = true ∧ tubeOf a x = e) ∧ e.ops = .wrTx :: rest ∧ e.st = .opening :=
  ⟨0, { st := .opening, ops := [.wrTx] }, _, { on with tw0 := { svc := .inService, office := { tubes := [(0, { st := .opening, ops := [.wrTx] })] } } }, _, rfl, _, rfl, by decide, rfl, by decide⟩

theorem TubeCommandsAndSequences_9_1_witness : ∃ tube : BitVec 16, ∃ e : Tube, ∃ rest : List TubeOp, ∃ a : Block, ∃ x, x = tube.toNat ∧ ∃ t, t = tubeTwin x ∧ (storesWf a = true ∧ live a t = true ∧ tubeOf a x = e) ∧ e.ops = .wrClose :: rest :=
  ⟨0, { st := .closing, ops := [.wrClose] }, _, { on with tw0 := { svc := .inService, office := { tubes := [(0, { st := .closing, ops := [.wrClose] })] } } }, _, rfl, _, rfl, by decide, rfl⟩

theorem TubeCommandsAndSequences_10_1_witness : ∃ tube : BitVec 16, ∃ e : Tube, ∃ rest : List TubeOp, ∃ a : Block, ∃ x, x = tube.toNat ∧ ∃ t, t = tubeTwin x ∧ (storesWf a = true ∧ live a t = true ∧ tubeOf a x = e) ∧ e.ops = .wrDis :: rest ∧ e.busy = true :=
  ⟨0, { st := .closing, busy := true, ops := [.wrDis] }, _, { on with tw0 := { svc := .inService, office := { tubes := [(0, { st := .closing, busy := true, ops := [.wrDis] })] } } }, _, rfl, _, rfl, by decide, rfl, by decide⟩

theorem TubeCommandsAndSequences_11_1_witness : ∃ tube : BitVec 16, ∃ e : Tube, ∃ rest : List TubeOp, ∃ a : Block, ∃ x, x = tube.toNat ∧ ∃ t, t = tubeTwin x ∧ (storesWf a = true ∧ live a t = true ∧ tubeOf a x = e) ∧ e.ops = .rdRx :: rest :=
  ⟨0, { st := .closing, ops := [.rdRx] }, _, { on with tw0 := { svc := .inService, office := { tubes := [(0, { st := .closing, ops := [.rdRx] })] } } }, _, rfl, _, rfl, by decide, rfl⟩

theorem TubeCommandsAndSequences_12_1_witness : ∃ tube : BitVec 16, ∃ e : Tube, ∃ arr : Nat, ∃ rest : List TubeOp, ∃ a : Block, ∃ x, x = tube.toNat ∧ ∃ t, t = tubeTwin x ∧ (storesWf a = true ∧ live a t = true ∧ tubeOf a x = e) ∧ e.ops = .rdTx arr :: rest ∧ (sendOf a (txKeyOf e)).wr = arr :=
  ⟨0, { st := .closing, ops := [.rdTx 0] }, _, _, { on with tw0 := { svc := .inService, office := { tubes := [(0, { st := .closing, ops := [.rdTx 0] })] } } }, _, rfl, _, rfl, by decide, rfl, by decide⟩

theorem TubeCommandsAndSequences_13_1_witness : ∃ tube : BitVec 16, ∃ e : Tube, ∃ arr : Nat, ∃ rest : List TubeOp, ∃ a : Block, ∃ x, x = tube.toNat ∧ ∃ t, t = tubeTwin x ∧ (storesWf a = true ∧ live a t = true ∧ tubeOf a x = e) ∧ e.ops = .rdTx arr :: rest ∧ (sendOf a (txKeyOf e)).wr ≠ arr :=
  ⟨0, { st := .closing, ops := [.rdTx 1] }, _, _, { on with tw0 := { svc := .inService, office := { tubes := [(0, { st := .closing, ops := [.rdTx 1] })] } } }, _, rfl, _, rfl, by decide, rfl, by decide⟩

theorem TubeCommandsAndSequences_14_1_witness : ∃ tube : BitVec 16, ∃ e : Tube, ∃ a : Block, ∃ x, x = tube.toNat ∧ ∃ t, t = tubeTwin x ∧ storesWf a = true ∧ live a t = true ∧ tubeOf a x = e ∧ e.ops = [.wrClose] ∧ e.busy = true ∧ (ctxOf a e.ctx).st = .opened :=
  ⟨0, { st := .closing, busy := true, ops := [.wrClose] }, { on with tw0 := { svc := .inService, office := { tubes := [(0, { st := .closing, busy := true, ops := [.wrClose] })] } }, ctxs := [(0, { st := .opened })] }, _, rfl, _, rfl, by decide⟩

/-! TubeMessagesFlow -/

theorem TubeMessagesFlow_1_1_witness : ∃ tag : CtxId, ∃ e : EngineId, ∃ slot : BitVec 3, ∃ len : BitVec 4, ∃ off : BitVec 18, ∃ beats : List Word64, ∃ a : Block, ∃ key, key = epKey e.toNat slot.toNat ∧ storesWf a = true ∧ clusterRuns a e.toNat = true ∧ e.toNat ≤ 0x1FFF ∧ beats.length = 4 * (len.toNat + 1) ∧ sendResult (sendOf a key) tag.toNat (len.toNat + 1) off.toNat ≠ 0 :=
  ⟨0, 0, 0, 0, 0, [0, 0, 0, 0], on, _, rfl, by decide⟩

theorem TubeMessagesFlow_2_1_witness : ∃ tag : CtxId, ∃ e : EngineId, ∃ slot : BitVec 3, ∃ len : BitVec 4, ∃ off : BitVec 18, ∃ beats : List Word64, ∃ m : Nat, ∃ a : Block, ∃ key, key = epKey e.toNat slot.toNat ∧ (storesWf a = true ∧ clusterRuns a e.toNat = true ∧ e.toNat ≤ 0x1FFF ∧ m = len.toNat + 1 ∧ beats.length = 4 * m ∧ sendResult (sendOf a key) tag.toNat m off.toNat = 0) ∧ ∃ room, room = 2 ^ (sendOf a key).ringLog - (sendOf a key).wr % 2 ^ (sendOf a key).ringLog ∧ ∃ pad, pad = (if m ≤ room then 0 else room) ∧ ∃ ws, ws = beats.map (fun w => w.toNat) :=
  ⟨0, 0, 0, 0, 0, [0, 0, 0, 0], 1, { on with sendEps := [(0, { live := true, credits := 32, ringLog := 5 })] }, _, rfl, by decide, _, rfl, _, rfl, _, rfl⟩

theorem TubeMessagesFlow_3_1_witness : ∃ e : EngineId, ∃ slot : BitVec 3, ∃ bt : Beat, ∃ rest : List Beat, ∃ r : RecvEp, ∃ a : Block, ∃ key, key = epKey e.toNat slot.toNat ∧ (storesWf a = true ∧ clusterRuns a e.toNat = true) ∧ (recvOf a key).flight = bt :: rest ∧ (0 < (recvOf a key).dropping ∧ (recvOf a key).cur = none) ∧ r = { recvOf a key with flight := rest, arr := (recvOf a key).arr + bt.span, dropping := (recvOf a key).dropping - 1, rd := (recvOf a key).rd + 1 } ∧ ∃ p, p = padAt r r.rd :=
  ⟨0, 0, { words := [0, 0, 0, 0] }, _, _, { on with recvEps := [(0, { live := true, dropping := 1, flight := [{ words := [0, 0, 0, 0] }] })] }, _, rfl, by decide, rfl, by decide, rfl, _, rfl⟩

theorem TubeMessagesFlow_4_1_witness : ∃ e : EngineId, ∃ slot : BitVec 3, ∃ bt : Beat, ∃ rest : List Beat, ∃ r : RecvEp, ∃ a : Block, ∃ key, key = epKey e.toNat slot.toNat ∧ (storesWf a = true ∧ clusterRuns a e.toNat = true) ∧ (recvOf a key).flight = bt :: rest ∧ ((recvOf a key).dropping = 0 ∧ 0 < (recvOf a key).freeing ∧ (recvOf a key).cur = none) ∧ r = { recvOf a key with flight := rest, arr := (recvOf a key).arr + bt.span, ring := mapSet [] (recvOf a key).ring ((recvOf a key).arr % 2 ^ (recvOf a key).ringLog) bt.words, freeing := (recvOf a key).freeing - 1, rd := (recvOf a key).rd + 1 } ∧ ∃ p, p = padAt r r.rd :=
  ⟨0, 0, { words := [0, 0, 0, 0] }, _, _, { on with recvEps := [(0, { live := true, freeing := 1, ringLog := 5, flight := [{ words := [0, 0, 0, 0] }] })] }, _, rfl, by decide, rfl, by decide, rfl, _, rfl⟩

theorem TubeMessagesFlow_5_1_witness : ∃ e : EngineId, ∃ slot : BitVec 3, ∃ bt : Beat, ∃ rest : List Beat, ∃ r : RecvEp, ∃ a : Block, ∃ key, key = epKey e.toNat slot.toNat ∧ (storesWf a = true ∧ clusterRuns a e.toNat = true) ∧ (recvOf a key).flight = bt :: rest ∧ ((recvOf a key).dropping = 0 ∧ (recvOf a key).freeing = 0) ∧ r = { recvOf a key with flight := rest, arr := (recvOf a key).arr + bt.span, ring := mapSet [] (recvOf a key).ring ((recvOf a key).arr % 2 ^ (recvOf a key).ringLog) bt.words } ∧ ((recvOf a key).cur.isSome = true ∨ padAt r r.rd = 0) :=
  ⟨0, 0, { words := [0, 0, 0, 0] }, _, _, { on with recvEps := [(0, { live := true, ringLog := 5, flight := [{ words := [0, 0, 0, 0] }] })] }, _, rfl, by decide, rfl, by decide, rfl, by decide⟩

theorem TubeMessagesFlow_6_1_witness : ∃ e : EngineId, ∃ slot : BitVec 3, ∃ bt : Beat, ∃ rest : List Beat, ∃ r : RecvEp, ∃ a : Block, ∃ key, key = epKey e.toNat slot.toNat ∧ (storesWf a = true ∧ clusterRuns a e.toNat = true) ∧ (recvOf a key).flight = bt :: rest ∧ ((recvOf a key).dropping = 0 ∧ (recvOf a key).freeing = 0 ∧ (recvOf a key).cur = none) ∧ r = { recvOf a key with flight := rest, arr := (recvOf a key).arr + bt.span, ring := mapSet [] (recvOf a key).ring ((recvOf a key).arr % 2 ^ (recvOf a key).ringLog) bt.words } ∧ ∃ p, p = padAt r r.rd ∧ 0 < p :=
  ⟨0, 0, { words := [0xF000000000000000, 0, 0, 0] }, _, _, { on with recvEps := [(0, { live := true, ringLog := 5, flight := [{ words := [0xF000000000000000, 0, 0, 0] }] })] }, _, rfl, by decide, rfl, by decide, rfl, _, rfl, by decide⟩

theorem TubeMessagesFlow_7_1_witness : ∃ tag : CtxId, ∃ e : EngineId, ∃ slot : BitVec 3, ∃ st : Nat, ∃ m : Nat, ∃ a : Block, ∃ key, key = epKey e.toNat slot.toNat ∧ storesWf a = true ∧ clusterRuns a e.toNat = true ∧ e.toNat ≤ 0x1FFF ∧ (recvOf a key).live = true ∧ (recvOf a key).ctx = tag.toNat ∧ msgAt (recvOf a key) (recvOf a key).next = some (st, m) ∧ (recvOf a key).cur = none ∧ padAt (recvOf a key) (recvOf a key).rd = 0 :=
  ⟨0, 0, 0, 0, 1, { on with recvEps := [(0, { live := true, ringLog := 5, cut := 1, arr := 1 })] }, _, rfl, by decide⟩

theorem TubeMessagesFlow_8_1_witness : ∃ tag : CtxId, ∃ e : EngineId, ∃ slot : BitVec 3, ∃ st : Nat, ∃ m : Nat, ∃ cs : Nat, ∃ cm : Nat, ∃ loc : Nat, ∃ a : Block, ∃ key, key = epKey e.toNat slot.toNat ∧ (storesWf a = true ∧ clusterRuns a e.toNat = true ∧ e.toNat ≤ 0x1FFF ∧ (recvOf a key).live = true ∧ (recvOf a key).ctx = tag.toNat ∧ msgAt (recvOf a key) (recvOf a key).next = some (st, m) ∧ (recvOf a key).cur = some (cs, cm, loc) ∧ (recvOf a key).rd < cs + cm) ∧ ∃ p, p = padAt (recvOf a key) (cs + cm) :=
  ⟨0, 0, 0, 1, 1, 0, 1, 0, { on with recvEps := [(0, { live := true, ringLog := 5, arr := 2, cut := 1, next := 1, ring := [(1, [0x1000000000000000, 0, 0, 0])], cur := some (0, 1, 0) })] }, _, rfl, by decide, _, rfl⟩

theorem TubeMessagesFlow_9_1_witness : ∃ tag : CtxId, ∃ e : EngineId, ∃ slot : BitVec 3, ∃ a : Block, ∃ key, key = epKey e.toNat slot.toNat ∧ storesWf a = true ∧ clusterRuns a e.toNat = true ∧ e.toNat ≤ 0x1FFF ∧ (recvOf a key).live = true ∧ (recvOf a key).ctx = tag.toNat ∧ msgAt (recvOf a key) (recvOf a key).next = none :=
  ⟨0, 0, 0, { on with recvEps := [(0, { live := true, ringLog := 5, cut := 1 })] }, _, rfl, by decide⟩

theorem TubeMessagesFlow_10_1_witness : ∃ tag : CtxId, ∃ e : EngineId, ∃ slot : BitVec 3, ∃ st : Nat, ∃ m : Nat, ∃ loc : Nat, ∃ r : RecvEp, ∃ a : Block, ∃ key, key = epKey e.toNat slot.toNat ∧ (storesWf a = true ∧ clusterRuns a e.toNat = true ∧ (recvOf a key).live = true ∧ (recvOf a key).ctx = tag.toNat ∧ (recvOf a key).cur = some (st, m, loc)) ∧ ∃ n, n = min m ((recvOf a key).arr - st) ∧ 0 < n ∧ r = { recvOf a key with cur := none, rd := st + n, freeing := m - n } ∧ ∃ p, p = padAt r r.rd :=
  ⟨0, 0, 0, 0, 1, 0, _, { on with recvEps := [(0, { live := true, ringLog := 5, arr := 1, cur := some (0, 1, 0) })] }, _, rfl, by decide, _, rfl, by decide, rfl, _, rfl⟩

theorem TubeMessagesFlow_11_1_witness : ∃ tag : CtxId, ∃ e : EngineId, ∃ slot : BitVec 3, ∃ st : Nat, ∃ m : Nat, ∃ loc : Nat, ∃ r : RecvEp, ∃ a : Block, ∃ key, key = epKey e.toNat slot.toNat ∧ (storesWf a = true ∧ clusterRuns a e.toNat = true ∧ (recvOf a key).live = true ∧ (recvOf a key).ctx = tag.toNat ∧ (recvOf a key).cur = some (st, m, loc)) ∧ ∃ n, n = min m ((recvOf a key).arr - st) ∧ 0 < n ∧ r = { recvOf a key with cur := none, rd := st + n, dropping := m - n } ∧ ∃ p, p = padAt r r.rd :=
  ⟨0, 0, 0, 0, 1, 0, _, { on with recvEps := [(0, { live := true, ringLog := 5, arr := 1, cur := some (0, 1, 0) })] }, _, rfl, by decide, _, rfl, by decide, rfl, _, rfl⟩

theorem TubeMessagesFlow_12_1_witness : ∃ e : EngineId, ∃ slot : BitVec 3, ∃ n : Nat, ∃ rest : List Nat, ∃ a : Block, ∃ key, key = epKey e.toNat slot.toNat ∧ (storesWf a = true ∧ clusterRuns a e.toNat = true) ∧ (sendOf a key).returns = n :: rest :=
  ⟨0, 0, _, _, { on with sendEps := [(0, { returns := [1] })] }, _, rfl, by decide, rfl⟩

theorem TubeMessagesFlow_13_1_witness : ∃ e : EngineId, ∃ slot : BitVec 3, ∃ a : Block, ∃ key, key = epKey e.toNat slot.toNat ∧ storesWf a = true ∧ clusterRuns a e.toNat = true ∧ (sendOf a key).busy = true :=
  ⟨0, 0, { on with sendEps := [(0, { busy := true })] }, _, rfl, by decide⟩

theorem TubeMessagesFlow_14_1_witness : ∃ tag : CtxId, ∃ e : EngineId, ∃ slot : BitVec 3, ∃ len : BitVec 4, ∃ off : BitVec 18, ∃ beats : List Word64, ∃ c : Instr, ∃ a : Block, clusterRuns a e.toNat = false ∧ c ∈ [.txSend tag e slot len off beats, .rxMbox tag e slot, .rxDone tag e slot, .rxDrop tag e slot, .beatArrival e slot, .creditReturn e slot, .sourceCopyEnd e slot] :=
  ⟨0, 0, 0, 0, 0, [], .sourceCopyEnd 0 0, { on with proof := { doms := [(0, { st := .stopped })] } }, by decide⟩

/-! BowlCommandsAndPuts -/

theorem BowlCommandsAndPuts_1_1_witness : ∃ src : Requester, ∃ ctx : CtxId, ∃ a : Block, ∃ k, k = ctx.toNat ∧ ∃ x, x = bowlSelOf a k ∧ ∃ t, t = bowlTwin x ∧ storesWf a = true ∧ served a src (ctxKey k) = true ∧ officeTakes a k false false = true ∧ inBowlRange a k x = true ∧ (bowlOf a x).st = .free ∧ (newBowl a k).selected = false ∧ 1 ≤ (newBowl a k).pendMax ∧ poolReserved a t + (newBowl a k).pendMax ≤ 4096 :=
  ⟨.archivist .t0, 0, { on with tw0 := { svc := .inService, ctxs := [(0, { bowlRange := 2 ^ 63 })] }, pages := [(ctxKey 0, { regs := [(0x348, some (2 ^ 51))] })] }, _, rfl, _, rfl, _, rfl, by decide⟩

theorem BowlCommandsAndPuts_2_1_witness : ∃ src : Requester, ∃ ctx : CtxId, ∃ st : Nat, ∃ a : Block, ∃ k, k = ctx.toNat ∧ ∃ x, x = bowlSelOf a k ∧ storesWf a = true ∧ served a src (ctxKey k) = true ∧ officeTakes a k false false = true ∧ ((inBowlRange a k x = false ∧ st = 1) ∨ (inBowlRange a k x = true ∧ (bowlOf a x).st ≠ .free ∧ st = 2) ∨ (inBowlRange a k x = true ∧ (bowlOf a x).st = .free ∧ (newBowl a k).selected = true ∧ ((newBowl a k).qmask = 0 ∨ (newBowl a k).quarter < 1 ∨ 1024 < (newBowl a k).quarter) ∧ st = 5) ∨ (inBowlRange a k x = true ∧ (bowlOf a x).st = .free ∧ (newBowl a k).selected = false ∧ ((newBowl a k).pendMax < 1 ∨ 4096 < poolReserved a (bowlTwin x) + (newBowl a k).pendMax) ∧ st = 8)) :=
  ⟨.archivist .t0, 0, 1, on, _, rfl, _, rfl, by decide⟩

theorem BowlCommandsAndPuts_3_1_witness : ∃ src : Requester, ∃ ctx : CtxId, ∃ a : Block, ∃ k, k = ctx.toNat ∧ ∃ x, x = bowlSelOf a k ∧ ∃ t, t = bowlTwin x ∧ storesWf a = true ∧ served a src (ctxKey k) = true ∧ officeTakes a k false false = true ∧ inBowlRange a k x = true ∧ (bowlOf a x).st ≠ .free ∧ (bowlOf a x).ctx = k ∧ (bowlOf a x).puts = [] :=
  ⟨.archivist .t0, 0, { on with tw0 := { svc := .inService, ctxs := [(0, { bowlRange := 2 ^ 63 })], office := { bowls := [(0, { st := .idle })] } } }, _, rfl, _, rfl, _, rfl, by decide⟩

theorem BowlCommandsAndPuts_4_1_witness : ∃ src : Requester, ∃ ctx : CtxId, ∃ a : Block, ∃ k, k = ctx.toNat ∧ ∃ x, x = bowlSelOf a k ∧ ∃ t, t = bowlTwin x ∧ storesWf a = true ∧ served a src (ctxKey k) = true ∧ officeTakes a k false false = true ∧ inBowlRange a k x = true ∧ (bowlOf a x).st ≠ .free ∧ (bowlOf a x).ctx = k ∧ (bowlOf a x).puts ≠ [] :=
  ⟨.archivist .t0, 0, { on with tw0 := { svc := .inService, ctxs := [(0, { bowlRange := 2 ^ 63 })], office := { bowls := [(0, { st := .idle, puts := [7] })] } } }, _, rfl, _, rfl, _, rfl, by decide⟩

theorem BowlCommandsAndPuts_5_1_witness : ∃ src : Requester, ∃ ctx : CtxId, ∃ c : Instr, ∃ a : Block, (c = .bowlClose src ctx ∨ c = .bowlReset src ctx) ∧ ∃ k, k = ctx.toNat ∧ ∃ x, x = bowlSelOf a k ∧ storesWf a = true ∧ served a src (ctxKey k) = true ∧ officeTakes a k false false = true ∧ inBowlRange a k x = true ∧ ((bowlOf a x).st = .free ∨ (bowlOf a x).ctx ≠ k) :=
  ⟨.archivist .t0, 0, .bowlReset (.archivist .t0) 0, { on with tw0 := { svc := .inService, ctxs := [(0, { bowlRange := 2 ^ 63 })] } }, .inr rfl, _, rfl, _, rfl, by decide⟩

theorem BowlCommandsAndPuts_6_1_witness : ∃ src : Requester, ∃ ctx : CtxId, ∃ a : Block, ∃ k, k = ctx.toNat ∧ ∃ x, x = bowlSelOf a k ∧ ∃ t, t = bowlTwin x ∧ storesWf a = true ∧ served a src (ctxKey k) = true ∧ officeTakes a k false false = true ∧ inBowlRange a k x = true ∧ ((bowlOf a x).st = .starting ∨ (bowlOf a x).st = .mixing) ∧ (bowlOf a x).ctx = k ∧ (bowlOf a x).puts = [] :=
  ⟨.archivist .t0, 0, { on with tw0 := { svc := .inService, ctxs := [(0, { bowlRange := 2 ^ 63 })], office := { bowls := [(0, { st := .mixing })] } } }, _, rfl, _, rfl, _, rfl, by decide⟩

theorem BowlCommandsAndPuts_7_1_witness : ∃ src : Requester, ∃ ctx : CtxId, ∃ a : Block, ∃ k, k = ctx.toNat ∧ ∃ x, x = bowlSelOf a k ∧ storesWf a = true ∧ served a src (ctxKey k) = true ∧ officeTakes a k true false = true ∧ inBowlRange a k x = true :=
  ⟨.archivist .t0, 0, { on with tw0 := { svc := .inService, ctxs := [(0, { bowlRange := 2 ^ 63 })] } }, _, rfl, _, rfl, by decide⟩

theorem BowlCommandsAndPuts_8_1_witness : ∃ src : Requester, ∃ t : TwinId, ∃ put : Word64, ∃ a : Block, ∃ x, x = twinNum t * 512 + fld put.toNat 63 55 ∧ storesWf a = true ∧ putServed a src t = true ∧ ((bowlOf a x).st = .free ∨ (bowlOf a x).st = .faulted) :=
  ⟨.archivist .t0, .t0, 0, on, _, rfl, by decide⟩

theorem BowlCommandsAndPuts_9_1_witness : ∃ src : Requester, ∃ t : TwinId, ∃ put : Word64, ∃ a : Block, ∃ x, x = twinNum t * 512 + fld put.toNat 63 55 ∧ storesWf a = true ∧ putServed a src t = true ∧ ((bowlOf a x).st = .idle ∨ (bowlOf a x).st = .mixing) ∧ (bowlOf a x).puts = [] ∧ (bowlOf a x).reading = false ∧ (bowlOf a x).flushId = none ∧ 0x1FFF < fld put.toNat 45 32 :=
  ⟨.archivist .t0, .t0, 0x0000200000000000, { on with tw0 := { svc := .inService, office := { bowls := [(0, { st := .idle })] } } }, _, rfl, by decide⟩

theorem BowlCommandsAndPuts_10_1_witness : ∃ src : Requester, ∃ t : TwinId, ∃ put : Word64, ∃ a : Block, ∃ x, x = twinNum t * 512 + fld put.toNat 63 55 ∧ storesWf a = true ∧ putServed a src t = true ∧ ((bowlOf a x).st = .idle ∨ (bowlOf a x).st = .mixing) ∧ ((bowlOf a x).reading = true ∨ (bowlOf a x).flushId.isSome = true) :=
  ⟨.archivist .t0, .t0, 0, { on with tw0 := { svc := .inService, office := { bowls := [(0, { st := .idle, reading := true })] } } }, _, rfl, by decide⟩

/-! BowlRoundsRun -/

theorem BowlRoundsRun_1_1_witness : ∃ bowl : BitVec 10, ∃ header : List Word64, ∃ p : Nat, ∃ e : Bowl, ∃ h : List Nat, ∃ a : Block, ∃ x, x = bowl.toNat ∧ ∃ t, t = bowlTwin x ∧ (storesWf a = true ∧ live a t = true ∧ bowlOf a x = e) ∧ h = header.map (·.toNat) ∧ e.puts = [p] ∧ e.reading = true ∧ e.flushId = none ∧ e.st = .idle ∧ fld (h.getD 0 0) 55 48 = e.ctx ∧ fld (h.getD 0 0) 63 56 = 0xB2 ∧ fld (h.getD 0 0) 31 24 = fld p 54 47 ∧ fld (h.getD 0 0) 16 0 ≠ 0 ∧ fld (h.getD 1 0) 15 0 + fld (h.getD 0 0) 16 0 ≤ e.elems + 1 ∧ e.epochChk = false ∧ e.pend.length < e.pendMax :=
  ⟨0, [0xB200000001000001, 0, 0, 0], 2 ^ 47, { st := .idle, puts := [2 ^ 47], reading := true, pendMax := 1 }, _, { on with tw0 := { svc := .inService, office := { bowls := [(0, { st := .idle, puts := [2 ^ 47], reading := true, pendMax := 1 })] } } }, _, rfl, _, rfl, by decide, rfl, by decide⟩

theorem BowlRoundsRun_2_1_witness : ∃ bowl : BitVec 10, ∃ header : List Word64, ∃ p : Nat, ∃ e : Bowl, ∃ h : List Nat, ∃ a : Block, ∃ x, x = bowl.toNat ∧ ∃ t, t = bowlTwin x ∧ (storesWf a = true ∧ live a t = true ∧ bowlOf a x = e) ∧ h = header.map (·.toNat) ∧ e.puts = [p] ∧ e.reading = true ∧ e.flushId = none ∧ e.st = .idle ∧ fld (h.getD 0 0) 55 48 = e.ctx ∧ fld (h.getD 0 0) 63 56 = 0xB2 ∧ fld (h.getD 0 0) 31 24 = fld p 54 47 ∧ fld (h.getD 0 0) 16 0 ≠ 0 ∧ fld (h.getD 1 0) 15 0 + fld (h.getD 0 0) 16 0 ≤ e.elems + 1 ∧ e.epochChk = true ∧ fld (h.getD 0 0) 47 32 ≠ (ctxOf a e.ctx).epoch :=
  ⟨0, [0xB200000101000001, 0, 0, 0], 2 ^ 47, { st := .idle, puts := [2 ^ 47], reading := true, epochChk := true }, _, { on with tw0 := { svc := .inService, office := { bowls := [(0, { st := .idle, puts := [2 ^ 47], reading := true, epochChk := true })] } } }, _, rfl, _, rfl, by decide, rfl, by decide⟩

theorem BowlRoundsRun_3_1_witness : ∃ bowl : BitVec 10, ∃ header : List Word64, ∃ p : Nat, ∃ e : Bowl, ∃ h : List Nat, ∃ a : Block, ∃ x, x = bowl.toNat ∧ ∃ t, t = bowlTwin x ∧ (storesWf a = true ∧ live a t = true ∧ bowlOf a x = e) ∧ h = header.map (·.toNat) ∧ e.puts = [p] ∧ e.reading = true ∧ e.flushId = none ∧ e.st = .idle ∧ fld (h.getD 0 0) 55 48 = e.ctx ∧ fld (h.getD 0 0) 63 56 ≠ 0xB2 ∧ fld (h.getD 0 0) 63 56 ≠ 0xB3 ∧ (ctxOf a e.ctx).st = .opened :=
  ⟨0, [0, 0, 0, 0], 0, { st := .idle, puts := [0], reading := true }, _, { on with tw0 := { svc := .inService, office := { bowls := [(0, { st := .idle, puts := [0], reading := true })] } }, ctxs := [(0, { st := .opened })] }, _, rfl, _, rfl, by decide, rfl, by decide⟩

theorem BowlRoundsRun_4_1_witness : ∃ bowl : BitVec 10, ∃ header : List Word64, ∃ p : Nat, ∃ e : Bowl, ∃ h : List Nat, ∃ a : Block, ∃ x, x = bowl.toNat ∧ ∃ t, t = bowlTwin x ∧ (storesWf a = true ∧ live a t = true ∧ bowlOf a x = e) ∧ h = header.map (·.toNat) ∧ e.puts = [p] ∧ e.reading = true ∧ e.flushId = none ∧ e.st = .idle ∧ fld (h.getD 0 0) 55 48 = e.ctx ∧ fld (h.getD 0 0) 63 56 = 0xB3 ∧ fld (h.getD 1 0) 15 0 + fld (h.getD 0 0) 16 0 ≤ e.elems + 1 ∧ e.epochChk = false ∧ e.keep = true ∧ e.selected = false ∧ e.pend = [] ∧ e.lanes ≠ 0 :=
  ⟨0, [0xB300000000000001, 0, 0, 0], 0, { st := .idle, puts := [0], reading := true, keep := true, lanes := 1 }, _, { on with tw0 := { svc := .inService, office := { bowls := [(0, { st := .idle, puts := [0], reading := true, keep := true, lanes := 1 })] } } }, _, rfl, _, rfl, by decide, rfl, by decide⟩

theorem BowlRoundsRun_5_1_witness : ∃ bowl : BitVec 10, ∃ header : List Word64, ∃ p : Nat, ∃ e : Bowl, ∃ h : List Nat, ∃ c : Contrib, ∃ a : Block, ∃ x, x = bowl.toNat ∧ ∃ t, t = bowlTwin x ∧ (storesWf a = true ∧ live a t = true ∧ bowlOf a x = e) ∧ h = header.map (·.toNat) ∧ (e.puts = [p] ∧ e.reading = true ∧ e.flushId = none ∧ e.st = .mixing) ∧ c = { block := p % 65536, lane := fld p 54 47, isLast := false, epoch := fld (h.getD 0 0) 47 32, bf16 := bitOf (h.getD 0 0) 19, off := fld (h.getD 1 0) 15 0, count := fld (h.getD 0 0) 16 0 } ∧ fld (h.getD 0 0) 55 48 = e.ctx ∧ fld (h.getD 0 0) 63 56 = 0xB2 ∧ fld (h.getD 0 0) 31 24 = c.lane ∧ c.count ≠ 0 ∧ c.off + c.count ≤ e.elems + 1 ∧ e.epochChk = false ∧ bitOf p 46 = false ∧ e.expected.head? = some c.lane ∧ (∀ q ∈ e.pend, q.lane ≠ c.lane) ∧ e.commits = [] ∧ e.adding = false ∧ e.writing = false :=
  ⟨0, [0xB200000000000001, 0, 0, 0], 0, { st := .mixing, puts := [0], reading := true, expected := [0] }, _, _, { on with tw0 := { svc := .inService, office := { bowls := [(0, { st := .mixing, puts := [0], reading := true, expected := [0] })] } } }, _, rfl, _, rfl, by decide, rfl, by decide, rfl, by decide⟩

theorem BowlRoundsRun_6_1_witness : ∃ bowl : BitVec 10, ∃ header : List Word64, ∃ p : Nat, ∃ e : Bowl, ∃ h : List Nat, ∃ c : Contrib, ∃ a : Block, ∃ x, x = bowl.toNat ∧ ∃ t, t = bowlTwin x ∧ (storesWf a = true ∧ live a t = true ∧ bowlOf a x = e) ∧ h = header.map (·.toNat) ∧ (e.puts = [p] ∧ e.reading = true ∧ e.flushId = none ∧ e.st = .mixing) ∧ c = { block := p % 65536, lane := fld p 54 47, isLast := false, epoch := fld (h.getD 0 0) 47 32, bf16 := bitOf (h.getD 0 0) 19, off := fld (h.getD 1 0) 15 0, count := fld (h.getD 0 0) 16 0 } ∧ fld (h.getD 0 0) 55 48 = e.ctx ∧ fld (h.getD 0 0) 63 56 = 0xB2 ∧ fld (h.getD 0 0) 31 24 = c.lane ∧ c.count ≠ 0 ∧ c.off + c.count ≤ e.elems + 1 ∧ e.epochChk = false ∧ bitOf p 46 = false ∧ e.expected.head? = some c.lane ∧ (∀ q ∈ e.pend, q.lane ≠ c.lane) ∧ (e.adding = true ∨ e.writing = true) :=
  ⟨0, [0xB200000000000001, 0, 0, 0], 0, { st := .mixing, puts := [0], reading := true, expected := [0], adding := true }, _, _, { on with tw0 := { svc := .inService, office := { bowls := [(0, { st := .mixing, puts := [0], reading := true, expected := [0], adding := true })] } } }, _, rfl, _, rfl, by decide, rfl, by decide, rfl, by decide⟩

theorem BowlRoundsRun_7_1_witness : ∃ bowl : BitVec 10, ∃ header : List Word64, ∃ p : Nat, ∃ e : Bowl, ∃ h : List Nat, ∃ c : Contrib, ∃ n : Nat, ∃ rest : List Nat, ∃ qs : List Contrib, ∃ a : Block, ∃ x, x = bowl.toNat ∧ ∃ t, t = bowlTwin x ∧ (storesWf a = true ∧ live a t = true ∧ bowlOf a x = e) ∧ h = header.map (·.toNat) ∧ (e.puts = [p] ∧ e.reading = true ∧ e.flushId = none ∧ e.st = .mixing) ∧ c = { block := p % 65536, lane := fld p 54 47, isLast := true, epoch := fld (h.getD 0 0) 47 32, bf16 := bitOf (h.getD 0 0) 19, off := fld (h.getD 1 0) 15 0, count := fld (h.getD 0 0) 16 0 } ∧ (fld (h.getD 0 0) 55 48 = e.ctx ∧ fld (h.getD 0 0) 63 56 = 0xB2 ∧ fld (h.getD 0 0) 31 24 = c.lane ∧ c.count ≠ 0 ∧ c.off + c.count ≤ e.elems + 1 ∧ e.epochChk = false ∧ bitOf p 46 = true ∧ e.expected = c.lane :: n :: rest ∧ (∀ q ∈ e.pend, q.lane ≠ c.lane) ∧ (e.adding = true ∨ e.writing = true)) ∧ qs = e.pend.filter (fun q => q.lane == n) ∧ (∀ q ∈ qs, q.isLast = false) :=
  ⟨0, [0xB200000000000001, 0, 0, 0], 2 ^ 46, { st := .mixing, puts := [2 ^ 46], reading := true, expected := [0, 1], adding := true }, _, _, 1, [], _, { on with tw0 := { svc := .inService, office := { bowls := [(0, { st := .mixing, puts := [2 ^ 46], reading := true, expected := [0, 1], adding := true })] } }, ctxs := [(0, { st := .opened })] }, _, rfl, _, rfl, by decide, rfl, by decide, rfl, by decide, rfl, by decide⟩

theorem BowlRoundsRun_8_1_witness : ∃ bowl : BitVec 10, ∃ header : List Word64, ∃ p : Nat, ∃ e : Bowl, ∃ h : List Nat, ∃ a : Block, ∃ x, x = bowl.toNat ∧ ∃ t, t = bowlTwin x ∧ (storesWf a = true ∧ live a t = true ∧ bowlOf a x = e) ∧ h = header.map (·.toNat) ∧ e.puts = [p] ∧ e.reading = true ∧ e.flushId = none ∧ e.st = .idle ∧ fld (h.getD 0 0) 55 48 = e.ctx ∧ fld (h.getD 0 0) 63 56 = 0xB3 ∧ fld (h.getD 1 0) 15 0 + fld (h.getD 0 0) 16 0 ≤ e.elems + 1 ∧ e.epochChk = false ∧ e.keep = false ∧ e.selected = false ∧ e.pend = [] ∧ e.lanes ≠ 0 :=
  ⟨0, [0xB300000000000000, 0, 0, 0], 0, { st := .idle, puts := [0], reading := true, lanes := 1 }, _, { on with tw0 := { svc := .inService, office := { bowls := [(0, { st := .idle, puts := [0], reading := true, lanes := 1 })] } }, ctxs := [(0, { st := .opened })] }, _, rfl, _, rfl, by decide, rfl, by decide⟩

theorem BowlRoundsRun_9_1_witness : ∃ bowl : BitVec 10, ∃ header : List Word64, ∃ p : Nat, ∃ e : Bowl, ∃ h : List Nat, ∃ a : Block, ∃ x, x = bowl.toNat ∧ ∃ t, t = bowlTwin x ∧ (storesWf a = true ∧ live a t = true ∧ bowlOf a x = e) ∧ h = header.map (·.toNat) ∧ e.puts = [p] ∧ e.reading = true ∧ e.flushId = none ∧ e.st = .idle ∧ fld (h.getD 0 0) 55 48 = e.ctx ∧ fld (h.getD 0 0) 63 56 = 0xB3 ∧ fld (h.getD 1 0) 15 0 + fld (h.getD 0 0) 16 0 ≤ e.elems + 1 ∧ e.epochChk = false ∧ e.keep = true ∧ e.selected = true :=
  ⟨0, [0xB300000000000000, 0, 0, 0], 0, { st := .idle, puts := [0], reading := true, keep := true, selected := true }, _, { on with tw0 := { svc := .inService, office := { bowls := [(0, { st := .idle, puts := [0], reading := true, keep := true, selected := true })] } }, ctxs := [(0, { st := .opened })] }, _, rfl, _, rfl, by decide, rfl, by decide⟩

theorem BowlRoundsRun_10_1_witness : ∃ bowl : BitVec 10, ∃ header : List Word64, ∃ counts : List (BitVec 16), ∃ e : Bowl, ∃ h : List Nat, ∃ n : Nat, ∃ rest : List Nat, ∃ a : Block, ∃ x, x = bowl.toNat ∧ ∃ t, t = bowlTwin x ∧ (storesWf a = true ∧ live a t = true ∧ bowlOf a x = e) ∧ h = header.map (·.toNat) ∧ (e.st = .starting ∧ fld (h.getD 0 0) 63 48 = e.epoch ∧ fld (h.getD 0 0) 47 40 = e.ctx ∧ e.pend = [] ∧ e.puts = []) ∧ selectedLanes e (counts.map (·.toNat)) = n :: rest :=
  ⟨0, [0, 0, 0, 0, 0, 0, 0, 0], [1], { st := .starting, qmask := 1, quarter := 1 }, _, _, _, { on with tw0 := { svc := .inService, office := { bowls := [(0, { st := .starting, qmask := 1, quarter := 1 })] } } }, _, rfl, _, rfl, by decide, rfl, by decide, rfl⟩

theorem BowlRoundsRun_11_1_witness : ∃ bowl : BitVec 10, ∃ header : List Word64, ∃ counts : List (BitVec 16), ∃ e : Bowl, ∃ h : List Nat, ∃ a : Block, ∃ x, x = bowl.toNat ∧ ∃ t, t = bowlTwin x ∧ (storesWf a = true ∧ live a t = true ∧ bowlOf a x = e) ∧ h = header.map (·.toNat) ∧ e.st = .starting ∧ (fld (h.getD 0 0) 63 48 ≠ e.epoch ∨ fld (h.getD 0 0) 47 40 ≠ e.ctx) ∧ (ctxOf a e.ctx).st = .opened :=
  ⟨0, [2 ^ 48, 0, 0, 0, 0, 0, 0, 0], [], { st := .starting }, _, { on with tw0 := { svc := .inService, office := { bowls := [(0, { st := .starting })] } }, ctxs := [(0, { st := .opened })] }, _, rfl, _, rfl, by decide, rfl, by decide⟩

theorem BowlRoundsRun_12_1_witness : ∃ bowl : BitVec 10, ∃ block : List Word32, ∃ result : List Word32, ∃ e : Bowl, ∃ c : Contrib, ∃ rest : List Contrib, ∃ a : Block, ∃ x, x = bowl.toNat ∧ ∃ t, t = bowlTwin x ∧ (storesWf a = true ∧ live a t = true ∧ bowlOf a x = e) ∧ e.commits = c :: rest ∧ e.adding = true ∧ c.count ≤ block.length ∧ c.count ≤ result.length :=
  ⟨0, [0, 0], [0, 0], { commits := [{ count := 2 }], adding := true }, { count := 2 }, _, { on with tw0 := { svc := .inService, office := { bowls := [(0, { commits := [{ count := 2 }], adding := true })] } } }, _, rfl, _, rfl, by decide, rfl, by decide⟩

theorem BowlRoundsRun_13_1_witness : ∃ bowl : BitVec 10, ∃ e : Bowl, ∃ a : Block, ∃ x, x = bowl.toNat ∧ ∃ t, t = bowlTwin x ∧ storesWf a = true ∧ live a t = true ∧ bowlOf a x = e ∧ e.st = .mixing ∧ e.writing = true ∧ e.expected = [] ∧ e.commits = [] ∧ e.puts = [] ∧ e.doneEn = true ∧ homeOf e.doneNode = t :=
  ⟨0, { st := .mixing, writing := true, doneEn := true }, { on with tw0 := { svc := .inService, office := { bowls := [(0, { st := .mixing, writing := true, doneEn := true })] } } }, _, rfl, _, rfl, by decide⟩

theorem BowlRoundsRun_14_1_witness : ∃ bowl : BitVec 10, ∃ e : Bowl, ∃ a : Block, ∃ x, x = bowl.toNat ∧ ∃ t, t = bowlTwin x ∧ storesWf a = true ∧ live a t = true ∧ bowlOf a x = e ∧ e.st ≠ .free ∧ e.st ≠ .faulted ∧ (e.reading = true ∨ e.st = .starting ∨ e.commits ≠ [] ∨ e.writing = true) ∧ (ctxOf a e.ctx).st = .opened :=
  ⟨0, { st := .starting }, { on with tw0 := { svc := .inService, office := { bowls := [(0, { st := .starting })] } }, ctxs := [(0, { st := .opened })] }, _, rfl, _, rfl, by decide⟩

/-! ContextsOpenAndClose -/

theorem ContextsOpenAndClose_1_1_witness : ∃ src : Requester, ∃ home : TwinId, ∃ a : Block, ∃ k, k = ctxSel a ∧ storesWf a = true ∧ served a src blkKey = true ∧ a.phase = 9 ∧ a.mgmt.cmdBusy = false ∧ (ctxOf a k).st = .closed ∧ bitOf (ctxOf a k).owner 63 = true ∧ rangeEn (ctxTw a home k).nodeRange = true ∧ (∀ p ∈ a.ctxs, p.1 ≠ k → p.2.st ≠ .closed → shares a k p.1 = false) :=
  ⟨.archivist .t0, .t0, { on with tw0 := { svc := .inService, ctxs := [(0, { nodeRange := 2 ^ 63 })] }, ctxs := [(0, { owner := 2 ^ 63 })] }, _, rfl, by decide⟩

theorem ContextsOpenAndClose_2_1_witness : ∃ src : Requester, ∃ home : TwinId, ∃ st : Nat, ∃ p : Nat × Ctx, ∃ a : Block, ∃ k, k = ctxSel a ∧ storesWf a = true ∧ served a src blkKey = true ∧ a.phase = 9 ∧ a.mgmt.cmdBusy = false ∧ (((ctxOf a k).st ≠ .closed ∧ st = 1) ∨ ((ctxOf a k).st = .closed ∧ bitOf (ctxOf a k).owner 63 = false ∧ st = 2) ∨ ((ctxOf a k).st = .closed ∧ bitOf (ctxOf a k).owner 63 = true ∧ rangeEn (ctxTw a home k).nodeRange = false ∧ st = 3) ∨ ((ctxOf a k).st = .closed ∧ bitOf (ctxOf a k).owner 63 = true ∧ rangeEn (ctxTw a home k).nodeRange = true ∧ p ∈ a.ctxs ∧ p.1 ≠ k ∧ p.2.st ≠ .closed ∧ shares a k p.1 = true ∧ st = 4)) :=
  ⟨.archivist .t0, .t0, 1, (0, {}), { on with ctxs := [(0, { st := .opened })] }, _, rfl, by decide⟩

theorem ContextsOpenAndClose_3_1_witness : ∃ ctx : CtxId, ∃ a : Block, ∃ k, k = ctx.toNat ∧ storesWf a = true ∧ (ctxOf a k).openPend = true ∧ (ctxOf a k).parked = [] :=
  ⟨0, { on with ctxs := [(0, { openPend := true })] }, _, rfl, by decide⟩

theorem ContextsOpenAndClose_4_1_witness : ∃ src : Requester, ∃ a : Block, ∃ k, k = ctxSel a ∧ ∃ h, h = (ctxOf a k).home ∧ storesWf a = true ∧ served a src blkKey = true ∧ a.phase = 9 ∧ a.mgmt.cmdBusy = false ∧ (ctxOf a k).st = .opened ∧ entriesHeld a h < 64 ∧ hasEntry a h k = false ∧ (ctxTw a h k).fenced = false :=
  ⟨.archivist .t0, { on with ctxs := [(0, { st := .opened })] }, _, rfl, _, rfl, by decide⟩

theorem ContextsOpenAndClose_5_1_witness : ∃ src : Requester, ∃ a : Block, ∃ k, k = ctxSel a ∧ storesWf a = true ∧ served a src blkKey = true ∧ a.phase = 9 ∧ a.mgmt.cmdBusy = false ∧ (ctxOf a k).st = .down :=
  ⟨.archivist .t0, { on with ctxs := [(0, { st := .down })] }, _, rfl, by decide⟩

theorem ContextsOpenAndClose_6_1_witness : ∃ src : Requester, ∃ st : Nat, ∃ a : Block, ∃ k, k = ctxSel a ∧ storesWf a = true ∧ served a src blkKey = true ∧ a.phase = 9 ∧ a.mgmt.cmdBusy = false ∧ (((ctxOf a k).st = .opened ∧ 64 ≤ entriesHeld a (ctxOf a k).home ∧ st = 5) ∨ (((ctxOf a k).st = .fenced ∨ (ctxOf a k).st = .tearing ∨ (ctxOf a k).st = .closed) ∧ st = 1)) :=
  ⟨.archivist .t0, 1, on, _, rfl, by decide⟩

theorem ContextsOpenAndClose_7_1_witness : ∃ src : Requester, ∃ a : Block, ∃ k, k = ctxSel a ∧ ∃ h, h = (ctxOf a k).home ∧ storesWf a = true ∧ served a src blkKey = true ∧ a.phase = 9 ∧ a.mgmt.cmdBusy = false ∧ (ctxOf a k).st = .opened :=
  ⟨.archivist .t0, { on with ctxs := [(0, { st := .opened })] }, _, rfl, _, rfl, by decide⟩

theorem ContextsOpenAndClose_8_1_witness : ∃ src : Requester, ∃ a : Block, ∃ k, k = ctxSel a ∧ storesWf a = true ∧ served a src blkKey = true ∧ a.phase = 9 ∧ a.mgmt.cmdBusy = false ∧ (ctxOf a k).st ≠ .opened :=
  ⟨.archivist .t0, on, _, rfl, by decide⟩

theorem ContextsOpenAndClose_9_1_witness : ∃ src : Requester, ∃ ctx : CtxId, ∃ a : Block, ∃ k, k = ctx.toNat ∧ ∃ h, h = (ctxOf a k).home ∧ storesWf a = true ∧ served a src (ctxKey k) = true ∧ (ctxOf a k).st = .opened ∧ entriesHeld a h < 64 ∧ hasEntry a h k = false ∧ (ctxTw a h k).fenced = false :=
  ⟨.archivist .t0, 0, { on with ctxs := [(0, { st := .opened })] }, _, rfl, _, rfl, by decide⟩

theorem ContextsOpenAndClose_10_1_witness : ∃ src : Requester, ∃ ctx : CtxId, ∃ a : Block, ∃ k, k = ctx.toNat ∧ storesWf a = true ∧ served a src (ctxKey k) = true ∧ (((ctxOf a k).st = .opened ∧ 64 ≤ entriesHeld a (ctxOf a k).home) ∨ (ctxOf a k).st = .fenced ∨ (ctxOf a k).st = .tearing ∨ (ctxOf a k).st = .closed) :=
  ⟨.archivist .t0, 0, on, _, rfl, by decide⟩

/-! FencesAndTeardownsRun -/

theorem FencesAndTeardownsRun_1_1_witness : ∃ t : TwinId, ∃ k : Nat, ∃ c : Bool, ∃ rest : List ControlItem, ∃ a : Block, (storesWf a = true ∧ live a t = true) ∧ (tw a t).ctrlIn = .fence k c :: rest ∧ (ctxOf a k).home = partner t ∧ (ctxTw a t k).fenced = false :=
  ⟨.t0, _, _, _, { on with tw0 := { svc := .inService, ctrlIn := [.fence 3 true] }, ctxs := [(3, { home := .t1 })] }, by decide, rfl, by decide⟩

theorem FencesAndTeardownsRun_2_1_witness : ∃ t : TwinId, ∃ k : Nat, ∃ c : Bool, ∃ rest : List ControlItem, ∃ a : Block, (storesWf a = true ∧ live a t = true) ∧ (tw a t).ctrlIn = .fence k c :: rest ∧ (ctxOf a k).home = t ∧ (ctxOf a k).st = .fenced ∧ (ctxTw a t k).fenced = false ∧ hasEntry a t k = false ∧ entriesHeld a t < 64 :=
  ⟨.t0, _, _, _, { on with tw0 := { svc := .inService, ctrlIn := [.fence 3 true] }, ctxs := [(3, { st := .fenced })] }, by decide, rfl, by decide⟩

theorem FencesAndTeardownsRun_3_1_witness : ∃ t : TwinId, ∃ ctx : CtxId, ∃ a : Block, ∃ k, k = ctx.toNat ∧ storesWf a = true ∧ (ctxTw a t k).fencePend = true ∧ (∀ d ∈ (tw a t).ret.deferred, d.ctx = k → d.holds = false) ∧ (∀ p ∈ (tw a t).sort.slots, p.2.ctx ≠ k) ∧ (∀ h, (tw a t).ret.hand = some h → h.ctx = k → h.ends = .plain) :=
  ⟨.t0, 0, { on with tw0 := { svc := .inService, ctxs := [(0, { fencePend := true })] } }, _, rfl, by decide⟩

theorem FencesAndTeardownsRun_4_1_witness : ∃ t : TwinId, ∃ k : Nat, ∃ x : Nat, ∃ e : FaultEnt, ∃ rest : List FaultEnt, ∃ n : Node, ∃ a : Block, (storesWf a = true ∧ live a t = true ∧ serves a (partner t) = true ∧ (tw a t).combined = []) ∧ (tw a t).faultQ = e :: rest ∧ e.step = .queued ∧ e.ctx = k ∧ e.others = [] ∧ (ctxTw a t k).fenced = true ∧ nodesOf a t k = [x] ∧ x < 524288 ∧ mapGet {} (tw a t).cat.nodes x = n ∧ n.st = .done ∧ n.ctx = k ∧ n.wcount = false ∧ n.locked = false ∧ mapGet 0 (tw a t).sort.bind x = 0 ∧ (∀ p ∈ (tw a t).lard.table, p.2.valid = true → p.2.ctx ≠ k) ∧ (∀ p ∈ (tw a t).shelf.shards, p.2.ctx = k → p.2.st = .free) ∧ (∀ p ∈ (tw a t).sort.slots, p.2.ctx ≠ k) ∧ entriesOf a t k = [] ∧ (∀ p ∈ (tw a t).office.tubes, p.2.ctx = k → p.2.st = .free) ∧ (∀ p ∈ (tw a t).rack.lanes, ∀ c ∈ p.2.copies, c.ctx ≠ k) ∧ (∀ p ∈ (tw a t).office.bowls, p.1 < 512) ∧ (∀ p ∈ (tw a t).ctxs, ∀ c ∈ p.2.holdCopies, c.ctx ≠ k) :=
  ⟨.t0, 0, 5, { ctx := 0 }, _, { st := .done }, { on with tw0 := { svc := .inService, faultQ := [{ ctx := 0 }], ctxs := [(0, { fenced := true })], cat := { nodes := [(5, { st := .done })] } } }, by decide, rfl, by decide⟩

theorem FencesAndTeardownsRun_5_1_witness : ∃ t : TwinId, ∃ k : Nat, ∃ x : Nat, ∃ rest : List ControlItem, ∃ n : Node, ∃ a : Block, (storesWf a = true ∧ live a t = true) ∧ (tw a t).ctrlIn = .tear k :: rest ∧ nodesOf a t k = [x] ∧ x < 524288 ∧ mapGet {} (tw a t).cat.nodes x = n ∧ n.st = .done ∧ n.ctx = k ∧ n.wcount = false ∧ n.locked = false ∧ mapGet 0 (tw a t).sort.bind x = 0 ∧ (∀ p ∈ (tw a t).lard.table, p.2.valid = true → p.2.ctx ≠ k) ∧ (∀ p ∈ (tw a t).shelf.shards, p.2.ctx = k → p.2.st = .free) ∧ (∀ p ∈ (tw a t).sort.slots, p.2.ctx ≠ k) ∧ entriesOf a t k = [] ∧ (∀ p ∈ (tw a t).office.tubes, p.2.ctx = k → p.2.st = .free) ∧ (∀ p ∈ (tw a t).rack.lanes, ∀ c ∈ p.2.copies, c.ctx ≠ k) ∧ (∀ p ∈ (tw a t).office.bowls, p.1 < 512) ∧ (∀ p ∈ (tw a t).ctxs, ∀ c ∈ p.2.holdCopies, c.ctx ≠ k) :=
  ⟨.t0, 0, 5, _, { st := .done }, { on with tw0 := { svc := .inService, ctrlIn := [.tear 0], cat := { nodes := [(5, { st := .done })] } } }, by decide, rfl, by decide⟩

theorem FencesAndTeardownsRun_6_1_witness : ∃ t : TwinId, ∃ k : Nat, ∃ e : FaultEnt, ∃ rest : List FaultEnt, ∃ items : List ControlItem, ∃ a : Block, (tw a t).halted = false ∧ (tw a t).ctrlIn = .swept k :: items ∧ (tw a t).faultQ = e :: rest ∧ e.ctx = k ∧ e.step = .sweep :=
  ⟨.t0, _, { step := .sweep }, _, _, { on with tw0 := { svc := .inService, ctrlIn := [.swept 0], faultQ := [{ step := .sweep }] } }, by decide, rfl, rfl, by decide⟩

theorem FencesAndTeardownsRun_7_1_witness : ∃ t : TwinId, ∃ k : Nat, ∃ e : FaultEnt, ∃ rest : List FaultEnt, ∃ a : Block, (storesWf a = true ∧ live a t = true) ∧ (tw a t).faultQ = e :: rest ∧ e.step = .wait ∧ e.ctx = k ∧ e.others = [] ∧ e.scrubs = [] ∧ (∀ p ∈ a.engines, ∀ w ∈ p.2.tasks, w.ctx ≠ k) ∧ bitOf (reg a blkKey 0x228) 63 = false ∧ ringEn a k = false ∧ bitOf (reg a (ctxKey k) 0x138) 4 = false :=
  ⟨.t0, 0, { step := .wait }, _, { on with tw0 := { svc := .inService, faultQ := [{ step := .wait }] } }, by decide, rfl, by decide⟩

theorem FencesAndTeardownsRun_8_1_witness : ∃ t : TwinId, ∃ k : Nat, ∃ e : FaultEnt, ∃ rest : List FaultEnt, ∃ u : ScrubUnit × Nat, ∃ us : List (ScrubUnit × Nat), ∃ a : Block, (storesWf a = true ∧ live a t = true) ∧ (tw a t).faultQ = e :: rest ∧ (e.step = .wait ∧ e.ctx = k ∧ e.others = [] ∧ (∀ p ∈ a.engines, ∀ w ∈ p.2.tasks, w.ctx ≠ k) ∧ bitOf (reg a blkKey 0x228) 63 = true) ∧ joinUnits (ctxUnits a k) = u :: us :=
  ⟨.t0, 0, { step := .wait }, _, _, _, { on with tw0 := { svc := .inService, faultQ := [{ step := .wait }] }, pages := [(blkKey, { regs := [(0x228, some (2 ^ 63))] }), (ctxKey 0, { regs := [(0x230, some (2 ^ 32))] })] }, by decide, rfl, by decide, rfl⟩

theorem FencesAndTeardownsRun_9_1_witness : ∃ t : TwinId, ∃ k : Nat, ∃ e : FaultEnt, ∃ rest : List FaultEnt, ∃ a : Block, (storesWf a = true ∧ live a t = true) ∧ (tw a t).faultQ = e :: rest ∧ e.step = .wait ∧ e.ctx = k ∧ e.others = [] ∧ (∀ p ∈ a.engines, (∃ w ∈ p.2.tasks, w.ctx = k)) :=
  ⟨.t0, 0, { step := .wait }, _, { on with tw0 := { svc := .inService, faultQ := [{ step := .wait }] } }, by decide, rfl, by decide⟩

theorem FencesAndTeardownsRun_10_1_witness : ∃ t : TwinId, ∃ k : Nat, ∃ e : FaultEnt, ∃ rest : List FaultEnt, ∃ a : Block, (storesWf a = true ∧ live a t = true) ∧ (tw a t).faultQ = e :: rest ∧ e.step = .wait ∧ e.ctx = k ∧ e.others = [] ∧ e.scrubs = [] ∧ (∀ p ∈ a.engines, ∀ w ∈ p.2.tasks, w.ctx ≠ k) ∧ bitOf (reg a blkKey 0x228) 63 = false ∧ ringEn a k = false ∧ bitOf (reg a (ctxKey k) 0x138) 4 = false :=
  ⟨.t0, 0, { step := .wait }, _, { on with tw0 := { svc := .inService, faultQ := [{ step := .wait }] } }, by decide, rfl, by decide⟩

theorem FencesAndTeardownsRun_11_1_witness : ∃ t : TwinId, ∃ k : Nat, ∃ u : ScrubUnit, ∃ v : Word64, ∃ e : FaultEnt, ∃ rest : List FaultEnt, ∃ a : Block, (storesWf a = true ∧ live a t = true) ∧ (tw a t).faultQ = e :: rest ∧ e.step = .scrub ∧ e.ctx = k ∧ e.others = [] ∧ e.scrubs = [u] ∧ bitOf v.toNat 63 = false ∧ ringEn a k = false ∧ bitOf (reg a (ctxKey k) 0x138) 4 = false :=
  ⟨.t0, 0, .hbm 0, 0, { step := .scrub, scrubs := [.hbm 0] }, _, { on with tw0 := { svc := .inService, faultQ := [{ step := .scrub, scrubs := [.hbm 0] }] } }, by decide, rfl, by decide⟩

theorem FencesAndTeardownsRun_12_1_witness : ∃ t : TwinId, ∃ k : Nat, ∃ u : ScrubUnit, ∃ v : Word64, ∃ e : FaultEnt, ∃ rest : List FaultEnt, ∃ a : Block, (storesWf a = true ∧ live a t = true) ∧ (tw a t).faultQ = e :: rest ∧ (e.step = .scrub ∧ e.ctx = k ∧ e.others = [] ∧ e.scrubs = [u] ∧ bitOf v.toNat 63 = false ∧ ringEn a k = true) ∧ ∃ c, c = ctxOf a k ∧ ∃ ring, ring = reg a (ctxKey k) 0x120 ∧ ∃ cfg, cfg = reg a (ctxKey k) 0x138 ∧ ∃ vec, vec = 0x380 + 16 * fld cfg 3 0 ∧ ∃ m, m = reg a (ctxKey k) (vec + 8) ∧ ∃ down, down = (c.tear == .fault) :=
  ⟨.t0, 0, .hbm 0, 0, { step := .scrub, scrubs := [.hbm 0] }, _, { on with tw0 := { svc := .inService, faultQ := [{ step := .scrub, scrubs := [.hbm 0] }] }, pages := [(256, { regs := [(0x120, some (1))] })] }, by decide, rfl, by decide, _, rfl, _, rfl, _, rfl, _, rfl, _, rfl, _, rfl⟩

theorem FencesAndTeardownsRun_13_1_witness : ∃ t : TwinId, ∃ u : ScrubUnit, ∃ answer : Option Word64, ∃ e : FaultEnt, ∃ rest : List FaultEnt, ∃ a : Block, live a t = true ∧ (tw a t).faultQ = e :: rest ∧ (e.step = .scrub ∧ u ∈ e.scrubs) ∧ (∀ v, answer = some v → bitOf v.toNat 63 = true) :=
  ⟨.t0, .hbm 0, none, { step := .scrub, scrubs := [.hbm 0] }, _, { on with tw0 := { svc := .inService, faultQ := [{ step := .scrub, scrubs := [.hbm 0] }] } }, by decide, rfl, by decide, by intro v h; cases h⟩

theorem FencesAndTeardownsRun_14_1_witness : ∃ t : TwinId, ∃ k : Nat, ∃ e : FaultEnt, ∃ rest : List FaultEnt, ∃ a : Block, (storesWf a = true ∧ live a t = true) ∧ (tw a t).faultQ = e :: rest ∧ e.step = .scrub ∧ e.ctx = k ∧ e.others = [] ∧ ringEn a k = false ∧ bitOf (reg a (ctxKey k) 0x138) 4 = false :=
  ⟨.t0, 0, { step := .scrub }, _, { on with tw0 := { svc := .inService, faultQ := [{ step := .scrub }] } }, by decide, rfl, by decide⟩

theorem FencesAndTeardownsRun_15_1_witness : ∃ t : TwinId, ∃ ctx : CtxId, ∃ h : Hand, ∃ i : Nat, ∃ r : CircRec, ∃ c : Completion, ∃ share : Option Nat, ∃ a : Block, storesWf a = true ∧ (ctxTw a t ctx.toNat).fencePend = true ∧ (tw a t).ret.deferred = [] ∧ (tw a t).sort.slots = [] ∧ (tw a t).ret.hand = some h ∧ h.ctx = ctx.toNat ∧ h.ends = .task i r c share ∧ (tw a t).rack.keptNoRec = [] ∧ (ctxTw a t (recOf a t i).ctx).inflHeld = false :=
  ⟨.t0, 3, { ctx := 3, chunks := [[{ word := 6 }]], ends := .task 3 {} {} none }, 3, {}, {}, none, { on with tw0 := { svc := .inService, ctxs := [(3, { fencePend := true })], ret := { hand := some { ctx := 3, chunks := [[{ word := 6 }]], ends := .task 3 {} {} none } }, desk := { recs := [(3, { st := .accepted, node := 5, gen := 1, ctx := 3 })] } } }, by decide⟩

/-! BakeAndNotifierAct -/

theorem BakeAndNotifierAct_1_1_witness : ∃ t : TwinId, ∃ k : Nat, ∃ d : Nat, ∃ c : Nat, ∃ a : Block, ∃ n, n = a.time / bakePeriod a ∧ (storesWf a = true ∧ pendingPages a = [] ∧ serves a t = true ∧ k < 256 ∧ d < 20 ∧ c ≠ 0) ∧ (∀ u, (tw a u).bake.walking = false) ∧ (∀ u, (tw a u).ctxs = []) ∧ (tw a t).bake.caps = [(k * 32 + d, c)] ∧ (tw a (partner t)).bake.caps = [] :=
  ⟨.t0, 3, 2, 7, { on with tw0 := { svc := .inService, bake := { caps := [(98, 7)] } } }, _, rfl, by decide, by intro u; cases u <;> rfl, by intro u; cases u <;> rfl, by decide⟩

theorem BakeAndNotifierAct_2_1_witness : ∃ src : Requester, ∃ t : TwinId, ∃ acc : Access, ∃ value : Word64, ∃ a : Block, ∃ x, x = fld (reg a (twKey t bakeP) 0x100) 9 0 ∧ ∃ v, v = mergeAcc (mapGet 0 (tw a t).bake.slots x) acc value.toNat ∧ storesWf a = true ∧ served a src (twKey t bakeP) = true ∧ fld v 54 50 ≤ 19 ∧ fld v 49 40 ≤ fld v 39 30 :=
  ⟨.archivist .t0, .t0, .full, 0, on, _, rfl, _, rfl, by decide⟩

theorem BakeAndNotifierAct_3_1_witness : ∃ src : Requester, ∃ t : TwinId, ∃ acc : Access, ∃ value : Word64, ∃ a : Block, ∃ x, x = fld (reg a (twKey t bakeP) 0x100) 9 0 ∧ ∃ v, v = mergeAcc (mapGet 0 (tw a t).bake.slots x) acc value.toNat ∧ storesWf a = true ∧ served a src (twKey t bakeP) = true ∧ (19 < fld v 54 50 ∨ fld v 39 30 < fld v 49 40) :=
  ⟨.archivist .t0, .t0, .full, 20 * 2 ^ 50, on, _, rfl, _, rfl, by decide⟩

theorem BakeAndNotifierAct_4_1_witness : ∃ ctx : CtxId, ∃ r : NotifyReq, ∃ rest : List NotifyReq, ∃ a : Block, ∃ k, k = ctx.toNat ∧ storesWf a = true ∧ (ctxOf a k).notifyQ = r :: rest ∧ unfenced a (homeOf r.node) k = true ∧ ringEn a k = true ∧ occupancy (ctxOf a k).head (ctxOf a k).tail < 2 ^ ringLog a k - 1 ∧ bitOf r.layer 4 = false :=
  ⟨0, {}, _, { on with ctxs := [(0, { notifyQ := [{}] })], pages := [(ctxKey 0, { regs := [(0x120, some 1)] })] }, _, rfl, by decide, rfl, by decide⟩

theorem BakeAndNotifierAct_5_1_witness : ∃ ctx : CtxId, ∃ r : NotifyReq, ∃ rest : List NotifyReq, ∃ a : Block, ∃ k, k = ctx.toNat ∧ storesWf a = true ∧ (ctxOf a k).notifyQ = r :: rest ∧ unfenced a (homeOf r.node) k = true ∧ ringEn a k = false ∧ bitOf r.layer 4 = true ∧ bitOf (reg a (ctxKey k) (0x388 + 16 * fld r.layer 3 0)) 63 = false :=
  ⟨0, { layer := 16 }, _, { on with ctxs := [(0, { notifyQ := [{ layer := 16 }] })], pages := [(ctxKey 0, { regs := [(0x388, some 0)] })] }, _, rfl, by decide, rfl, by decide⟩

theorem BakeAndNotifierAct_6_1_witness : ∃ ctx : CtxId, ∃ r : NotifyReq, ∃ rest : List NotifyReq, ∃ a : Block, ∃ k, k = ctx.toNat ∧ storesWf a = true ∧ (ctxOf a k).notifyQ = r :: rest ∧ unfenced a (homeOf r.node) k = true ∧ ringEn a k = true ∧ 2 ^ ringLog a k - 1 ≤ occupancy (ctxOf a k).head (ctxOf a k).tail :=
  ⟨0, {}, _, { on with ctxs := [(0, { notifyQ := [{}], head := 15 })], pages := [(ctxKey 0, { regs := [(0x120, some 1)] })] }, _, rfl, by decide, rfl, by decide⟩

theorem BakeAndNotifierAct_7_1_witness : ∃ src : Requester, ∃ ctx : CtxId, ∃ vec : BitVec 4, ∃ acc : Access, ∃ value : Word64, ∃ a : Block, ∃ k, k = ctx.toNat ∧ ∃ off, off = 0x388 + 16 * vec.toNat ∧ (storesWf a = true ∧ served a src (ctxKey k) = true) ∧ acc = .full ∧ bitOf (reg a (ctxKey k) off) 62 = true ∧ bitOf value.toNat 63 = false :=
  ⟨.archivist .t0, 0, 0, .full, 0, { on with pages := [(ctxKey 0, { regs := [(0x388, some (2 ^ 63 + 2 ^ 62))] })] }, _, rfl, _, rfl, by decide, rfl, by decide⟩

theorem BakeAndNotifierAct_8_1_witness : ∃ src : Requester, ∃ ctx : CtxId, ∃ acc : Access, ∃ value : Word64, ∃ a : Block, ∃ k, k = ctx.toNat ∧ ∃ v, v = value.toNat % 2 ^ 32 ∧ storesWf a = true ∧ served a src (ctxKey k) = true ∧ covers acc 0 = true ∧ occupancy (ctxOf a k).head v ≤ 2 ^ ringLog a k :=
  ⟨.archivist .t0, 0, .full, 0, on, _, rfl, _, rfl, by decide⟩

theorem BakeAndNotifierAct_9_1_witness : ∃ src : Requester, ∃ ctx : CtxId, ∃ acc : Access, ∃ value : Word64, ∃ a : Block, ∃ k, k = ctx.toNat ∧ storesWf a = true ∧ served a src (ctxKey k) = true ∧ covers acc 0 = true ∧ 2 ^ ringLog a k < occupancy (ctxOf a k).head (value.toNat % 2 ^ 32) :=
  ⟨.archivist .t0, 0, .full, 1, on, _, rfl, by decide⟩

theorem BakeAndNotifierAct_10_1_witness : ∃ port : BitVec 3, ∃ fn : BitVec 8, ∃ addr : BitVec 26, ∃ isRead : Bool, ∃ a : Block, ∃ k, ∃ off, storesWf a = true ∧ placeOf addr.toNat = .page k off ∧ held a (.host port fn) = false ∧ gradeOf a (.host port fn) (if 256 ≤ k then some (k - 256) else none) = .denied :=
  ⟨1, 2, 0x400000, true, on, 256, 0, by decide⟩

/-! ThreadPortWordsAct -/

theorem ThreadPortWordsAct_1_1_witness : ∃ core : BitVec 3, ∃ a : Block, ∃ c, c = core.toNat ∧ storesWf a = true ∧ a.boot.gated = false ∧ (coreOf a c).running = none ∧ (coreOf a c).inService = true ∧ (coreOf a c).asking = false ∧ deskAsked a .t0 = true ∧ deskAsked a .t1 = true :=
  ⟨0, { on with arb := { cores := [(0, { inService := true })] } }, _, rfl, by decide⟩

theorem ThreadPortWordsAct_2_1_witness : ∃ core : BitVec 3, ∃ a : Block, ∃ c, c = core.toNat ∧ (coreOf a c).running = none ∧ (coreOf a c).asking = true :=
  ⟨0, { on with arb := { cores := [(0, { asking := true })] } }, _, rfl, by decide⟩

theorem ThreadPortWordsAct_3_1_witness : ∃ core : BitVec 3, ∃ thread : BitVec 12, ∃ asks : Bool, ∃ a : Block, ∃ c, c = core.toNat ∧ ∃ x, x = thread.toNat ∧ ∃ t, t = threadTwin x ∧ ∃ e, e = x % 2048 ∧ storesWf a = true ∧ a.boot.gated = false ∧ (tw a t).halted = false ∧ (coreOf a c).running = some x ∧ a.arb.removing ≠ some c ∧ (tw a t).thrd.asks = [] ∧ (asks = true → mayAsk a c = true) ∧ (coreOf a c).preempt = none :=
  ⟨0, 0, false, { on with arb := { cores := [(0, { running := some 0 })] } }, _, rfl, _, rfl, _, rfl, _, rfl, by decide⟩

theorem ThreadPortWordsAct_4_1_witness : ∃ core : BitVec 3, ∃ thread : BitVec 12, ∃ asks : Bool, ∃ arg : Word32, ∃ a : Block, ∃ c, c = core.toNat ∧ ∃ x, x = thread.toNat ∧ ∃ t, t = threadTwin x ∧ ∃ e, e = x % 2048 ∧ storesWf a = true ∧ a.boot.gated = false ∧ (tw a t).halted = false ∧ (coreOf a c).running = some x ∧ a.arb.removing ≠ some c ∧ (tw a t).thrd.asks = [] ∧ (asks = true → mayAsk a c = true) ∧ (coreOf a c).preempt = none ∧ (threadOf a x).wakePend = false ∧ arg.toNat ≠ 0 ∧ (tw a t).thrd.delays = [] :=
  ⟨0, 0, false, 5, { on with arb := { cores := [(0, { running := some 0 })] } }, _, rfl, _, rfl, _, rfl, _, rfl, by decide⟩

theorem ThreadPortWordsAct_5_1_witness : ∃ core : BitVec 3, ∃ thread : BitVec 12, ∃ asks : Bool, ∃ arg : Word32, ∃ a : Block, ∃ c, c = core.toNat ∧ ∃ x, x = thread.toNat ∧ ∃ t, t = threadTwin x ∧ ∃ e, e = x % 2048 ∧ storesWf a = true ∧ a.boot.gated = false ∧ (tw a t).halted = false ∧ (coreOf a c).running = some x ∧ a.arb.removing ≠ some c ∧ (tw a t).thrd.asks = [] ∧ (asks = true → mayAsk a c = true) ∧ (coreOf a c).preempt = none ∧ (threadOf a x).wakePend = true :=
  ⟨0, 0, false, 0, { on with tw0 := { svc := .inService, thrd := { ents := [(0, { wakePend := true })] } }, arb := { cores := [(0, { running := some 0 })] } }, _, rfl, _, rfl, _, rfl, _, rfl, by decide⟩

theorem ThreadPortWordsAct_6_1_witness : ∃ core : BitVec 3, ∃ thread : BitVec 12, ∃ asks : Bool, ∃ arg : Word32, ∃ a : Block, ∃ c, c = core.toNat ∧ ∃ x, x = thread.toNat ∧ ∃ t, t = threadTwin x ∧ ∃ e, e = x % 2048 ∧ storesWf a = true ∧ a.boot.gated = false ∧ (tw a t).halted = false ∧ (coreOf a c).running = some x ∧ a.arb.removing ≠ some c ∧ (tw a t).thrd.asks = [] ∧ (asks = true → mayAsk a c = true) ∧ (coreOf a c).preempt = none ∧ arg.toNat ≠ 0 ∧ (tw a t).thrd.delays = [] :=
  ⟨0, 0, false, 5, { on with arb := { cores := [(0, { running := some 0 })] } }, _, rfl, _, rfl, _, rfl, _, rfl, by decide⟩

theorem ThreadPortWordsAct_7_1_witness : ∃ core : BitVec 3, ∃ thread : BitVec 12, ∃ asks : Bool, ∃ a : Block, ∃ c, c = core.toNat ∧ ∃ x, x = thread.toNat ∧ ∃ t, t = threadTwin x ∧ ∃ e, e = x % 2048 ∧ storesWf a = true ∧ a.boot.gated = false ∧ (tw a t).halted = false ∧ (coreOf a c).running = some x ∧ a.arb.removing ≠ some c ∧ (tw a t).thrd.asks = [] ∧ (asks = true → mayAsk a c = true) ∧ (coreOf a c).preempt = some (x, .level) :=
  ⟨0, 0, false, { on with arb := { cores := [(0, { running := some 0, preempt := some (0, .level) })] } }, _, rfl, _, rfl, _, rfl, _, rfl, by decide⟩

theorem ThreadPortWordsAct_8_1_witness : ∃ core : BitVec 3, ∃ thread : BitVec 12, ∃ asks : Bool, ∃ a : Block, ∃ c, c = core.toNat ∧ ∃ x, x = thread.toNat ∧ ∃ t, t = threadTwin x ∧ ∃ e, e = x % 2048 ∧ storesWf a = true ∧ a.boot.gated = false ∧ (tw a t).halted = false ∧ (coreOf a c).running = some x ∧ a.arb.removing ≠ some c ∧ (tw a t).thrd.asks = [] ∧ (asks = true → mayAsk a c = true) ∧ (coreOf a c).preempt = some (x, .slice) :=
  ⟨0, 0, false, { on with arb := { cores := [(0, { running := some 0, preempt := some (0, .slice) })] } }, _, rfl, _, rfl, _, rfl, _, rfl, by decide⟩

theorem ThreadPortWordsAct_9_1_witness : ∃ core : BitVec 3, ∃ thread : BitVec 12, ∃ asks : Bool, ∃ a : Block, ∃ c, c = core.toNat ∧ ∃ x, x = thread.toNat ∧ ∃ t, t = threadTwin x ∧ ∃ e, e = x % 2048 ∧ storesWf a = true ∧ a.boot.gated = false ∧ (tw a t).halted = false ∧ (coreOf a c).running = some x ∧ a.arb.removing ≠ some c ∧ (tw a t).thrd.asks = [] ∧ (asks = true → mayAsk a c = true) ∧ (coreOf a c).preempt = none :=
  ⟨0, 0, false, { on with arb := { cores := [(0, { running := some 0 })] } }, _, rfl, _, rfl, _, rfl, _, rfl, by decide⟩

theorem ThreadPortWordsAct_10_1_witness : ∃ core : BitVec 3, ∃ thread : BitVec 12, ∃ asks : Bool, ∃ a : Block, ∃ c, c = core.toNat ∧ ∃ x, x = thread.toNat ∧ ∃ t, t = threadTwin x ∧ ∃ e, e = x % 2048 ∧ storesWf a = true ∧ a.boot.gated = false ∧ (tw a t).halted = false ∧ (coreOf a c).running = some x ∧ a.arb.removing ≠ some c ∧ (tw a t).thrd.asks = [] ∧ (asks = true → mayAsk a c = true) ∧ (coreOf a c).preempt = none ∧ (∀ q ∈ (tw a t).thrd.reserved, q.1 ≠ e) :=
  ⟨0, 0, false, { on with arb := { cores := [(0, { running := some 0 })] } }, _, rfl, _, rfl, _, rfl, _, rfl, by decide⟩

theorem ThreadPortWordsAct_11_1_witness : ∃ core : BitVec 3, ∃ thread : BitVec 12, ∃ asks : Bool, ∃ arg : Word32, ∃ c : Instr, ∃ a : Block, c ∈ [.reportYield core thread asks, .reportWait core thread asks arg, .reportDelay core thread asks arg, .reportPreempted core thread asks, .reportExit core thread asks, .reportFault core thread asks] ∧ ∃ n, n = core.toNat ∧ ∃ x, x = thread.toNat ∧ ∃ t, t = threadTwin x ∧ storesWf a = true ∧ a.boot.gated = false ∧ (tw a t).halted = false ∧ (coreOf a n).running ≠ some x ∧ (asks = true → (coreOf a n).running = none ∧ mayAsk a n = true) :=
  ⟨0, 0, false, 0, .reportYield 0 0 false, on, by decide, _, rfl, _, rfl, _, rfl, by decide⟩

theorem ThreadPortWordsAct_12_1_witness : ∃ core : BitVec 3, ∃ thread : BitVec 12, ∃ arg : Word32, ∃ y : Nat, ∃ c : Instr, ∃ a : Block, (c = .ask core ∨ (∃ asks, asks = true ∧ c ∈ [.reportYield core thread asks, .reportWait core thread asks arg, .reportDelay core thread asks arg, .reportPreempted core thread asks, .reportExit core thread asks, .reportFault core thread asks])) ∧ ∃ n, n = core.toNat ∧ ∃ t, t = threadTwin y ∧ ∃ e, e = y % 2048 ∧ (storesWf a = true ∧ a.boot.gated = false) ∧ (∀ u, (tw a u).halted = false) ∧ (coreOf a n).running = some y ∧ (c = .ask core ∨ thread.toNat ≠ y) ∧ mayAsk a n = true ∧ (coreOf a n).asking = false ∧ (coreOf a n).preempt = none ∧ a.arb.removing ≠ some n ∧ (tw a t).thrd.asks = [] ∧ (∀ q ∈ (tw a t).thrd.reserved, q.1 ≠ e) :=
  ⟨0, 0, 0, 0, .ask 0, { on with arb := { cores := [(0, { running := some 0, inService := true })] } }, .inl rfl, _, rfl, _, rfl, _, rfl, by decide, fun u => by cases u <;> decide, by decide⟩

theorem ThreadPortWordsAct_13_1_witness : ∃ core : BitVec 3, ∃ thread : BitVec 12, ∃ asks : Bool, ∃ a : Block, ∃ c, c = core.toNat ∧ ∃ x, x = thread.toNat ∧ ∃ t, t = threadTwin x ∧ ∃ e, e = x % 2048 ∧ storesWf a = true ∧ a.boot.gated = false ∧ (tw a t).halted = false ∧ (coreOf a c).running = some x ∧ a.arb.removing ≠ some c ∧ (tw a t).thrd.asks = [] ∧ (asks = true → mayAsk a c = true) ∧ (coreOf a c).preempt = none :=
  ⟨0, 0, false, { on with arb := { cores := [(0, { running := some 0 })] } }, _, rfl, _, rfl, _, rfl, _, rfl, by decide⟩

theorem ThreadPortWordsAct_14_1_witness : ∃ core : BitVec 3, ∃ thread : BitVec 12, ∃ a : Block, ∃ c, c = core.toNat ∧ ∃ x, x = thread.toNat ∧ ∃ y, storesWf a = true ∧ a.boot.gated = false ∧ (coreOf a c).running = some y ∧ (tw a (threadTwin y)).halted = false ∧ threadTwin y = threadTwin x :=
  ⟨0, 0, { on with arb := { cores := [(0, { running := some 0 })] } }, _, rfl, _, rfl, 0, by decide⟩

theorem ThreadPortWordsAct_14_2_witness : ∃ core : BitVec 3, ∃ thread : BitVec 12, ∃ a : Block, ∃ c, c = core.toNat ∧ ∃ x, x = thread.toNat ∧ ∃ y, storesWf a = true ∧ a.boot.gated = false ∧ (coreOf a c).running = some y ∧ (tw a (threadTwin y)).halted = false ∧ threadTwin y ≠ threadTwin x ∧ serves a (threadTwin x) = true :=
  ⟨0, 2048, { on with arb := { cores := [(0, { running := some 0 })] } }, _, rfl, _, rfl, 0, by decide⟩

theorem ThreadPortWordsAct_15_1_witness : ∃ t : TwinId, ∃ x : Nat, ∃ w : WakeSrc, ∃ rest : List EdgeItem, ∃ a : Block, ∃ e, e = x % 2048 ∧ (storesWf a = true ∧ live a t = true) ∧ (tw a t).edgeIn = .wake x w :: rest ∧ threadTwin x = t ∧ (tw a t).thrd.asks = [] ∧ w.free = true ∧ (threadOf a x).st = .waiting ∧ (threadOf a x).wakePend = false :=
  ⟨.t0, 0, { free := true }, _, { on with tw0 := { svc := .inService, edgeIn := [.wake 0 { free := true }], thrd := { ents := [(0, { st := .waiting })] } } }, _, rfl, by decide, rfl, by decide⟩

theorem ThreadPortWordsAct_16_1_witness : ∃ t : TwinId, ∃ x : Nat, ∃ w : WakeSrc, ∃ rest : List EdgeItem, ∃ a : Block, ∃ e, e = x % 2048 ∧ (storesWf a = true ∧ live a t = true) ∧ (tw a t).edgeIn = .wake x w :: rest ∧ threadTwin x = t ∧ (tw a t).thrd.asks = [] ∧ w.free = true ∧ (threadOf a x).st = .running ∧ (threadOf a x).wakePend = false :=
  ⟨.t0, 0, { free := true }, _, { on with tw0 := { svc := .inService, edgeIn := [.wake 0 { free := true }], thrd := { ents := [(0, { st := .running })] } } }, _, rfl, by decide, rfl, by decide⟩

theorem ThreadPortWordsAct_17_1_witness : ∃ t : TwinId, ∃ x : Nat, ∃ w : WakeSrc, ∃ rest : List EdgeItem, ∃ a : Block, ∃ e, e = x % 2048 ∧ (storesWf a = true ∧ live a t = true) ∧ (tw a t).edgeIn = .wake x w :: rest ∧ threadTwin x = t ∧ (tw a t).thrd.asks = [] ∧ w.free = false ∧ w.ctxV = true ∧ (threadOf a x).ctxV = false :=
  ⟨.t0, 0, { ctxV := true }, _, { on with tw0 := { svc := .inService, edgeIn := [.wake 0 { ctxV := true }] } }, _, rfl, by decide, rfl, by decide⟩

/-! ThreadCommandsAct -/

theorem ThreadCommandsAct_1_1_witness : ∃ src : Requester, ∃ t : TwinId, ∃ start : Bool, ∃ a : Block, ∃ x, x = threadSel a t ∧ ∃ e, e = x % 2048 ∧ ∃ d, d = dataThread (reg a (twKey t thrdP) 0x118) ∧ storesWf a = true ∧ served a src (twKey t thrdP) = true ∧ thrdTakes a t = true ∧ threadTwin x = t ∧ (threadOf a x).st = .free ∧ d.aff ≤ 8 ∧ (tw a t).thrd.asks = [] :=
  ⟨.archivist .t0, .t0, true, on, _, rfl, _, rfl, _, rfl, by decide⟩

theorem ThreadCommandsAct_2_1_witness : ∃ src : Requester, ∃ t : TwinId, ∃ start : Bool, ∃ a : Block, ∃ x, x = threadSel a t ∧ served a src (twKey t thrdP) = true ∧ thrdTakes a t = true ∧ threadTwin x ≠ t :=
  ⟨.archivist .t0, .t0, true, { on with pages := [(27, { regs := [(0x110, some 2048)] })] }, _, rfl, by decide⟩

theorem ThreadCommandsAct_2_2_witness : ∃ src : Requester, ∃ t : TwinId, ∃ start : Bool, ∃ a : Block, ∃ x, x = threadSel a t ∧ served a src (twKey t thrdP) = true ∧ thrdTakes a t = true ∧ threadTwin x = t ∧ (threadOf a x).st ≠ .free :=
  ⟨.archivist .t0, .t0, true, { on with tw0 := { svc := .inService, thrd := { ents := [(0, { st := .waiting })] } } }, _, rfl, by decide⟩

theorem ThreadCommandsAct_2_3_witness : ∃ src : Requester, ∃ t : TwinId, ∃ start : Bool, ∃ a : Block, ∃ x, x = threadSel a t ∧ served a src (twKey t thrdP) = true ∧ thrdTakes a t = true ∧ threadTwin x = t ∧ (threadOf a x).st = .free ∧ 8 < (dataThread (reg a (twKey t thrdP) 0x118)).aff :=
  ⟨.archivist .t0, .t0, true, { on with pages := [(27, { regs := [(0x118, some (9 * 2 ^ 47))] })] }, _, rfl, by decide⟩

theorem ThreadCommandsAct_3_1_witness : ∃ src : Requester, ∃ t : TwinId, ∃ a : Block, ∃ x, x = threadSel a t ∧ ∃ e, e = x % 2048 ∧ storesWf a = true ∧ served a src (twKey t thrdP) = true ∧ thrdTakes a t = true ∧ threadTwin x = t ∧ (threadOf a x).st ≠ .free ∧ runsOn a x = none ∧ (∀ q ∈ (tw a t).thrd.reserved, q.1 ≠ e) :=
  ⟨.archivist .t0, .t0, { on with tw0 := { svc := .inService, thrd := { ents := [(0, { st := .waiting })] } } }, _, rfl, _, rfl, by decide⟩

theorem ThreadCommandsAct_4_1_witness : ∃ src : Requester, ∃ t : TwinId, ∃ c : Nat, ∃ a : Block, ∃ x, x = threadSel a t ∧ storesWf a = true ∧ served a src (twKey t thrdP) = true ∧ thrdTakes a t = true ∧ threadTwin x = t ∧ (threadOf a x).st ≠ .free ∧ runsOn a x = some c ∧ (coreOf a c).running = some x ∧ (coreOf a c).preempt = none :=
  ⟨.archivist .t0, .t0, 0, { on with tw0 := { svc := .inService, thrd := { ents := [(0, { st := .running })] } }, arb := { cores := [(0, { running := some 0 })] } }, _, rfl, by decide⟩

theorem ThreadCommandsAct_5_1_witness : ∃ src : Requester, ∃ t : TwinId, ∃ a : Block, ∃ x, x = threadSel a t ∧ ∃ e, e = x % 2048 ∧ ∃ d, d = dataThread (reg a (twKey t thrdP) 0x118) ∧ storesWf a = true ∧ served a src (twKey t thrdP) = true ∧ thrdTakes a t = true ∧ threadTwin x = t ∧ ((threadOf a x).st = .waiting ∨ (threadOf a x).st = .ready) ∧ d.aff ≤ 8 ∧ runsOn a x = none ∧ (tw a t).thrd.asks = [] :=
  ⟨.archivist .t0, .t0, { on with tw0 := { svc := .inService, thrd := { ents := [(0, { st := .waiting })] } } }, _, rfl, _, rfl, _, rfl, by decide⟩

theorem ThreadCommandsAct_6_1_witness : ∃ src : Requester, ∃ t : TwinId, ∃ a : Block, ∃ x, x = threadSel a t ∧ ∃ e, e = x % 2048 ∧ storesWf a = true ∧ served a src (twKey t thrdP) = true ∧ thrdTakes a t = true ∧ threadTwin x = t ∧ (threadOf a x).st = .waiting ∧ (threadOf a x).wakePend = false ∧ (tw a t).thrd.asks = [] :=
  ⟨.archivist .t0, .t0, { on with tw0 := { svc := .inService, thrd := { ents := [(0, { st := .waiting })] } } }, _, rfl, _, rfl, by decide⟩

theorem ThreadCommandsAct_7_1_witness : ∃ src : Requester, ∃ t : TwinId, ∃ a : Block, ∃ x, x = threadSel a t ∧ ∃ d, d = dataThread (reg a (twKey t thrdP) 0x118) ∧ ∃ c, (storesWf a = true ∧ served a src (twKey t thrdP) = true ∧ thrdTakes a t = true ∧ threadTwin x = t ∧ (threadOf a x).st = .running ∧ d.aff ≤ 8) ∧ runsOn a x = some c :=
  ⟨.archivist .t0, .t0, { on with tw0 := { svc := .inService, thrd := { ents := [(0, { st := .running })] } }, arb := { cores := [(0, { running := some 0 })] } }, _, rfl, _, rfl, _, by decide, rfl⟩

theorem ThreadCommandsAct_8_1_witness : ∃ src : Requester, ∃ t : TwinId, ∃ c : Instr, ∃ a : Block, c ∈ [.threadDestroy src t, .threadSet src t, .threadCmdWake src t, .threadQuery src t] ∧ ∃ x, x = threadSel a t ∧ ∃ st, served a src (twKey t thrdP) = true ∧ thrdTakes a t = true ∧ ((threadTwin x ≠ t ∧ st = 1) ∨ (c ≠ .threadQuery src t ∧ threadTwin x = t ∧ (threadOf a x).st = .free ∧ st = 4) ∨ (c = .threadSet src t ∧ threadTwin x = t ∧ (threadOf a x).st ≠ .free ∧ 8 < (dataThread (reg a (twKey t thrdP) 0x118)).aff ∧ st = 3)) :=
  ⟨.archivist .t0, .t1, .threadQuery (.archivist .t0) .t1, on, by decide, _, rfl, 1, by decide⟩

theorem ThreadCommandsAct_9_1_witness : ∃ src : Requester, ∃ t : TwinId, ∃ a : Block, ∃ x, x = threadSel a t ∧ storesWf a = true ∧ served a src (twKey t thrdP) = true ∧ thrdTakes a t = true ∧ threadTwin x = t :=
  ⟨.archivist .t0, .t0, on, _, rfl, by decide⟩

theorem ThreadCommandsAct_10_1_witness : ∃ src : Requester, ∃ t : TwinId, ∃ core : BitVec 3, ∃ a : Block, ∃ c, c = core.toNat ∧ storesWf a = true ∧ served a src (twKey t thrdP) = true ∧ a.arb.removing = none ∧ (coreOf a c).running = none :=
  ⟨.archivist .t0, .t0, 0, on, _, rfl, by decide⟩

theorem ThreadCommandsAct_10_2_witness : ∃ src : Requester, ∃ t : TwinId, ∃ core : BitVec 3, ∃ a : Block, ∃ c, c = core.toNat ∧ (storesWf a = true ∧ served a src (twKey t thrdP) = true ∧ a.arb.removing = none) ∧ ∃ x, (coreOf a c).running = some x ∧ (coreOf a c).preempt = none :=
  ⟨.archivist .t0, .t0, 0, { on with arb := { cores := [(0, { running := some 0 })] } }, _, rfl, by decide, 0, by decide⟩

theorem ThreadCommandsAct_11_1_witness : ∃ src : Requester, ∃ t : TwinId, ∃ core : BitVec 3, ∃ a : Block, ∃ c, c = core.toNat ∧ storesWf a = true ∧ served a src (twKey t thrdP) = true ∧ a.arb.removing = none ∧ (coreOf a c).inService = false :=
  ⟨.archivist .t0, .t0, 0, on, _, rfl, by decide⟩

/-! DeskAndArbiterAct -/

theorem DeskAndArbiterAct_1_1_witness : ∃ t : TwinId, ∃ c : Nat, ∃ e : Nat, ∃ rest : List DeskMsg, ∃ h : Thread, ∃ a : Block, (storesWf a = true ∧ deskAsked a t = true) ∧ (tw a t).thrd.deskIn = .ask c :: rest ∧ c < 8 ∧ e < 2048 ∧ bitOf (reg a (twKey t thrdP) 0x100) 63 = true ∧ (tw a t).thrd.ready = [e] ∧ (tw a t).thrd.reserved = [] ∧ mapGet {} (tw a t).thrd.ents e = h ∧ (h.aff = c ∨ h.aff = 8) :=
  ⟨.t0, 0, 0, _, {}, { on with tw0 := { svc := .inService, thrd := { deskIn := [.ask 0], ready := [0] } }, pages := [(27, { regs := [(0x100, some (2 ^ 63))] })] }, by decide, rfl, by decide⟩

theorem DeskAndArbiterAct_2_1_witness : ∃ t : TwinId, ∃ c : Nat, ∃ rest : List DeskMsg, ∃ a : Block, deskAsked a t = true ∧ (tw a t).thrd.deskIn = .ask c :: rest ∧ (bitOf (reg a (twKey t thrdP) 0x100) 63 = false ∨ (tw a t).thrd.ready = []) ∧ c ∉ (tw a t).thrd.asks :=
  ⟨.t0, 0, _, { on with tw0 := { svc := .inService, thrd := { deskIn := [.ask 0] } } }, by decide, rfl, by decide⟩

theorem DeskAndArbiterAct_3_1_witness : ∃ t : TwinId, ∃ c : Nat, ∃ o : ThreadOffer, ∃ rest : List ArbMsg, ∃ a : Block, ∃ x, x = o.thread ∧ storesWf a = true ∧ (tw a t).thrd.arbIn = .offer c o :: rest ∧ (threadTwin x = t ∧ (x % 2048, c) ∈ (tw a t).thrd.reserved ∧ (coreOf a c).asking = true ∧ (coreOf a c).inService = true ∧ (coreOf a c).window = false ∧ offersOf (coreOf a c) = [] ∧ replyOf (coreOf a c) (partner t) = .none ∧ (o.asked = true ∨ rivalShown a (partner t) c o.level = false ∨ deskAsked a (partner t) = false)) ∧ ∃ w, w = Output.threadWord (grantWordOf a c x) ∧ bookOn a t = false :=
  ⟨.t0, 0, {}, _, { on with tw0 := { svc := .inService, thrd := { arbIn := [.offer 0 {}], reserved := [(0, 0)] } }, tw1 := { svc := .fatal }, arb := { cores := [(0, { asking := true, inService := true, reply1 := .none })] } }, _, rfl, by decide, rfl, by decide, _, rfl, by decide⟩

theorem DeskAndArbiterAct_4_1_witness : ∃ t : TwinId, ∃ c : Nat, ∃ o : ThreadOffer, ∃ rest : List ArbMsg, ∃ a : Block, storesWf a = true ∧ (tw a t).thrd.arbIn = .offer c o :: rest ∧ threadTwin o.thread = t ∧ (o.thread % 2048, c) ∈ (tw a t).thrd.reserved ∧ (coreOf a c).asking = true ∧ (coreOf a c).inService = true ∧ (coreOf a c).window = false ∧ offersOf (coreOf a c) = [] ∧ replyOf (coreOf a c) (partner t) = .none ∧ o.asked = false ∧ deskAsked a (partner t) = true ∧ rivalShown a (partner t) c o.level = true :=
  ⟨.t0, 0, {}, _, { on with tw0 := { svc := .inService, thrd := { arbIn := [.offer 0 {}], reserved := [(0, 0)] } }, arb := { sum1 := [(0, 1)], cores := [(0, { asking := true, inService := true, reply1 := .none })] } }, by decide, rfl, by decide⟩

theorem DeskAndArbiterAct_5_1_witness : ∃ t : TwinId, ∃ c : Nat, ∃ x : Nat, ∃ o : ThreadOffer, ∃ p : ThreadOffer, ∃ win : ThreadOffer, ∃ lose : ThreadOffer, ∃ rest : List ArbMsg, ∃ a : Block, storesWf a = true ∧ (tw a t).thrd.arbIn = .offer c o :: rest ∧ (threadTwin o.thread = t ∧ threadTwin p.thread = partner t ∧ (o.thread % 2048, c) ∈ (tw a t).thrd.reserved ∧ (coreOf a c).asking = true ∧ (coreOf a c).inService = true ∧ (replyOf (coreOf a c) t = .awaited ∨ replyOf (coreOf a c) t = .none) ∧ replyOf (coreOf a c) (partner t) = .offered p) ∧ ((beats o p ∧ win = o ∧ lose = p) ∨ (¬ beats o p ∧ win = p ∧ lose = o)) ∧ x = win.thread ∧ ∃ w, w = Output.threadWord (grantWordOf a c x) ∧ bookOn a (threadTwin x) = false :=
  ⟨.t0, 0, _, {}, { thread := 2048 }, {}, { thread := 2048 }, _, { on with tw0 := { svc := .inService, thrd := { arbIn := [.offer 0 {}], reserved := [(0, 0)] } }, arb := { cores := [(0, { asking := true, inService := true, reply0 := .awaited, reply1 := .offered { thread := 2048 } })] } }, by decide, rfl, by decide, .inl ⟨.inr ⟨rfl, .inr ⟨rfl, rfl⟩⟩, rfl, rfl⟩, rfl, _, rfl, by decide⟩

theorem DeskAndArbiterAct_6_1_witness : ∃ t : TwinId, ∃ c : Nat, ∃ o : ThreadOffer, ∃ rest : List ArbMsg, ∃ a : Block, (tw a t).thrd.arbIn = .offer c o :: rest ∧ threadTwin o.thread = t ∧ (o.thread % 2048, c) ∈ (tw a t).thrd.reserved ∧ (coreOf a c).asking = false :=
  ⟨.t0, 0, {}, _, { on with tw0 := { svc := .inService, thrd := { arbIn := [.offer 0 {}], reserved := [(0, 0)] } } }, rfl, by decide⟩

theorem DeskAndArbiterAct_7_1_witness : ∃ t : TwinId, ∃ c : Nat, ∃ rest : List ArbMsg, ∃ a : Block, storesWf a = true ∧ (tw a t).thrd.arbIn = .none c :: rest ∧ (coreOf a c).asking = true ∧ replyOf (coreOf a c) t = .awaited ∧ (replyOf (coreOf a c) (partner t) = .awaited ∨ replyOf (coreOf a c) (partner t) = .none) :=
  ⟨.t0, 0, _, { on with tw0 := { svc := .inService, thrd := { arbIn := [.none 0] } }, arb := { cores := [(0, { asking := true, reply0 := .awaited, reply1 := .awaited })] } }, by decide, rfl, by decide⟩

theorem DeskAndArbiterAct_8_1_witness : ∃ t : TwinId, ∃ c : Nat, ∃ x : Nat, ∃ rest : List DeskMsg, ∃ a : Block, ∃ e, e = x % 2048 ∧ (storesWf a = true ∧ live a t = true) ∧ (tw a t).thrd.deskIn = .take c x :: rest ∧ threadTwin x = t ∧ (threadOf a x).st = .ready ∧ (coreOf a c).running = some x ∧ (tw a t).thrd.asks = [] :=
  ⟨.t0, 0, 0, _, { on with tw0 := { svc := .inService, thrd := { deskIn := [.take 0 0], ents := [(0, { st := .ready })] } }, arb := { cores := [(0, { running := some 0 })] } }, _, rfl, by decide, rfl, by decide⟩

theorem DeskAndArbiterAct_9_1_witness : ∃ t : TwinId, ∃ c : Nat, ∃ x : Nat, ∃ rest : List DeskMsg, ∃ a : Block, live a t = true ∧ (tw a t).thrd.deskIn = .release c x :: rest ∧ (tw a t).thrd.asks = [] :=
  ⟨.t0, 0, 0, _, { on with tw0 := { svc := .inService, thrd := { deskIn := [.release 0 0] } } }, by decide, rfl, by decide⟩

theorem DeskAndArbiterAct_10_1_witness : ∃ core : BitVec 3, ∃ o : ThreadOffer, ∃ a : Block, ∃ c, c = core.toNat ∧ ∃ x, x = o.thread ∧ ∃ t, t = threadTwin x ∧ (storesWf a = true ∧ (coreOf a c).window = true ∧ (coreOf a c).asking = true ∧ (coreOf a c).inService = true ∧ replyOf (coreOf a c) t = .offered o ∧ replyOf (coreOf a c) (partner t) = .none) ∧ ∃ w, w = Output.threadWord (grantWordOf a c x) ∧ bookOn a t = false :=
  ⟨0, {}, { on with arb := { cores := [(0, { window := true, asking := true, inService := true, reply0 := .offered {}, reply1 := .none })] } }, _, rfl, _, rfl, _, rfl, by decide, _, rfl, by decide⟩

theorem DeskAndArbiterAct_11_1_witness : ∃ t : TwinId, ∃ a : Block, deskAsked a t = true ∧ (∀ c, (coreOf a c).running = none) :=
  ⟨.t0, on, by decide, fun _ => rfl⟩

theorem DeskAndArbiterAct_12_1_witness : ∃ t : TwinId, ∃ cls : Nat, ∃ lv : Nat, ∃ c : Nat, ∃ x : Nat, ∃ off : Nat, ∃ why : PreemptWhy, ∃ a : Block, (storesWf a = true ∧ deskAsked a t = true ∧ cls < 9 ∧ bestLevel a t cls = lv + 1 ∧ (∀ k, k < 9 → k ≠ cls → bestLevel a t k = 0) ∧ (match t with | .t0 => a.arb.sum1 | .t1 => a.arb.sum0) = [] ∧ (∀ d, d < 8 → inClass a cls d = true → (coreOf a d).asking = false ∧ (coreOf a d).preempt = none) ∧ c < 8 ∧ yieldsTo a cls lv c = true ∧ (∀ d, d < 8 → yieldsTo a cls lv d = true → (coreOf a c).runLevel < (coreOf a d).runLevel ∨ ((coreOf a c).runLevel = (coreOf a d).runLevel ∧ c ≤ d)) ∧ (coreOf a c).running = some x ∧ (((coreOf a c).runLevel = lv ∧ why = .slice ∧ off = 0x50) ∨ ((coreOf a c).runLevel < lv ∧ why = .level ∧ off = 0x48))) ∧ ∃ w, w = Output.threadWord (stopWordOf a c x) ∧ bookOn a (threadTwin x) = false :=
  ⟨.t0, 8, 1, 0, 1, 0x48, .level, { on with tw0 := { svc := .inService, thrd := { ready := [0], ents := [(0, { st := .ready, level := 1, aff := 8 })] } }, pages := [(27, { regs := [(0x100, some (2 ^ 63))] })], arb := { cores := [(0, { running := some 1, inService := true })] } }, by decide, _, rfl, by decide⟩

theorem DeskAndArbiterAct_13_1_witness : ∃ core : BitVec 3, ∃ x : Nat, ∃ a : Block, ∃ c, c = core.toNat ∧ ∃ t, t = threadTwin x ∧ (storesWf a = true ∧ (coreOf a c).preempt = some (x, .level) ∧ a.arb.removing ≠ some c) ∧ (∀ u, (tw a u).thrd.asks = []) ∧ offersOf (coreOf a c) = [] ∧ a.arb.sum0 = [] ∧ a.arb.sum1 = [] :=
  ⟨0, 0, { on with arb := { cores := [(0, { preempt := some (0, .level) })] } }, _, rfl, _, rfl, by decide, fun u => by cases u <;> decide, by decide⟩

theorem DeskAndArbiterAct_14_1_witness : ∃ t : TwinId, ∃ e : Nat, ∃ a : Block, (storesWf a = true ∧ live a t = true ∧ e < 2048 ∧ a.arb.sum0 = [] ∧ a.arb.sum1 = []) ∧ (∀ u, (tw a u).thrd.asks = []) ∧ (tw a (partner t)).thrd.ents = [] ∧ (tw a (partner t)).thrd.delays = [] ∧ (∀ p ∈ (tw a t).thrd.ents, p.2.st ≠ .running) ∧ (tw a t).thrd.delays = [e] ∧ (mapGet {} (tw a t).thrd.ents e).due ≤ delayNow a :=
  ⟨.t0, 0, { on with tw0 := { svc := .inService, thrd := { ents := [(0, { st := .delayed })], delays := [0] } } }, by decide, by intro u; cases u <;> rfl, by decide⟩

theorem DeskAndArbiterAct_15_1_witness : ∃ t : TwinId, ∃ e : Nat, ∃ c : Nat, ∃ h : Thread, ∃ a : Block, (storesWf a = true ∧ live a t = true ∧ e < 2048 ∧ a.arb.sum0 = [] ∧ a.arb.sum1 = []) ∧ (∀ u, (tw a u).thrd.asks = []) ∧ (tw a (partner t)).thrd.ents = [] ∧ (∀ u, (tw a u).thrd.delays = []) ∧ (tw a t).thrd.ents = [(e, h)] ∧ h.st = .running ∧ h.slice ≠ 0 ∧ h.left = 1 ∧ runsOn a (twinNum t * 2048 + e) = some c :=
  ⟨.t0, 0, 0, { st := .running, slice := 2, left := 1 }, { on with tw0 := { svc := .inService, thrd := { ents := [(0, { st := .running, slice := 2, left := 1 })] } }, arb := { cores := [(0, { running := some 0 })] } }, by decide, by intro u; cases u <;> rfl, by decide, by intro u; cases u <;> rfl, by decide⟩

/-! DomainsStopAndStart -/

theorem DomainsStopAndStart_1_1_witness : ∃ dom : BitVec 8, ∃ a : Block, ∃ d, d = dom.toNat ∧ storesWf a = true ∧ d < 144 ∧ domBegun a d = true ∧ pwrEnabled a = true ∧ (domOf a d).st = .run ∧ (domOf a d).policy < 2 ∧ domIdle a d = true :=
  ⟨0, { on with proof := { begun := 1 }, pages := [(1, { enable := true })] }, _, rfl, by decide⟩

theorem DomainsStopAndStart_1_2_witness : ∃ dom : BitVec 8, ∃ a : Block, ∃ d, d = dom.toNat ∧ storesWf a = true ∧ d < 144 ∧ domBegun a d = true ∧ pwrEnabled a = true ∧ (domOf a d).st = .run ∧ (domOf a d).policy < 2 ∧ domIdle a d = false :=
  ⟨0, { on with proof := { begun := 1 }, pages := [(1, { enable := true })], flushes := [(0, { out := true })] }, _, rfl, by decide⟩

theorem DomainsStopAndStart_2_1_witness : ∃ dom : BitVec 8, ∃ a : Block, ∃ d, d = dom.toNat ∧ (storesWf a = true ∧ (domOf a d).msg = .hold ∧ live a (driving a d) = true ∧ (quiet a d [driving a d] = false ∨ wakeCause a d = true) ∧ (∀ p ∈ a.engines, p.2.claims = [])) ∧ (∀ t, (tw a t).desk.heldGrants = []) :=
  ⟨0, { on with proof := { doms := [(0, { msg := .hold, accWake := true })] } }, _, rfl, by decide, fun u => by cases u <;> decide⟩

theorem DomainsStopAndStart_2_2_witness : ∃ dom : BitVec 8, ∃ a : Block, ∃ d, d = dom.toNat ∧ storesWf a = true ∧ (domOf a d).msg = .hold ∧ live a (driving a d) = true ∧ quiet a d [driving a d] = true ∧ wakeCause a d = false :=
  ⟨0, { on with proof := { doms := [(0, { msg := .hold })] } }, _, rfl, by decide⟩

theorem DomainsStopAndStart_3_1_witness : ∃ dom : BitVec 8, ∃ i : Nat, ∃ a : Block, ∃ d, d = dom.toNat ∧ (storesWf a = true ∧ (domOf a d).msg = .abort ∧ (domOf a d).portReady = true ∧ (domOf a d).serviced = false ∧ (∀ p ∈ a.engines, p.2.claims = [])) ∧ (∀ t, (tw a t).desk.heldGrants = []) ∧ i < (portEngines d).2 :=
  ⟨150, 3, { on with proof := { doms := [(150, { msg := .abort, portReady := true })] } }, _, rfl, by decide, fun u => by cases u <;> decide, by decide⟩

theorem DomainsStopAndStart_4_1_witness : ∃ dom : BitVec 8, ∃ a : Block, ∃ d, d = dom.toNat ∧ (storesWf a = true ∧ (domOf a d).msg = .abort ∧ (∀ p ∈ a.engines, p.2.claims = [])) ∧ (∀ t, (tw a t).desk.heldGrants = []) ∧ ((domOf a d).portReady = true → (domOf a d).serviced = true) :=
  ⟨0, { on with proof := { doms := [(0, { msg := .abort })] } }, _, rfl, by decide, fun u => by cases u <;> decide, by decide⟩

theorem DomainsStopAndStart_5_1_witness : ∃ dom : BitVec 8, ∃ a : Block, ∃ d, d = dom.toNat ∧ storesWf a = true ∧ (domOf a d).msg = .withdrawn ∧ d < 128 :=
  ⟨0, { on with proof := { doms := [(0, { msg := .withdrawn })] } }, _, rfl, by decide⟩

theorem DomainsStopAndStart_5_2_witness : ∃ dom : BitVec 8, ∃ a : Block, ∃ d, d = dom.toNat ∧ storesWf a = true ∧ (domOf a d).msg = .withdrawn ∧ 128 ≤ d :=
  ⟨128, { on with proof := { doms := [(128, { msg := .withdrawn })] } }, _, rfl, by decide⟩

theorem DomainsStopAndStart_6_1_witness : ∃ dom : BitVec 8, ∃ a : Block, ∃ d, d = dom.toNat ∧ storesWf a = true ∧ (domOf a d).msg = .draining ∧ d < 128 ∧ (flushOf a d).out = false :=
  ⟨0, { on with proof := { doms := [(0, { msg := .draining })] } }, _, rfl, by decide⟩

theorem DomainsStopAndStart_6_2_witness : ∃ dom : BitVec 8, ∃ a : Block, ∃ d, d = dom.toNat ∧ storesWf a = true ∧ (domOf a d).msg = .draining ∧ d < 128 ∧ (flushOf a d).out = true :=
  ⟨0, { on with proof := { doms := [(0, { msg := .draining })] }, flushes := [(0, { out := true })] }, _, rfl, by decide⟩

theorem DomainsStopAndStart_7_1_witness : ∃ dom : BitVec 8, ∃ a : Block, ∃ d, d = dom.toNat ∧ storesWf a = true ∧ (domOf a d).msg = .draining ∧ (domOf a d).obEmpty = false ∧ d < 144 ∧ (∀ p ∈ a.engines, p.2.claims = []) :=
  ⟨0, { on with proof := { doms := [(0, { msg := .draining })] } }, _, rfl, by decide⟩

theorem DomainsStopAndStart_8_1_witness : ∃ dom : BitVec 8, ∃ a : Block, ∃ d, d = dom.toNat ∧ storesWf a = true ∧ (domOf a d).st = .stopped ∧ fld (reg a pwrKey 0x118) 31 16 ≠ 0 ∧ (domOf a d).policy = 0 ∧ (d < 128 → mapGet 0 a.proof.banks d = 0 ∧ mapGet 0 a.proof.rising d = 0 ∧ tubeInCluster a d = false) :=
  ⟨0, { on with proof := { doms := [(0, { st := .stopped })] } }, _, rfl, by decide⟩

theorem DomainsStopAndStart_8_2_witness : ∃ dom : BitVec 8, ∃ a : Block, ∃ d, d = dom.toNat ∧ storesWf a = true ∧ ((domOf a d).st ≠ .stopped ∨ fld (reg a pwrKey 0x118) 31 16 = 0 ∨ (domOf a d).policy ≠ 0 ∨ (d < 128 ∧ (mapGet 0 a.proof.banks d ≠ 0 ∨ mapGet 0 a.proof.rising d ≠ 0 ∨ tubeInCluster a d = true))) :=
  ⟨0, on, _, rfl, by decide⟩

theorem DomainsStopAndStart_9_1_witness : ∃ cluster : BitVec 7, ∃ a : Block, ∃ d, d = cluster.toNat ∧ storesWf a = true ∧ ((domOf a d).st = .stopping ∨ (domOf a d).st = .stopped ∨ (domOf a d).st = .gated) :=
  ⟨0, { on with proof := { doms := [(0, { st := .stopped })] } }, _, rfl, by decide⟩

theorem DomainsStopAndStart_9_2_witness : ∃ cluster : BitVec 7, ∃ a : Block, ∃ d, d = cluster.toNat ∧ storesWf a = true ∧ ((domOf a d).st = .run ∨ (domOf a d).st = .starting) :=
  ⟨0, on, _, rfl, by decide⟩

theorem DomainsStopAndStart_10_1_witness : ∃ dom : BitVec 8, ∃ a : Block, ∃ d, d = dom.toNat ∧ storesWf a = true ∧ (domOf a d).st = .starting :=
  ⟨0, { on with proof := { doms := [(0, { st := .starting })] } }, _, rfl, by decide⟩

theorem DomainsStopAndStart_11_1_witness : ∃ cluster : BitVec 7, ∃ bank : BitVec 4, ∃ a : Block, ∃ c, c = cluster.toNat ∧ ∃ n, n = bank.toNat ∧ (storesWf a = true ∧ mapGet 0 a.proof.rising c = 2 ^ n ∧ (domOf a c).st = .run ∧ (∀ p ∈ a.engines, p.2.claims = [])) ∧ (∀ t, (tw a t).desk.heldGrants = []) :=
  ⟨0, 0, { on with proof := { rising := [(0, 1)] } }, _, rfl, _, rfl, by decide, fun u => by cases u <;> decide⟩

theorem DomainsStopAndStart_12_1_witness : ∃ src : Requester, ∃ acc : Access, ∃ value : Word64, ∃ a : Block, ∃ d, d = fld (reg a pwrKey 0x100) 7 0 ∧ storesWf a = true ∧ served a src pwrKey = true ∧ covers acc 0 = true ∧ d ≤ 143 :=
  ⟨.archivist .t0, .full, 0, on, _, rfl, by decide⟩

theorem DomainsStopAndStart_12_2_witness : ∃ src : Requester, ∃ acc : Access, ∃ value : Word64, ∃ a : Block, ∃ d, d = fld (reg a pwrKey 0x100) 7 0 ∧ storesWf a = true ∧ served a src pwrKey = true ∧ covers acc 0 = true ∧ 143 < d :=
  ⟨.archivist .t0, .full, 0, { on with pages := [(1, { regs := [(0x100, some 200)] })] }, _, rfl, by decide⟩

theorem DomainsStopAndStart_13_1_witness : ∃ dom : BitVec 8, ∃ a : Block, ∃ d, d = dom.toNat ∧ storesWf a = true ∧ d ≤ 143 :=
  ⟨0, on, _, rfl, by decide⟩

/-! PowerAndTimeAct -/

theorem PowerAndTimeAct_1_1_witness : ∃ a : Block, bitOf (reg a pwrKey 0x130) 63 = true ∧ bitOf (reg a pwrKey 0x130) 15 = false ∧ capOn a = true :=
  ⟨{ on with pages := [(1, { enable := true, regs := [(0x120, some (2 ^ 63)), (0x130, some (2 ^ 63))] })] }, by decide⟩

theorem PowerAndTimeAct_2_1_witness : ∃ a : Block, bitOf (reg a pwrKey 0x130) 63 = true ∧ bitOf (reg a pwrKey 0x130) 15 = true ∧ capOn a = true :=
  ⟨{ on with pages := [(1, { enable := true, regs := [(0x120, some (2 ^ 63)), (0x130, some (2 ^ 63 + 2 ^ 15))] })] }, by decide⟩

theorem PowerAndTimeAct_3_1_witness : ∃ w1 : BitVec 16, ∃ w2 : BitVec 16, ∃ a : Block, ∃ p, p = powerOf a w1.toNat w2.toNat ∧ storesWf a = true ∧ a.proof.reading = true ∧ capOn a = true ∧ a.proof.change = none ∧ a.proof.step ≤ 7 ∧ fld (reg a pwrKey 0x120) 11 0 ≠ 0 ∧ (fld (reg a pwrKey 0x120) 11 0 : Int) * 2 ^ 32 < p ∧ a.proof.step ≠ 0 :=
  ⟨2, 0, { on with proof := { reading := true }, pages := [(1, { enable := true, regs := [(0x120, some (2 ^ 63 + 1))] })] }, _, rfl, by decide⟩

theorem PowerAndTimeAct_3_2_witness : ∃ w1 : BitVec 16, ∃ w2 : BitVec 16, ∃ a : Block, ∃ p, p = powerOf a w1.toNat w2.toNat ∧ storesWf a = true ∧ a.proof.reading = true ∧ capOn a = true ∧ a.proof.change = none ∧ a.proof.step ≤ 7 ∧ fld (reg a pwrKey 0x120) 11 0 ≠ 0 ∧ p < ((fld (reg a pwrKey 0x120) 11 0 : Int) - fld (reg a pwrKey 0x120) 43 32) * 2 ^ 32 ∧ a.proof.step < 7 ∧ p ≤ (fld (reg a pwrKey 0x120) 11 0 : Int) * 2 ^ 32 :=
  ⟨0, 0, { on with proof := { reading := true, step := 5 }, pages := [(1, { enable := true, regs := [(0x120, some (2 ^ 63 + 1))] })] }, _, rfl, by decide⟩

theorem PowerAndTimeAct_3_3_witness : ∃ w1 : BitVec 16, ∃ w2 : BitVec 16, ∃ a : Block, ∃ p, p = powerOf a w1.toNat w2.toNat ∧ storesWf a = true ∧ a.proof.reading = true ∧ capOn a = true ∧ a.proof.change = none ∧ a.proof.step ≤ 7 ∧ fld (reg a pwrKey 0x120) 11 0 ≠ 0 ∧ ((fld (reg a pwrKey 0x120) 11 0 : Int) - fld (reg a pwrKey 0x120) 43 32) * 2 ^ 32 ≤ p ∧ p ≤ (fld (reg a pwrKey 0x120) 11 0 : Int) * 2 ^ 32 :=
  ⟨1, 0, { on with proof := { reading := true }, pages := [(1, { enable := true, regs := [(0x120, some (2 ^ 63 + 1))] })] }, _, rfl, by decide⟩

theorem PowerAndTimeAct_4_1_witness : ∃ a : Block, storesWf a = true ∧ a.proof.reading = true ∧ a.proof.lost ≠ 2 :=
  ⟨{ on with proof := { reading := true } }, by decide⟩

theorem PowerAndTimeAct_5_1_witness : ∃ a : Block, storesWf a = true ∧ a.proof.reading = true ∧ a.proof.lost = 2 ∧ capOn a = true ∧ fld (reg a pwrKey 0x120) 58 56 < a.proof.step :=
  ⟨{ on with proof := { reading := true, lost := 2 }, pages := [(1, { enable := true, regs := [(0x120, some (2 ^ 63 + 1))] })] }, by decide⟩

theorem PowerAndTimeAct_6_1_witness : ∃ w : BitVec 16, ∃ a : Block, storesWf a = true ∧ bitOf (reg a pwrKey 0x130) 63 = true ∧ bitOf w.toNat 13 = false ∧ bitOf w.toNat 14 = false ∧ a.proof.alerted = false :=
  ⟨0, { on with pages := [(1, { regs := [(0x130, some (2 ^ 63))] })] }, by decide⟩

theorem PowerAndTimeAct_7_1_witness : ∃ w : BitVec 16, ∃ a : Block, storesWf a = true ∧ bitOf (reg a pwrKey 0x130) 63 = true ∧ (bitOf w.toNat 13 = true ∨ bitOf w.toNat 14 = true) ∧ a.proof.alerted = false ∧ a.proof.change = none ∧ a.proof.step ≠ 0 :=
  ⟨0x2000, { on with pages := [(1, { regs := [(0x130, some (2 ^ 63))] })] }, by decide⟩

theorem PowerAndTimeAct_8_1_witness : ∃ r : Rail, ∃ c : StepChange, ∃ a : Block, r ∉ a.proof.initRails ∧ a.proof.change = some c ∧ c.stage = .volts ∧ c.rails = [r] :=
  ⟨.sram, { stage := .volts, rails := [.sram] }, { on with proof := { change := some { stage := .volts, rails := [.sram] } } }, by decide⟩

theorem PowerAndTimeAct_9_1_witness : ∃ r : Rail, ∃ c : StepChange, ∃ a : Block, storesWf a = true ∧ r ∉ a.proof.initRails ∧ a.proof.change = some c ∧ c.stage = .volts ∧ r ∈ c.rails ∧ r ∉ c.resent :=
  ⟨.sram, { stage := .volts, rails := [.sram] }, { on with proof := { change := some { stage := .volts, rails := [.sram] } } }, by decide⟩

theorem PowerAndTimeAct_9_2_witness : ∃ r : Rail, ∃ c : StepChange, ∃ a : Block, storesWf a = true ∧ r ∉ a.proof.initRails ∧ a.proof.change = some c ∧ c.stage = .volts ∧ r ∈ c.rails ∧ r ∈ c.resent ∧ c.up = true :=
  ⟨.sram, { up := true, stage := .volts, rails := [.sram], resent := [.sram] }, { on with proof := { change := some { up := true, stage := .volts, rails := [.sram], resent := [.sram] } } }, by decide⟩

theorem PowerAndTimeAct_10_1_witness : ∃ c : StepChange, ∃ a : Block, a.proof.init ≠ .settling ∧ a.proof.change = some c ∧ c.stage = .settling :=
  ⟨{ stage := .settling }, { on with proof := { change := some { stage := .settling } } }, by decide⟩

theorem PowerAndTimeAct_11_1_witness : ∃ c : StepChange, ∃ a : Block, storesWf a = true ∧ a.proof.change = some c ∧ c.stage = .switching ∧ c.up = true :=
  ⟨{ up := true }, { on with proof := { change := some { up := true } } }, by decide⟩

theorem PowerAndTimeAct_11_2_witness : ∃ c : StepChange, ∃ a : Block, storesWf a = true ∧ a.proof.change = some c ∧ c.stage = .switching ∧ c.up = false :=
  ⟨{}, { on with proof := { change := some {} } }, by decide⟩

theorem PowerAndTimeAct_12_1_witness : ∃ src : Requester, ∃ a : Block, storesWf a = true ∧ served a src pwrKey = true ∧ anyOpen a = true :=
  ⟨.archivist .t0, { on with ctxs := [(0, { st := .opened })] }, by decide⟩

theorem PowerAndTimeAct_12_2_witness : ∃ src : Requester, ∃ a : Block, storesWf a = true ∧ served a src pwrKey = true ∧ anyOpen a = false ∧ anyRunning a = true :=
  ⟨.archivist .t0, { on with arb := { cores := [(0, { running := some 0 })] } }, by decide⟩

theorem PowerAndTimeAct_12_3_witness : ∃ src : Requester, ∃ a : Block, storesWf a = true ∧ served a src pwrKey = true ∧ anyOpen a = false ∧ anyRunning a = false :=
  ⟨.archivist .t0, on, by decide⟩

theorem PowerAndTimeAct_13_1_witness : ∃ src : Requester, ∃ value : Word64, ∃ a : Block, storesWf a = true ∧ served a src timeKey = true ∧ anyOpen a = false :=
  ⟨.archivist .t0, 0, on, by decide⟩

theorem PowerAndTimeAct_13_2_witness : ∃ src : Requester, ∃ value : Word64, ∃ a : Block, storesWf a = true ∧ served a src timeKey = true ∧ anyOpen a = true :=
  ⟨.archivist .t0, 0, { on with ctxs := [(0, { st := .opened })] }, by decide⟩

theorem PowerAndTimeAct_14_1_witness : ∃ src : Requester, ∃ value : BitVec 32, ∃ a : Block, served a src timeKey = true :=
  ⟨.archivist .t0, 0, on, by decide⟩

/-! FreezesAndHaltsAct -/

theorem FreezesAndHaltsAct_1_1_witness : ∃ src : Requester, ∃ t : TwinId, ∃ i : BitVec 12, ∃ a : Block, ∃ n, n = i.toNat ∧ storesWf a = true ∧ served a src (twKey t cntP) = true :=
  ⟨.archivist .t0, .t0, 0, on, _, rfl, by decide⟩

theorem FreezesAndHaltsAct_2_1_witness : ∃ src : Requester, ∃ t : TwinId, ∃ first : BitVec 12, ∃ last : BitVec 12, ∃ a : Block, served a src (twKey t cntP) = true ∧ last.toNat < first.toNat :=
  ⟨.archivist .t0, .t0, 1, 0, on, by decide⟩

theorem FreezesAndHaltsAct_3_1_witness : ∃ src : Requester, ∃ t : TwinId, ∃ i : BitVec 12, ∃ a : Block, ∃ n, n = i.toNat ∧ storesWf a = true ∧ served a src (twKey t cntP) = true :=
  ⟨.archivist .t0, .t0, 0, on, _, rfl, by decide⟩

theorem FreezesAndHaltsAct_4_1_witness : ∃ src : Requester, ∃ a : Block, served a src blkKey = true ∧ a.freeze.pending = false ∧ a.freeze.frozen = none :=
  ⟨.archivist .t0, on, by decide⟩

theorem FreezesAndHaltsAct_4_2_witness : ∃ src : Requester, ∃ a : Block, served a src blkKey = true ∧ (a.freeze.pending = true ∨ a.freeze.frozen ≠ none) :=
  ⟨.archivist .t0, { on with freeze := { pending := true } }, by decide⟩

theorem FreezesAndHaltsAct_5_1_witness : ∃ src : Requester, ∃ twins : BitVec 2, ∃ a : Block, served a src blkKey = true ∧ a.freeze.pending = false ∧ a.freeze.frozen = none :=
  ⟨.archivist .t0, 0, on, by decide⟩

theorem FreezesAndHaltsAct_6_1_witness : ∃ t : TwinId, ∃ n : Nat, ∃ rest : List ControlItem, ∃ a : Block, (tw a t).ctrlIn = .freeze n :: rest :=
  ⟨.t0, 5, _, { on with tw0 := { svc := .inService, ctrlIn := [.freeze 5] } }, rfl⟩

theorem FreezesAndHaltsAct_7_1_witness : ∃ a : Block, storesWf a = true ∧ a.freeze.pending = true ∧ a.freeze.tick + 2 ≤ a.ticks ∧ a.freeze.haltReq = 0 :=
  ⟨{ on with freeze := { pending := true }, ticks := 2 }, by decide⟩

theorem FreezesAndHaltsAct_8_1_witness : ∃ t : TwinId, ∃ a : Block, storesWf a = true ∧ a.freeze.pending = true ∧ a.freeze.tick + 2 ≤ a.ticks ∧ a.freeze.haltReq = 2 ^ twinNum t ∧ a.ctxs = [] ∧ (tw a t).svc = .inService :=
  ⟨.t0, { on with freeze := { pending := true, haltReq := 1 }, ticks := 2 }, by decide⟩

theorem FreezesAndHaltsAct_9_1_witness : ∃ src : Requester, ∃ a : Block, served a src blkKey = true ∧ a.freeze.frozen ≠ none ∧ a.freeze.thawing = false :=
  ⟨.archivist .t0, { on with freeze := { frozen := some {} } }, by decide⟩

theorem FreezesAndHaltsAct_9_2_witness : ∃ src : Requester, ∃ a : Block, served a src blkKey = true ∧ (a.freeze.frozen = none ∨ a.freeze.thawing = true) :=
  ⟨.archivist .t0, on, by decide⟩

theorem FreezesAndHaltsAct_10_1_witness : ∃ a : Block, (storesWf a = true ∧ a.freeze.thawing = true ∧ a.freeze.thawTick < a.ticks) ∧ (∀ t, (tw a t).halted = false) :=
  ⟨{ on with freeze := { thawing := true }, ticks := 1 }, by decide, by intro t; cases t <;> rfl⟩

theorem FreezesAndHaltsAct_11_1_witness : ∃ t : TwinId, ∃ a : Block, (storesWf a = true ∧ a.freeze.thawing = true ∧ a.freeze.thawTick < a.ticks ∧ (tw a t).halted = true ∧ (tw a (partner t)).halted = false ∧ (∀ p ∈ a.engines, p.2.claims = [])) ∧ (∀ c, (coreOf a c).asking = false) ∧ (tw a t).thrd.asks = [] ∧ (tw a t).desk.heldGrants = [] :=
  ⟨.t0, { on with tw0 := { svc := .inService, halted := true }, freeze := { thawing := true }, ticks := 1 }, by decide, fun _ => rfl, by decide⟩

theorem FreezesAndHaltsAct_12_1_witness : ∃ t : TwinId, ∃ a : Block, ((tw a t).halted = true ∧ (∀ p ∈ a.engines, p.2.claims = [])) ∧ (∀ c, (coreOf a c).asking = false) ∧ (tw a t).thrd.asks = [] ∧ (tw a t).desk.heldGrants = [] :=
  ⟨.t0, { on with tw0 := { svc := .inService, halted := true } }, by decide, fun _ => rfl, by decide⟩

theorem FreezesAndHaltsAct_13_1_witness : ∃ t : TwinId, ∃ w : GrantWord, ∃ tag : Nat, ∃ load : Nat, ∃ dd : Int, ∃ c : Claim, ∃ a : Block, ∃ g, g = (groupOf w.eng).getD 0 ∧ (storesWf a = true ∧ (tw a t).halted = true ∧ serves a t = true ∧ primary a g = t ∧ (tw a t).desk.heldGrants = [{ word := w, tag := tag, dd := dd, load := load }] ∧ onPort (portOfGroup g) w.eng = true ∧ portHeld a g = false ∧ (engOf a w.eng).claims = [c] ∧ c.seq = tag ∧ (engOf a w.eng).inService = true ∧ (ctxTw a t w.ctx).fenced = false ∧ (∀ p ∈ a.engines, p.1 ≠ w.eng → p.2.claims = [])) ∧ (∀ n, (coreOf a n).asking = false) ∧ (tw a t).thrd.asks = [] :=
  ⟨.t0, { eng := 0, node := 5, gen := 1 }, 7, 0, 0, { seq := 7 }, { on with tw0 := { svc := .inService, halted := true, desk := { heldGrants := [{ word := { eng := 0, node := 5, gen := 1 }, tag := 7, dd := 0, load := 0 }] } }, engines := [(0, { inService := true, claims := [{ seq := 7 }] })] }, _, rfl, by decide, fun _ => rfl, by decide⟩

/-! ErrorsAndHealthAct -/

theorem ErrorsAndHealthAct_1_1_witness : ∃ t : TwinId, ∃ group : BitVec 8, ∃ bank : BitVec 8, ∃ word : BitVec 16, ∃ a : Block, ∃ g, g = group.toNat ∧ ∃ r, r = relTwin a t g ∧ storesWf a = true ∧ (g ≠ 0x14 ∨ bank.toNat ≠ 127 ∨ word.toNat ≠ 2047) :=
  ⟨.t0, 0, 0, 0, on, _, rfl, _, rfl, by decide⟩

theorem ErrorsAndHealthAct_1_2_witness : ∃ t : TwinId, ∃ group : BitVec 8, ∃ bank : BitVec 8, ∃ word : BitVec 16, ∃ a : Block, ∃ g, g = group.toNat ∧ ∃ r, r = relTwin a t g ∧ storesWf a = true ∧ g = 0x14 ∧ bank.toNat = 127 ∧ word.toNat = 2047 ∧ bitOf (reg a (twKey t relP) 0x130) 63 = true :=
  ⟨.t0, 0x14, 127, 2047, on, _, rfl, _, rfl, by decide⟩

theorem ErrorsAndHealthAct_2_1_witness : ∃ t : TwinId, ∃ group : BitVec 8, ∃ bank : BitVec 8, ∃ word : BitVec 16, ∃ i : GroupInfo, ∃ a : Block, ∃ g, g = group.toNat ∧ ∃ n, n = bank.toNat ∧ storesWf a = true ∧ groupInfo g = some i ∧ i.cls = .twin ∧ wordExists i n word.toNat = true ∧ bitOf (reg a (twKey t relP) 0x130) 63 = true ∧ (tw a t).svc ≠ .fatal ∧ (tw a t).rel.test = none ∧ (tw a t).rel.queue = [] ∧ (sramOf a t g).noSpare = false :=
  ⟨.t0, 2, 0, 0, _, on, _, rfl, _, rfl, by decide, rfl, by decide⟩

theorem ErrorsAndHealthAct_3_1_witness : ∃ t : TwinId, ∃ group : BitVec 8, ∃ bank : BitVec 8, ∃ word : BitVec 16, ∃ i : GroupInfo, ∃ a : Block, ∃ g, g = group.toNat ∧ ∃ n, n = bank.toNat ∧ storesWf a = true ∧ groupInfo g = some i ∧ i.cls = .twin ∧ wordExists i n word.toNat = true ∧ bitOf (reg a (twKey t relP) 0x130) 63 = true ∧ (tw a t).svc ≠ .fatal ∧ (tw a t).rel.test = none ∧ (tw a t).rel.queue = [] ∧ (sramOf a t g).noSpare = false :=
  ⟨.t0, 2, 0, 0, _, on, _, rfl, _, rfl, by decide, rfl, by decide⟩

theorem ErrorsAndHealthAct_4_1_witness : ∃ t : TwinId, ∃ group : BitVec 8, ∃ bank : BitVec 8, ∃ word : BitVec 16, ∃ i : GroupInfo, ∃ k : Nat, ∃ a : Block, ∃ g, g = group.toNat ∧ ∃ n, n = bank.toNat ∧ ∃ w, w = linear i n word.toNat ∧ ∃ r, r = relTwin a t g ∧ storesWf a = true ∧ groupInfo g = some i ∧ i.cls = .ctx ∧ n < i.banks ∧ word.toNat < i.words ∧ bitOf (reg a (twKey r relP) 0x130) 63 = true ∧ (tw a r).svc ≠ .fatal ∧ (tw a r).rel.test = none ∧ (tw a r).rel.queue = [] ∧ (sramOf a r g).noSpare = false ∧ wordOwner a t g w = some k ∧ (ctxOf a k).st = .opened ∧ g = 0x03 :=
  ⟨.t0, 3, 0, 0, { cls := .ctx, banks := 64, words := 32768 }, 1, { on with tw0 := { svc := .inService, ctxs := [(1, { fwdRange := 2 ^ 63 + 0x10000 })] }, ctxs := [(1, { st := .opened })] }, _, rfl, _, rfl, _, rfl, _, rfl, by decide⟩

theorem ErrorsAndHealthAct_5_1_witness : ∃ t : TwinId, ∃ group : BitVec 8, ∃ bank : BitVec 8, ∃ word : BitVec 16, ∃ i : GroupInfo, ∃ a : Block, ∃ g, g = group.toNat ∧ ∃ n, n = bank.toNat ∧ ∃ w, w = linear i n word.toNat ∧ ∃ r, r = relTwin a t g ∧ (storesWf a = true ∧ groupInfo g = some i ∧ i.cls = .ctx ∧ n < i.banks ∧ word.toNat < i.words ∧ bitOf (reg a (twKey r relP) 0x130) 63 = true ∧ (tw a r).svc ≠ .fatal ∧ (tw a r).rel.test = none ∧ (tw a r).rel.queue = [] ∧ (sramOf a r g).noSpare = false) ∧ (∀ k, wordOwner a t g w = some k → (ctxOf a k).st ≠ .opened) ∧ g = 0x01 :=
  ⟨.t0, 1, 0, 7, { cls := .ctx, banks := 64, words := 32768 }, { on with tw0 := { svc := .inService, cat := { nodes := [(1, { st := .ready })] } } }, _, rfl, _, rfl, _, rfl, _, rfl, by decide, (fun _ _ h => by cases h), by decide⟩

theorem ErrorsAndHealthAct_5_2_witness : ∃ t : TwinId, ∃ group : BitVec 8, ∃ bank : BitVec 8, ∃ word : BitVec 16, ∃ i : GroupInfo, ∃ a : Block, ∃ g, g = group.toNat ∧ ∃ n, n = bank.toNat ∧ ∃ w, w = linear i n word.toNat ∧ ∃ r, r = relTwin a t g ∧ (storesWf a = true ∧ groupInfo g = some i ∧ i.cls = .ctx ∧ n < i.banks ∧ word.toNat < i.words ∧ bitOf (reg a (twKey r relP) 0x130) 63 = true ∧ (tw a r).svc ≠ .fatal ∧ (tw a r).rel.test = none ∧ (tw a r).rel.queue = [] ∧ (sramOf a r g).noSpare = false) ∧ (∀ k, wordOwner a t g w = some k → (ctxOf a k).st ≠ .opened) ∧ g = 0x03 :=
  ⟨.t0, 3, 0, 0, { cls := .ctx, banks := 64, words := 32768 }, on, _, rfl, _, rfl, _, rfl, _, rfl, by decide, (fun _ _ h => by cases h), by decide⟩

theorem ErrorsAndHealthAct_6_1_witness : ∃ t : TwinId, ∃ bank : BitVec 8, ∃ word : BitVec 16, ∃ x : Nat, ∃ a : Block, ∃ n, n = bank.toNat ∧ storesWf a = true ∧ n < 4 ∧ word.toNat < 2048 ∧ bitOf (reg a (twKey t relP) 0x130) 63 = true ∧ (tw a t).svc ≠ .fatal ∧ (tw a t).rel.test = none ∧ (tw a t).rel.queue = [] ∧ (sramOf a t 0x10).noSpare = false ∧ x = threadId t ((n * 2048 + word.toNat) / 3) ∧ n * 2048 + word.toNat < 6144 ∧ (threadOf a x).st ≠ .free ∧ runsOn a x = none ∧ (tw a t).thrd.reserved = [] :=
  ⟨.t0, 0, 9, 3, { on with tw0 := { svc := .inService, thrd := { ents := [(3, { st := .waiting })] } } }, _, rfl, by decide⟩

theorem ErrorsAndHealthAct_6_2_witness : ∃ t : TwinId, ∃ bank : BitVec 8, ∃ word : BitVec 16, ∃ x : Nat, ∃ a : Block, ∃ n, n = bank.toNat ∧ (storesWf a = true ∧ n < 4 ∧ word.toNat < 2048 ∧ bitOf (reg a (twKey t relP) 0x130) 63 = true ∧ (tw a t).svc ≠ .fatal ∧ (tw a t).rel.test = none ∧ (tw a t).rel.queue = [] ∧ (sramOf a t 0x10).noSpare = false ∧ x = threadId t ((n * 2048 + word.toNat) / 3) ∧ n * 2048 + word.toNat < 6144 ∧ (threadOf a x).st ≠ .free) ∧ ∃ c, runsOn a x = some c ∧ (coreOf a c).preempt = none :=
  ⟨.t0, 0, 9, 3, { on with tw0 := { svc := .inService, thrd := { ents := [(3, { st := .running })] } }, arb := { cores := [(1, { running := some 3 })] } }, _, rfl, by decide, 1, by decide⟩

theorem ErrorsAndHealthAct_7_1_witness : ∃ t : TwinId, ∃ bank : BitVec 8, ∃ word : BitVec 16, ∃ a : Block, ∃ w, w = bank.toNat * 2048 + word.toNat ∧ ∃ n, n = bank.toNat ∧ storesWf a = true ∧ n < 8 ∧ word.toNat < 2048 ∧ bitOf (reg a (twKey t relP) 0x130) 63 = true ∧ (tw a t).svc ≠ .fatal ∧ (tw a t).rel.test = none ∧ (tw a t).rel.queue = [] ∧ (sramOf a t 0x12).noSpare = false ∧ w < 384 ∧ w % 24 < counterCount (w / 24) :=
  ⟨.t0, 0, 25, on, _, rfl, _, rfl, by decide⟩

theorem ErrorsAndHealthAct_7_2_witness : ∃ t : TwinId, ∃ bank : BitVec 8, ∃ word : BitVec 16, ∃ a : Block, ∃ w, w = bank.toNat * 2048 + word.toNat ∧ ∃ n, n = bank.toNat ∧ storesWf a = true ∧ n < 8 ∧ word.toNat < 2048 ∧ bitOf (reg a (twKey t relP) 0x130) 63 = true ∧ (tw a t).svc ≠ .fatal ∧ (tw a t).rel.test = none ∧ (tw a t).rel.queue = [] ∧ (sramOf a t 0x12).noSpare = false ∧ 8192 ≤ w ∧ w < 12288 :=
  ⟨.t0, 4, 1, on, _, rfl, _, rfl, by decide⟩

theorem ErrorsAndHealthAct_8_1_witness : ∃ t : TwinId, ∃ bank : BitVec 8, ∃ word : BitVec 16, ∃ a : Block, ∃ w, w = bank.toNat * 2048 + word.toNat ∧ ∃ n, n = bank.toNat ∧ storesWf a = true ∧ n < 4 ∧ word.toNat < 2048 ∧ bitOf (reg a (twKey t relP) 0x130) 63 = true ∧ (tw a t).svc ≠ .fatal ∧ (tw a t).rel.test = none ∧ (tw a t).rel.queue = [] ∧ (sramOf a t 0x13).noSpare = false ∧ w / 4 < (tw a t).obs.staged.length ∧ ((tw a t).obs.ringOut = true → w / 4 ≠ 0) ∧ bookOn a t = false :=
  ⟨.t0, 0, 1, { on with tw0 := { svc := .inService, obs := { staged := [{}] } } }, _, rfl, _, rfl, by decide⟩

theorem ErrorsAndHealthAct_9_1_witness : ∃ t : TwinId, ∃ bank : BitVec 8, ∃ word : BitVec 16, ∃ a : Block, ∃ n, n = bank.toNat ∧ ∃ r, r = relTwin a t 0x22 ∧ storesWf a = true ∧ n < 8 ∧ word.toNat < 2048 ∧ bitOf (reg a (twKey r relP) 0x130) 63 = true ∧ (tw a r).svc ≠ .fatal ∧ (tw a r).rel.test = none ∧ (tw a r).rel.queue = [] ∧ (sramOf a r 0x22).noSpare = false :=
  ⟨.t0, 0, 1, on, _, rfl, _, rfl, by decide⟩

theorem ErrorsAndHealthAct_10_1_witness : ∃ t : TwinId, ∃ k : BankTest, ∃ a : Block, storesWf a = true ∧ (tw a t).rel.test = some k ∧ k.stage = .copying ∧ (tw a t).svc ≠ .fatal :=
  ⟨.t0, {}, { on with tw0 := { svc := .inService, rel := { test := some {} } } }, by decide⟩

theorem ErrorsAndHealthAct_11_1_witness : ∃ t : TwinId, ∃ k : BankTest, ∃ a : Block, storesWf a = true ∧ (tw a t).rel.test = some k ∧ k.stage = .marching ∧ (tw a t).svc ≠ .fatal ∧ (tw a t).rel.queue = [] :=
  ⟨.t0, { stage := .marching }, { on with tw0 := { svc := .inService, rel := { test := some { stage := .marching } } } }, by decide⟩

theorem ErrorsAndHealthAct_12_1_witness : ∃ t : TwinId, ∃ f : Nat, ∃ k : BankTest, ∃ a : Block, storesWf a = true ∧ (tw a t).rel.test = some k ∧ k.stage ≠ .copying ∧ (tw a t).svc ≠ .fatal ∧ f ≠ 0 ∧ f ≤ rowsLeft (sramOf a t k.group) k.phys :=
  ⟨.t0, 1, { stage := .marching }, { on with tw0 := { svc := .inService, rel := { test := some { stage := .marching } } } }, by decide⟩

theorem ErrorsAndHealthAct_12_2_witness : ∃ t : TwinId, ∃ f : Nat, ∃ k : BankTest, ∃ a : Block, storesWf a = true ∧ (tw a t).rel.test = some k ∧ k.stage ≠ .copying ∧ (tw a t).svc ≠ .fatal ∧ f ≠ 0 ∧ rowsLeft (sramOf a t k.group) k.phys < f ∧ (tw a t).rel.queue = [] :=
  ⟨.t0, 9, { stage := .marching }, { on with tw0 := { svc := .inService, rel := { test := some { stage := .marching } } } }, by decide⟩

theorem ErrorsAndHealthAct_13_1_witness : ∃ src : Requester, ∃ page : PageId, ∃ value : Word64, ∃ a : Block, ∃ k, k = keyOf page ∧ ∃ v, v = value.toNat ∧ storesWf a = true ∧ served a src k = true ∧ (k ∈ groupPages .t0 (fld v 55 48) ∨ k ∈ groupPages .t1 (fld v 55 48)) ∧ (fld v 57 56 = 1 ∨ fld v 57 56 = 2) :=
  ⟨.archivist .t0, .twin .t0 1, 0x0102000000000000, on, _, rfl, _, rfl, by decide⟩

theorem ErrorsAndHealthAct_13_2_witness : ∃ src : Requester, ∃ page : PageId, ∃ value : Word64, ∃ a : Block, ∃ k, k = keyOf page ∧ ∃ v, v = value.toNat ∧ storesWf a = true ∧ served a src k = true ∧ (k ∈ groupPages .t0 (fld v 55 48) ∨ k ∈ groupPages .t1 (fld v 55 48)) ∧ fld v 57 56 ≠ 1 ∧ fld v 57 56 ≠ 2 :=
  ⟨.archivist .t0, .twin .t0 1, 0x0002000000000000, on, _, rfl, _, rfl, by decide⟩

theorem ErrorsAndHealthAct_14_1_witness : ∃ t : TwinId, ∃ a : Block, serves a (partner t) = true :=
  ⟨.t0, on, by decide⟩

theorem ErrorsAndHealthAct_15_1_witness : ∃ t : TwinId, ∃ a : Block, storesWf a = true ∧ serves a t = true ∧ (tw a (partner t)).svc = .inService ∧ a.pair.latch ≠ some t ∧ t ∉ a.pair.asks ∧ a.pair.isFatal = false :=
  ⟨.t0, on, by decide⟩

theorem ErrorsAndHealthAct_16_1_witness : ∃ t : TwinId, ∃ a : Block, (storesWf a = true ∧ 7 ≤ a.phase ∧ a.phase ≤ 9 ∧ bitOf (reg a (twKey t relP) 0x138) 63 = true ∧ (tw a t).svc = .inService ∧ (tw a (partner t)).svc = .inService ∧ a.pair.op = none ∧ a.pair.isFatal = false ∧ bitOf (reg a blkKey 0x250) 4 = false) ∧ (∀ c, (coreOf a c).running = none) ∧ (∀ c, (coreOf a c).asking = false) :=
  ⟨.t0, { on with pages := [(0, { regs := [(0x250, some 0)] })] }, by decide, fun _ => rfl, fun _ => rfl⟩

theorem ErrorsAndHealthAct_17_1_witness : ∃ src : Requester, ∃ t : TwinId, ∃ value : Word64, ∃ a : Block, served a src (twKey t relP) = true ∧ bitOf value.toNat 0 = true :=
  ⟨.archivist .t0, .t0, 1, on, by decide⟩

theorem ErrorsAndHealthAct_17_2_witness : ∃ src : Requester, ∃ t : TwinId, ∃ value : Word64, ∃ a : Block, served a src (twKey t relP) = true ∧ bitOf value.toNat 0 = false :=
  ⟨.archivist .t0, .t0, 0, on, by decide⟩

theorem ErrorsAndHealthAct_18_1_witness : ∃ t : TwinId, ∃ rest : List ControlItem, ∃ a : Block, (tw a t).ctrlIn = .fatal :: rest ∧ serves a t = true ∧ a.pair.latch ≠ some t ∧ t ∉ a.pair.asks ∧ a.pair.isFatal = false :=
  ⟨.t0, _, { on with tw0 := { svc := .inService, ctrlIn := [.fatal] } }, rfl, by decide⟩

theorem ErrorsAndHealthAct_19_1_witness : ∃ t : TwinId, ∃ rest : List ControlItem, ∃ a : Block, (tw a t).ctrlIn = .fatal :: rest ∧ a.pair.isFatal = true :=
  ⟨.t0, _, { on with tw0 := { svc := .inService, ctrlIn := [.fatal] }, pair := { isFatal := true } }, rfl, by decide⟩

theorem ErrorsAndHealthAct_20_1_witness : ∃ t : TwinId, ∃ a : Block, a.pair.latch = some t ∧ a.pair.sweeping = true ∧ live a t = true ∧ (tw a t).desk.recs = [] ∧ a.pair.isFatal = false :=
  ⟨.t0, { on with pair := { latch := some .t0, sweeping := true } }, by decide⟩

theorem ErrorsAndHealthAct_21_1_witness : ∃ t : TwinId, ∃ sections : BitVec 9, ∃ poison : List (BitVec 8 × BitVec 32), ∃ a : Block, ∃ n, n = sections.toNat ∧ ∃ f, f = partner t ∧ ∃ base, base = fld (reg a blkKey 0x110) 47 20 * 2 ^ 20 ∧ a.pair.dumpBusy = true ∧ a.pair.dumpTwin = partner t ∧ live a t = true :=
  ⟨.t0, 0, [], { on with pair := { dumpBusy := true, dumpTwin := .t1 } }, _, rfl, _, rfl, _, rfl, by decide⟩

/-! TwinsChangeService -/

theorem TwinsChangeService_1_1_witness : ∃ t : TwinId, ∃ rest : List TwinId, ∃ a : Block, a.pair.asks = t :: rest ∧ a.pair.latch = none ∧ (tw a t).svc = .inService ∧ (tw a (partner t)).svc = .inService ∧ a.pair.isFatal = false :=
  ⟨.t0, _, { on with pair := { asks := [.t0] } }, rfl, by decide⟩

theorem TwinsChangeService_2_1_witness : ∃ t : TwinId, ∃ rest : List TwinId, ∃ k : Nat, ∃ a : Block, storesWf a = true ∧ a.pair.asks = t :: rest ∧ a.pair.latch = none ∧ (tw a t).svc = .inService ∧ (tw a (partner t)).svc = .inService ∧ a.pair.isFatal = false ∧ (ctxOf a k).st = .opened ∧ ((ctxOf a k).home = partner t ∨ usesTwin a (partner t) k = true) :=
  ⟨.t0, _, 1, { on with pair := { asks := [.t0] }, ctxs := [(1, { st := .opened, home := .t1 })] }, by decide, rfl, by decide⟩

theorem TwinsChangeService_3_1_witness : ∃ t : TwinId, ∃ rest : List TwinId, ∃ e : Nat, ∃ c : Nat, ∃ a : Block, storesWf a = true ∧ a.pair.asks = t :: rest ∧ a.pair.latch = none ∧ (tw a t).svc = .inService ∧ (tw a (partner t)).svc = .inService ∧ a.pair.isFatal = false ∧ ownPort (partner t) e = true :=
  ⟨.t0, _, 64, 64, { on with pair := { asks := [.t0] }, engines := [(64, { inService := true, claims := [{}], tasks := [{ node := 5, gen := 1 }] })] }, by decide, rfl, by decide⟩

theorem TwinsChangeService_3_2_witness : ∃ t : TwinId, ∃ rest : List TwinId, ∃ e : Nat, ∃ c : Nat, ∃ a : Block, storesWf a = true ∧ a.pair.asks = t :: rest ∧ a.pair.latch = none ∧ (tw a t).svc = .inService ∧ (tw a (partner t)).svc = .inService ∧ a.pair.isFatal = false ∧ c < 128 ∧ primaryOfGroup c = partner t :=
  ⟨.t0, _, 0, 1, { on with pair := { asks := [.t0] } }, by decide, rfl, by decide⟩

theorem TwinsChangeService_4_1_witness : ∃ t : TwinId, ∃ n : Nat, ∃ i : Nat, ∃ q : CircRec, ∃ a : Block, storesWf a = true ∧ a.pair.latch = some t ∧ a.pair.sweeping = true ∧ live a t = true ∧ a.pair.isFatal = false ∧ (tw a t).desk.recs = [(i, q)] ∧ (q.st = .issued ∨ q.st = .accepted) ∧ ownPort (partner t) q.eng = true ∧ q.node = n ∧ homeOf n = t ∧ (nodeOf a n).st = .granted ∧ (nodeOf a n).wcount = false ∧ openRecOf a n q.gen = some (i, q) ∧ unfenced a t q.ctx = true ∧ (tw a t).rack.keptNoRec = [] ∧ (ctxTw a t q.ctx).inflHeld = false ∧ bookOn a t = false :=
  ⟨.t0, 5, 3, { st := .issued, node := 5, gen := 1, eng := 64 }, { on with tw0 := { svc := .inService, desk := { recs := [(3, { st := .issued, node := 5, gen := 1, eng := 64 })] }, cat := { nodes := [(5, { st := .granted, gen := 1 })] } }, pair := { latch := some .t0, sweeping := true } }, by decide⟩

theorem TwinsChangeService_5_1_witness : ∃ src : Requester, ∃ t : TwinId, ∃ a : Block, (served a src blkKey = true ∧ a.pair.op = none) ∧ ∃ st, st = (if (tw a t).svc ≠ .inService then 1 else if (tw a (partner t)).svc ≠ .inService then 4 else if ctxsIn a t ≠ [] then 2 else if (tw a t).thrd.ents.any (fun p => p.2.st != .free) = true then 3 else 0) ∧ st = 0 ∧ (∀ p ∈ (tw a t).rack.lanes, p.2.copies = []) ∧ (tw a t).ctxs = [] ∧ a.arb.cores = [] :=
  ⟨.archivist .t0, .t0, on, by decide, _, rfl, by decide⟩

theorem TwinsChangeService_5_2_witness : ∃ src : Requester, ∃ t : TwinId, ∃ a : Block, (served a src blkKey = true ∧ a.pair.op = none) ∧ ∃ st, st = (if (tw a t).svc ≠ .inService then 1 else if (tw a (partner t)).svc ≠ .inService then 4 else if ctxsIn a t ≠ [] then 2 else if (tw a t).thrd.ents.any (fun p => p.2.st != .free) = true then 3 else 0) ∧ st ≠ 0 :=
  ⟨.archivist .t0, .t0, { on with tw0 := { svc := .fatal } }, by decide, _, rfl, by decide⟩

theorem TwinsChangeService_6_1_witness : ∃ t : TwinId, ∃ a : Block, a.pair.op = some (.detach, t) ∧ a.pair.handed = false ∧ live a t = true ∧ drained a t = true ∧ resyncing a = false :=
  ⟨.t0, { on with tw0 := { svc := .detaching }, pair := { op := some (.detach, .t0) } }, by decide⟩

theorem TwinsChangeService_7_1_witness : ∃ t : TwinId, ∃ rest : List ControlItem, ∃ ds : List Nat, ∃ a : Block, (storesWf a = true ∧ (tw a t).halted = false) ∧ (tw a t).ctrlIn = .handover { dirty := ds } :: rest ∧ a.pair.op = some (.detach, partner t) ∧ ((∀ p ∈ a.engines, p.2.claims = []) ∨ (tw a t).rack.lanes = []) ∧ (tw a (partner t)).svc ≠ .inService :=
  ⟨.t0, _, [], { on with tw0 := { svc := .inService, ctrlIn := [.handover {}] }, tw1 := { svc := .detaching }, pair := { op := some (.detach, .t1) } }, by decide, rfl, by decide⟩

theorem TwinsChangeService_8_1_witness : ∃ t : TwinId, ∃ rest : List ControlItem, ∃ ds : List Nat, ∃ e : Nat, ∃ key : Nat, ∃ x : Nat, ∃ c : Claim, ∃ l : Lane, ∃ xs : List Nat, ∃ a : Block, ∃ g, g = (groupOf e).getD 0 ∧ storesWf a = true ∧ live a t = true ∧ (tw a (partner t)).svc ≠ .inService ∧ (tw a t).ctrlIn = .handover { dirty := ds } :: rest ∧ a.pair.op = some (.detach, partner t) ∧ ownPort (partner t) e = true ∧ (∀ p ∈ a.engines, p.1 ≠ e → p.2.claims = []) ∧ (engOf a e).claims = [c] ∧ c.fwd = false ∧ c.lane = none ∧ admissible { a with pair := { a.pair with driver := some t } } e = true ∧ recsInUse a t < 65536 ∧ key / 64 = g ∧ key % 4 < 3 ∧ (tw a t).rack.lanes = [(key, l)] ∧ l.slots = x :: xs ∧ l.copies = [] ∧ laneCached l ≠ 0 ∧ x < 524288 ∧ nodeWhy a t g x = .ok ∧ (nodeOf a (nodeIdOf t x)).kind ≠ kRebake ∧ 0 < (groupBest a t g).1 :=
  ⟨.t0, [], [], 64, 64, 5, {}, { slots := [5] }, [], { on with tw0 := { svc := .inService, ctrlIn := [.handover {}], rack := { lanes := [(64, { slots := [5] })] }, cat := { nodes := [(5, { st := .ready })] } }, tw1 := { svc := .detaching }, pair := { op := some (.detach, .t1) }, engines := [(64, { inService := true, claims := [{}] })] }, _, rfl, by decide⟩

theorem TwinsChangeService_9_1_witness : ∃ t : TwinId, ∃ rest : List ControlItem, ∃ ds : List Nat, ∃ a : Block, (storesWf a = true ∧ (tw a t).halted = false) ∧ (tw a t).ctrlIn = .handover { dirty := ds } :: rest ∧ (a.pair.op = some (.rejoin, t) ∧ (∀ p ∈ a.engines, p.2.claims = [])) ∧ (∀ c, (coreOf a c).asking = false) :=
  ⟨.t0, _, [], { on with tw0 := { svc := .inService, ctrlIn := [.handover {}] }, pair := { op := some (.rejoin, .t0) } }, by decide, rfl, by decide, fun _ => rfl⟩

theorem TwinsChangeService_10_1_witness : ∃ t : TwinId, ∃ ok : Bool, ∃ a : Block, ∃ w, w = 2 ^ 63 + b2n ok * 2 ^ 62 ∧ testRuns a t = true :=
  ⟨.t0, true, { on with phase := 5, boot := { loaded0 := true, header := [3] } }, _, rfl, by decide⟩

theorem TwinsChangeService_10_2_witness : ∃ t : TwinId, ∃ ok : Bool, ∃ a : Block, ∃ w, w = 2 ^ 63 + b2n ok * 2 ^ 62 ∧ (testRuns a t = false ∧ a.pair.op = some (.detach, t) ∧ a.pair.driver = some (partner t)) ∧ (∀ q, (tw a t).rel.test = some q → pairGroup q.group = false) :=
  ⟨.t0, true, { on with pair := { op := some (.detach, .t0), driver := some .t1 } }, _, rfl, by decide, (fun _ h => by cases h)⟩

theorem TwinsChangeService_10_3_witness : ∃ t : TwinId, ∃ ok : Bool, ∃ a : Block, ∃ w, w = 2 ^ 63 + b2n ok * 2 ^ 62 ∧ (testRuns a t = false ∧ a.pair.op = some (.recover, t) ∧ ok = true) ∧ (∀ q, (tw a t).rel.test = some q → pairGroup q.group = false) :=
  ⟨.t0, true, { on with pair := { op := some (.recover, .t0) } }, _, rfl, by decide, (fun _ h => by cases h)⟩

theorem TwinsChangeService_10_4_witness : ∃ t : TwinId, ∃ ok : Bool, ∃ a : Block, ∃ w, w = 2 ^ 63 + b2n ok * 2 ^ 62 ∧ (testRuns a t = false ∧ a.pair.op = some (.recover, t) ∧ ok = false ∧ (tw a t).svc = .recovering) ∧ (∀ q, (tw a t).rel.test = some q → pairGroup q.group = false) ∧ bitOf (reg a blkKey 0x250) 4 = false ∧ (∀ c, (coreOf a c).running = none) ∧ (∀ c, (coreOf a c).asking = false) :=
  ⟨.t0, false, { on with tw0 := { svc := .recovering }, pair := { op := some (.recover, .t0) }, pages := [(0, { regs := [(0x250, some 0)] })] }, _, rfl, by decide, (fun _ h => by cases h), by decide, fun _ => rfl, fun _ => rfl⟩

theorem TwinsChangeService_11_1_witness : ∃ t : TwinId, ∃ g : BitVec 8, ∃ bank : BitVec 8, ∃ n : BitVec 16, ∃ ok : Bool, ∃ a : Block, ∃ x, x = sramOf a t g.toNat ∧ ∃ phys, phys = physOf x g.toNat bank.toNat ∧ ∃ free, free = 8 - mapGet 0 x.rows phys ∧ testRuns a t = true ∧ marches a t g.toNat bank.toNat = true ∧ storesWf a = true ∧ n.toNat ≤ free :=
  ⟨.t0, 2, 3, 1, true, { on with phase := 5, boot := { loaded0 := true, header := [3] } }, _, rfl, _, rfl, _, rfl, by decide⟩

theorem TwinsChangeService_11_2_witness : ∃ t : TwinId, ∃ g : BitVec 8, ∃ bank : BitVec 8, ∃ n : BitVec 16, ∃ ok : Bool, ∃ a : Block, ∃ x, x = sramOf a t g.toNat ∧ ∃ phys, phys = physOf x g.toNat bank.toNat ∧ ∃ free, free = 8 - mapGet 0 x.rows phys ∧ testRuns a t = true ∧ marches a t g.toNat bank.toNat = true ∧ storesWf a = true ∧ free < n.toNat ∧ bank.toNat < dataBanks g.toNat ∧ x.noSpare = false :=
  ⟨.t0, 2, 3, 9, true, { on with phase := 5, boot := { loaded0 := true, header := [3] } }, _, rfl, _, rfl, _, rfl, by decide⟩

theorem TwinsChangeService_11_3_witness : ∃ t : TwinId, ∃ g : BitVec 8, ∃ bank : BitVec 8, ∃ n : BitVec 16, ∃ ok : Bool, ∃ a : Block, ∃ x, x = sramOf a t g.toNat ∧ ∃ phys, phys = physOf x g.toNat bank.toNat ∧ ∃ free, free = 8 - mapGet 0 x.rows phys ∧ testRuns a t = true ∧ marches a t g.toNat bank.toNat = true ∧ storesWf a = true ∧ free < n.toNat ∧ bank.toNat < dataBanks g.toNat ∧ x.noSpare = true :=
  ⟨.t0, 2, 3, 9, true, { on with tw0 := { svc := .inService, rel := { groups := [(2, { noSpare := true })] } }, phase := 5, boot := { loaded0 := true, header := [3] } }, _, rfl, _, rfl, _, rfl, by decide⟩

theorem TwinsChangeService_11_4_witness : ∃ t : TwinId, ∃ g : BitVec 8, ∃ bank : BitVec 8, ∃ n : BitVec 16, ∃ ok : Bool, ∃ a : Block, ∃ x, x = sramOf a t g.toNat ∧ ∃ phys, phys = physOf x g.toNat bank.toNat ∧ ∃ free, free = 8 - mapGet 0 x.rows phys ∧ testRuns a t = true ∧ marches a t g.toNat bank.toNat = true ∧ storesWf a = true ∧ free < n.toNat ∧ bank.toNat = dataBanks g.toNat :=
  ⟨.t0, 2, 16, 9, true, { on with phase := 5, boot := { loaded0 := true, header := [3] } }, _, rfl, _, rfl, _, rfl, by decide⟩

theorem TwinsChangeService_12_1_witness : ∃ src : Requester, ∃ t : TwinId, ∃ a : Block, (served a src blkKey = true ∧ a.pair.op = none) ∧ ∃ st, st = (if bitOf (tw a t).rel.testStat 63 = true ∧ bitOf (tw a t).rel.testStat 62 = false then 5 else if (tw a t).svc ≠ .detached ∨ (tw a (partner t)).svc ≠ .inService then 1 else 0) ∧ st = 0 :=
  ⟨.archivist .t0, .t0, { on with tw0 := { svc := .detached } }, by decide, _, by decide, rfl⟩

theorem TwinsChangeService_12_2_witness : ∃ src : Requester, ∃ t : TwinId, ∃ a : Block, (served a src blkKey = true ∧ a.pair.op = none) ∧ ∃ st, st = (if bitOf (tw a t).rel.testStat 63 = true ∧ bitOf (tw a t).rel.testStat 62 = false then 5 else if (tw a t).svc ≠ .detached ∨ (tw a (partner t)).svc ≠ .inService then 1 else 0) ∧ st ≠ 0 :=
  ⟨.archivist .t0, .t0, on, by decide, 1, by decide⟩

theorem TwinsChangeService_13_1_witness : ∃ t : TwinId, ∃ rest : List ControlItem, ∃ a : Block, (tw a t).ctrlIn = .resync :: rest :=
  ⟨.t0, _, { on with tw0 := { svc := .inService, ctrlIn := [.resync] } }, rfl⟩

theorem TwinsChangeService_14_1_witness : ∃ src : Requester, ∃ t : TwinId, ∃ a : Block, (storesWf a = true ∧ served a src blkKey = true ∧ a.pair.op = none ∧ a.pair.isFatal = false ∧ (tw a t).svc = .inService ∧ (tw a (partner t)).svc = .inService ∧ bitOf (reg a blkKey 0x250) 4 = false) ∧ (∀ c, (coreOf a c).running = none) ∧ (∀ c, (coreOf a c).asking = false) :=
  ⟨.archivist .t0, .t0, { on with pages := [(0, { regs := [(0x250, some 0)] })] }, by decide, fun _ => rfl, fun _ => rfl⟩

theorem TwinsChangeService_15_1_witness : ∃ src : Requester, ∃ t : TwinId, ∃ a : Block, served a src blkKey = true ∧ a.pair.op = none ∧ (tw a t).svc = .fatal ∧ a.pair.dumpBusy = false ∧ a.pair.isFatal = false :=
  ⟨.archivist .t0, .t0, { on with tw0 := { svc := .fatal } }, by decide⟩

theorem TwinsChangeService_15_2_witness : ∃ src : Requester, ∃ t : TwinId, ∃ a : Block, served a src blkKey = true ∧ a.pair.op = none ∧ ((tw a t).svc ≠ .fatal ∨ a.pair.dumpBusy = true ∨ a.pair.isFatal = true) :=
  ⟨.archivist .t0, .t0, on, by decide⟩

/-! DayBookAndInventoryAct -/

theorem DayBookAndInventoryAct_1_1_witness : ∃ t : TwinId, ∃ r : TraceRec, ∃ rest : List TraceRec, ∃ a : Block, ∃ o, o = (tw a t).obs ∧ ∃ n, n = bookSize a t ∧ ∃ lost : TraceRec, lost = { w0 := 0x0E * 2 ^ 56 + twinNum t * 2 ^ 47, time := a.time, w2 := o.lostSince % 2 ^ 32 } ∧ ∃ all, all = rest ++ (if o.lostSince = 0 then [] else [lost]) ++ o.wfgOut ∧ ∃ next, next = all.take 2048 ∧ storesWf a = true ∧ bookOn a t = true ∧ o.ringOut = true ∧ o.staged = r :: rest ∧ rest.length < 2048 ∧ next = [] :=
  ⟨.t0, {}, [], { on with tw0 := { svc := .inService, obs := { staged := [{}], ringOut := true } }, pages := [(30, { regs := [(0x100, some (2 ^ 63))] })] }, _, rfl, _, rfl, _, rfl, _, rfl, _, rfl, by decide⟩

theorem DayBookAndInventoryAct_1_2_witness : ∃ t : TwinId, ∃ r : TraceRec, ∃ rest : List TraceRec, ∃ a : Block, ∃ o, o = (tw a t).obs ∧ ∃ n, n = bookSize a t ∧ ∃ lost : TraceRec, lost = { w0 := 0x0E * 2 ^ 56 + twinNum t * 2 ^ 47, time := a.time, w2 := o.lostSince % 2 ^ 32 } ∧ ∃ all, all = rest ++ (if o.lostSince = 0 then [] else [lost]) ++ o.wfgOut ∧ ∃ next, next = all.take 2048 ∧ (storesWf a = true ∧ bookOn a t = true ∧ o.ringOut = true ∧ o.staged = r :: rest ∧ rest.length < 2048) ∧ ∃ q, ∃ qs, next = q :: qs :=
  ⟨.t0, {}, [{}], { on with tw0 := { svc := .inService, obs := { staged := [{}, {}], ringOut := true } }, pages := [(30, { regs := [(0x100, some (2 ^ 63))] })] }, _, rfl, _, rfl, _, rfl, _, rfl, _, rfl, by decide, _, _, rfl⟩

theorem DayBookAndInventoryAct_2_1_witness : ∃ t : TwinId, ∃ a : Block, (tw a t).obs.ringOut = false :=
  ⟨.t0, on, by decide⟩

theorem DayBookAndInventoryAct_3_1_witness : ∃ t : TwinId, ∃ a : Block, storesWf a = true ∧ bookOn a t = true ∧ (tw a t).obs.ringOut = true :=
  ⟨.t0, { on with tw0 := { svc := .inService, obs := { staged := [{}], ringOut := true } }, pages := [(30, { regs := [(0x100, some (2 ^ 63))] })] }, by decide⟩

theorem DayBookAndInventoryAct_3_2_witness : ∃ t : TwinId, ∃ a : Block, storesWf a = true ∧ (tw a t).obs.ringOut = false :=
  ⟨.t0, on, by decide⟩

theorem DayBookAndInventoryAct_4_1_witness : ∃ src : Requester, ∃ t : TwinId, ∃ acc : Access, ∃ v : Word64, ∃ a : Block, ∃ n, n = mergeAcc (tw a t).obs.rd acc v.toNat ∧ served a src (twKey t daybP) = true ∧ (tw a t).obs.rd ≤ n ∧ n ≤ (tw a t).obs.wr :=
  ⟨.archivist .t0, .t0, .full, 5, { on with tw0 := { svc := .inService, obs := { wr := 8 } } }, _, rfl, by decide⟩

theorem DayBookAndInventoryAct_4_2_witness : ∃ src : Requester, ∃ t : TwinId, ∃ acc : Access, ∃ v : Word64, ∃ a : Block, ∃ n, n = mergeAcc (tw a t).obs.rd acc v.toNat ∧ served a src (twKey t daybP) = true ∧ (n < (tw a t).obs.rd ∨ (tw a t).obs.wr < n) :=
  ⟨.archivist .t0, .t0, .full, 9, { on with tw0 := { svc := .inService, obs := { wr := 8 } } }, _, rfl, by decide⟩

theorem DayBookAndInventoryAct_5_1_witness : ∃ src : Requester, ∃ t : TwinId, ∃ all : Bool, ∃ ctx : CtxId, ∃ a : Block, ∃ st, st = (if bitOf (reg a (twKey t daybP) 0x100) 63 = false then 1 else if all = false ∧ ((ctxOf a ctx.toNat).st = .closed ∨ (ctxOf a ctx.toNat).home ≠ t) then 2 else if (tw a t).halted = true then 3 else 0) ∧ served a src (twKey t daybP) = true ∧ (tw a t).obs.wfgBusy = true :=
  ⟨.archivist .t0, .t0, true, 0, { on with tw0 := { svc := .inService, obs := { wfgBusy := true } } }, 1, by decide⟩

theorem DayBookAndInventoryAct_5_2_witness : ∃ src : Requester, ∃ t : TwinId, ∃ all : Bool, ∃ ctx : CtxId, ∃ a : Block, ∃ st, st = (if bitOf (reg a (twKey t daybP) 0x100) 63 = false then 1 else if all = false ∧ ((ctxOf a ctx.toNat).st = .closed ∨ (ctxOf a ctx.toNat).home ≠ t) then 2 else if (tw a t).halted = true then 3 else 0) ∧ served a src (twKey t daybP) = true ∧ (tw a t).obs.wfgBusy = false ∧ st ≠ 0 :=
  ⟨.archivist .t0, .t0, true, 0, on, 1, by decide⟩

theorem DayBookAndInventoryAct_5_3_witness : ∃ src : Requester, ∃ t : TwinId, ∃ all : Bool, ∃ ctx : CtxId, ∃ a : Block, ∃ st, (st = (if bitOf (reg a (twKey t daybP) 0x100) 63 = false then 1 else if all = false ∧ ((ctxOf a ctx.toNat).st = .closed ∨ (ctxOf a ctx.toNat).home ≠ t) then 2 else if (tw a t).halted = true then 3 else 0) ∧ served a src (twKey t daybP) = true ∧ (tw a t).obs.wfgBusy = false) ∧ st = 0 :=
  ⟨.archivist .t0, .t0, true, 0, { on with pages := [(30, { regs := [(0x100, some (2 ^ 63))] })] }, _, by decide, rfl⟩

theorem DayBookAndInventoryAct_6_1_witness : ∃ t : TwinId, ∃ ws : List (Nat × List Wait), ∃ a : Block, (tw a t).obs.wfgBusy = true ∧ (tw a t).obs.wfgWaits = ws :=
  ⟨.t0, [(0, [])], { on with tw0 := { svc := .inService, obs := { wfgBusy := true, wfgWaits := [(0, [])] } } }, by decide⟩

theorem DayBookAndInventoryAct_7_1_witness : ∃ t : TwinId, ∃ k : Nat, ∃ w : Wait, ∃ a : Block, ∃ stale, stale = !((waitsOf a k).any fun v => v.tube == w.tube && v.waiter == w.waiter && v.kind == w.kind && v.on == w.on) ∧ bookOn a t = true ∧ (tw a t).obs.wfgBusy = true ∧ (tw a t).obs.wfgWaits = [(k, [w])] ∧ w.tube = false ∧ (tw a t).obs.staged = [] :=
  ⟨.t0, 0, { kind := 1 }, { on with tw0 := { svc := .inService, obs := { wfgBusy := true, wfgWaits := [(0, [{ kind := 1 }])] } }, pages := [(30, { regs := [(0x100, some (2 ^ 63))] })] }, _, rfl, by decide⟩

theorem DayBookAndInventoryAct_8_1_witness : ∃ src : Requester, ∃ t : TwinId, ∃ acc : Access, ∃ v : Word64, ∃ a : Block, ∃ w, w = mergeAcc (reg a (twKey t invP) 0x100) acc v.toNat ∧ storesWf a = true ∧ served a src (twKey t invP) = true ∧ fld w 63 56 ≠ 8 :=
  ⟨.archivist .t0, .t0, .full, 0, on, _, rfl, by decide⟩

theorem DayBookAndInventoryAct_9_1_witness : ∃ t : TwinId, ∃ a : Block, ∃ o, o = invObject a t (fld (reg a (twKey t invP) 0x100) 63 56) (fld (reg a (twKey t invP) 0x100) 23 0) ∧ storesWf a = true ∧ (tw a t).obs.invBusy = true ∧ (fld (reg a (twKey t invP) 0x100) 63 56 = 8 → invReading a (twinNum t * 32768 + fld (reg a (twKey t invP) 0x100) 23 0) = false) :=
  ⟨.t0, { on with tw0 := { svc := .inService, obs := { invBusy := true } } }, _, rfl, by decide⟩

theorem DayBookAndInventoryAct_10_1_witness : ∃ src : Requester, ∃ t : TwinId, ∃ a : Block, served a src (twKey t deskP) = true :=
  ⟨.archivist .t0, .t0, on, by decide⟩

theorem DayBookAndInventoryAct_11_1_witness : ∃ src : Requester, ∃ t : TwinId, ∃ a : Block, served a src (twKey t lardP) = true :=
  ⟨.archivist .t0, .t0, on, by decide⟩

/-! ResetsAndBringUpAct -/

theorem ResetsAndBringUpAct_2_1_witness : ∃ a : Block, ∃ w : Twin, w = { cat := { walked := a.time / 1024 } } ∧ a.phase ≠ 0 :=
  ⟨on, _, rfl, by decide⟩

theorem ResetsAndBringUpAct_2_2_witness : ∃ a : Block, ∃ w : Twin, w = { cat := { walked := a.time / 1024 } } ∧ a.phase = 0 :=
  ⟨{ on with phase := 0 }, _, rfl, by decide⟩

theorem ResetsAndBringUpAct_3_1_witness : ∃ src : Requester, ∃ v : Word64, ∃ a : Block, ∃ w : Twin, w = { cat := { walked := a.time / 1024 } } ∧ served a src blkKey = true ∧ fld v.toNat 63 48 = 0xC0DE ∧ bitOf v.toNat 0 = true :=
  ⟨.archivist .t0, 0xC0DE000000000001, on, _, rfl, by decide⟩

theorem ResetsAndBringUpAct_3_2_witness : ∃ src : Requester, ∃ v : Word64, ∃ a : Block, ∃ w : Twin, w = { cat := { walked := a.time / 1024 } } ∧ served a src blkKey = true ∧ (fld v.toNat 63 48 ≠ 0xC0DE ∨ bitOf v.toNat 0 = false) :=
  ⟨.archivist .t0, 0, on, _, rfl, by decide⟩

theorem ResetsAndBringUpAct_4_1_witness : ∃ a : Block, storesWf a = true ∧ a.boot.gated = true :=
  ⟨{ on with boot := { gated := true } }, by decide⟩

theorem ResetsAndBringUpAct_4_2_witness : ∃ a : Block, storesWf a = true ∧ a.boot.gated = false :=
  ⟨on, by decide⟩

theorem ResetsAndBringUpAct_5_1_witness : ∃ a : Block, a.phase = 1 :=
  ⟨{ on with phase := 1 }, by decide⟩

theorem ResetsAndBringUpAct_5_2_witness : ∃ a : Block, a.phase ≠ 1 :=
  ⟨on, by decide⟩

theorem ResetsAndBringUpAct_6_1_witness : ∃ i : Island, ∃ a : Block, a.phase = 2 ∧ i ∉ a.boot.good ∧ a.boot.good.length ≠ 2 :=
  ⟨.twin0, { on with phase := 2 }, by decide⟩

theorem ResetsAndBringUpAct_6_2_witness : ∃ i : Island, ∃ a : Block, a.phase = 2 ∧ i ∉ a.boot.good ∧ a.boot.good.length = 2 :=
  ⟨.twin0, { on with phase := 2, boot := { good := [.twin1, .pair] } }, by decide⟩

theorem ResetsAndBringUpAct_6_3_witness : ∃ i : Island, ∃ a : Block, (a.phase ≠ 2 ∨ i ∈ a.boot.good) :=
  ⟨.twin0, on, by decide⟩

theorem ResetsAndBringUpAct_7_1_witness : ∃ a : Block, a.phase = 3 :=
  ⟨{ on with phase := 3 }, by decide⟩

theorem ResetsAndBringUpAct_7_2_witness : ∃ a : Block, a.phase = 5 ∧ a.boot.test0.isSome = true ∧ a.boot.test1.isSome = true ∧ (¬(a.boot.test0 = some false ∧ a.boot.test1 = some false)) :=
  ⟨{ on with phase := 5, boot := { test0 := some true, test1 := some true } }, by decide⟩

theorem ResetsAndBringUpAct_7_3_witness : ∃ a : Block, a.phase = 5 ∧ a.boot.test0 = some false ∧ a.boot.test1 = some false ∧ bitOf (reg a blkKey 0x250) 4 = false :=
  ⟨{ on with phase := 5, boot := { test0 := some false, test1 := some false }, pages := [(0, { regs := [(0x250, some 0)] })] }, by decide⟩

theorem ResetsAndBringUpAct_7_4_witness : ∃ a : Block, a.phase = 5 ∧ a.boot.test0 = some false ∧ a.boot.test1 = some false ∧ bitOf (reg a blkKey 0x250) 4 = true ∧ a.freeze.pending = false ∧ a.freeze.frozen = none :=
  ⟨{ on with phase := 5, boot := { test0 := some false, test1 := some false } }, by decide⟩

theorem ResetsAndBringUpAct_8_1_witness : ∃ t : TwinId, ∃ g : Nat, ∃ n : Nat, ∃ bank : Nat, ∃ a : Block, storesWf a = true ∧ a.phase = 3 ∧ g < 256 ∧ bank < 256 ∧ n ≠ 0 ∧ a.fuses = [(fuseKey t g bank, n)] ∧ a.fuseBanks = [] :=
  ⟨.t0, 2, 1, 3, { on with phase := 3, fuses := [(515, 1)] }, by decide⟩

theorem ResetsAndBringUpAct_9_1_witness : ∃ t : TwinId, ∃ g : Nat, ∃ bank : Nat, ∃ a : Block, storesWf a = true ∧ a.phase = 3 ∧ g < 256 ∧ bank < 256 ∧ a.fuses = [] ∧ a.fuseBanks = [(fuseBankKey t g, bank + 1)] :=
  ⟨.t0, 2, 3, { on with phase := 3, fuseBanks := [(2, 4)] }, by decide⟩

theorem ResetsAndBringUpAct_10_1_witness : ∃ t : TwinId, ∃ answer : Option Word64, ∃ a : Block, ∃ yes, yes = (match answer with | some v => decide (v.toNat % 2 ^ 32 = 1) | none => false) ∧ a.phase = 4 ∧ polledOf a.boot t = false ∧ segOwner a (.twin t) ≠ some .tap :=
  ⟨.t0, some 1, { on with phase := 4 }, _, rfl, by decide⟩

theorem ResetsAndBringUpAct_11_1_witness : ∃ t : TwinId, ∃ answer : Option Word64, ∃ a : Block, (a.phase ≠ 4 ∨ polledOf a.boot t = true ∨ segOwner a (.twin t) = some .tap) :=
  ⟨.t0, none, on, by decide⟩

theorem ResetsAndBringUpAct_12_1_witness : ∃ t : TwinId, ∃ header : List Word64, ∃ image : List Byte, ∃ ioError : Bool, ∃ a : Block, ∃ h, h = header.map (·.toNat) ∧ ∃ len, len = h.getD 1 0 % 2 ^ 32 ∧ ∃ bad, bad = (if fld (h.getD 0 0) 63 32 ≠ 0x43544657 ∨ fld (h.getD 0 0) 31 16 ≠ 1 then 1 else if len < 4096 ∨ 524288 < len ∨ len % 4096 ≠ 0 then 2 else 0) ∧ ∃ err, err = (if ioError = true then 4 else if bad ≠ 0 then bad else if h.getD 3 0 % 2 ^ 32 ≠ crc32c image then 3 else 0) ∧ ∃ reads, reads = (if bad = 0 then [Output.nocRead t (bootArea + 0x1000) len] else []) ∧ ∃ tests, tests = bitOf (h.getD 0 0) (if a.boot.cause = 1 then 0 else 1) ∧ a.phase = 4 ∧ a.boot.polled0 = true ∧ polledOf a.boot t = true ∧ loadedOf a.boot t = false ∧ header.length = 8 ∧ (ioError = true ∨ bad ≠ 0 ∨ image.length = len) ∧ err ≠ 0 :=
  ⟨.t0, [0, 0, 0, 0, 0, 0, 0, 0], [], false, { on with phase := 4, boot := { polled0 := true } }, _, rfl, _, rfl, 1, by decide, 1, by decide, _, rfl, _, rfl, by decide⟩

theorem ResetsAndBringUpAct_12_2_witness : ∃ t : TwinId, ∃ header : List Word64, ∃ image : List Byte, ∃ ioError : Bool, ∃ a : Block, ∃ h, h = header.map (·.toNat) ∧ ∃ len, len = h.getD 1 0 % 2 ^ 32 ∧ ∃ bad, bad = (if fld (h.getD 0 0) 63 32 ≠ 0x43544657 ∨ fld (h.getD 0 0) 31 16 ≠ 1 then 1 else if len < 4096 ∨ 524288 < len ∨ len % 4096 ≠ 0 then 2 else 0) ∧ ∃ err, err = (if ioError = true then 4 else if bad ≠ 0 then bad else if h.getD 3 0 % 2 ^ 32 ≠ crc32c image then 3 else 0) ∧ ∃ reads, reads = (if bad = 0 then [Output.nocRead t (bootArea + 0x1000) len] else []) ∧ ∃ tests, tests = bitOf (h.getD 0 0) (if a.boot.cause = 1 then 0 else 1) ∧ a.phase = 4 ∧ a.boot.polled0 = true ∧ polledOf a.boot t = true ∧ loadedOf a.boot t = false ∧ header.length = 8 ∧ (ioError = true ∨ bad ≠ 0 ∨ image.length = len) ∧ err = 0 :=
  ⟨.t0, [0x4354465700010000, 4096, 0, 0x98F94189, 0, 0, 0, 0], List.replicate 4096 0, false, { on with phase := 4, boot := { polled0 := true } }, _, rfl, _, rfl, 0, by decide +kernel, 0, by decide +kernel, _, rfl, _, rfl, by decide +kernel⟩

theorem ResetsAndBringUpAct_12_3_witness : ∃ t : TwinId, ∃ header : List Word64, ∃ image : List Byte, ∃ ioError : Bool, ∃ a : Block, ∃ h, h = header.map (·.toNat) ∧ ∃ len, len = h.getD 1 0 % 2 ^ 32 ∧ ∃ bad, bad = (if fld (h.getD 0 0) 63 32 ≠ 0x43544657 ∨ fld (h.getD 0 0) 31 16 ≠ 1 then 1 else if len < 4096 ∨ 524288 < len ∨ len % 4096 ≠ 0 then 2 else 0) ∧ ∃ err, err = (if ioError = true then 4 else if bad ≠ 0 then bad else if h.getD 3 0 % 2 ^ 32 ≠ crc32c image then 3 else 0) ∧ ∃ reads, reads = (if bad = 0 then [Output.nocRead t (bootArea + 0x1000) len] else []) ∧ ∃ tests, tests = bitOf (h.getD 0 0) (if a.boot.cause = 1 then 0 else 1) ∧ a.phase = 4 ∧ a.boot.polled0 = true ∧ polledOf a.boot t = true ∧ loadedOf a.boot t = false ∧ header.length = 8 ∧ (ioError = true ∨ bad ≠ 0 ∨ image.length = len) ∧ err = 0 ∧ loadedOf a.boot (partner t) = false :=
  ⟨.t0, [0x4354465700010000, 4096, 0, 0x98F94189, 0, 0, 0, 0], List.replicate 4096 0, false, { on with phase := 4, boot := { polled0 := true } }, _, rfl, _, rfl, 0, by decide +kernel, 0, by decide +kernel, _, rfl, _, rfl, by decide +kernel⟩

theorem ResetsAndBringUpAct_12_4_witness : ∃ t : TwinId, ∃ header : List Word64, ∃ image : List Byte, ∃ ioError : Bool, ∃ a : Block, ∃ h, h = header.map (·.toNat) ∧ ∃ len, len = h.getD 1 0 % 2 ^ 32 ∧ ∃ bad, bad = (if fld (h.getD 0 0) 63 32 ≠ 0x43544657 ∨ fld (h.getD 0 0) 31 16 ≠ 1 then 1 else if len < 4096 ∨ 524288 < len ∨ len % 4096 ≠ 0 then 2 else 0) ∧ ∃ err, err = (if ioError = true then 4 else if bad ≠ 0 then bad else if h.getD 3 0 % 2 ^ 32 ≠ crc32c image then 3 else 0) ∧ ∃ reads, reads = (if bad = 0 then [Output.nocRead t (bootArea + 0x1000) len] else []) ∧ ∃ tests, tests = bitOf (h.getD 0 0) (if a.boot.cause = 1 then 0 else 1) ∧ a.phase = 4 ∧ a.boot.polled0 = true ∧ polledOf a.boot t = true ∧ loadedOf a.boot t = false ∧ header.length = 8 ∧ (ioError = true ∨ bad ≠ 0 ∨ image.length = len) ∧ err = 0 ∧ loadedOf a.boot (partner t) = true ∧ tests = true :=
  ⟨.t0, [0x4354465700010002, 4096, 0, 0x98F94189, 0, 0, 0, 0], List.replicate 4096 0, false, { on with phase := 4, boot := { polled0 := true, loaded1 := true } }, _, rfl, _, rfl, 0, by decide +kernel, 0, by decide +kernel, _, rfl, _, rfl, by decide +kernel⟩

theorem ResetsAndBringUpAct_12_5_witness : ∃ t : TwinId, ∃ header : List Word64, ∃ image : List Byte, ∃ ioError : Bool, ∃ a : Block, ∃ h, h = header.map (·.toNat) ∧ ∃ len, len = h.getD 1 0 % 2 ^ 32 ∧ ∃ bad, bad = (if fld (h.getD 0 0) 63 32 ≠ 0x43544657 ∨ fld (h.getD 0 0) 31 16 ≠ 1 then 1 else if len < 4096 ∨ 524288 < len ∨ len % 4096 ≠ 0 then 2 else 0) ∧ ∃ err, err = (if ioError = true then 4 else if bad ≠ 0 then bad else if h.getD 3 0 % 2 ^ 32 ≠ crc32c image then 3 else 0) ∧ ∃ reads, reads = (if bad = 0 then [Output.nocRead t (bootArea + 0x1000) len] else []) ∧ ∃ tests, tests = bitOf (h.getD 0 0) (if a.boot.cause = 1 then 0 else 1) ∧ a.phase = 4 ∧ a.boot.polled0 = true ∧ polledOf a.boot t = true ∧ loadedOf a.boot t = false ∧ header.length = 8 ∧ (ioError = true ∨ bad ≠ 0 ∨ image.length = len) ∧ err = 0 ∧ loadedOf a.boot (partner t) = true ∧ tests = false :=
  ⟨.t0, [0x4354465700010000, 4096, 0, 0x98F94189, 0, 0, 0, 0], List.replicate 4096 0, false, { on with phase := 4, boot := { polled0 := true, loaded1 := true } }, _, rfl, _, rfl, 0, by decide +kernel, 0, by decide +kernel, _, rfl, _, rfl, by decide +kernel⟩

/-! ServiceComesUp -/

theorem ServiceComesUp_1_1_witness : ∃ ok0 : Bool, ∃ ok1 : Bool, ∃ a : Block, (storesWf a = true ∧ a.phase = 6 ∧ a.boot.cause ≠ 4) ∧ (∀ d, (domOf a d).portReady = false) ∧ bitOf (reg a blkKey 0x250) 4 = false ∧ a.boot.test0 = some false :=
  ⟨true, true, { on with pages := [(0, { regs := [(0x250, some 0)] })], phase := 6, boot := { test0 := some false } }, by decide, fun _ => rfl, by decide⟩

theorem ServiceComesUp_1_2_witness : ∃ ok0 : Bool, ∃ ok1 : Bool, ∃ a : Block, (storesWf a = true ∧ a.phase = 6 ∧ a.boot.cause ≠ 4) ∧ (∀ d, (domOf a d).portReady = false) ∧ bitOf (reg a blkKey 0x250) 4 = false ∧ a.boot.test0 ≠ some false ∧ a.boot.test1 = some false :=
  ⟨true, true, { on with pages := [(0, { regs := [(0x250, some 0)] })], phase := 6, boot := { test1 := some false } }, by decide, fun _ => rfl, by decide⟩

theorem ServiceComesUp_1_3_witness : ∃ ok0 : Bool, ∃ ok1 : Bool, ∃ a : Block, (storesWf a = true ∧ a.phase = 6 ∧ a.boot.cause ≠ 4) ∧ (∀ d, (domOf a d).portReady = false) ∧ bitOf (reg a blkKey 0x250) 4 = false ∧ a.boot.test0 ≠ some false ∧ a.boot.test1 ≠ some false ∧ ok0 = true ∧ ok1 = true :=
  ⟨true, true, { on with pages := [(0, { regs := [(0x250, some 0)] })], phase := 6 }, by decide, fun _ => rfl, by decide⟩

theorem ServiceComesUp_1_4_witness : ∃ ok0 : Bool, ∃ ok1 : Bool, ∃ a : Block, (storesWf a = true ∧ a.phase = 6 ∧ a.boot.cause ≠ 4) ∧ (∀ d, (domOf a d).portReady = false) ∧ bitOf (reg a blkKey 0x250) 4 = false ∧ a.boot.test0 ≠ some false ∧ a.boot.test1 ≠ some false ∧ (ok0 = false ∨ ok1 = false) :=
  ⟨false, true, { on with pages := [(0, { regs := [(0x250, some 0)] })], phase := 6 }, by decide, fun _ => rfl, by decide⟩

theorem ServiceComesUp_2_1_witness : ∃ ok0 : Bool, ∃ ok1 : Bool, ∃ a : Block, ∃ f : TwinId, (f = (if a.boot.test0 = some false then .t0 else .t1) ∧ storesWf a = true ∧ a.phase = 6) ∧ (∀ d, (domOf a d).portReady = false) ∧ bitOf (reg a blkKey 0x250) 4 = true ∧ a.freeze.pending = false ∧ a.freeze.frozen = none ∧ (a.boot.test0 = some false ∨ a.boot.test1 = some false ∨ ok0 = false ∨ ok1 = false) :=
  ⟨false, true, { on with phase := 6 }, .t1, by decide, fun _ => rfl, by decide⟩

theorem ServiceComesUp_3_1_witness : ∃ ok0 : Bool, ∃ ok1 : Bool, ∃ a : Block, (storesWf a = true ∧ a.phase = 6 ∧ a.boot.cause = 4 ∧ a.proof.init = .done) ∧ (∀ d, (domOf a d).portReady = false) :=
  ⟨true, true, { on with phase := 6, boot := { cause := 4 }, proof := { init := .done } }, by decide, fun _ => rfl⟩

theorem ServiceComesUp_4_1_witness : ∃ p : Port, ∃ a : Block, ∃ d, d = portNum p ∧ storesWf a = true ∧ (144 ≤ d → a.phase < 7 ∨ 9 < a.phase) ∧ (d < 144 → (domOf a d).st ≠ .run ∨ domBegun a d = false) :=
  ⟨.cluster 0, on, _, rfl, by decide⟩

theorem ServiceComesUp_5_1_witness : ∃ p : Port, ∃ a : Block, ∃ d, d = portNum p ∧ storesWf a = true ∧ (domOf a d).serviced = false ∧ (144 ≤ d → 7 ≤ a.phase ∧ a.phase ≤ 9) ∧ (d < 144 → (domOf a d).st = .run ∧ domBegun a d = true) :=
  ⟨.cluster 0, { on with proof := { begun := 1 } }, _, rfl, by decide⟩

theorem ServiceComesUp_6_1_witness : ∃ a : Block, ∃ n, n = a.proof.begun ∧ storesWf a = true ∧ a.proof.init = .starting :=
  ⟨{ on with proof := { init := .starting } }, _, rfl, by decide⟩

theorem ServiceComesUp_7_1_witness : ∃ port : BitVec 3, ∃ fn : BitVec 8, ∃ a : Block, a.phase = 7 :=
  ⟨0, 0, { on with phase := 7 }, by decide⟩

theorem ServiceComesUp_7_2_witness : ∃ port : BitVec 3, ∃ fn : BitVec 8, ∃ a : Block, a.phase ≠ 7 :=
  ⟨0, 0, on, by decide⟩

theorem ServiceComesUp_8_1_witness : ∃ src : Requester, ∃ v : Word64, ∃ a : Block, served a src blkKey = true ∧ a.phase = 8 ∧ bitOf v.toNat 0 = true ∧ runReady a = true :=
  ⟨.archivist .t0, 1, { on with tw1 := { svc := .fatal }, phase := 8, pages := [(0, { enable := true }), (2, { enable := true }), (3, { enable := true })] ++ (List.range 16).map fun p => (16 + p, { enable := true, regs := [(0x100, some (2 ^ 63))] }) }, by decide⟩

theorem ServiceComesUp_8_2_witness : ∃ src : Requester, ∃ v : Word64, ∃ a : Block, served a src blkKey = true ∧ a.phase = 8 ∧ bitOf v.toNat 0 = true ∧ runReady a = false :=
  ⟨.archivist .t0, 1, { on with phase := 8 }, by decide⟩

theorem ServiceComesUp_8_3_witness : ∃ src : Requester, ∃ v : Word64, ∃ a : Block, served a src blkKey = true ∧ (a.phase ≠ 8 ∨ bitOf v.toNat 0 = false) :=
  ⟨.archivist .t0, 0, on, by decide⟩

theorem ServiceComesUp_9_1_witness : ∃ t : TwinId, ∃ g : BitVec 8, ∃ bank : BitVec 8, ∃ ok : Bool, ∃ a : Block, ∃ key, key = fuseKey t g.toNat bank.toNat ∧ ∃ gk, gk = fuseBankKey t g.toNat ∧ ∃ whole, whole = (outOfUse a t g.toNat bank.toNat && mapGet 0 a.fuseBanks gk == 0) ∧ ∃ row, row = decide (mapGet 0 a.fuses key < mapGet 0 (sramOf a t g.toNat).rows bank.toNat) ∧ storesWf a = true ∧ ((tw a t).svc = .detached ∨ a.phase = 7) ∧ tapHolds a t g.toNat = false ∧ whole = true ∧ ok = true :=
  ⟨.t0, 2, 3, true, { on with tw0 := { svc := .inService, rel := { groups := [(2, { noSpare := true, retired := 1, place := [(3, 17)] })] } }, phase := 7 }, _, rfl, _, rfl, _, rfl, _, rfl, by decide⟩

theorem ServiceComesUp_9_2_witness : ∃ t : TwinId, ∃ g : BitVec 8, ∃ bank : BitVec 8, ∃ ok : Bool, ∃ a : Block, ∃ key, key = fuseKey t g.toNat bank.toNat ∧ ∃ gk, gk = fuseBankKey t g.toNat ∧ ∃ whole, whole = (outOfUse a t g.toNat bank.toNat && mapGet 0 a.fuseBanks gk == 0) ∧ ∃ row, row = decide (mapGet 0 a.fuses key < mapGet 0 (sramOf a t g.toNat).rows bank.toNat) ∧ storesWf a = true ∧ ((tw a t).svc = .detached ∨ a.phase = 7) ∧ tapHolds a t g.toNat = false ∧ whole = false ∧ row = true ∧ ok = true :=
  ⟨.t0, 2, 3, true, { on with tw0 := { svc := .inService, rel := { groups := [(2, { rows := [(3, 1)] })] } }, phase := 7 }, _, rfl, _, rfl, _, rfl, _, rfl, by decide⟩

theorem ServiceComesUp_9_3_witness : ∃ t : TwinId, ∃ g : BitVec 8, ∃ bank : BitVec 8, ∃ ok : Bool, ∃ a : Block, ∃ key, key = fuseKey t g.toNat bank.toNat ∧ ∃ gk, gk = fuseBankKey t g.toNat ∧ ∃ whole, whole = (outOfUse a t g.toNat bank.toNat && mapGet 0 a.fuseBanks gk == 0) ∧ ∃ row, row = decide (mapGet 0 a.fuses key < mapGet 0 (sramOf a t g.toNat).rows bank.toNat) ∧ storesWf a = true ∧ ((tw a t).svc = .detached ∨ a.phase = 7) ∧ tapHolds a t g.toNat = false ∧ (whole = true ∨ row = true) ∧ ok = false :=
  ⟨.t0, 2, 3, false, { on with tw0 := { svc := .inService, rel := { groups := [(2, { rows := [(3, 1)] })] } }, phase := 7 }, _, rfl, _, rfl, _, rfl, _, rfl, by decide⟩

theorem ServiceComesUp_9_4_witness : ∃ t : TwinId, ∃ g : BitVec 8, ∃ bank : BitVec 8, ∃ ok : Bool, ∃ a : Block, ∃ key, key = fuseKey t g.toNat bank.toNat ∧ ∃ gk, gk = fuseBankKey t g.toNat ∧ ∃ whole, whole = (outOfUse a t g.toNat bank.toNat && mapGet 0 a.fuseBanks gk == 0) ∧ ∃ row, row = decide (mapGet 0 a.fuses key < mapGet 0 (sramOf a t g.toNat).rows bank.toNat) ∧ storesWf a = true ∧ ((tw a t).svc = .detached ∨ a.phase = 7) ∧ tapHolds a t g.toNat = false ∧ whole = false ∧ row = false :=
  ⟨.t0, 0, 0, true, { on with phase := 7 }, _, rfl, _, rfl, _, rfl, _, rfl, by decide⟩

theorem ServiceComesUp_10_1_witness : ∃ t : TwinId, ∃ g : BitVec 8, ∃ bank : BitVec 8, ∃ ok : Bool, ∃ a : Block, (((tw a t).svc ≠ .detached ∧ a.phase ≠ 7) ∨ tapHolds a t g.toNat = true) :=
  ⟨.t0, 0, 0, true, on, by decide⟩

theorem ServiceComesUp_11_1_witness : ∃ who : SegmentParty, ∃ g : Segment, ∃ a : Block, segOwner a g = none ∧ mayOpen a who g = true :=
  ⟨.tap, .pairAon, { on with phase := 3 }, by decide⟩

theorem ServiceComesUp_11_2_witness : ∃ who : SegmentParty, ∃ g : Segment, ∃ a : Block, (segOwner a g ≠ none ∨ mayOpen a who g = false) :=
  ⟨.tap, .pairAon, on, by decide⟩

theorem ServiceComesUp_12_1_witness : ∃ who : SegmentParty, ∃ g : Segment, ∃ a : Block, segOwner a g = some who :=
  ⟨.tap, .pairAon, { on with mgmt := { segAon := some .tap } }, by decide⟩

theorem ServiceComesUp_12_2_witness : ∃ who : SegmentParty, ∃ g : Segment, ∃ a : Block, segOwner a g ≠ some who :=
  ⟨.tap, .pairAon, on, by decide⟩

/-! RegistersAndShadowsAct -/

theorem RegistersAndShadowsAct_1_1_witness : ∃ src : Requester, ∃ page : PageId, ∃ v : Bool, ∃ a : Block, ∃ key, key = keyOf page ∧ storesWf a = true ∧ served a src key = true ∧ 256 ≤ key :=
  ⟨.archivist .t0, .ctx 0, true, on, _, rfl, by decide⟩

theorem RegistersAndShadowsAct_1_2_witness : ∃ src : Requester, ∃ page : PageId, ∃ v : Bool, ∃ a : Block, ∃ key, key = keyOf page ∧ storesWf a = true ∧ served a src key = true ∧ key < 256 ∧ key ≠ pwrKey ∧ a.phase = 9 ∧ v = false :=
  ⟨.archivist .t0, .blk, false, on, _, rfl, by decide⟩

theorem RegistersAndShadowsAct_1_3_witness : ∃ src : Requester, ∃ page : PageId, ∃ v : Bool, ∃ a : Block, ∃ key, key = keyOf page ∧ storesWf a = true ∧ served a src key = true ∧ key < 256 ∧ key ≠ pwrKey ∧ (a.phase ≠ 9 ∨ v = true) :=
  ⟨.archivist .t0, .blk, true, on, _, rfl, by decide⟩

theorem RegistersAndShadowsAct_1_4_witness : ∃ src : Requester, ∃ page : PageId, ∃ v : Bool, ∃ a : Block, ∃ key, key = keyOf page ∧ storesWf a = true ∧ served a src key = true ∧ key = pwrKey ∧ v = true ∧ a.proof.init ≠ .idle :=
  ⟨.archivist .t0, .pwr, true, { on with proof := { init := .done } }, _, rfl, by decide⟩

theorem RegistersAndShadowsAct_1_5_witness : ∃ src : Requester, ∃ page : PageId, ∃ v : Bool, ∃ a : Block, ∃ key, key = keyOf page ∧ storesWf a = true ∧ served a src key = true ∧ key = pwrKey ∧ v = true ∧ a.proof.init = .idle :=
  ⟨.archivist .t0, .pwr, true, on, _, rfl, by decide⟩

theorem RegistersAndShadowsAct_2_1_witness : ∃ src : Requester, ∃ page : PageId, ∃ a : Block, ∃ key, key = keyOf page ∧ storesWf a = true ∧ served a src key = true ∧ shadowPend a key = false :=
  ⟨.archivist .t0, .blk, on, _, rfl, by decide⟩

theorem RegistersAndShadowsAct_2_2_witness : ∃ src : Requester, ∃ page : PageId, ∃ a : Block, ∃ key, key = keyOf page ∧ storesWf a = true ∧ served a src key = true ∧ shadowPend a key = true ∧ 256 ≤ key :=
  ⟨.archivist .t0, .ctx 0, { on with pages := [(256, { shadow := [(0x208, some 5)] })] }, _, rfl, by decide⟩

theorem RegistersAndShadowsAct_2_3_witness : ∃ src : Requester, ∃ page : PageId, ∃ a : Block, ∃ key, key = keyOf page ∧ (storesWf a = true ∧ served a src key = true) ∧ ∃ off, ∃ v, key < 256 ∧ key ≠ fmtKey ∧ (pageOf a key).shadow = [(off, some v)] :=
  ⟨.archivist .t0, .twin .t0 3, { on with pages := [(19, { shadow := [(0x100, some 5)] })] }, _, rfl, by decide, 0x100, 5, by decide⟩

theorem RegistersAndShadowsAct_3_1_witness : ∃ k : CtxId, ∃ a : Block, ∃ n, n = k.toNat ∧ storesWf a = true ∧ (ctxOf a n).commitPend = 0 :=
  ⟨0, on, _, rfl, by decide⟩

theorem RegistersAndShadowsAct_3_2_witness : ∃ k : CtxId, ∃ a : Block, ∃ n, n = k.toNat ∧ storesWf a = true ∧ ∃ off, ∃ v, (0 < (ctxOf a n).commitPend ∧ (pageOf a (ctxKey n)).shadow = [(off, some v)] ∧ isPartition off = false) ∧ (∀ t, (ctxTw a t n).inflHeld = false) :=
  ⟨0, { on with ctxs := [(0, { commitPend := 1 })], pages := [(256, { shadow := [(0x208, some 5)] })] }, _, rfl, by decide, 0x208, 5, by decide, by intro t; cases t <;> rfl⟩

theorem RegistersAndShadowsAct_4_1_witness : ∃ src : Requester, ∃ page : PageId, ∃ a : Block, ∃ key, key = keyOf page ∧ storesWf a = true ∧ served a src key = true ∧ key ≠ fmtKey :=
  ⟨.archivist .t0, .blk, on, _, rfl, by decide⟩

theorem RegistersAndShadowsAct_4_2_witness : ∃ src : Requester, ∃ page : PageId, ∃ a : Block, ∃ key, key = keyOf page ∧ storesWf a = true ∧ served a src key = true ∧ key = fmtKey :=
  ⟨.archivist .t0, .fmt, on, _, rfl, by decide⟩

theorem RegistersAndShadowsAct_5_1_witness : ∃ src : Requester, ∃ addr : BitVec 26, ∃ size : Nat, ∃ a : Block, held a src = false ∧ placeOf addr.toNat = .reserved :=
  ⟨.archivist .t0, 0x5000, 8, on, by decide⟩

theorem RegistersAndShadowsAct_5_2_witness : ∃ src : Requester, ∃ addr : BitVec 26, ∃ size : Nat, ∃ a : Block, held a src = false ∧ ∃ key, ∃ off, ∃ at8, (placeOf addr.toNat = .page key off ∧ at8 = off / 8 * 8 ∧ gradeOf a src (if 256 ≤ key then some (key - 256) else none) = .manager ∧ (¬((key = twKey .t0 catP ∨ key = twKey .t1 catP) ∧ at8 = 0x120))) ∧ ∃ acc, accessOf off size = some acc :=
  ⟨.archivist .t0, 0x10, 8, on, by decide, 0, 16, 16, by decide, .full, by decide⟩

theorem RegistersAndShadowsAct_5_3_witness : ∃ src : Requester, ∃ addr : BitVec 26, ∃ size : Nat, ∃ a : Block, held a src = false ∧ ∃ key, ∃ off, ∃ at8, placeOf addr.toNat = .page key off ∧ at8 = off / 8 * 8 ∧ gradeOf a src (if 256 ≤ key then some (key - 256) else none) = .manager ∧ (¬((key = twKey .t0 catP ∨ key = twKey .t1 catP) ∧ at8 = 0x120)) ∧ accessOf off size = none :=
  ⟨.archivist .t0, 0x11, 8, on, by decide, 0, 17, 16, by decide⟩

theorem RegistersAndShadowsAct_6_1_witness : ∃ port : BitVec 3, ∃ fn : BitVec 8, ∃ addr : BitVec 26, ∃ size : Nat, ∃ a : Block, ∃ key, ∃ off, storesWf a = true ∧ held a (.host port fn) = false ∧ placeOf addr.toNat = .page key off ∧ gradeOf a (.host port fn) (if 256 ≤ key then some (key - 256) else none) = .denied :=
  ⟨0, 0, 0x10, 8, on, 0, 16, by decide⟩

theorem RegistersAndShadowsAct_7_1_witness : ∃ src : Requester, ∃ addr : BitVec 26, ∃ size : Nat, ∃ v : BitVec 512, ∃ a : Block, placeOf addr.toNat = .reserved :=
  ⟨.archivist .t0, 0x5000, 8, 0, on, by decide⟩

theorem RegistersAndShadowsAct_7_2_witness : ∃ src : Requester, ∃ addr : BitVec 26, ∃ size : Nat, ∃ v : BitVec 512, ∃ a : Block, ∃ key, ∃ off, placeOf addr.toNat = .page key off ∧ served a src key = true ∧ accessOf off size = none :=
  ⟨.archivist .t0, 0x11, 8, 0, on, 0, 17, by decide⟩

theorem RegistersAndShadowsAct_8_1_witness : ∃ src : Requester, ∃ addr : BitVec 26, ∃ v : BitVec 512, ∃ a : Block, ∃ key, storesWf a = true ∧ placeOf addr.toNat = .page key 0x18 ∧ served a src key = true :=
  ⟨.archivist .t0, 0x18, 0, on, 0, by decide⟩

theorem RegistersAndShadowsAct_9_1_witness : ∃ src : Requester, ∃ addr : BitVec 26, ∃ size : Nat, ∃ v : BitVec 512, ∃ a : Block, ∃ key, ∃ o, ∃ off, ∃ acc, ∃ m, (storesWf a = true ∧ placeOf addr.toNat = .page key o ∧ off = o / 8 * 8 ∧ accessOf o size = some acc ∧ isPut key off = false ∧ m = rwMask (pageType key) off &&& accMask acc ∧ m ≠ 0 ∧ served a src key = true) ∧ writeCommon key off acc v.toNat a = none ∧ writeAction key off acc v.toNat a = none ∧ lockedMask a key off = 0 ∧ managerOnly (pageType key) off = 0 ∧ rwsMask (pageType key) off = 0 ∧ (pageType key, off) ∉ [(0x02, 0x120), (0x04, 0x118), (0x12, 0x100), (0x12, 0x130), (0x1B, 0x100)] :=
  ⟨.archivist .t0, 0x200, 8, 0, on, 0, 0x200, 0x200, .full, 0xFF, by decide, rfl, rfl, by decide⟩

/-! PageStatSummarisesThePage -/

theorem PageStatSummarisesThePage_1_1_witness : ∃ (src : Requester) (addr : BitVec 26) (a : Block) (key : Nat), placeOf addr.toNat = .page key 0x010 ∧ held a src = false ∧ (gradeOf a src (if 256 ≤ key then some (key - 256) else none) = .manager ∨ gradeOf a src (if 256 ≤ key then some (key - 256) else none) = .owner) ∧ (pageOf a key).errMask < 2 ^ 64 := ⟨.archivist .t0, 0x10, on, 0, by decide, by decide, by decide, by decide⟩

theorem PageStatSummarisesThePage_2_1_witness : ∃ src : Requester, ∃ addr : BitVec 26, ∃ size : Nat, ∃ v : BitVec 512, ∃ a : Block, ∃ key, ∃ o, ∃ acc, placeOf addr.toNat = .page key o ∧ o / 8 = 2 ∧ accessOf o size = some acc ∧ served a src key = true :=
  ⟨.archivist .t0, 0x10, 8, 0, on, 0, 16, .full, by decide⟩

/-! BakeDomainsAreTheTable -/

theorem BakeDomainsAreTheTable_1_1_witness : ∃ g, g < 152 := ⟨151, by decide⟩

theorem BakeDomainsAreTheTable_2_1_witness : ∃ e, engKind e = some .tile :=
  ⟨0, by decide⟩

theorem BakeDomainsAreTheTable_2_2_witness : ∃ e, engKind e = some .matrix :=
  ⟨0x2000, by decide⟩

theorem BakeDomainsAreTheTable_2_3_witness : ∃ e, engKind e = some .dma :=
  ⟨0x2400, by decide⟩

theorem BakeDomainsAreTheTable_2_4_witness : ∃ e, engKind e = some .gather :=
  ⟨0x2100, by decide⟩

theorem BakeDomainsAreTheTable_2_5_witness : ∃ e, engKind e = some .scatter :=
  ⟨0x2200, by decide⟩

/-! FlushRegistersShowTheClusters -/

theorem FlushRegistersShowTheClusters_1_1_witness : ∃ src : Requester, ∃ addr : BitVec 26, ∃ a : Block, ∃ t, ∃ off, placeOf addr.toNat = .page (twKey t retP) off ∧ (off = 0x130 ∨ off = 0x138) ∧ storesWf a = true ∧ held a src = false ∧ gradeOf a src none = .manager :=
  ⟨.archivist .t0, 0x105130, on, .t0, 0x130, by decide⟩

theorem FlushRegistersShowTheClusters_2_1_witness : ∃ src : Requester, ∃ addr : BitVec 26, ∃ size : Nat, ∃ v : BitVec 512, ∃ a : Block, ∃ t, ∃ o, ∃ acc, placeOf addr.toNat = .page (twKey t retP) o ∧ (o / 8 * 8 = 0x130 ∨ o / 8 * 8 = 0x138) ∧ accessOf o size = some acc ∧ served a src (twKey t retP) = true :=
  ⟨.archivist .t0, 0x105138, 8, 0, on, .t0, 0x138, .full, by decide⟩

/-! DetachIsRefusedByItsCases -/

theorem DetachIsRefusedByItsCases_1_1_witness : ∃ src : Requester, ∃ t : TwinId, ∃ a : Block, ∃ refusal : Nat → Prop, (∀ n, refusal n ↔ (n = 1 ∧ (tw a t).svc ≠ .inService) ∨ (n = 4 ∧ (tw a (partner t)).svc ≠ .inService) ∨ (n = 2 ∧ ∃ k, (ctxOf a k).st ≠ .closed ∧ ((ctxOf a k).home = t ∨ ∃ r : RangeReg, rangeEn (rangeGet (ctxTw a t k) r) = true)) ∨ (n = 3 ∧ ∃ i, (mapGet {} (tw a t).thrd.ents i).st ≠ .free)) ∧ (storesWf a = true ∧ served a src blkKey = true ∧ a.pair.op = none) ∧ (∃ n, refusal n) :=
  ⟨.archivist .t0, .t0, { on with tw0 := { svc := .fatal } }, _, fun _ => Iff.rfl, by decide, ⟨1, Or.inl ⟨rfl, by decide⟩⟩⟩

theorem DetachIsRefusedByItsCases_1_2_witness : ∃ src : Requester, ∃ t : TwinId, ∃ a : Block, ∃ refusal : Nat → Prop, (∀ n, refusal n ↔ (n = 1 ∧ (tw a t).svc ≠ .inService) ∨ (n = 4 ∧ (tw a (partner t)).svc ≠ .inService) ∨ (n = 2 ∧ ∃ k, (ctxOf a k).st ≠ .closed ∧ ((ctxOf a k).home = t ∨ ∃ r : RangeReg, rangeEn (rangeGet (ctxTw a t k) r) = true)) ∨ (n = 3 ∧ ∃ i, (mapGet {} (tw a t).thrd.ents i).st ≠ .free)) ∧ (storesWf a = true ∧ served a src blkKey = true ∧ a.pair.op = none) ∧ (∀ n, ¬ refusal n) :=
  ⟨.archivist .t0, .t0, on, _, fun _ => Iff.rfl, by decide, by rintro n (⟨_, h⟩ | ⟨_, h⟩ | ⟨_, k, h, _⟩ | ⟨_, i, h⟩) <;> exact h rfl⟩

/-! OwnersLeaveTheManagersFields -/

theorem OwnersLeaveTheManagersFields_1_1_witness : ∃ (src : Requester) (addr : BitVec 26) (size : Nat) (a : Block) (k key o off : Nat) (acc : Access), key = 256 + k ∧ placeOf addr.toNat = .page key o ∧ off = o / 8 * 8 ∧ accessOf o size = some acc ∧ storesWf a = true ∧ held a src = false ∧ gradeOf a src (some k) = .owner ∧ off = 0x100 := ⟨.host 0 0, 0x400100, 8, { on with ctxs := [(0, { owner := 2 ^ 63 })] }, 0, 256, 0x100, 0x100, .full, rfl, by decide, rfl, by decide, by decide, by decide, by decide, rfl⟩

theorem OwnersLeaveTheManagersFields_1_2_witness : ∃ (src : Requester) (addr : BitVec 26) (size : Nat) (a : Block) (k key o off : Nat) (acc : Access), key = 256 + k ∧ placeOf addr.toNat = .page key o ∧ off = o / 8 * 8 ∧ accessOf o size = some acc ∧ storesWf a = true ∧ held a src = false ∧ gradeOf a src (some k) = .owner ∧ off = 0x208 := ⟨.host 0 0, 0x400208, 8, { on with ctxs := [(0, { owner := 2 ^ 63 })] }, 0, 256, 0x208, 0x208, .full, rfl, by decide, rfl, by decide, by decide, by decide, by decide, rfl⟩

theorem OwnersLeaveTheManagersFields_2_1_witness : ∃ owner : Requester, ∃ manager : Requester, ∃ addr : BitVec 26, ∃ size : Nat, ∃ v : BitVec 512, ∃ s : State, ∃ k : Nat, ∃ key : Nat, ∃ o : Nat, ∃ off : Nat, key = 256 + k ∧ placeOf addr.toNat = .page key o ∧ off = o / 8 * 8 ∧ off ≠ 0x100 ∧ off ≠ 0x208 ∧ off ≠ 0x218 ∧ off ≠ 0x220 ∧ off ≠ 0x228 ∧ off ≠ 0x230 ∧ held s.blk owner = false ∧ held s.blk manager = false ∧ gradeOf s.blk owner (some k) = .owner ∧ gradeOf s.blk manager (some k) = .manager :=
  ⟨.host 0 0, .archivist .t0, 0x400300, 8, 0, { blk := { on with ctxs := [(0, { owner := 2 ^ 63 })] }, pending := [] }, 0, 256, 0x300, 0x300, by decide⟩

/-! InjectedErrorsAreMet -/

theorem InjectedErrorsAreMet_1_1_witness : ∃ src : Requester, ∃ t : TwinId, ∃ s : State, ∃ a, a = s.blk ∧ ∃ k, k = twKey t thrdP ∧ ∃ w, w = threadSel a t % 2048 * 3 ∧ (storesWf a = true ∧ served a src k = true ∧ thrdTakes a t = true ∧ a.work = []) ∧ (∀ u, canSendOn a u = false) ∧ (pageOf a k).inj = 2 ^ 63 + 2 ^ 56 + 0x10 * 2 ^ 48 ∧ (∀ j, j ≠ k → bitOf (pageOf a j).inj 63 = false) ∧ (tw a t).rel.test = none ∧ (tw a t).rel.queue = [] ∧ (sramOf a t 0x10).noSpare = false :=
  ⟨.archivist .t0, .t0, { blk := { on with pages := [(twKey .t0 thrdP, { inj := 0x8110000000000000 })] }, pending := [] }, _, rfl, _, rfl, _, rfl, by decide, fun u => by cases u <;> decide, by decide, (fun j h => by simp only [pageOf, mapGet]; split <;> first | rfl | exact absurd ‹_› h), by decide⟩

theorem InjectedErrorsAreMet_2_1_witness : ∃ src : Requester, ∃ id : CtxId, ∃ s : State, ∃ a, a = s.blk ∧ ∃ k, k = id.toNat ∧ ∃ x, x = shardSel a k ∧ ∃ t, t = ownerOf x ∧ ∃ w, w = x % 131072 * 3 ∧ (storesWf a = true ∧ served a src (ctxKey k) = true ∧ inShardRange a k x = true ∧ serves a t = true ∧ a.work = []) ∧ (∀ u, canSendOn a u = false) ∧ (pageOf a (twKey t shlfP)).inj = 2 ^ 63 + 2 * 2 ^ 56 + 0x08 * 2 ^ 48 ∧ (∀ j, j ≠ twKey t shlfP → bitOf (pageOf a j).inj 63 = false) ∧ wordOwner a t 0x08 w = some k ∧ (ctxOf a k).st = .opened ∧ entriesHeld a t < 64 ∧ (tw a t).rel.test = none ∧ (tw a t).rel.queue = [] ∧ (sramOf a t 0x08).noSpare = false :=
  ⟨.archivist .t0, 1, { blk := { on with tw0 := { svc := .inService, ctxs := [(1, { shardRange := 2 ^ 63 })] }, ctxs := [(1, { st := .opened })], pages := [(twKey .t0 shlfP, { inj := 0x8208000000000000 })] }, pending := [] }, _, rfl, _, rfl, _, rfl, _, rfl, _, rfl, by decide, fun u => by cases u <;> decide, by decide, (fun j h => by simp only [pageOf, mapGet]; split <;> first | rfl | exact absurd ‹_› h), by decide⟩

theorem InjectedErrorsAreMet_3_1_witness : ∃ port : BitVec 3, ∃ fn : BitVec 8, ∃ s : State, ∃ a, a = s.blk ∧ (storesWf a = true ∧ a.phase = 7 ∧ a.mgmt.manager = 0 ∧ a.work = []) ∧ (∀ u, canSendOn a u = false) ∧ ((tw a .t0).svc = .inService ∧ (pageOf a blkKey).inj = 2 ^ 63 + 2 * 2 ^ 56 + 0x22 * 2 ^ 48 ∧ (pageOf a pwrKey).inj = 2 ^ 63 + 2 * 2 ^ 56 + 0x22 * 2 ^ 48) ∧ (∀ j, j ≠ blkKey → j ≠ pwrKey → bitOf (pageOf a j).inj 63 = false) :=
  ⟨0, 0, { blk := { on with phase := 7, pages := [(blkKey, { inj := 0x8222000000000000 }), (pwrKey, { inj := 0x8222000000000000 })] }, pending := [] }, _, rfl, by decide, fun u => by cases u <;> decide, by decide, (fun j h g => by simp only [pageOf, mapGet, if_neg h, if_neg g]; rfl)⟩

end Sys2Proof.Tests
end

/-! # The flush registers of the RET page (06, R178)

DIRTY and FLUSH_OUT are folded from the store of the flushes, one bit for each cluster of the twin's parity. The fold is
read bit by bit, an access of 8 B is brought down to the value of its register, and a write to a register without a
writable bit is shown to be idle. -/

namespace Sys2Proof.Machine

open Sys2Proof.Safety

/-! ## Bits folded from a canonical store -/

/-- One step of the fold of `clusterBits`: the bit of a listed cluster is added where the register shows it. -/
def addClusterBit (s : Block) (t : TwinId) (f : Flush → Bool) (n : Nat) (p : Nat × Flush) : Nat :=
  if p.1 % 2 = twinNum t ∧ p.1 < 128 ∧ primary s p.1 = t ∧ f p.2 = true then n + 2 ^ (p.1 / 2) else n

theorem clusterBits_eq_foldl (s : Block) (t : TwinId) (f : Flush → Bool) :
    clusterBits s t f = s.flushes.foldl (addClusterBit s t f) 0 := rfl

theorem twinNum_lt_two (t : TwinId) : twinNum t < 2 := by cases t <;> decide

theorem testBit_add_two_pow {n k : Nat} (h : n < 2 ^ k) (i : Nat) :
    (n + 2 ^ k).testBit i = (n.testBit i || decide (k = i)) := by
  have hor : 2 ^ k + n = 2 ^ k ||| n := by simpa using Nat.two_pow_add_eq_or_of_lt h 1
  rw [Nat.add_comm, hor, Nat.testBit_or, Nat.testBit_two_pow, Bool.or_comm]

/-- While the clusters below `j` have been folded, adding cluster `j` sets its own bit and no other. -/
theorem testBit_addClusterBit (s : Block) (t : TwinId) (f : Flush → Bool) {n j : Nat} (v : Flush)
    (hn : n < 2 ^ ((j + 1 - twinNum t) / 2)) (i : Nat) :
    (addClusterBit s t f n (j, v)).testBit i = true ↔ n.testBit i = true
      ∨ (j = 2 * i + twinNum t ∧ j < 128 ∧ primary s j = t ∧ f v = true) := by
  have hp := twinNum_lt_two t
  unfold addClusterBit
  split
  next hc =>
    obtain ⟨hpar, hrest⟩ := hc
    have hk : (j + 1 - twinNum t) / 2 = j / 2 := by omega
    have hj : j / 2 = i ↔ j = 2 * i + twinNum t := by omega
    rw [hk] at hn
    simp only at hpar hrest
    simp [testBit_add_two_pow hn, hj, hrest]
  next hc =>
    have hno : ¬ (j = 2 * i + twinNum t ∧ j < 128 ∧ primary s j = t ∧ f v = true) :=
      fun ⟨hj, hrest⟩ => hc ⟨by simp only; omega, hrest⟩
    simp [hno]

theorem addClusterBit_lt (s : Block) (t : TwinId) (f : Flush → Bool) {n j : Nat} (v : Flush)
    (hn : n < 2 ^ ((j + 1 - twinNum t) / 2)) :
    addClusterBit s t f n (j, v) < 2 ^ ((j + 2 - twinNum t) / 2) := by
  have hp := twinNum_lt_two t
  unfold addClusterBit
  split
  next hc =>
    obtain ⟨hpar, -⟩ := hc
    have hk : (j + 1 - twinNum t) / 2 = j / 2 := by omega
    have hk' : (j + 2 - twinNum t) / 2 = j / 2 + 1 := by omega
    rw [hk] at hn
    rw [hk', Nat.pow_succ]
    simp only
    omega
  next => exact hn.trans_le (Nat.pow_le_pow_right (by decide) (by omega))

/-- From an accumulator that holds bits of clusters below `lo` alone, folding a store that lists clusters from `lo` on
adds the bits of the clusters that it lists and the register shows. -/
theorem testBit_foldl_addClusterBit (s : Block) (t : TwinId) (f : Flush → Bool) (hf : f {} = false) (m : SMap Flush)
    (lo n : Nat) (hm : mapWfFrom {} lo m = true) (hn : n < 2 ^ ((lo + 1 - twinNum t) / 2)) (i : Nat) :
    (m.foldl (addClusterBit s t f) n).testBit i = true ↔ n.testBit i = true
      ∨ (2 * i + twinNum t < 128 ∧ primary s (2 * i + twinNum t) = t
        ∧ f (mapGet {} m (2 * i + twinNum t)) = true) := by
  induction m generalizing lo n with
  | nil => simp [mapGet, hf]
  | cons p m ih =>
    obtain ⟨j, v⟩ := p
    simp only [mapWfFrom, Bool.and_eq_true, decide_eq_true_eq] at hm
    obtain ⟨⟨hlo, -⟩, hm⟩ := hm
    have hj : n < 2 ^ ((j + 1 - twinNum t) / 2) :=
      hn.trans_le (Nat.pow_le_pow_right (by decide) (Nat.div_le_div_right (by omega)))
    rw [List.foldl_cons, ih (j + 1) _ hm (addClusterBit_lt s t f v hj), testBit_addClusterBit s t f v hj]
    by_cases hi : 2 * i + twinNum t = j
    · have hrest : mapGet {} m j = {} := mapGet_of_lt {} m (j + 1) j hm (by omega)
      simp [mapGet, hi, hrest, hf]
    · simp [mapGet, hi, Ne.symm hi]

theorem bitOf_clusterBits {s : Block} (t : TwinId) {f : Flush → Bool} (hf : f {} = false) (h : storesWf s = true)
    (i : Nat) :
    bitOf (clusterBits s t f) i = true ↔ 2 * i + twinNum t < 128 ∧ primary s (2 * i + twinNum t) = t
      ∧ f (flushOf s (2 * i + twinNum t)) = true := by
  have hbits := testBit_foldl_addClusterBit s t f hf s.flushes 0 0 (storesWf_flushes h) (Nat.two_pow_pos _) i
  simpa [clusterBits_eq_foldl, bitOf, flushOf] using hbits

theorem clusterBits_lt {s : Block} (t : TwinId) {f : Flush → Bool} (hf : f {} = false) (h : storesWf s = true) :
    clusterBits s t f < 2 ^ 64 := by
  refine Nat.lt_pow_two_of_testBit _ fun i hi => Bool.eq_false_iff.mpr fun hbit => ?_
  have hlt := ((bitOf_clusterBits t hf h i).mp hbit).1
  omega

/-! ## An access of the page's manager -/

/-- Only the outputs change when one is emitted. -/
theorem changesOnly_emit (o : Output) (s : Block) : changesOnly [.out] s (emit o s) := by
  intro p hp
  cases p with
  | out => exact absurd (List.mem_singleton_self _) hp
  | regs => exact fun _ _ => rfl
  | errs => exact fun _ _ => rfl
  | ctrs => exact fun _ _ => rfl
  | _ => simp [Part.same]

/-- A read of 8 B by the manager answers the value of the register (R9), on every page but CAT, where R64 checks the
selection of a read. -/
theorem registerRead_manager {s : Block} {src : Requester} {a key off : Nat} (ha : placeOf a = .page key off)
    (hoff : off % 8 = 0) (hh : held s src = false)
    (hg : gradeOf s src (if 256 ≤ key then some (key - 256) else none) = .manager)
    (h0 : key ≠ twKey .t0 catP) (h1 : key ≠ twKey .t1 catP) :
    registerRead src a 8 s = emit (.reply (regValue s key off)) s := by
  have hacc : accessOf off 8 = some .full := by simp [accessOf, hoff]
  have hat : off / 8 * 8 = off := Nat.div_mul_cancel (Nat.dvd_of_mod_eq_zero hoff)
  simp [registerRead, hh, ha, pageRead, hg, hacc, hat, partOf, peekCheck, h0, h1]

/-- A served write to a register outside BOWL_PUT is a write of the register by its grade (R9, R285). -/
theorem registerWrite_served {s : Block} {src : Requester} {a size v key off : Nat} {acc : Access}
    (ha : placeOf a = .page key off) (hacc : accessOf off size = some acc) (hput : isPut key (off / 8 * 8) = false)
    (hs : served s src key = true) :
    ∃ g, registerWrite src a size v s = writeReg g key (off / 8 * 8) acc (v % 2 ^ 64) s := by
  obtain ⟨g, -, hg⟩ := pageAccess_served (fun g => writeReg g key (off / 8 * 8) acc (v % 2 ^ 64)) hs
  exact ⟨g, by simpa [registerWrite, ha, hacc, hput] using hg⟩

/-- A write to a register that has no action and no bit that is writable, shadowed, locked or the manager's has no
effect. -/
theorem writeReg_readOnly {s : Block} {key off v : Nat} {acc : Access} (g : Grade)
    (hc : writeCommon key off acc v s = none) (ha : writeAction key off acc v s = none)
    (hrw : rwMask (pageType key) off = 0) (hrws : rwsMask (pageType key) off = 0)
    (hl : lockedMask s key off = 0) (hm : managerOnly (pageType key) off = 0) :
    writeReg g key off acc v s = s := by
  simp [writeReg, hc, ha, storeReg, hrw, hrws, hl, hm, writeShadow]

/-! ## The two registers -/

/-- What a flush register shows of a cluster: DIRTY at 0x130, FLUSH_OUT at 0x138. -/
def flushShown (off : Nat) (f : Flush) : Bool := if off = 0x130 then f.dirty else f.out

theorem flushShown_default (off : Nat) : flushShown off {} = false := by simp [flushShown]

@[simp] theorem pageType_retP (t : TwinId) : pageType (twKey t retP) = 0x15 := by cases t <;> rfl

theorem regValue_flushRegister (s : Block) (t : TwinId) {off : Nat} (h : off = 0x130 ∨ off = 0x138) :
    regValue s (twKey t retP) off = clusterBits s t (flushShown off) := by
  rcases h with rfl | rfl <;> cases t <;> rfl

theorem writeReg_flushRegister (g : Grade) (s : Block) (t : TwinId) {off : Nat} (v : Nat) (acc : Access)
    (h : off = 0x130 ∨ off = 0x138) : writeReg g (twKey t retP) off acc v s = s := by
  have hlocked : lockedMask s (twKey t retP) off = 0 := by
    rcases h with rfl | rfl <;> simp [lockedMask, lockedByEnable]
  rcases h with rfl | rfl <;> cases t <;> exact writeReg_readOnly g rfl rfl rfl rfl hlocked rfl

theorem registerRead_flushRegister {s : Block} {src : Requester} {a off : Nat} {t : TwinId}
    (ha : placeOf a = .page (twKey t retP) off) (h : off = 0x130 ∨ off = 0x138) (hh : held s src = false)
    (hg : gradeOf s src none = .manager) :
    registerRead src a 8 s = emit (.reply (clusterBits s t (flushShown off))) s := by
  rw [← regValue_flushRegister s t h]
  have hoff : off % 8 = 0 := by omega
  cases t <;> exact registerRead_manager ha hoff hh hg (by decide) (by decide)

theorem registerWrite_flushRegister {s : Block} {src : Requester} {a size v off : Nat} {t : TwinId} {acc : Access}
    (ha : placeOf a = .page (twKey t retP) off) (h : off / 8 * 8 = 0x130 ∨ off / 8 * 8 = 0x138)
    (hacc : accessOf off size = some acc) (hs : served s src (twKey t retP) = true) :
    registerWrite src a size v s = s := by
  have hput : isPut (twKey t retP) (off / 8 * 8) = false := by cases t <;> rfl
  obtain ⟨g, hw⟩ := registerWrite_served ha hacc hput hs
  exact hw.trans (writeReg_flushRegister g s t _ acc h)

/-- Settles O50: a read answers the bits folded from the store of the flushes, a write meets no writable bit, and at
reset the store is empty. -/
theorem flushRegistersShowTheClusters : Obligations.FlushRegistersShowTheClusters := by
  refine ⟨fun src addr => does_of fun a hout t off hplace hoff hwf hheld hgrade => ?_,
    fun src addr size v => does_of fun a _ t o acc hplace hoff hacc hserved => ?_, fun t => ?_⟩
  · have hread : deed (.registerRead src (.cts addr) 8) a = emit (.reply (clusterBits a t (flushShown off))) a :=
      registerRead_flushRegister hplace hoff hheld hgrade
    rw [hread]
    refine ⟨_, by simp [emit, hout], clusterBits_lt t (flushShown_default off) hwf, fun i hi => ?_,
      changesOnly_emit _ a⟩
    have hp := twinNum_lt_two t
    have hin : 2 * i + twinNum t < 128 := by omega
    simp [bitOf_clusterBits t (flushShown_default off) hwf, hin, flushShown]
  · exact registerWrite_flushRegister hplace hoff hacc hserved
  · have hreset (f : Flush → Bool) : clusterBits State.reset.blk t f = 0 := rfl
    exact ⟨(regValue_flushRegister _ t (.inl rfl)).trans (hreset _),
      (regValue_flushRegister _ t (.inr rfl)).trans (hreset _)⟩

end Sys2Proof.Machine

/-! # The Bake domains (11, R292)

The table's two columns: the domain of a rack group, inverted over the groups of the die, and the rack group of an
engine, which the ENGINE_ID range of its kind (R18) puts among the groups of the kind's domain. -/

namespace Sys2Proof.Machine

/-! ## The groups of a domain -/

theorem domainOfGroup_cluster {g : Nat} (h : g < 128) : domainOfGroup g = g / 8 := if_pos h

theorem domainOfGroup_matrix {g : Nat} (hlo : 128 ≤ g) (hhi : g < 144) : domainOfGroup g = 16 := by
  simp [domainOfGroup, hhi, show ¬ g < 128 by omega]

theorem domainOfGroup_dma {g : Nat} (hlo : 144 ≤ g) (hhi : g < 148) : domainOfGroup g = 17 := by
  simp [domainOfGroup, hhi, show ¬ g < 128 by omega, show ¬ g < 144 by omega]

theorem domainOfGroup_gather {g : Nat} (hlo : 148 ≤ g) (hhi : g < 150) : domainOfGroup g = 18 := by
  simp [domainOfGroup, hhi, show ¬ g < 128 by omega, show ¬ g < 144 by omega, show ¬ g < 148 by omega]

theorem domainOfGroup_scatter {g : Nat} (hlo : 150 ≤ g) : domainOfGroup g = 19 := by
  simp [domainOfGroup, show ¬ g < 128 by omega, show ¬ g < 144 by omega, show ¬ g < 148 by omega,
    show ¬ g < 150 by omega]

/-- The table read from the domain: which of the groups of the die lie in it. -/
theorem domainOfGroup_eq_iff {g : Nat} (d : Nat) (hg : g < 152) : domainOfGroup g = d ↔
    (d ≤ 15 ∧ 8 * d ≤ g ∧ g ≤ 8 * d + 7) ∨ (d = 16 ∧ 128 ≤ g ∧ g ≤ 143) ∨ (d = 17 ∧ 144 ≤ g ∧ g ≤ 147)
      ∨ (d = 18 ∧ 148 ≤ g ∧ g ≤ 149) ∨ (d = 19 ∧ 150 ≤ g ∧ g ≤ 151) := by
  have hranges : g < 128 ∨ (128 ≤ g ∧ g < 144) ∨ (144 ≤ g ∧ g < 148) ∨ (148 ≤ g ∧ g < 150) ∨ 150 ≤ g := by omega
  obtain h | ⟨hlo, hhi⟩ | ⟨hlo, hhi⟩ | ⟨hlo, hhi⟩ | hlo := hranges
  · rw [domainOfGroup_cluster h]; omega
  · rw [domainOfGroup_matrix hlo hhi]; omega
  · rw [domainOfGroup_dma hlo hhi]; omega
  · rw [domainOfGroup_gather hlo hhi]; omega
  · rw [domainOfGroup_scatter hlo]; omega

/-! ## The ENGINE_IDs of a kind -/

/-- The range of ENGINE_IDs that R18 gives a kind. -/
def engineRange : EngKind → Nat × Nat
  | .tile => (0, 0x1FFF)
  | .matrix => (0x2000, 0x207F)
  | .gather => (0x2100, 0x213F)
  | .scatter => (0x2200, 0x223F)
  | .dma => (0x2400, 0x24FF)
  | .core => (0x3F00, 0x3F07)

theorem engKind_range {e : Nat} {k : EngKind} (h : engKind e = some k) :
    (engineRange k).1 ≤ e ∧ e ≤ (engineRange k).2 := by
  unfold engKind at h
  split_ifs at h <;> cases h <;> simp only [engineRange] <;> omega

/-! ## The domain of an engine's group -/

theorem tile_domain {e : Nat} (h : engKind e = some .tile) :
    ∃ g, groupOf e = some g ∧ domainOfGroup g = e / 64 / 8 ∧ e / 64 / 8 ≤ 15 := by
  obtain ⟨-, hhi⟩ : 0 ≤ e ∧ e ≤ 0x1FFF := engKind_range h
  exact ⟨e / 64, by simp [groupOf, h], domainOfGroup_cluster (by omega), by omega⟩

theorem matrix_domain {e : Nat} (h : engKind e = some .matrix) :
    ∃ g, groupOf e = some g ∧ domainOfGroup g = 16 := by
  obtain ⟨hlo, hhi⟩ : 0x2000 ≤ e ∧ e ≤ 0x207F := engKind_range h
  exact ⟨128 + (e - 0x2000) / 8, by simp [groupOf, h], domainOfGroup_matrix (by omega) (by omega)⟩

theorem dma_domain {e : Nat} (h : engKind e = some .dma) :
    ∃ g, groupOf e = some g ∧ domainOfGroup g = 17 := by
  obtain ⟨hlo, hhi⟩ : 0x2400 ≤ e ∧ e ≤ 0x24FF := engKind_range h
  exact ⟨144 + (e - 0x2400) / 64, by simp [groupOf, h], domainOfGroup_dma (by omega) (by omega)⟩

theorem gather_domain {e : Nat} (h : engKind e = some .gather) :
    ∃ g, groupOf e = some g ∧ domainOfGroup g = 18 := by
  obtain ⟨hlo, hhi⟩ : 0x2100 ≤ e ∧ e ≤ 0x213F := engKind_range h
  exact ⟨148 + (e - 0x2100) / 32, by simp [groupOf, h], domainOfGroup_gather (by omega) (by omega)⟩

theorem scatter_domain {e : Nat} (h : engKind e = some .scatter) :
    ∃ g, groupOf e = some g ∧ domainOfGroup g = 19 := by
  obtain ⟨hlo, hhi⟩ : 0x2200 ≤ e ∧ e ≤ 0x223F := engKind_range h
  exact ⟨150 + (e - 0x2200) / 32, by simp [groupOf, h], domainOfGroup_scatter (by omega)⟩

/-- Settles O49: the groups by the table read from the domain, the engines kind by kind by their range. -/
theorem bakeDomainsAreTheTable : Obligations.BakeDomainsAreTheTable :=
  ⟨fun _ d hg => domainOfGroup_eq_iff d hg,
    fun _ => ⟨tile_domain, matrix_domain, dma_domain, gather_domain, scatter_domain⟩⟩

end Sys2Proof.Machine

/-! # The refusals of a DETACH (14, R365)

The status is 0 exactly where no case of R365 holds, and is otherwise the number of a case that holds. The cases that
ask for a context or a thread are read off the listed entries of a canonical store. Of an accepted DETACH, the arbiter's
part and the copies sent back leave the pair's state and the service of both twins as PAIR_CTL set them. -/

namespace Sys2Proof.Machine

open Sys2Proof.Safety

/-! ## What a canonical store holds -/

/-- An index of a canonical store holds what the default does not exactly where a listed entry does. -/
theorem exists_mapGet_iff_from {α : Type} [DecidableEq α] (d : α) (P : Nat → α → Prop) (hd : ∀ k, ¬ P k d)
    (m : SMap α) (lo : Nat) (hm : mapWfFrom d lo m = true) : (∃ k, P k (mapGet d m k)) ↔ ∃ p ∈ m, P p.1 p.2 := by
  induction m generalizing lo with
  | nil => simp [mapGet, hd]
  | cons p m ih =>
    obtain ⟨j, v⟩ := p
    simp only [mapWfFrom, Bool.and_eq_true] at hm
    obtain ⟨-, hm⟩ := hm
    have hj : mapGet d m j = d := mapGet_of_lt d m (j + 1) j hm (by omega)
    rw [List.exists_mem_cons_iff, ← ih (j + 1) hm]
    constructor
    · rintro ⟨k, hk⟩
      by_cases hkj : k = j
      · subst hkj; exact .inl (by simpa [mapGet] using hk)
      · exact .inr ⟨k, by simpa [mapGet, hkj] using hk⟩
    · rintro (h | ⟨k, hk⟩)
      · exact ⟨j, by simpa [mapGet] using h⟩
      · have hkj : k ≠ j := fun h => hd j (by rw [h, hj] at hk; exact hk)
        exact ⟨k, by simpa [mapGet, hkj] using hk⟩

theorem exists_mapGet_iff {α : Type} [DecidableEq α] {d : α} {m : SMap α} (hm : mapWf d m = true)
    (P : Nat → α → Prop) (hd : ∀ k, ¬ P k d) : (∃ k, P k (mapGet d m k)) ↔ ∃ p ∈ m, P p.1 p.2 :=
  exists_mapGet_iff_from d P hd m 0 hm

/-! ## The cases of R365 -/

theorem usesTwin_iff (s : Block) (t : TwinId) (k : Nat) :
    usesTwin s t k = true ↔ ∃ r : RangeReg, rangeEn (rangeGet (ctxTw s t k) r) = true := by
  constructor
  · intro h
    simp only [usesTwin, List.any_cons, List.any_nil, Bool.or_eq_true, Bool.false_eq_true, or_false] at h
    rcases h with h | h | h | h | h | h | h | h
    · exact ⟨.node, h⟩
    · exact ⟨.fwd, h⟩
    · exact ⟨.mir, h⟩
    · exact ⟨.var, h⟩
    · exact ⟨.shard, h⟩
    · exact ⟨.tally, h⟩
    · exact ⟨.tube, h⟩
    · exact ⟨.bowl, h⟩
  · rintro ⟨r, h⟩
    cases r <;> simp only [rangeGet] at h <;> simp [usesTwin, h]

theorem ctxsIn_ne_nil_iff {s : Block} (t : TwinId) (h : storesWf s = true) :
    ctxsIn s t ≠ [] ↔ ∃ k, (ctxOf s k).st ≠ .closed ∧ ((ctxOf s k).home = t
      ∨ ∃ r : RangeReg, rangeEn (rangeGet (ctxTw s t k) r) = true) := by
  have hlisted := exists_mapGet_iff (storesWf_ctxs h)
    (fun k (c : Ctx) => c.st ≠ .closed ∧ (c.home = t ∨ usesTwin s t k = true)) (fun _ hc => hc.1 rfl)
  simp only [← usesTwin_iff, ctxOf, hlisted]
  simp [ctxsIn, or_iff_not_imp_left]

theorem threadsListed_iff {s : Block} (t : TwinId) (h : storesWf s = true) :
    ((tw s t).thrd.ents.any fun p => p.2.st != .free) = true ↔ ∃ i, (mapGet {} (tw s t).thrd.ents i).st ≠ .free := by
  have hlisted := exists_mapGet_iff (thrdWf_ents (twinWf_thrd (twinWf_tw h t)))
    (fun _ (x : Thread) => x.st ≠ .free) (fun _ hx => hx rfl)
  simp only [hlisted]
  simp

/-- A case of R365 with STATUS n holds against a DETACH of twin t. -/
def detachRefusal (s : Block) (t : TwinId) (n : Nat) : Prop :=
  (n = 1 ∧ (tw s t).svc ≠ .inService) ∨ (n = 4 ∧ (tw s (partner t)).svc ≠ .inService)
    ∨ (n = 2 ∧ ∃ k, (ctxOf s k).st ≠ .closed ∧ ((ctxOf s k).home = t
      ∨ ∃ r : RangeReg, rangeEn (rangeGet (ctxTw s t k) r) = true))
    ∨ (n = 3 ∧ ∃ i, (mapGet {} (tw s t).thrd.ents i).st ≠ .free)

/-- The status of a DETACH is the number of a case that holds, or it is 0 and none holds. -/
theorem detachStatus_cases {s : Block} (t : TwinId) (h : storesWf s = true) :
    (detachStatus s t ≠ 0 ∧ detachRefusal s t (detachStatus s t))
      ∨ (detachStatus s t = 0 ∧ ∀ n, ¬ detachRefusal s t n) := by
  unfold detachStatus
  split_ifs with hown hpartner hctxs hthreads
  · exact .inl ⟨by decide, .inl ⟨rfl, hown⟩⟩
  · exact .inl ⟨by decide, .inr (.inl ⟨rfl, hpartner⟩)⟩
  · exact .inl ⟨by decide, .inr (.inr (.inl ⟨rfl, (ctxsIn_ne_nil_iff t h).mp (by simpa using hctxs)⟩))⟩
  · exact .inl ⟨by decide, .inr (.inr (.inr ⟨rfl, (threadsListed_iff t h).mp hthreads⟩))⟩
  · refine .inr ⟨rfl, ?_⟩
    rintro n (⟨-, hc⟩ | ⟨-, hc⟩ | ⟨-, hc⟩ | ⟨-, hc⟩)
    · exact hown hc
    · exact hpartner hc
    · exact hctxs (by simpa using (ctxsIn_ne_nil_iff t h).mpr hc)
    · exact hthreads ((threadsListed_iff t h).mpr hc)

/-! ## What the arbiter and the copies sent back leave alone -/

/-- What PAIR_CTL governs: the pair's state and the service of both twins. -/
def standing (s : Block) : PairSt × TwinSt × TwinSt := (s.pair, (tw s .t0).svc, (tw s .t1).svc)

theorem standing_svc {a b : Block} (h : standing b = standing a) (t : TwinId) : (tw b t).svc = (tw a t).svc := by
  simp only [standing, Prod.mk.injEq] at h
  obtain ⟨-, h0, h1⟩ := h
  cases t
  · exact h0
  · exact h1

theorem standing_pair {a b : Block} (h : standing b = standing a) : b.pair = a.pair := congrArg Prod.fst h

theorem standing_upTw (t : TwinId) (f : Twin → Twin) (s : Block) (h : ∀ w, (f w).svc = w.svc) :
    standing (upTw t f s) = standing s := by cases t <;> simp [standing, upTw, tw, h]

@[simp] theorem standing_upThrd (t : TwinId) (f : ThreadDesk → ThreadDesk) (s : Block) :
    standing (upThrd t f s) = standing s := standing_upTw t _ s fun _ => rfl
@[simp] theorem standing_upCore (c : Nat) (f : Core → Core) (s : Block) : standing (upCore c f s) = standing s := rfl
@[simp] theorem standing_emit (o : Output) (s : Block) : standing (emit o s) = standing s := rfl
@[simp] theorem standing_bump (k off n : Nat) (s : Block) : standing (bump k off n s) = standing s := rfl
@[simp] theorem standing_threadTrace (x c code : Nat) (s : Block) : standing (threadTrace x c code s) = standing s := by
  simp [standing, threadTrace]
@[simp] theorem standing_sendRelease (c : Nat) (o : ThreadOffer) (s : Block) :
    standing (sendRelease c o s) = standing s := standing_upThrd _ _ s
@[simp] theorem standing_askServed (c : Nat) (s : Block) : standing (askServed c s) = standing s := by
  simp [askServed]

@[simp] theorem standing_grantThread (c : Nat) (o : ThreadOffer) (loser : Option ThreadOffer) (s : Block) :
    standing (grantThread c o loser s) = standing s := by
  cases loser <;> simp [grantThread]

@[simp] theorem standing_decideAsk (c : Nat) (windowOver : Bool) (s : Block) :
    standing (decideAsk c windowOver s) = standing s := by
  unfold decideAsk
  dsimp only
  repeat' split
  all_goals simp

@[simp] theorem standing_drivePreempt (c : Nat) (why : PreemptWhy) (s : Block) :
    standing (drivePreempt c why s) = standing s := by
  unfold drivePreempt
  dsimp only
  repeat' split
  all_goals simp

theorem standing_arbiterLose (t : TwinId) (s : Block) : standing (arbiterLose t s) = standing s := by
  unfold arbiterLose
  refine (forEach_keeps standing _ _ _ fun c s => ?_).trans (standing_upThrd t _ s)
  dsimp only
  repeat' split
  all_goals simp

theorem standing_sendClaim (d : TwinId) (i : ClaimItem) (s : Block) : standing (sendClaim d i s) = standing s := by
  simp [standing]

theorem standing_sendBack (t : TwinId) (heldToo : Bool) (p : Copy → Bool) (s : Block) :
    standing (sendBack t heldToo p s) = standing s := by
  unfold sendBack
  exact (forEach_keeps standing _ _ _ fun c s => standing_sendClaim _ _ s).trans (standing_upTw t _ s fun _ => rfl)

/-! ## A DETACH that is taken -/

theorem changesOnly_pairStatus (st : Nat) (s : Block) : changesOnly [.pair] s (pairStatus st s) := by
  intro p hp
  cases p with
  | pair => exact absurd (List.mem_singleton_self _) hp
  | regs => exact fun _ _ => rfl
  | errs => exact fun _ _ => rfl
  | ctrs => exact fun _ _ => rfl
  | _ => simp [Part.same, pairStatus]

theorem detach_refused {s : Block} {t : TwinId} (h : detachStatus s t ≠ 0) :
    detach t s = pairStatus (detachStatus s t) s := if_pos h

theorem standing_detach_accepted {s : Block} {t : TwinId} (h : detachStatus s t = 0) :
    standing (detach t s) = standing (pairStatus 0
      (upPair (fun p => { p with op := some (.detach, t), handed := false }) (setSvc t .detaching s))) := by
  have haccepted : detach t s = sendBack t true (fun _ => true) (arbiterLose t (pairStatus 0
      (upPair (fun p => { p with op := some (.detach, t), handed := false }) (setSvc t .detaching s)))) :=
    if_neg (not_not_intro h)
  rw [haccepted, standing_sendBack, standing_arbiterLose]

theorem detach_accepted_pair {s : Block} {t : TwinId} (h : detachStatus s t = 0) :
    (detach t s).pair = { s.pair with op := some (.detach, t), handed := false, status := 0 } := by
  rw [standing_pair (standing_detach_accepted h)]
  simp [pairStatus, setSvc]

theorem detach_accepted_svc {s : Block} {t : TwinId} (h : detachStatus s t = 0) :
    (tw (detach t s) t).svc = .detaching := by
  rw [standing_svc (standing_detach_accepted h) t]
  simp [pairStatus, setSvc]

theorem deed_detach {s : Block} {src : Requester} {t : TwinId} (hserved : served s src blkKey = true)
    (hop : s.pair.op = none) : deed (.detach src t) s = detach t s := by
  have htaken : pairCtl (detach t) s = detach t s := by simp [pairCtl, hop]
  exact (pageCmd_served _ hserved).trans htaken

/-- Settles O51: the status is the number of a case that holds or 0, and what follows from it is the refusal or the
start of the detach. -/
theorem detachIsRefusedByItsCases : Obligations.DetachIsRefusedByItsCases := by
  refine fun src t => does_of fun a _ refusal hrefusal hwf hserved hop => ?_
  have hcase : ∀ n, refusal n ↔ detachRefusal a t n := hrefusal
  simp only [hcase, deed_detach hserved hop]
  rcases detachStatus_cases t hwf with ⟨hst, hholds⟩ | ⟨hst, hnone⟩
  · refine ⟨fun _ => ?_, fun hnone => absurd hholds (hnone _)⟩
    rw [detach_refused hst]
    exact ⟨hholds, rfl, changesOnly_pairStatus _ a⟩
  · exact ⟨fun ⟨n, hn⟩ => absurd hn (hnone n), fun _ => ⟨detach_accepted_pair hst, detach_accepted_svc hst⟩⟩

end Sys2Proof.Machine

/-! # PAGE_STAT of every page (17, R412)

The word is three flags put in their places, and each is read back on its own. ERR_ANY is the bits of ERR_STAT cut by
the complement of ERR_MASK, and FROZEN is what sends a read of a counter to the view of the freeze. A write is idle:
PAGE_STAT has no action on any page, and no page type has a bit of its own that is writable, shadowed, locked or the
manager's below 0x100. -/

namespace Sys2Proof.Machine

open Sys2Proof.Safety

/-! ## The fields of the word -/

/-- The word that ENABLED `e`, ERR_ANY `r` and FROZEN `f` make. -/
def statWord (e r f : Bool) : Nat := b2n e * 2 ^ 63 + b2n r * 2 ^ 62 + b2n f * 2 ^ 61

theorem pageStat_eq_statWord (s : Block) (key : Nat) :
    pageStat s key = statWord (pageEnabled s key) (errAny (pageOf s key)) s.freeze.frozen.isSome := rfl

/-- The three flags lie in bits 63, 62 and 61 of 64, over zeros. -/
theorem statWord_fields : ∀ e r f : Bool, statWord e r f < 2 ^ 64 ∧ bitOf (statWord e r f) 63 = e
    ∧ bitOf (statWord e r f) 62 = r ∧ bitOf (statWord e r f) 61 = f ∧ fld (statWord e r f) 60 0 = 0 := by decide

theorem pageStat_fields (s : Block) (key : Nat) : pageStat s key < 2 ^ 64
    ∧ bitOf (pageStat s key) 63 = pageEnabled s key ∧ bitOf (pageStat s key) 62 = errAny (pageOf s key)
    ∧ bitOf (pageStat s key) 61 = s.freeze.frozen.isSome ∧ fld (pageStat s key) 60 0 = 0 :=
  pageStat_eq_statWord s key ▸ statWord_fields _ _ _

/-- PAGE_CTRL reads ENABLE in bit 0. -/
theorem bitOf_regValue_pageCtrl (s : Block) (key : Nat) : bitOf (regValue s key 0x008) 0 = pageEnabled s key := by
  have hbit : ∀ c : Bool, bitOf (b2n c) 0 = c := by decide
  exact hbit _

theorem errAny_iff {p : Page} (h : p.errMask < 2 ^ 64) :
    errAny p = true ↔ ∃ n, n < 64 ∧ bitOf p.errStat n = true ∧ bitOf p.errMask n = false := by
  have hcut (n : Nat) : (p.errStat &&& (2 ^ 64 - 1 - p.errMask)).testBit n = true
      ↔ n < 64 ∧ bitOf p.errStat n = true ∧ bitOf p.errMask n = false := by
    have hcomplement : 2 ^ 64 - 1 - p.errMask = 2 ^ 64 - (p.errMask + 1) := by omega
    rw [Nat.testBit_and, hcomplement, Nat.testBit_two_pow_sub_succ h]
    simp [bitOf, and_left_comm]
  simp only [errAny, bne_iff_ne, ← hcut]
  refine ⟨Nat.exists_testBit_of_ne_zero, fun ⟨n, hn⟩ hzero => ?_⟩
  simp only [hzero, Nat.zero_testBit, Bool.false_eq_true] at hn

theorem regValue_counter (s : Block) (key : Nat) {off : Nat} (hlo : 0x040 ≤ off) (hhi : off < 0x100) :
    regValue s key off = ctrRead s key off := by
  unfold regValue
  split
  case h_8 => simp [hhi, show ¬ off < 0x40 by omega]
  all_goals omega

/-- While a freeze stands, the counters read as it took them (R383). -/
theorem frozen_isSome_iff (s : Block) (key : Nat) : s.freeze.frozen.isSome = true ↔ ∃ f, s.freeze.frozen = some f
    ∧ ∀ off, 0x040 ≤ off → off < 0x100 → regValue s key off = mapGet 0 (mapGet [] f.pages key) off := by
  rw [Option.isSome_iff_exists]
  refine exists_congr fun f => ⟨fun hf => ⟨hf, fun off hlo hhi => ?_⟩, And.left⟩
  simp [regValue_counter s key hlo hhi, ctrRead, hf]

/-! ## The read -/

/-- A read of 8 B by the manager or the context's owner answers the value of the register (R9, R285), at any offset but
that of PEEK_DATA, where R64 checks the selection. -/
theorem registerRead_graded {s : Block} {src : Requester} {a key off : Nat} (ha : placeOf a = .page key off)
    (hoff : off % 8 = 0) (hpeek : off ≠ 0x120) (hh : held s src = false)
    (hg : gradeOf s src (if 256 ≤ key then some (key - 256) else none) = .manager
      ∨ gradeOf s src (if 256 ≤ key then some (key - 256) else none) = .owner) :
    registerRead src a 8 s = emit (.reply (regValue s key off)) s := by
  have hacc : accessOf off 8 = some .full := by simp [accessOf, hoff]
  have hat : off / 8 * 8 = off := Nat.div_mul_cancel (Nat.dvd_of_mod_eq_zero hoff)
  rcases hg with hg | hg <;> simp [registerRead, hh, ha, pageRead, hg, hacc, hat, partOf, peekCheck, hpeek]

/-! ## The write -/

theorem rwMask_below {ty off : Nat} (h : off < 0x100) : rwMask ty off = 0 := by
  unfold rwMask
  repeat' split
  all_goals omega

theorem rwsMask_below {ty off : Nat} (h : off < 0x100) : rwsMask ty off = 0 := by
  unfold rwsMask
  split <;> omega

theorem lockedByEnable_below {ty off : Nat} (h : off < 0x100) : lockedByEnable ty off = 0 := by
  unfold lockedByEnable
  repeat' split
  all_goals omega

theorem lockedMask_below (s : Block) (key : Nat) {off : Nat} (h : off < 0x100) : lockedMask s key off = 0 := by
  simp [lockedMask, lockedByEnable_below h, rwMask_below h, show off ≠ 0x230 by omega]

theorem managerOnly_below {ty off : Nat} (h : off < 0x100) : managerOnly ty off = 0 := by
  unfold managerOnly
  repeat' split
  all_goals omega

theorem rangeAt_below {ty off : Nat} (h : off < 0x100) : rangeAt ty off = none := by
  unfold rangeAt
  split
  case h_9 => rfl
  all_goals omega

theorem writeTwin_pageStat (t : TwinId) (p : Nat) (acc : Access) (v : Nat) (s : Block) :
    writeTwin t p 0x010 acc v s = none := by
  have hlast : isLast p 0x010 = false := by simp [isLast]
  simp [writeTwin, rangeAt_below, hlast]

theorem writeAction_pageStat (key : Nat) (acc : Access) (v : Nat) (s : Block) :
    writeAction key 0x010 acc v s = none := by
  unfold writeAction
  split_ifs
  · rfl
  · exact writeTwin_pageStat ..
  · split <;> rfl

theorem writeReg_pageStat (g : Grade) (key : Nat) (acc : Access) (v : Nat) (s : Block) :
    writeReg g key 0x010 acc v s = s :=
  have hbelow : 0x010 < 0x100 := by decide
  writeReg_readOnly g rfl (writeAction_pageStat key acc v s) (rwMask_below hbelow) (rwsMask_below hbelow)
    (lockedMask_below s key hbelow) (managerOnly_below hbelow)

theorem registerWrite_pageStat {s : Block} {src : Requester} {a size v key off : Nat} {acc : Access}
    (ha : placeOf a = .page key off) (hoff : off / 8 = 2) (hacc : accessOf off size = some acc)
    (hs : served s src key = true) : registerWrite src a size v s = s := by
  have hput : isPut key (off / 8 * 8) = false := by simp [isPut, hoff]
  obtain ⟨g, hw⟩ := registerWrite_served ha hacc hput hs
  rw [hw, hoff]
  exact writeReg_pageStat g key acc _ s

/-- Settles O48: a read answers three bits, each what R412 says of it; a write meets neither an action nor a writable
bit; and at reset no page is enabled, no error is recorded and no freeze stands. -/
theorem pageStatSummarisesThePage : Obligations.PageStatSummarisesThePage := by
  refine ⟨fun src addr => does_of fun a hout key hplace hheld hgrade hmask => ?_,
    fun src addr size v => does_of fun a _ key o acc hplace ho hacc hserved =>
      registerWrite_pageStat hplace ho hacc hserved, fun key => ?_⟩
  · have hread : deed (.registerRead src (.cts addr) 8) a = emit (.reply (pageStat a key)) a :=
      registerRead_graded hplace (by decide) (by decide) hheld hgrade
    obtain ⟨hlt, henabled, herr, hfrozen, hzero⟩ := pageStat_fields a key
    rw [hread]
    exact ⟨pageStat a key, by simp [emit, hout], hlt,
      henabled.trans (bitOf_regValue_pageCtrl a key).symm, herr ▸ errAny_iff hmask,
      hfrozen ▸ frozen_isSome_iff a key, hzero, changesOnly_emit _ a⟩
  · have henabled : pageEnabled State.reset.blk key = false := by
      unfold pageEnabled
      split <;> rfl
    have hstat : regValue State.reset.blk key 0x010
        = statWord (pageEnabled State.reset.blk key) (errAny (pageOf State.reset.blk key)) false := rfl
    have hpage : pageOf State.reset.blk key = {} := rfl
    simp [hstat, henabled, hpage, errAny, statWord, b2n]

end Sys2Proof.Machine
